-- ==== Sys2Proof/Word.lean ====
section
/-!
DEFINITION. The plain data types the whole model shares: fixed small tuples, the names of the
module's replicated parts, exact dyadic numbers (the finite values of IEEE 754 binary64) and the
kinematic records of chapters 03 and 04.
-/
namespace Sys2Proof

/-- Two like things: sides A and B, ports A and B, AP-1 and AP-2, copies A and B. -/
structure Two (α : Type) where
  a : α
  b : α
  deriving DecidableEq, Repr

/-- Three like things: the safety cores SC-A, SC-B and SC-C. -/
structure Three (α : Type) where
  a : α
  b : α
  c : α
  deriving DecidableEq, Repr

/-- Five like things: SC-A, SC-B, SC-C, AP-1 and AP-2 (00 R17). -/
structure Five (α : Type) where
  a : α
  b : α
  c : α
  d : α
  e : α
  deriving DecidableEq, Repr

/-- A vector over the four states p, v, b and k of the fusion filter (03 R71). -/
structure FourOf (α : Type) where
  p : α
  v : α
  b : α
  k : α
  deriving DecidableEq, Repr

/-- The name of one of two. -/
inductive Ab where
  | a | b
  deriving DecidableEq, Repr

/-- The name of a safety core. -/
inductive CoreId where
  | a | b | c
  deriving DecidableEq, Repr

/-- The name of one of the five processors that keep an estimate. -/
inductive ProcId where
  | a | b | c | d | e
  deriving DecidableEq, Repr

/-- The other of two. -/
def Ab.other : Ab → Ab
  | .a => .b
  | .b => .a

/-- 0 for a, 1 for b. -/
def Ab.idx : Ab → Nat
  | .a => 0
  | .b => 1

/-- 0 to 2. -/
def CoreId.idx : CoreId → Nat
  | .a => 0
  | .b => 1
  | .c => 2

/-- 0 to 4. -/
def ProcId.idx : ProcId → Nat
  | .a => 0
  | .b => 1
  | .c => 2
  | .d => 3
  | .e => 4

/-- The estimate of a safety core. -/
def CoreId.proc : CoreId → ProcId
  | .a => .a
  | .b => .b
  | .c => .c

/-- The estimate of an application processor. -/
def Ab.proc : Ab → ProcId
  | .a => .d
  | .b => .e

/-- Read one of two. -/
def Two.get {α : Type} (t : Two α) : Ab → α
  | .a => t.a
  | .b => t.b

/-- Write one of two. -/
def Two.set {α : Type} (t : Two α) (i : Ab) (x : α) : Two α :=
  match i with
  | .a => { t with a := x }
  | .b => { t with b := x }

/-- Change one of two. -/
def Two.upd {α : Type} (t : Two α) (i : Ab) (f : α → α) : Two α := t.set i (f (t.get i))

/-- Apply to both. -/
def Two.map {α β : Type} (t : Two α) (f : Ab → α → β) : Two β := ⟨f .a t.a, f .b t.b⟩

/-- Both as a list. -/
def Two.toList {α : Type} (t : Two α) : List α := [t.a, t.b]

/-- Read one of three. -/
def Three.get {α : Type} (t : Three α) : CoreId → α
  | .a => t.a
  | .b => t.b
  | .c => t.c

/-- Write one of three. -/
def Three.set {α : Type} (t : Three α) (i : CoreId) (x : α) : Three α :=
  match i with
  | .a => { t with a := x }
  | .b => { t with b := x }
  | .c => { t with c := x }

/-- Change one of three. -/
def Three.upd {α : Type} (t : Three α) (i : CoreId) (f : α → α) : Three α := t.set i (f (t.get i))

/-- Apply to all three. -/
def Three.map {α β : Type} (t : Three α) (f : CoreId → α → β) : Three β :=
  ⟨f .a t.a, f .b t.b, f .c t.c⟩

/-- All three as a list. -/
def Three.toList {α : Type} (t : Three α) : List α := [t.a, t.b, t.c]

/-- How many of three are true. -/
def Three.count (t : Three Bool) : Nat := (t.toList.filter id).length

/-- Read one of five. -/
def Five.get {α : Type} (t : Five α) : ProcId → α
  | .a => t.a
  | .b => t.b
  | .c => t.c
  | .d => t.d
  | .e => t.e

/-- Write one of five. -/
def Five.set {α : Type} (t : Five α) (i : ProcId) (x : α) : Five α :=
  match i with
  | .a => { t with a := x }
  | .b => { t with b := x }
  | .c => { t with c := x }
  | .d => { t with d := x }
  | .e => { t with e := x }

/-- Apply to all five. -/
def Five.map {α β : Type} (t : Five α) (f : ProcId → α → β) : Five β :=
  ⟨f .a t.a, f .b t.b, f .c t.c, f .d t.d, f .e t.e⟩

/-- A finite binary64 value (03 R71) as mant · 2^exp. Canonical: mant odd, or 0 with exp 0. -/
structure Dbl where
  mant : Int
  exp : Int
  deriving DecidableEq, Repr

/-- The value zero. -/
def Dbl.zero : Dbl := ⟨0, 0⟩

/-- The engine's kinematic state in units of 2^-20 µm, µm/s and µm/s² (04 R99). -/
structure Kin where
  p : Int
  v : Int
  a : Int
  deriving DecidableEq, Repr

/-- At rest at a position in µm. -/
def Kin.rest (p : Int) : Kin := ⟨p * 1048576, 0, 0⟩

/-- A plan segment: a jerk in µm/s³ held for a duration in units of 10 ns (04 R98). -/
structure Seg where
  j : Int
  t : Nat
  deriving DecidableEq, Repr

/-- A plan as handed to the engine (04 R98): identifier, kind (0 SERVICE, 1 LEVEL_CORR, 2 RELEVEL,
3 INSPECT, 4 EVAC, 5 HOME, 6 LEARN), switch frame, start state, target, segments. -/
structure Plan where
  id : Nat
  kind : Nat
  switch : Nat
  start : Kin
  target : Int
  segs : List Seg
  deriving DecidableEq, Repr

/-- No plan. -/
def Plan.empty : Plan := ⟨0, 0, 0, Kin.rest 0, 0, []⟩

/-- The stops of 04 R108. -/
inductive StopKind where
  | safe | ramp | immediate
  deriving DecidableEq, Repr

/-- The verdict mailbox of 03 R77. -/
inductive Verdict where
  | none
  | core (c : CoreId)
  | threeWay
  deriving DecidableEq, Repr

/-- The unit states of 01 R25, in the order of their codes. -/
inductive UState where
  | off | starting | on | stopping | fault | bypassed | test
  deriving DecidableEq, Repr

end Sys2Proof
end

