-- ==== Sys2Proof/Syntax.lean ====
section
/-!
DEFINITION. The commands the block takes: one constructor of `Instr` per row of
spec/opcode_table.json, with the row's operands. A host command carries its tag and the fields of
its request payload (14 R460); an event carries what the module's hardware observes in that event,
where no other command samples it.
-/
namespace Sys2Proof

/-- What the SECDED check of a memory word finds (01 R19): nothing, a single-bit error, which it
corrects, or a double-bit error, which makes the word unusable. -/
inductive Ecc where
  | fine | single | double
  deriving DecidableEq, Repr

/-- What is read from a protected memory, and what its ECC found (01 R18, R19). -/
structure Kept (α : Type) where
  val : α
  ecc : Ecc
  deriving DecidableEq, Repr

/-- One SSI poll of a tape reader (03 R63). -/
structure TapePoll where
  /-- the data line went low within 2 µs of the first clock edge (03 R65) -/
  low : Bool
  /-- position word -/
  raw : Nat
  /-- status bits, the first one (the error flag) most significant -/
  status : Nat
  /-- the six CRC bits as received (inverted) -/
  crc : Nat
  /-- fine timestamp of the first falling clock edge, in 10 ns -/
  ts : Nat
  /-- memory ECC of the word (01 R15, R20) -/
  ecc : Ecc
  deriving DecidableEq, Repr

/-- One accelerometer sample (03 R70): sequence number and 16-bit readings of ±4 g. -/
structure AccSample where
  /-- fine timestamp in 10 ns (02 R38; 03 R61) -/
  ts : Nat
  seq : Nat
  x : Int
  y : Int
  z : Int
  deriving DecidableEq, Repr

/-- A condition an application processor shows in a frame (09 R288). -/
inductive ApCond where
  | fine
  /-- no PLL lock, a control-flow monitor failure or a double-bit ECC error -/
  | integrity
  /-- it delivers nothing -/
  | dead
  deriving DecidableEq, Repr

/-- Failures that the module's self-checks find in a frame. -/
structure SelfIn where
  /-- the voter's readback of its decided bits differs from its decision (09 R299, 0x16) -/
  voter : Bool
  /-- the gating readback differs from the tether in force (09 R299, 0x17) -/
  gating : Bool
  /-- a modulator or the meter's data path fails its self-check (12 R413, 0xC0) -/
  meter : Bool
  /-- the secure element fails its self-test or does not answer (16 R511, 0xE0) -/
  secure : Bool
  /-- a core under a proof test fails one of its tests (09 R279, 0x13) -/
  proof : Bool
  deriving DecidableEq, Repr

/-- What the module samples in one frame beyond the link and the bus. -/
structure FrameIn where
  /-- tape polls completed in the frame before (03 R62) -/
  polls : Two TapePoll
  /-- encoder count with interpolated phase, latched at the tick (03 R61) -/
  enc : Int
  /-- its fine timestamp in 10 ns (02 R38; 03 R61) -/
  encTs : Nat
  /-- a terminal limit or final limit switch is active (03 R88) -/
  limitSw : Bool
  /-- an encoder violation was seen in the frame before (03 R68, R69) -/
  encViol : Bool
  /-- newest accelerometer sample (03 R61) -/
  acc : AccSample
  /-- memory ECC of the encoder count and of the accelerometer sample (01 R15) -/
  encEcc : Ecc
  accEcc : Ecc
  /-- subsystems, by their numbers in 01 R14, in whose SRAM a single-bit error was corrected (01 R19) -/
  sram : List Nat
  /-- safety cores whose vector is latched after the vote deadline (02 R42) -/
  late : Three Bool
  /-- safety cores that deliver no vector for a reason of their own (09 R273) -/
  dead : Three Bool
  /-- application processors that miss offset 210 µs (02 R46, R47) -/
  apLate : Two Bool
  /-- what the application processors show (09 R288) -/
  ap : Two ApCond
  /-- bits by which the output and the state digest of a processor differ from those of what it computes (09 R285) -/
  digestErr : Two (Nat × Nat)
  /-- memory ECC of the source words of this frame's delta and snapshot chunk (09 R286) -/
  deltaEcc : Ecc
  chunkEcc : Ecc
  /-- spool entries that spare time completes in this frame (05 R142) -/
  specDone : Nat
  /-- VIN in 10 mV, input power in mW, logic temperature in 0.1 °C (15 R489) -/
  vin : Nat
  power : Nat
  temp : Int
  /-- currents of the output channels in mA and of the channel groups (10 R334, R336) -/
  chCur : List (Nat × Nat)
  chTemp : List (Nat × Int)
  groupCur : List (Nat × Nat)
  /-- object whose frame is in progress on each port at the tick (11 R359) -/
  onBus : Two (Option Nat)
  /-- terminal voltages of output channels in mV, where they are not what their driver gives (10 R325) -/
  term : List (Nat × Nat)
  /-- the readings of the four VF_SENSE contacts of each domain in 10 mV (18 R532) and the field controller's
  temperature (10 R336) -/
  vf : Two (List Nat)
  die : Int
  /-- loads and cancels from the application processor without the tether (04 R123) -/
  strayPlans : Nat
  /-- the engine's fixed-point cross-check differs (04 R125) -/
  engineBad : Bool
  /-- what the module's self-checks find in this frame -/
  checks : SelfIn
  /-- memory ECC of the motion plan handed over, of the setpoint's source words, of the door setpoints
  and of the records written in this frame (01 R15, R18) -/
  planEcc : Ecc
  spEcc : Ecc
  doorEcc : Two Ecc
  recEcc : Ecc
  deriving DecidableEq, Repr

/-- What the encoder monitor finds (03 R68, R69). -/
inductive EncCause where
  /-- so many consecutive samples outside the amplitude range -/
  | amplitude (samples : Nat)
  /-- an edge rate in Hz -/
  | rate (hz : Nat)
  /-- both tracks changed so many ns apart -/
  | both (ns : Nat)
  deriving DecidableEq, Repr

/-- What the accelerometer monitor finds (03 R70). -/
inductive AccCause where
  /-- consecutive stale samples -/
  | stale
  /-- the 256-frame mean differs from the tape-derived acceleration -/
  | mean
  deriving DecidableEq, Repr

/-- What a door drive engine samples for one current-loop update (06 R155 to R158, R187). -/
structure DoorIn where
  /-- samples of the inputs U and W in LSB of the converter, one at the centre and one at the edge of
  each PWM period, oldest first -/
  cur : List (Int × Int)
  /-- the thrust-producing current i_q in mA, positive in the opening direction -/
  iq : Int
  /-- the two samples of the bus voltage in 0.1 V -/
  udc : Nat × Nat
  /-- the motor feedback after its filter, oldest first: the states of the Hall sensors, or of tracks A (bit 1)
  and B (bit 0) -/
  fb : List Nat
  /-- an edge rate above 1 MHz, or both tracks changed within 50 ns (quadrature) -/
  fast : Bool
  /-- on-times in DRV cycles read back from the gate outputs over the last PWM period: high side and low side
  of U, V and W -/
  gateOn : List Nat
  deriving DecidableEq, Repr

/-- One reading of an acceleration or braking phase of stroke 5: thrust in 0.1 N, position in µm, velocity in
µm/s and acceleration in µm/s² (06 R169, R170). -/
structure MassSample where
  f : Int
  x : Int
  v : Int
  a : Int
  deriving DecidableEq, Repr

/-- What the strokes of a learning cycle measured (06 R169): thrusts in 0.1 N at the 16 points of the
closer map, door widths in µm, readings of the acceleration and of the braking phases of stroke 5, and the
mean residual of stroke 6 in 0.1 N. -/
structure DoorLearnIn where
  open05 : List Int
  close05 : List Int
  open10 : List Int
  close10 : List Int
  width1 : Nat
  width2 : Nat
  acc : List MassSample
  dec : List MassSample
  residual : Int
  deriving DecidableEq, Repr

/-- What drives the gates of a door bridge low (06 R154). -/
inductive TripCause where
  /-- a sample of the inputs U and W in LSB, for the comparators -/
  | current (iu : Int) (iw : Int)
  /-- the bus voltage in 0.1 V -/
  | bus (udc : Nat)
  | permit
  | integrity
  deriving DecidableEq, Repr

/-- Why an output is switched off (10 R323). -/
inductive LimitCause where
  /-- in current limit for so many µs -/
  | current (us : Nat)
  /-- the driver's temperature in 0.1 °C -/
  | temp (t : Int)
  deriving DecidableEq, Repr

/-- What a test pulse shows (10 R329, R321). -/
structure PulseIn where
  /-- RB of the pulsed channel was set in any of link ticks 20 to 27 -/
  rb : Bool
  /-- outputs whose RB, and inputs whose raw samples, followed the pulse: off in every one of link ticks 20 to
  27, the outputs' RB set at link ticks 3 and 31 -/
  followers : List Nat
  /-- inputs that had a raw sample on in link ticks 20 to 27 -/
  held : List Nat
  deriving DecidableEq, Repr

/-- A CAN frame as received (11 R344). -/
structure CanFrame where
  ext : Bool
  ident : Nat
  fflags : Nat
  data : List Nat
  /-- reception timestamp in 10 ns -/
  time : Nat
  /-- a remote frame (11 R339) -/
  rtr : Bool := false
  deriving DecidableEq, Repr

/-- What wakes a sleeping port (11 R359). -/
inductive WakeCause where
  /-- a dominant state of the bus that has lasted so long, in ns -/
  | dominant (ns : Nat)
  /-- a frame received in the low-power mode -/
  | frame (f : CanFrame)
  /-- the frame error counter -/
  | errors (n : Nat)
  deriving DecidableEq, Repr

/-- A wake source of the module (15 R485). -/
inductive WakeSource where
  /-- car movement: whole line periods of the encoder, and the newest samples of the vertical acceleration in µm/s² -/
  | movement (lines : Nat) (acc : List Int)
  /-- a fall of CS_N at the host port -/
  | hostSelect
  /-- a bus wake of a port -/
  | bus (port : Ab)
  /-- a debounced transition of a field input -/
  | input (ch : Nat)
  /-- a safety function block leaves ARMED -/
  | block (handle : Nat)
  /-- a fault of class F1 or above -/
  | fault (unit code : Nat)
  deriving DecidableEq, Repr

/-- A core and whether it has passed its own watchdog and ECC self-checks since its exclusion (09 R278). -/
structure Readmit where
  core : CoreId
  checked : Bool
  deriving DecidableEq, Repr

/-- A clock gate (02 R51): its counts, in the order of the CLK_DEV parameters of R60, and the clocks whose
PLL lost lock in it. -/
structure GateEnd where
  counts : List Nat
  unlocked : List Nat
  deriving DecidableEq, Repr

/-- The last sample of an input in mV (IN_WB: in µA), and how many samples in a row lay at 0.35 mA or more
(10 R318 to R320). -/
structure InSample where
  reading : Nat
  unbroken : Nat
  deriving DecidableEq, Repr

/-- The flags of BUS_SLEEP, and the object whose frame is in progress on the port (11 R359). -/
structure SleepFlags where
  flags : Nat
  onBus : Option Nat
  deriving DecidableEq, Repr

/-- How a transmission attempt ends (11 R345, R355 to R358). -/
inductive TxResult where
  /-- sent and acknowledged -/
  | sent
  /-- lost arbitration -/
  | lostArb
  /-- a transmit error that raises TEC by so much -/
  | error (inc : Nat)
  /-- the attempt ended in a clash with another sender of the identifier -/
  | clash (inc : Nat)
  /-- no acknowledgement -/
  | noAck (inc : Nat)
  deriving DecidableEq, Repr

/-- A transmission attempt: its start of frame in 10 ns, and how it ends. -/
structure TxAttempt where
  sof : Nat
  res : TxResult
  deriving DecidableEq, Repr

/-- A wake event of a port (11 R359, R361). -/
structure PortWaking where
  port : Ab
  cause : WakeCause
  deriving DecidableEq, Repr

/-- What ends a half-cycle of the meter (12 R386, R387, R399). -/
structure HalfIn where
  /-- the reference crosses zero; else a half-cycle of nominal length ends (12 R387) -/
  cross : Bool
  /-- duration of the half-cycle in 0.1 µs -/
  dur : Nat
  /-- the crossing is positive-going (12 R386) -/
  rising : Bool
  /-- µs from the serving frame's tick to the crossing -/
  off : Nat
  deriving DecidableEq, Repr

/-- An entry of UNIT_SET and its like (14 R458): parameter ID and value bytes. -/
structure SetEntry where
  id : Nat
  val : List Nat
  deriving DecidableEq, Repr

/-- An entry of CAB_STAGE (14 R460): handle, parameter ID and value bytes. -/
structure StageEntry where
  handle : Nat
  id : Nat
  val : List Nat
  deriving DecidableEq, Repr

/-- What a safety core reads from the image store when it boots (16 R496 to R498). -/
inductive CoreBoot where
  /-- what the store holds -/
  | asStored
  /-- an image that verifies and has another digest -/
  | otherImage
  /-- nothing that verifies -/
  | nothing
  deriving DecidableEq, Repr

/-- The commands, in the order of spec/opcode_table.json. -/
inductive Instr where
  /-- FRAME_TICK. 02 R36: the frame tick, with what the module samples in that frame. -/
  | frameTick (inp : FrameIn)
  /-- CORE_DISCORD. 03 R78: on the verdict mailbox of an application processor. -/
  | coreDiscord (ap : Ab)
  /-- AP_EST_DISCORD. 03 R79. -/
  | apEstDiscord (ap : Ab)
  /-- TAPE_READER_LOST. 03 R65: reader 1 (a) or 2 (b). -/
  | tapeReaderLost (r : Ab)
  /-- TAPE_READER_REINSTATED. 03 R66. -/
  | tapeReaderReinstated (r : Ab)
  /-- TAPE_PAIR_DISCORD. 03 R67. -/
  | tapePairDiscord
  /-- ENC_FAULT. 03 R68: what the encoder monitor found. -/
  | encFault (cause : EncCause)
  /-- ACC_FAULT. 03 R70: stale samples or the 256-frame mean. -/
  | accFault (cause : AccCause)
  /-- TRACTION_SLIP. 03 R80. -/
  | tractionSlip
  /-- LEARN_RUN. 14 R460 opcode 0x24. -/
  | learnRun (tag : Nat)
  /-- LEARN_RUN_COMPLETE. 03 R85. -/
  | learnRunComplete
  /-- HOME. 14 R460 opcode 0x25. -/
  | home (tag : Nat) (dir : Nat)
  /-- HOME_COMPLETE. 03 R87. -/
  | homeComplete
  /-- POSITION_RECOVERY. 03 R94: in one processor. -/
  | positionRecovery (p : ProcId)
  /-- RECOVERY_TIMEOUT. 17 R513: in one processor. -/
  | recoveryTimeout (p : ProcId)
  /-- ENGINE_STOP_END. 04 R108. -/
  | engineStopEnd
  /-- DRV_START_TIMEOUT. 04 R112. -/
  | drvStartTimeout
  /-- PLAN_END. 04 R113. -/
  | planEnd
  /-- LEVEL_SETTLE_END. 04 R113. -/
  | levelSettleEnd
  /-- RELEVEL_START. 04 R114. -/
  | relevelStart
  /-- RELEVEL_TIMEOUT. 04 R114. -/
  | relevelTimeout
  /-- DRIVE_FEEDBACK. 04 R120 R121: the 32 bytes of the feedback message taken at the freeze, and the instant in µs at which its last bit was received. -/
  | driveFeedback (msg : List Nat) (rx : Nat)
  /-- DRV_FB_TIMEOUT. 04 R121. -/
  | drvFbTimeout
  /-- TRACK_VEL. 04 R122. -/
  | trackVel
  /-- CALL_ADD. 14 R460 opcode 0x20. -/
  | callAdd (tag : Nat) (landing : Nat) (kind : Nat) (sides : Nat)
  /-- CALL_CANCEL. 14 R460 opcode 0x21. -/
  | callCancel (tag : Nat) (landing : Nat) (kind : Nat) (sides : Nat)
  /-- RUN_TO. 14 R460 opcode 0x22. -/
  | runTo (tag : Nat) (landing : Nat) (sides : Nat)
  /-- STOP_AT_LANDING. 14 R460 opcode 0x23, mode 0. -/
  | stopAtLanding (tag : Nat)
  /-- STOP_IMMEDIATE. 14 R460 opcode 0x23, mode 1. -/
  | stopImmediate (tag : Nat)
  /-- STOP_EMERGENCY_RAMP. 14 R460 opcode 0x23, mode 2. -/
  | stopEmergencyRamp (tag : Nat)
  /-- GROUP_ASSIGN. 11 R369: a GROUP_CMD message with OP ASSIGN. -/
  | groupAssign (port : Ab) (msg : List Nat)
  /-- GROUP_WITHDRAW. 11 R369: a GROUP_CMD message with OP WITHDRAW. -/
  | groupWithdraw (port : Ab) (msg : List Nat)
  /-- GROUP_HB. 11 R371: a group heartbeat. -/
  | groupHb (port : Ab) (msg : List Nat)
  /-- GROUP_LOST. 05 R137. -/
  | groupLost
  /-- PARK_DELAY_EXPIRED. 05 R146. -/
  | parkDelayExpired
  /-- SCHED_STALL. 05 R148. -/
  | schedStall
  /-- PANEL_CALL_ADD. 11 R373: PANEL_BTN with OP 1. -/
  | panelCallAdd (port : Ab) (msg : List Nat)
  /-- PANEL_CALL_CANCEL. 11 R373: PANEL_BTN with OP 2. -/
  | panelCallCancel (port : Ab) (msg : List Nat)
  /-- PANEL_DOOR_OPEN. 11 R373: PANEL_BTN with OP 3. -/
  | panelDoorOpen (port : Ab) (msg : List Nat)
  /-- PANEL_DOOR_CLOSE. 11 R373: PANEL_BTN with OP 4. -/
  | panelDoorClose (port : Ab) (msg : List Nat)
  /-- HALL_BTN. 11 R374. -/
  | hallBtn (port : Ab) (ident : Nat) (msg : List Nat)
  /-- IND_REFRESH. 11 R375. -/
  | indRefresh
  /-- DOOR_CURRENT_LOOP_UPDATE. 06 R158: with the samples of the update. -/
  | doorCurrentLoopUpdate (side : Ab) (inp : DoorIn)
  /-- BRIDGE_TRIP. 06 R154. -/
  | bridgeTrip (side : Ab) (cause : TripCause)
  /-- KE_BOUND_EXCEEDED. 06 R175. -/
  | keBoundExceeded (side : Ab)
  /-- OBSTRUCTION_DETECTED. 06 R179. -/
  | obstructionDetected (side : Ab)
  /-- FINAL_APPROACH_TIMEOUT. 06 R178. -/
  | finalApproachTimeout (side : Ab)
  /-- DOOR_TIME_LIMIT. 06 R182. -/
  | doorTimeLimit (side : Ab)
  /-- DOOR_OPEN. 14 R460 opcode 0x30. -/
  | doorOpen (tag : Nat) (sides : Nat)
  /-- DOOR_CLOSE. 14 R460 opcode 0x31. -/
  | doorClose (tag : Nat) (sides : Nat)
  /-- DOOR_HOLD. 14 R460 opcode 0x32. -/
  | doorHold (tag : Nat) (sides : Nat)
  /-- DOOR_NUDGE. 14 R460 opcode 0x33. -/
  | doorNudge (tag : Nat) (sides : Nat)
  /-- DOOR_LEARN. 14 R460 opcode 0x34. -/
  | doorLearn (tag : Nat) (sides : Nat)
  /-- DOOR_LEARN_COMPLETE. 06 R170: what the six strokes measured. -/
  | doorLearnComplete (side : Ab) (inp : DoorLearnIn)
  /-- DWELL_END. 06 R166. -/
  | dwellEnd (side : Ab)
  /-- HOLD_TIMEOUT. 06 R167. -/
  | holdTimeout (side : Ab)
  /-- NUDGE_AUTO_START. 06 R184. -/
  | nudgeAutoStart (side : Ab)
  /-- DOOR_BALLAST_TIMEOUT. 06 R160. -/
  | doorBallastTimeout (side : Ab)
  /-- DOOR_STOPPING_COMPLETE. 06 R186. -/
  | doorStoppingComplete (side : Ab)
  /-- CURRENT_OFFSET_CHECK. 06 R155: the means measured on inputs U and W, in LSB. -/
  | currentOffsetCheck (side : Ab) (u : Int) (w : Int)
  /-- DOOR_RECHECK. 15 R484. -/
  | doorRecheck
  /-- DISCREPANCY_TIMEOUT. 07 R202: in one core, for one block. -/
  | discrepancyTimeout (core : CoreId) (handle : Nat)
  /-- RESET_EDGE. 07 R204: in one core. -/
  | resetEdge (core : CoreId)
  /-- RESET_STUCK. 07 R205. -/
  | resetStuck (core : CoreId)
  /-- LOCK. 11 R368: a LOCK message, and the ECC of its message object (01 R18). -/
  | lock (port : Ab) (ident : Nat) (msg : Kept (List Nat))
  /-- LOCK_MSG_TIMEOUT. 07 R216. -/
  | lockMsgTimeout (landing : Nat)
  /-- LOCK_SOURCE_DISAGREE. 07 R218. -/
  | lockSourceDisagree (side : Ab)
  /-- LANDING_DOOR_AWAY. 07 R219. -/
  | landingDoorAway
  /-- INSP_STOP_TIMEOUT. 07 R234. -/
  | inspStopTimeout
  /-- CONTACTOR_PULL_TIMEOUT. 07 R238. -/
  | contactorPullTimeout (core : CoreId) (group : Nat)
  /-- CONTACTOR_DROP_TIMEOUT. 07 R238. -/
  | contactorDropTimeout (core : CoreId) (group : Nat)
  /-- BRAKE_OPEN_TIMEOUT. 07 R239. -/
  | brakeOpenTimeout (core : CoreId)
  /-- BRAKE_CLOSE_TIMEOUT. 07 R239. -/
  | brakeCloseTimeout (core : CoreId)
  /-- TSL_SWITCH. 07 R230. -/
  | tslSwitch (core : CoreId) (handle : Nat)
  /-- PROOF_TEST. 14 R460 opcode 0xA3. -/
  | proofTest (tag : Nat) (core : Nat)
  /-- PROOF_AUTO_START. 09 R282. -/
  | proofAutoStart
  /-- PROOF_TEST_END. 09 R279, R281. -/
  | proofTestEnd
  /-- PROOF_REJOIN. 09 R281. -/
  | proofRejoin
  /-- PROOF_FAILED. 09 R281. -/
  | proofFailed
  /-- PROOF_OVERDUE. 09 R282. -/
  | proofOverdue (core : CoreId)
  /-- READMISSION_START. 09 R278: whether the core has passed its own watchdog and ECC self-checks since the exclusion. -/
  | readmissionStart (core : Readmit)
  /-- DUPLEX_EXPIRED. 09 R277. -/
  | duplexExpired
  /-- TAKEOVER. 09 R289. -/
  | takeover
  /-- PAIR_NO_HOLDER. 09 R290. -/
  | pairNoHolder
  /-- SNAPSHOT_COMPLETE. 09 R286. -/
  | snapshotComplete
  /-- STANDBY_IN_SYNC. 09 R287. -/
  | standbyInSync
  /-- AP_RESET_RELEASE. 09 R292. -/
  | apResetRelease (ap : Ab)
  /-- SWITCH_OVER. 14 R460 opcode 0xA1. -/
  | switchOver (tag : Nat)
  /-- SWITCH_BACK. 14 R460 opcode 0xA2. -/
  | switchBack (tag : Nat)
  /-- DUAL_TX_END. 09 R293. -/
  | dualTxEnd
  /-- CLOCK_GATE_END. 02 R51: the counts of the gate, in the order of the CLK_DEV parameters of R60, and the clocks whose PLL lost lock in it. -/
  | clockGateEnd (counts : GateEnd)
  /-- FRAME_TICK_LOST. 02 R53. -/
  | frameTickLost (core : CoreId)
  /-- DOWN_FRAME. 10 R302: link tick of the frame, the bits inverted on its way (0 none), and the ECC of its source words (01 R18). -/
  | downFrame (lt : Nat) (err : Kept Nat)
  /-- UP_FRAME. 10 R309: link tick of the frame, the bits inverted on its way (0 none), and the ECC of the receive buffer (01 R18). -/
  | upFrame (lt : Nat) (err : Kept Nat)
  /-- LINK_TIMEOUT. 10 R311. -/
  | linkTimeout
  /-- LINK_ERROR_RATE. 10 R309: of the up-link or of the down-link. -/
  | linkErrorRate (up : Bool)
  /-- FIELD_CONFIG_MISMATCH. 10 R310. -/
  | fieldConfigMismatch
  /-- SUPPLY_THRESHOLD. 10 R312: two consecutive samples of VF in 10 mV. -/
  | supplyThreshold (dom : Ab) (s1 : Nat) (s2 : Nat)
  /-- DOMAIN_WAIT_REARM. 10 R313. -/
  | domainWaitRearm (dom : Ab)
  /-- INPUT_DEBOUNCED. 10 R318 to R320: the last sample in mV (IN_WB: in uA), the consecutive samples in its band, and those at 0.35 mA or more. -/
  | inputDebounced (ch : Nat) (level : InSample) (samples : Nat)
  /-- WIRE_BREAK. 10 R320: consecutive samples below 0.35 mA. -/
  | wireBreak (ch : Nat) (samples : Nat)
  /-- TEST_PULSE_END. 10 R329: what the pulse showed. -/
  | testPulseEnd (inp : PulseIn)
  /-- OUTPUT_LIMIT. 10 R323. -/
  | outputLimit (ch : Nat) (cause : LimitCause)
  /-- OUTPUT_RETRY. 10 R323. -/
  | outputRetry (ch : Nat)
  /-- GROUP_OVERLOAD. 10 R324: the group current and how long it lasted. -/
  | groupOverload (group : Nat) (ma : Nat) (us : Nat)
  /-- SHORT_TO_SUPPLY. 10 R325: consecutive link ticks of RB with the driver off. -/
  | shortToSupply (ch : Nat) (ticks : Nat)
  /-- CHANNEL_STOPPING_END. 10 R333. -/
  | channelStoppingEnd (ch : Nat)
  /-- CH_CONFIG. 14 R460 opcode 0x40. -/
  | chConfig (tag : Nat) (ch : Nat) (entries : List SetEntry)
  /-- CH_READ. 14 R460 opcode 0x41. -/
  | chRead (tag : Nat) (first : Nat) (count : Nat)
  /-- CH_WRITE. 14 R460 opcode 0x42. -/
  | chWrite (tag : Nat) (mask : Nat) (vals : Nat)
  /-- GROUP_REARM. 14 R460 opcode 0x43. -/
  | groupRearm (tag : Nat) (target : Nat)
  /-- BENCH_SET. 14 R460 opcode 0x44. -/
  | benchSet (tag : Nat) (ch : Nat) (on : Nat) (val : Nat)
  /-- BENCH_END. 10 R332. -/
  | benchEnd
  /-- BUS_FRAME_RECEIVED. 11 R344. -/
  | busFrameReceived (port : Ab) (frame : CanFrame)
  /-- BUS_FRAME_SENT. 11 R345: object of an attempt, its start of frame in 10 ns, and its result. -/
  | busFrameSent (port : Ab) (obj : Nat) (res : TxAttempt)
  /-- TT_WINDOW_START. 11 R349: the cell 16c + w whose window starts. -/
  | ttWindowStart (port : Ab) (cell : Nat)
  /-- TT_MISSED. 11 R349. -/
  | ttMissed (port : Ab) (obj : Nat)
  /-- TIME_REFERENCE_RECEIVED. 11 R352. -/
  | timeReferenceReceived (port : Ab) (frame : CanFrame)
  /-- TIME_SLAVE_LOST. 11 R352. -/
  | timeSlaveLost (port : Ab)
  /-- BUS_OFF_RECOVERED. 11 R356: occurrences of 11 recessive bits seen. -/
  | busOffRecovered (port : Ab) (runs : Nat)
  /-- TRANSMIT_DOMINANT_TIMEOUT. 11 R339: how long the transmitter has been dominant. -/
  | transmitDominantTimeout (port : Ab) (us : Nat)
  /-- BIT_TIMING_APPLY. 11 R342. -/
  | bitTimingApply (port : Ab)
  /-- BUS_WAKE. 11 R359, R361. -/
  | busWake (port : PortWaking)
  /-- PORT_STOPPING_END. 11 R362: whether a frame is still being sent. -/
  | portStoppingEnd (port : Ab) (sending : Bool)
  /-- BUS_CONFIG. 14 R460 opcode 0x50. -/
  | busConfig (tag : Nat) (port : Nat) (flags : Nat) (entries : List SetEntry)
  /-- OBJ_BIND. 14 R460 opcode 0x51, operation 0. -/
  | objBind (tag : Nat) (port : Nat) (obj : Nat) (kind : Nat) (fmt : Nat) (ident : Nat) (fflags : Nat)
  /-- OBJ_UNBIND. 14 R460 opcode 0x51, operation 1. -/
  | objUnbind (tag : Nat) (port : Nat) (obj : Nat)
  /-- OBJ_READ. 14 R460 opcode 0x51, operation 2. -/
  | objRead (tag : Nat) (port : Nat) (obj : Nat)
  /-- OBJ_SEND. 14 R460 opcode 0x52. -/
  | objSend (tag : Nat) (port : Nat) (obj : Nat) (data : List Nat)
  /-- OBJ_CANCEL. 14 R460 opcode 0x53; sof: the frame's start of frame was sent at or before offset 180 us (11 R354). -/
  | objCancel (tag : Nat) (port : Nat) (obj : Nat) (sof : Bool)
  /-- SCHED_LOAD. 14 R460 opcode 0x54. -/
  | schedLoad (tag : Nat) (port : Nat) (cells : List Nat)
  /-- BUS_SLEEP. 14 R460 opcode 0x55 with the sleep flag; the object whose frame is in progress (11 R359). -/
  | busSleep (tag : Nat) (port : Nat) (flags : SleepFlags)
  /-- BUS_WAKE_COMMAND. 14 R460 opcode 0x55 with the wake flag. -/
  | busWakeCommand (tag : Nat) (port : Nat) (flags : Nat)
  /-- METER_SAMPLE. 12 R385 R389: the seven raw readings. -/
  | meterSample (raw : List Int)
  /-- HALF_CYCLE_VALUE. 12 R399: a zero crossing of the reference. -/
  | halfCycleValue (inp : HalfIn)
  /-- AGGREGATION_WINDOW_END. 12 R387. -/
  | aggregationWindowEnd
  /-- FREQ_WINDOW_END. 12 R386. -/
  | freqWindowEnd
  /-- HOUR_RECORD. 12 R398. -/
  | hourRecord
  /-- ENERGY_SAVE. 12 R404. -/
  | energySave
  /-- OFFSET_TRACKING. 12 R407: the mean of each channel over the second. -/
  | offsetTracking (means : List Int)
  /-- CAL_MEASURE. 14 R460 opcode 0x63, kind 0. -/
  | calMeasure (tag : Nat) (phase : Nat) (windows : Nat)
  /-- CAL_MEASURE_END. 12 R408. -/
  | calMeasureEnd
  /-- CAL_APPLY. 14 R460 opcode 0x63, kind 1. -/
  | calApply (tag : Nat) (uref : Nat) (iref : Nat) (pref : Int) (qref : Int)
  /-- METER_CONFIG. 14 R460 opcode 0x60. -/
  | meterConfig (tag : Nat) (entries : List SetEntry)
  /-- METER_READ. 14 R460 opcode 0x61. -/
  | meterRead (tag : Nat)
  /-- ENERGY_READ. 14 R460 opcode 0x62. -/
  | energyRead (tag : Nat)
  /-- RECORD_FLUSH. 13 R427: addresses whose write failed its verification. -/
  | recordFlush (bad : List Nat)
  /-- SCRUB. 13 R436: the word read and how many of its bits had flipped (0, 1 or 2). -/
  | scrub (addr : Nat) (flips : Nat)
  /-- CURSOR_SET. 14 R460 opcode 0x70. -/
  | cursorSet (tag : Nat) (drawer : Nat) (index : Nat)
  /-- WINDOW_READ. 14 R460 opcode 0x71; bad: records whose copy failed its CRC in the first attempt. -/
  | windowRead (tag : Nat) (bad : List Nat)
  /-- WINDOW_COPY_RETRY. 13 R432: records whose copy failed in this attempt. -/
  | windowCopyRetry (bad : List Nat)
  /-- DRAWER_INFO. 14 R460 opcode 0x72. -/
  | drawerInfo (tag : Nat) (drawer : Nat)
  /-- DRAWER_CLEAR. 14 R460 opcode 0x73. -/
  | drawerClear (tag : Nat) (drawer : Nat)
  /-- CAB_LOGIN. 14 R460 opcode 0x80. -/
  | cabLogin (tag : Nat) (slot : Nat) (pwd : List Nat)
  /-- LOGIN_VERIFIED. 08 R256: which cores computed the hash. -/
  | loginVerified (agree : Three Bool)
  /-- CAB_LOCKOUT_END. 08 R258. -/
  | cabLockoutEnd
  /-- LOCKOUT_STATE_WRITE. 08 R259. -/
  | lockoutStateWrite
  /-- CAB_LOGOUT. 14 R460 opcode 0x81. -/
  | cabLogout (tag : Nat)
  /-- SESSION_EXPIRED. 08 R257. -/
  | sessionExpired
  /-- CAB_STAGE. 14 R460 opcode 0x82. -/
  | cabStage (tag : Nat) (entries : List StageEntry)
  /-- CAB_DISCARD. 14 R460 opcode 0x84. -/
  | cabDiscard (tag : Nat)
  /-- CAB_COMMIT. 14 R460 opcode 0x83. -/
  | cabCommit (tag : Nat)
  /-- COMMIT_VERDICTS. 08 R263: which cores delivered a verdict in time. -/
  | commitVerdicts (delivered : Three Bool)
  /-- COMMIT_POINT. 08 R264. -/
  | commitPoint
  /-- COMMIT_COMPLETE. 08 R264. -/
  | commitComplete
  /-- CAB_PASSWORD. 14 R460 opcode 0x86. -/
  | cabPassword (tag : Nat) (slot : Nat) (pwd : List Nat)
  /-- PASSWORD_WRITTEN. 08 R255: which cores agree. -/
  | passwordWritten (agree : Three Bool)
  /-- CAB_LOG_READ. 14 R460 opcode 0x85. -/
  | cabLogRead (tag : Nat) (first : Nat) (count : Nat)
  /-- ATTEST. 14 R460 opcode 0x90. -/
  | attest (tag : Nat) (nonce : List Nat)
  /-- ATTEST_COMPLETE. 16 R503. -/
  | attestComplete
  /-- CERT_GET. 14 R460 opcode 0x91. -/
  | certGet (tag : Nat) (index : Nat)
  /-- FW_BEGIN. 14 R460 opcode 0x92. -/
  | fwBegin (tag : Nat) (kind : Nat) (len : Nat)
  /-- FW_CHUNK. 14 R460 opcode 0x93. -/
  | fwChunk (tag : Nat) (offset : Nat) (data : List Nat)
  /-- FW_CHUNK_WRITTEN. 16 R506. -/
  | fwChunkWritten
  /-- FW_COMMIT. 14 R460 opcode 0x94. -/
  | fwCommit (tag : Nat)
  /-- FW_VERIFIED. 16 R508. -/
  | fwVerified
  /-- FW_TRANSFER_TIMEOUT. 16 R509. -/
  | fwTransferTimeout
  /-- BOOT_VERIFIED. 16 R496: 0 KERNEL, 1 AP1, 2 AP2, 3 FIELD; for KERNEL, what each core read. -/
  | bootVerified (target : Nat) (cores : Three CoreBoot)
  /-- PAIR_STATUS. 14 R460 opcode 0xA0. -/
  | pairStatus (tag : Nat)
  /-- NOP. 14 R460 opcode 0x00. -/
  | nop (tag : Nat)
  /-- IDENT. 14 R460 opcode 0x01. -/
  | ident (tag : Nat)
  /-- STATUS. 14 R460 opcode 0x02. -/
  | status (tag : Nat)
  /-- RESET_PORT. 14 R460 opcode 0x03, kind 0. -/
  | resetPort (tag : Nat)
  /-- RESET_MODULE. 14 R460 opcode 0x03, kind 1. -/
  | resetModule (tag : Nat)
  /-- EVT_READ. 14 R460 opcode 0x04. -/
  | evtRead (tag : Nat) (ack : Nat) (flags : Nat) (max : Nat)
  /-- TIME_SET. 14 R460 opcode 0x05. -/
  | timeSet (tag : Nat) (wall : Nat) (ref : Nat)
  /-- BUDGET_SET. 14 R460 opcode 0x06. -/
  | budgetSet (tag : Nat) (policy : Nat) (mix : Nat)
  /-- UNIT_LIST. 14 R460 opcode 0x10. -/
  | unitList (tag : Nat) (first : Nat) (max : Nat)
  /-- UNIT_GET. 14 R457 opcode 0x11. -/
  | unitGet (tag : Nat) (handle : Nat) (ids : List Nat)
  /-- UNIT_SET. 14 R458 opcode 0x12. -/
  | unitSet (tag : Nat) (handle : Nat) (entries : List SetEntry)
  /-- UNIT_ENABLE. 14 R459 opcode 0x13. -/
  | unitEnable (tag : Nat) (handle : Nat)
  /-- UNIT_DISABLE. 14 R459 opcode 0x14. -/
  | unitDisable (tag : Nat) (handle : Nat)
  /-- UNIT_STOPPING_COMPLETE. 01 R33. -/
  | unitStoppingComplete (handle : Nat)
  /-- GROUP_DEFINE. 14 R460 opcode 0x15. -/
  | groupDefine (tag : Nat) (handle : Nat) (kids : List Nat)
  /-- SLEEP_POLICY. 14 R460 opcode 0xB0. -/
  | sleepPolicy (tag : Nat) (entries : List SetEntry)
  /-- POWER_READ. 14 R460 opcode 0xB1. -/
  | powerRead (tag : Nat)
  /-- HOST_TRANSACTION. 14 R443: the bytes clocked in, how many bytes were clocked, and the ECC of the packet as written (01 R18). -/
  | hostTransaction (mosi : Kept (List Nat)) (clocks : Nat)
  /-- HOST_STALL. 14 R452: the bytes clocked in so far, and the time without an SCK edge. -/
  | hostStall (mosi : List Nat) (idleUs : Nat)
  /-- REPLY_READY. 14 R453 R450: how often the ECC check of the reply's source failed, and whether it corrected a word (01 R19). -/
  | replyReady (eccFails : Kept Nat)
  /-- KEEPALIVE_LOST. 14 R470. -/
  | keepaliveLost
  /-- RESET_N. 14 R442: how long RESET_N was held low when it counts. -/
  | resetN (us : Nat)
  /-- VIN_GOOD. 15 R474: VIN in 10 mV and for how long. -/
  | vinGood (vin : Nat) (ms : Nat)
  /-- POWER_FAIL_WARNING. 15 R477: VIN in 10 mV. -/
  | powerFailWarning (vin : Nat)
  /-- STATE_SAVE_COMPLETE. 15 R475 R478: the duration of the save. -/
  | stateSaveComplete (us : Nat)
  /-- CONVERTERS_OFF. 15 R474: VIN in 10 mV. -/
  | convertersOff (vin : Nat)
  /-- VIN_LOW. 15 R474. -/
  | vinLow (vin : Nat) (ms : Nat)
  /-- VIN_HIGH. 15 R474. -/
  | vinHigh (vin : Nat)
  /-- VIN_OVERVOLT. 15 R474. -/
  | vinOvervolt (vin : Nat) (ms : Nat)
  /-- RESTART_AFTER_SAVE. 15 R475. -/
  | restartAfterSave (vin : Nat) (ms : Nat)
  /-- SCHEDULED_WAKE. 15 R485. -/
  | scheduledWake
  /-- WAKE. 15 R485: the wake source. -/
  | wake (src : WakeSource)
  /-- STARTUP_STEP_COMPLETE. 17 R512. -/
  | startupStepComplete
  /-- STARTUP_DEADLINE. 17 R512. -/
  | startupDeadline
  /-- TETHER_GRANT_FALLBACK. 17 R515. -/
  | tetherGrantFallback
  /-- RESET_N_RELEASE. 17 R512. -/
  | resetNRelease
  /-- BUS_RECEIVE_ERROR. 11 R355: by how much ISO 11898-1 raises REC. -/
  | busReceiveError (port : Ab) (inc : Nat)
  /-- ELEVEN_RECESSIVE_BITS. 11 R362. -/
  | elevenRecessiveBits (port : Ab)
  /-- SENSOR_SUPPLY_OFF. 18 R536: 0 ENC_5V, 1 DFB_5V_A, 2 DFB_5V_B, and the time in current limit. -/
  | sensorSupplyOff (out : Nat) (ms : Nat)
  /-- SENSOR_SUPPLY_ON. 18 R536. -/
  | sensorSupplyOn (out : Nat)
  /-- RAIL_FAULT. 15 R490: consecutive samples out of range. -/
  | railFault (bad : Nat)
  /-- LOGIC_TEMP_THRESHOLD. 15 R490: LOGIC_TEMP in 0.1 C. -/
  | logicTempThreshold (temp : Int)
  /-- VIN_FAULT_END. 15 R490. -/
  | vinFaultEnd (vin : Nat) (ms : Nat)
  /-- TRANSCEIVER_OVERTEMP. 11 R380. -/
  | transceiverOvertemp (port : Ab)
  deriving DecidableEq, Repr

end Sys2Proof
end

