-- ==== Sys2Proof/Decode.lean ====
section
/-!
DEFINITION. The words of the command table. spec/opcode_table.json gives no row any bits: a command comes
from outside the block as a constructor of `Instr` (notes/assumptions/1.md), so no word spells one. The
packets of the host port are decoded by the port itself (`judge`, 14 R451).
-/
namespace Sys2Proof

/-- The command a word of the table spells: no row has bits, so none. -/
def decodeTableWord (_nbits _w : Nat) : Option Instr := none

end Sys2Proof
end

