-- ==== Sys2Proof/Config.lean ====
section
/-!
DEFINITION. What the spec leaves open. Each constant has no body: nothing can be proved of its
value, so a claim holds whatever it is. notes/assumptions/5.md and 9.md say which is which.
-/
namespace Sys2Proof.Config

/-- The covariance a filter starts with when its position is initialised (03 R71, R94), as mantissa and
exponent: ten values, the upper triangle over p, v, b, k row by row. The spec gives none. -/
opaque kalmanStart : Nat → Int × Int

/-- ACC_G_CAL after a refinement at standstill (03 R70), from its value and the reading of the vertical axis:
the spec does not say by how much. -/
opaque gCalRefined : Int → Int → Int

/-- A value the spec leaves undefined, fresh at every draw. -/
opaque freeValue : Nat → Nat

/-- The same for signed values. -/
opaque freeInt : Nat → Int

/-- The speed and position loop of a door engine (06 R158): the thrust it demands in 0.1 N at a draw, from the
errors of the position in µm and of the velocity in µm/s. The spec gives no control law. -/
opaque doorLoop : Nat → Int → Int → Int

/-- The current loop of a door engine (06 R153, R158): the duty of a phase at a draw, from the thrust demanded
and the rotor position. The spec gives no commutation. -/
opaque doorPwm : Nat → Int → Nat → Nat

/-- The observer's correction of the acceleration in µm/s² at a draw (06 R157), from the travel counted beyond
the one it expected in nm. The spec gives no gain. -/
opaque doorObserver : Nat → Int → Int

/-- How long a whole scrub pass takes as background work in µs (13 R436; 15 R484): the spec gives only
its period. -/
opaque scrubPassUs : Nat

/-- Hardware revision, set at manufacture (16 R495). -/
opaque hwRevision : Nat

/-- The 16 bytes of the serial number (14 R460). -/
opaque serial : Nat → Nat

/-- The part code ends in X (14 R460, 18 R546): YN-6416X. -/
opaque partX : Bool

/-- Version of the boot ROM (14 R460). -/
opaque bootVersion : Nat

/-- Certificates of the chain (16 R502): index and byte position. -/
opaque certByte : Nat → Nat → Nat

/-- Length of a certificate (16 R502). -/
opaque certLength : Nat → Nat

/-- The vendor's RSA-4096 modulus as a number (16 R494). -/
opaque vendorKey : Nat

/-- The identity key's signature over a message, as bytes (16 R503). -/
opaque identitySign : List Nat → List Nat

/-- The secure element's random source: draw and byte position (08 R255). -/
opaque randomByte : Nat → Nat → Nat

/-- Image delivered in a target's slot 0 at manufacture (16 R492): target and byte position. -/
opaque imageByte : Nat → Nat → Nat

/-- Length of that image. -/
opaque imageLength : Nat → Nat

end Sys2Proof.Config
end

