-- ==== Sys2Proof/Machine/Bits.lean ====
section
/-!
DEFINITION. Bits, bytes, rounding and sparse tables: the helpers every family uses.
-/
namespace Sys2Proof.Machine

/-- Bit i of a word (00 R5). -/
def bit (x i : Nat) : Bool := (x >>> i) % 2 == 1

/-- A Bool as 0 or 1. -/
def b2n (b : Bool) : Nat := if b then 1 else 0

/-- A Bool as 0 or 1. -/
def b2i (b : Bool) : Int := if b then 1 else 0

/-- A word with bit i set to b. -/
def setBit (x i : Nat) (b : Bool) : Nat :=
  if bit x i == b then x else if b then x + 2 ^ i else x - 2 ^ i

/-- Bits [hi:lo] of a word. -/
def field (x hi lo : Nat) : Nat := (x >>> lo) % 2 ^ (hi - lo + 1)

/-- The low n bytes of x, least significant first (00 R6). -/
def le : Nat → Nat → List Nat
  | 0, _ => []
  | n + 1, x => x % 256 :: le n (x / 256)

/-- The low n bytes of x, most significant first. -/
def be (n x : Nat) : List Nat := (le n x).reverse

/-- The number whose bytes, least significant first, are given. -/
def ofLe : List Nat → Nat
  | [] => 0
  | b :: bs => b % 256 + 256 * ofLe bs

/-- A signed number as an unsigned one of so many bits (two's complement, 00 R5). -/
def toU (bits : Nat) (x : Int) : Nat := (x % (2 ^ bits : Nat)).toNat

/-- An unsigned number of so many bits as a signed one. -/
def toS (bits : Nat) (x : Nat) : Int :=
  let y := x % 2 ^ bits
  if y < 2 ^ (bits - 1) then (y : Int) else (y : Int) - (2 ^ bits : Nat)

/-- n bytes of a signed number, least significant first. -/
def leS (n : Nat) (x : Int) : List Nat := le n (toU (8 * n) x)

/-- Bytes i to i + n - 1 as an unsigned number. -/
def leAt (bs : List Nat) (i n : Nat) : Nat := ofLe ((bs.drop i).take n)

/-- Bytes i to i + n - 1 as a signed number. -/
def leSAt (bs : List Nat) (i n : Nat) : Int := toS (8 * n) (leAt bs i n)

/-- Count up, staying at the top of so many bits. -/
def satAdd (bits x n : Nat) : Nat := min (x + n) (2 ^ bits - 1)

/-- Count up by one, saturating at 32 bits. -/
def sat32 (x : Nat) : Nat := satAdd 32 x 1

/-- n / d to the nearest integer, halves away from zero. -/
def halfAway (n : Int) (d : Nat) : Int :=
  if n < 0 then -(((2 * n.natAbs + d) / (2 * d) : Nat) : Int) else (((2 * n.natAbs + d) / (2 * d) : Nat) : Int)

/-- Keep a value in a range. -/
def clamp (lo hi x : Int) : Int := if x < lo then lo else if hi < x then hi else x

/-- Magnitude. -/
def mag (x : Int) : Nat := x.natAbs

/-- A sparse table's value at a key, or the default. -/
def aGet {α : Type} (l : List (Nat × α)) (k : Nat) (d : α) : α :=
  match l with
  | [] => d
  | (j, x) :: r => if j == k then x else aGet r k d

/-- Write a sparse table, keys ascending. -/
def aSet {α : Type} (l : List (Nat × α)) (k : Nat) (x : α) : List (Nat × α) :=
  match l with
  | [] => [(k, x)]
  | (j, y) :: r => if k < j then (k, x) :: (j, y) :: r else if j == k then (k, x) :: r else (j, y) :: aSet r k x

/-- Remove a key from a sparse table. -/
def aDel {α : Type} (l : List (Nat × α)) (k : Nat) : List (Nat × α) := l.filter fun p => p.1 != k

/-- The element at a position, or the default. -/
def nth {α : Type} (l : List α) (i : Nat) (d : α) : α :=
  match l, i with
  | [], _ => d
  | x :: _, 0 => x
  | _ :: r, i + 1 => nth r i d

/-- Change the element at a position. -/
def updAt {α : Type} (l : List α) (i : Nat) (f : α → α) : List α :=
  match l, i with
  | [], _ => []
  | x :: r, 0 => f x :: r
  | x :: r, i + 1 => x :: updAt r i f

/-- Sum of a list. -/
def sumI (l : List Int) : Int := l.foldl (· + ·) 0

/-- Sum of a list. -/
def sumN (l : List Nat) : Nat := l.foldl (· + ·) 0

/-- The least of values. -/
def minOf (l : List Nat) : Nat := l.foldl min (l.headD 0)

/-- Floor of the square root (bits steps of the digit method from 2^bits down). -/
def isqrtGo : Nat → Nat → Nat → Nat
  | 0, _, r => r
  | k + 1, x, r =>
    let c := r + 2 ^ k
    isqrtGo k x (if c * c ≤ x then c else r)

/-- Floor of the square root of a number below 2^192. -/
def isqrt (x : Nat) : Nat := isqrtGo 96 x 0

/-- Square root to the nearest integer. -/
def isqrtNear (x : Nat) : Nat :=
  let r := isqrt x
  if x > r * r + r then r + 1 else r

/-- Ceiling of the square root. -/
def isqrtUp (x : Nat) : Nat :=
  let r := isqrt x
  if r * r < x then r + 1 else r

/-- Frames in so many milliseconds. -/
def msF (ms : Nat) : Nat := 4 * ms

/-- Frames in so many seconds. -/
def sF (s : Nat) : Nat := 4000 * s

/-- ASCII bytes of a string padded with zeros to n bytes. -/
def ascii (n : Nat) (s : String) : List Nat :=
  let b := s.toList.map Char.toNat
  (b ++ List.replicate n 0).take n

/-- The bits of a 64-bit word that are set, ascending. -/
def bitsOf (x : Nat) : List Nat := (List.range 64).filter (bit x)

/-- A word with the bits of a list set. -/
def ofBits (l : List Nat) : Nat := l.foldl (fun x i => setBit x i true) 0

/-- Signed 32-bit view of an integer. -/
def wrap32 (x : Int) : Int := toS 32 (toU 32 x)

/-- a is newer than b among counters of so many bits (11 R119 and 13 R416 rules). -/
def newer (bits a b : Nat) : Bool :=
  let d := (a + 2 ^ bits - b % 2 ^ bits) % 2 ^ bits
  decide (1 ≤ d ∧ d ≤ 2 ^ (bits - 1) - 1)

end Sys2Proof.Machine
end

