-- ==== Sys2Proof/Machine/Crc.lean ====
section
/-!
DEFINITION. The cyclic checks of the spec: CRC-32C (10 R301), the shaft bus safety CRC (11 R365),
the core check CRC-8 (10 R305) and the tape CRC-6 (03 R63).
-/
namespace Sys2Proof.Machine

/-- The low n bits of x in reverse order. -/
def reflect : Nat → Nat → Nat
  | 0, _ => 0
  | n + 1, x => x % 2 * 2 ^ n + reflect n (x / 2)

/-- Eight steps of a reflected CRC with the reflected polynomial. -/
def crcRefBits : Nat → Nat → Nat → Nat
  | 0, _, c => c
  | n + 1, poly, c => crcRefBits n poly (if c % 2 == 1 then (c / 2) ^^^ poly else c / 2)

/-- A reflected 32-bit CRC register over bytes. -/
def crcRef (poly : Nat) (bs : List Nat) (init : Nat) : Nat :=
  bs.foldl (fun c b => crcRefBits 8 poly (c ^^^ (b % 256))) init

/-- CRC-32C of 10 R301: polynomial 0x1EDC_6F41 reflected, initial and final 0xFFFF_FFFF. -/
def crc32c (bs : List Nat) : Nat := crcRef (reflect 32 0x1EDC6F41) bs 0xFFFFFFFF ^^^ 0xFFFFFFFF

/-- Safety CRC of 11 R365: polynomial 0xF4AC_FB13 reflected, initial and final 0xFFFF_FFFF. -/
def crcSafety (bs : List Nat) : Nat := crcRef (reflect 32 0xF4ACFB13) bs 0xFFFFFFFF ^^^ 0xFFFFFFFF

/-- Steps of an unreflected CRC of w bits over n bits, most significant first. -/
def crcMsb : Nat → Nat → Nat → Nat → Nat → Nat
  | _, _, 0, _, c => c
  | w, poly, n + 1, x, c =>
    let top := (bit c (w - 1)) != (bit x n)
    let c' := (c * 2) % 2 ^ w
    crcMsb w poly n x (if top then c' ^^^ poly else c')

/-- CRC-8 of 10 R305: polynomial 0x2F, initial 0xFF, final XOR 0xFF. -/
def crc8 (bs : List Nat) : Nat := bs.foldl (fun c b => crcMsb 8 0x2F 8 b c) 0xFF ^^^ 0xFF

/-- CRC-6 of 03 R63 over n bits: polynomial x^6 + x + 1, initial 0, transmitted inverted. -/
def crc6Inv (n x : Nat) : Nat := crcMsb 6 0x03 n x 0 ^^^ 0x3F

end Sys2Proof.Machine
end

