-- ==== Sys2Proof/Machine/State.lean ====
section
/-!
DEFINITION. The state of the block: every register, queue, buffer, counter and mode the spec gives
the module, as plain data, and the state right after reset. `Mach` is the module; `State` adds what
reads served in the frame in progress see (01 R28) and the queue of waiting commands. Every field's
docstring names the chapter and the rule of spec/ that gives it. The values at reset that the spec
does not state are named in notes/assumptions/2.md.
-/
namespace Sys2Proof.Machine

open Sys2Proof

/-- Why the block stops with a fault. -/
inductive Fault where
  /-- Raised by SCRUB for an address outside the MRAM (13 R435, R436): no such word exists. Safe. -/
  | noSuchAddress
  deriving DecidableEq, Repr

/-- Why the model has no meaning for a command. -/
inductive Refusal where
  /-- Raised by exec for a command whose meaning has not been written. Safe. -/
  | notModelled (mnemonic : String)
  deriving DecidableEq, Repr

/-- Covariance of the four states of the filter (R71, R73): its upper triangle. -/
structure Cov where
  /-- variance of p (03 R73). -/
  pp : Dbl
  /-- covariance of p and v (03 R73). -/
  pv : Dbl
  /-- covariance of p and b (03 R73). -/
  pb : Dbl
  /-- covariance of p and k (03 R73). -/
  pk : Dbl
  /-- variance of v (03 R73). -/
  vv : Dbl
  /-- covariance of v and b (03 R73). -/
  vb : Dbl
  /-- covariance of v and k (03 R73). -/
  vk : Dbl
  /-- variance of b (03 R73). -/
  bb : Dbl
  /-- covariance of b and k (03 R73). -/
  bk : Dbl
  /-- variance of k (03 R73). -/
  kk : Dbl
  deriving DecidableEq, Repr

/-- Cov right after reset. -/
def Cov.reset : Cov where
  pp := Dbl.zero
  pv := Dbl.zero
  pb := Dbl.zero
  pk := Dbl.zero
  vv := Dbl.zero
  vb := Dbl.zero
  vk := Dbl.zero
  bb := Dbl.zero
  bk := Dbl.zero
  kk := Dbl.zero

/-- One tape reader as one processor judges it (R63 to R66). -/
structure TapeReader where
  /-- consecutive missed polls (03 R65). -/
  missRun : Nat
  /-- consecutive polls not missed (03 R66). -/
  goodRun : Nat
  /-- reader lost (03 R65). -/
  lost : Bool
  /-- p_tape of the last poll not missed, in nm (03 R64). -/
  pos : Option Int
  /-- p_tape and instant of the polls of the last five frames, newest first, none where missed (03 R80). -/
  posHist : List (Option (Int × Int))
  deriving DecidableEq, Repr

/-- TapeReader right after reset. -/
def TapeReader.reset : TapeReader where
  missRun := 0
  goodRun := 0
  lost := false
  pos := none
  posHist := []

/-- One processor's copy of the fusion filter (R71, R72). -/
structure EstState where
  /-- position state (03 R71). -/
  p : Dbl
  /-- velocity state (03 R71). -/
  v : Dbl
  /-- accelerometer bias state (03 R71). -/
  b : Dbl
  /-- encoder scale correction state (03 R71). -/
  k : Dbl
  /-- acceleration of the last prediction (03 R72). -/
  acc : Dbl
  /-- published fused position (FUSE_POS, 0x0140) (03 R72). -/
  pubP : Int
  /-- published fused velocity (FUSE_VEL, 0x0141) (03 R72). -/
  pubV : Int
  /-- published fused acceleration (FUSE_ACC, 0x0142) (03 R72). -/
  pubA : Int
  /-- FUSE_SIGMA_P (0x0143) (03 R73). -/
  sigma : Nat
  /-- covariance of the filter (03 R73). -/
  cov : Cov
  /-- position initialised by R94 or R513 (03 R94). -/
  inited : Bool
  /-- position confirmed (03 R87 R94). -/
  confirmed : Bool
  /-- neither snapshot nor tape at start-up (03 R90). -/
  noRef : Bool
  /-- consecutive frames with |v| below 1000 um/s (00 R12). -/
  still : Nat
  /-- qualifying start-up frames so far (03 R94). -/
  recRun : Nat
  /-- sum of the tape positions of those frames (03 R94). -/
  recSum : Int
  /-- encoder count at which the recovery count started (03 R94). -/
  recEnc : Option Int
  /-- the two readers as this processor judges them (03 R17 R63). -/
  readers : Two TapeReader
  /-- ACC_G_CAL (0x0131) (03 R95). -/
  gCal : Int
  /-- vertical acceleration of the axis selected, less ACC_G_CAL (03 R70). -/
  accVert : Int
  /-- vertical acceleration less the bias, and tape position, of the last 257 frames, newest first (03 R70). -/
  accHist : List (Int × Int × Ab)
  /-- accelerometer lost (03 R90). -/
  accLost : Bool
  /-- frames without a violation of 03 R70 (03 R96). -/
  accGood : Nat
  /-- consecutive frames with the difference above SLIP_LIMIT (03 R80). -/
  slipRun : Nat
  /-- encoder lost (0x34) (03 R90). -/
  encLost : Bool
  /-- encoder update stopped by traction slip (03 R80). -/
  encOff : Bool
  /-- frames without violation, at standstill (03 R96). -/
  encGood : Nat
  deriving DecidableEq, Repr

/-- EstState right after reset. -/
def EstState.reset : EstState where
  p := Dbl.zero
  v := Dbl.zero
  b := Dbl.zero
  k := Dbl.zero
  acc := Dbl.zero
  pubP := 0
  pubV := 0
  pubA := 0
  sigma := 0
  cov := Cov.reset
  inited := false
  confirmed := false
  noRef := false
  still := 0
  recRun := 0
  recSum := 0
  recEnc := none
  readers := ⟨TapeReader.reset, TapeReader.reset⟩
  gCal := 9806650
  accVert := 0
  accHist := []
  accLost := false
  accGood := 0
  slipRun := 0
  encLost := false
  encOff := false
  encGood := 0

/-- A core's published estimate (R76). -/
structure Mail where
  /-- position (03 R76). -/
  p : Int
  /-- velocity (03 R76). -/
  v : Int
  /-- POS_QUALITY (03 R76). -/
  q : Nat
  deriving DecidableEq, Repr

/-- Mail right after reset. -/
def Mail.reset : Mail where
  p := 0
  v := 0
  q := 0

/-- One application processor's comparison of the core estimates (R77, R79). -/
structure DiscordState where
  /-- consecutive comparisons in which the core was discordant with both others, those concordant (03 R77). -/
  named : Three Nat
  /-- consecutive comparisons with no two cores concordant (03 R77). -/
  threeWay : Nat
  /-- consecutive comparisons that found the core concordant (09 R281). -/
  concord : Three Nat
  /-- consecutive frames with its own estimate discordant with the median (03 R79). -/
  own : Nat
  /-- the verdict mailbox (03 R76). -/
  verdict : Verdict
  deriving DecidableEq, Repr

/-- DiscordState right after reset. -/
def DiscordState.reset : DiscordState where
  named := ⟨0, 0, 0⟩
  threeWay := 0
  concord := ⟨0, 0, 0⟩
  own := 0
  verdict := Verdict.none

/-- One door-zone or slowdown switch edge of a run (R84). -/
structure EdgeRec where
  /-- pass of the run (03 R84). -/
  pass : Nat
  /-- channel of the edge (03 R84). -/
  ch : Nat
  /-- the new level (03 R84). -/
  on : Bool
  /-- interpolated position (03 R84). -/
  pos : Int
  deriving DecidableEq, Repr

/-- EdgeRec right after reset. -/
def EdgeRec.reset : EdgeRec where
  pass := 0
  ch := 0
  on := false
  pos := 0

/-- A learning run (R84 to R86). -/
structure LearnState where
  /-- a run is in progress (03 R84). -/
  active : Bool
  /-- LEARN_STATE (0x0166) (03 R95). -/
  state : Nat
  /-- tag of the LEARN_RUN (14 R455). -/
  tag : Nat
  /-- edges recorded in passes 2 and 3 (03 R84). -/
  edges : List EdgeRec
  /-- sum of reader differences over pass 2 (03 R85). -/
  pairSum : Int
  /-- readings summed (03 R85). -/
  pairN : Nat
  /-- the plan of the current pass has been committed (03 R84). -/
  passStarted : Bool
  /-- the terminal door zone has been identified (03 R84). -/
  seen : Bool
  /-- the stop of the pass has been committed (03 R84). -/
  braked : Bool
  deriving DecidableEq, Repr

/-- LearnState right after reset. -/
def LearnState.reset : LearnState where
  active := false
  state := 0
  tag := 0
  edges := []
  pairSum := 0
  pairN := 0
  passStarted := false
  seen := false
  braked := false

/-- A HOME run (R87). -/
structure HomeState where
  /-- a run is in progress (03 R87). -/
  active : Bool
  /-- its direction (03 R87). -/
  up : Bool
  /-- tag of the HOME (14 R455). -/
  tag : Nat
  /-- door-zone edges met (03 R87). -/
  edges : List EdgeRec
  /-- the zone has been measured and the car returns to SILL_LEVEL (03 R87). -/
  returning : Bool
  /-- midpoint measured (03 R87). -/
  mid : Int
  /-- landing of that door zone (03 R87). -/
  landing : Nat
  /-- its plan has been committed (03 R87). -/
  planned : Bool
  /-- the stop behind the door zone has been committed (03 R87). -/
  braked : Bool
  deriving DecidableEq, Repr

/-- HomeState right after reset. -/
def HomeState.reset : HomeState where
  active := false
  up := false
  tag := 0
  edges := []
  returning := false
  mid := 0
  landing := 65535
  planned := false
  braked := false

/-- Debounced transitions of one slowdown switch (R89, R230). -/
structure SwitchRun where
  /-- channel (03 R89). -/
  ch : Nat
  /-- link ticks of its last five transitions, newest first (03 R89). -/
  times : List Nat
  deriving DecidableEq, Repr

/-- SwitchRun right after reset. -/
def SwitchRun.reset : SwitchRun where
  ch := 0
  times := []

/-- The position estimator's shared state. -/
structure PosState where
  /-- consecutive frames with the readers apart by more than TAPE_PAIR_TOL (03 R67). -/
  pairRun : Nat
  /-- consecutive frames within TAPE_PAIR_TOL (03 R96). -/
  pairOkRun : Nat
  /-- encoder count of the last capture set (03 R61). -/
  encCount : Option Int
  /-- count difference of the last two capture sets (03 R71). -/
  encDc : Option Int
  /-- polls of the last capture set (03 R61). -/
  polls : Two (Option TapePoll)
  /-- fine timestamp of the encoder count of the capture set (03 R61). -/
  encTs : Nat
  /-- fine timestamp of the accelerometer sample of the capture set (03 R61). -/
  accTs : Nat
  /-- sequence number of the last sample (03 R70). -/
  accSeq : Option Nat
  /-- consecutive stale samples (03 R70). -/
  accStale : Nat
  /-- estimates of SC-A, SC-B, SC-C, AP-1 and AP-2 (03 R17). -/
  est : Five EstState
  /-- mailboxes of the cores, of the last frame (03 R76). -/
  mail : Three (Option Mail)
  /-- comparisons of AP-1 and AP-2 (03 R77). -/
  discord : Two DiscordState
  /-- the verdicts as the cores read them at the freeze of this frame (03 R76). -/
  read : Two Verdict
  /-- p_stop of the present stop (03 R81). -/
  pStop : Option Int
  /-- STRETCH (0x0147) (03 R81). -/
  stretch : Int
  /-- LEVEL_ERROR of the last 16 frames, newest first (04 R113). -/
  levelHist : List Int
  /-- learning run (03 R84). -/
  learn : LearnState
  /-- homing run (03 R87). -/
  home : HomeState
  /-- slowdown switch transitions (03 R89). -/
  switches : List SwitchRun
  /-- sequence counter of each snapshot writer (03 R93). -/
  snapSeq : Five Nat
  /-- slot each writer writes next (03 R93). -/
  snapSlot : Five Nat
  deriving DecidableEq, Repr

/-- PosState right after reset. -/
def PosState.reset : PosState where
  pairRun := 0
  pairOkRun := 0
  encCount := none
  encDc := none
  polls := ⟨none, none⟩
  encTs := 0
  accTs := 0
  accSeq := none
  accStale := 0
  est := ⟨EstState.reset, EstState.reset, EstState.reset, EstState.reset, EstState.reset⟩
  mail := ⟨none, none, none⟩
  discord := ⟨DiscordState.reset, DiscordState.reset⟩
  read := ⟨Verdict.none, Verdict.none⟩
  pStop := none
  stretch := 0
  levelHist := []
  learn := LearnState.reset
  home := HomeState.reset
  switches := []
  snapSeq := ⟨0, 0, 0, 0, 0⟩
  snapSlot := ⟨0, 0, 0, 0, 0⟩

/-- Frame, wall clock, overruns and clock monitors (chapter 02). -/
structure TimeState where
  /-- the first tick has been issued (02 R36). -/
  running : Bool
  /-- number of the current frame (FRAME_COUNT is its low 32 bits; TIMESTAMP is 250 times it) (02 R36 R37). -/
  frame : Nat
  /-- WALL_OFFSET (0x0003) (02 R39). -/
  wallOffset : Int
  /-- WALL_VALID (0x0004) (02 R39). -/
  wallValid : Bool
  /-- offset set by TIME_SET, in force from the next tick (02 R39). -/
  wallNext : Option Int
  /-- OVR_SC_A to OVR_SC_C, saturating (02 R42). -/
  ovrCore : Three Nat
  /-- OVR_AP1, OVR_AP2, saturating (02 R46 R47). -/
  ovrAp : Two Nat
  /-- consecutive overruns (02 R46 R47). -/
  ovrApRun : Two Nat
  /-- SPEC_DISCARDS, saturating (02 R59). -/
  specDiscards : Nat
  /-- CLK_DEV_SYS to CLK_DEV_AON (02 R51). -/
  clkDev : List Int
  /-- consecutive gates within 2 % of each clock (17 R526). -/
  clkGood : List Nat
  /-- the APP gate in progress spans a change of power state (02 R51). -/
  gateSpans : Bool
  /-- kept for the 1000-frame gate of AON (02 R51). -/
  aonGateSpans : Bool
  /-- a core has seen no tick within 275 us and latches no vectors (02 R53). -/
  ticksMissed : Three Bool
  /-- ballast hold in force for this frame (02 R46). -/
  ballast : Bool
  /-- memory ECC of a motion plan handed over in this frame (01 R15). -/
  planEcc : Ecc
  /-- memory ECC of the source words of this frame's setpoint (01 R18). -/
  spEcc : Ecc
  /-- memory ECC of the door setpoints of this frame (01 R15). -/
  doorEcc : Two Ecc
  /-- memory ECC of the records written in this frame (01 R15). -/
  recEcc : Ecc
  deriving DecidableEq, Repr

/-- TimeState right after reset. -/
def TimeState.reset : TimeState where
  running := false
  frame := 0
  wallOffset := 0
  wallValid := false
  wallNext := none
  ovrCore := ⟨0, 0, 0⟩
  ovrAp := ⟨0, 0⟩
  ovrApRun := ⟨0, 0⟩
  specDiscards := 0
  clkDev := [0, 0, 0, 0, 0, 0, 0, 0, 0, 0]
  clkGood := [0, 0, 0, 0, 0, 0, 0, 0, 0, 0]
  gateSpans := false
  aonGateSpans := false
  ticksMissed := ⟨false, false, false⟩
  ballast := false
  planEcc := Ecc.fine
  spEcc := Ecc.fine
  doorEcc := ⟨Ecc.fine, Ecc.fine⟩
  recEcc := Ecc.fine

/-- The executing plan. -/
structure RunningPlan where
  /-- the plan (04 R98). -/
  plan : Plan
  /-- module time at which its first segment started (04 R99). -/
  t0 : Nat
  /-- engine state at that instant (04 R99). -/
  s0 : Kin
  /-- its last segment has ended (04 R99). -/
  ended : Bool
  deriving DecidableEq, Repr

/-- RunningPlan right after reset. -/
def RunningPlan.reset : RunningPlan where
  plan := Plan.empty
  t0 := 0
  s0 := Kin.rest 0
  ended := false

/-- An engine stop in progress (R108). -/
structure StopRun where
  /-- safe, emergency ramp or immediate normal stop (04 R108). -/
  kind : StopKind
  /-- segments the engine computed (04 R108). -/
  segs : List Seg
  /-- start instant (04 R99). -/
  t0 : Nat
  /-- engine state at that instant (04 R99). -/
  s0 : Kin
  /-- end point (04 R117). -/
  target : Int
  /-- the stopped motion was upward (04 R117). -/
  up : Bool
  deriving DecidableEq, Repr

/-- StopRun right after reset. -/
def StopRun.reset : StopRun where
  kind := StopKind.safe
  segs := []
  t0 := 0
  s0 := Kin.rest 0
  target := 0
  up := false

/-- The last valid drive feedback (R120). -/
structure Feedback where
  /-- SEQ (04 R120). -/
  seq : Nat
  /-- DRV_STATE (0x0249) (04 R124). -/
  state : Nat
  /-- DRV_FLAGS (04 R120). -/
  flags : Nat
  /-- V_MOTOR (04 R120). -/
  vMotor : Int
  /-- TORQUE (04 R120). -/
  torque : Int
  /-- UDC (04 R120). -/
  udc : Nat
  /-- DRV_CODE (04 R120). -/
  code : Nat
  deriving DecidableEq, Repr

/-- Feedback right after reset. -/
def Feedback.reset : Feedback where
  seq := 0
  state := 0
  flags := 0
  vMotor := 0
  torque := 0
  udc := 0
  code := 0

/-- The motion profile engine and the drive slot (chapter 04). -/
structure EngineState where
  /-- engine state at the tick, in 2^-20 units (SP_POS, SP_VEL, SP_ACC are its roundings) (04 R99). -/
  kin : Kin
  /-- jerk in force (04 R117). -/
  jerk : Int
  /-- MOTION_MODE (0x0240) (04 R124). -/
  mode : Nat
  /-- executing plan (04 R101). -/
  exec : Option RunningPlan
  /-- pending plan (04 R101). -/
  pend : Option Plan
  /-- the pending plan starts from rest (04 R112). -/
  pendRest : Bool
  /-- frame of its acceptance (04 R112). -/
  pendSince : Nat
  /-- speed cap enforced at its acceptance (04 R103). -/
  pendCap : Nat
  /-- engine stop in progress (04 R108). -/
  stop : Option StopRun
  /-- highest stop that takes effect at the next tick (04 R108 R111). -/
  stopReq : Option StopKind
  /-- a pending plan was cancelled in this frame (04 R111). -/
  cancelled : Bool
  /-- BRAKE_OPEN_REQ (04 R112). -/
  brakeReq : Bool
  /-- frame in which the levelling settle began (04 R113). -/
  settleSince : Option Nat
  /-- corrections made at this stop (04 R113). -/
  retries : Nat
  /-- brake request cleared, IDLE follows once the brake is closed (04 R108 R113). -/
  closing : Bool
  /-- frame in which the last plan from rest started (04 R122). -/
  started : Option Nat
  /-- PLAN_REJECTS (0x0248), saturating (04 R124). -/
  rejects : Nat
  /-- V_CAP (0x0246) (04 R103). -/
  vCap : Nat
  /-- setpoints are being sent (04 R115). -/
  spOn : Bool
  /-- SEQ of the next setpoint (04 R117). -/
  spSeq : Nat
  /-- a setpoint has been sent since start-up (04 R121). -/
  spSent : Bool
  /-- the newest setpoint transmitted (04 R117). -/
  spLast : List Nat
  /-- plan switched since the last setpoint (04 R117). -/
  newPlan : Bool
  /-- last valid feedback (04 R120). -/
  fb : Feedback
  /-- a valid feedback has been taken (04 R121). -/
  fbSeen : Bool
  /-- a valid message was taken in this basic cycle (04 R121). -/
  fbThisCycle : Bool
  /-- consecutive basic cycles without a valid message (04 R121). -/
  fbMiss : Nat
  /-- consecutive cycles with valid feedback (04 R125). -/
  fbGood : Nat
  /-- consecutive cycles with STATE READY (04 R125). -/
  fbReady : Nat
  /-- consecutive frames with the velocity error above TRACK_TOL_V (04 R122). -/
  trackRun : Nat
  /-- consecutive frames with |LEVEL_ERROR| above RELEVEL_START (04 R114). -/
  relRun : Nat
  /-- bridging request of a re-levelling (04 R114). -/
  relReq : Bool
  /-- frame of that request (04 R114). -/
  relSince : Nat
  /-- the re-levelling plan has been loaded (04 R114). -/
  relMoving : Bool
  /-- DOOR_CLOSE waiting for the end of re-levelling (04 R114). -/
  relClose : Two Bool
  /-- the held position stands from the last motion; clear: the engine holds the fused position (model, log 6) (04 R118). -/
  heldOk : Bool
  /-- ramp request of the frame before (04 R109). -/
  rampWas : Bool
  /-- an inspection or evacuation plan is in use (07 R235). -/
  inspReload : Bool
  deriving DecidableEq, Repr

/-- EngineState right after reset. -/
def EngineState.reset : EngineState where
  kin := Kin.rest 0
  jerk := 0
  mode := 0
  exec := none
  pend := none
  pendRest := false
  pendSince := 0
  pendCap := 0
  stop := none
  stopReq := none
  cancelled := false
  brakeReq := false
  settleSince := none
  retries := 0
  closing := false
  started := none
  rejects := 0
  vCap := 0
  spOn := false
  spSeq := 0
  spSent := false
  spLast := []
  newPlan := false
  fb := Feedback.reset
  fbSeen := false
  fbThisCycle := false
  fbMiss := 0
  fbGood := 0
  fbReady := 0
  trackRun := 0
  relRun := 0
  relReq := false
  relSince := 0
  relMoving := false
  relClose := ⟨false, false⟩
  heldOk := false
  rampWas := false
  inspReload := false

/-- One registered call (R126). -/
structure CallRec where
  /-- landing (05 R126). -/
  landing : Nat
  /-- 0 car, 1 hall up, 2 hall down (05 R126). -/
  kind : Nat
  /-- side (05 R126). -/
  side : Ab
  /-- registration timestamp (05 R126). -/
  time : Nat
  /-- registered locally under the fallback of R137 (05 R137). -/
  fallback : Bool
  deriving DecidableEq, Repr

/-- CallRec right after reset. -/
def CallRec.reset : CallRec where
  landing := 0
  kind := 0
  side := Ab.a
  time := 0
  fallback := false

/-- A call change waiting for the next freeze (R129). -/
structure CallChange where
  /-- 0 port A, 1 port B, 2 host, 3 the scheduler itself (05 R129). -/
  src : Nat
  /-- add or remove (05 R129). -/
  add : Bool
  /-- landing (05 R129). -/
  landing : Nat
  /-- call type (05 R129). -/
  kind : Nat
  /-- side mask (05 R129). -/
  sides : Nat
  /-- REF of the group command to answer (11 R369). -/
  ref : Option Nat
  /-- made under the fallback (05 R137). -/
  fallback : Bool
  deriving DecidableEq, Repr

/-- CallChange right after reset. -/
def CallChange.reset : CallChange where
  src := 0
  add := true
  landing := 0
  kind := 0
  sides := 0
  ref := none
  fallback := false

/-- A GROUP_RES to send (R369). -/
structure GroupRes where
  /-- RESULT (11 R369). -/
  result : Nat
  /-- CALL (11 R369). -/
  call : Nat
  /-- LANDING (11 R369). -/
  landing : Nat
  /-- REF (11 R369). -/
  ref : Nat
  deriving DecidableEq, Repr

/-- GroupRes right after reset. -/
def GroupRes.reset : GroupRes where
  result := 0
  call := 0
  landing := 0
  ref := 0

/-- A slot of the spool (R140, R142). -/
structure SpoolEntry where
  /-- slot number (05 R140). -/
  slot : Nat
  /-- premise epoch under which it was built (05 R140). -/
  epoch : Nat
  /-- BUILDING (false) or READY (true) (05 R142). -/
  ready : Bool
  /-- candidate plan (05 R140). -/
  plan : Plan
  /-- target landing (05 R140). -/
  target : Nat
  /-- speed cap under which it was built (04 R103). -/
  cap : Nat
  deriving DecidableEq, Repr

/-- SpoolEntry right after reset. -/
def SpoolEntry.reset : SpoolEntry where
  slot := 0
  epoch := 0
  ready := false
  plan := Plan.empty
  target := 0
  cap := 0

/-- The stop scheduler (chapter 05). -/
structure SchedState where
  /-- the call table (05 R126). -/
  calls : List CallRec
  /-- changes of this frame (05 R129). -/
  changes : List CallChange
  /-- calls answered in earlier frames (for WITHDRAW) (05 R135). -/
  answered : List CallRec
  /-- direction that the search for the next stop starts from (05 R131). -/
  dir : Nat
  /-- COMMIT_TARGET (0x0311) (05 R149). -/
  target : Nat
  /-- EXIT_LANDING (0x0312) (05 R149). -/
  exitL : Nat
  /-- NEXT_STOP (0x0313) (05 R149). -/
  next : Nat
  /-- the itinerary after S_0: landing and direction (05 R131). -/
  stops : List (Nat × Nat)
  /-- SPEC_EPOCH (0x0314), wrapping (05 R149). -/
  epoch : Nat
  /-- last plan identifier (05 R139). -/
  planId : Nat
  /-- spool: the speculative entries (05 R140). -/
  spool : List SpoolEntry
  /-- slot 0: the candidate plan of frame work (05 R140). -/
  cand : Option SpoolEntry
  /-- that candidate was promoted from a speculative entry (05 R143). -/
  candHit : Bool
  /-- SPOOL_HITS (0x0315), saturating (05 R149). -/
  hits : Nat
  /-- SPOOL_MISSES (0x0316), saturating (05 R149). -/
  misses : Nat
  /-- frame since which the car has stood idle (05 R146). -/
  idleSince : Nat
  /-- homing-floor return due (05 R147). -/
  homeDue : Bool
  /-- frame since which a run has been due (05 R148). -/
  dueSince : Nat
  /-- a run is due (05 R148). -/
  runDue : Bool
  /-- frame since which POS_QUALITY alone has held up a run (05 R148). -/
  lowSince : Nat
  /-- POS_QUALITY alone holds up a run (05 R148). -/
  lowDue : Bool
  /-- landing at which the stop has been made (05 R131). -/
  stoppedAt : Nat
  /-- direction of that stop (05 R132). -/
  stopDir : Nat
  /-- sides opening or open to answer calls (SERVING) (05 R126). -/
  serving : List (Nat × Ab)
  /-- opening requested for calls (05 R132). -/
  openReq : Two Bool
  /-- the opening answered a hall call (06 R166). -/
  hallOpen : Two Bool
  /-- frame of the last group heartbeat taken (05 R137). -/
  hbLast : Nat
  /-- results for the next basic cycle (05 R135). -/
  groupOut : List GroupRes
  /-- target and sides of the RUN_TO in force (05 R130). -/
  runTo : Option (Nat × Nat)
  /-- a commit was decided in this frame (05 R151). -/
  decided : Bool
  /-- an exit plan is to be committed (05 R138). -/
  exitReq : Bool
  /-- that exit is a reaction of class F3 or of UNIT_DISABLE (05 R145). -/
  exitF3 : Bool
  /-- a premise change asks for a replacement (05 R138). -/
  replan : Bool
  /-- the committed stop is kept without a call (05 R136). -/
  keepStop : Bool
  /-- the committed stop never had a call: that of a parking, homing-floor or exit run (05 R136 R146). -/
  parkRun : Bool
  /-- a call at the nearest landing is due on return to service (17 R522). -/
  afterF45 : Bool
  /-- inspection or evacuation mode in the last frame (05 R134). -/
  wasInsp : Bool
  /-- IN_SERVICE (0x0044) (17 R527). -/
  inService : Bool
  /-- in service in the last frame (05 R134). -/
  wasService : Bool
  /-- the calls of an F3 reaction have been registered (05 R145). -/
  f3Served : Bool
  deriving DecidableEq, Repr

/-- SchedState right after reset. -/
def SchedState.reset : SchedState where
  calls := []
  changes := []
  answered := []
  dir := 0
  target := 65535
  exitL := 65535
  next := 65535
  stops := []
  epoch := 0
  planId := 0
  spool := []
  cand := none
  candHit := false
  hits := 0
  misses := 0
  idleSince := 0
  homeDue := true
  dueSince := 0
  runDue := false
  lowSince := 0
  lowDue := false
  stoppedAt := 65535
  stopDir := 0
  serving := []
  openReq := ⟨false, false⟩
  hallOpen := ⟨false, false⟩
  hbLast := 0
  groupOut := []
  runTo := none
  decided := false
  exitReq := false
  exitF3 := false
  replan := false
  keepStop := false
  parkRun := false
  afterF45 := false
  wasInsp := false
  inService := false
  wasService := false
  f3Served := false

/-- A setpoint of a door drive engine (R158). -/
structure DoorSp where
  /-- reference position for the tick (06 R158). -/
  pos : Int
  /-- reference velocity (06 R158). -/
  vel : Int
  /-- reference acceleration (06 R158). -/
  acc : Int
  /-- DOOR_STATE it is driving towards (06 R158). -/
  state : Nat
  /-- energy bound in force (06 R158). -/
  eLim : Nat
  deriving DecidableEq, Repr

/-- DoorSp right after reset. -/
def DoorSp.reset : DoorSp where
  pos := 0
  vel := 0
  acc := 0
  state := 0
  eLim := 0

/-- One door drive engine (chapter 06). -/
structure DoorState where
  /-- DOOR_STATE (0x0430) (06 R162). -/
  state : Nat
  /-- the side's own unit state without faults (06 R163). -/
  own : UState
  /-- DOOR_POS (0x0431) (06 R161). -/
  x : Int
  /-- DOOR_VEL (0x0432) (06 R157). -/
  v : Int
  /-- the observer's acceleration (06 R178). -/
  aObs : Int
  /-- DOOR_THRUST (0x0433) (06 R168). -/
  thrust : Int
  /-- DOOR_RESIDUAL (0x0434) (06 R178). -/
  residual : Int
  /-- DOOR_KE (0x0435) (06 R175). -/
  ke : Nat
  /-- DOOR_V_LIM (0x0436) (06 R174). -/
  vLim : Nat
  /-- OBST_COUNT (0x0437), saturating (06 R180). -/
  obstCount : Nat
  /-- OBST_CONSEC (0x0438), saturating (06 R180). -/
  obstConsec : Nat
  /-- DOOR_UDC (0x0439) (06 R156). -/
  udc : Nat
  /-- integral of the thermal model (DOOR_I2T, 0x043A, is its percentage) (06 R187). -/
  i2t : Nat
  /-- current limited to DOOR_I_CONT (06 R187). -/
  i2tLimit : Bool
  /-- KE_EXCEED_COUNT (0x043B), saturating (06 R175). -/
  keCount : Nat
  /-- consecutive updates with E above E_lim (06 R175). -/
  keRun : Nat
  /-- this excess has been counted (06 R175). -/
  keRaised : Bool
  /-- every update of this closing stroke within E_lim (06 R175). -/
  keStrokeOk : Bool
  /-- consecutive updates with r at or above OBST_FORCE (06 R179). -/
  obstRun : Nat
  /-- last valid state of the Hall sensors or of the tracks (06 R157). -/
  hall : Option Nat
  /-- consecutive samples at 0b000 or 0b111 (06 R157). -/
  hallBad : Nat
  /-- updates since the last count while thrust and reference ask for motion (06 R157). -/
  noCount : Nat
  /-- frames without violation, at rest (06 R191). -/
  fbGood : Nat
  /-- consecutive samples at full scale (06 R155). -/
  adcFull : Nat
  /-- measured offset of input U (06 R155). -/
  offU : Int
  /-- measured offset of input W (06 R155). -/
  offW : Int
  /-- offsets checked in this STARTING (06 R163). -/
  offOk : Bool
  /-- PWM enabled (gates switching) (06 R153). -/
  gates : Bool
  /-- frame since which the gates have been off (06 R155). -/
  gatesOffSince : Nat
  /-- RUN_PERMIT in force (06 R159). -/
  runPermit : Bool
  /-- OPEN_PERMIT in force (06 R159). -/
  openPermit : Bool
  /-- REOPEN_REQ in force (06 R159). -/
  reopenReq : Bool
  /-- reference position of the setpoint (06 R158). -/
  refX : Int
  /-- reference velocity (06 R158). -/
  refV : Int
  /-- reference acceleration (06 R158). -/
  refA : Int
  /-- PWM duties of U, V and W of the last update (06 R160). -/
  duty : Three Nat
  /-- thrust demanded of the current loop (06 R173 R176). -/
  cmd : Int
  /-- the observer's velocity (06 R157). -/
  vFine : Int
  /-- part of the position below 1 um (06 R157). -/
  xFrac : Nat
  /-- rotor position within the motor revolution (06 R157). -/
  rotor : Nat
  /-- updates since the tick (06 R158). -/
  upd : Nat
  /-- updates since the tick at which the reference was set (06 R158 R180). -/
  refK : Nat
  /-- draw of the run of the speed and position loop in this frame (06 R158). -/
  loopN : Nat
  /-- position that run has taken (06 R158). -/
  loopX : Int
  /-- velocity that run has taken (06 R158). -/
  loopV : Int
  /-- setpoint handed over for the next tick, or in use (06 R158). -/
  sp : Option DoorSp
  /-- duties held for want of a setpoint (06 R160). -/
  held : Bool
  /-- door event raised, not yet taken by the application processor (06 R180). -/
  engEvt : Bool
  /-- braking to v_lim after a KE excess (06 R175). -/
  keBrake : Bool
  /-- nudging began under a REOPEN_REQ not yet withheld (06 R184). -/
  nudgeOver : Bool
  /-- landings for which 0x5A is in force (06 R191). -/
  unlearned : List Nat
  /-- open end found by stall at an unlearned landing (06 R169). -/
  endX : Nat
  /-- opening thrust measured in the preceding opening stroke (06 R169). -/
  openThrust : List (Nat × Int)
  /-- stroke 5 is in an acceleration phase (06 R169). -/
  speedUp : Bool
  /-- frames without a valid setpoint (06 R160). -/
  spMiss : Nat
  /-- decelerated to rest after ballast hold (06 R160). -/
  ballastStop : Bool
  /-- consecutive frames meeting the CLOSED condition (06 R161). -/
  closedRun : Nat
  /-- reversal still decelerating (06 R180). -/
  reversing : Bool
  /-- DOOR_HOLD follows the reversal (06 R164). -/
  holdAfter : Bool
  /-- deferred close (06 R181). -/
  deferred : Bool
  /-- nudging accepted while a reversal is carried out (06 R184 R185). -/
  nudgeDue : Bool
  /-- start of the dwell (06 R166). -/
  dwellFrom : Option Nat
  /-- its length (06 R166). -/
  dwellLen : Nat
  /-- dwell suspended by REOPEN_REQ (06 R166). -/
  dwellSusp : Bool
  /-- start of a hold (06 R167). -/
  holdFrom : Option Nat
  /-- start of the stroke in progress (06 R182). -/
  stroke : Option Nat
  /-- no obstruction, reversal or REOPEN_REQ in this closing stroke (06 R172). -/
  strokeClean : Bool
  /-- residual summed at constant reference speed (06 R172). -/
  resSum : Int
  /-- updates summed (06 R172). -/
  resN : Nat
  /-- mean magnitudes of the last strokes (06 R172). -/
  drift : List Nat
  /-- frame of entry into the masked zone (06 R178). -/
  maskSince : Option Nat
  /-- frame since which the protective device is interrupted (06 R184). -/
  dpdSince : Option Nat
  /-- frame of the obstruction that ended nudging (06 R184). -/
  nudgeAgain : Option Nat
  /-- closes are carried out as nudging until CLOSED (06 R182). -/
  forceNudge : Bool
  /-- STOPPING waits for a reversal to end (06 R186). -/
  stopPend : Bool
  /-- start of the referencing stroke (06 R163). -/
  refFrom : Option Nat
  /-- learning cycle in progress, with the tag of its command (256: started by R171) (06 R169). -/
  learnTag : Option Nat
  /-- stroke 1 to 6 (06 R169). -/
  learnStroke : Nat
  /-- closing hold of a door re-check (15 R484). -/
  recheck : Bool
  /-- frame since which the bus voltage is in range (06 R191). -/
  busOkSince : Option Nat
  /-- bus voltage in the warning bands (06 R156). -/
  warn : Bool
  /-- OPEN reached since the last CLOSED (06 R189). -/
  openedHere : Bool
  /-- commands accepted in this frame, in order: 1 open, 2 close, 3 hold, 4 nudge, 5 learn (06 R164). -/
  cmds : List Nat
  /-- gates turned off by the withdrawal of RUN_PERMIT (17 R523). -/
  permitOff : Bool
  /-- consecutive updates of a learning stroke below 10 % of its speed at the thrust clamp (06 R169). -/
  stallRun : Nat
  /-- consecutive updates of a closing learning stroke below 50 % of its speed (06 R169). -/
  slowRun : Nat
  /-- landing of the learning cycle (06 R169). -/
  learnLand : Nat
  deriving DecidableEq, Repr

/-- DoorState right after reset. -/
def DoorState.reset : DoorState where
  state := 0
  own := UState.starting
  x := 0
  v := 0
  aObs := 0
  thrust := 0
  residual := 0
  ke := 0
  vLim := 0
  obstCount := 0
  obstConsec := 0
  udc := 0
  i2t := 0
  i2tLimit := false
  keCount := 0
  keRun := 0
  keRaised := false
  keStrokeOk := false
  obstRun := 0
  hall := none
  hallBad := 0
  noCount := 0
  fbGood := 0
  adcFull := 0
  offU := 0
  offW := 0
  offOk := false
  gates := false
  gatesOffSince := 0
  runPermit := false
  openPermit := false
  reopenReq := false
  refX := 0
  refV := 0
  refA := 0
  duty := ⟨0, 0, 0⟩
  cmd := 0
  vFine := 0
  xFrac := 0
  rotor := 0
  upd := 0
  refK := 0
  loopN := 0
  loopX := 0
  loopV := 0
  sp := none
  held := false
  engEvt := false
  keBrake := false
  nudgeOver := false
  unlearned := []
  endX := 0
  openThrust := []
  speedUp := true
  spMiss := 0
  ballastStop := false
  closedRun := 0
  reversing := false
  holdAfter := false
  deferred := false
  nudgeDue := false
  dwellFrom := none
  dwellLen := 0
  dwellSusp := false
  holdFrom := none
  stroke := none
  strokeClean := false
  resSum := 0
  resN := 0
  drift := []
  maskSince := none
  dpdSince := none
  nudgeAgain := none
  forceNudge := false
  stopPend := false
  refFrom := none
  learnTag := none
  learnStroke := 0
  recheck := false
  busOkSince := none
  warn := false
  openedHere := false
  cmds := []
  permitOff := false
  stallRun := 0
  slowRun := 0
  learnLand := 65535

/-- An open discrepancy measurement (R202). -/
structure Meas where
  /-- opened by channel B (07 R202). -/
  chB : Bool
  /-- the transition was to the safe level (07 R202). -/
  toSafe : Bool
  /-- link tick of the transition (07 R202). -/
  l0 : Nat
  deriving DecidableEq, Repr

/-- Meas right after reset. -/
def Meas.reset : Meas where
  chB := false
  toSafe := false
  l0 := 0

/-- One pair of channels of a block (R199 to R203). -/
structure PairState where
  /-- block (07 R199). -/
  handle : Nat
  /-- 0 main pair, 1 COMMON, 2 UP, 3 DOWN (07 R232). -/
  role : Nat
  /-- channel A at its safe level (07 R199). -/
  aSafe : Bool
  /-- channel B at its safe level (07 R199). -/
  bSafe : Bool
  /-- open measurements, oldest first (07 R202). -/
  meas : List Meas
  /-- both channels seen safe at one link tick since the fault (07 R203). -/
  bothSafe : Bool
  /-- link tick at which a button became pressed (07 R232). -/
  pressedAt : Option Nat
  /-- FB_LAST_DISC (0x0562) (07 R202). -/
  lastDisc : Nat
  /-- link tick at which that measurement closed (07 R202). -/
  discLt : Nat
  /-- not yet read from a freeze (07 R199). -/
  fresh : Bool
  /-- a discrepancy of this pair has not ended (07 R203). -/
  disc : Bool
  /-- not NORMAL at some link tick since the freeze before (07 R201). -/
  dip : Bool
  /-- NORMAL at some link tick since the freeze before (07 R232). -/
  rise : Bool
  /-- a channel was in bench at the last freeze (07 R240). -/
  held : Bool
  deriving DecidableEq, Repr

/-- PairState right after reset. -/
def PairState.reset : PairState where
  handle := 0
  role := 0
  aSafe := true
  bSafe := true
  meas := []
  bothSafe := false
  pressedAt := none
  lastDisc := 0
  discLt := 0
  fresh := true
  disc := false
  dip := false
  rise := false
  held := false

/-- One block's record in one core. -/
structure BlockRec where
  /-- block (07 R192). -/
  handle : Nat
  /-- trips and faults in force in this core, ascending (07 R198). -/
  codes : List Nat
  /-- DEMAND (07 R196). -/
  demand : Bool
  /-- a channel of the block is in bench (07 R196). -/
  bench : Bool
  /-- FB_TRIP_COUNT (0x0561), saturating (07 R246). -/
  trips : Nat
  /-- FB_LAST_EVENT (0x0563) (07 R246). -/
  lastEvent : Nat
  deriving DecidableEq, Repr

/-- BlockRec right after reset. -/
def BlockRec.reset : BlockRec where
  handle := 0
  codes := []
  demand := false
  bench := false
  trips := 0
  lastEvent := 0

/-- One contactor of a group in one core (R238). -/
structure Contactor where
  /-- its output bit as the last vote decided it (07 R238). -/
  on : Bool
  /-- a vote has decided it since start-up (07 R238). -/
  voted : Bool
  /-- link tick 33 of the vote that changed it (07 R238). -/
  lt : Nat
  /-- pull or drop check running (07 R238). -/
  wait : Bool
  /-- that check passed: confirmed pulled, or dropped (07 R238). -/
  ok : Bool
  /-- consecutive evaluations with the mirror closed while pulled (07 R238). -/
  bad : Nat
  deriving DecidableEq, Repr

/-- Contactor right after reset. -/
def Contactor.reset : Contactor where
  on := false
  voted := false
  lt := 0
  wait := false
  ok := false
  bad := 0

/-- One safety output group in one core (R207, R238). -/
structure GroupOut where
  /-- both output bits set in the core's vector (07 R209). -/
  cmd : Bool
  /-- its two contactors (07 R238). -/
  cs : Two Contactor
  /-- de-energised by 0x6C or 0x6D until its request is clear (07 R238 R209). -/
  bar : Bool
  deriving DecidableEq, Repr

/-- GroupOut right after reset. -/
def GroupOut.reset : GroupOut where
  cmd := false
  cs := ⟨Contactor.reset, Contactor.reset⟩
  bar := false

/-- The values the cores take from outside the triad at the freeze (R195). -/
structure ReqRec where
  /-- run request (07 R195). -/
  run : Bool
  /-- brake-open request (07 R195). -/
  brake : Bool
  /-- AUX request of each group (07 R195). -/
  aux : Nat
  /-- re-levelling bridging request (07 R195). -/
  bridge : Bool
  /-- COMMIT_TARGET (07 R195). -/
  target : Nat
  /-- run kind under 04 R98 (07 R195). -/
  kind : Nat
  /-- DOOR_STATE of each side (07 R195). -/
  doors : Two Nat
  deriving DecidableEq, Repr

/-- ReqRec right after reset. -/
def ReqRec.reset : ReqRec where
  run := false
  brake := false
  aux := 0
  bridge := false
  target := 65535
  kind := 0
  doors := ⟨0, 0⟩

/-- The safety evaluation of one core (chapter 07). -/
structure CoreState where
  /-- blocks with something to hold (07 R196). -/
  blocks : List BlockRec
  /-- pairs (07 R199). -/
  pairs : List PairState
  /-- output groups (07 R238). -/
  groups : List GroupOut
  /-- output vector of this frame (07 R194). -/
  vector : Nat
  /-- vector of the safety frame before, which the vote of this one takes in DOZE and PARK (07 R242). -/
  latched : Nat
  /-- RUN_PERMIT bits (07 R211). -/
  runPermit : Two Bool
  /-- OPEN_PERMIT bits (07 R211). -/
  openPermit : Two Bool
  /-- REOPEN_REQ bits (07 R211). -/
  reopenReq : Two Bool
  /-- ramp request (07 R212). -/
  ramp : Bool
  /-- bridging grant (07 R221). -/
  grant : Bool
  /-- the grant was for a re-levelling (07 R223). -/
  grantRel : Bool
  /-- brake status: 0 NONE, 1 OPEN, 2 CLOSED (07 R239). -/
  brake : Nat
  /-- BRAKE groups energised by the last vote; none before the first (07 R239). -/
  brakeOn : Option Bool
  /-- opening or closing check running (07 R239). -/
  brakeWait : Bool
  /-- link tick of that vote (07 R239). -/
  brakeLt : Nat
  /-- consecutive evaluations of a contradicting switch (07 R239). -/
  brakeBad : Two Nat
  /-- drag seen in this run (07 R248). -/
  dragSeen : Bool
  /-- brake reported open in this run (07 R248). -/
  openedThisRun : Bool
  /-- reference position while the doors are not locked (07 R224). -/
  ucmRef : Option Int
  /-- UCM_REF (0x0565) (07 R224). -/
  ucmPub : Int
  /-- RESET_CH active (07 R204). -/
  rstActive : Bool
  /-- link tick of its last change (07 R204). -/
  rstSince : Nat
  /-- preceded by 8000 inactive link ticks (07 R204). -/
  rstArmed : Bool
  /-- valid release not yet acted on (07 R204). -/
  rstEdge : Option Nat
  /-- inspection mode active (07 R231). -/
  insp : Bool
  /-- evacuation mode active (07 R231). -/
  evac : Bool
  /-- link tick at which the mode became active (07 R232). -/
  modeLt : Nat
  /-- a run of another kind was in progress at entry (07 R234). -/
  inspEntryRun : Bool
  /-- that run has come to its end (07 R234). -/
  entryOver : Bool
  /-- frame of entry (07 R234). -/
  inspSince : Nat
  /-- direction for which the two-hand condition holds (07 R232). -/
  stnDir : Nat
  /-- per station, last link tick at which all buttons were released together (07 R232). -/
  allReleased : List (Nat × Nat)
  /-- stations whose buttons were all released at some link tick of the last freeze (07 R232). -/
  freed : List Nat
  /-- per station, STN_DIR (07 R232). -/
  twoHand : List (Nat × Nat)
  /-- lowest cap binding the run (07 R227). -/
  runCap : Option Nat
  /-- a run is in progress (07 R207). -/
  running : Bool
  /-- per block, consecutive disagreeing evaluations (07 R230). -/
  tslRun : List (Nat × Nat)
  /-- the run was started in inspection mode (07 R234). -/
  runInsp : Bool
  /-- per block, side of the edge on which switch and position last agreed: true beyond (07 R230 R248). -/
  tslBeyond : List (Nat × Bool)
  /-- frame in which a reset edge last acted (07 R206). -/
  edgeAt : Option Nat
  /-- states kept for the rejoin, from this frame (09 R279). -/
  keep : Option Nat
  deriving DecidableEq, Repr

/-- CoreState right after reset. -/
def CoreState.reset : CoreState where
  blocks := []
  pairs := []
  groups := List.replicate 8 GroupOut.reset
  vector := 0
  latched := 0
  runPermit := ⟨false, false⟩
  openPermit := ⟨false, false⟩
  reopenReq := ⟨false, false⟩
  ramp := false
  grant := false
  grantRel := false
  brake := 0
  brakeOn := none
  brakeWait := false
  brakeLt := 0
  brakeBad := ⟨0, 0⟩
  dragSeen := false
  openedThisRun := false
  ucmRef := none
  ucmPub := 0
  rstActive := false
  rstSince := 0
  rstArmed := false
  rstEdge := none
  insp := false
  evac := false
  modeLt := 0
  inspEntryRun := false
  entryOver := false
  inspSince := 0
  stnDir := 0
  allReleased := []
  freed := []
  twoHand := []
  runCap := none
  running := false
  tslRun := []
  runInsp := false
  tslBeyond := []
  edgeAt := none
  keep := none

/-- Lock state of one landing (R216, R247). -/
structure LockRec where
  /-- landing (07 R247). -/
  landing : Nat
  /-- LOCK_STATE (0x0580) (07 R247). -/
  bits : Nat
  /-- frame of the last valid message (07 R216). -/
  atF : Nat
  /-- consecutive valid messages since fault 0x66 (07 R248). -/
  good : Nat
  /-- watchdog expired (07 R216). -/
  timedOut : Bool
  deriving DecidableEq, Repr

/-- LockRec right after reset. -/
def LockRec.reset : LockRec where
  landing := 0
  bits := 0
  atF := 0
  good := 0
  timedOut := false

/-- The shared part of the safety functions. -/
structure SafetyState where
  /-- cores whose vector came for the frame before (06 R157 R159). -/
  came : Three Bool
  /-- SC-A, SC-B, SC-C (07 R192). -/
  cores : Three CoreState
  /-- lock state of the landings (07 R247). -/
  locks : List LockRec
  /-- LOCK messages received since the last freeze: identifier and bytes (07 R216). -/
  lockBox : List (Nat × List Nat)
  /-- frame since which chain and messages differ (07 R218). -/
  disagree : Two (Option Nat)
  /-- frame since which they agree while 0x67 is in force (07 R248). -/
  agree : Two (Option Nat)
  /-- sides of landings away from the car that are open, 2 × landing + side, with the frame since which (07 R219). -/
  away : List (Nat × Nat)
  /-- bridging grant in force at the tick (07 R194). -/
  grant : Bool
  /-- ramp request in force (04 R109). -/
  ramp : Bool
  /-- BRAKE_STATUS in force at the tick (07 R246). -/
  brake : Nat
  /-- values taken at the freeze (07 R195). -/
  req : ReqRec
  /-- restored trips need the reset edge in inspection mode (17 R517). -/
  restoredNeedsInsp : Bool
  /-- unit and code of restored trips (17 R517). -/
  restored : List (Nat × Nat)
  deriving DecidableEq, Repr

/-- SafetyState right after reset. -/
def SafetyState.reset : SafetyState where
  came := ⟨false, false, false⟩
  cores := ⟨CoreState.reset, CoreState.reset, CoreState.reset⟩
  locks := []
  lockBox := []
  disagree := ⟨none, none⟩
  agree := ⟨none, none⟩
  away := []
  grant := false
  ramp := false
  brake := 0
  req := ReqRec.reset
  restoredNeedsInsp := false
  restored := []

/-- A parameter or attribute value that differs from its default. -/
structure ParamCell where
  /-- unit handle (14 R456). -/
  handle : Nat
  /-- parameter ID (14 R456). -/
  id : Nat
  /-- the value, one number per element or byte (14 R456). -/
  val : List Int
  deriving DecidableEq, Repr

/-- ParamCell right after reset. -/
def ParamCell.reset : ParamCell where
  handle := 0
  id := 0
  val := []

/-- A parameter write that takes effect at a later tick (R12, R149). -/
structure Deferred where
  /-- unit handle (14 R458). -/
  handle : Nat
  /-- parameter ID (14 R458). -/
  id : Nat
  /-- the value (14 R458). -/
  val : List Int
  /-- a STILL write, judged again at the tick (00 R12). -/
  still : Bool
  /-- opcode and tag of the command that made it (00 R12). -/
  cmd : Nat × Nat
  deriving DecidableEq, Repr

/-- Deferred right after reset. -/
def Deferred.reset : Deferred where
  handle := 0
  id := 0
  val := []
  still := false
  cmd := (0, 0)

/-- A fault in force (R13, R518). -/
structure FaultRec where
  /-- unit of the fault (17 R525). -/
  unit : Nat
  /-- fault code (17 R525). -/
  code : Nat
  /-- class taken at the raising (17 R518). -/
  cls : Nat
  /-- frame of the raising (17 R518). -/
  atF : Nat
  /-- evidence counted towards its end condition (17 R525). -/
  good : Nat
  deriving DecidableEq, Repr

/-- FaultRec right after reset. -/
def FaultRec.reset : FaultRec where
  unit := 0
  code := 0
  cls := 0
  atF := 0
  good := 0

/-- Own state of a unit that is not derived from its chapter's state (R25, R30). -/
structure UnitCell where
  /-- unit handle (01 R25). -/
  handle : Nat
  /-- own state while no fault puts it in FAULT (01 R30). -/
  own : UState
  /-- frame of the last transition (01 R30). -/
  since : Nat
  /-- ENABLE_PENDING (01 R33). -/
  pend : Bool
  /-- FAULT_LATCHED (01 R29). -/
  latched : Bool
  /-- frame of the last entry into FAULT (00 R10). -/
  latchedAt : Nat
  /-- UNIT_DISABLE accepted in FAULT (01 R30). -/
  offAfter : Bool
  deriving DecidableEq, Repr

/-- UnitCell right after reset. -/
def UnitCell.reset : UnitCell where
  handle := 0
  own := UState.on
  since := 0
  pend := false
  latched := false
  latchedAt := 0
  offAfter := false

/-- A user group (R23). -/
structure GroupDef where
  /-- handle 0x2000 to 0x2FFF (01 R23). -/
  handle : Nat
  /-- direct children, as given (01 R23). -/
  kids : List Nat
  deriving DecidableEq, Repr

/-- GroupDef right after reset. -/
def GroupDef.reset : GroupDef where
  handle := 0
  kids := []

/-- One staged entry (R260). -/
structure Staged where
  /-- unit handle (08 R260). -/
  handle : Nat
  /-- parameter ID (08 R260). -/
  id : Nat
  /-- value (08 R260). -/
  val : List Int
  deriving DecidableEq, Repr

/-- Staged right after reset. -/
def Staged.reset : Staged where
  handle := 0
  id := 0
  val := []

/-- A configuration copy (R264, R268). -/
structure CabCopy where
  /-- header mark valid (08 R264). -/
  mark : Bool
  /-- generation (08 R264). -/
  gen : Nat
  /-- CAB values that differ from their defaults (08 R264). -/
  vals : List ParamCell
  deriving DecidableEq, Repr

/-- CabCopy right after reset. -/
def CabCopy.reset : CabCopy where
  mark := true
  gen := 0
  vals := []

/-- A commit in progress (R262 to R264). -/
structure CommitRun where
  /-- frame k of acceptance (08 R263). -/
  atF : Nat
  /-- tag of the CAB_COMMIT (14 R455). -/
  tag : Nat
  /-- 0 waiting for verdicts, 1 first copy being written, 2 past the commit point, 3 the values are in force (08 R264). -/
  phase : Nat
  /-- the staged set as it was frozen (08 R262). -/
  entries : List Staged
  /-- SEQ of the first log entry of the commit (08 R264). -/
  logFrom : Nat
  /-- log entries of the commit (08 R264). -/
  logN : Nat
  /-- generation g (08 R264). -/
  gen : Nat
  /-- the copy written first (08 R264). -/
  first : Ab
  /-- the resulting configuration (08 R264). -/
  vals : List ParamCell
  /-- slot of the session (08 R265). -/
  slot : Nat
  deriving DecidableEq, Repr

/-- CommitRun right after reset. -/
def CommitRun.reset : CommitRun where
  atF := 0
  tag := 0
  phase := 0
  entries := []
  logFrom := 0
  logN := 0
  gen := 0
  first := Ab.b
  vals := []
  slot := 0

/-- A login being verified (R256). -/
structure LoginRun where
  /-- slot named (08 R256). -/
  slot : Nat
  /-- password given (08 R256). -/
  pwd : List Nat
  /-- tag (14 R455). -/
  tag : Nat
  /-- frame of acceptance (08 R256). -/
  atF : Nat
  deriving DecidableEq, Repr

/-- LoginRun right after reset. -/
def LoginRun.reset : LoginRun where
  slot := 0
  pwd := []
  tag := 0
  atF := 0

/-- A password change being computed (R255). -/
structure PwdRun where
  /-- slot to set or clear (08 R255). -/
  slot : Nat
  /-- the password, empty to clear (08 R255). -/
  pwd : List Nat
  /-- tag (14 R455). -/
  tag : Nat
  /-- frame of acceptance (08 R255). -/
  atF : Nat
  /-- slot of the session (08 R265). -/
  bySlot : Nat
  deriving DecidableEq, Repr

/-- PwdRun right after reset. -/
def PwdRun.reset : PwdRun where
  slot := 0
  pwd := []
  tag := 0
  atF := 0
  bySlot := 0

/-- A slot record (R253). -/
structure Cred where
  /-- salt (08 R253). -/
  salt : List Nat
  /-- H_10000; empty for an empty slot (08 R253). -/
  hash : List Nat
  deriving DecidableEq, Repr

/-- Cred right after reset. -/
def Cred.reset : Cred where
  salt := []
  hash := []

/-- The cabinet (chapter 08). -/
structure CabinetState where
  /-- configuration copies A and B (08 R250). -/
  copies : Two CabCopy
  /-- the cores hold a configuration (08 R252). -/
  used : Bool
  /-- slot records of state blocks A and B (08 R250, R253). -/
  creds : Two (List Cred)
  /-- failure count and lockout time remaining, as last written to state blocks A and B (08 R250, R259). -/
  locked : Two (Nat × Nat)
  /-- slot of the open session (08 R256). -/
  session : Option Nat
  /-- frame in which it opened (08 R257). -/
  sessAt : Nat
  /-- CAB_LOGOUT accepted (08 R257). -/
  logoutReq : Bool
  /-- login being verified (08 R256). -/
  login : Option LoginRun
  /-- password change (08 R255). -/
  pwd : Option PwdRun
  /-- CAB_FAIL_COUNT (0x05F3), saturating (08 R258). -/
  fails : Nat
  /-- lockout time left (CAB_LOCKOUT_LEFT, 0x05F4, in whole seconds) (08 R258). -/
  lockout : Nat
  /-- staged set, ascending handle then ID (08 R260). -/
  staged : List Staged
  /-- commit in progress (08 R262). -/
  commit : Option CommitRun
  /-- CAB_GENERATION (0x05F6) (08 R264). -/
  gen : Nat
  /-- CAB_LOG_HEAD (0x05F8) (08 R265). -/
  head : Nat
  /-- CAB_LOG_OVERWRITES (0x05F9), saturating (08 R265). -/
  overwrites : Nat
  /-- CAB_REJECT_UNIT (0x05FA) (08 R263). -/
  rejUnit : Nat
  /-- CAB_REJECT_ID (0x05FB) (08 R263). -/
  rejId : Nat
  deriving DecidableEq, Repr

/-- CabinetState right after reset. -/
def CabinetState.reset : CabinetState where
  copies := ⟨CabCopy.reset, CabCopy.reset⟩
  used := false
  creds := ⟨[Cred.reset, Cred.reset, Cred.reset, Cred.reset], [Cred.reset, Cred.reset, Cred.reset, Cred.reset]⟩
  locked := ⟨(0, 0), (0, 0)⟩
  session := none
  sessAt := 0
  logoutReq := false
  login := none
  pwd := none
  fails := 0
  lockout := 0
  staged := []
  commit := none
  gen := 0
  head := 0
  overwrites := 0
  rejUnit := 0
  rejId := 0

/-- The triad and its voter as the logic side sees it (chapter 09). -/
structure TriadState where
  /-- exclusion mask (TRIAD_EXCLUDED, 0x0601) (09 R274). -/
  excluded : Three Bool
  /-- 0x11 raised: TRIAD_MODE 2 (09 R275). -/
  lost : Bool
  /-- consecutive votes without the core's vector (02 R45). -/
  missRun : Three Nat
  /-- consecutive votes in which the vector differed while the other two agreed (09 R273). -/
  diffRun : Three Nat
  /-- DISAGREE_A to DISAGREE_C, saturating (09 R298). -/
  disagree : Three Nat
  /-- frame of the last 0x15 event and ring record of the core (09 R273). -/
  lastDisEvt : Three (Option Nat)
  /-- exclusion proposed by both other cores (09 R273). -/
  propose : Three Bool
  /-- the core has stopped latching vectors (03 R78). -/
  stopVec : Three Bool
  /-- core and fault code of the cause of each exclusion (09 R273). -/
  causes : List (Nat × Nat)
  /-- exclusion mask as the cores read it at the last freeze (09 R274). -/
  maskRead : Three Bool
  /-- header words as the cores latched them (10 R304). -/
  hdr : Three Nat
  /-- core and frame of every exclusion within 24 h, and of the three that bar a core until loss of VIN (09 R278). -/
  exclTimes : List (Nat × Nat)
  /-- DUPLEX_LEFT (0x0604, in whole seconds) (09 R277). -/
  duplexLeft : Nat
  /-- READMIT_COUNT (0x0609), saturating (09 R298). -/
  readmits : Nat
  /-- consecutive gates within 2 % of each SAFE clock (09 R278). -/
  clkRun : Three Nat
  /-- core under test or rejoin (PROOF_STATE, 0x0612) (09 R298). -/
  proof : Option CoreId
  /-- frame k of acceptance (09 R280). -/
  proofAt : Nat
  /-- tag of the PROOF_TEST, if the host gave it (14 R455). -/
  proofTag : Option Nat
  /-- the core is out (test); false during the rejoin (09 R280). -/
  proofOut : Bool
  /-- the core under test has failed one of its tests (09 R279). -/
  proofBad : Bool
  /-- frame of the end of the test (09 R281). -/
  rejoinAt : Nat
  /-- consecutive REJOIN vectors equal to the voted result (09 R281). -/
  rejoinRun : Nat
  /-- the test is part of a re-admission (09 R278). -/
  readmit : Bool
  /-- PROOF_LAST_A to PROOF_LAST_C (09 R298). -/
  proofLast : Three Nat
  /-- vector of this frame latched after the deadline (02 R42). -/
  late : Three Bool
  /-- the core delivers neither header nor vector in this frame (09 R273). -/
  dead : Three Bool
  /-- the core has booted (16 R498). -/
  mails : Three Bool
  deriving DecidableEq, Repr

/-- TriadState right after reset. -/
def TriadState.reset : TriadState where
  excluded := ⟨false, false, false⟩
  lost := false
  missRun := ⟨0, 0, 0⟩
  diffRun := ⟨0, 0, 0⟩
  disagree := ⟨0, 0, 0⟩
  lastDisEvt := ⟨none, none, none⟩
  propose := ⟨false, false, false⟩
  stopVec := ⟨false, false, false⟩
  causes := []
  maskRead := ⟨false, false, false⟩
  hdr := ⟨0, 0, 0⟩
  exclTimes := []
  duplexLeft := 0
  readmits := 0
  clkRun := ⟨0, 0, 0⟩
  proof := none
  proofAt := 0
  proofTag := none
  proofOut := false
  proofBad := false
  rejoinAt := 0
  rejoinRun := 0
  readmit := false
  proofLast := ⟨0, 0, 0⟩
  late := ⟨false, false, false⟩
  dead := ⟨false, false, false⟩
  mails := ⟨false, false, false⟩

/-- One application processor (R283). -/
structure ApState where
  /-- PAIR_ROLE (09 R283). -/
  role : Nat
  /-- it has lost the tether and is reset at 210 us (09 R292). -/
  resetDue : Bool
  /-- held in reset until this frame (09 R292). -/
  resetUntil : Option Nat
  /-- has once been STANDBY (09 R287). -/
  everStandby : Bool
  /-- consecutive clean frames after a snapshot (09 R287). -/
  cleanRun : Nat
  /-- complete snapshot received (09 R287). -/
  gotSnapshot : Bool
  /-- frames of tether losses within 24 h (09 R292). -/
  losses : List Nat
  /-- PAIR_COMPAT (09 R298). -/
  compat : Nat
  /-- integrity fault of the processor (09 R288). -/
  integrity : Bool
  /-- boot ROM verified the image (16 R496). -/
  booted : Bool
  deriving DecidableEq, Repr

/-- ApState right after reset. -/
def ApState.reset : ApState where
  role := 0
  resetDue := false
  resetUntil := none
  everStandby := false
  cleanRun := 0
  gotSnapshot := false
  losses := []
  compat := 0
  integrity := false
  booted := false

/-- The application pair and the tether (chapter 09). -/
structure PairPState where
  /-- AP-1, AP-2 (09 R283). -/
  aps : Two ApState
  /-- TETHER_HOLDER (0x0622) (09 R298). -/
  holder : Option Ab
  /-- the processor that the cores keep selecting (09 R284). -/
  choice : Option Ab
  /-- the selection each core has written in this frame (09 R284). -/
  sel : Three (Option Ab)
  /-- output and state digest that AP-1 and AP-2 have written for the frame before (09 R285). -/
  digests : Two (Nat × Nat)
  /-- armed successor (09 R284). -/
  armed : Option Ab
  /-- tether pass ordered: receiver and trigger (0 command, else fault code) (09 R288). -/
  passTo : Option (Ab × Nat)
  /-- consecutive frames with the holder's setpoints missing (09 R288). -/
  missRun : Nat
  /-- consecutive frames without a holder (09 R290). -/
  noHolder : Nat
  /-- last frame that complete deltas cover (09 R286). -/
  copyFrame : Nat
  /-- the delta chain is unbroken (09 R286). -/
  deltaOk : Bool
  /-- frames since the chain stopped (09 R287). -/
  deltaGap : Nat
  /-- frame of the snapshot being filled (09 R286). -/
  snapFor : Option Nat
  /-- chunks written (09 R286). -/
  snapChunks : Nat
  /-- snapshot and copy state equal (as the digests show) (09 R286). -/
  snapEq : Bool
  /-- SNAPSHOT_FRAME (0x0628) (09 R298). -/
  snapFrame : Nat
  /-- consecutive compared frames with different digests (09 R288). -/
  diffRun : Nat
  /-- SHADOW_MISMATCH (0x0627), saturating (09 R298). -/
  mismatch : Nat
  /-- SWITCH_COUNT (0x0624), saturating (09 R298). -/
  switches : Nat
  /-- BALLAST_FRAMES (0x0625), saturating (09 R298). -/
  ballast : Nat
  /-- LAST_TAKEOVER_AGE (0x0626) (09 R298). -/
  age : Nat
  /-- a new holder has to take over (09 R289). -/
  takeover : Bool
  /-- the new holder has not computed its first frame yet (09 R289). -/
  fresh : Bool
  /-- the call table of the copy state (09 R286, R289). -/
  copyCalls : List CallRec
  /-- a processor has shown an integrity fault, 0x3A or an overrun since digests differ (09 R288). -/
  marks : Two Bool
  /-- TETH_MON (09 R284). -/
  tethMon : Bool
  /-- last frame a holder delivered (09 R289). -/
  lastDelivered : Nat
  /-- end of the 64-frame period in progress (09 R293). -/
  dualUntil : Option Nat
  /-- start-up period of dual transmission (09 R293). -/
  dualStart : Bool
  /-- frames the standby has been STANDBY (09 R293). -/
  standbyRun : Nat
  /-- snapshot retained for PARK (15 R487). -/
  retained : Bool
  deriving DecidableEq, Repr

/-- PairPState right after reset. -/
def PairPState.reset : PairPState where
  aps := ⟨ApState.reset, ApState.reset⟩
  holder := none
  choice := none
  sel := ⟨none, none, none⟩
  digests := ⟨(0, 0), (0, 0)⟩
  armed := none
  passTo := none
  missRun := 0
  noHolder := 0
  copyFrame := 0
  deltaOk := true
  deltaGap := 0
  snapFor := none
  snapChunks := 0
  snapEq := true
  snapFrame := 0
  diffRun := 0
  mismatch := 0
  switches := 0
  ballast := 0
  age := 0
  takeover := false
  fresh := false
  copyCalls := []
  marks := ⟨false, false⟩
  tethMon := false
  lastDelivered := 0
  dualUntil := none
  dualStart := false
  standbyRun := 0
  retained := false

/-- A field supply domain (R312). -/
structure DomainRec where
  /-- DOMAIN_STATE (10 R336). -/
  state : Nat
  /-- VF (10 R336). -/
  vf : Nat
  /-- two samples taken since the field controller's reset (10 R312). -/
  sampled : Bool
  /-- supply faults whose condition holds in this domain (10 R337). -/
  codes : List Nat
  /-- link tick up to which the wire-break counts were held at zero (10 R320). -/
  heldTo : Nat
  /-- frame since which the supply has stayed from 19.2 V to 33.0 V (10 R313). -/
  okSince : Option Nat
  deriving DecidableEq, Repr

/-- DomainRec right after reset. -/
def DomainRec.reset : DomainRec where
  state := 3
  vf := 0
  sampled := false
  codes := []
  heldTo := 0
  okSince := none

/-- The test pulse of this frame (R328, R329). -/
structure PulseRun where
  /-- channel pulsed (10 R328). -/
  ch : Nat
  /-- switched off during the pulse (10 R330). -/
  discarded : Bool
  /-- inputs on at its start (10 R321). -/
  ins : Nat
  /-- drivers on at its start (10 R329). -/
  drv : Nat
  deriving DecidableEq, Repr

/-- PulseRun right after reset. -/
def PulseRun.reset : PulseRun where
  ch := 0
  discarded := false
  ins := 0
  drv := 0

/-- A channel configuration record sent and not yet applied (R303). -/
structure CfgRecord where
  /-- channel (10 R303). -/
  ch : Nat
  /-- packed attributes (10 R303). -/
  bits : Nat
  deriving DecidableEq, Repr

/-- CfgRecord right after reset. -/
def CfgRecord.reset : CfgRecord where
  ch := 0
  bits := 0

/-- The field controller and its channels (chapter 10). -/
structure FieldState where
  /-- field image verified and running (16 R496). -/
  booted : Bool
  /-- frame count as the field controller counts it (10 R307). -/
  frame : Nat
  /-- link tick of the last valid down-frame (10 R311). -/
  lastValid : Nat
  /-- link timeout in force (10 R311). -/
  timeout : Bool
  /-- consecutive valid down-frames since (10 R311). -/
  recover : Nat
  /-- a SYNC among them (10 R311). -/
  sawSync : Bool
  /-- it has voted since its last reset (18 R537). -/
  votedOnce : Bool
  /-- configuration in force per channel (10 R303). -/
  cfg : List CfgRecord
  /-- records received, applied at the next SYNC (10 R303). -/
  cfgNext : List CfgRecord
  /-- debounced states (10 R319). -/
  inBits : Nat
  /-- readbacks (10 R325). -/
  rb : Nat
  /-- drivers on (10 R327). -/
  driver : Nat
  /-- bits decided by the last vote (10 R306). -/
  decided : Nat
  /-- headers taken for this vote (10 R306). -/
  hdrs : Three (Option Nat)
  /-- a HEADER frame has passed in this frame (10 R306). -/
  hdrDone : Bool
  /-- the vote of this frame has been taken (10 R306). -/
  voteDone : Bool
  /-- frame count of the last vote (10 R308). -/
  voteFrame : Nat
  /-- VOTE_SOURCE (0x078B) (10 R336). -/
  voteSrc : Nat
  /-- vectors valid in the last vote (10 R308). -/
  validVecs : Nat
  /-- exclusion mask of the voter (10 R308). -/
  exclMask : Three Bool
  /-- UNDEF per channel (10 R335). -/
  undef : Nat
  /-- WIRE_BREAK per channel (10 R335). -/
  wire : Nat
  /-- LIMIT per channel (10 R335). -/
  limit : Nat
  /-- OVERTEMP per channel (10 R335). -/
  overtemp : Nat
  /-- SHORT_SUPPLY per channel (10 R335). -/
  short : Nat
  /-- CROSS per channel (10 R335). -/
  cross : Nat
  /-- PULSE_FAIL per channel (10 R335). -/
  pulseFail : Nat
  /-- BENCH per channel (10 R335). -/
  bench : Nat
  /-- CH_BENCH_VALUE per channel (10 R334). -/
  benchVal : Nat
  /-- RETRY_WAIT per channel (10 R335). -/
  retry : Nat
  /-- switched off until a vote or command has de-energised it (10 R323). -/
  blocked : Nat
  /-- OFF after UNIT_DISABLE (10 R333). -/
  unitOff : Nat
  /-- frame in which a retry is due (10 R323). -/
  retryAt : List (Nat × Nat)
  /-- CH_RETRIES_LEFT per channel that has used one (10 R334). -/
  retries : List (Nat × Nat)
  /-- CH_CURRENT per channel (10 R334). -/
  current : List (Nat × Nat)
  /-- CH_TEMP per channel (10 R334). -/
  temp : List (Nat × Int)
  /-- CH_OPS per channel, saturating (10 R334). -/
  ops : List (Nat × Nat)
  /-- CH_TRANSITIONS per channel, saturating (10 R334). -/
  trans : List (Nat × Nat)
  /-- CH_LAST_TP per channel (10 R334). -/
  lastTp : List (Nat × Nat)
  /-- channels whose last pulse was discarded (10 R328). -/
  reserve : Nat
  /-- channel that this frame's SYNC names for a pulse (10 R328). -/
  named : Option Nat
  /-- pulse in progress (10 R328). -/
  pulse : Option PulseRun
  /-- channel and result reported at link tick 34 (10 R308). -/
  tpResult : Option (Nat × Nat)
  /-- cross-connected partner reported (10 R308). -/
  xcPartner : Option Nat
  /-- domains A and B (10 R312). -/
  domains : Two DomainRec
  /-- channel groups switched off (10 R324). -/
  groupsOff : Nat
  /-- GROUP_CURRENT_0 to GROUP_CURRENT_7 (10 R336). -/
  groupCur : List (Nat × Nat)
  /-- FIELD_POWER (0x0789) (10 R336). -/
  fallback : Bool
  /-- FIELD_TEMP (0x078A) (10 R336). -/
  die : Int
  /-- faults found by the field controller and not yet taken by the cores: unit, code, class + 1 (0 for an end) (10 R311). -/
  reports : List (Nat × Nat × Nat)
  /-- frame since which an output that had been limited runs again (10 R323). -/
  ranFrom : List (Nat × Nat)
  /-- LINK_TIMEOUT as the field controller holds it (10 R311). -/
  tmo : Nat
  /-- LINK_TIMEOUT received, applied at the next SYNC (10 R303). -/
  tmoNext : Option Nat
  /-- re-arm targets received, applied at the next SYNC (10 R303). -/
  armNext : List Nat
  /-- bench records received, applied at the next SYNC: channel, on, value (10 R303). -/
  benchNext : List (Nat × Bool × Bool)
  /-- link tick since which a channel marked SHORT_SUPPLY has had its driver off and RB clear (10 R325). -/
  clearAt : List (Nat × Nat)
  deriving DecidableEq, Repr

/-- FieldState right after reset. -/
def FieldState.reset : FieldState where
  booted := false
  frame := 0
  lastValid := 0
  timeout := false
  recover := 0
  sawSync := false
  votedOnce := false
  cfg := []
  cfgNext := []
  inBits := 0
  rb := 0
  driver := 0
  decided := 0
  hdrs := ⟨none, none, none⟩
  hdrDone := false
  voteDone := false
  voteFrame := 0
  voteSrc := 2
  validVecs := 0
  exclMask := ⟨false, false, false⟩
  undef := 0
  wire := 0
  limit := 0
  overtemp := 0
  short := 0
  cross := 0
  pulseFail := 0
  bench := 0
  benchVal := 0
  retry := 0
  blocked := 0
  unitOff := 0
  retryAt := []
  retries := []
  current := []
  temp := []
  ops := []
  trans := []
  lastTp := []
  reserve := 0
  named := none
  pulse := none
  tpResult := none
  xcPartner := none
  domains := ⟨DomainRec.reset, DomainRec.reset⟩
  groupsOff := 0
  groupCur := []
  fallback := true
  die := 0
  reports := []
  ranFrom := []
  tmo := 1000
  tmoNext := none
  armNext := []
  benchNext := []
  clearAt := []

/-- A channel transition seen by the link receivers (R200). -/
structure Trans where
  /-- channel (07 R200). -/
  ch : Nat
  /-- new level (07 R200). -/
  on : Bool
  /-- link-tick index (07 R200). -/
  lt : Nat
  deriving DecidableEq, Repr

/-- Trans right after reset. -/
def Trans.reset : Trans where
  ch := 0
  on := false
  lt := 0

/-- A bench that is set (R331, R332). -/
structure BenchRec where
  /-- channel (10 R331). -/
  ch : Nat
  /-- bench value (10 R331). -/
  val : Bool
  /-- slot of the session that set it (10 R332). -/
  slot : Nat
  /-- frame of the last command on it (10 R331). -/
  atF : Nat
  /-- the last order: on, or off (10 R331). -/
  on : Bool
  /-- that order is still to be applied (10 R331, R332). -/
  due : Bool
  deriving DecidableEq, Repr

/-- BenchRec right after reset. -/
def BenchRec.reset : BenchRec where
  ch := 0
  val := false
  slot := 0
  atF := 0
  on := false
  due := false

/-- The logic side of the isolation link (chapter 10). -/
structure LinkState where
  /-- link tick in progress (10 R300). -/
  lt : Nat
  /-- link-tick index of the newest valid up-frame (10 R309). -/
  upAt : Option Nat
  /-- consecutive valid up-frames (10 R338). -/
  upGood : Nat
  /-- consecutive valid down-frames (10 R338). -/
  dnGood : Nat
  /-- IN of the newest valid up-frame (10 R307). -/
  upIn : Nat
  /-- RB of the newest valid up-frame (10 R307). -/
  upRb : Nat
  /-- inputs taken at the last freeze (02 R41). -/
  frIn : Nat
  /-- readbacks taken at the last freeze (02 R41). -/
  frRb : Nat
  /-- link-tick index of the freeze (07 R201). -/
  frLt : Nat
  /-- inputs missing in this frame (02 R48). -/
  missing : Bool
  /-- transitions since the last freeze, oldest first (07 R200). -/
  trans : List Trans
  /-- transitions covered by the last freeze (07 R200). -/
  frTrans : List Trans
  /-- LINK_UP_ERR (0x0783), saturating (10 R336). -/
  upErr : Nat
  /-- LINK_DN_ERR (0x0782), saturating (10 R336). -/
  dnErr : Nat
  /-- link ticks of the newest up-frames lost, oldest first (10 R309). -/
  upLost : List Nat
  /-- link ticks of the newest down-frames lost, oldest first (10 R309). -/
  dnLost : List Nat
  /-- bits [9:2] of CH_STATUS per channel group as last received (10 R308, R335). -/
  stat : List Nat
  /-- diagnostic field of link tick 32 as last received (10 R308, R336). -/
  sup : Nat
  /-- diagnostic field of link tick 33 as last received (10 R308, R336). -/
  cur : Nat
  /-- diagnostic field of link ticks 35 to 39 as last received (10 R308, R336; 09 R274). -/
  voter : Nat
  /-- LINK_TIMEOUTS (0x0784), saturating (10 R336). -/
  timeouts : Nat
  /-- consecutive frames with different digests (10 R310). -/
  digBad : Nat
  /-- consecutive frames with equal digests (10 R338). -/
  digOk : Nat
  /-- configuration digest last reported (10 R308). -/
  fieldDigest : Nat
  /-- commands of OUT_HS and OUT_PULSE channels (14 R461). -/
  cmd : Nat
  /-- CH_WRITE taken at the next freeze: mask, values (14 R461). -/
  cmdNext : Option (Nat × Nat)
  /-- channels whose configuration is still to be sent (10 R303). -/
  cfgQueue : List Nat
  /-- benches (10 R331). -/
  benches : List BenchRec
  /-- re-arm targets accepted, with their frame (10 R313). -/
  rearm : List (Nat × Nat)
  deriving DecidableEq, Repr

/-- LinkState right after reset. -/
def LinkState.reset : LinkState where
  lt := 0
  upAt := none
  upGood := 0
  dnGood := 0
  upIn := 0
  upRb := 0
  frIn := 0
  frRb := 0
  frLt := 0
  missing := false
  trans := []
  frTrans := []
  upErr := 0
  dnErr := 0
  upLost := []
  dnLost := []
  stat := []
  sup := 3 * 2 ^ 36 + 3 * 2 ^ 32 + 2 ^ 15
  cur := 0
  voter := 2 * 2 ^ 56
  timeouts := 0
  digBad := 0
  digOk := 0
  fieldDigest := 0
  cmd := 0
  cmdNext := none
  cfgQueue := []
  benches := []
  rearm := []

/-- A message object (R343). -/
structure ObjRec where
  /-- object number (11 R343). -/
  num : Nat
  /-- kind (11 R343). -/
  kind : Nat
  /-- extended identifier (14 R460). -/
  ext : Bool
  /-- identifier (11 R343). -/
  ident : Nat
  /-- [0] FD, [1] BRS (14 R460). -/
  fflags : Nat
  /-- data (11 R344). -/
  data : List Nat
  /-- reception timestamp (11 R344). -/
  time : Nat
  /-- data taken by the consumer (11 R344). -/
  taken : Bool
  /-- LOST (11 R344). -/
  lost : Bool
  /-- pending frame (11 R345). -/
  pend : Option (List Nat)
  /-- frame in which it was requested (11 R345). -/
  reqAt : Nat
  /-- frame in which its present data replaced those of an earlier frame (11 R345). -/
  newAt : Nat
  /-- a frame may still be on the bus that began before that replacement (11 R345). -/
  older : Bool
  /-- copies of the pending frame still to send under dual transmission (11 R376). -/
  copies : Nat
  /-- frame requested while a cancelled one is still being sent (11 R354). -/
  queued : Option (List Nat)
  /-- consecutive attempts ended in a clash (11 R357). -/
  clash : Nat
  /-- consecutive unacknowledged attempts (11 R358). -/
  noAck : Nat
  /-- suspended by a clash (11 R357). -/
  susp : Bool
  /-- cancelled too late: not retried, an event is due (11 R354). -/
  cancelled : Bool
  /-- the pending frame has been attempted (11 R358). -/
  tried : Bool
  deriving DecidableEq, Repr

/-- ObjRec right after reset. -/
def ObjRec.reset : ObjRec where
  num := 0
  kind := 1
  ext := false
  ident := 0
  fflags := 0
  data := []
  time := 0
  taken := true
  lost := false
  pend := none
  reqAt := 0
  newAt := 0
  older := false
  copies := 1
  queued := none
  clash := 0
  noAck := 0
  susp := false
  cancelled := false
  tried := false

/-- One shaft bus port (chapter 11). -/
structure PortState where
  /-- bound objects, ascending number (11 R343). -/
  objs : List ObjRec
  /-- objects of the shaft profile that hold something, by identifier (11 R376). -/
  prof : List ObjRec
  /-- own state without faults (11 R362). -/
  own : UState
  /-- asleep (11 R359). -/
  sleep : Bool
  /-- frame since which the port waits for 11 recessive bits after a wake or a change of bit timing (11 R342 R361). -/
  wakeAt : Option Nat
  /-- TEC (0x0821) (11 R377). -/
  tecC : Nat
  /-- REC (0x0822) (11 R377). -/
  recC : Nat
  /-- bus-off (11 R356). -/
  off : Bool
  /-- recovery started (11 R356). -/
  recovering : Bool
  /-- BUS_OFF_COUNT (0x0823), saturating (11 R377). -/
  offCount : Nat
  /-- TX_OK (0x0824), saturating (11 R377). -/
  txOk : Nat
  /-- RX_OK (0x0825), saturating (11 R377). -/
  rxOk : Nat
  /-- LOST_COUNT (0x0826), saturating (11 R377). -/
  lost : Nat
  /-- CLASH_COUNT (0x0827), saturating (11 R377). -/
  clashes : Nat
  /-- TT_MISSED_COUNT (0x0828), saturating (11 R377). -/
  ttMissed : Nat
  /-- SAFETY_CRC_ERR (0x0829), saturating (11 R377). -/
  crcErr : Nat
  /-- TX_EVENT retransmission suspended (11 R358). -/
  noListener : Bool
  /-- cells claimed: cell and object (11 R346). -/
  matrix : List (Nat × Nat)
  /-- accepted matrix waiting for its tick (11 R348). -/
  matrixNext : Option (List (Nat × Nat))
  /-- frame of its acceptance (11 R348). -/
  matrixAt : Nat
  /-- time of the last time reference received (slave) (11 R352). -/
  refLast : Option Nat
  /-- consecutive references missing or mistimed (11 R352). -/
  refBad : Nat
  /-- consecutive valid references (11 R352). -/
  refGood : Nat
  /-- TX_TT objects suspended (slave lost) (11 R352). -/
  ttSusp : Bool
  /-- cycle index (slave) (11 R352). -/
  cycle : Nat
  /-- start of frame of the previous time reference sent (11 R351). -/
  prevSof : Option Nat
  /-- SEQ of the time references (11 R351). -/
  refSeq : Nat
  /-- bit timing in force (rate, SP, data rate, data SP, triple), when it differs from the parameters (11 R342). -/
  timing : Option (List Nat)
  /-- a bit-timing write waits for an idle bus (11 R342). -/
  timingPend : Bool
  /-- objects whose cell was missed and that have not been sent since (11 R349 R380). -/
  ttLate : List Nat
  /-- frame of the last transceiver fault (11 R380). -/
  trxFault : Option Nat
  /-- frame of UNIT_DISABLE (11 R362). -/
  stopAt : Nat
  /-- object whose frame was in progress when the port was put to sleep (11 R359). -/
  finishing : Option Nat
  deriving DecidableEq, Repr

/-- PortState right after reset. -/
def PortState.reset : PortState where
  objs := []
  prof := []
  own := UState.on
  sleep := false
  wakeAt := none
  tecC := 0
  recC := 0
  off := false
  recovering := false
  offCount := 0
  txOk := 0
  rxOk := 0
  lost := 0
  clashes := 0
  ttMissed := 0
  crcErr := 0
  noListener := false
  matrix := []
  matrixNext := none
  matrixAt := 0
  refLast := none
  refBad := 0
  refGood := 0
  ttSusp := false
  cycle := 0
  prevSof := none
  refSeq := 0
  timing := none
  timingPend := false
  ttLate := []
  trxFault := none
  stopAt := 0
  finishing := none

/-- A sequence counter of the profile (R294, R364). -/
structure SeqRec where
  /-- port (11 R364). -/
  port : Ab
  /-- identifier (11 R364). -/
  ident : Nat
  /-- source (received messages) (11 R294). -/
  src : Nat
  /-- a counter of the module's own messages (11 R364). -/
  tx : Bool
  /-- last SEQ (11 R364). -/
  seq : Nat
  deriving DecidableEq, Repr

/-- SeqRec right after reset. -/
def SeqRec.reset : SeqRec where
  port := Ab.a
  ident := 0
  src := 0
  tx := false
  seq := 0

/-- The ports and the Yanel shaft profile (chapter 11). -/
structure BusState where
  /-- object whose frame is in progress on each port at this tick (11 R359). -/
  onBus : Two (Option Nat)
  /-- ports A and B (11 R339). -/
  ports : Two PortState
  /-- sequence counters (11 R364). -/
  seqs : List SeqRec
  /-- LOCK_INVALID (0x088E), saturating (11 R378). -/
  lockInvalid : Nat
  /-- PANEL_REFUSED (0x088F), saturating (11 R378). -/
  panelRefused : Nat
  /-- results of the basic cycle before, still to be handed to the port (11 R369). -/
  groupQ : List GroupRes
  /-- frame in which the indications were last sent (11 R375). -/
  indAt : Nat
  /-- content of the last PANEL_IND (11 R375). -/
  indLast : List Nat
  /-- content of the last HALL_IND blocks (11 R375). -/
  hallLast : List (List Nat)
  /-- messages handed to the ports in this frame: port, identifier and data (11 R363). -/
  sent : List (Ab × Nat × List Nat)
  deriving DecidableEq, Repr

/-- BusState right after reset. -/
def BusState.reset : BusState where
  onBus := ⟨none, none⟩
  ports := ⟨PortState.reset, PortState.reset⟩
  seqs := []
  lockInvalid := 0
  panelRefused := 0
  groupQ := []
  indAt := 0
  indLast := []
  hallLast := []
  sent := []

/-- One register with its fraction (R392). -/
structure AccQ where
  /-- whole uWh, uvarh or uVAh (12 R392). -/
  whole : Nat
  /-- fraction (12 R392). -/
  frac : Nat
  deriving DecidableEq, Repr

/-- AccQ right after reset. -/
def AccQ.reset : AccQ where
  whole := 0
  frac := 0

/-- What the last ENERGY_READ of a counter returned (R395). -/
structure ReadRec where
  /-- Cp (12 R395). -/
  c : Nat
  /-- Wp (12 R395). -/
  w : Nat
  /-- FIRST (12 R395). -/
  first : Bool
  /-- RESTORED (12 R395). -/
  restored : Bool
  /-- UNIT_CHANGED (12 R395). -/
  unitChg : Bool
  deriving DecidableEq, Repr

/-- ReadRec right after reset. -/
def ReadRec.reset : ReadRec where
  c := 0
  w := 0
  first := true
  restored := false
  unitChg := false

/-- A supply event in progress (R399). -/
structure SupplyEvt where
  /-- kind (12 R399). -/
  kind : Nat
  /-- start timestamp (12 R399). -/
  start : Nat
  /-- half-cycle values so far (12 R399). -/
  count : Nat
  /-- phases that crossed (12 R401). -/
  mask : Nat
  /-- lowest (sag) or highest (swell) half-cycle value of any phase so far (12 R399). -/
  mag : Nat
  deriving DecidableEq, Repr

/-- SupplyEvt right after reset. -/
def SupplyEvt.reset : SupplyEvt where
  kind := 0
  start := 0
  count := 0
  mask := 0
  mag := 0

/-- A trip in progress (R397). -/
structure TripRec where
  /-- start timestamp (12 R397). -/
  start : Nat
  /-- start landing (12 R397). -/
  startL : Nat
  /-- PLAN_ID at the start (12 R397). -/
  plan : Nat
  /-- registers at the start: EA_IMP, EA_EXP, ER_Q1 to ER_Q4 (12 R397). -/
  base : List Nat
  /-- P_PEAK_IMP (12 R397). -/
  peakImp : Nat
  /-- P_PEAK_EXP (12 R397). -/
  peakExp : Nat
  /-- FLAGS (12 R397). -/
  flags : Nat
  deriving DecidableEq, Repr

/-- TripRec right after reset. -/
def TripRec.reset : TripRec where
  start := 0
  startL := 65535
  plan := 0
  base := [0, 0, 0, 0, 0, 0]
  peakImp := 0
  peakExp := 0
  flags := 0

/-- A calibration measurement (R408). -/
structure CalMeas where
  /-- phase (12 R408). -/
  phase : Nat
  /-- windows still to come (12 R408). -/
  left : Nat
  /-- windows taken (12 R408). -/
  n : Nat
  /-- tag (14 R455). -/
  tag : Nat
  /-- URMS of each window (12 R408). -/
  us : List Nat
  /-- IRMS of each window (12 R408). -/
  is : List Nat
  /-- P of each window (12 R408). -/
  ps : List Int
  /-- Q of each window (12 R408). -/
  qs : List Int
  /-- begun at a window boundary (12 R408). -/
  started : Bool
  deriving DecidableEq, Repr

/-- CalMeas right after reset. -/
def CalMeas.reset : CalMeas where
  phase := 1
  left := 0
  n := 0
  tag := 0
  us := []
  is := []
  ps := []
  qs := []
  started := false

/-- The meter (chapter 12). -/
structure MeterState where
  /-- own state without faults (12 R393). -/
  own : UState
  /-- frame of the last transition (12 R393). -/
  since : Nat
  /-- corrected samples, newest first (12 R389). -/
  samples : List (List Int)
  /-- EA_IMP, EA_EXP, ER_Q1 to ER_Q4, ES_IMP, ES_EXP (12 R389). -/
  acc : List AccQ
  /-- state of each counter's last read (12 R395). -/
  reads : List ReadRec
  /-- NO_ACCUM (12 R391). -/
  noAccum : Bool
  /-- OVERRANGE (12 R413). -/
  overrange : Bool
  /-- consecutive full-scale samples per channel (12 R413). -/
  fullRun : List Nat
  /-- METER_GAP_TIME (0x0946, in ms) (12 R412). -/
  gapN : Nat
  /-- last period of the reference (12 R386). -/
  period : Nat
  /-- periods ended in this 10 s window (12 R386). -/
  perN : Nat
  /-- their total duration (12 R386). -/
  perSum : Nat
  /-- consecutive valid periods (12 R413). -/
  perGood : Nat
  /-- FREQ (0x0924) (12 R412). -/
  freq : Nat
  /-- FREQ_VALID (0x0925) (12 R412). -/
  freqValid : Bool
  /-- duration of the half-cycle before (12 R386). -/
  lastHalf : Nat
  /-- time of the last zero crossing (12 R386). -/
  crossAt : Nat
  /-- that crossing was a positive-going one (12 R386). -/
  rose : Bool
  /-- half-cycles in the aggregation window (12 R387). -/
  winHalfs : Nat
  /-- a full-scale sample in the aggregation window (12 R413). -/
  winFull : Bool
  /-- URMS_HC_1 to URMS_HC_3 (12 R412). -/
  hc : List Nat
  /-- sums of the aggregation window: v2 x3, i2 x4, u2 x3, p x3, q x3, n (12 R387). -/
  winSum : List Int
  /-- values of IDs 0x0910 to 0x092E of the last window (12 R388). -/
  win : List Int
  /-- end timestamp of the last window (14 R460). -/
  winEnd : Nat
  /-- supply events in progress (12 R399). -/
  events : List SupplyEvt
  /-- SAG, SWELL and INTR tables, saturating (12 R401). -/
  tables : List Nat
  /-- trip in progress (12 R397). -/
  trip : Option TripRec
  /-- TRIP_EA_IMP, TRIP_EA_EXP, TRIP_DURATION (12 R412). -/
  tripEa : Nat × Nat × Nat
  /-- start of the hour in progress (12 R398). -/
  hourFrom : Nat
  /-- EA_IMP and EA_EXP at its start (12 R398). -/
  hourBase : List Nat
  /-- energy of that hour accrued within trips (12 R398). -/
  hourRun : List Nat
  /-- CAL_STATE (0x0950) (12 R412). -/
  calState : Nat
  /-- calibration measurement (12 R408). -/
  meas : Option CalMeas
  /-- last completed measurement, not yet applied (12 R409). -/
  calRes : Option CalMeas
  /-- CAL_GAIN_0 to CAL_GAIN_6 (12 R412). -/
  gains : List Int
  /-- CAL_PHASE_1 to CAL_PHASE_3 (12 R412). -/
  phases : List Int
  /-- coefficients accepted, in force from the next window (12 R409). -/
  calNext : Option (List Int × List Int)
  /-- tag of the APPLY whose coefficients wait (14 R455). -/
  calTag : Nat
  /-- CAL_OFFSET_0 to CAL_OFFSET_6 (12 R412). -/
  offsets : List Int
  /-- save sequence number (12 R403). -/
  setSeq : Nat
  /-- RESTORED flag of METER_FLAGS (12 R412). -/
  restored : Bool
  /-- LAST_SAVE_TIME (0x0941) (12 R412). -/
  lastSave : Nat
  /-- METER_LOST_TIME (0x0942) (12 R412). -/
  lostTime : Nat
  /-- configuration writes for the next window boundary (12 R412). -/
  cfgNext : List ParamCell
  deriving DecidableEq, Repr

/-- MeterState right after reset. -/
def MeterState.reset : MeterState where
  own := UState.starting
  since := 0
  samples := []
  acc := List.replicate 8 AccQ.reset
  reads := List.replicate 8 ReadRec.reset
  noAccum := false
  overrange := false
  fullRun := [0, 0, 0, 0, 0, 0, 0]
  gapN := 0
  period := 0
  perN := 0
  perSum := 0
  perGood := 0
  freq := 0
  freqValid := false
  lastHalf := 0
  crossAt := 0
  rose := false
  winHalfs := 0
  winFull := false
  hc := [0, 0, 0]
  winSum := List.replicate 17 0
  win := List.replicate 27 0 ++ [1, 0, 0, 0]
  winEnd := 0
  events := []
  tables := List.replicate 48 0
  trip := none
  tripEa := (0, 0, 0)
  hourFrom := 0
  hourBase := [0, 0]
  hourRun := [0, 0]
  calState := 0
  meas := none
  calRes := none
  gains := [0, 0, 0, 0, 0, 0, 0]
  phases := [0, 0, 0]
  calNext := none
  calTag := 0
  offsets := [0, 0, 0, 0, 0, 0, 0]
  setSeq := 0
  restored := false
  lastSave := 0
  lostTime := 0
  cfgNext := []

/-- A histogram (R420). -/
structure HistRec where
  /-- bins, saturating (13 R420). -/
  bins : List Nat
  /-- TOTAL, saturating (13 R420). -/
  total : Nat
  deriving DecidableEq, Repr

/-- HistRec right after reset. -/
def HistRec.reset : HistRec where
  bins := List.replicate 32 0
  total := 0

/-- An extreme item (R421). -/
structure ExtRec where
  /-- EXT_ID (13 R419). -/
  id : Nat
  /-- MIN (13 R421). -/
  min : Int
  /-- MAX (13 R421). -/
  max : Int
  /-- T_MIN (13 R421). -/
  tMin : Nat
  /-- T_MAX (13 R421). -/
  tMax : Nat
  deriving DecidableEq, Repr

/-- ExtRec right after reset. -/
def ExtRec.reset : ExtRec where
  id := 0
  min := 2147483647
  max := -2147483648
  tMin := 0
  tMax := 0

/-- A ring of a drawer (R425, R426). -/
structure RingRec where
  /-- head (13 R426). -/
  head : Nat
  /-- entries written, saturating (13 R426). -/
  written : Nat
  /-- entries dropped, saturating (13 R426). -/
  dropped : Nat
  deriving DecidableEq, Repr

/-- RingRec right after reset. -/
def RingRec.reset : RingRec where
  head := 0
  written := 0
  dropped := 0

/-- The SRAM state of one drawer (R418, R426). -/
structure DrawerState where
  /-- generation (13 R427). -/
  gen : Nat
  /-- CLEAR_COUNT (13 R426). -/
  clears : Nat
  /-- LAST_CLEAR_WALL (13 R426). -/
  clearWall : Nat
  /-- LAST_CLEAR_BOOT (13 R426). -/
  clearBoot : Nat
  /-- histograms, by HIST_ID (13 R420). -/
  hists : List HistRec
  /-- extremes seen, ascending EXT_ID (13 R421). -/
  exts : List ExtRec
  /-- counts that are not zero: array, index, value, ascending (13 R422). -/
  counts : List (Nat × Nat × Nat)
  /-- first ring (13 R425). -/
  ring : RingRec
  /-- second ring (drawer 6) (13 R425). -/
  ring2 : RingRec
  /-- fixed records changed since the last flush (13 R427). -/
  dirty : List Nat
  /-- 1 clear accepted, 2 emptied and waiting for its flush (13 R434). -/
  clearing : Nat
  /-- tag of that DRAWER_CLEAR (14 R455). -/
  clearTag : Nat
  deriving DecidableEq, Repr

/-- DrawerState right after reset. -/
def DrawerState.reset : DrawerState where
  gen := 0
  clears := 0
  clearWall := 0
  clearBoot := 0
  hists := []
  exts := []
  counts := []
  ring := RingRec.reset
  ring2 := RingRec.reset
  dirty := []
  clearing := 0
  clearTag := 0

/-- A ring entry awaiting the flush (R428). -/
structure RingEntry where
  /-- drawer (13 R428). -/
  drawer : Nat
  /-- second ring (13 R425). -/
  second : Bool
  /-- its record (13 R423). -/
  payload : List Nat
  deriving DecidableEq, Repr

/-- RingEntry right after reset. -/
def RingEntry.reset : RingEntry where
  drawer := 0
  second := false
  payload := []

/-- A WINDOW_READ in progress (R432). -/
structure WinRun where
  /-- tag (13 R432). -/
  tag : Nat
  /-- attempts made (13 R432). -/
  attempts : Nat
  /-- serving frame (13 R432). -/
  atF : Nat
  /-- records whose CRC failed in an earlier attempt (13 R432). -/
  badIdx : List Nat
  deriving DecidableEq, Repr

/-- WinRun right after reset. -/
def WinRun.reset : WinRun where
  tag := 0
  attempts := 0
  atF := 0
  badIdx := []

/-- The event recorder and the store (chapter 13). -/
structure RecorderState where
  /-- own state without faults (13 R437). -/
  own : UState
  /-- drawers (13 R418). -/
  drawers : List DrawerState
  /-- ring entries held (13 R428). -/
  queue : List RingEntry
  /-- RECORD_SEQ (0x0A40), wrapping (13 R438). -/
  seq : Nat
  /-- QUEUE_DROPPED (0x0A42), saturating (13 R438). -/
  qDropped : Nat
  /-- FLUSH_COUNT (0x0A43), saturating (13 R438). -/
  flushes : Nat
  /-- LAST_FLUSH_TIME (0x0A44) (13 R438). -/
  lastFlush : Nat
  /-- next word of the pass (SCRUB_PROGRESS, 0x0A45, follows from it) (13 R438). -/
  scrubPos : Nat
  /-- SCRUB_CORRECTED (0x0A46), saturating (13 R438). -/
  scrubFix : Nat
  /-- SCRUB_UNCORRECTABLE (0x0A47), saturating (13 R438). -/
  scrubBad : Nat
  /-- SCRUB_LAST_BAD_ADDR (0x0A48) (13 R438). -/
  scrubAddr : Nat
  /-- frame in which the scrub pass in progress began (13 R436 15 R484). -/
  passFrom : Nat
  /-- a double-bit error in this pass (13 R439). -/
  passBad : Bool
  /-- RECORDS_LOST_AT_START (0x0A49) (13 R438). -/
  lostAtStart : Nat
  /-- cursor: drawer (13 R431). -/
  curDrawer : Nat
  /-- cursor: index (13 R431). -/
  curIndex : Nat
  /-- window read in progress (13 R432). -/
  win : Option WinRun
  /-- frame since which the queue is below 128 (13 R439). -/
  qLowSince : Option Nat
  /-- consecutive verified writes (13 R439). -/
  okWrites : Nat
  /-- final flush made (13 R429). -/
  frozen : Bool
  /-- records found corrupt and not written since (0xD1) (13 R439). -/
  corrupt : List Nat
  /-- drawers of the last flush with the start and end of their writing (13 R427). -/
  flushing : List (Nat × Nat × Nat)
  /-- frame of the last sample of drawers 11 to 14 (13 R422). -/
  userAt : List Nat
  /-- start of the stroke timed for each side (13 R422). -/
  doorT0 : Two (Option Nat)
  /-- a side has begun opening at this stop (13 R422). -/
  lastOpening : Bool
  deriving DecidableEq, Repr

/-- RecorderState right after reset. -/
def RecorderState.reset : RecorderState where
  own := UState.on
  drawers := List.replicate 16 DrawerState.reset
  queue := []
  seq := 0
  qDropped := 0
  flushes := 0
  lastFlush := 0
  scrubPos := 0
  scrubFix := 0
  scrubBad := 0
  scrubAddr := 0
  passFrom := 0
  passBad := false
  lostAtStart := 0
  curDrawer := 0
  curIndex := 0
  win := none
  qLowSince := none
  okWrites := 0
  frozen := false
  corrupt := []
  flushing := []
  userAt := [0, 0, 0, 0]
  doorT0 := ⟨none, none⟩
  lastOpening := false

/-- A host event (R466). -/
structure EvtRec where
  /-- EVSEQ (14 R466). -/
  seq : Nat
  /-- KIND (14 R466). -/
  kind : Nat
  /-- DETAIL (14 R466). -/
  detail : Nat
  /-- UNIT (14 R466). -/
  unit : Nat
  /-- CODE (14 R466). -/
  code : Nat
  /-- DATA (14 R466). -/
  data : Nat
  /-- TIME (14 R466). -/
  time : Nat
  deriving DecidableEq, Repr

/-- EvtRec right after reset. -/
def EvtRec.reset : EvtRec where
  seq := 0
  kind := 0
  detail := 0
  unit := 0
  code := 0
  data := 0
  time := 0

/-- A reply (R449). -/
structure Reply where
  /-- OPCODE (14 R449). -/
  opcode : Nat
  /-- TAG (14 R449). -/
  tag : Nat
  /-- STATUS (14 R449). -/
  status : Nat
  /-- RFLAGS (14 R449). -/
  rflags : Nat
  /-- EVT_PENDING (14 R449). -/
  evt : Nat
  /-- PAYLOAD (14 R449). -/
  payload : List Nat
  deriving DecidableEq, Repr

/-- Reply right after reset. -/
def Reply.reset : Reply where
  opcode := 0
  tag := 0
  status := 0
  rflags := 0
  evt := 0
  payload := []

/-- A packet taken and not yet served (R448). -/
structure Packet where
  /-- OPCODE (14 R448). -/
  opcode : Nat
  /-- TAG (14 R448). -/
  tag : Nat
  /-- PAYLOAD (14 R448). -/
  payload : List Nat
  deriving DecidableEq, Repr

/-- Packet right after reset. -/
def Packet.reset : Packet where
  opcode := 0
  tag := 0
  payload := []

/-- The host port (chapter 14). -/
structure HostState where
  /-- HBSY (14 R442). -/
  hbsy : Bool
  /-- the port serves commands (14 R454). -/
  serving : Bool
  /-- held reply (14 R445). -/
  held : Option Reply
  /-- reply being prepared (14 R453). -/
  prep : Option Reply
  /-- frame in which it was served (14 R453). -/
  prepAt : Nat
  /-- the reply is ready only in the frame after (14 R453). -/
  prepLate : Bool
  /-- packet taken, to be served in the next frame (14 R453). -/
  taken : Option Packet
  /-- frame of its CS_N rise (14 R453). -/
  takenAt : Nat
  /-- a held reply was discarded (14 R445). -/
  prevLost : Bool
  /-- the transaction in progress has stalled (14 R452). -/
  stalled : Bool
  /-- opcode and tag received before the stall (14 R449). -/
  stallHdr : Nat × Nat
  /-- HOST_PACKETS (0x0D10), saturating (14 R471). -/
  packets : Nat
  /-- HOST_BAD_CRC (0x0D11), saturating (14 R471). -/
  badCrc : Nat
  /-- HOST_TRUNCATED (0x0D12), saturating (14 R471). -/
  truncated : Nat
  /-- HOST_STALLS (0x0D13), saturating (14 R471). -/
  stalls : Nat
  /-- HOST_IGNORED (0x0D14), saturating (14 R471). -/
  ignored : Nat
  /-- HOST_REPLY_LOST (0x0D15), saturating (14 R471). -/
  replyLost : Nat
  /-- event queue, oldest first (14 R465). -/
  queue : List EvtRec
  /-- events posted in this frame, oldest first (14 R465). -/
  posted : List EvtRec
  /-- EVSEQ of the last event (14 R465). -/
  evSeq : Nat
  /-- EVT_DROPPED (0x0D17), saturating (14 R471). -/
  dropped : Nat
  /-- KEEPALIVE_LEFT (0x0D18, in ms) (14 R471). -/
  keepLeft : Nat
  /-- the keep-alive timer runs (14 R470). -/
  keepOn : Bool
  /-- frames of the packets answered 0x10 or 0x14 in the last second (14 R472). -/
  badTimes : List Nat
  /-- opcode, tag and status of a packet that failed its checks, to be answered in the next frame (14 R451). -/
  refused : Option (Nat × Nat × Nat)
  /-- consecutive replies released without ECC failure (14 R472). -/
  okReplies : Nat
  /-- RESET MODULE accepted in this frame (14 R462). -/
  resetReq : Option Nat
  /-- its reply has been delivered (14 R462). -/
  resetGo : Bool
  /-- first byte sent in the last transaction (14 R444). -/
  miso : Nat
  /-- events whose UART lines are sent in this frame (18 R535). -/
  uart : List EvtRec
  deriving DecidableEq, Repr

/-- HostState right after reset. -/
def HostState.reset : HostState where
  hbsy := true
  serving := false
  held := none
  prep := none
  prepAt := 0
  prepLate := false
  taken := none
  takenAt := 0
  prevLost := false
  stalled := false
  stallHdr := (255, 0)
  packets := 0
  badCrc := 0
  truncated := 0
  stalls := 0
  ignored := 0
  replyLost := 0
  queue := []
  posted := []
  evSeq := 0
  dropped := 0
  keepLeft := 0
  keepOn := false
  badTimes := []
  refused := none
  okReplies := 0
  resetReq := none
  resetGo := false
  miso := 0
  uart := []

/-- Power entry and sleep controller (chapter 15). -/
structure PowerState where
  /-- converters on (15 R474). -/
  on : Bool
  /-- a state save has started (15 R475). -/
  save : Option Nat
  /-- that save has completed (15 R475). -/
  saveDone : Bool
  /-- its cause (15 R475). -/
  saveKind : Nat
  /-- timestamp of the warning (15 R478). -/
  warnAt : Nat
  /-- VIN (0x0B11) (15 R489). -/
  vin : Nat
  /-- VIN_MIN (0x0B12) (15 R489). -/
  vinMin : Nat
  /-- VIN_MAX (0x0B13) (15 R489). -/
  vinMax : Nat
  /-- VIN sampled since start (15 R489). -/
  vinSeen : Bool
  /-- lowest VIN during the save (15 R478). -/
  saveMin : Nat
  /-- INPUT_POWER (0x0B14) (15 R489). -/
  power : Nat
  /-- LOGIC_TEMP (0x0B15) (15 R489). -/
  temp : Int
  /-- POWER_STATE (0x0B10) (15 R489). -/
  state : Nat
  /-- frame of the last change of POWER_STATE (15 R484). -/
  stateAt : Nat
  /-- frame from which the safety frame of DOZE or PARK holds (15 R486). -/
  slowFrom : Option Nat
  /-- frame from which frames of 250 us hold again after a wake (15 R486). -/
  fastFrom : Option Nat
  /-- NEXT_EVENT (0x0B16) (15 R489). -/
  nextEvt : Nat
  /-- LAST_WAKE_SOURCE (0x0B17) (15 R489). -/
  wakeSrc : Nat
  /-- a wake is under way: frame in which RUN begins (15 R482 R485). -/
  waking : Option Nat
  /-- LAST_SAVE_DURATION (0x0B18) (15 R489). -/
  saveDur : Nat
  /-- LAST_SAVE_VIN (0x0B19) (15 R489). -/
  saveVin : Nat
  /-- HOLDUP_SHORT_COUNT (0x0B1A), saturating (15 R489). -/
  holdupShort : Nat
  /-- TIME_RUN to TIME_PARK (0x0B1B to 0x0B1E, in s) (15 R489). -/
  times : List Nat
  /-- frame since which the conditions of DOZE and PARK hold (15 R483). -/
  idleSince : Option Nat
  /-- frame of the last door re-check (15 R484). -/
  recheckAt : Nat
  /-- RESET_N held low (14 R442). -/
  resetHeld : Bool
  /-- ENC_5V, DFB_5V_A, DFB_5V_B: on, and frame of the turn-off (18 R536). -/
  sup : List (Bool × Nat)
  /-- a logic rail out of range (15 R490). -/
  railBad : Bool
  deriving DecidableEq, Repr

/-- PowerState right after reset. -/
def PowerState.reset : PowerState where
  on := false
  save := none
  saveDone := false
  saveKind := 0
  warnAt := 0
  vin := 0
  vinMin := 0
  vinMax := 0
  vinSeen := false
  saveMin := 0
  power := 0
  temp := 0
  state := 0
  stateAt := 0
  slowFrom := none
  fastFrom := none
  nextEvt := 4294967295
  wakeSrc := 0
  waking := none
  saveDur := 0
  saveVin := 0
  holdupShort := 0
  times := [0, 0, 0, 0]
  idleSince := none
  recheckAt := 0
  resetHeld := false
  sup := [(true, 0), (true, 0), (true, 0)]
  railBad := false

/-- An image slot of the store (R492, R493). -/
structure ImageRec where
  /-- slot not marked invalid (16 R505). -/
  valid : Bool
  /-- header and body (16 R493). -/
  bytes : List Nat
  /-- the slot still holds the image delivered at manufacture (its bytes are free, log 9) (16 R492). -/
  factory : Bool
  deriving DecidableEq, Repr

/-- ImageRec right after reset. -/
def ImageRec.reset : ImageRec where
  valid := false
  bytes := []
  factory := false

/-- What a target runs (R496, R510). -/
structure RunImage where
  /-- it runs a verified image (16 R496). -/
  booted : Bool
  /-- slot it runs from (16 R497). -/
  slot : Nat
  /-- header of the image it runs (16 R493). -/
  hdr : List Nat
  deriving DecidableEq, Repr

/-- RunImage right after reset. -/
def RunImage.reset : RunImage where
  booted := false
  slot := 0
  hdr := []

/-- A firmware transfer (R505 to R509). -/
structure FwRun where
  /-- FW_KIND (0x0C06) (16 R510). -/
  kind : Nat
  /-- target (16 R505). -/
  target : Nat
  /-- image length (16 R505). -/
  len : Nat
  /-- bytes received (16 R506). -/
  data : List Nat
  /-- frame of the last accepted chunk (16 R509). -/
  last : Nat
  /-- the previous chunk is still being written (16 R506). -/
  writing : Bool
  /-- phase (16 R510). -/
  phase : Nat
  /-- tag of the FW_COMMIT (14 R455). -/
  tag : Nat
  deriving DecidableEq, Repr

/-- FwRun right after reset. -/
def FwRun.reset : FwRun where
  kind := 0
  target := 0
  len := 0
  data := []
  last := 0
  writing := false
  phase := 1
  tag := 0

/-- A report being signed (R503). -/
structure AttestRun where
  /-- nonce (16 R503). -/
  nonce : List Nat
  /-- report without signature (16 R504). -/
  body : List Nat
  /-- tag (14 R455). -/
  tag : Nat
  /-- serving frame (16 R503). -/
  atF : Nat
  deriving DecidableEq, Repr

/-- AttestRun right after reset. -/
def AttestRun.reset : AttestRun where
  nonce := []
  body := []
  tag := 0
  atF := 0

/-- Security and identity (chapter 16). -/
structure SecState where
  /-- ROLLBACK_COUNTER (0x0C02) (16 R510). -/
  rollback : Nat
  /-- BOOT_COUNT (0x0C03) (16 R510). -/
  boots : Nat
  /-- BOOT_FAIL_COUNT (0x0C04), saturating (16 R510). -/
  bootFails : Nat
  /-- counted in this start (16 R500). -/
  failThis : Bool
  /-- selected slot of KERNEL, AP1, AP2, FIELD (16 R491). -/
  selected : List Nat
  /-- mirror of FW_MAKER_REQUIRED (16 R491). -/
  mirrorReq : Bool
  /-- mirror of FW_MAKER_KEY (empty: all zero) (16 R491). -/
  mirrorKey : List Int
  /-- image store (16 R492). -/
  store : List (Two ImageRec)
  /-- KERNEL (the image the agreeing cores run), AP1, AP2, FIELD (16 R496). -/
  run : List RunImage
  /-- digest each booted core posted (16 R498). -/
  coreDigest : Three (Option (List Nat))
  /-- transfer (16 R505). -/
  fw : Option FwRun
  /-- FW_STATE (0x0C05) (16 R510). -/
  fwState : Nat
  /-- FW_KIND (0x0C06) (16 R510). -/
  fwKind : Nat
  /-- FW_RECEIVED (0x0C07) (16 R510). -/
  fwCount : Nat
  /-- report being signed (16 R503). -/
  attest : Option AttestRun
  /-- nonce and bytes of the last complete report (16 R503). -/
  report : Option (List Nat × List Nat)
  /-- ATTEST_COUNT (0x0C30), saturating (16 R510). -/
  attests : Nat
  deriving DecidableEq, Repr

/-- SecState right after reset. -/
def SecState.reset : SecState where
  rollback := 0
  boots := 0
  bootFails := 0
  failThis := false
  selected := [0, 0, 0, 0]
  mirrorReq := false
  mirrorKey := []
  store := List.replicate 4 ⟨⟨true, [], true⟩, ImageRec.reset⟩
  run := [RunImage.reset, RunImage.reset, RunImage.reset, RunImage.reset]
  coreDigest := ⟨none, none, none⟩
  fw := none
  fwState := 0
  fwKind := 0
  fwCount := 0
  attest := none
  report := none
  attests := 0

/-- Start-up (chapter 17). -/
structure StartState where
  /-- step in progress (STATUS reports it) (17 R527). -/
  step : Nat
  /-- step that blocked (STARTUP_STEP) (17 R514). -/
  blockedAt : Option Nat
  /-- STARTUP_BLOCK (0x0041) (17 R527). -/
  block : Nat
  /-- start-up has not begun (no VIN good) (17 R512). -/
  waiting : Bool
  /-- time of frame tick 0 after the start of start-up (17 R512). -/
  usBase : Int
  /-- READY_TIME (0x0042) (17 R527). -/
  readyTime : Nat
  /-- RESTORED_TRIPS (0x0043) (17 R527). -/
  restored : Nat
  /-- time added to the deadlines after a resume (17 R514). -/
  dlBase : Int
  /-- time after the start of start-up at which the host port comes up (14 R454). -/
  serveAt : Nat
  /-- READY reached (17 R514). -/
  ready : Bool
  deriving DecidableEq, Repr

/-- StartState right after reset. -/
def StartState.reset : StartState where
  step := 1
  blockedAt := none
  block := 0
  waiting := true
  usBase := 0
  readyTime := 0
  restored := 0
  dlBase := 0
  serveAt := 0
  ready := false

/-- A UNIT_ENABLE answered PENDING (R35, R455). -/
structure EnableRun where
  /-- tag (14 R455). -/
  tag : Nat
  /-- unit or group addressed (01 R35). -/
  handle : Nat
  /-- units whose pending enable has not been settled (01 R33). -/
  left : List Nat
  /-- worst outcome so far (14 R464). -/
  status : Nat
  deriving DecidableEq, Repr

/-- EnableRun right after reset. -/
def EnableRun.reset : EnableRun where
  tag := 0
  handle := 0
  left := []
  status := 0

/-- Everything the spec gives the module. -/
structure Mach where
  /-- frames and clocks (02). -/
  time : TimeState
  /-- values in force that differ from their defaults, ascending handle and ID (14 R456). -/
  params : List ParamCell
  /-- writes waiting for their tick (14 R458). -/
  deferred : List Deferred
  /-- faults in force (17 R518). -/
  faults : List FaultRec
  /-- own states kept per unit (01 R25). -/
  units : List UnitCell
  /-- pending enables (14 R455). -/
  enables : List EnableRun
  /-- user groups in force, ascending handle (01 R23). -/
  groups : List GroupDef
  /-- definitions stored in this frame, in force from the next one (01 R24). -/
  groupsNext : Option (List GroupDef)
  /-- corrected single-bit errors of each subsystem of R14, by its number, saturating (01 R19). -/
  ecc : List (Nat × Nat)
  /-- MRAM bytes that differ from 0x00, ascending address (13 R435). -/
  mram : List (Nat × BitVec 8)
  /-- addresses of the 64-bit words of the MRAM found with a double-bit error and not written since (01 R19, 13 R436). -/
  mramBad : List Nat
  /-- position estimator (03). -/
  pos : PosState
  /-- motion profile engine (04). -/
  eng : EngineState
  /-- stop scheduler (05). -/
  sched : SchedState
  /-- door sides A and B (06). -/
  doors : Two DoorState
  /-- safety functions (07). -/
  safe : SafetyState
  /-- cabinet (08). -/
  cab : CabinetState
  /-- triad (09). -/
  triad : TriadState
  /-- application pair (09). -/
  pair : PairPState
  /-- isolation link, logic side (10). -/
  link : LinkState
  /-- field side (10). -/
  field : FieldState
  /-- shaft bus (11). -/
  bus : BusState
  /-- meter (12). -/
  meter : MeterState
  /-- recorder (13). -/
  rcd : RecorderState
  /-- host port (14). -/
  host : HostState
  /-- power and sleep (15). -/
  power : PowerState
  /-- security (16). -/
  sec : SecState
  /-- start-up (17). -/
  start : StartState
  /-- the model's own counter of free values (-). -/
  free : Nat
  deriving DecidableEq, Repr

/-- Mach right after reset. -/
def Mach.reset : Mach where
  time := TimeState.reset
  params := []
  deferred := []
  faults := []
  units := []
  enables := []
  groups := []
  groupsNext := none
  ecc := []
  mram := []
  mramBad := []
  pos := PosState.reset
  eng := EngineState.reset
  sched := SchedState.reset
  doors := ⟨DoorState.reset, DoorState.reset⟩
  safe := SafetyState.reset
  cab := CabinetState.reset
  triad := TriadState.reset
  pair := PairPState.reset
  link := LinkState.reset
  field := FieldState.reset
  bus := BusState.reset
  meter := MeterState.reset
  rcd := RecorderState.reset
  host := HostState.reset
  power := PowerState.reset
  sec := SecState.reset
  start := StartState.reset
  free := 0

/-- The block: what it holds now, what reads served in this frame see (R28), and its queue. -/
structure State where
  /-- the module (01). -/
  now : Mach
  /-- the module as it stood at the end of the frame before, which reads served in this frame see (01 R28). -/
  shown : Mach
  /-- commands waiting, first in, first out (-). -/
  pending : List Instr
  deriving DecidableEq, Repr

/-- State right after reset. -/
def State.reset : State where
  now := Mach.reset
  shown := Mach.reset
  pending := []

end Sys2Proof.Machine
end

