-- ==== Sys2Proof/Machine/ParamTable.lean ====
section
/-!
DEFINITION. The parameter and attribute tables of the spec: one row per row of the tables of
R60, R83, R95, R124, R149, R150, R188, R189, R245 to R247, R271, R298, R334, R336, R377, R378,
R412, R438, R471, R489, R510 and R527, with the name of each ID.
-/
namespace Sys2Proof.Machine

open Sys2Proof

/-- The access codes of 00 R9 that the tables use. -/
inductive Acc where
  | ro | rw | cab | still
  deriving DecidableEq, Repr

/-- The kind of unit whose handle addresses a parameter (14 R456). -/
inductive Home where
  | root | landing | side | block | channel | port | meter | recorder
  deriving DecidableEq, Repr

/-- A row: first ID, how many consecutive IDs, bytes of an element, signed, elements, allowed
ranges of an element, step, elements must ascend, default (empty: all zero), access, home. -/
structure PRow where
  id : Nat
  n : Nat
  bytes : Nat
  signed : Bool
  count : Nat
  ranges : List (Int × Int)
  step : Int
  ascending : Bool
  dflt : List Int
  acc : Acc
  home : Home
  deriving DecidableEq, Repr

/-- 31 ascending edges (13 R438). -/
def edges31 (a d : Int) : List Int := (List.range 31).map fun k => a + d * (k : Int)

/-- FRAME_COUNT -/
abbrev pFRAME_COUNT : Nat := 0x0001
/-- TIMESTAMP -/
abbrev pTIMESTAMP : Nat := 0x0002
/-- WALL_OFFSET -/
abbrev pWALL_OFFSET : Nat := 0x0003
/-- WALL_VALID -/
abbrev pWALL_VALID : Nat := 0x0004
/-- GROUP_STORE_FREE -/
abbrev pGROUP_STORE_FREE : Nat := 0x0005
/-- BUDGET_POLICY -/
abbrev pBUDGET_POLICY : Nat := 0x0010
/-- BUDGET_MIX_SPOOL -/
abbrev pBUDGET_MIX_SPOOL : Nat := 0x0011
/-- OVR_SC_A -/
abbrev pOVR_SC_A : Nat := 0x0020
/-- OVR_SC_B -/
abbrev pOVR_SC_B : Nat := 0x0021
/-- OVR_SC_C -/
abbrev pOVR_SC_C : Nat := 0x0022
/-- OVR_AP1 -/
abbrev pOVR_AP1 : Nat := 0x0023
/-- OVR_AP2 -/
abbrev pOVR_AP2 : Nat := 0x0024
/-- SPEC_DISCARDS -/
abbrev pSPEC_DISCARDS : Nat := 0x0025
/-- CLK_DEV_SYS -/
abbrev pCLK_DEV_SYS : Nat := 0x0030
/-- CLK_DEV_APP1 -/
abbrev pCLK_DEV_APP1 : Nat := 0x0031
/-- CLK_DEV_APP2 -/
abbrev pCLK_DEV_APP2 : Nat := 0x0032
/-- CLK_DEV_SAFE_A -/
abbrev pCLK_DEV_SAFE_A : Nat := 0x0033
/-- CLK_DEV_SAFE_B -/
abbrev pCLK_DEV_SAFE_B : Nat := 0x0034
/-- CLK_DEV_SAFE_C -/
abbrev pCLK_DEV_SAFE_C : Nat := 0x0035
/-- CLK_DEV_DRV -/
abbrev pCLK_DEV_DRV : Nat := 0x0036
/-- CLK_DEV_MTR -/
abbrev pCLK_DEV_MTR : Nat := 0x0037
/-- CLK_DEV_FLD -/
abbrev pCLK_DEV_FLD : Nat := 0x0038
/-- CLK_DEV_AON -/
abbrev pCLK_DEV_AON : Nat := 0x0039
/-- SILL_LEVEL -/
abbrev pSILL_LEVEL : Nat := 0x0180
/-- DZ_LOW -/
abbrev pDZ_LOW : Nat := 0x0181
/-- DZ_HIGH -/
abbrev pDZ_HIGH : Nat := 0x0182
/-- DZ_MID_UP -/
abbrev pDZ_MID_UP : Nat := 0x0183
/-- DZ_MID_DOWN -/
abbrev pDZ_MID_DOWN : Nat := 0x0184
/-- MOUNT -/
abbrev pMOUNT : Nat := 0x0100
/-- N_LANDINGS -/
abbrev pN_LANDINGS : Nat := 0x0102
/-- TAPE_READERS -/
abbrev pTAPE_READERS : Nat := 0x0110
/-- TAPE_BITS -/
abbrev pTAPE_BITS : Nat := 0x0111
/-- TAPE_LSB -/
abbrev pTAPE_LSB : Nat := 0x0112
/-- TAPE_CLOCK -/
abbrev pTAPE_CLOCK : Nat := 0x0113
/-- TAPE_CRC -/
abbrev pTAPE_CRC : Nat := 0x0114
/-- TAPE_STATUS_BITS -/
abbrev pTAPE_STATUS_BITS : Nat := 0x0115
/-- TAPE_DIR -/
abbrev pTAPE_DIR : Nat := 0x0116
/-- TAPE1_LATENCY -/
abbrev pTAPE1_LATENCY : Nat := 0x0117
/-- TAPE2_LATENCY -/
abbrev pTAPE2_LATENCY : Nat := 0x0118
/-- TAPE_GATE -/
abbrev pTAPE_GATE : Nat := 0x0119
/-- TAPE_PAIR_TOL -/
abbrev pTAPE_PAIR_TOL : Nat := 0x011A
/-- TAPE_ORIGIN -/
abbrev pTAPE_ORIGIN : Nat := 0x011B
/-- TAPE2_OFFSET -/
abbrev pTAPE2_OFFSET : Nat := 0x011C
/-- ENC_TYPE -/
abbrev pENC_TYPE : Nat := 0x0120
/-- ENC_LINES -/
abbrev pENC_LINES : Nat := 0x0121
/-- ENC_NM_PER_REV -/
abbrev pENC_NM_PER_REV : Nat := 0x0122
/-- ENC_DIR -/
abbrev pENC_DIR : Nat := 0x0123
/-- ACC_AXIS -/
abbrev pACC_AXIS : Nat := 0x0130
/-- ACC_G_CAL -/
abbrev pACC_G_CAL : Nat := 0x0131
/-- FUSE_POS -/
abbrev pFUSE_POS : Nat := 0x0140
/-- FUSE_VEL -/
abbrev pFUSE_VEL : Nat := 0x0141
/-- FUSE_ACC -/
abbrev pFUSE_ACC : Nat := 0x0142
/-- FUSE_SIGMA_P -/
abbrev pFUSE_SIGMA_P : Nat := 0x0143
/-- POS_QUALITY -/
abbrev pPOS_QUALITY : Nat := 0x0144
/-- ENC_SCALE -/
abbrev pENC_SCALE : Nat := 0x0145
/-- ACC_BIAS -/
abbrev pACC_BIAS : Nat := 0x0146
/-- STRETCH -/
abbrev pSTRETCH : Nat := 0x0147
/-- LEVEL_ERROR -/
abbrev pLEVEL_ERROR : Nat := 0x0148
/-- CORE_POS_A -/
abbrev pCORE_POS_A : Nat := 0x0149
/-- CORE_POS_B -/
abbrev pCORE_POS_B : Nat := 0x014A
/-- CORE_POS_C -/
abbrev pCORE_POS_C : Nat := 0x014B
/-- CORE_TOL_P -/
abbrev pCORE_TOL_P : Nat := 0x0150
/-- CORE_TOL_V -/
abbrev pCORE_TOL_V : Nat := 0x0151
/-- SLIP_LIMIT -/
abbrev pSLIP_LIMIT : Nat := 0x0152
/-- SLIP_TIME -/
abbrev pSLIP_TIME : Nat := 0x0153
/-- LEARN_SPEED -/
abbrev pLEARN_SPEED : Nat := 0x0160
/-- HOME_SPEED -/
abbrev pHOME_SPEED : Nat := 0x0161
/-- HOME_TOL -/
abbrev pHOME_TOL : Nat := 0x0162
/-- RECOVER_TOL -/
abbrev pRECOVER_TOL : Nat := 0x0164
/-- DZ_SILL_OFFSET -/
abbrev pDZ_SILL_OFFSET : Nat := 0x0165
/-- LEARN_STATE -/
abbrev pLEARN_STATE : Nat := 0x0166
/-- V_RATED -/
abbrev pV_RATED : Nat := 0x0200
/-- A_MAX -/
abbrev pA_MAX : Nat := 0x0201
/-- J_MAX -/
abbrev pJ_MAX : Nat := 0x0202
/-- ERAMP_DEC -/
abbrev pERAMP_DEC : Nat := 0x0208
/-- ERAMP_JERK -/
abbrev pERAMP_JERK : Nat := 0x0209
/-- INSP_SPEED -/
abbrev pINSP_SPEED : Nat := 0x0210
/-- EVAC_SPEED -/
abbrev pEVAC_SPEED : Nat := 0x0211
/-- LEVEL_SPEED -/
abbrev pLEVEL_SPEED : Nat := 0x0212
/-- LEVEL_TOL -/
abbrev pLEVEL_TOL : Nat := 0x0213
/-- LEVEL_SETTLE -/
abbrev pLEVEL_SETTLE : Nat := 0x0214
/-- LEVEL_RETRIES -/
abbrev pLEVEL_RETRIES : Nat := 0x0215
/-- LEVEL_ACCEPT -/
abbrev pLEVEL_ACCEPT : Nat := 0x0216
/-- RELEVEL_ENABLE -/
abbrev pRELEVEL_ENABLE : Nat := 0x0218
/-- RELEVEL_START -/
abbrev pRELEVEL_START : Nat := 0x0219
/-- RELEVEL_DELAY -/
abbrev pRELEVEL_DELAY : Nat := 0x021B
/-- RELEVEL_SPEED -/
abbrev pRELEVEL_SPEED : Nat := 0x021C
/-- DRV_PORT -/
abbrev pDRV_PORT : Nat := 0x0220
/-- DRV_SP_ID -/
abbrev pDRV_SP_ID : Nat := 0x0221
/-- DRV_FB_ID -/
abbrev pDRV_FB_ID : Nat := 0x0222
/-- DRV_SRC_ID -/
abbrev pDRV_SRC_ID : Nat := 0x0223
/-- DRV_FB_SRC -/
abbrev pDRV_FB_SRC : Nat := 0x0224
/-- DRV_SP_WINDOW -/
abbrev pDRV_SP_WINDOW : Nat := 0x0225
/-- DRV_FB_WINDOW -/
abbrev pDRV_FB_WINDOW : Nat := 0x0226
/-- DRV_LEAD -/
abbrev pDRV_LEAD : Nat := 0x0227
/-- DRV_FB_TIMEOUT -/
abbrev pDRV_FB_TIMEOUT : Nat := 0x0228
/-- DRV_START_TIME -/
abbrev pDRV_START_TIME : Nat := 0x0229
/-- TRACK_TOL_V -/
abbrev pTRACK_TOL_V : Nat := 0x0230
/-- TRACK_TOL_P -/
abbrev pTRACK_TOL_P : Nat := 0x0231
/-- TRACK_TIME -/
abbrev pTRACK_TIME : Nat := 0x0232
/-- MOTION_MODE -/
abbrev pMOTION_MODE : Nat := 0x0240
/-- PLAN_ID -/
abbrev pPLAN_ID : Nat := 0x0241
/-- PLAN_PENDING -/
abbrev pPLAN_PENDING : Nat := 0x0242
/-- SP_POS -/
abbrev pSP_POS : Nat := 0x0243
/-- SP_VEL -/
abbrev pSP_VEL : Nat := 0x0244
/-- SP_ACC -/
abbrev pSP_ACC : Nat := 0x0245
/-- V_CAP -/
abbrev pV_CAP : Nat := 0x0246
/-- STOP_DIST -/
abbrev pSTOP_DIST : Nat := 0x0247
/-- PLAN_REJECTS -/
abbrev pPLAN_REJECTS : Nat := 0x0248
/-- DRV_STATE -/
abbrev pDRV_STATE : Nat := 0x0249
/-- SCHED_MODE -/
abbrev pSCHED_MODE : Nat := 0x0300
/-- SPOOL_DEPTH -/
abbrev pSPOOL_DEPTH : Nat := 0x0301
/-- STOP_KEEP_DIST -/
abbrev pSTOP_KEEP_DIST : Nat := 0x0302
/-- GROUP_HB_TIMEOUT -/
abbrev pGROUP_HB_TIMEOUT : Nat := 0x0303
/-- GROUP_FALLBACK -/
abbrev pGROUP_FALLBACK : Nat := 0x0304
/-- PARK_LANDING -/
abbrev pPARK_LANDING : Nat := 0x0305
/-- PARK_DELAY -/
abbrev pPARK_DELAY : Nat := 0x0306
/-- HOME_FLOOR -/
abbrev pHOME_FLOOR : Nat := 0x0307
/-- SCHED_STALL_TIME -/
abbrev pSCHED_STALL_TIME : Nat := 0x0308
/-- SCHED_HOLD -/
abbrev pSCHED_HOLD : Nat := 0x0309
/-- SCHED_DIR -/
abbrev pSCHED_DIR : Nat := 0x0310
/-- COMMIT_TARGET -/
abbrev pCOMMIT_TARGET : Nat := 0x0311
/-- EXIT_LANDING -/
abbrev pEXIT_LANDING : Nat := 0x0312
/-- NEXT_STOP -/
abbrev pNEXT_STOP : Nat := 0x0313
/-- SPEC_EPOCH -/
abbrev pSPEC_EPOCH : Nat := 0x0314
/-- SPOOL_HITS -/
abbrev pSPOOL_HITS : Nat := 0x0315
/-- SPOOL_MISSES -/
abbrev pSPOOL_MISSES : Nat := 0x0316
/-- CALLS_OPEN -/
abbrev pCALLS_OPEN : Nat := 0x0317
/-- SIDES_SERVED -/
abbrev pSIDES_SERVED : Nat := 0x0380
/-- CAR_CALL_EN -/
abbrev pCAR_CALL_EN : Nat := 0x0381
/-- HALL_CALL_EN -/
abbrev pHALL_CALL_EN : Nat := 0x0382
/-- CALL_STATE -/
abbrev pCALL_STATE : Nat := 0x0383
/-- DOOR_PWM_FREQ -/
abbrev pDOOR_PWM_FREQ : Nat := 0x0400
/-- DOOR_DEADTIME -/
abbrev pDOOR_DEADTIME : Nat := 0x0401
/-- DOOR_I_SCALE -/
abbrev pDOOR_I_SCALE : Nat := 0x0402
/-- DOOR_I_TRIP -/
abbrev pDOOR_I_TRIP : Nat := 0x0403
/-- DOOR_I_CONT -/
abbrev pDOOR_I_CONT : Nat := 0x0404
/-- DOOR_I_PEAK -/
abbrev pDOOR_I_PEAK : Nat := 0x0405
/-- DOOR_KF -/
abbrev pDOOR_KF : Nat := 0x0406
/-- DOOR_POLE_PAIRS -/
abbrev pDOOR_POLE_PAIRS : Nat := 0x0407
/-- DOOR_FB_TYPE -/
abbrev pDOOR_FB_TYPE : Nat := 0x0408
/-- DOOR_NM_PER_COUNT -/
abbrev pDOOR_NM_PER_COUNT : Nat := 0x0409
/-- DOOR_DIR -/
abbrev pDOOR_DIR : Nat := 0x040A
/-- E_MAX -/
abbrev pE_MAX : Nat := 0x0410
/-- F_MAX -/
abbrev pF_MAX : Nat := 0x0411
/-- MASS_MARGIN -/
abbrev pMASS_MARGIN : Nat := 0x0412
/-- OBST_FORCE -/
abbrev pOBST_FORCE : Nat := 0x0413
/-- OBST_TIME -/
abbrev pOBST_TIME : Nat := 0x0414
/-- OBST_MASK -/
abbrev pOBST_MASK : Nat := 0x0415
/-- NUDGE_ENERGY -/
abbrev pNUDGE_ENERGY : Nat := 0x0416
/-- NUDGE_MODE -/
abbrev pNUDGE_MODE : Nat := 0x0417
/-- NUDGE_HOLD -/
abbrev pNUDGE_HOLD : Nat := 0x0418
/-- NUDGE_CH -/
abbrev pNUDGE_CH : Nat := 0x0419
/-- CLOSED_TOL -/
abbrev pCLOSED_TOL : Nat := 0x041A
/-- OPEN_SPEED -/
abbrev pOPEN_SPEED : Nat := 0x0420
/-- OPEN_ACC -/
abbrev pOPEN_ACC : Nat := 0x0421
/-- CLOSE_SPEED -/
abbrev pCLOSE_SPEED : Nat := 0x0422
/-- CLOSE_ACC -/
abbrev pCLOSE_ACC : Nat := 0x0423
/-- CREEP_DIST -/
abbrev pCREEP_DIST : Nat := 0x0424
/-- CREEP_SPEED -/
abbrev pCREEP_SPEED : Nat := 0x0425
/-- REOPEN_DEC -/
abbrev pREOPEN_DEC : Nat := 0x0426
/-- DOOR_TIME_LIMIT -/
abbrev pDOOR_TIME_LIMIT : Nat := 0x0427
/-- DWELL_CAR -/
abbrev pDWELL_CAR : Nat := 0x0428
/-- DWELL_HALL -/
abbrev pDWELL_HALL : Nat := 0x0429
/-- DWELL_REOPEN -/
abbrev pDWELL_REOPEN : Nat := 0x042A
/-- HOLD_MAX -/
abbrev pHOLD_MAX : Nat := 0x042B
/-- OBST_REPEAT_MAX -/
abbrev pOBST_REPEAT_MAX : Nat := 0x042C
/-- AUTO_LEARN -/
abbrev pAUTO_LEARN : Nat := 0x042D
/-- DOOR_STATE -/
abbrev pDOOR_STATE : Nat := 0x0430
/-- DOOR_POS -/
abbrev pDOOR_POS : Nat := 0x0431
/-- DOOR_VEL -/
abbrev pDOOR_VEL : Nat := 0x0432
/-- DOOR_THRUST -/
abbrev pDOOR_THRUST : Nat := 0x0433
/-- DOOR_RESIDUAL -/
abbrev pDOOR_RESIDUAL : Nat := 0x0434
/-- DOOR_KE -/
abbrev pDOOR_KE : Nat := 0x0435
/-- DOOR_V_LIM -/
abbrev pDOOR_V_LIM : Nat := 0x0436
/-- OBST_COUNT -/
abbrev pOBST_COUNT : Nat := 0x0437
/-- OBST_CONSEC -/
abbrev pOBST_CONSEC : Nat := 0x0438
/-- DOOR_UDC -/
abbrev pDOOR_UDC : Nat := 0x0439
/-- DOOR_I2T -/
abbrev pDOOR_I2T : Nat := 0x043A
/-- KE_EXCEED_COUNT -/
abbrev pKE_EXCEED_COUNT : Nat := 0x043B
/-- DOOR_LEARNED -/
abbrev pDOOR_LEARNED : Nat := 0x0480
/-- DOOR_MASS -/
abbrev pDOOR_MASS : Nat := 0x0481
/-- DOOR_FRIC_C -/
abbrev pDOOR_FRIC_C : Nat := 0x0482
/-- DOOR_FRIC_V -/
abbrev pDOOR_FRIC_V : Nat := 0x0483
/-- DOOR_WIDTH -/
abbrev pDOOR_WIDTH : Nat := 0x0484
/-- DOOR_CLOSER_MAP -/
abbrev pDOOR_CLOSER_MAP : Nat := 0x0485
/-- DOOR_LEARN_TIME -/
abbrev pDOOR_LEARN_TIME : Nat := 0x0486
/-- DOOR_FRIC_C_LEARNED -/
abbrev pDOOR_FRIC_C_LEARNED : Nat := 0x0487
/-- DOOR_CYCLES -/
abbrev pDOOR_CYCLES : Nat := 0x0488
/-- RESET_CH -/
abbrev pRESET_CH : Nat := 0x0500
/-- OS_UP_TRIP -/
abbrev pOS_UP_TRIP : Nat := 0x0501
/-- OS_UP_SAFE -/
abbrev pOS_UP_SAFE : Nat := 0x0502
/-- OS_DN_TRIP -/
abbrev pOS_DN_TRIP : Nat := 0x0503
/-- OS_DN_SAFE -/
abbrev pOS_DN_SAFE : Nat := 0x0504
/-- OS_MODE_MARGIN -/
abbrev pOS_MODE_MARGIN : Nat := 0x0505
/-- UCM_DIST -/
abbrev pUCM_DIST : Nat := 0x0506
/-- BRIDGE_SPEED -/
abbrev pBRIDGE_SPEED : Nat := 0x0507
/-- ADV_OPEN -/
abbrev pADV_OPEN : Nat := 0x0508
/-- ADV_OPEN_SPEED -/
abbrev pADV_OPEN_SPEED : Nat := 0x0509
/-- LOCK_SOURCE -/
abbrev pLOCK_SOURCE : Nat := 0x050A
/-- LOCK_WD -/
abbrev pLOCK_WD : Nat := 0x050B
/-- LOCK_DISAGREE_TIME -/
abbrev pLOCK_DISAGREE_TIME : Nat := 0x050C
/-- TSL_POS_TOL -/
abbrev pTSL_POS_TOL : Nat := 0x050D
/-- TSL_STAGE2 -/
abbrev pTSL_STAGE2 : Nat := 0x050E
/-- INSP_STOP_TIME -/
abbrev pINSP_STOP_TIME : Nat := 0x050F
/-- FB_ENABLE -/
abbrev pFB_ENABLE : Nat := 0x0540
/-- FB_CH_A -/
abbrev pFB_CH_A : Nat := 0x0541
/-- FB_CH_B -/
abbrev pFB_CH_B : Nat := 0x0542
/-- FB_POLARITY -/
abbrev pFB_POLARITY : Nat := 0x0543
/-- FB_DISC_TIME -/
abbrev pFB_DISC_TIME : Nat := 0x0544
/-- FB_RESET -/
abbrev pFB_RESET : Nat := 0x0545
/-- STN_KIND -/
abbrev pSTN_KIND : Nat := 0x0546
/-- STN_COMMON_A -/
abbrev pSTN_COMMON_A : Nat := 0x0547
/-- STN_COMMON_B -/
abbrev pSTN_COMMON_B : Nat := 0x0548
/-- STN_UP_A -/
abbrev pSTN_UP_A : Nat := 0x0549
/-- STN_UP_B -/
abbrev pSTN_UP_B : Nat := 0x054A
/-- STN_DN_A -/
abbrev pSTN_DN_A : Nat := 0x054B
/-- STN_DN_B -/
abbrev pSTN_DN_B : Nat := 0x054C
/-- SOG_ROLE -/
abbrev pSOG_ROLE : Nat := 0x054D
/-- CF_PULL_TIME -/
abbrev pCF_PULL_TIME : Nat := 0x054E
/-- CF_DROP_TIME -/
abbrev pCF_DROP_TIME : Nat := 0x054F
/-- BRK_LIFT_LEVEL -/
abbrev pBRK_LIFT_LEVEL : Nat := 0x0550
/-- BRK_OPEN_TIME -/
abbrev pBRK_OPEN_TIME : Nat := 0x0551
/-- BRK_CLOSE_TIME -/
abbrev pBRK_CLOSE_TIME : Nat := 0x0552
/-- TSL_V -/
abbrev pTSL_V : Nat := 0x0553
/-- TSL_EDGE -/
abbrev pTSL_EDGE : Nat := 0x0554
/-- FB_STATE -/
abbrev pFB_STATE : Nat := 0x0560
/-- FB_TRIP_COUNT -/
abbrev pFB_TRIP_COUNT : Nat := 0x0561
/-- FB_LAST_DISC -/
abbrev pFB_LAST_DISC : Nat := 0x0562
/-- FB_LAST_EVENT -/
abbrev pFB_LAST_EVENT : Nat := 0x0563
/-- STN_DIR -/
abbrev pSTN_DIR : Nat := 0x0564
/-- UCM_REF -/
abbrev pUCM_REF : Nat := 0x0565
/-- BRIDGE_ACTIVE -/
abbrev pBRIDGE_ACTIVE : Nat := 0x0566
/-- BRAKE_STATUS -/
abbrev pBRAKE_STATUS : Nat := 0x0567
/-- LOCK_STATE -/
abbrev pLOCK_STATE : Nat := 0x0580
/-- LOCK_NODE -/
abbrev pLOCK_NODE : Nat := 0x0581
/-- CAB_STATE -/
abbrev pCAB_STATE : Nat := 0x05F0
/-- CAB_SESSION_SLOT -/
abbrev pCAB_SESSION_SLOT : Nat := 0x05F1
/-- CAB_SESSION_LEFT -/
abbrev pCAB_SESSION_LEFT : Nat := 0x05F2
/-- CAB_FAIL_COUNT -/
abbrev pCAB_FAIL_COUNT : Nat := 0x05F3
/-- CAB_LOCKOUT_LEFT -/
abbrev pCAB_LOCKOUT_LEFT : Nat := 0x05F4
/-- CAB_STAGED -/
abbrev pCAB_STAGED : Nat := 0x05F5
/-- CAB_GENERATION -/
abbrev pCAB_GENERATION : Nat := 0x05F6
/-- CAB_DIGEST -/
abbrev pCAB_DIGEST : Nat := 0x05F7
/-- CAB_LOG_HEAD -/
abbrev pCAB_LOG_HEAD : Nat := 0x05F8
/-- CAB_LOG_OVERWRITES -/
abbrev pCAB_LOG_OVERWRITES : Nat := 0x05F9
/-- CAB_REJECT_UNIT -/
abbrev pCAB_REJECT_UNIT : Nat := 0x05FA
/-- CAB_REJECT_ID -/
abbrev pCAB_REJECT_ID : Nat := 0x05FB
/-- CAB_SLOTS_SET -/
abbrev pCAB_SLOTS_SET : Nat := 0x05FC
/-- TRIAD_MODE -/
abbrev pTRIAD_MODE : Nat := 0x0600
/-- TRIAD_EXCLUDED -/
abbrev pTRIAD_EXCLUDED : Nat := 0x0601
/-- TRIAD_DEGRADED_POLICY -/
abbrev pTRIAD_DEGRADED_POLICY : Nat := 0x0602
/-- TRIAD_DEGRADED_LIMIT -/
abbrev pTRIAD_DEGRADED_LIMIT : Nat := 0x0603
/-- DUPLEX_LEFT -/
abbrev pDUPLEX_LEFT : Nat := 0x0604
/-- READMIT_MODE -/
abbrev pREADMIT_MODE : Nat := 0x0605
/-- DISAGREE_A -/
abbrev pDISAGREE_A : Nat := 0x0606
/-- DISAGREE_B -/
abbrev pDISAGREE_B : Nat := 0x0607
/-- DISAGREE_C -/
abbrev pDISAGREE_C : Nat := 0x0608
/-- READMIT_COUNT -/
abbrev pREADMIT_COUNT : Nat := 0x0609
/-- PROOF_INTERVAL -/
abbrev pPROOF_INTERVAL : Nat := 0x0610
/-- PROOF_AUTO -/
abbrev pPROOF_AUTO : Nat := 0x0611
/-- PROOF_STATE -/
abbrev pPROOF_STATE : Nat := 0x0612
/-- PROOF_LAST_A -/
abbrev pPROOF_LAST_A : Nat := 0x0613
/-- PROOF_LAST_B -/
abbrev pPROOF_LAST_B : Nat := 0x0614
/-- PROOF_LAST_C -/
abbrev pPROOF_LAST_C : Nat := 0x0615
/-- PROOF_DUE -/
abbrev pPROOF_DUE : Nat := 0x0616
/-- PAIR_ROLE_AP1 -/
abbrev pPAIR_ROLE_AP1 : Nat := 0x0620
/-- PAIR_ROLE_AP2 -/
abbrev pPAIR_ROLE_AP2 : Nat := 0x0621
/-- TETHER_HOLDER -/
abbrev pTETHER_HOLDER : Nat := 0x0622
/-- PAIR_PREFERRED -/
abbrev pPAIR_PREFERRED : Nat := 0x0623
/-- SWITCH_COUNT -/
abbrev pSWITCH_COUNT : Nat := 0x0624
/-- BALLAST_FRAMES -/
abbrev pBALLAST_FRAMES : Nat := 0x0625
/-- LAST_TAKEOVER_AGE -/
abbrev pLAST_TAKEOVER_AGE : Nat := 0x0626
/-- SHADOW_MISMATCH -/
abbrev pSHADOW_MISMATCH : Nat := 0x0627
/-- SNAPSHOT_FRAME -/
abbrev pSNAPSHOT_FRAME : Nat := 0x0628
/-- DUAL_TX -/
abbrev pDUAL_TX : Nat := 0x0629
/-- PAIR_COMPAT_AP1 -/
abbrev pPAIR_COMPAT_AP1 : Nat := 0x062A
/-- PAIR_COMPAT_AP2 -/
abbrev pPAIR_COMPAT_AP2 : Nat := 0x062B
/-- CH_MODE -/
abbrev pCH_MODE : Nat := 0x0700
/-- CH_DEBOUNCE -/
abbrev pCH_DEBOUNCE : Nat := 0x0701
/-- CH_SAFE_STATE -/
abbrev pCH_SAFE_STATE : Nat := 0x0702
/-- CH_IN_SAFE -/
abbrev pCH_IN_SAFE : Nat := 0x0703
/-- CH_PULSE_SRC -/
abbrev pCH_PULSE_SRC : Nat := 0x0704
/-- CH_RETRY_COUNT -/
abbrev pCH_RETRY_COUNT : Nat := 0x0705
/-- CH_RETRY_DELAY -/
abbrev pCH_RETRY_DELAY : Nat := 0x0706
/-- CH_STATUS -/
abbrev pCH_STATUS : Nat := 0x0710
/-- CH_CURRENT -/
abbrev pCH_CURRENT : Nat := 0x0711
/-- CH_TEMP -/
abbrev pCH_TEMP : Nat := 0x0712
/-- CH_OPS -/
abbrev pCH_OPS : Nat := 0x0713
/-- CH_TRANSITIONS -/
abbrev pCH_TRANSITIONS : Nat := 0x0714
/-- CH_BENCH_VALUE -/
abbrev pCH_BENCH_VALUE : Nat := 0x0715
/-- CH_LAST_TP -/
abbrev pCH_LAST_TP : Nat := 0x0716
/-- CH_RETRIES_LEFT -/
abbrev pCH_RETRIES_LEFT : Nat := 0x0717
/-- LINK_TIMEOUT -/
abbrev pLINK_TIMEOUT : Nat := 0x0780
/-- DEBOUNCE_USER -/
abbrev pDEBOUNCE_USER : Nat := 0x0781
/-- LINK_DN_ERR -/
abbrev pLINK_DN_ERR : Nat := 0x0782
/-- LINK_UP_ERR -/
abbrev pLINK_UP_ERR : Nat := 0x0783
/-- LINK_TIMEOUTS -/
abbrev pLINK_TIMEOUTS : Nat := 0x0784
/-- VF_A -/
abbrev pVF_A : Nat := 0x0785
/-- VF_B -/
abbrev pVF_B : Nat := 0x0786
/-- DOMAIN_STATE_A -/
abbrev pDOMAIN_STATE_A : Nat := 0x0787
/-- DOMAIN_STATE_B -/
abbrev pDOMAIN_STATE_B : Nat := 0x0788
/-- FIELD_POWER -/
abbrev pFIELD_POWER : Nat := 0x0789
/-- FIELD_TEMP -/
abbrev pFIELD_TEMP : Nat := 0x078A
/-- VOTE_SOURCE -/
abbrev pVOTE_SOURCE : Nat := 0x078B
/-- GROUP_CURRENT_0 -/
abbrev pGROUP_CURRENT_0 : Nat := 0x0790
/-- GROUP_CURRENT_1 -/
abbrev pGROUP_CURRENT_1 : Nat := 0x0791
/-- GROUP_CURRENT_2 -/
abbrev pGROUP_CURRENT_2 : Nat := 0x0792
/-- GROUP_CURRENT_3 -/
abbrev pGROUP_CURRENT_3 : Nat := 0x0793
/-- GROUP_CURRENT_4 -/
abbrev pGROUP_CURRENT_4 : Nat := 0x0794
/-- GROUP_CURRENT_5 -/
abbrev pGROUP_CURRENT_5 : Nat := 0x0795
/-- GROUP_CURRENT_6 -/
abbrev pGROUP_CURRENT_6 : Nat := 0x0796
/-- GROUP_CURRENT_7 -/
abbrev pGROUP_CURRENT_7 : Nat := 0x0797
/-- BUS_NOM_RATE -/
abbrev pBUS_NOM_RATE : Nat := 0x0800
/-- BUS_NOM_SP -/
abbrev pBUS_NOM_SP : Nat := 0x0801
/-- BUS_DATA_RATE -/
abbrev pBUS_DATA_RATE : Nat := 0x0802
/-- BUS_DATA_SP -/
abbrev pBUS_DATA_SP : Nat := 0x0803
/-- BUS_TRIPLE -/
abbrev pBUS_TRIPLE : Nat := 0x0804
/-- TIME_ROLE -/
abbrev pTIME_ROLE : Nat := 0x0805
/-- BUS_OFF_RECOVERY -/
abbrev pBUS_OFF_RECOVERY : Nat := 0x0806
/-- TEC_WARN -/
abbrev pTEC_WARN : Nat := 0x0807
/-- REC_WARN -/
abbrev pREC_WARN : Nat := 0x0808
/-- WAKE_MODE -/
abbrev pWAKE_MODE : Nat := 0x0809
/-- WAKE_ID -/
abbrev pWAKE_ID : Nat := 0x080A
/-- WAKE_ID_MASK -/
abbrev pWAKE_ID_MASK : Nat := 0x080B
/-- WAKE_IDE -/
abbrev pWAKE_IDE : Nat := 0x080C
/-- WAKE_DLC -/
abbrev pWAKE_DLC : Nat := 0x080D
/-- WAKE_DATA -/
abbrev pWAKE_DATA : Nat := 0x080E
/-- WAKE_DATA_MASK -/
abbrev pWAKE_DATA_MASK : Nat := 0x080F
/-- BUS_STATE -/
abbrev pBUS_STATE : Nat := 0x0820
/-- TEC -/
abbrev pTEC : Nat := 0x0821
/-- REC -/
abbrev pREC : Nat := 0x0822
/-- BUS_OFF_COUNT -/
abbrev pBUS_OFF_COUNT : Nat := 0x0823
/-- TX_OK -/
abbrev pTX_OK : Nat := 0x0824
/-- RX_OK -/
abbrev pRX_OK : Nat := 0x0825
/-- LOST_COUNT -/
abbrev pLOST_COUNT : Nat := 0x0826
/-- CLASH_COUNT -/
abbrev pCLASH_COUNT : Nat := 0x0827
/-- TT_MISSED_COUNT -/
abbrev pTT_MISSED_COUNT : Nat := 0x0828
/-- SAFETY_CRC_ERR -/
abbrev pSAFETY_CRC_ERR : Nat := 0x0829
/-- OBJ_USED -/
abbrev pOBJ_USED : Nat := 0x082A
/-- CAR_NO -/
abbrev pCAR_NO : Nat := 0x0880
/-- CAR_SRC -/
abbrev pCAR_SRC : Nat := 0x0881
/-- TIME_REF_ID -/
abbrev pTIME_REF_ID : Nat := 0x0882
/-- LOCK_PORT -/
abbrev pLOCK_PORT : Nat := 0x0883
/-- LOCK_ID_BASE -/
abbrev pLOCK_ID_BASE : Nat := 0x0884
/-- GROUP_PORT -/
abbrev pGROUP_PORT : Nat := 0x0885
/-- GROUP_ID_BASE -/
abbrev pGROUP_ID_BASE : Nat := 0x0886
/-- GROUP_SRC -/
abbrev pGROUP_SRC : Nat := 0x0887
/-- FIXTURE_PORT -/
abbrev pFIXTURE_PORT : Nat := 0x0888
/-- PANEL_ID_BASE -/
abbrev pPANEL_ID_BASE : Nat := 0x0889
/-- HALL_ID_BASE -/
abbrev pHALL_ID_BASE : Nat := 0x088A
/-- HALL_IND_BASE -/
abbrev pHALL_IND_BASE : Nat := 0x088B
/-- HALL_FWD -/
abbrev pHALL_FWD : Nat := 0x088C
/-- IND_REFRESH -/
abbrev pIND_REFRESH : Nat := 0x088D
/-- LOCK_INVALID -/
abbrev pLOCK_INVALID : Nat := 0x088E
/-- PANEL_REFUSED -/
abbrev pPANEL_REFUSED : Nat := 0x088F
/-- METER_WIRING -/
abbrev pMETER_WIRING : Nat := 0x0900
/-- F_NOMINAL -/
abbrev pF_NOMINAL : Nat := 0x0901
/-- U_DECL -/
abbrev pU_DECL : Nat := 0x0902
/-- VOLT_SCALE -/
abbrev pVOLT_SCALE : Nat := 0x0903
/-- CUR_SCALE -/
abbrev pCUR_SCALE : Nat := 0x0904
/-- I_NOM -/
abbrev pI_NOM : Nat := 0x0905
/-- CUR_SENSOR -/
abbrev pCUR_SENSOR : Nat := 0x0906
/-- I4_ROLE -/
abbrev pI4_ROLE : Nat := 0x0907
/-- ENERGY_UNIT -/
abbrev pENERGY_UNIT : Nat := 0x0908
/-- ENERGY_SAVE_PERIOD -/
abbrev pENERGY_SAVE_PERIOD : Nat := 0x0909
/-- URMS_1 -/
abbrev pURMS_1 : Nat := 0x0910
/-- URMS_2 -/
abbrev pURMS_2 : Nat := 0x0911
/-- URMS_3 -/
abbrev pURMS_3 : Nat := 0x0912
/-- IRMS_1 -/
abbrev pIRMS_1 : Nat := 0x0913
/-- IRMS_2 -/
abbrev pIRMS_2 : Nat := 0x0914
/-- IRMS_3 -/
abbrev pIRMS_3 : Nat := 0x0915
/-- IRMS_4 -/
abbrev pIRMS_4 : Nat := 0x0916
/-- P_1 -/
abbrev pP_1 : Nat := 0x0917
/-- P_2 -/
abbrev pP_2 : Nat := 0x0918
/-- P_3 -/
abbrev pP_3 : Nat := 0x0919
/-- Q_1 -/
abbrev pQ_1 : Nat := 0x091A
/-- Q_2 -/
abbrev pQ_2 : Nat := 0x091B
/-- Q_3 -/
abbrev pQ_3 : Nat := 0x091C
/-- P_TOTAL -/
abbrev pP_TOTAL : Nat := 0x091D
/-- Q_TOTAL -/
abbrev pQ_TOTAL : Nat := 0x091E
/-- S_TOTAL -/
abbrev pS_TOTAL : Nat := 0x091F
/-- PF_TOTAL -/
abbrev pPF_TOTAL : Nat := 0x0920
/-- PF_1 -/
abbrev pPF_1 : Nat := 0x0921
/-- PF_2 -/
abbrev pPF_2 : Nat := 0x0922
/-- PF_3 -/
abbrev pPF_3 : Nat := 0x0923
/-- FREQ -/
abbrev pFREQ : Nat := 0x0924
/-- FREQ_VALID -/
abbrev pFREQ_VALID : Nat := 0x0925
/-- ANGLE_U2 -/
abbrev pANGLE_U2 : Nat := 0x0926
/-- ANGLE_U3 -/
abbrev pANGLE_U3 : Nat := 0x0927
/-- ANGLE_I1 -/
abbrev pANGLE_I1 : Nat := 0x0928
/-- ANGLE_I2 -/
abbrev pANGLE_I2 : Nat := 0x0929
/-- ANGLE_I3 -/
abbrev pANGLE_I3 : Nat := 0x092A
/-- QUADRANT -/
abbrev pQUADRANT : Nat := 0x092B
/-- URMS_HC_1 -/
abbrev pURMS_HC_1 : Nat := 0x092C
/-- URMS_HC_2 -/
abbrev pURMS_HC_2 : Nat := 0x092D
/-- URMS_HC_3 -/
abbrev pURMS_HC_3 : Nat := 0x092E
/-- EA_IMP -/
abbrev pEA_IMP : Nat := 0x0930
/-- EA_EXP -/
abbrev pEA_EXP : Nat := 0x0931
/-- ER_Q1 -/
abbrev pER_Q1 : Nat := 0x0932
/-- ER_Q2 -/
abbrev pER_Q2 : Nat := 0x0933
/-- ER_Q3 -/
abbrev pER_Q3 : Nat := 0x0934
/-- ER_Q4 -/
abbrev pER_Q4 : Nat := 0x0935
/-- ES_IMP -/
abbrev pES_IMP : Nat := 0x0936
/-- ES_EXP -/
abbrev pES_EXP : Nat := 0x0937
/-- WRAP_0 -/
abbrev pWRAP_0 : Nat := 0x0938
/-- WRAP_1 -/
abbrev pWRAP_1 : Nat := 0x0939
/-- WRAP_2 -/
abbrev pWRAP_2 : Nat := 0x093A
/-- WRAP_3 -/
abbrev pWRAP_3 : Nat := 0x093B
/-- WRAP_4 -/
abbrev pWRAP_4 : Nat := 0x093C
/-- WRAP_5 -/
abbrev pWRAP_5 : Nat := 0x093D
/-- WRAP_6 -/
abbrev pWRAP_6 : Nat := 0x093E
/-- WRAP_7 -/
abbrev pWRAP_7 : Nat := 0x093F
/-- METER_FLAGS -/
abbrev pMETER_FLAGS : Nat := 0x0940
/-- LAST_SAVE_TIME -/
abbrev pLAST_SAVE_TIME : Nat := 0x0941
/-- METER_LOST_TIME -/
abbrev pMETER_LOST_TIME : Nat := 0x0942
/-- TRIP_EA_IMP -/
abbrev pTRIP_EA_IMP : Nat := 0x0943
/-- TRIP_EA_EXP -/
abbrev pTRIP_EA_EXP : Nat := 0x0944
/-- TRIP_DURATION -/
abbrev pTRIP_DURATION : Nat := 0x0945
/-- METER_GAP_TIME -/
abbrev pMETER_GAP_TIME : Nat := 0x0946
/-- CAL_STATE -/
abbrev pCAL_STATE : Nat := 0x0950
/-- CAL_GAIN_0 -/
abbrev pCAL_GAIN_0 : Nat := 0x0951
/-- CAL_GAIN_1 -/
abbrev pCAL_GAIN_1 : Nat := 0x0952
/-- CAL_GAIN_2 -/
abbrev pCAL_GAIN_2 : Nat := 0x0953
/-- CAL_GAIN_3 -/
abbrev pCAL_GAIN_3 : Nat := 0x0954
/-- CAL_GAIN_4 -/
abbrev pCAL_GAIN_4 : Nat := 0x0955
/-- CAL_GAIN_5 -/
abbrev pCAL_GAIN_5 : Nat := 0x0956
/-- CAL_GAIN_6 -/
abbrev pCAL_GAIN_6 : Nat := 0x0957
/-- CAL_PHASE_1 -/
abbrev pCAL_PHASE_1 : Nat := 0x0958
/-- CAL_PHASE_2 -/
abbrev pCAL_PHASE_2 : Nat := 0x0959
/-- CAL_PHASE_3 -/
abbrev pCAL_PHASE_3 : Nat := 0x095A
/-- CAL_OFFSET_0 -/
abbrev pCAL_OFFSET_0 : Nat := 0x095B
/-- CAL_OFFSET_1 -/
abbrev pCAL_OFFSET_1 : Nat := 0x095C
/-- CAL_OFFSET_2 -/
abbrev pCAL_OFFSET_2 : Nat := 0x095D
/-- CAL_OFFSET_3 -/
abbrev pCAL_OFFSET_3 : Nat := 0x095E
/-- CAL_OFFSET_4 -/
abbrev pCAL_OFFSET_4 : Nat := 0x095F
/-- CAL_OFFSET_5 -/
abbrev pCAL_OFFSET_5 : Nat := 0x0960
/-- CAL_OFFSET_6 -/
abbrev pCAL_OFFSET_6 : Nat := 0x0961
/-- SAG_TABLE -/
abbrev pSAG_TABLE : Nat := 0x0970
/-- SWELL_TABLE -/
abbrev pSWELL_TABLE : Nat := 0x0971
/-- INTR_TABLE -/
abbrev pINTR_TABLE : Nat := 0x0972
/-- RECORD_FLUSH -/
abbrev pRECORD_FLUSH : Nat := 0x0A00
/-- SCRUB_PERIOD -/
abbrev pSCRUB_PERIOD : Nat := 0x0A01
/-- USER_SOURCE_11 -/
abbrev pUSER_SOURCE_11 : Nat := 0x0A02
/-- USER_SOURCE_12 -/
abbrev pUSER_SOURCE_12 : Nat := 0x0A03
/-- USER_SOURCE_13 -/
abbrev pUSER_SOURCE_13 : Nat := 0x0A04
/-- USER_SOURCE_14 -/
abbrev pUSER_SOURCE_14 : Nat := 0x0A05
/-- USER_PERIOD_11 -/
abbrev pUSER_PERIOD_11 : Nat := 0x0A06
/-- USER_PERIOD_12 -/
abbrev pUSER_PERIOD_12 : Nat := 0x0A07
/-- USER_PERIOD_13 -/
abbrev pUSER_PERIOD_13 : Nat := 0x0A08
/-- USER_PERIOD_14 -/
abbrev pUSER_PERIOD_14 : Nat := 0x0A09
/-- HIST_EDGES_T0 -/
abbrev pHIST_EDGES_T0 : Nat := 0x0A20
/-- HIST_EDGES_T1 -/
abbrev pHIST_EDGES_T1 : Nat := 0x0A21
/-- HIST_EDGES_T2 -/
abbrev pHIST_EDGES_T2 : Nat := 0x0A22
/-- HIST_EDGES_T3 -/
abbrev pHIST_EDGES_T3 : Nat := 0x0A23
/-- HIST_EDGES_T4 -/
abbrev pHIST_EDGES_T4 : Nat := 0x0A24
/-- HIST_EDGES_T5 -/
abbrev pHIST_EDGES_T5 : Nat := 0x0A25
/-- HIST_EDGES_T6 -/
abbrev pHIST_EDGES_T6 : Nat := 0x0A26
/-- RECORD_SEQ -/
abbrev pRECORD_SEQ : Nat := 0x0A40
/-- DIRTY_RECORDS -/
abbrev pDIRTY_RECORDS : Nat := 0x0A41
/-- QUEUE_DROPPED -/
abbrev pQUEUE_DROPPED : Nat := 0x0A42
/-- FLUSH_COUNT -/
abbrev pFLUSH_COUNT : Nat := 0x0A43
/-- LAST_FLUSH_TIME -/
abbrev pLAST_FLUSH_TIME : Nat := 0x0A44
/-- SCRUB_PROGRESS -/
abbrev pSCRUB_PROGRESS : Nat := 0x0A45
/-- SCRUB_CORRECTED -/
abbrev pSCRUB_CORRECTED : Nat := 0x0A46
/-- SCRUB_UNCORRECTABLE -/
abbrev pSCRUB_UNCORRECTABLE : Nat := 0x0A47
/-- SCRUB_LAST_BAD_ADDR -/
abbrev pSCRUB_LAST_BAD_ADDR : Nat := 0x0A48
/-- RECORDS_LOST_AT_START -/
abbrev pRECORDS_LOST_AT_START : Nat := 0x0A49
/-- HOST_KEEPALIVE -/
abbrev pHOST_KEEPALIVE : Nat := 0x0D00
/-- EVT_MASK -/
abbrev pEVT_MASK : Nat := 0x0D01
/-- HOST_STATE -/
abbrev pHOST_STATE : Nat := 0x0D02
/-- HOST_PACKETS -/
abbrev pHOST_PACKETS : Nat := 0x0D10
/-- HOST_BAD_CRC -/
abbrev pHOST_BAD_CRC : Nat := 0x0D11
/-- HOST_TRUNCATED -/
abbrev pHOST_TRUNCATED : Nat := 0x0D12
/-- HOST_STALLS -/
abbrev pHOST_STALLS : Nat := 0x0D13
/-- HOST_IGNORED -/
abbrev pHOST_IGNORED : Nat := 0x0D14
/-- HOST_REPLY_LOST -/
abbrev pHOST_REPLY_LOST : Nat := 0x0D15
/-- EVT_QUEUED -/
abbrev pEVT_QUEUED : Nat := 0x0D16
/-- EVT_DROPPED -/
abbrev pEVT_DROPPED : Nat := 0x0D17
/-- KEEPALIVE_LEFT -/
abbrev pKEEPALIVE_LEFT : Nat := 0x0D18
/-- SLEEP_MAX_STATE -/
abbrev pSLEEP_MAX_STATE : Nat := 0x0B00
/-- SLEEP_GUARD -/
abbrev pSLEEP_GUARD : Nat := 0x0B01
/-- SLEEP_IDLE_DELAY -/
abbrev pSLEEP_IDLE_DELAY : Nat := 0x0B02
/-- DOOR_RECHECK_PERIOD -/
abbrev pDOOR_RECHECK_PERIOD : Nat := 0x0B03
/-- POWER_STATE -/
abbrev pPOWER_STATE : Nat := 0x0B10
/-- VIN -/
abbrev pVIN : Nat := 0x0B11
/-- VIN_MIN -/
abbrev pVIN_MIN : Nat := 0x0B12
/-- VIN_MAX -/
abbrev pVIN_MAX : Nat := 0x0B13
/-- INPUT_POWER -/
abbrev pINPUT_POWER : Nat := 0x0B14
/-- LOGIC_TEMP -/
abbrev pLOGIC_TEMP : Nat := 0x0B15
/-- NEXT_EVENT -/
abbrev pNEXT_EVENT : Nat := 0x0B16
/-- LAST_WAKE_SOURCE -/
abbrev pLAST_WAKE_SOURCE : Nat := 0x0B17
/-- LAST_SAVE_DURATION -/
abbrev pLAST_SAVE_DURATION : Nat := 0x0B18
/-- LAST_SAVE_VIN -/
abbrev pLAST_SAVE_VIN : Nat := 0x0B19
/-- HOLDUP_SHORT_COUNT -/
abbrev pHOLDUP_SHORT_COUNT : Nat := 0x0B1A
/-- TIME_RUN -/
abbrev pTIME_RUN : Nat := 0x0B1B
/-- TIME_IDLE -/
abbrev pTIME_IDLE : Nat := 0x0B1C
/-- TIME_DOZE -/
abbrev pTIME_DOZE : Nat := 0x0B1D
/-- TIME_PARK -/
abbrev pTIME_PARK : Nat := 0x0B1E
/-- FW_MAKER_REQUIRED -/
abbrev pFW_MAKER_REQUIRED : Nat := 0x0C00
/-- FW_MAKER_KEY -/
abbrev pFW_MAKER_KEY : Nat := 0x0C01
/-- ROLLBACK_COUNTER -/
abbrev pROLLBACK_COUNTER : Nat := 0x0C02
/-- BOOT_COUNT -/
abbrev pBOOT_COUNT : Nat := 0x0C03
/-- BOOT_FAIL_COUNT -/
abbrev pBOOT_FAIL_COUNT : Nat := 0x0C04
/-- FW_STATE -/
abbrev pFW_STATE : Nat := 0x0C05
/-- FW_KIND -/
abbrev pFW_KIND : Nat := 0x0C06
/-- FW_RECEIVED -/
abbrev pFW_RECEIVED : Nat := 0x0C07
/-- FW_VERSION_KERNEL -/
abbrev pFW_VERSION_KERNEL : Nat := 0x0C10
/-- FW_VERSION_AP1 -/
abbrev pFW_VERSION_AP1 : Nat := 0x0C11
/-- FW_VERSION_AP2 -/
abbrev pFW_VERSION_AP2 : Nat := 0x0C12
/-- FW_VERSION_FIELD -/
abbrev pFW_VERSION_FIELD : Nat := 0x0C13
/-- FW_LEVEL_KERNEL -/
abbrev pFW_LEVEL_KERNEL : Nat := 0x0C14
/-- FW_LEVEL_AP1 -/
abbrev pFW_LEVEL_AP1 : Nat := 0x0C15
/-- FW_LEVEL_AP2 -/
abbrev pFW_LEVEL_AP2 : Nat := 0x0C16
/-- FW_LEVEL_FIELD -/
abbrev pFW_LEVEL_FIELD : Nat := 0x0C17
/-- FW_SLOT_KERNEL -/
abbrev pFW_SLOT_KERNEL : Nat := 0x0C18
/-- FW_SLOT_AP1 -/
abbrev pFW_SLOT_AP1 : Nat := 0x0C19
/-- FW_SLOT_AP2 -/
abbrev pFW_SLOT_AP2 : Nat := 0x0C1A
/-- FW_SLOT_FIELD -/
abbrev pFW_SLOT_FIELD : Nat := 0x0C1B
/-- FW_DIGEST_KERNEL -/
abbrev pFW_DIGEST_KERNEL : Nat := 0x0C20
/-- FW_DIGEST_AP1 -/
abbrev pFW_DIGEST_AP1 : Nat := 0x0C21
/-- FW_DIGEST_AP2 -/
abbrev pFW_DIGEST_AP2 : Nat := 0x0C22
/-- FW_DIGEST_FIELD -/
abbrev pFW_DIGEST_FIELD : Nat := 0x0C23
/-- ATTEST_COUNT -/
abbrev pATTEST_COUNT : Nat := 0x0C30
/-- STARTUP_STEP -/
abbrev pSTARTUP_STEP : Nat := 0x0040
/-- STARTUP_BLOCK -/
abbrev pSTARTUP_BLOCK : Nat := 0x0041
/-- READY_TIME -/
abbrev pREADY_TIME : Nat := 0x0042
/-- RESTORED_TRIPS -/
abbrev pRESTORED_TRIPS : Nat := 0x0043
/-- IN_SERVICE -/
abbrev pIN_SERVICE : Nat := 0x0044
/-- REACTION_CLASS -/
abbrev pREACTION_CLASS : Nat := 0x0045

/-- Rows of the IDs 0x0000 to 0x00FF, part 1. -/
def ptab00_0 : List PRow := [
  ⟨0x0001, 1, 4, false, 1, [(0, 4294967295)], 1, false, [], .ro, .root⟩ /- FRAME_COUNT -/,
  ⟨0x0002, 1, 8, false, 1, [(0, 18446744073709551615)], 1, false, [], .ro, .root⟩ /- TIMESTAMP -/,
  ⟨0x0003, 1, 8, true, 1, [((-9223372036854775808), 9223372036854775807)], 1, false, [], .ro, .root⟩ /- WALL_OFFSET -/,
  ⟨0x0004, 1, 1, false, 1, [(0, 1)], 1, false, [], .ro, .root⟩ /- WALL_VALID -/,
  ⟨0x0005, 1, 2, false, 1, [(0, 3072)], 1, false, [3072], .ro, .root⟩ /- GROUP_STORE_FREE -/,
  ⟨0x0010, 1, 1, false, 1, [(0, 2)], 1, false, [2], .rw, .root⟩ /- BUDGET_POLICY -/,
  ⟨0x0011, 1, 1, false, 1, [(0, 100)], 1, false, [50], .rw, .root⟩ /- BUDGET_MIX_SPOOL -/,
  ⟨0x0020, 3, 4, false, 1, [(0, 4294967295)], 1, false, [], .ro, .root⟩ /- OVR_SC_A, OVR_SC_B, OVR_SC_C -/,
  ⟨0x0023, 2, 4, false, 1, [(0, 4294967295)], 1, false, [], .ro, .root⟩ /- OVR_AP1, OVR_AP2 -/,
  ⟨0x0025, 1, 4, false, 1, [(0, 4294967295)], 1, false, [], .ro, .root⟩ /- SPEC_DISCARDS -/,
  ⟨0x0030, 8, 2, true, 1, [((-32768), 32767)], 1, false, [], .ro, .root⟩ /- CLK_DEV_SYS, CLK_DEV_APP1, CLK_DEV_APP2, CLK_DEV_SAFE_A, CLK_DEV_SAFE_B, CLK_DEV_SAFE_C, CLK_DEV_DRV, CLK_DEV_MTR -/,
  ⟨0x0038, 2, 2, true, 1, [((-32768), 32767)], 1, false, [], .ro, .root⟩ /- CLK_DEV_FLD, CLK_DEV_AON -/,
  ⟨0x0040, 1, 1, false, 1, [(1, 7)], 1, false, [1], .ro, .root⟩ /- STARTUP_STEP -/,
  ⟨0x0041, 1, 1, false, 1, [(0, 255)], 1, false, [], .ro, .root⟩ /- STARTUP_BLOCK -/,
  ⟨0x0042, 1, 4, false, 1, [(0, 4294967295)], 1, false, [], .ro, .root⟩ /- READY_TIME -/,
  ⟨0x0043, 1, 1, false, 1, [(0, 11)], 1, false, [], .ro, .root⟩ /- RESTORED_TRIPS -/,
  ⟨0x0044, 1, 1, false, 1, [(0, 1)], 1, false, [], .ro, .root⟩ /- IN_SERVICE -/,
  ⟨0x0045, 1, 1, false, 1, [(0, 5), (255, 255)], 1, false, [255], .ro, .root⟩ /- REACTION_CLASS -/]

/-- All rows of the IDs 0x0000 to 0x00FF. -/
def ptab00 : List PRow := ptab00_0

/-- Rows of the IDs 0x0100 to 0x01FF, part 1. -/
def ptab01_0 : List PRow := [
  ⟨0x0180, 1, 4, true, 1, [((-5000000), 1005000000)], 1, false, [], .cab, .landing⟩ /- SILL_LEVEL -/,
  ⟨0x0181, 1, 4, true, 1, [((-5000000), 1005000000)], 1, false, [], .cab, .landing⟩ /- DZ_LOW -/,
  ⟨0x0182, 1, 4, true, 1, [((-5000000), 1005000000)], 1, false, [], .cab, .landing⟩ /- DZ_HIGH -/,
  ⟨0x0183, 1, 4, true, 1, [((-5000000), 1005000000)], 1, false, [], .cab, .landing⟩ /- DZ_MID_UP -/,
  ⟨0x0184, 1, 4, true, 1, [((-5000000), 1005000000)], 1, false, [], .cab, .landing⟩ /- DZ_MID_DOWN -/,
  ⟨0x0100, 1, 1, false, 1, [(0, 1)], 1, false, [], .cab, .root⟩ /- MOUNT -/,
  ⟨0x0102, 1, 2, false, 1, [(2, 256)], 1, false, [2], .cab, .root⟩ /- N_LANDINGS -/,
  ⟨0x0110, 1, 1, false, 1, [(1, 2)], 1, false, [1], .cab, .root⟩ /- TAPE_READERS -/,
  ⟨0x0111, 1, 1, false, 1, [(16, 32)], 1, false, [25], .cab, .root⟩ /- TAPE_BITS -/,
  ⟨0x0112, 1, 4, false, 1, [(100, 1000000)], 1, false, [50000], .cab, .root⟩ /- TAPE_LSB -/,
  ⟨0x0113, 1, 1, false, 1, [(0, 3)], 1, false, [3], .cab, .root⟩ /- TAPE_CLOCK -/,
  ⟨0x0114, 1, 1, false, 1, [(0, 1)], 1, false, [1], .cab, .root⟩ /- TAPE_CRC -/,
  ⟨0x0115, 1, 1, false, 1, [(0, 4)], 1, false, [2], .cab, .root⟩ /- TAPE_STATUS_BITS -/,
  ⟨0x0116, 1, 1, false, 1, [(0, 1)], 1, false, [], .cab, .root⟩ /- TAPE_DIR -/,
  ⟨0x0117, 1, 2, false, 1, [(0, 5000)], 1, false, [100], .cab, .root⟩ /- TAPE1_LATENCY -/,
  ⟨0x0118, 1, 2, false, 1, [(0, 5000)], 1, false, [100], .cab, .root⟩ /- TAPE2_LATENCY -/,
  ⟨0x0119, 1, 4, false, 1, [(1000, 50000)], 1, false, [5000], .cab, .root⟩ /- TAPE_GATE -/,
  ⟨0x011A, 1, 4, false, 1, [(200, 10000)], 1, false, [1000], .cab, .root⟩ /- TAPE_PAIR_TOL -/,
  ⟨0x011B, 1, 4, true, 1, [((-2147483648), 2147483647)], 1, false, [], .cab, .root⟩ /- TAPE_ORIGIN -/,
  ⟨0x011C, 1, 4, true, 1, [((-2147483648), 2147483647)], 1, false, [], .cab, .root⟩ /- TAPE2_OFFSET -/,
  ⟨0x0120, 1, 1, false, 1, [(1, 2)], 1, false, [1], .cab, .root⟩ /- ENC_TYPE -/,
  ⟨0x0121, 1, 2, false, 1, [(256, 16384)], 1, false, [2048], .cab, .root⟩ /- ENC_LINES -/,
  ⟨0x0122, 1, 4, false, 1, [(1000000, 4000000000)], 1, false, [1256637061], .cab, .root⟩ /- ENC_NM_PER_REV -/,
  ⟨0x0123, 1, 1, false, 1, [(0, 1)], 1, false, [], .cab, .root⟩ /- ENC_DIR -/,
  ⟨0x0130, 1, 1, false, 1, [(0, 5)], 1, false, [4], .cab, .root⟩ /- ACC_AXIS -/,
  ⟨0x0131, 1, 4, true, 1, [(9000000, 10600000)], 1, false, [9806650], .ro, .root⟩ /- ACC_G_CAL -/,
  ⟨0x0140, 1, 4, true, 1, [((-2147483648), 2147483647)], 1, false, [], .ro, .root⟩ /- FUSE_POS -/,
  ⟨0x0141, 1, 4, true, 1, [((-2147483648), 2147483647)], 1, false, [], .ro, .root⟩ /- FUSE_VEL -/,
  ⟨0x0142, 1, 4, true, 1, [((-2147483648), 2147483647)], 1, false, [], .ro, .root⟩ /- FUSE_ACC -/,
  ⟨0x0143, 1, 4, false, 1, [(0, 4294967295)], 1, false, [], .ro, .root⟩ /- FUSE_SIGMA_P -/,
  ⟨0x0144, 1, 1, false, 1, [(0, 3)], 1, false, [], .ro, .root⟩ /- POS_QUALITY -/,
  ⟨0x0145, 1, 4, true, 1, [((-50000), 50000)], 1, false, [], .ro, .root⟩ /- ENC_SCALE -/,
  ⟨0x0146, 1, 4, true, 1, [((-2147483648), 2147483647)], 1, false, [], .ro, .root⟩ /- ACC_BIAS -/,
  ⟨0x0147, 1, 4, true, 1, [((-2147483648), 2147483647)], 1, false, [], .ro, .root⟩ /- STRETCH -/,
  ⟨0x0148, 1, 4, true, 1, [((-2147483648), 2147483647)], 1, false, [-2147483648], .ro, .root⟩ /- LEVEL_ERROR -/,
  ⟨0x0149, 3, 4, true, 1, [((-2147483648), 2147483647)], 1, false, [], .ro, .root⟩ /- CORE_POS_A, CORE_POS_B, CORE_POS_C -/,
  ⟨0x0150, 1, 4, false, 1, [(50, 2000)], 1, false, [200], .cab, .root⟩ /- CORE_TOL_P -/,
  ⟨0x0151, 1, 4, false, 1, [(500, 20000)], 1, false, [2000], .cab, .root⟩ /- CORE_TOL_V -/,
  ⟨0x0152, 1, 4, false, 1, [(50000, 1000000)], 1, false, [200000], .cab, .root⟩ /- SLIP_LIMIT -/,
  ⟨0x0153, 1, 2, false, 1, [(5, 200)], 1, false, [20], .cab, .root⟩ /- SLIP_TIME -/]

/-- Rows of the IDs 0x0100 to 0x01FF, part 2. -/
def ptab01_1 : List PRow := [
  ⟨0x0160, 1, 4, false, 1, [(50000, 1000000)], 1, false, [300000], .cab, .root⟩ /- LEARN_SPEED -/,
  ⟨0x0161, 1, 4, false, 1, [(50000, 300000)], 1, false, [300000], .cab, .root⟩ /- HOME_SPEED -/,
  ⟨0x0162, 1, 4, false, 1, [(500, 10000)], 1, false, [2000], .cab, .root⟩ /- HOME_TOL -/,
  ⟨0x0164, 1, 4, false, 1, [(1000, 20000)], 1, false, [5000], .cab, .root⟩ /- RECOVER_TOL -/,
  ⟨0x0165, 1, 4, true, 1, [((-100000), 100000)], 1, false, [], .cab, .root⟩ /- DZ_SILL_OFFSET -/,
  ⟨0x0166, 1, 1, false, 1, [(0, 5)], 1, false, [], .ro, .root⟩ /- LEARN_STATE -/]

/-- All rows of the IDs 0x0100 to 0x01FF. -/
def ptab01 : List PRow := ptab01_0 ++ ptab01_1

/-- Rows of the IDs 0x0200 to 0x02FF, part 1. -/
def ptab02_0 : List PRow := [
  ⟨0x0200, 1, 4, false, 1, [(250000, 20000000)], 1, false, [1000000], .cab, .root⟩ /- V_RATED -/,
  ⟨0x0201, 1, 4, false, 1, [(100000, 2000000)], 1, false, [1000000], .cab, .root⟩ /- A_MAX -/,
  ⟨0x0202, 1, 4, false, 1, [(200000, 4000000)], 1, false, [2000000], .cab, .root⟩ /- J_MAX -/,
  ⟨0x0208, 1, 4, false, 1, [(500000, 3000000)], 1, false, [2500000], .cab, .root⟩ /- ERAMP_DEC -/,
  ⟨0x0209, 1, 4, false, 1, [(1000000, 20000000)], 1, false, [10000000], .cab, .root⟩ /- ERAMP_JERK -/,
  ⟨0x0210, 1, 4, false, 1, [(50000, 630000)], 1, false, [300000], .cab, .root⟩ /- INSP_SPEED -/,
  ⟨0x0211, 1, 4, false, 1, [(50000, 300000)], 1, false, [300000], .cab, .root⟩ /- EVAC_SPEED -/,
  ⟨0x0212, 1, 4, false, 1, [(10000, 100000)], 1, false, [50000], .cab, .root⟩ /- LEVEL_SPEED -/,
  ⟨0x0213, 1, 4, false, 1, [(200, 5000)], 1, false, [1000], .cab, .root⟩ /- LEVEL_TOL -/,
  ⟨0x0214, 1, 2, false, 1, [(50, 1000)], 1, false, [300], .still, .root⟩ /- LEVEL_SETTLE -/,
  ⟨0x0215, 1, 1, false, 1, [(0, 3)], 1, false, [2], .still, .root⟩ /- LEVEL_RETRIES -/,
  ⟨0x0216, 1, 4, false, 1, [(1000, 20000)], 1, false, [10000], .cab, .root⟩ /- LEVEL_ACCEPT -/,
  ⟨0x0218, 1, 1, false, 1, [(0, 1)], 1, false, [1], .cab, .root⟩ /- RELEVEL_ENABLE -/,
  ⟨0x0219, 1, 4, false, 1, [(2000, 20000)], 1, false, [5000], .cab, .root⟩ /- RELEVEL_START -/,
  ⟨0x021B, 1, 2, false, 1, [(50, 2000)], 1, false, [200], .cab, .root⟩ /- RELEVEL_DELAY -/,
  ⟨0x021C, 1, 4, false, 1, [(10000, 300000)], 1, false, [50000], .cab, .root⟩ /- RELEVEL_SPEED -/,
  ⟨0x0220, 1, 1, false, 1, [(0, 1)], 1, false, [], .cab, .root⟩ /- DRV_PORT -/,
  ⟨0x0221, 1, 2, false, 1, [(0, 2047)], 1, false, [64], .cab, .root⟩ /- DRV_SP_ID -/,
  ⟨0x0222, 1, 2, false, 1, [(0, 2047)], 1, false, [65], .cab, .root⟩ /- DRV_FB_ID -/,
  ⟨0x0223, 1, 1, false, 1, [(1, 254)], 1, false, [16], .cab, .root⟩ /- DRV_SRC_ID -/,
  ⟨0x0224, 1, 1, false, 1, [(1, 254)], 1, false, [32], .cab, .root⟩ /- DRV_FB_SRC -/,
  ⟨0x0225, 1, 1, false, 1, [(5, 11)], 1, false, [5], .cab, .root⟩ /- DRV_SP_WINDOW -/,
  ⟨0x0226, 1, 1, false, 1, [(8, 15)], 1, false, [12], .cab, .root⟩ /- DRV_FB_WINDOW -/,
  ⟨0x0227, 1, 2, false, 1, [(1000, 4000)], 250, false, [1000], .cab, .root⟩ /- DRV_LEAD -/,
  ⟨0x0228, 1, 1, false, 1, [(2, 20)], 1, false, [3], .cab, .root⟩ /- DRV_FB_TIMEOUT -/,
  ⟨0x0229, 1, 2, false, 1, [(200, 5000)], 1, false, [1500], .cab, .root⟩ /- DRV_START_TIME -/,
  ⟨0x0230, 1, 4, false, 1, [(50000, 2000000)], 1, false, [300000], .cab, .root⟩ /- TRACK_TOL_V -/,
  ⟨0x0231, 1, 4, false, 1, [(10000, 1000000)], 1, false, [200000], .cab, .root⟩ /- TRACK_TOL_P -/,
  ⟨0x0232, 1, 2, false, 1, [(20, 2000)], 1, false, [200], .cab, .root⟩ /- TRACK_TIME -/,
  ⟨0x0240, 1, 1, false, 1, [(0, 7)], 1, false, [], .ro, .root⟩ /- MOTION_MODE -/,
  ⟨0x0241, 1, 2, false, 1, [(0, 65535)], 1, false, [], .ro, .root⟩ /- PLAN_ID -/,
  ⟨0x0242, 1, 2, false, 1, [(0, 65535)], 1, false, [], .ro, .root⟩ /- PLAN_PENDING -/,
  ⟨0x0243, 1, 4, true, 1, [((-2147483648), 2147483647)], 1, false, [], .ro, .root⟩ /- SP_POS -/,
  ⟨0x0244, 1, 4, true, 1, [((-2147483648), 2147483647)], 1, false, [], .ro, .root⟩ /- SP_VEL -/,
  ⟨0x0245, 1, 4, true, 1, [((-2147483648), 2147483647)], 1, false, [], .ro, .root⟩ /- SP_ACC -/,
  ⟨0x0246, 1, 4, false, 1, [(0, 20000000)], 1, false, [], .ro, .root⟩ /- V_CAP -/,
  ⟨0x0247, 1, 4, false, 1, [(0, 4294967295)], 1, false, [], .ro, .root⟩ /- STOP_DIST -/,
  ⟨0x0248, 1, 4, false, 1, [(0, 4294967295)], 1, false, [], .ro, .root⟩ /- PLAN_REJECTS -/,
  ⟨0x0249, 1, 1, false, 1, [(0, 4)], 1, false, [], .ro, .root⟩ /- DRV_STATE -/]

/-- All rows of the IDs 0x0200 to 0x02FF. -/
def ptab02 : List PRow := ptab02_0

/-- Rows of the IDs 0x0300 to 0x03FF, part 1. -/
def ptab03_0 : List PRow := [
  ⟨0x0300, 1, 1, false, 1, [(0, 2)], 1, false, [1], .still, .root⟩ /- SCHED_MODE -/,
  ⟨0x0301, 1, 1, false, 1, [(1, 8)], 1, false, [8], .rw, .root⟩ /- SPOOL_DEPTH -/,
  ⟨0x0302, 1, 4, false, 1, [(0, 20000000)], 1, false, [3000000], .rw, .root⟩ /- STOP_KEEP_DIST -/,
  ⟨0x0303, 1, 2, false, 1, [(100, 5000)], 1, false, [500], .rw, .root⟩ /- GROUP_HB_TIMEOUT -/,
  ⟨0x0304, 1, 1, false, 1, [(0, 1)], 1, false, [1], .rw, .root⟩ /- GROUP_FALLBACK -/,
  ⟨0x0305, 1, 2, false, 1, [(0, 255), (65535, 65535)], 1, false, [65535], .rw, .root⟩ /- PARK_LANDING -/,
  ⟨0x0306, 1, 2, false, 1, [(10, 3600)], 1, false, [300], .rw, .root⟩ /- PARK_DELAY -/,
  ⟨0x0307, 1, 2, false, 1, [(0, 255), (65535, 65535)], 1, false, [65535], .rw, .root⟩ /- HOME_FLOOR -/,
  ⟨0x0308, 1, 2, false, 1, [(1000, 30000)], 1, false, [5000], .rw, .root⟩ /- SCHED_STALL_TIME -/,
  ⟨0x0309, 1, 1, false, 1, [(0, 1)], 1, false, [], .rw, .root⟩ /- SCHED_HOLD -/,
  ⟨0x0310, 1, 1, false, 1, [(0, 2)], 1, false, [], .ro, .root⟩ /- SCHED_DIR -/,
  ⟨0x0311, 1, 2, false, 1, [(0, 255), (65535, 65535)], 1, false, [65535], .ro, .root⟩ /- COMMIT_TARGET -/,
  ⟨0x0312, 1, 2, false, 1, [(0, 255), (65535, 65535)], 1, false, [65535], .ro, .root⟩ /- EXIT_LANDING -/,
  ⟨0x0313, 1, 2, false, 1, [(0, 255), (65535, 65535)], 1, false, [65535], .ro, .root⟩ /- NEXT_STOP -/,
  ⟨0x0314, 1, 4, false, 1, [(0, 4294967295)], 1, false, [], .ro, .root⟩ /- SPEC_EPOCH -/,
  ⟨0x0315, 1, 4, false, 1, [(0, 4294967295)], 1, false, [], .ro, .root⟩ /- SPOOL_HITS -/,
  ⟨0x0316, 1, 4, false, 1, [(0, 4294967295)], 1, false, [], .ro, .root⟩ /- SPOOL_MISSES -/,
  ⟨0x0317, 1, 2, false, 1, [(0, 1536)], 1, false, [], .ro, .root⟩ /- CALLS_OPEN -/,
  ⟨0x0380, 1, 1, false, 1, [(1, 3)], 1, false, [1], .cab, .landing⟩ /- SIDES_SERVED -/,
  ⟨0x0381, 1, 1, false, 1, [(0, 1)], 1, false, [1], .rw, .landing⟩ /- CAR_CALL_EN -/,
  ⟨0x0382, 1, 1, false, 1, [(0, 1)], 1, false, [1], .rw, .landing⟩ /- HALL_CALL_EN -/,
  ⟨0x0383, 1, 2, false, 1, [(0, 65535)], 1, false, [], .ro, .landing⟩ /- CALL_STATE -/]

/-- All rows of the IDs 0x0300 to 0x03FF. -/
def ptab03 : List PRow := ptab03_0

/-- Rows of the IDs 0x0400 to 0x04FF, part 1. -/
def ptab04_0 : List PRow := [
  ⟨0x0400, 1, 1, false, 1, [(0, 2)], 1, false, [1], .still, .side⟩ /- DOOR_PWM_FREQ -/,
  ⟨0x0401, 1, 2, false, 1, [(200, 2000)], 1, false, [500], .still, .side⟩ /- DOOR_DEADTIME -/,
  ⟨0x0402, 1, 2, false, 1, [(500, 20000)], 1, false, [5000], .still, .side⟩ /- DOOR_I_SCALE -/,
  ⟨0x0403, 1, 2, false, 1, [(500, 30000)], 1, false, [6000], .still, .side⟩ /- DOOR_I_TRIP -/,
  ⟨0x0404, 1, 2, false, 1, [(200, 15000)], 1, false, [2500], .still, .side⟩ /- DOOR_I_CONT -/,
  ⟨0x0405, 1, 2, false, 1, [(500, 25000)], 1, false, [5000], .still, .side⟩ /- DOOR_I_PEAK -/,
  ⟨0x0406, 1, 2, false, 1, [(100, 50000)], 1, false, [8000], .still, .side⟩ /- DOOR_KF -/,
  ⟨0x0407, 1, 1, false, 1, [(1, 32)], 1, false, [4], .still, .side⟩ /- DOOR_POLE_PAIRS -/,
  ⟨0x0408, 1, 1, false, 1, [(0, 1)], 1, false, [], .still, .side⟩ /- DOOR_FB_TYPE -/,
  ⟨0x0409, 1, 4, false, 1, [(1000, 10000000)], 1, false, [200000], .still, .side⟩ /- DOOR_NM_PER_COUNT -/,
  ⟨0x040A, 1, 1, false, 1, [(0, 1)], 1, false, [], .still, .side⟩ /- DOOR_DIR -/,
  ⟨0x0410, 1, 2, false, 1, [(1000, 10000)], 1, false, [10000], .cab, .side⟩ /- E_MAX -/,
  ⟨0x0411, 1, 2, false, 1, [(50, 150)], 1, false, [150], .cab, .side⟩ /- F_MAX -/,
  ⟨0x0412, 1, 1, false, 1, [(5, 50)], 1, false, [10], .cab, .side⟩ /- MASS_MARGIN -/,
  ⟨0x0413, 1, 2, false, 1, [(20, 150)], 1, false, [60], .cab, .side⟩ /- OBST_FORCE -/,
  ⟨0x0414, 1, 1, false, 1, [(8, 32)], 1, false, [8], .cab, .side⟩ /- OBST_TIME -/,
  ⟨0x0415, 1, 2, false, 1, [(2000, 20000)], 1, false, [8000], .cab, .side⟩ /- OBST_MASK -/,
  ⟨0x0416, 1, 2, false, 1, [(500, 10000)], 1, false, [4000], .cab, .side⟩ /- NUDGE_ENERGY -/,
  ⟨0x0417, 1, 1, false, 1, [(0, 2)], 1, false, [1], .cab, .side⟩ /- NUDGE_MODE -/,
  ⟨0x0418, 1, 2, false, 1, [(5, 300)], 1, false, [20], .cab, .side⟩ /- NUDGE_HOLD -/,
  ⟨0x0419, 1, 1, false, 1, [(0, 63), (255, 255)], 1, false, [255], .rw, .side⟩ /- NUDGE_CH -/,
  ⟨0x041A, 1, 2, false, 1, [(1000, 20000)], 1, false, [5000], .cab, .side⟩ /- CLOSED_TOL -/,
  ⟨0x0420, 1, 4, false, 1, [(100000, 1000000)], 1, false, [500000], .rw, .side⟩ /- OPEN_SPEED -/,
  ⟨0x0421, 1, 4, false, 1, [(200000, 2000000)], 1, false, [800000], .rw, .side⟩ /- OPEN_ACC -/,
  ⟨0x0422, 1, 4, false, 1, [(50000, 700000)], 1, false, [350000], .rw, .side⟩ /- CLOSE_SPEED -/,
  ⟨0x0423, 1, 4, false, 1, [(200000, 1500000)], 1, false, [500000], .rw, .side⟩ /- CLOSE_ACC -/,
  ⟨0x0424, 1, 4, false, 1, [(5000, 100000)], 1, false, [20000], .rw, .side⟩ /- CREEP_DIST -/,
  ⟨0x0425, 1, 4, false, 1, [(10000, 100000)], 1, false, [40000], .rw, .side⟩ /- CREEP_SPEED -/,
  ⟨0x0426, 1, 4, false, 1, [(300000, 3000000)], 1, false, [1000000], .rw, .side⟩ /- REOPEN_DEC -/,
  ⟨0x0427, 1, 2, false, 1, [(2000, 30000)], 1, false, [8000], .rw, .side⟩ /- DOOR_TIME_LIMIT -/,
  ⟨0x0428, 1, 2, false, 1, [(500, 60000)], 1, false, [2000], .rw, .side⟩ /- DWELL_CAR -/,
  ⟨0x0429, 1, 2, false, 1, [(500, 60000)], 1, false, [4000], .rw, .side⟩ /- DWELL_HALL -/,
  ⟨0x042A, 1, 2, false, 1, [(500, 60000)], 1, false, [1500], .rw, .side⟩ /- DWELL_REOPEN -/,
  ⟨0x042B, 1, 2, false, 1, [(10, 900)], 1, false, [120], .rw, .side⟩ /- HOLD_MAX -/,
  ⟨0x042C, 1, 1, false, 1, [(1, 20)], 1, false, [5], .rw, .side⟩ /- OBST_REPEAT_MAX -/,
  ⟨0x042D, 1, 1, false, 1, [(0, 1)], 1, false, [1], .rw, .side⟩ /- AUTO_LEARN -/,
  ⟨0x0430, 1, 1, false, 1, [(0, 8)], 1, false, [], .ro, .side⟩ /- DOOR_STATE -/,
  ⟨0x0431, 1, 4, true, 1, [((-2147483648), 2147483647)], 1, false, [], .ro, .side⟩ /- DOOR_POS -/,
  ⟨0x0432, 1, 4, true, 1, [((-2147483648), 2147483647)], 1, false, [], .ro, .side⟩ /- DOOR_VEL -/,
  ⟨0x0433, 1, 2, true, 1, [((-32768), 32767)], 1, false, [], .ro, .side⟩ /- DOOR_THRUST -/]

/-- Rows of the IDs 0x0400 to 0x04FF, part 2. -/
def ptab04_1 : List PRow := [
  ⟨0x0434, 1, 2, true, 1, [((-32768), 32767)], 1, false, [], .ro, .side⟩ /- DOOR_RESIDUAL -/,
  ⟨0x0435, 1, 2, false, 1, [(0, 65535)], 1, false, [], .ro, .side⟩ /- DOOR_KE -/,
  ⟨0x0436, 1, 4, false, 1, [(0, 1000000)], 1, false, [], .ro, .side⟩ /- DOOR_V_LIM -/,
  ⟨0x0437, 1, 4, false, 1, [(0, 4294967295)], 1, false, [], .ro, .side⟩ /- OBST_COUNT -/,
  ⟨0x0438, 1, 1, false, 1, [(0, 255)], 1, false, [], .ro, .side⟩ /- OBST_CONSEC -/,
  ⟨0x0439, 1, 2, false, 1, [(0, 750)], 1, false, [], .ro, .side⟩ /- DOOR_UDC -/,
  ⟨0x043A, 1, 1, false, 1, [(0, 100)], 1, false, [], .ro, .side⟩ /- DOOR_I2T -/,
  ⟨0x043B, 1, 4, false, 1, [(0, 4294967295)], 1, false, [], .ro, .side⟩ /- KE_EXCEED_COUNT -/,
  ⟨0x0480, 1, 1, false, 1, [(0, 1)], 1, false, [], .ro, .landing⟩ /- DOOR_LEARNED -/,
  ⟨0x0481, 1, 2, false, 1, [(200, 8000)], 1, false, [8000], .ro, .landing⟩ /- DOOR_MASS -/,
  ⟨0x0482, 1, 2, false, 1, [(0, 1000)], 1, false, [], .ro, .landing⟩ /- DOOR_FRIC_C -/,
  ⟨0x0483, 1, 2, false, 1, [(0, 5000)], 1, false, [], .ro, .landing⟩ /- DOOR_FRIC_V -/,
  ⟨0x0484, 1, 4, false, 1, [(200000, 3000000)], 1, false, [], .ro, .landing⟩ /- DOOR_WIDTH -/,
  ⟨0x0485, 1, 2, false, 16, [(0, 1200)], 1, false, [], .ro, .landing⟩ /- DOOR_CLOSER_MAP -/,
  ⟨0x0486, 1, 8, false, 1, [(0, 18446744073709551615)], 1, false, [], .ro, .landing⟩ /- DOOR_LEARN_TIME -/,
  ⟨0x0487, 1, 2, false, 1, [(0, 1000)], 1, false, [], .ro, .landing⟩ /- DOOR_FRIC_C_LEARNED -/,
  ⟨0x0488, 1, 4, false, 1, [(0, 4294967295)], 1, false, [], .ro, .landing⟩ /- DOOR_CYCLES -/]

/-- All rows of the IDs 0x0400 to 0x04FF. -/
def ptab04 : List PRow := ptab04_0 ++ ptab04_1

/-- Rows of the IDs 0x0500 to 0x05FF, part 1. -/
def ptab05_0 : List PRow := [
  ⟨0x0500, 1, 1, false, 1, [(0, 63), (255, 255)], 1, false, [255], .cab, .root⟩ /- RESET_CH -/,
  ⟨0x0501, 1, 4, false, 1, [(300000, 25000000)], 1, false, [1400000], .cab, .root⟩ /- OS_UP_TRIP -/,
  ⟨0x0502, 1, 4, false, 1, [(300000, 25000000)], 1, false, [1450000], .cab, .root⟩ /- OS_UP_SAFE -/,
  ⟨0x0503, 1, 4, false, 1, [(300000, 25000000)], 1, false, [1400000], .cab, .root⟩ /- OS_DN_TRIP -/,
  ⟨0x0504, 1, 4, false, 1, [(300000, 25000000)], 1, false, [1450000], .cab, .root⟩ /- OS_DN_SAFE -/,
  ⟨0x0505, 1, 4, false, 1, [(20000, 200000)], 1, false, [100000], .cab, .root⟩ /- OS_MODE_MARGIN -/,
  ⟨0x0506, 1, 2, false, 1, [(500, 2000)], 1, false, [2000], .cab, .root⟩ /- UCM_DIST -/,
  ⟨0x0507, 1, 4, false, 1, [(10000, 300000)], 1, false, [300000], .cab, .root⟩ /- BRIDGE_SPEED -/,
  ⟨0x0508, 1, 1, false, 1, [(0, 1)], 1, false, [], .cab, .root⟩ /- ADV_OPEN -/,
  ⟨0x0509, 1, 4, false, 1, [(100000, 800000)], 1, false, [500000], .cab, .root⟩ /- ADV_OPEN_SPEED -/,
  ⟨0x050A, 1, 1, false, 1, [(0, 2)], 1, false, [], .cab, .root⟩ /- LOCK_SOURCE -/,
  ⟨0x050B, 1, 2, false, 1, [(20, 1000)], 1, false, [100], .cab, .root⟩ /- LOCK_WD -/,
  ⟨0x050C, 1, 2, false, 1, [(10, 2000)], 1, false, [200], .cab, .root⟩ /- LOCK_DISAGREE_TIME -/,
  ⟨0x050D, 1, 4, false, 1, [(5000, 200000)], 1, false, [50000], .cab, .root⟩ /- TSL_POS_TOL -/,
  ⟨0x050E, 1, 1, false, 1, [(5, 30)], 1, false, [10], .cab, .root⟩ /- TSL_STAGE2 -/,
  ⟨0x050F, 1, 2, false, 1, [(1000, 20000)], 1, false, [12000], .cab, .root⟩ /- INSP_STOP_TIME -/,
  ⟨0x0540, 1, 1, false, 1, [(0, 1)], 1, false, [], .cab, .block⟩ /- FB_ENABLE -/,
  ⟨0x0541, 1, 1, false, 1, [(0, 63), (255, 255)], 1, false, [255], .cab, .block⟩ /- FB_CH_A -/,
  ⟨0x0542, 1, 1, false, 1, [(0, 63), (255, 255)], 1, false, [255], .cab, .block⟩ /- FB_CH_B -/,
  ⟨0x0543, 1, 1, false, 1, [(0, 1)], 1, false, [], .cab, .block⟩ /- FB_POLARITY -/,
  ⟨0x0544, 1, 2, false, 1, [(1, 2000)], 1, false, [100], .cab, .block⟩ /- FB_DISC_TIME -/,
  ⟨0x0545, 1, 1, false, 1, [(0, 1)], 1, false, [1], .cab, .block⟩ /- FB_RESET -/,
  ⟨0x0546, 1, 1, false, 1, [(0, 2)], 1, false, [], .cab, .block⟩ /- STN_KIND -/,
  ⟨0x0547, 6, 1, false, 1, [(0, 63), (255, 255)], 1, false, [255], .cab, .block⟩ /- STN_COMMON_A, STN_COMMON_B, STN_UP_A, STN_UP_B, STN_DN_A, STN_DN_B -/,
  ⟨0x054D, 1, 1, false, 1, [(0, 3)], 1, false, [], .cab, .block⟩ /- SOG_ROLE -/,
  ⟨0x054E, 1, 2, false, 1, [(20, 500)], 1, false, [100], .cab, .block⟩ /- CF_PULL_TIME -/,
  ⟨0x054F, 1, 2, false, 1, [(20, 500)], 1, false, [150], .cab, .block⟩ /- CF_DROP_TIME -/,
  ⟨0x0550, 1, 1, false, 1, [(0, 1)], 1, false, [], .cab, .block⟩ /- BRK_LIFT_LEVEL -/,
  ⟨0x0551, 1, 2, false, 1, [(100, 2000)], 1, false, [500], .cab, .block⟩ /- BRK_OPEN_TIME -/,
  ⟨0x0552, 1, 2, false, 1, [(100, 2000)], 1, false, [500], .cab, .block⟩ /- BRK_CLOSE_TIME -/,
  ⟨0x0553, 1, 4, false, 1, [(100000, 25000000)], 1, false, [1000000], .cab, .block⟩ /- TSL_V -/,
  ⟨0x0554, 1, 4, true, 1, [((-5000000), 1005000000)], 1, false, [], .cab, .block⟩ /- TSL_EDGE -/,
  ⟨0x0560, 1, 1, false, 1, [(1, 5)], 1, false, [1], .ro, .block⟩ /- FB_STATE -/,
  ⟨0x0561, 1, 4, false, 1, [(0, 4294967295)], 1, false, [], .ro, .block⟩ /- FB_TRIP_COUNT -/,
  ⟨0x0562, 1, 4, false, 1, [(0, 320000)], 1, false, [], .ro, .block⟩ /- FB_LAST_DISC -/,
  ⟨0x0563, 1, 8, false, 1, [(0, 18446744073709551615)], 1, false, [], .ro, .block⟩ /- FB_LAST_EVENT -/,
  ⟨0x0564, 1, 1, false, 1, [(0, 2)], 1, false, [], .ro, .block⟩ /- STN_DIR -/,
  ⟨0x0565, 1, 4, true, 1, [((-2147483648), 2147483647)], 1, false, [], .ro, .block⟩ /- UCM_REF -/,
  ⟨0x0566, 1, 1, false, 1, [(0, 1)], 1, false, [], .ro, .block⟩ /- BRIDGE_ACTIVE -/,
  ⟨0x0567, 1, 1, false, 1, [(0, 2)], 1, false, [], .ro, .block⟩ /- BRAKE_STATUS -/]

/-- Rows of the IDs 0x0500 to 0x05FF, part 2. -/
def ptab05_1 : List PRow := [
  ⟨0x0580, 1, 1, false, 1, [(0, 255)], 1, false, [], .ro, .landing⟩ /- LOCK_STATE -/,
  ⟨0x0581, 1, 1, false, 1, [(1, 255)], 1, false, [255], .cab, .landing⟩ /- LOCK_NODE -/,
  ⟨0x05F0, 1, 1, false, 1, [(0, 4)], 1, false, [], .ro, .root⟩ /- CAB_STATE -/,
  ⟨0x05F1, 1, 1, false, 1, [(0, 3), (255, 255)], 1, false, [255], .ro, .root⟩ /- CAB_SESSION_SLOT -/,
  ⟨0x05F2, 1, 4, false, 1, [(0, 900000)], 1, false, [], .ro, .root⟩ /- CAB_SESSION_LEFT -/,
  ⟨0x05F3, 1, 1, false, 1, [(0, 255)], 1, false, [], .ro, .root⟩ /- CAB_FAIL_COUNT -/,
  ⟨0x05F4, 1, 4, false, 1, [(0, 86400)], 1, false, [], .ro, .root⟩ /- CAB_LOCKOUT_LEFT -/,
  ⟨0x05F5, 1, 2, false, 1, [(0, 2048)], 1, false, [], .ro, .root⟩ /- CAB_STAGED -/,
  ⟨0x05F6, 1, 4, false, 1, [(0, 4294967295)], 1, false, [], .ro, .root⟩ /- CAB_GENERATION -/,
  ⟨0x05F7, 1, 1, false, 64, [(0, 255)], 1, false, [], .ro, .root⟩ /- CAB_DIGEST -/,
  ⟨0x05F8, 1, 4, false, 1, [(0, 4294967295)], 1, false, [], .ro, .root⟩ /- CAB_LOG_HEAD -/,
  ⟨0x05F9, 1, 4, false, 1, [(0, 4294967295)], 1, false, [], .ro, .root⟩ /- CAB_LOG_OVERWRITES -/,
  ⟨0x05FA, 1, 2, false, 1, [(0, 65535)], 1, false, [], .ro, .root⟩ /- CAB_REJECT_UNIT -/,
  ⟨0x05FB, 1, 2, false, 1, [(0, 65535)], 1, false, [], .ro, .root⟩ /- CAB_REJECT_ID -/,
  ⟨0x05FC, 1, 1, false, 1, [(0, 255)], 1, false, [], .ro, .root⟩ /- CAB_SLOTS_SET -/]

/-- All rows of the IDs 0x0500 to 0x05FF. -/
def ptab05 : List PRow := ptab05_0 ++ ptab05_1

/-- Rows of the IDs 0x0600 to 0x06FF, part 1. -/
def ptab06_0 : List PRow := [
  ⟨0x0600, 1, 1, false, 1, [(0, 2)], 1, false, [], .ro, .root⟩ /- TRIAD_MODE -/,
  ⟨0x0601, 1, 1, false, 1, [(0, 255)], 1, false, [], .ro, .root⟩ /- TRIAD_EXCLUDED -/,
  ⟨0x0602, 1, 1, false, 1, [(0, 1)], 1, false, [], .cab, .root⟩ /- TRIAD_DEGRADED_POLICY -/,
  ⟨0x0603, 1, 1, false, 1, [(1, 24)], 1, false, [24], .cab, .root⟩ /- TRIAD_DEGRADED_LIMIT -/,
  ⟨0x0604, 1, 4, false, 1, [(0, 86400)], 1, false, [], .ro, .root⟩ /- DUPLEX_LEFT -/,
  ⟨0x0605, 1, 1, false, 1, [(0, 1)], 1, false, [1], .cab, .root⟩ /- READMIT_MODE -/,
  ⟨0x0606, 3, 4, false, 1, [(0, 4294967295)], 1, false, [], .ro, .root⟩ /- DISAGREE_A, DISAGREE_B, DISAGREE_C -/,
  ⟨0x0609, 1, 4, false, 1, [(0, 4294967295)], 1, false, [], .ro, .root⟩ /- READMIT_COUNT -/,
  ⟨0x0610, 1, 1, false, 1, [(1, 24)], 1, false, [24], .cab, .root⟩ /- PROOF_INTERVAL -/,
  ⟨0x0611, 1, 1, false, 1, [(0, 1)], 1, false, [1], .cab, .root⟩ /- PROOF_AUTO -/,
  ⟨0x0612, 1, 1, false, 1, [(0, 3)], 1, false, [], .ro, .root⟩ /- PROOF_STATE -/,
  ⟨0x0613, 3, 8, false, 1, [(0, 18446744073709551615)], 1, false, [], .ro, .root⟩ /- PROOF_LAST_A, PROOF_LAST_B, PROOF_LAST_C -/,
  ⟨0x0616, 1, 4, false, 1, [(0, 86400)], 1, false, [], .ro, .root⟩ /- PROOF_DUE -/,
  ⟨0x0620, 2, 1, false, 1, [(0, 5)], 1, false, [], .ro, .root⟩ /- PAIR_ROLE_AP1, PAIR_ROLE_AP2 -/,
  ⟨0x0622, 1, 1, false, 1, [(0, 2)], 1, false, [], .ro, .root⟩ /- TETHER_HOLDER -/,
  ⟨0x0623, 1, 1, false, 1, [(1, 2)], 1, false, [1], .rw, .root⟩ /- PAIR_PREFERRED -/,
  ⟨0x0624, 1, 4, false, 1, [(0, 4294967295)], 1, false, [], .ro, .root⟩ /- SWITCH_COUNT -/,
  ⟨0x0625, 1, 4, false, 1, [(0, 4294967295)], 1, false, [], .ro, .root⟩ /- BALLAST_FRAMES -/,
  ⟨0x0626, 1, 1, false, 1, [(0, 255)], 1, false, [], .ro, .root⟩ /- LAST_TAKEOVER_AGE -/,
  ⟨0x0627, 1, 4, false, 1, [(0, 4294967295)], 1, false, [], .ro, .root⟩ /- SHADOW_MISMATCH -/,
  ⟨0x0628, 1, 4, false, 1, [(0, 4294967295)], 1, false, [], .ro, .root⟩ /- SNAPSHOT_FRAME -/,
  ⟨0x0629, 1, 1, false, 1, [(0, 1)], 1, false, [], .ro, .root⟩ /- DUAL_TX -/,
  ⟨0x062A, 2, 2, false, 1, [(0, 65535)], 1, false, [], .ro, .root⟩ /- PAIR_COMPAT_AP1, PAIR_COMPAT_AP2 -/]

/-- All rows of the IDs 0x0600 to 0x06FF. -/
def ptab06 : List PRow := ptab06_0

/-- Rows of the IDs 0x0700 to 0x07FF, part 1. -/
def ptab07_0 : List PRow := [
  ⟨0x0700, 1, 1, false, 1, [(0, 7)], 1, false, [], .cab, .channel⟩ /- CH_MODE -/,
  ⟨0x0701, 1, 1, false, 1, [(0, 15)], 1, false, [6], .cab, .channel⟩ /- CH_DEBOUNCE -/,
  ⟨0x0702, 1, 1, false, 1, [(0, 2)], 1, false, [], .cab, .channel⟩ /- CH_SAFE_STATE -/,
  ⟨0x0703, 1, 1, false, 1, [(0, 1)], 1, false, [], .cab, .channel⟩ /- CH_IN_SAFE -/,
  ⟨0x0704, 1, 1, false, 1, [(0, 63), (255, 255)], 1, false, [255], .cab, .channel⟩ /- CH_PULSE_SRC -/,
  ⟨0x0705, 1, 1, false, 1, [(0, 15)], 1, false, [3], .rw, .channel⟩ /- CH_RETRY_COUNT -/,
  ⟨0x0706, 1, 2, false, 1, [(10, 60000)], 1, false, [1000], .rw, .channel⟩ /- CH_RETRY_DELAY -/,
  ⟨0x0710, 1, 2, false, 1, [(0, 65535)], 1, false, [], .ro, .channel⟩ /- CH_STATUS -/,
  ⟨0x0711, 1, 2, false, 1, [(0, 2000)], 1, false, [], .ro, .channel⟩ /- CH_CURRENT -/,
  ⟨0x0712, 1, 2, true, 1, [((-500), 2000)], 1, false, [], .ro, .channel⟩ /- CH_TEMP -/,
  ⟨0x0713, 1, 4, false, 1, [(0, 4294967295)], 1, false, [], .ro, .channel⟩ /- CH_OPS -/,
  ⟨0x0714, 1, 4, false, 1, [(0, 4294967295)], 1, false, [], .ro, .channel⟩ /- CH_TRANSITIONS -/,
  ⟨0x0715, 1, 1, false, 1, [(0, 1)], 1, false, [], .ro, .channel⟩ /- CH_BENCH_VALUE -/,
  ⟨0x0716, 1, 8, false, 1, [(0, 18446744073709551615)], 1, false, [], .ro, .channel⟩ /- CH_LAST_TP -/,
  ⟨0x0717, 1, 1, false, 1, [(0, 15)], 1, false, [], .ro, .channel⟩ /- CH_RETRIES_LEFT -/,
  ⟨0x0780, 1, 4, false, 1, [(50, 100000)], 1, false, [1000], .cab, .root⟩ /- LINK_TIMEOUT -/,
  ⟨0x0781, 1, 2, false, 1, [(1, 10240)], 1, false, [160], .cab, .root⟩ /- DEBOUNCE_USER -/,
  ⟨0x0782, 1, 4, false, 1, [(0, 4294967295)], 1, false, [], .ro, .root⟩ /- LINK_DN_ERR -/,
  ⟨0x0783, 1, 4, false, 1, [(0, 4294967295)], 1, false, [], .ro, .root⟩ /- LINK_UP_ERR -/,
  ⟨0x0784, 1, 4, false, 1, [(0, 4294967295)], 1, false, [], .ro, .root⟩ /- LINK_TIMEOUTS -/,
  ⟨0x0785, 1, 2, false, 1, [(0, 4095)], 1, false, [], .ro, .root⟩ /- VF_A -/,
  ⟨0x0786, 1, 2, false, 1, [(0, 4095)], 1, false, [], .ro, .root⟩ /- VF_B -/,
  ⟨0x0787, 1, 1, false, 1, [(0, 6)], 1, false, [3], .ro, .root⟩ /- DOMAIN_STATE_A -/,
  ⟨0x0788, 1, 1, false, 1, [(0, 6)], 1, false, [3], .ro, .root⟩ /- DOMAIN_STATE_B -/,
  ⟨0x0789, 1, 1, false, 1, [(0, 1)], 1, false, [1], .ro, .root⟩ /- FIELD_POWER -/,
  ⟨0x078A, 1, 2, true, 1, [((-500), 1500)], 1, false, [], .ro, .root⟩ /- FIELD_TEMP -/,
  ⟨0x078B, 1, 1, false, 1, [(0, 2)], 1, false, [2], .ro, .root⟩ /- VOTE_SOURCE -/,
  ⟨0x0790, 8, 2, false, 1, [(0, 6375)], 1, false, [], .ro, .root⟩ /- GROUP_CURRENT_0 to GROUP_CURRENT_7 -/]

/-- All rows of the IDs 0x0700 to 0x07FF. -/
def ptab07 : List PRow := ptab07_0

/-- Rows of the IDs 0x0800 to 0x08FF, part 1. -/
def ptab08_0 : List PRow := [
  ⟨0x0800, 1, 1, false, 1, [(0, 7)], 1, false, [7], .still, .port⟩ /- BUS_NOM_RATE -/,
  ⟨0x0801, 1, 1, false, 1, [(60, 90)], 1, false, [80], .still, .port⟩ /- BUS_NOM_SP -/,
  ⟨0x0802, 1, 1, false, 1, [(0, 5)], 1, false, [4], .still, .port⟩ /- BUS_DATA_RATE -/,
  ⟨0x0803, 1, 1, false, 1, [(60, 90)], 1, false, [75], .still, .port⟩ /- BUS_DATA_SP -/,
  ⟨0x0804, 1, 1, false, 1, [(0, 1)], 1, false, [], .still, .port⟩ /- BUS_TRIPLE -/,
  ⟨0x0805, 1, 1, false, 1, [(0, 1)], 1, false, [], .cab, .port⟩ /- TIME_ROLE -/,
  ⟨0x0806, 1, 1, false, 1, [(0, 1)], 1, false, [], .rw, .port⟩ /- BUS_OFF_RECOVERY -/,
  ⟨0x0807, 1, 1, false, 1, [(1, 255)], 1, false, [96], .rw, .port⟩ /- TEC_WARN -/,
  ⟨0x0808, 1, 1, false, 1, [(1, 255)], 1, false, [96], .rw, .port⟩ /- REC_WARN -/,
  ⟨0x0809, 1, 1, false, 1, [(0, 1)], 1, false, [], .rw, .port⟩ /- WAKE_MODE -/,
  ⟨0x080A, 1, 4, false, 1, [(0, 536870911)], 1, false, [], .rw, .port⟩ /- WAKE_ID -/,
  ⟨0x080B, 1, 4, false, 1, [(0, 536870911)], 1, false, [], .rw, .port⟩ /- WAKE_ID_MASK -/,
  ⟨0x080C, 1, 1, false, 1, [(0, 1)], 1, false, [], .rw, .port⟩ /- WAKE_IDE -/,
  ⟨0x080D, 1, 1, false, 1, [(0, 8)], 1, false, [], .rw, .port⟩ /- WAKE_DLC -/,
  ⟨0x080E, 1, 1, false, 8, [(0, 255)], 1, false, [], .rw, .port⟩ /- WAKE_DATA -/,
  ⟨0x080F, 1, 1, false, 8, [(0, 255)], 1, false, [], .rw, .port⟩ /- WAKE_DATA_MASK -/,
  ⟨0x0820, 1, 1, false, 1, [(0, 4)], 1, false, [], .ro, .port⟩ /- BUS_STATE -/,
  ⟨0x0821, 1, 1, false, 1, [(0, 255)], 1, false, [], .ro, .port⟩ /- TEC -/,
  ⟨0x0822, 1, 1, false, 1, [(0, 255)], 1, false, [], .ro, .port⟩ /- REC -/,
  ⟨0x0823, 1, 4, false, 1, [(0, 4294967295)], 1, false, [], .ro, .port⟩ /- BUS_OFF_COUNT -/,
  ⟨0x0824, 1, 4, false, 1, [(0, 4294967295)], 1, false, [], .ro, .port⟩ /- TX_OK -/,
  ⟨0x0825, 1, 4, false, 1, [(0, 4294967295)], 1, false, [], .ro, .port⟩ /- RX_OK -/,
  ⟨0x0826, 1, 4, false, 1, [(0, 4294967295)], 1, false, [], .ro, .port⟩ /- LOST_COUNT -/,
  ⟨0x0827, 1, 4, false, 1, [(0, 4294967295)], 1, false, [], .ro, .port⟩ /- CLASH_COUNT -/,
  ⟨0x0828, 1, 4, false, 1, [(0, 4294967295)], 1, false, [], .ro, .port⟩ /- TT_MISSED_COUNT -/,
  ⟨0x0829, 1, 4, false, 1, [(0, 4294967295)], 1, false, [], .ro, .port⟩ /- SAFETY_CRC_ERR -/,
  ⟨0x082A, 1, 2, false, 1, [(0, 512)], 1, false, [], .ro, .port⟩ /- OBJ_USED -/,
  ⟨0x0880, 1, 1, false, 1, [(0, 15)], 1, false, [], .still, .root⟩ /- CAR_NO -/,
  ⟨0x0881, 1, 1, false, 1, [(1, 254)], 1, false, [48], .still, .root⟩ /- CAR_SRC -/,
  ⟨0x0882, 1, 2, false, 1, [(0, 2047)], 1, false, [8], .cab, .root⟩ /- TIME_REF_ID -/,
  ⟨0x0883, 1, 1, false, 1, [(0, 1)], 1, false, [1], .cab, .root⟩ /- LOCK_PORT -/,
  ⟨0x0884, 1, 2, false, 1, [(0, 1792)], 1, false, [256], .cab, .root⟩ /- LOCK_ID_BASE -/,
  ⟨0x0885, 1, 1, false, 1, [(0, 1)], 1, false, [1], .still, .root⟩ /- GROUP_PORT -/,
  ⟨0x0886, 1, 2, false, 1, [(0, 1984)], 1, false, [768], .still, .root⟩ /- GROUP_ID_BASE -/,
  ⟨0x0887, 1, 1, false, 1, [(1, 254)], 1, false, [80], .still, .root⟩ /- GROUP_SRC -/,
  ⟨0x0888, 1, 1, false, 1, [(0, 1)], 1, false, [1], .still, .root⟩ /- FIXTURE_PORT -/,
  ⟨0x0889, 1, 2, false, 1, [(0, 2046)], 1, false, [1280], .still, .root⟩ /- PANEL_ID_BASE -/,
  ⟨0x088A, 1, 2, false, 1, [(0, 2047)], 1, false, [1536], .still, .root⟩ /- HALL_ID_BASE -/,
  ⟨0x088B, 1, 2, false, 1, [(0, 2040)], 1, false, [1792], .still, .root⟩ /- HALL_IND_BASE -/,
  ⟨0x088C, 1, 1, false, 1, [(0, 1)], 1, false, [1], .still, .root⟩ /- HALL_FWD -/]

/-- Rows of the IDs 0x0800 to 0x08FF, part 2. -/
def ptab08_1 : List PRow := [
  ⟨0x088D, 1, 2, false, 1, [(20, 1000)], 1, false, [100], .rw, .root⟩ /- IND_REFRESH -/,
  ⟨0x088E, 1, 4, false, 1, [(0, 4294967295)], 1, false, [], .ro, .root⟩ /- LOCK_INVALID -/,
  ⟨0x088F, 1, 4, false, 1, [(0, 4294967295)], 1, false, [], .ro, .root⟩ /- PANEL_REFUSED -/]

/-- All rows of the IDs 0x0800 to 0x08FF. -/
def ptab08 : List PRow := ptab08_0 ++ ptab08_1

/-- Rows of the IDs 0x0900 to 0x09FF, part 1. -/
def ptab09_0 : List PRow := [
  ⟨0x0900, 1, 1, false, 1, [(0, 2)], 1, false, [], .rw, .meter⟩ /- METER_WIRING -/,
  ⟨0x0901, 1, 1, false, 1, [(0, 1)], 1, false, [], .rw, .meter⟩ /- F_NOMINAL -/,
  ⟨0x0902, 1, 4, false, 1, [(50000, 1000000)], 1, false, [230000], .rw, .meter⟩ /- U_DECL -/,
  ⟨0x0903, 1, 4, false, 1, [(1000, 2000000)], 1, false, [500000], .rw, .meter⟩ /- VOLT_SCALE -/,
  ⟨0x0904, 1, 4, false, 1, [(1000, 10000000)], 1, false, [1000000], .rw, .meter⟩ /- CUR_SCALE -/,
  ⟨0x0905, 1, 4, false, 1, [(1000, 3000000)], 1, false, [240000], .rw, .meter⟩ /- I_NOM -/,
  ⟨0x0906, 1, 1, false, 1, [(0, 15)], 1, false, [], .rw, .meter⟩ /- CUR_SENSOR -/,
  ⟨0x0907, 1, 1, false, 1, [(0, 1)], 1, false, [], .rw, .meter⟩ /- I4_ROLE -/,
  ⟨0x0908, 1, 1, false, 1, [(0, 3)], 1, false, [], .rw, .meter⟩ /- ENERGY_UNIT -/,
  ⟨0x0909, 1, 2, false, 1, [(1, 3600)], 1, false, [60], .rw, .meter⟩ /- ENERGY_SAVE_PERIOD -/,
  ⟨0x0910, 3, 4, false, 1, [(0, 2000000)], 1, false, [], .ro, .meter⟩ /- URMS_1 to URMS_3 -/,
  ⟨0x0913, 4, 4, false, 1, [(0, 20000000)], 1, false, [], .ro, .meter⟩ /- IRMS_1 to IRMS_4 -/,
  ⟨0x0917, 3, 4, true, 1, [((-2147483648), 2147483647)], 1, false, [], .ro, .meter⟩ /- P_1 to P_3 -/,
  ⟨0x091A, 3, 4, true, 1, [((-2147483648), 2147483647)], 1, false, [], .ro, .meter⟩ /- Q_1 to Q_3 -/,
  ⟨0x091D, 1, 4, true, 1, [((-2147483648), 2147483647)], 1, false, [], .ro, .meter⟩ /- P_TOTAL -/,
  ⟨0x091E, 1, 4, true, 1, [((-2147483648), 2147483647)], 1, false, [], .ro, .meter⟩ /- Q_TOTAL -/,
  ⟨0x091F, 1, 4, false, 1, [(0, 4294967295)], 1, false, [], .ro, .meter⟩ /- S_TOTAL -/,
  ⟨0x0920, 4, 2, true, 1, [((-10000), 10000)], 1, false, [], .ro, .meter⟩ /- PF_TOTAL, PF_1 to PF_3 -/,
  ⟨0x0924, 1, 4, false, 1, [(0, 0), (42500, 69000)], 1, false, [], .ro, .meter⟩ /- FREQ -/,
  ⟨0x0925, 1, 1, false, 1, [(0, 1)], 1, false, [], .ro, .meter⟩ /- FREQ_VALID -/,
  ⟨0x0926, 2, 2, true, 1, [((-18000), 18000)], 1, false, [], .ro, .meter⟩ /- ANGLE_U2, ANGLE_U3 -/,
  ⟨0x0928, 3, 2, true, 1, [((-18000), 18000)], 1, false, [], .ro, .meter⟩ /- ANGLE_I1 to ANGLE_I3 -/,
  ⟨0x092B, 1, 1, false, 1, [(1, 4)], 1, false, [1], .ro, .meter⟩ /- QUADRANT -/,
  ⟨0x092C, 3, 4, false, 1, [(0, 2000000)], 1, false, [], .ro, .meter⟩ /- URMS_HC_1 to URMS_HC_3 -/,
  ⟨0x0930, 8, 4, false, 1, [(0, 4294967295)], 1, false, [], .ro, .meter⟩ /- EA_IMP, EA_EXP, ER_Q1 to ER_Q4, ES_IMP, ES_EXP -/,
  ⟨0x0938, 8, 1, false, 1, [(0, 255)], 1, false, [], .ro, .meter⟩ /- Wrap counters of 0x0930 to 0x0937 -/,
  ⟨0x0940, 1, 2, false, 1, [(0, 65535)], 1, false, [], .ro, .meter⟩ /- METER_FLAGS -/,
  ⟨0x0941, 1, 8, false, 1, [(0, 18446744073709551615)], 1, false, [], .ro, .meter⟩ /- LAST_SAVE_TIME -/,
  ⟨0x0942, 1, 4, false, 1, [(0, 4294967295)], 1, false, [], .ro, .meter⟩ /- METER_LOST_TIME -/,
  ⟨0x0943, 1, 4, false, 1, [(0, 4294967295)], 1, false, [], .ro, .meter⟩ /- TRIP_EA_IMP -/,
  ⟨0x0944, 1, 4, false, 1, [(0, 4294967295)], 1, false, [], .ro, .meter⟩ /- TRIP_EA_EXP -/,
  ⟨0x0945, 1, 4, false, 1, [(0, 4294967295)], 1, false, [], .ro, .meter⟩ /- TRIP_DURATION -/,
  ⟨0x0946, 1, 4, false, 1, [(0, 4294967295)], 1, false, [], .ro, .meter⟩ /- METER_GAP_TIME -/,
  ⟨0x0950, 1, 1, false, 1, [(0, 3)], 1, false, [], .ro, .meter⟩ /- CAL_STATE -/,
  ⟨0x0951, 7, 4, true, 1, [((-20000), 20000)], 1, false, [], .ro, .meter⟩ /- CAL_GAIN_0 to CAL_GAIN_6 -/,
  ⟨0x0958, 3, 2, true, 1, [((-2000), 2000)], 1, false, [], .ro, .meter⟩ /- CAL_PHASE_1 to CAL_PHASE_3 -/,
  ⟨0x095B, 7, 4, true, 1, [((-2147483648), 2147483647)], 1, false, [], .ro, .meter⟩ /- CAL_OFFSET_0 to CAL_OFFSET_6 -/,
  ⟨0x0970, 1, 4, false, 30, [(0, 4294967295)], 1, false, [], .ro, .meter⟩ /- SAG_TABLE -/,
  ⟨0x0971, 1, 4, false, 12, [(0, 4294967295)], 1, false, [], .ro, .meter⟩ /- SWELL_TABLE -/,
  ⟨0x0972, 1, 4, false, 6, [(0, 4294967295)], 1, false, [], .ro, .meter⟩ /- INTR_TABLE -/]

/-- All rows of the IDs 0x0900 to 0x09FF. -/
def ptab09 : List PRow := ptab09_0

/-- Rows of the IDs 0x0A00 to 0x0AFF, part 1. -/
def ptab0A_0 : List PRow := [
  ⟨0x0A00, 1, 2, false, 1, [(100, 10000)], 100, false, [1000], .rw, .recorder⟩ /- RECORD_FLUSH -/,
  ⟨0x0A01, 1, 1, false, 1, [(1, 168)], 1, false, [24], .rw, .recorder⟩ /- SCRUB_PERIOD -/,
  ⟨0x0A02, 4, 4, false, 1, [(0, 4294967295)], 1, false, [], .cab, .recorder⟩ /- USER_SOURCE_11 to USER_SOURCE_14 -/,
  ⟨0x0A06, 4, 2, false, 1, [(10, 60000)], 1, false, [1000], .cab, .recorder⟩ /- USER_PERIOD_11 to USER_PERIOD_14 -/,
  ⟨0x0A20, 1, 4, true, 31, [((-2147483648), 2147483647)], 1, true, edges31 500 250, .cab, .recorder⟩ /- HIST_EDGES_T0 -/,
  ⟨0x0A21, 1, 4, true, 31, [((-2147483648), 2147483647)], 1, true, edges31 500 250, .cab, .recorder⟩ /- HIST_EDGES_T1 -/,
  ⟨0x0A22, 1, 4, true, 31, [((-2147483648), 2147483647)], 1, true, edges31 (-15000) 1000, .cab, .recorder⟩ /- HIST_EDGES_T2 -/,
  ⟨0x0A23, 4, 4, true, 31, [((-2147483648), 2147483647)], 1, true, edges31 0 1, .cab, .recorder⟩ /- HIST_EDGES_T3 to HIST_EDGES_T6 -/,
  ⟨0x0A40, 1, 4, false, 1, [(0, 4294967295)], 1, false, [], .ro, .recorder⟩ /- RECORD_SEQ -/,
  ⟨0x0A41, 1, 2, false, 1, [(0, 3328)], 1, false, [], .ro, .recorder⟩ /- DIRTY_RECORDS -/,
  ⟨0x0A42, 1, 4, false, 1, [(0, 4294967295)], 1, false, [], .ro, .recorder⟩ /- QUEUE_DROPPED -/,
  ⟨0x0A43, 1, 4, false, 1, [(0, 4294967295)], 1, false, [], .ro, .recorder⟩ /- FLUSH_COUNT -/,
  ⟨0x0A44, 1, 8, false, 1, [(0, 18446744073709551615)], 1, false, [], .ro, .recorder⟩ /- LAST_FLUSH_TIME -/,
  ⟨0x0A45, 1, 2, false, 1, [(0, 1000)], 1, false, [], .ro, .recorder⟩ /- SCRUB_PROGRESS -/,
  ⟨0x0A46, 1, 4, false, 1, [(0, 4294967295)], 1, false, [], .ro, .recorder⟩ /- SCRUB_CORRECTED -/,
  ⟨0x0A47, 1, 4, false, 1, [(0, 4294967295)], 1, false, [], .ro, .recorder⟩ /- SCRUB_UNCORRECTABLE -/,
  ⟨0x0A48, 1, 4, false, 1, [(0, 4194296)], 1, false, [], .ro, .recorder⟩ /- SCRUB_LAST_BAD_ADDR -/,
  ⟨0x0A49, 1, 2, false, 1, [(0, 3072)], 1, false, [], .ro, .recorder⟩ /- RECORDS_LOST_AT_START -/]

/-- All rows of the IDs 0x0A00 to 0x0AFF. -/
def ptab0A : List PRow := ptab0A_0

/-- Rows of the IDs 0x0B00 to 0x0BFF, part 1. -/
def ptab0B_0 : List PRow := [
  ⟨0x0B00, 1, 1, false, 1, [(0, 3)], 1, false, [3], .rw, .root⟩ /- SLEEP_MAX_STATE -/,
  ⟨0x0B01, 1, 1, false, 1, [(5, 100)], 1, false, [20], .rw, .root⟩ /- SLEEP_GUARD -/,
  ⟨0x0B02, 1, 2, false, 1, [(0, 3600)], 1, false, [30], .rw, .root⟩ /- SLEEP_IDLE_DELAY -/,
  ⟨0x0B03, 1, 2, false, 1, [(0, 0), (30, 3600)], 1, false, [300], .rw, .root⟩ /- DOOR_RECHECK_PERIOD -/,
  ⟨0x0B10, 1, 1, false, 1, [(0, 3)], 1, false, [], .ro, .root⟩ /- POWER_STATE -/,
  ⟨0x0B11, 1, 2, false, 1, [(0, 11000)], 1, false, [], .ro, .root⟩ /- VIN -/,
  ⟨0x0B12, 1, 2, false, 1, [(0, 11000)], 1, false, [], .ro, .root⟩ /- VIN_MIN -/,
  ⟨0x0B13, 1, 2, false, 1, [(0, 11000)], 1, false, [], .ro, .root⟩ /- VIN_MAX -/,
  ⟨0x0B14, 1, 2, false, 1, [(0, 30000)], 1, false, [], .ro, .root⟩ /- INPUT_POWER -/,
  ⟨0x0B15, 1, 2, true, 1, [((-500), 1500)], 1, false, [], .ro, .root⟩ /- LOGIC_TEMP -/,
  ⟨0x0B16, 1, 4, false, 1, [(0, 4294967295)], 1, false, [4294967295], .ro, .root⟩ /- NEXT_EVENT -/,
  ⟨0x0B17, 1, 1, false, 1, [(0, 7)], 1, false, [], .ro, .root⟩ /- LAST_WAKE_SOURCE -/,
  ⟨0x0B18, 1, 4, false, 1, [(0, 25000)], 1, false, [], .ro, .root⟩ /- LAST_SAVE_DURATION -/,
  ⟨0x0B19, 1, 2, false, 1, [(0, 11000)], 1, false, [], .ro, .root⟩ /- LAST_SAVE_VIN -/,
  ⟨0x0B1A, 1, 4, false, 1, [(0, 4294967295)], 1, false, [], .ro, .root⟩ /- HOLDUP_SHORT_COUNT -/,
  ⟨0x0B1B, 4, 4, false, 1, [(0, 4294967295)], 1, false, [], .ro, .root⟩ /- TIME_RUN, TIME_IDLE, TIME_DOZE, TIME_PARK -/]

/-- All rows of the IDs 0x0B00 to 0x0BFF. -/
def ptab0B : List PRow := ptab0B_0

/-- Rows of the IDs 0x0C00 to 0x0CFF, part 1. -/
def ptab0C_0 : List PRow := [
  ⟨0x0C00, 1, 1, false, 1, [(0, 1)], 1, false, [], .cab, .root⟩ /- FW_MAKER_REQUIRED -/,
  ⟨0x0C01, 1, 1, false, 512, [(0, 255)], 1, false, [], .cab, .root⟩ /- FW_MAKER_KEY -/,
  ⟨0x0C02, 1, 1, false, 1, [(0, 255)], 1, false, [], .ro, .root⟩ /- ROLLBACK_COUNTER -/,
  ⟨0x0C03, 1, 4, false, 1, [(0, 4294967295)], 1, false, [], .ro, .root⟩ /- BOOT_COUNT -/,
  ⟨0x0C04, 1, 4, false, 1, [(0, 4294967295)], 1, false, [], .ro, .root⟩ /- BOOT_FAIL_COUNT -/,
  ⟨0x0C05, 1, 1, false, 1, [(0, 4)], 1, false, [], .ro, .root⟩ /- FW_STATE -/,
  ⟨0x0C06, 1, 1, false, 1, [(0, 2)], 1, false, [], .ro, .root⟩ /- FW_KIND -/,
  ⟨0x0C07, 1, 4, false, 1, [(0, 12584192)], 1, false, [], .ro, .root⟩ /- FW_RECEIVED -/,
  ⟨0x0C10, 4, 4, false, 1, [(0, 4294967295)], 1, false, [], .ro, .root⟩ /- FW_VERSION_KERNEL, FW_VERSION_AP1, FW_VERSION_AP2, FW_VERSION_FIELD -/,
  ⟨0x0C14, 4, 1, false, 1, [(0, 255)], 1, false, [], .ro, .root⟩ /- FW_LEVEL_KERNEL, FW_LEVEL_AP1, FW_LEVEL_AP2, FW_LEVEL_FIELD -/,
  ⟨0x0C18, 4, 1, false, 1, [(0, 255)], 1, false, [], .ro, .root⟩ /- FW_SLOT_KERNEL, FW_SLOT_AP1, FW_SLOT_AP2, FW_SLOT_FIELD -/,
  ⟨0x0C20, 4, 1, false, 64, [(0, 255)], 1, false, [], .ro, .root⟩ /- FW_DIGEST_KERNEL, FW_DIGEST_AP1, FW_DIGEST_AP2, FW_DIGEST_FIELD -/,
  ⟨0x0C30, 1, 4, false, 1, [(0, 4294967295)], 1, false, [], .ro, .root⟩ /- ATTEST_COUNT -/]

/-- All rows of the IDs 0x0C00 to 0x0CFF. -/
def ptab0C : List PRow := ptab0C_0

/-- Rows of the IDs 0x0D00 to 0x0DFF, part 1. -/
def ptab0D_0 : List PRow := [
  ⟨0x0D00, 1, 2, false, 1, [(0, 0), (10, 10000)], 1, false, [], .rw, .root⟩ /- HOST_KEEPALIVE -/,
  ⟨0x0D01, 1, 2, false, 1, [(0, 65535)], 1, false, [16382], .rw, .root⟩ /- EVT_MASK -/,
  ⟨0x0D02, 1, 1, false, 1, [(0, 2)], 1, false, [], .ro, .root⟩ /- HOST_STATE -/,
  ⟨0x0D10, 1, 4, false, 1, [(0, 4294967295)], 1, false, [], .ro, .root⟩ /- HOST_PACKETS -/,
  ⟨0x0D11, 1, 4, false, 1, [(0, 4294967295)], 1, false, [], .ro, .root⟩ /- HOST_BAD_CRC -/,
  ⟨0x0D12, 1, 4, false, 1, [(0, 4294967295)], 1, false, [], .ro, .root⟩ /- HOST_TRUNCATED -/,
  ⟨0x0D13, 1, 4, false, 1, [(0, 4294967295)], 1, false, [], .ro, .root⟩ /- HOST_STALLS -/,
  ⟨0x0D14, 1, 4, false, 1, [(0, 4294967295)], 1, false, [], .ro, .root⟩ /- HOST_IGNORED -/,
  ⟨0x0D15, 1, 4, false, 1, [(0, 4294967295)], 1, false, [], .ro, .root⟩ /- HOST_REPLY_LOST -/,
  ⟨0x0D16, 1, 2, false, 1, [(0, 256)], 1, false, [], .ro, .root⟩ /- EVT_QUEUED -/,
  ⟨0x0D17, 1, 4, false, 1, [(0, 4294967295)], 1, false, [], .ro, .root⟩ /- EVT_DROPPED -/,
  ⟨0x0D18, 1, 4, false, 1, [(0, 10000)], 1, false, [], .ro, .root⟩ /- KEEPALIVE_LEFT -/]

/-- All rows of the IDs 0x0D00 to 0x0DFF. -/
def ptab0D : List PRow := ptab0D_0

/-- The rows whose IDs share a high byte. -/
def ptabOf (hi : Nat) : List PRow :=
  match hi with
  | 0 => ptab00
  | 1 => ptab01
  | 2 => ptab02
  | 3 => ptab03
  | 4 => ptab04
  | 5 => ptab05
  | 6 => ptab06
  | 7 => ptab07
  | 8 => ptab08
  | 9 => ptab09
  | 10 => ptab0A
  | 11 => ptab0B
  | 12 => ptab0C
  | 13 => ptab0D
  | _ => []

end Sys2Proof.Machine
end

