-- ==== Sys2Proof/Machine/Operands.lean ====
section
/-!
DEFINITION. How parameters and attributes are addressed, ranged, encoded and held (00 R9, 14 R456),
and which units exist (01 R21).
-/
namespace Sys2Proof.Machine

open Sys2Proof

/-- The row that holds an ID, whatever the unit. -/
def rowOfId (id : Nat) : Option PRow := (ptabOf (id / 256)).find? fun r => r.id ≤ id && id < r.id + r.n

/-- Handle of a door side (01 R21). -/
def sideHandle (s : Ab) : Nat := 2 + s.idx

/-- Handle of a shaft bus port (01 R21). -/
def portHandle (p : Ab) : Nat := 0x0200 + p.idx

/-- The port or side that 0 or 1 names. -/
def abOf (n : Nat) : Ab := if n == 1 then .b else .a

/-- Handle of a landing (01 R21). -/
def landingHandle (l : Nat) : Nat := 0x1000 + l

/-- Handle of a channel (01 R21). -/
def chHandle (c : Nat) : Nat := 0x0100 + c

/-- The table ID behind an ID as the addressed unit carries it: side B, port B and the learned
attributes of side B carry shifted IDs (06 R188, R189; 11 R377). -/
def canonId (h id : Nat) : Nat :=
  if h == 3 && 0x0440 ≤ id && id < 0x0480 then id - 0x40
  else if h == 0x0201 && 0x0840 ≤ id && id < 0x0880 then id - 0x40
  else if 0x1000 ≤ h && h < 0x1100 && 0x0490 ≤ id && id < 0x04A0 then id - 0x10
  else id

/-- The kind of unit a handle addresses. -/
def homeOf (h : Nat) : Option Home :=
  if h == 0 then some .root
  else if h == 2 || h == 3 then some .side
  else if 0x0100 ≤ h && h ≤ 0x013F then some .channel
  else if h == 0x0200 || h == 0x0201 then some .port
  else if h == 0x0300 then some .meter
  else if h == 0x0400 then some .recorder
  else if 0x0700 ≤ h && h ≤ 0x07FF then some .block
  else if 0x1000 ≤ h && h ≤ 0x10FF then some .landing
  else none

/-- What a safety function block does, by its handle (07 R192). -/
inductive BlockKind where
  | estop | carDoor | landingDoor | doorZone | station | dpd | contactor | brake | overspeed | ucm | tsl
  deriving DecidableEq, Repr

/-- 07 R192: which handle is which block. -/
def blockKind (h : Nat) : Option BlockKind :=
  if 0x0700 ≤ h && h ≤ 0x070F then some .estop
  else if h == 0x0710 || h == 0x0711 then some .carDoor
  else if h == 0x0712 || h == 0x0713 then some .landingDoor
  else if h == 0x0718 then some .doorZone
  else if 0x0720 ≤ h && h ≤ 0x0723 then some .station
  else if h == 0x0730 || h == 0x0731 then some .dpd
  else if 0x0740 ≤ h && h ≤ 0x0747 then some .contactor
  else if h == 0x0750 then some .brake
  else if h == 0x0760 then some .overspeed
  else if h == 0x0770 then some .ucm
  else if 0x0780 ≤ h && h ≤ 0x0787 then some .tsl
  else none

/-- The blocks that exist in every configuration (07 R192). -/
def blockAlways (h : Nat) : Bool := h == 0x0718 || h == 0x0750 || h == 0x0760 || h == 0x0770

/-- Every handle of the table of 07 R192, ascending. -/
def blockHandles : List Nat :=
  (List.range 16).map (0x0700 + ·) ++ [0x0710, 0x0711, 0x0712, 0x0713, 0x0718]
    ++ (List.range 4).map (0x0720 + ·) ++ [0x0730, 0x0731] ++ (List.range 8).map (0x0740 + ·)
    ++ [0x0750, 0x0760, 0x0770] ++ (List.range 8).map (0x0780 + ·)

/-- 07 R547: an attribute applies to a kind of block. -/
def attrApplies (h id : Nat) : Bool :=
  match blockKind h with
  | none => false
  | some k =>
    if id == pFB_ENABLE then true
    else if id == pFB_CH_A then k == .estop || k == .carDoor || k == .landingDoor || k == .doorZone || k == .station || k == .dpd || k == .brake || k == .tsl
    else if id == pFB_CH_B then k == .estop || k == .carDoor || k == .landingDoor || k == .doorZone || k == .station || k == .dpd || k == .brake
    else if id == pFB_POLARITY then k == .estop || k == .carDoor || k == .landingDoor || k == .station
    else if id == pFB_DISC_TIME || id == pFB_LAST_DISC then k == .estop || k == .carDoor || k == .landingDoor || k == .doorZone || k == .station || k == .dpd
    else if id == pFB_RESET then k == .estop
    else if id == pSTN_KIND || (pSTN_COMMON_A ≤ id && id ≤ pSTN_DN_B) || id == pSTN_DIR then k == .station
    else if id == pSOG_ROLE || id == pCF_PULL_TIME || id == pCF_DROP_TIME then k == .contactor
    else if id == pBRK_LIFT_LEVEL || id == pBRK_OPEN_TIME || id == pBRK_CLOSE_TIME || id == pBRAKE_STATUS then k == .brake
    else if id == pTSL_V || id == pTSL_EDGE then k == .tsl
    else if id == pUCM_REF then k == .ucm
    else if id == pBRIDGE_ACTIVE then k == .doorZone
    else id == pFB_STATE || id == pFB_TRIP_COUNT || id == pFB_LAST_EVENT

/-- The IDs a handle carries end in the row of the table, with the home matching (14 R456). Side A
does not carry side B's IDs nor the reverse; the same holds for the ports. -/
def rowFor (h id : Nat) : Option PRow :=
  let c := canonId h id
  match rowOfId c, homeOf h with
  | some r, some k =>
    if r.home != k then none
    else if (h == 3 || h == 0x0201) && c == id then none
    else some r
  | _, _ => none

/-- An element within one of a row's ranges and on its steps. -/
def elemOk (r : PRow) (x : Int) : Bool :=
  r.ranges.any fun (a, z) => decide (a ≤ x) && decide (x ≤ z) && ((x - a) % r.step == 0)

/-- Strictly ascending. -/
def ascendingB : List Int → Bool
  | a :: b :: r => decide (a < b) && ascendingB (b :: r)
  | _ => true

/-- A value within a row's range (00 R9; 14 R471 for the zero bits of EVT_MASK). -/
def valueOk (r : PRow) (v : List Int) : Bool :=
  v.length == r.count && v.all (elemOk r) && (!r.ascending || ascendingB v)
    && (r.id != pEVT_MASK || v.all fun x => x % 2 == 0 && decide (x < 16384))
    && (r.id != pCUR_SENSOR || v.all fun x => decide (x < 16))

/-- A value as the bytes of its type (14 R456). -/
def encodeVal (r : PRow) (v : List Int) : List Nat := v.flatMap fun x => leS r.bytes x

/-- The elements of a value's bytes. -/
def decodeElems (r : PRow) : Nat → List Nat → List Int
  | 0, _ => []
  | n + 1, bs =>
    (if r.signed then leSAt bs 0 r.bytes else (leAt bs 0 r.bytes : Nat)) :: decodeElems r n (bs.drop r.bytes)

/-- Bytes as a value of the row's type, when their number is right (14 R456). -/
def decodeVal (r : PRow) (bs : List Nat) : Option (List Int) :=
  if bs.length == r.bytes * r.count then some (decodeElems r r.count bs) else none

/-- A row's default value, element by element. -/
def dfltOf (r : PRow) : List Int := if r.dflt == [] then List.replicate r.count 0 else r.dflt

/-- Look up a cell. -/
def cellGet (l : List ParamCell) (h id : Nat) : Option (List Int) :=
  (l.find? fun c => c.handle == h && c.id == id).map (·.val)

/-- Write a cell, ascending by handle and ID. -/
def cellSet (l : List ParamCell) (h id : Nat) (v : List Int) : List ParamCell :=
  match l with
  | [] => [⟨h, id, v⟩]
  | c :: r =>
    if c.handle == h && c.id == id then ⟨h, id, v⟩ :: r
    else if h < c.handle || (h == c.handle && id < c.id) then ⟨h, id, v⟩ :: c :: r
    else c :: cellSet r h id v

/-- Remove a cell. -/
def cellDel (l : List ParamCell) (h id : Nat) : List ParamCell :=
  l.filter fun c => !(c.handle == h && c.id == id)

/-- A value in a list of cells, or its default. -/
def cellVal (l : List ParamCell) (h id : Nat) : List Int :=
  match cellGet l h id with
  | some v => v
  | none => match rowOfId (canonId h id) with
    | some r => dfltOf r
    | none => [0]

/-- Write a value, keeping only cells that differ from their default. -/
def cellPut (l : List ParamCell) (h id : Nat) (v : List Int) : List ParamCell :=
  if v == cellVal (cellDel l h id) h id then cellDel l h id else cellSet l h id v

/-- A scalar out of a list of cells. -/
def cellInt (l : List ParamCell) (h id : Nat) : Int := (cellVal l h id).headD 0

/-- The value in force of a stored parameter or attribute. -/
def Mach.valAt (m : Mach) (h id : Nat) : List Int := cellVal m.params h id

/-- A scalar value in force. -/
def Mach.intAt (m : Mach) (h id : Nat) : Int := (m.valAt h id).headD 0

/-- An unsigned scalar value in force. -/
def Mach.natAt (m : Mach) (h id : Nat) : Nat := (m.intAt h id).toNat

/-- A parameter of unit 0x0000. -/
def Mach.int (m : Mach) (id : Nat) : Int := m.intAt 0 id

/-- An unsigned parameter of unit 0x0000. -/
def Mach.nat (m : Mach) (id : Nat) : Nat := m.natAt 0 id

/-- A Boolean parameter of unit 0x0000. -/
def Mach.flag (m : Mach) (id : Nat) : Bool := m.nat id != 0

/-- An unsigned parameter of a door side, by its side A ID (06 R188). -/
def Mach.door (m : Mach) (s : Ab) (id : Nat) : Nat := m.natAt (sideHandle s) (id + 0x40 * s.idx)

/-- An unsigned parameter of a port, by its port A ID (11 R377). -/
def Mach.port (m : Mach) (p : Ab) (id : Nat) : Nat := m.natAt (portHandle p) (id + 0x40 * p.idx)

/-- An attribute of a landing. -/
def Mach.land (m : Mach) (l id : Nat) : Int := m.intAt (landingHandle l) id

/-- An unsigned attribute of a channel. -/
def Mach.chan (m : Mach) (c id : Nat) : Nat := m.natAt (chHandle c) id

/-- An unsigned attribute of a block. -/
def Mach.blk (m : Mach) (h id : Nat) : Nat := m.natAt h id

/-- A parameter of the meter. -/
def Mach.met (m : Mach) (id : Nat) : Nat := m.natAt 0x0300 id

/-- A learned attribute of a landing for a side, by its side A ID (06 R189). -/
def learnedId (s : Ab) (id : Nat) : Nat := id + 0x10 * s.idx

/-- Write a value at once. -/
def Mach.put (m : Mach) (h id : Nat) (v : List Int) : Mach := { m with params := cellPut m.params h id v }

/-- Write a scalar at once. -/
def Mach.putI (m : Mach) (h id : Nat) (v : Int) : Mach := m.put h id [v]

/-- Number of landings (03 R95). -/
def Mach.nLandings (m : Mach) : Nat := m.nat pN_LANDINGS

/-- The landings in use. -/
def Mach.landings (m : Mach) : List Nat := List.range m.nLandings

/-- SIDES_SERVED of a landing: bit 0 side A, bit 1 side B (05 R150). -/
def Mach.sidesServed (m : Mach) (l : Nat) : Nat := (m.land l pSIDES_SERVED).toNat

/-- A side is served at a landing. -/
def Mach.serves (m : Mach) (l : Nat) (s : Ab) : Bool := bit (m.sidesServed l) s.idx

/-- An attribute of a block, 0 where it does not apply to its kind (07 R246, R547). -/
def Mach.battr (m : Mach) (h id : Nat) : Nat := if attrApplies h id then m.natAt h id else 0

/-- FB_ENABLE of a block: 1 on a block marked always (07 R547). -/
def Mach.blockOn (m : Mach) (h : Nat) : Bool := blockAlways h || (blockKind h != none && m.natAt h pFB_ENABLE == 1)

/-- The blocks that exist, ascending (07 R192). -/
def Mach.blocks (m : Mach) : List Nat := blockHandles.filter m.blockOn

/-- The existing blocks of a kind. -/
def Mach.blocksOf (m : Mach) (k : BlockKind) : List Nat := m.blocks.filter fun h => blockKind h == some k

/-- The fixed handles outside the two configured ranges, ascending (01 R21). -/
def fixedHandles : List Nat :=
  [0, 1, 2, 3] ++ (List.range 64).map (0x0100 + ·) ++ [0x0200, 0x0201, 0x0300, 0x0400, 0x0500, 0x0600]

/-- Every existing unit in ascending order (01 R21, R23). -/
def Mach.unitHandles (m : Mach) : List Nat :=
  fixedHandles ++ m.blocks ++ m.landings.map landingHandle ++ m.groups.map (·.handle)

/-- A unit exists (01 R21). -/
def Mach.exists (m : Mach) (h : Nat) : Bool :=
  if h < 0x0700 then fixedHandles.contains h
  else if h ≤ 0x07FF then m.blockOn h
  else if 0x1000 ≤ h && h ≤ 0x10FF then decide (h - 0x1000 < m.nLandings)
  else m.groups.any fun g => g.handle == h

/-- The channels a block names (07 R549). -/
def Mach.namedBy (m : Mach) (h : Nat) : List Nat :=
  let base := [m.battr h pFB_CH_A, m.battr h pFB_CH_B]
  let a := if attrApplies h pFB_CH_A then base.take 1 else []
  let b := if attrApplies h pFB_CH_B then base.drop 1 else []
  let st := if blockKind h == some .station then (List.range 6).map fun k => m.natAt h (pSTN_COMMON_A + k) else []
  let cf := if blockKind h == some .contactor then [16 + (h - 0x0740), 24 + (h - 0x0740)] else []
  (a ++ b ++ st ++ cf).filter (· != 0xFF)

/-- A block that reads no channels: a landing door interlock under LOCK_SOURCE NODES (07 R240, R547). -/
def Mach.unread (m : Mach) (h : Nat) : Bool := blockKind h == some .landingDoor && m.nat pLOCK_SOURCE == 1

/-- A channel is named by a safety function block (07 R549). -/
def Mach.chNamed (m : Mach) (c : Nat) : Bool := m.blocks.any fun h => (m.namedBy h).contains c

end Sys2Proof.Machine
end

