-- ==== Sys2Proof/Machine/Ops.lean ====
section
/-!
DEFINITION. The named operations over the state that every family shares: time, the MRAM and its
records, the recorder's statistics, the event queue, and raising and ending a fault.
-/
namespace Sys2Proof.Machine

open Sys2Proof

/-- The outcome of every state change. -/
abbrev Res := Host.Outcome State Fault Refusal

/-- Answer a next state in which the module has changed. -/
def on (s : State) (f : Mach → Mach) : Res := .next { s with now := f s.now }

/-- An event that occurs only under its condition: where it does not hold, the event does not
occur and nothing changes (notes/assumptions/3.md). -/
def onWhen (s : State) (c : Bool) (f : Mach → Mach) : Res := .next (if c then { s with now := f s.now } else s)

/-- A change made under a condition. -/
def Mach.when (m : Mach) (c : Bool) (f : Mach → Mach) : Mach := if c then f m else m

/-- Apply a change for every element of a list. -/
def Mach.each {α : Type} (m : Mach) (l : List α) (f : Mach → α → Mach) : Mach := l.foldl f m

/-! Time (chapter 02). -/

/-- TIMESTAMP: microseconds at the tick of the present frame (02 R37). -/
def Mach.ts (m : Mach) : Nat := 250 * m.time.frame

/-- FRAME_COUNT (02 R36). -/
def Mach.fc (m : Mach) : Nat := m.time.frame % 2 ^ 32

/-- A sensor supply is on (18 R536): 0 ENC_5V, 1 DFB_5V_A, 2 DFB_5V_B. -/
def Mach.supplied (m : Mach) (out : Nat) : Bool := (nth m.power.sup out (true, 0)).1

/-- Wall-clock time in microseconds at a timestamp, 0 while it is not valid (02 R39). -/
def Mach.wallAt (m : Mach) (t : Nat) : Nat :=
  if m.time.wallValid then toU 64 ((t : Int) + m.time.wallOffset) else 0

/-- Wall-clock time at the present tick. -/
def Mach.wall (m : Mach) : Nat := m.wallAt m.ts

/-- Link-tick index: 40 per frame (00, 07 R200). -/
def ltIndex (frame lt : Nat) : Nat := 40 * frame + lt

/-- Frames since a frame. -/
def Mach.since (m : Mach) (f : Nat) : Nat := m.time.frame - f

/-- At least so many milliseconds of frames have passed since a frame. -/
def Mach.passedMs (m : Mach) (f ms : Nat) : Bool := decide (msF ms ≤ m.since f)

/-! Memory ECC (01 R18 to R20). -/

/-- What an ECC check found in the memory of a subsystem, by its number in 01 R14: a single-bit error is
corrected and counted (01 R19). -/
def Mach.eccSeen (m : Mach) (sub : Nat) (e : Ecc) : Mach :=
  if e == .single then { m with ecc := aSet m.ecc sub (sat32 (aGet m.ecc sub 0)) } else m

/-! The MRAM (chapter 13). -/

/-- The MRAM holds 4 MiB (13 R435). -/
def mramSize : Nat := 0x400000

/-- What an MRAM byte reads as that nothing has written (notes/assumptions/4.md). -/
def mramBlank : BitVec 8 := 0

/-- A list of cells has rising addresses inside the MRAM and no entry equal to the blank byte. -/
def Memory.wfFrom : Nat → List (Nat × BitVec 8) → Bool
  | _, [] => true
  | lo, (a, b) :: r => decide (lo ≤ a) && decide (a < mramSize) && (b != mramBlank) && Memory.wfFrom (a + 1) r

/-- The canonical form of the MRAM. -/
def Memory.wf (l : List (Nat × BitVec 8)) : Bool := Memory.wfFrom 0 l

/-- Read one byte. -/
def Memory.read (l : List (Nat × BitVec 8)) (a : Nat) : BitVec 8 :=
  match l with
  | [] => mramBlank
  | (k, b) :: r => if k == a then b else Memory.read r a

/-- Write one byte, keeping the canonical form; an address outside the MRAM is not written. -/
def Memory.write (l : List (Nat × BitVec 8)) (a : Nat) (b : BitVec 8) : List (Nat × BitVec 8) :=
  if mramSize ≤ a then l else
  match l with
  | [] => if b == mramBlank then [] else [(a, b)]
  | (k, c) :: r =>
    if a < k then (if b == mramBlank then (k, c) :: r else (a, b) :: (k, c) :: r)
    else if a == k then (if b == mramBlank then r else (a, b) :: r)
    else (k, c) :: Memory.write r a b

/-- Write consecutive bytes. -/
def Memory.writeBytes (l : List (Nat × BitVec 8)) (a : Nat) : List Nat → List (Nat × BitVec 8)
  | [] => l
  | b :: bs => Memory.writeBytes (Memory.write l a (BitVec.ofNat 8 b)) (a + 1) bs

/-- Read consecutive bytes. -/
def Memory.readBytes (l : List (Nat × BitVec 8)) (a : Nat) : Nat → List Nat
  | 0 => []
  | n + 1 => (Memory.read l a).toNat :: Memory.readBytes l (a + 1) n

/-- The 64-bit word at an address shares a byte with n bytes from another one. -/
def wordMeets (a n w : Nat) : Bool := decide (w < a + n) && decide (a < w + 8)

/-- Some of n bytes of the MRAM lie in a word with a double-bit error, which is unusable (01 R19). -/
def Mach.damaged (m : Mach) (a n : Nat) : Bool := m.mramBad.any (wordMeets a n)

/-- Words that are written hold good check bits again (notes/assumptions/49.md). -/
def Mach.written (m : Mach) (a n : Nat) : Mach := { m with mramBad := m.mramBad.filter fun w => !wordMeets a n w }

/-- Write bytes to the MRAM. -/
def Mach.poke (m : Mach) (a : Nat) (bs : List Nat) : Mach :=
  { m with mram := Memory.writeBytes m.mram a bs, mramBad := m.mramBad.filter fun w => !wordMeets a bs.length w }

/-- Read bytes of the MRAM. -/
def Mach.peek (m : Mach) (a n : Nat) : List Nat := Memory.readBytes m.mram a n

/-- MARK of a valid record (13 R414). -/
def markValid : Nat := 0xC3A55A3C

/-- A payload brought to 52 bytes. -/
def pad52 (p : List Nat) : List Nat := (p ++ List.replicate 52 0).take 52

/-- CRC of a record: its address, bytes 0 to 51 and bytes 56 to 59 (13 R414). -/
def recordCrc (a : Nat) (payload : List Nat) (seq : Nat) : Nat := crc32c (le 4 a ++ payload ++ le 4 seq)

/-- The 64 bytes of a valid record (13 R414). -/
def recordBytes (a : Nat) (p : List Nat) (seq : Nat) : List Nat :=
  pad52 p ++ le 4 (recordCrc a (pad52 p) seq) ++ le 4 seq ++ le 4 markValid

/-- Write a record in the three steps of 13 R415: the mark cleared, the content, the mark. -/
def Mach.writeRecord (m : Mach) (a : Nat) (p : List Nat) (seq : Nat) : Mach :=
  let r := recordBytes a p seq
  ((m.poke (a + 60) [0, 0, 0, 0]).poke a (r.take 60)).poke (a + 60) (r.drop 60)

/-- Write a record as invalid: its mark alone is cleared (13 R415, R434). -/
def Mach.voidRecord (m : Mach) (a : Nat) : Mach := m.poke (a + 60) [0, 0, 0, 0]

/-- A record's mark is valid (13 R414). -/
def recMarked (r : List Nat) : Bool := leAt r 60 4 == markValid

/-- A record's CRC is good at an address (13 R414). -/
def recGood (a : Nat) (r : List Nat) : Bool := leAt r 52 4 == recordCrc a (r.take 52) (leAt r 56 4)

/-- A record with a valid mark, a good CRC and no double-bit error: its payload and sequence number. -/
def Mach.readRecord (m : Mach) (a : Nat) : Option (List Nat × Nat) :=
  let r := m.peek a 64
  if recMarked r && recGood a r && !m.damaged a 64 then some (r.take 52, leAt r 56 4) else none

/-! The recorder's statistics (chapter 13). -/

/-- Fixed area of a drawer in records (13 R422). -/
def fixedRecords (d : Nat) : Nat :=
  match d with
  | 0 => 22 | 1 => 524 | 2 => 137 | 3 => 3 | 4 => 22 | 5 => 2 | 6 => 0 | 7 => 4 | 8 => 4 | 9 => 44
  | 10 => 10 | 11 => 4 | 12 => 4 | 13 => 4 | 14 => 4 | 15 => 16 | _ => 0

/-- First index and length of each ring of a drawer (13 R422). -/
def ringsOf (d : Nat) : List (Nat × Nat) :=
  match d with
  | 4 => [(22, 3050)] | 5 => [(2, 3070)] | 6 => [(0, 2048), (2048, 1024)] | _ => []

/-- The record of a count (13 R419, R422). -/
def countRecord (d arr idx : Nat) : Nat :=
  match d with
  | 8 => 2 * arr
  | 9 => 6 * arr + idx / 12
  | _ => idx / 12

/-- The record of an extreme item (13 R419, R422). -/
def extRecord (d id : Nat) : Nat :=
  match d with
  | 1 => 12 + id / 2 | 2 => 9 + id / 2 | 8 => 2 * (id / 2) + 1 | 9 => 12 + id / 2 | 10 => 1 + id / 2
  | 3 => id / 2 | 5 => id / 2 | 7 => id / 2 | _ => 3

/-- The recorder takes events: not OFF, and no final flush made (13 R429, R437). -/
def Mach.recording (m : Mach) : Bool := m.rcd.own != .off && !m.rcd.frozen

/-- Change a drawer and mark records of it as changed, whether or not events are recorded. -/
def Mach.drawerSet (m : Mach) (d : Nat) (recs : List Nat) (f : DrawerState → DrawerState) : Mach :=
  { m with rcd.drawers := updAt m.rcd.drawers d fun x =>
      let y := f x
      { y with dirty := recs.foldl (fun l r => if l.contains r then l else l ++ [r]) y.dirty } }

/-- Record something in a drawer and mark its records as changed. -/
def Mach.drawer (m : Mach) (d : Nat) (recs : List Nat) (f : DrawerState → DrawerState) : Mach :=
  if m.recording then m.drawerSet d recs f else m

/-- Add to a sorted list of counts, saturating at 32 bits. -/
def countAdd (l : List (Nat × Nat × Nat)) (arr idx n : Nat) : List (Nat × Nat × Nat) :=
  match l with
  | [] => [(arr, idx, min n (2 ^ 32 - 1))]
  | (a, i, x) :: r =>
    if a == arr && i == idx then (a, i, satAdd 32 x n) :: r
    else if arr < a || (arr == a && idx < i) then (arr, idx, min n (2 ^ 32 - 1)) :: (a, i, x) :: r
    else (a, i, x) :: countAdd r arr idx n

/-- Count n into COUNT array arr of a drawer (13 R422). -/
def Mach.countN (m : Mach) (d arr idx n : Nat) : Mach :=
  m.drawer d [countRecord d arr idx] fun x => { x with counts := countAdd x.counts arr idx n }

/-- Count one. -/
def Mach.count (m : Mach) (d arr idx : Nat) : Mach := m.countN d arr idx 1

/-- Update an extreme item (13 R421): a value equal to the extreme changes nothing. -/
def extAdd (l : List ExtRec) (id : Nat) (v : Int) (t : Nat) : List ExtRec :=
  match l with
  | [] => [⟨id, v, v, t, t⟩]
  | e :: r =>
    if e.id == id then
      { e with min := if v < e.min then v else e.min, tMin := if v < e.min then t else e.tMin,
               max := if e.max < v then v else e.max, tMax := if e.max < v then t else e.tMax } :: r
    else if id < e.id then ⟨id, v, v, t, t⟩ :: e :: r
    else e :: extAdd r id v t

/-- Take a value into an extreme item of a drawer, when it changes it. -/
def Mach.extreme (m : Mach) (d id : Nat) (v : Int) : Mach :=
  let l := (nth m.rcd.drawers d DrawerState.reset).exts
  let l' := extAdd l id v m.ts
  if l' == l then m else m.drawer d [extRecord d id] fun x => { x with exts := l' }

/-- The bin of a value (13 R420). -/
def histBin (edges : List Int) (v : Int) : Nat := (edges.filter fun e => decide (e ≤ v)).length

/-- Count a value in a histogram (13 R420). -/
def histAdd (h : HistRec) (b : Nat) : HistRec := ⟨updAt h.bins b sat32, sat32 h.total⟩

/-- The histogram at an index, made empty where it has not been used. -/
def histsFrom (l : List HistRec) (h : Nat) : List HistRec := l ++ List.replicate (h + 1 - l.length) HistRec.reset

/-- Count a value into HIST h of a drawer under the edges of a type (13 R420). -/
def Mach.hist (m : Mach) (d h type : Nat) (v : Int) : Mach :=
  let b := histBin (m.valAt 0x0400 (pHIST_EDGES_T0 + type)) v
  let part := if b < 12 then 0 else if b < 24 then 1 else 2
  m.drawer d (if part == 2 then [3 * h + 2] else [3 * h + part, 3 * h + 2]) fun x =>
    { x with hists := updAt (histsFrom x.hists h) h fun r => histAdd r b }

/-- Whether a ring entry can be held: fewer than 256 wait (13 R428). -/
def Mach.ringRoom (m : Mach) : Bool := decide (m.rcd.queue.length < 256)

/-- Whether a ring entry that arrives now is dropped: the recorder records it, and 256 wait (13 R428). -/
def Mach.ringFull (m : Mach) : Bool := m.recording && m.time.recEcc != .double && !m.ringRoom

/-- Hold a ring entry for the flush, or drop and count it (13 R428). One that the memory ECC finds bad on its way to the
recorder is as one never received (01 R15, R20). -/
def Mach.ringPush (m : Mach) (d : Nat) (second : Bool) (payload : List Nat) : Mach :=
  if !m.recording || m.time.recEcc == .double then m
  else if m.ringRoom then { m with rcd.queue := m.rcd.queue ++ [⟨d, second, pad52 payload⟩] }
  else
    { m with rcd.qDropped := sat32 m.rcd.qDropped,
             rcd.drawers := updAt m.rcd.drawers d fun x =>
               if second then { x with ring2.dropped := sat32 x.ring2.dropped }
               else { x with ring.dropped := sat32 x.ring.dropped } }

/-! The event queue (chapter 14). -/

/-- Whether a kind enters the queue (14 R465): its bit of EVT_MASK, or one of 0x01, 0x03, 0x0C. -/
def Mach.evtOn (m : Mach) (kind : Nat) : Bool :=
  kind == 1 || kind == 3 || kind == 0xC || bit (m.nat pEVT_MASK) kind

/-- Post an event in this frame (14 R465, R466); it enters the queue at the next tick. -/
def Mach.post (m : Mach) (kind detail unit code data : Nat) : Mach :=
  if m.evtOn kind then
    { m with host.posted := m.host.posted ++ [⟨0, kind, detail, unit, code, data % 2 ^ 32, m.ts % 2 ^ 32⟩] }
  else m

/-- Post the COMPLETED event of a PENDING command (14 R455, R467). -/
def Mach.completed (m : Mach) (op tag status unit data : Nat) : Mach :=
  m.post 3 status unit (op + 256 * tag) data

/-! Faults (00 R13, 17 R518 to R521). -/

/-- A fault is in force. -/
def Mach.inForce (m : Mach) (unit code : Nat) : Bool := m.faults.any fun f => f.unit == unit && f.code == code

/-- A fault code is in force in some unit. -/
def Mach.codeInForce (m : Mach) (code : Nat) : Bool := m.faults.any fun f => f.code == code

/-- Highest class in force (17 R518), as class + 1; 0 when none. -/
def Mach.topClass (m : Mach) : Nat := m.faults.foldl (fun x f => max x (f.cls + 1)) 0

/-- REACTION_CLASS (17 R527): the highest class in force, 0xFF for none. -/
def Mach.reactionClass (m : Mach) : Nat := if m.topClass == 0 then 0xFF else m.topClass - 1

/-- A reaction of at least a class is in force. -/
def Mach.reacting (m : Mach) (cls : Nat) : Bool := decide (cls < m.topClass)

/-- No MOTOR or BRAKE group can be energised for want of a configuration: 0xD9 or 0xDA (00 R12). -/
def Mach.noConfig (m : Mach) : Bool := m.inForce 0 0xD9 || m.inForce 0 0xDA

/-- The stronger of two stop requests (04 R111). -/
def joinStop (a : Option StopKind) (b : StopKind) : Option StopKind :=
  match a, b with
  | some .safe, _ => some .safe
  | _, .safe => some .safe
  | some .ramp, _ => some .ramp
  | _, .ramp => some .ramp
  | _, .immediate => some .immediate

/-- Ask for an engine stop that takes effect at the next tick (04 R108). Of several, the highest
takes effect and the others are counted in PLAN_REJECTS (R111). -/
def Mach.stopReq (m : Mach) (k : StopKind) : Mach :=
  { m with
    eng.rejects := if m.eng.stopReq.isSome then sat32 m.eng.rejects else m.eng.rejects
    eng.stopReq := joinStop m.eng.stopReq k }

/-- Every bench ends at the SYNC of the next frame (10 R332). -/
def Mach.endBenches (m : Mach) : Mach :=
  { m with link.benches := m.link.benches.map fun (b : BenchRec) =>
    if b.on then { b with on := false, due := true, atF := m.time.frame } else b }

/-- An F3 reaction is replaced (00 R13): its exit run and its calls are no longer asked for. -/
def Mach.dropExit (m : Mach) : Mach := { m with sched.exitReq := false, sched.exitF3 := false, sched.f3Served := true }

/-- Start the reaction of a class (00 R13, 17 R521), where no higher one is in force; one of class F4 or F5 replaces an
F3 reaction that is under way. -/
def Mach.react (m : Mach) (cls : Nat) : Mach :=
  if cls == 3 then
    { m with
      sched.exitReq := true
      sched.exitF3 := true
      sched.f3Served := m.sched.f3Served && decide (2 ≤ (m.faults.filter fun f => f.cls == 3).length) }
  else if cls == 4 then { m.dropExit.stopReq .immediate with sched.afterF45 := true }
  else if cls == 5 then
    { m.dropExit.stopReq .safe with sched.afterF45 := true }.endBenches
  else m

/-- Payload of a fault record (13 R423). -/
def Mach.faultPayload (m : Mach) (unit code cls : Nat) (sup : Bool) (c1 c2 : Nat) : List Nat :=
  [3, b2n sup, code, cls] ++ le 2 unit ++ [0, 0] ++ le 8 m.ts ++ le 4 m.fc ++ le 4 m.sec.boots
    ++ le 4 c1 ++ le 4 c2 ++ le 8 m.wall ++ List.replicate 12 0

/-- A fault of a class puts its unit's own state in FAULT: in a channel, a port in bus-off, the
meter, the recorder, the pair and the triad as their chapters say; elsewhere from class F3 up
(notes/assumptions/8.md). -/
def faultState (unit code cls : Nat) : Bool :=
  if 0x0100 ≤ unit && unit ≤ 0x013F then true
  else if unit == 0x0200 || unit == 0x0201 then code == 0xA3
  else if unit == 0x0300 then code == 0xC0
  else if unit == 0x0400 then code == 0xD0
  else if unit == 0x0600 then code == 0x24
  else decide (3 ≤ cls)

/-- Keep a unit's cell, ascending by handle. -/
def cellOf (l : List UnitCell) (h : Nat) (f : UnitCell → UnitCell) : List UnitCell :=
  match l with
  | [] => [f { UnitCell.reset with handle := h }]
  | c :: r =>
    if c.handle == h then f c :: r
    else if h < c.handle then f { UnitCell.reset with handle := h } :: c :: r
    else c :: cellOf r h f

/-- Change a unit's cell. -/
def Mach.cell (m : Mach) (h : Nat) (f : UnitCell → UnitCell) : Mach := { m with units := cellOf m.units h f }

/-- Read a unit's cell. -/
def Mach.cellAt (m : Mach) (h : Nat) : UnitCell :=
  (m.units.find? fun c => c.handle == h).getD { UnitCell.reset with handle := h }

/-- Record a raising: event, count and ring record (13 R422, R424), without holding it in force. -/
def Mach.recordRaise (m : Mach) (unit code cls c1 c2 : Nat) : Mach :=
  let sup := decide (cls + 1 < m.topClass)
  let m1 := (m.post 1 cls unit code c1).count 4 0 code
  let m2 := if unit == 0x0200 || unit == 0x0201 then m1.count 8 (unit - 0x0200) (code - 0xA0) else m1
  m2.ringPush 4 false (m.faultPayload unit code cls sup c1 c2)

/-- A unit enters FAULT: FAULT_LATCHED is set, with the frame of the entry (00 R10; 01 R25), and an enable
pending is cleared (01 R33). -/
def Mach.entersFault (m : Mach) (unit : Nat) : Mach :=
  m.cell unit fun c => { c with latched := true, latchedAt := m.time.frame, pend := false }

/-- Hold a fault in force: FAULT_LATCHED of its unit where it enters FAULT (01 R25), an enable
pending is cleared (01 R33), and the reaction starts unless a higher one is in force (00 R13). -/
def Mach.holdFault (m : Mach) (unit code cls : Nat) : Mach :=
  let sup := decide (cls + 1 < m.topClass)
  let m1 := { m with faults := m.faults ++ [⟨unit, code, cls, m.time.frame, 0⟩] }
  let m2 := if faultState unit code cls then m1.entersFault unit else m1
  if sup then m2 else m2.react cls

/-- A ring entry has been dropped where `full` says so: 0xD4, whose own record is dropped too (13 R428). -/
def Mach.dropNoted (m : Mach) (full : Bool) : Mach :=
  if !full || m.inForce 0x0400 0xD4 then m else (m.recordRaise 0x0400 0xD4 1 0 0).holdFault 0x0400 0xD4 1

/-- Raise a fault of a class with its contexts. One already in force is not raised again. -/
def Mach.raise (m : Mach) (unit code cls : Nat) (c1 c2 : Nat := 0) : Mach :=
  if m.inForce unit code then m else ((m.recordRaise unit code cls c1 c2).holdFault unit code cls).dropNoted m.ringFull

/-- Raise a fault whose table gives it a more severe class than the one it is in force with: a raising of
its own, which takes that class (02 R52; 17 R518). -/
def Mach.raiseWorse (m : Mach) (unit code cls : Nat) : Mach :=
  if m.faults.any fun f => f.unit == unit && f.code == code && decide (f.cls < cls) then
    (({ m with faults := m.faults.filter fun f => !(f.unit == unit && f.code == code) }.recordRaise unit code cls 0 0).holdFault
      unit code cls).dropNoted m.ringFull
  else m.raise unit code cls

/-- Pass a record to a ring, raising 0xD4 where it is dropped (13 R428). -/
def Mach.ringRecord (m : Mach) (d : Nat) (second : Bool) (payload : List Nat) : Mach :=
  (m.ringPush d second payload).dropNoted m.ringFull

/-- Raise a momentary fault: recorded, never in force, and no FAULT_ENDED is posted (09 R273). -/
def Mach.raiseMomentary (m : Mach) (unit code cls : Nat) (c1 c2 : Nat := 0) : Mach :=
  (m.recordRaise unit code cls c1 c2).dropNoted m.ringFull

/-- A fault's condition has ended (14 R467). -/
def Mach.endFault (m : Mach) (unit code : Nat) : Mach :=
  if m.inForce unit code then
    { m with faults := m.faults.filter fun f => !(f.unit == unit && f.code == code) }.post 2 0 unit code 0
  else m

/-- End a code in every unit. -/
def Mach.endCode (m : Mach) (code : Nat) : Mach :=
  m.each (m.faults.filter fun f => f.code == code) fun m f => m.endFault f.unit f.code

/-- Count evidence towards a fault's end, or start it again. -/
def Mach.evidence (m : Mach) (unit code : Nat) (good : Bool) : Mach :=
  { m with faults := m.faults.map fun f =>
      if f.unit == unit && f.code == code then { f with good := if good then f.good + 1 else 0 } else f }

/-- Count evidence, and end the fault once enough has come. -/
def Mach.endAfter (m : Mach) (unit code n : Nat) (good : Bool) : Mach :=
  let m1 := m.evidence unit code good
  if m1.faults.any fun f => f.unit == unit && f.code == code && decide (n ≤ f.good) then m1.endFault unit code else m1

/-- End a fault where a condition holds. -/
def Mach.endIf (m : Mach) (unit code : Nat) (c : Bool) : Mach := if c then m.endFault unit code else m

/-- The class of 0x10: F3 under STOP, F2 under CONTINUE (09 R277). -/
def Mach.triadClass (m : Mach) : Nat := if m.nat pTRIAD_DEGRADED_POLICY == 1 then 2 else 3

end Sys2Proof.Machine
end

