-- ==== Sys2Proof/Machine/Flags.lean ====
section
/-!
DEFINITION. The flags of the block: each unit's own state, and the unit status word with its
aggregation over the unit tree (01 R25 to R29), with the block states of 07 R196 to R198.
-/
namespace Sys2Proof.Machine

open Sys2Proof

/-- Codes that put a block in FAULTED (07 R249). -/
def faultedCode (c : Nat) : Bool :=
  c == 0x61 || c == 0x66 || c == 0x67 || (0x6A ≤ c && c ≤ 0x6F) || c == 0x78

/-- Trips (07 R249). -/
def tripCode (c : Nat) : Bool :=
  c == 0x60 || c == 0x63 || c == 0x64 || (0x70 ≤ c && c ≤ 0x77) || c == 0x79

/-- Class of a block's trip or fault (07 R248); 0x61 is F3 in the door zone block. -/
def blockClass (h c : Nat) : Nat :=
  if c == 0x61 then (if h == 0x0718 then 3 else 5)
  else if c == 0x60 || c == 0x63 || c == 0x64 || c == 0x6B || c == 0x6E || c == 0x71 || c == 0x73 || c == 0x74 || c == 0x75 || c == 0x77 || c == 0x79 then 5
  else if c == 0x6C || c == 0x6D || c == 0x70 || c == 0x72 || c == 0x76 then 4
  else if c == 0x66 || c == 0x67 || c == 0x6A || c == 0x6F || c == 0x78 then 3
  else 1

/-- A core's record of a block. -/
def CoreState.block (k : CoreState) (h : Nat) : BlockRec :=
  (k.blocks.find? fun b => b.handle == h).getD { BlockRec.reset with handle := h }

/-- FB_STATE of a block in one core (07 R196, R198): 4 FAULTED, 3 TRIPPED, 5 BENCH, 2 DEMAND, 1 ARMED. -/
def fbState (b : BlockRec) : Nat :=
  if b.codes.any faultedCode then 4 else if b.codes.any tripCode then 3
  else if b.bench then 5 else if b.demand then 2 else 1

/-- Rank of an FB_STATE from worst to best: FAULTED, TRIPPED, BENCH, DEMAND, ARMED (07 R197). -/
def fbRank (s : Nat) : Nat :=
  match s with
  | 4 => 4 | 3 => 3 | 5 => 2 | 2 => 1 | _ => 0

/-- The worse of two, ties to the lower: most severe class, then lowest code (07 R198). -/
def worseCode (h : Nat) (a b : Nat) : Nat :=
  if a == 0 then b else if b == 0 then a
  else if blockClass h b > blockClass h a then b
  else if blockClass h a > blockClass h b then a
  else min a b

/-- The code a core reports for a block: among those that give its state (07 R198). -/
def fbCode (b : BlockRec) : Nat :=
  let st := fbState b
  let l := if st == 4 then b.codes.filter faultedCode else if st == 3 then b.codes.filter tripCode else []
  l.foldl (worseCode b.handle) 0

/-- The cores that are not excluded, in order. -/
def Mach.coresIn (m : Mach) : List CoreId := [CoreId.a, .b, .c].filter fun c => !m.triad.excluded.get c

/-- Reported state and code of a block (07 R197). -/
def Mach.blockReport (m : Mach) (h : Nat) : Nat × Nat :=
  let l := m.coresIn.map fun c => let b := (m.safe.cores.get c).block h; (fbState b, fbCode b)
  let worst := l.foldl (fun x y => if fbRank y.1 > fbRank x then y.1 else x) 1
  (worst, ((l.find? fun y => y.1 == worst).map (·.2)).getD 0)

/-- The core whose numeric attributes are published (07 R197). -/
def Mach.pubCore (m : Mach) : CoreState := m.safe.cores.get (m.coresIn.headD .a)

/-- PAIR_ROLE of some processor is ACTIVE (09 R283). -/
def Mach.pairActive (m : Mach) : Bool := m.pair.aps.a.role == 4 || m.pair.aps.b.role == 4

/-- Faults in force that put a unit's own state in FAULT. -/
def Mach.stateFaults (m : Mach) (h : Nat) : List FaultRec :=
  m.faults.filter fun f => f.unit == h && faultState f.unit f.code f.cls

/-- The own fault code of a unit: the most severe class, then the lowest code (01 R27). -/
def Mach.ownCode (m : Mach) (h : Nat) : Nat :=
  if 0x0700 ≤ h && h ≤ 0x07FF then (m.blockReport h).2 else
  let l := m.faults.filter fun f => f.unit == h
  let top := l.foldl (fun x f => max x f.cls) 0
  (l.filter fun f => f.cls == top).foldl (fun x f => if x == 0 || f.code < x then f.code else x) 0

/-- Own state of a channel unit (10 R333). -/
def Mach.channelState (m : Mach) (c : Nat) : UState :=
  if m.stateFaults (chHandle c) != [] then .fault
  else if bit m.field.bench c then .bypassed
  else if (m.cellAt (chHandle c)).offAfter then .off
  else if m.chan c pCH_MODE == 0 then .off
  else (m.cellAt (chHandle c)).own

/-- A core is out of the vote for its proof test or rejoining (09 R280 to R282). -/
def TriadState.testing (t : TriadState) : Bool := t.proof.isSome && (t.proofOut || t.rejoinAt != 0)

/-- Own state of a unit; none for a user group (01 R24, R25). One disabled in FAULT is OFF when its fault ends (R30). Before the first frame every unit reads OFF,
the reset value of STATE. -/
def Mach.ownState (m : Mach) (h : Nat) : Option UState :=
  if 0x2000 ≤ h then none
  else if !m.time.running then some .off
  else if 0x0700 ≤ h && h ≤ 0x07FF then
    some (match (m.blockReport h).1 with
      | 4 => .fault | 3 => .fault | 5 => .bypassed | _ => .on)
  else if 0x0100 ≤ h && h ≤ 0x013F then some (m.channelState (h - 0x0100))
  else if h == 0x0600 then some (if m.pairActive || m.power.state == 3 then .on else .fault)
  else if m.stateFaults h != [] then some .fault
  else if (m.cellAt h).offAfter then some .off
  else if h == 0 then some (if m.start.ready then .on else .starting)
  else if h == 2 then some m.doors.a.own
  else if h == 3 then some m.doors.b.own
  else if h == 0x0200 then some m.bus.ports.a.own
  else if h == 0x0201 then some m.bus.ports.b.own
  else if h == 0x0300 then some (if m.meter.meas.isSome then .test else m.meter.own)
  else if h == 0x0400 then some m.rcd.own
  else if h == 0x0500 then some (if m.triad.testing then .test else .on)
  else some (m.cellAt h).own

/-- Rank of a state from worst to best (01 R26). -/
def stateRank : UState → Nat
  | .fault => 6
  | .bypassed => 5
  | .test => 4
  | .stopping => 3
  | .starting => 2
  | .on => 1
  | .off => 0

/-- Code of a state (01 R25). -/
def stateCode : UState → Nat
  | .off => 0
  | .starting => 1
  | .on => 2
  | .stopping => 3
  | .fault => 4
  | .bypassed => 5
  | .test => 6

/-- WARNING of a unit itself: an F1 fault in force, and the cases its chapter names. -/
def Mach.ownWarning (m : Mach) (h : Nat) : Bool :=
  (m.faults.any fun f => f.unit == h && f.cls == 1)
    || (h == 0x0300 && m.meter.events != [])
    || (h == 2 && m.doors.a.warn) || (h == 3 && m.doors.b.warn)

/-- DEGRADED of a unit itself: an F2 fault in force other than one that puts the unit in FAULT, as the worked
example of chapter 01 shows (DEDUCED, notes/assumptions/13.md), the triad without all cores in the vote (09 R280, R282),
the pair with one ACTIVE and the other not STANDBY (09 R283). -/
def Mach.ownDegraded (m : Mach) (h : Nat) : Bool :=
  (m.faults.any fun f => f.unit == h && f.cls == 2 && !faultState f.unit f.code f.cls)
    || (h == 0x0500 && (m.triad.testing || m.triad.excluded.count != 0))
    || (h == 0x0600 && m.pairActive && m.pair.aps.a.role != 3 && m.pair.aps.b.role != 3)

/-- BENCH of a unit itself: of a block, while some core's record of it is on bench, whatever state it reports. -/
def Mach.ownBench (m : Mach) (h : Nat) : Bool :=
  if 0x0100 ≤ h && h ≤ 0x013F then bit m.field.bench (h - 0x0100)
  else if 0x0700 ≤ h && h ≤ 0x07FF then m.coresIn.any fun c => ((m.safe.cores.get c).block h).bench
  else false

/-- Put a number into an ascending list. -/
def placeNat (x : Nat) : List Nat → List Nat
  | [] => [x]
  | y :: r => if x ≤ y then x :: y :: r else y :: placeNat x r

/-- Direct children that exist, ascending (01 R21, R23). -/
def Mach.kids (m : Mach) (h : Nat) : List Nat :=
  if h == 0 then [1] ++ (List.range 64).map chHandle ++ [0x0200, 0x0201, 0x0300, 0x0400, 0x0500, 0x0600]
  else if h == 1 then [2, 3] ++ m.blocks ++ m.landings.map landingHandle
  else if 0x2000 ≤ h then
    match m.groups.find? fun g => g.handle == h with
    | some g => (g.kids.filter m.exists).foldr placeNat []
    | none => []
  else []

/-- Every unit reached from a worklist, each once; the fuel bounds the number of units. -/
def Mach.reach (m : Mach) : Nat → List Nat → List Nat → List Nat
  | 0, _, seen => seen
  | _ + 1, [], seen => seen
  | n + 1, h :: r, seen =>
    if seen.contains h then m.reach n r seen else m.reach n (m.kids h ++ r) (seen ++ [h])

/-- The distinct descendants of a unit at any depth. -/
def Mach.descendants (m : Mach) (h : Nat) : List Nat := m.reach 300000 (m.kids h) []

/-- Worst own state among units, OFF when none has one (01 R26). -/
def Mach.worst (m : Mach) (l : List Nat) : UState :=
  l.foldl (fun x h => match m.ownState h with
    | some s => if stateRank s > stateRank x then s else x
    | none => x) .off

/-- The reported state of a unit (01 R26). -/
def Mach.reported (m : Mach) (h : Nat) : UState := m.worst (h :: m.descendants h)

/-- The reported fault code (01 R27), following the lowest faulted child; the fuel bounds the depth. -/
def Mach.codeOf (m : Mach) : Nat → Nat → Nat
  | 0, _ => 0
  | n + 1, h =>
    if m.ownState h == some .fault then m.ownCode h
    else match (m.kids h).find? fun k => m.reported k == .fault with
      | some k => m.codeOf n k
      | none => 0

/-- FAULT_LATCHED of a unit itself. -/
def Mach.ownLatched (m : Mach) (h : Nat) : Bool := (m.cellAt h).latched

/-- ENABLE_PENDING of a unit itself. -/
def Mach.ownPending (m : Mach) (h : Nat) : Bool := (m.cellAt h).pend

/-- The unit status word (01 R25). -/
def Mach.statusWord (m : Mach) (h : Nat) : Nat :=
  let ds := m.descendants h
  let all := h :: ds
  let st := m.worst all
  let nf := min 0xFFFF (ds.filter fun d => m.ownState d == some .fault).length
  stateCode st
    + 8 * b2n (all.any m.ownPending)
    + 16 * b2n (all.any m.ownWarning)
    + 32 * b2n (all.any m.ownLatched)
    + 64 * b2n (all.any m.ownDegraded)
    + 128 * b2n (all.any m.ownBench)
    + 256 * (if st == .fault then m.codeOf 4096 h else 0)
    + 65536 * nf

/-- Writing 1 to FAULT_LATCHED (01 R29): cleared in the unit and every descendant that is not in
FAULT; a unit that entered FAULT in this frame keeps it (00 R10). -/
def Mach.clearLatched (m : Mach) (h : Nat) : Mach :=
  m.each (h :: m.descendants h) fun m d =>
    let c := m.cellAt d
    if m.reported d == .fault || !c.latched || c.latchedAt == m.time.frame then m
    else m.cell d fun c => { c with latched := false }

end Sys2Proof.Machine
end

