-- ==== Sys2Proof/Machine/Car.lean ====
section
/-!
DEFINITION. What many rules ask of the car: its fused position and quality, whether it is
stationary, its current landing, whether the doors are closed (00 R12; 03 R82, R90), modes and
service (17 R519).
-/
namespace Sys2Proof.Machine

open Sys2Proof

/-- The processor whose estimate is published: the tether holder, else PAIR_PREFERRED (03 R95). -/
def Mach.apOf (m : Mach) : Ab :=
  match m.pair.holder with
  | some a => a
  | none => if m.nat pPAIR_PREFERRED == 2 then .b else .a

/-- The estimate that reads are served from. -/
def Mach.est (m : Mach) : EstState := m.pos.est.get m.apOf.proc

/-- FUSE_POS. -/
def Mach.fpos (m : Mach) : Int := m.est.pubP

/-- FUSE_VEL. -/
def Mach.fvel (m : Mach) : Int := m.est.pubV

/-- Readers that are configured: one or two (03 R95). -/
def Mach.readersUsed (m : Mach) : List Ab := if m.nat pTAPE_READERS == 2 then [.a, .b] else [.a]

/-- Some configured reader is in use in a processor. -/
def Mach.readsTape (m : Mach) (e : EstState) : Bool := m.readersUsed.any fun r => !(e.readers.get r).lost

/-- Some configured reader is in use in the processor whose estimate is published. -/
def Mach.tapeInUse (m : Mach) : Bool := m.readsTape m.est

/-- MOUNT is CABINET (03 R92). -/
def Mach.mountCabinet (m : Mach) : Bool := m.nat pMOUNT == 1

/-- POS_QUALITY of a processor (03 R90): 3 FULL, 2 DEGRADED, 1 LIMITED, 0 LOST. -/
def Mach.qualityOf (m : Mach) (e : EstState) : Nat :=
  if !e.inited || e.noRef then 0
  else if !m.readsTape e then (if e.encLost then 0 else 1)
  else if !e.confirmed then 1
  else if (m.readersUsed.any fun r => (e.readers.get r).lost)
      || (e.accLost && !m.mountCabinet) || e.encLost then 2
  else 3

/-- POS_QUALITY as published (03 R95). -/
def Mach.quality (m : Mach) : Nat := m.qualityOf m.est

/-- Stationary on an estimate: |v| below 1000 µm/s for at least four consecutive frames (00 R12). -/
def EstState.stationary (e : EstState) : Bool := decide (4 ≤ e.still)

/-- The car is stationary (00 R12). -/
def Mach.stationary (m : Mach) : Bool := m.est.stationary

/-- The landing whose door zone contains a position. -/
def Mach.zoneOf (m : Mach) (p : Int) : Option Nat :=
  m.landings.find? fun l => decide (m.land l pDZ_LOW ≤ p) && decide (p ≤ m.land l pDZ_HIGH)

/-- The current landing (00 R12): none while POS_QUALITY is LOST. -/
def Mach.curLanding (m : Mach) : Option Nat := if m.quality == 0 then none else m.zoneOf m.fpos

/-- The current landing as events and records carry it: 0xFFFF for none. -/
def Mach.curLandingN (m : Mach) : Nat := m.curLanding.getD 0xFFFF

/-- A side is CLOSED: its position and its contact have said so for four frames, and still do (06 R161). -/
def Mach.sideClosed (m : Mach) (s : Ab) : Bool := (m.doors.get s).state == 1 && decide (4 ≤ (m.doors.get s).closedRun)

/-- A side is served at some landing. -/
def Mach.servedAnywhere (m : Mach) (s : Ab) : Bool := m.landings.any fun l => m.serves l s

/-- The doors are closed (00 R12). -/
def Mach.doorsClosed (m : Mach) : Bool :=
  [Ab.a, .b].all fun s =>
    match m.curLanding with
    | some l => !m.serves l s || m.sideClosed s
    | none => !m.servedAnywhere s || m.sideClosed s

/-- Every side that exists anywhere is CLOSED. -/
def Mach.allSidesClosed (m : Mach) : Bool := [Ab.a, .b].all fun s => !m.servedAnywhere s || m.sideClosed s

/-- The car is stationary with the doors closed (00 R12); both hold while 0xD9 or 0xDA is in force. -/
def Mach.still (m : Mach) : Bool := m.noConfig || (m.stationary && m.doorsClosed)

/-- LEVEL_ERROR (03 R82): 0x8000_0000 without a current landing. -/
def Mach.levelError (m : Mach) : Int :=
  match m.curLanding with
  | some l => m.fpos - m.land l pSILL_LEVEL
  | none => -2147483648

/-- A core is out for its proof test or rejoins (09 R280, R281); in the frame of acceptance it still
votes. -/
def Mach.coreOff (m : Mach) (c : CoreId) : Bool :=
  m.triad.proof == some c && (m.triad.proofOut || m.triad.rejoinAt != 0)

/-- A core's vote counts: it is neither excluded nor out for its proof test. -/
def Mach.coreVotes (m : Mach) (c : CoreId) : Bool :=
  !m.triad.excluded.get c && !m.coreOff c

/-- The cores that vote. -/
def Mach.voters (m : Mach) : List CoreId := [CoreId.a, .b, .c].filter m.coreVotes

/-- A condition set by at least two voting cores, or by both while two run (07 R194). -/
def Mach.twoCores (m : Mach) (f : CoreState → Bool) : Bool :=
  decide (2 ≤ (m.voters.filter fun c => f (m.safe.cores.get c)).length)

/-- A core latches its header word: it runs and has seen its tick. -/
def Mach.heads (m : Mach) (c : CoreId) : Bool :=
  m.triad.mails.get c && !m.triad.dead.get c && !m.time.ticksMissed.get c

/-- A core latches its vector in time (02 R42, R53; 03 R78). -/
def Mach.latches (m : Mach) (c : CoreId) : Bool :=
  m.heads c && !m.triad.late.get c && !m.triad.stopVec.get c && !(m.triad.proofOut && m.triad.proof == some c)

/-- A bit that the cores write into the engines is in force (06 R157, R159; 07 R194): as two cores set it whose vectors
came for that frame, and never once the triad is lost (09 R275). -/
def Mach.bits (m : Mach) (f : CoreState → Bool) : Bool :=
  !m.triad.lost && m.twoCores f && decide (2 ≤ (m.voters.filter fun c => m.safe.came.get c && f (m.safe.cores.get c)).length)

/-- Inspection mode is active, as the cores judge it. -/
def Mach.inspection (m : Mach) : Bool := m.twoCores (·.insp)

/-- Evacuation mode is active. -/
def Mach.evacuation (m : Mach) : Bool := m.twoCores (·.evac)

/-- A run is in progress (07 R207). -/
def Mach.inRun (m : Mach) : Bool := m.twoCores (·.running)

/-- V_RATED. -/
def Mach.vRated (m : Mach) : Nat := m.nat pV_RATED

/-- The car unit accepts service: neither OFF nor STOPPING (17 R519). -/
def Mach.carOn (m : Mach) : Bool :=
  let u := (m.cellAt 1).own
  u != .off && u != .stopping

/-- Faults that hold the car out of service only until their own reaction has completed (17 R520). -/
def lateFault (c : Nat) : Bool := c == 0x25 || c == 0x46 || c == 0x4A || c == 0x6F || c == 0x3B

/-- A reaction that holds the car out of service: class F4 or F5 from its raising, F3 once the calls
of 05 R145 are answered or there are none (17 R521); a fault of 17 R520 only until its own reaction
has completed. -/
def Mach.barred (m : Mach) : Bool :=
  m.faults.any fun f =>
    if lateFault f.code then decide (4 ≤ f.cls) && !(m.stationary && m.eng.mode == 0)
    else decide (4 ≤ f.cls) || (f.cls == 3 && m.sched.f3Served)

/-- The conditions of 17 R519 for service. -/
def Mach.mayServe (m : Mach) : Bool :=
  m.start.ready && !m.barred && !m.inspection && !m.evacuation && m.carOn

/-- The safety frame is that of DOZE or PARK (15 R486): from the first frame on whose count it begins,
until the end of the one in which a wake comes. -/
def Mach.longFrame (m : Mach) : Bool :=
  match m.power.slowFrom with
  | none => false
  | some f => decide (f ≤ m.time.frame) && (match m.power.fastFrom with
    | none => true
    | some g => decide (m.time.frame < g))

/-- Frames in a safety frame of the power state in force: 1 ms in DOZE, 4 ms in PARK (15 R482). -/
def Mach.safetySpan (m : Mach) : Nat := if m.power.state == 3 then 16 else if m.power.state == 2 then 4 else 1

/-- A safety frame begins in this frame. -/
def Mach.safetyFrameNow (m : Mach) : Bool := m.time.frame % m.safetySpan == 0

/-- HOST_STATE (14 R471): 0 NOT_READY, 1 SERVING, 2 ASLEEP. -/
def Mach.hostState (m : Mach) : Nat := if m.power.state == 3 then 2 else if m.host.serving then 1 else 0

end Sys2Proof.Machine
end

