-- ==== Sys2Proof/Machine/Serve.lean ====
section
/-!
DEFINITION. How a host command is served and answered (14 R449 to R456), and the parameter
accesses of UNIT_GET, UNIT_SET and the commands that carry entries in the same form (14 R456 to
R458), without the values that other chapters compute.
-/
namespace Sys2Proof.Machine

open Sys2Proof

/-- The status codes of 14 R464. -/
def stOK : Nat := 0x00
def stPENDING : Nat := 0x01
def stBUSY : Nat := 0x02
def stBAD_CRC : Nat := 0x10
def stBAD_LENGTH : Nat := 0x11
def stUNKNOWN_OPCODE : Nat := 0x12
def stBAD_PARAM : Nat := 0x13
def stTRUNCATED : Nat := 0x14
def stDENIED : Nat := 0x20
def stLOCKED_OUT : Nat := 0x21
def stWRONG_MODE : Nat := 0x22
def stRETRY : Nat := 0x23
def stUNIT_UNKNOWN : Nat := 0x30
def stUNIT_FAULT : Nat := 0x31
def stSIG_INVALID : Nat := 0x40
def stROLLBACK : Nat := 0x41

/-- Opcodes served before READY (14 R454). -/
def earlyOpcode (op : Nat) : Bool :=
  decide (op ≤ 0x05) || op == 0x10 || op == 0x11 || op == 0x23 || (0x80 ≤ op && op ≤ 0x86) || op == 0x91

/-- The port serves commands in this frame: it has come up (14 R454), the module is not in PARK
(R447), no state save has begun, and the tether holder delivers the frame (R453). -/
def Mach.serves? (m : Mach) : Bool :=
  m.host.serving && m.power.on && m.power.state != 3 && m.power.save.isNone && !m.time.ballast

/-- Before READY, or a condition that blocks it, only the early opcodes are served (14 R454). -/
def Mach.admits (m : Mach) (op : Nat) : Bool := m.start.ready || m.start.step == 7 || earlyOpcode op

/-- Entries of the event queue (EVT_QUEUED, 14 R471). -/
def Mach.evtQueued (m : Mach) : Nat := m.host.queue.length

/-- An OVERFLOW entry is held (14 R469). -/
def Mach.overflowHeld (m : Mach) : Bool := m.host.queue.any fun e => e.kind == 0xC

/-- RFLAGS of a reply (14 R449). -/
def Mach.rflags (m : Mach) : Nat :=
  b2n m.host.prevLost + 2 * b2n m.overflowHeld + 4 * b2n (!m.start.ready)

/-- Prepare the reply of a command served in this frame (14 R449, R453): HBSY stays high until it
is ready. A command that passed every check of R451 counts as accepted (14 R451, R471). -/
def Mach.reply (m : Mach) (op tag status : Nat) (payload : List Nat) : Mach :=
  { m with
    host.packets := if status ≤ stPENDING then sat32 m.host.packets else m.host.packets
    host.prep := some ⟨op, tag, status, m.rflags, min 255 m.evtQueued, payload⟩,
    host.prepAt := m.time.frame, host.prepLate := false, host.taken := none, host.hbsy := true }

/-- Serve a command: outside a serving frame nothing happens; before READY most are refused with
0x22 (14 R454); otherwise the command's own rules decide status and payload. -/
def serve (s : State) (op tag : Nat) (f : Mach → Mach × Nat × List Nat) : Res :=
  if !s.now.serves? then .next s
  else if !s.now.admits op then .next { s with now := s.now.reply op tag stWRONG_MODE [] }
  else
    let r := f s.now
    .next { s with now := r.1.reply op tag r.2.1 r.2.2 }

/-- A refusal that changes nothing. -/
def refuse (m : Mach) (status : Nat) : Mach × Nat × List Nat := (m, status, [])

/-- Accepted without a payload. -/
def ok (m : Mach) : Mach × Nat × List Nat := (m, stOK, [])

/-- Accepted with completion to follow. -/
def pending (m : Mach) : Mach × Nat × List Nat := (m, stPENDING, [])

/-- Units that only exist while configured still carry their attributes for staging (08 R260); an
access needs the unit to exist (14 R457). -/
def Mach.carries (m : Mach) (h id : Nat) : Option PRow :=
  match rowFor h id with
  | none => none
  | some r => if r.home == .block && !attrApplies h id && id != pFB_ENABLE then some r else if m.exists h then some r else none

/-- PARK_LANDING names a landing in use, or none (05 R146). -/
def Mach.parkLandingOk (m : Mach) (l : Int) : Bool := l == 0xFFFF || decide (l < m.nLandings)

/-- How a UNIT_SET entry is judged: its status (00 R9; 14 R456, R458). -/
def Mach.setStatus (m : Mach) (h : Nat) (e : SetEntry) : Nat :=
  match rowFor h e.id with
  | none => stBAD_PARAM
  | some r =>
    if r.home == .block && (!attrApplies h e.id || (e.id == pFB_ENABLE && blockAlways h)) then stBAD_PARAM
    else if r.acc == .ro || r.acc == .cab then stDENIED
    else match decodeVal r e.val with
      | none => stBAD_PARAM
      | some v =>
        if !valueOk r v || (h == 0 && e.id == pPARK_LANDING && !m.parkLandingOk (v.headD 0)) then stBAD_PARAM
        else if r.acc == .still && !m.still then stWRONG_MODE
        else stOK

/-- The statuses of entries, and the first refusal. -/
def firstRefusal (l : List Nat) : Nat := (l.find? fun x => x != 0).getD 0

/-- Accept the entries of a command, named by its opcode and tag: they wait for the next tick (14 R458,
R471; 00 R12). -/
def Mach.defer (m : Mach) (cmd : Nat × Nat) (h : Nat) (es : List SetEntry) : Mach :=
  m.each es fun m e =>
    match rowFor h e.id with
    | some r => { m with deferred := m.deferred ++ [⟨h, e.id, decodeElems r r.count e.val, r.acc == .still, cmd⟩] }
    | none => m

/-- Reply payload of a command with entries: ID and status of each (14 R458). -/
def setReply (es : List SetEntry) (sts : List Nat) : List Nat :=
  (es.zip sts).flatMap fun (e, st) => le 2 e.id ++ [st]

/-- A command with entries carries 1 to 64 of them (14 R458). -/
def countOk (es : List SetEntry) : Bool := decide (1 ≤ es.length) && decide (es.length ≤ 64)

/-- UNIT_SET and its like (14 R458): all entries, or nothing. `extra` adds the rules of the
chapter that owns a parameter: a status for an entry that passed the rest. -/
def Mach.setEntries (m : Mach) (cmd : Nat × Nat) (h : Nat) (es : List SetEntry) (extra : Mach → Nat → SetEntry → Nat) :
    Mach × Nat × List Nat :=
  if !countOk es then refuse m stBAD_LENGTH
  else if !m.exists h then refuse m stUNIT_UNKNOWN
  else
    let sts := es.map fun e => let s := m.setStatus h e; if s == 0 then extra m h e else s
    let bad := firstRefusal sts
    if bad == 0 then (m.defer cmd h es, stOK, setReply es sts) else (m, bad, setReply es sts)

/-- A reply payload of entries (14 R458) with the status of some IDs changed. -/
def markEntries (ids : List Nat) (st : Nat) : List Nat → List Nat
  | lo :: hi :: x :: r => lo :: hi :: (if ids.contains (lo + 256 * hi) then st else x) :: markEntries ids st r
  | l => l

/-- A reply that has not been delivered yet reports the refusal of a command's STILL writes (00 R12). -/
def Reply.lateRefusal (r : Reply) (cmd : Nat × Nat) (ids : List Nat) : Reply :=
  if r.opcode == cmd.1 && r.tag == cmd.2 && r.status == stOK then
    { r with status := stWRONG_MODE, payload := markEntries ids stWRONG_MODE r.payload }
  else r

/-- The car has moved or a door has opened before the tick of a STILL write (00 R12): the command that made
it is refused with 0x22, and as all of its entries take effect together (14 R458), none of them does. A reply not yet
delivered reports it; of one already delivered the spec says nothing, and the write is dropped without a report (DESIGN
CHOICE, notes/assumptions/16.md). -/
def Mach.refuseStill (m : Mach) (cmd : Nat × Nat) : Mach :=
  let ids := (m.deferred.filter fun (d : Deferred) => d.still && d.cmd == cmd).map fun (d : Deferred) => d.id
  { m with
    deferred := m.deferred.filter fun (d : Deferred) => d.cmd != cmd
    host.held := m.host.held.map fun (r : Reply) => r.lateRefusal cmd ids
    host.prep := m.host.prep.map fun (r : Reply) => r.lateRefusal cmd ids }

/-- STILL writes whose condition has ceased are refused (00 R12). -/
def Mach.stillCheck (m : Mach) : Mach :=
  if m.still then m
  else m.each ((m.deferred.filter fun (d : Deferred) => d.still).map fun (d : Deferred) => d.cmd) Mach.refuseStill

/-- Apply the writes whose tick has come (00 R12). -/
def Mach.applyDeferred (m : Mach) : Mach :=
  let m1 := m.stillCheck
  { (m1.each m1.deferred fun m d => m.put d.handle d.id d.val) with deferred := [] }

/-- Final status of a run that ended before its result (notes/assumptions/12.md). -/
def stAborted : Nat := stWRONG_MODE

/-- End a learning run without a stop of its own: nothing is staged (03 R86). -/
def Mach.quitLearn (m : Mach) : Mach :=
  if m.pos.learn.active then
    { m with pos.learn := { LearnState.reset with tag := m.pos.learn.tag } }.completed 0x24 m.pos.learn.tag stAborted 1 0
  else m

/-- End a learning run with a normal stop: nothing is staged, no fault (03 R86). -/
def Mach.endLearn (m : Mach) : Mach :=
  if m.pos.learn.active then (if m.eng.stop.isNone then m.stopReq .immediate else m).quitLearn else m

/-- End a HOME run that a stop has ended. -/
def Mach.endHome (m : Mach) : Mach :=
  if m.pos.home.active then
    { m with pos.home := HomeState.reset }.completed 0x25 m.pos.home.tag stAborted 1 0
  else m

/-- A cabinet session is open (08 R256). -/
def Mach.session (m : Mach) : Bool := m.cab.session.isSome

end Sys2Proof.Machine
end

