-- ==== Sys2Proof/Machine/Meter.lean ====
section
/-!
DEFINITION. The energy meter (chapter 12): samples and the four-quadrant registers, windows and
quantities, frequency, supply events, trips and hours, save sets, calibration, and its commands.
-/
namespace Sys2Proof.Machine

open Sys2Proof

/-- Handle of the meter. -/
def meterUnit : Nat := 0x0300

/-- The voltage inputs that carry a phase in use (12 R382): one in 1P2W, else three. -/
def Mach.phasesUsed (m : Mach) : List Nat := if m.met pMETER_WIRING == 2 then [0] else [0, 1, 2]

/-- Nominal period in 0.1 µs (12 R387). -/
def Mach.nominalPeriod (m : Mach) : Nat := if m.met pF_NOMINAL == 1 then 166667 else 200000

/-- Period in force in 0.1 µs: the measured one while frequency is valid (12 R387, R389). -/
def Mach.periodInForce (m : Mach) : Nat := if m.meter.freqValid then m.meter.period else m.nominalPeriod

/-- A period in whole samples of 31.25 µs, rounded (12 R389). -/
def periodSamples (tenths : Nat) : Nat := (2 * tenths * 4 + 1250) / 2500

/-- Samples in one averaging window (12 R389). -/
def Mach.nSamples (m : Mach) : Nat := max 1 (periodSamples m.periodInForce)

/-- Samples in a quarter period, rounded (12 R388; notes/assumptions/26.md). -/
def Mach.quarterSamples (m : Mach) : Nat := (m.nSamples + 2) / 4

/-- Three times the phase voltages of a sample, in units of 10⁻⁶ LSB: 3 u_n, or the differences that
refer the inputs to the virtual neutral in 3P3W (12 R388). -/
def phaseU (wiring : Nat) (s : List Int) : List Int :=
  let v := fun k => nth s k 0
  if wiring == 1 then [v 0 - v 2, v 1 - v 0, v 2 - v 1] else [3 * v 0, 3 * v 1, 3 * v 2]

/-- The three phase currents of a sample. -/
def phaseI (s : List Int) : List Int := [nth s 3 0, nth s 4 0, nth s 5 0]

/-- Sum over samples of the product of one phase's entries in two lists. -/
def sumProd (k : Nat) (xs ys : List (List Int)) : Int :=
  ((xs.zip ys).map fun p => nth p.1 k 0 * nth p.2 k 0).foldl (· + ·) 0

/-- The most recent n samples, zeros before the first one. -/
def recent (n : Nat) (l : List (List Int)) : List (List Int) := l.take n

/-- Floor of the square root of numbers below 2^256. -/
def isqrtBig (x : Nat) : Nat := isqrtGo 128 x 0

/-- √(num / den) to the nearest integer. -/
def rootNear (num den : Nat) : Nat := (isqrtBig (4 * num / den) + 1) / 2

/-- What the meter averages over its last N samples (12 R389), as integers still to be scaled:
ΣΣ u·i, ΣΣ u90·i, and N · Σ √(mean u² · mean i²), all with u tripled. -/
structure Averages where
  n : Nat
  p : Int
  q : Int
  s : Nat
  deriving DecidableEq, Repr

/-- Form the averages over the newest samples. -/
def Mach.averages (m : Mach) : Averages :=
  let n := m.nSamples
  let w := m.met pMETER_WIRING
  let all := m.meter.samples
  let us := (recent n all).map (phaseU w)
  let u90 := (recent n (all.drop m.quarterSamples)).map (phaseU w)
  let is := (recent n all).map phaseI
  let ph := m.phasesUsed
  ⟨n, (ph.map fun k => sumProd k us is).foldl (· + ·) 0,
    (ph.map fun k => sumProd k u90 is).foldl (· + ·) 0,
    sumN (ph.map fun k => rootNear ((sumProd k us us).toNat * (sumProd k is is).toNat) 1)⟩

/-- Denominator that turns a sum of n tripled products, times VOLT_SCALE and CUR_SCALE, into watts:
1.0 V and 0.5 V full scale of 2^23 LSB (12 R382), gains in ppm, scales in 10⁻³. -/
def wattDen (n : Nat) : Nat := 3 * 2 ^ 47 * 10 ^ 18 * n

/-- VOLT_SCALE × CUR_SCALE. -/
def Mach.uiScale (m : Mach) : Nat := m.met pVOLT_SCALE * m.met pCUR_SCALE

/-- S_NOM² in (µVA)² with the factor of the wiring (12 R391). -/
def Mach.sNomSq (m : Mach) : Nat :=
  let k := match m.met pMETER_WIRING with
    | 0 => 9 | 1 => 3 | _ => 1
  k * (m.met pU_DECL * m.met pI_NOM) ^ 2

/-- An apparent power is below 0.1 % of S_NOM (12 R391). -/
def Mach.belowStart (m : Mach) (s n : Nat) : Bool :=
  decide ((s * m.uiScale) ^ 2 * 10 ^ 18 < m.sNomSq * (wattDen n) ^ 2)

/-- An increment of one sample in 2^-16 µWh (12 R392): watts × 31.25 µs, to the nearest. -/
def Mach.increment (m : Mach) (x n : Nat) : Nat :=
  let num := x * m.uiScale * 5120
  let den := 9 * wattDen n
  (2 * num + den) / (2 * den)

/-- Add an increment to a register, carrying the fraction (12 R392). -/
def accAdd (a : AccQ) (inc : Nat) : AccQ :=
  let t := a.frac + inc
  ⟨(a.whole + t / 65536) % 2 ^ 64, t % 65536⟩

/-- Whether nothing accumulates (12 R393): OFF, or fault 0x0C or 0xC0 in force. -/
def Mach.meterGap (m : Mach) : Bool := m.meter.own == .off || m.codeInForce 0x0C || m.inForce meterUnit 0xC0

/-- The register of each kind that takes a sample (12 R389): active, reactive, apparent. -/
def quadrantRegs (p q : Int) : Nat × Nat × Nat :=
  (if 0 ≤ p then 0 else 1,
   if 0 ≤ p then (if 0 ≤ q then 2 else 5) else (if 0 ≤ q then 3 else 4),
   if 0 ≤ p then 6 else 7)

/-- Whole units a register holds. -/
def Mach.accW (m : Mach) (k : Nat) : Nat := (nth m.meter.acc k AccQ.reset).whole

/-- Accumulate one sample (12 R389 to R393, R397, R398). -/
def Mach.accumulate (m : Mach) (v : Averages) : Mach :=
  if m.meterGap then
    { m with
      meter.gapN := m.meter.gapN + 1
      meter.trip := m.meter.trip.map fun t => { t with flags := t.flags ||| 4 } }
  else if m.belowStart v.s v.n then { m with meter.noAccum := true }
  else
    let r := quadrantRegs v.p v.q
    let acc := updAt m.meter.acc r.1 fun a => accAdd a (m.increment v.p.natAbs v.n)
    let acc := updAt acc r.2.1 fun a => accAdd a (m.increment v.q.natAbs v.n)
    let acc := updAt acc r.2.2 fun a => accAdd a (m.increment v.s v.n)
    let grown := (nth acc r.1 AccQ.reset).whole - m.accW r.1
    { m with
      meter.noAccum := false
      meter.acc := acc
      meter.hourRun := if m.meter.trip.isSome then updAt m.meter.hourRun r.1 fun x => x + grown else m.meter.hourRun }

/-- A reading at full scale of the 24-bit converter. -/
def fullScale (x : Int) : Bool := decide (x ≤ -8388608) || decide (8388607 ≤ x)

/-- The corrected sample of a channel in 10⁻⁶ LSB (12 R385): offset, then gain. -/
def Mach.correct (m : Mach) (k : Nat) (raw : Int) : Int :=
  (raw - nth m.meter.offsets k 0) * (1000000 + nth m.meter.gains k 0)

/-- A current channel whose samples the spec's arithmetic does not settle: it says neither how a phase
correction reshapes a sample (12 R385) nor what the Rogowski integrator does (12 R384). -/
def Mach.reshaped (m : Mach) (k : Nat) : Bool :=
  (decide (3 ≤ k) && decide (k ≤ 5) && nth m.meter.phases (k - 3) 0 != 0)
    || (decide (3 ≤ k) && bit (m.met pCUR_SENSOR) (k - 3))

/-- A corrected sample of all seven channels; one of a reshaped channel is a free value
(notes/assumptions/25.md). -/
def Mach.corrected (m : Mach) (raw : List Int) : Mach × List Int :=
  let s := (List.range 7).map fun k => if m.reshaped k then Config.freeInt (m.free + k) else m.correct k (nth raw k 0)
  (if (List.range 7).any m.reshaped then { m with free := m.free + 7 } else m, s)

/-- Add a sample to the sums of the aggregation window (12 R387). -/
def windowAdd (w : Nat) (sums : List Int) (s u90 : List Int) : List Int :=
  let u := phaseU w s
  let d := phaseU w u90
  let i := phaseI s
  let sq := fun (x : Int) => x * x
  let new := (List.range 3).map (fun k => sq (nth s k 0)) ++ (List.range 4).map (fun k => sq (nth s (3 + k) 0))
    ++ (List.range 3).map (fun k => sq (nth u k 0)) ++ (List.range 3).map (fun k => nth u k 0 * nth i k 0)
    ++ (List.range 3).map (fun k => nth d k 0 * nth i k 0) ++ [1]
  (sums.zip new).map fun p => p.1 + p.2

/-- One sample of the seven channels (12 R385, R389 to R393; R413 for 0xC1). -/
def Mach.meterSample (m : Mach) (raw : List Int) : Mach :=
  let full := (List.range 7).map fun k => fullScale (nth raw k 0)
  let runs := (List.range 7).map fun k => if nth full k false then nth m.meter.fullRun k 0 + 1 else 0
  let r := m.corrected raw
  let m1 := r.1
  let samples := (r.2 :: m1.meter.samples).take 960
  let m2 := { m1 with
    meter.samples := samples
    meter.fullRun := runs
    meter.winFull := m1.meter.winFull || full.any id
    meter.winSum := windowAdd (m.met pMETER_WIRING) m1.meter.winSum r.2 (nth samples m.quarterSamples []) }
  let m3 := m2.accumulate m2.averages
  if runs.any fun n => decide (2 ≤ n) then { m3.raise meterUnit 0xC1 1 with meter.overrange := true } else m3

/-- METER_SAMPLE (12 R389). -/
def execMeterSample (raw : List Int) (s : State) : Res := on s fun m => m.meterSample raw

/-- RMS of a channel in 10⁻³ units: Σ x² over n samples, the channel's scale, and the LSB per volt. -/
def rmsOf (sum : Int) (scale n lsb : Nat) : Nat :=
  if n == 0 then 0 else rootNear (sum.toNat * scale ^ 2) (n * (lsb * 1000000) ^ 2)

/-! Frequency (12 R386). -/

/-- The aggregation window begins here: one that a change between measured and nominal periods cuts short publishes
nothing (12 R387; DESIGN CHOICE, notes/assumptions/46.md). -/
def Mach.windowAnew (m : Mach) : Mach :=
  { m with
    meter.winSum := List.replicate 17 0
    meter.winHalfs := 0 }

/-- Frequency has become invalid: 0xC2, and FREQ and FREQ_VALID read 0. -/
def Mach.freqLost (m : Mach) : Mach :=
  { m.raise meterUnit 0xC2 1 with
    meter.freqValid := false
    meter.freq := 0
    meter.perGood := 0 }.windowAnew

/-- A period of the reference has ended, in 0.1 µs, with the half-cycle value of V1 in mV. -/
def Mach.periodEnd (m : Mach) (per u1 : Nat) : Mach :=
  let m1 := { m with
    meter.perN := m.meter.perN + 1
    meter.perSum := m.meter.perSum + per }
  let good := decide (144930 ≤ per) && decide (per ≤ 235290) && decide (m.met pU_DECL ≤ 10 * u1)
  if good then
    let g := m1.meter.perGood + 1
    let m2 := { m1 with
      meter.period := per
      meter.perGood := g
      meter.freqValid := true }
    (if m1.meter.freqValid then m2 else m2.windowAnew).endIf meterUnit 0xC2 (decide (10 ≤ g))
  else m1.freqLost

/-- FREQ in mHz of so many periods and their duration in 0.1 µs (12 R386). -/
def freqOf (n sum : Nat) : Nat := if sum == 0 then 0 else (2 * n * 10 ^ 10 + sum) / (2 * sum)

/-- The end of a 10 s window (12 R386). -/
def Mach.freqWindowEnd (m : Mach) : Mach :=
  let f := if m.meter.freqValid then freqOf m.meter.perN m.meter.perSum else 0
  let m1 := { m with
    meter.freq := f
    meter.perN := 0
    meter.perSum := 0 }
  if m.meter.freqValid && f != 0 then m1.extreme 5 3 f else m1

/-- FREQ_WINDOW_END (12 R386): at timestamps that are multiples of 10 s. -/
def execFreqWindowEnd (s : State) : Res := onWhen s (s.now.time.frame % 40000 == 0) Mach.freqWindowEnd

/-! Supply events (12 R399 to R402). -/

/-- Column of a duration in µs (12 R401). -/
def durColumn (us : Nat) : Nat :=
  if us ≤ 200000 then 0 else if us ≤ 500000 then 1 else if us ≤ 1000000 then 2
  else if us ≤ 5000000 then 3 else if us ≤ 60000000 then 4 else 5

/-- A half-cycle value lies below so many percent of U_DECL. -/
def Mach.below (m : Mach) (pct u : Nat) : Bool := decide (100 * u < pct * m.met pU_DECL)

/-- A half-cycle value lies above so many percent of U_DECL. -/
def Mach.above (m : Mach) (pct u : Nat) : Bool := decide (pct * m.met pU_DECL < 100 * u)

/-- Row of a sag or a swell by its filed magnitude (12 R401). -/
def Mach.evtRow (m : Mach) (e : SupplyEvt) : Nat :=
  if e.kind == 0 then
    (if !m.below 80 e.mag then 0 else if !m.below 70 e.mag then 1 else if !m.below 40 e.mag then 2
     else if !m.below 5 e.mag then 3 else 4)
  else if e.kind == 1 then (if !m.below 120 e.mag then 0 else 1)
  else 0

/-- Index of an event's cell in the 48 counts: SAG 5 × 6, SWELL 2 × 6, INTR 6. -/
def evtCell (kind row col : Nat) : Nat :=
  (if kind == 0 then 0 else if kind == 1 then 30 else 42) + 6 * row + col

/-- Duration of an event in µs: its half-cycles times the half-cycle period in force (12 R399). -/
def Mach.evtDuration (m : Mach) (e : SupplyEvt) : Nat := e.count * m.periodInForce / 20

/-- File a supply event (12 R401, R402; 13 R423). -/
def Mach.fileEvent (m : Mach) (e : SupplyEvt) (truncated : Bool) : Mach :=
  let dur := m.evtDuration e
  let mg := if e.kind == 2 then 0 else (2 * e.mag * 10000 + m.met pU_DECL) / (2 * m.met pU_DECL)
  let m1 := { m with meter.tables := updAt m.meter.tables (evtCell e.kind (m.evtRow e) (durColumn dur)) sat32 }
  ((m1.post 6 e.kind meterUnit e.mask (dur / 1000)).ringRecord 5 false
    ([3, b2n truncated, e.kind, e.mask] ++ le 4 mg ++ le 8 e.start ++ le 8 dur ++ le 8 (m.wallAt e.start)))

/-- The mask of phases for which a condition holds. -/
def phaseMask (ph : List Nat) (us : List Nat) (f : Nat → Bool) : Nat :=
  ofBits (ph.filter fun k => f (nth us k 0))

/-- The greatest of values. -/
def maxOf (l : List Nat) : Nat := l.foldl max 0

/-- The event in progress of a kind. -/
def Mach.supplyEvt (m : Mach) (kind : Nat) : Option SupplyEvt := m.meter.events.find? fun e => e.kind == kind

/-- Drop the event of a kind. -/
def Mach.dropEvt (m : Mach) (kind : Nat) : Mach :=
  { m with meter.events := m.meter.events.filter fun e => e.kind != kind }

/-- Keep an event in progress; a trip in progress is marked (12 R397). -/
def Mach.keepEvt (m : Mach) (e : SupplyEvt) : Mach :=
  { (m.dropEvt e.kind) with
    meter.events := (m.dropEvt e.kind).meter.events ++ [e]
    meter.trip := m.meter.trip.map fun t => { t with flags := t.flags ||| 2 } }

/-- One kind of event at a half-cycle value (12 R399): it ends and is filed, goes on, or starts. -/
def Mach.judgeEvt (m : Mach) (kind : Nat) (starts ends : Bool) (mask mg t : Nat) : Mach :=
  match m.supplyEvt kind with
  | some e =>
    if ends then (m.dropEvt kind).fileEvent e false
    else m.keepEvt { e with count := e.count + 1, mask := e.mask ||| mask, mag := if kind == 0 then min e.mag mg else max e.mag mg }
  | none => if starts then m.keepEvt ⟨kind, t, 1, mask, mg⟩ else m

/-- The supply events at a half-cycle value (12 R399, R400). -/
def Mach.supplyEvents (m : Mach) (us : List Nat) (t : Nat) : Mach :=
  let ph := m.phasesUsed
  let vs := ph.map fun k => nth us k 0
  let intrWas := (m.supplyEvt 2).isSome
  let m1 := m.judgeEvt 2 (vs.all (m.below 5)) (vs.any fun v => !m.below 7 v) (phaseMask ph us (m.below 5)) 0 t
  let intr := (m1.supplyEvt 2).isSome
  let m2 := if intr && !intrWas then m1.dropEvt 0 else m1
  let m3 := if intr then m2
    else m2.judgeEvt 0 (vs.any (m.below 90)) (vs.all fun v => !m.below 92 v) (phaseMask ph us (m.below 90)) (minOf vs) t
  m3.judgeEvt 1 (vs.any (m.above 110)) (vs.all fun v => !m.above 108 v) (phaseMask ph us (m.above 110)) (maxOf vs) t

/-- The half-cycle values as published and as drawer 5 keeps them (13 R422). -/
def Mach.publishHalf (m : Mach) (us : List Nat) : Mach :=
  ({ m with meter.hc := [nth us 0 0, nth us 1 0, nth us 2 0] }).each m.phasesUsed fun m k => m.extreme 5 k (nth us k 0 : Nat)

/-- The half-cycle values of U1 to U3 in mV: the RMS of each voltage channel over the newest samples of one period, here in
0.1 µs (12 R387). -/
def Mach.halfValues (m : Mach) (per : Nat) : List Nat :=
  let l := recent (max 1 (periodSamples per)) m.meter.samples
  (List.range 3).map fun k => rmsOf (sumProd k l l) (m.met pVOLT_SCALE) l.length 8388608

/-- The half-cycle values are published and judged (12 R387, R399). -/
def Mach.halfValued (m : Mach) (us : List Nat) (t : Nat) : Mach :=
  ({ m with meter.winHalfs := m.meter.winHalfs + 1 }.publishHalf us).supplyEvents us t

/-- A zero crossing of the reference, with the half-cycle value of V1 in mV (12 R386): a period runs from one
positive-going crossing to the next. -/
def Mach.zeroCross (m : Mach) (inp : HalfIn) (u1 : Nat) : Mach :=
  let m1 := { m with
    meter.crossAt := m.ts + inp.off
    meter.rose := inp.rising
    meter.lastHalf := inp.dur }
  if inp.rising then m1.periodEnd (m.meter.lastHalf + inp.dur) u1
  else if m.meter.freqValid && decide (10 * u1 < m.met pU_DECL) then m1.freqLost else m1

/-- A half-cycle ends at a zero crossing of the reference. With valid frequency the values are those of the period up
to it; without, the crossing tells of the frequency alone (12 R386, R387, R399). -/
def Mach.halfCycle (m : Mach) (inp : HalfIn) : Mach :=
  let us := m.halfValues (m.meter.lastHalf + inp.dur)
  if m.meter.freqValid then (m.halfValued us (m.ts + inp.off)).zeroCross inp (nth us 0 0)
  else m.zeroCross inp (nth us 0 0)

/-- Without valid frequency a half-cycle of nominal length ends in this frame, counted from the timestamp (12 R387). -/
def Mach.nominalHalf (m : Mach) : Option Nat :=
  let h := m.nominalPeriod / 2
  let k := 10 * (m.ts + 250) / h
  if !m.meter.freqValid && k != 10 * m.ts / h then some (k * h / 10) else none

/-- HALF_CYCLE_VALUE (12 R399): at a zero crossing of the reference, or without one at the end of a nominal half-cycle. -/
def execHalfCycleValue (inp : HalfIn) (s : State) : Res :=
  if inp.cross then on s fun m => m.halfCycle inp
  else match s.now.nominalHalf with
    | some t => on s fun m => m.halfValued (m.halfValues m.nominalPeriod) t
    | none => .next s

/-- File every event in progress at a power-fail warning, truncated (12 R402). -/
def Mach.truncateEvents (m : Mach) : Mach :=
  { (m.each m.meter.events fun m e => m.fileEvent e true) with meter.events := [] }

/-! The aggregation window (12 R387, R388). -/

/-- A mean power in W or var from its window sum. -/
def Mach.wattsOf (m : Mach) (sum : Int) (n : Nat) : Int :=
  if n == 0 then 0 else halfAway (sum * m.uiScale) (wattDen n)

/-- A power factor in 0.0001, signed with P (12 R388). -/
def Mach.pfOf (m : Mach) (p : Int) (s n : Nat) : Int :=
  if n == 0 || s == 0 || m.belowStart s n then 0 else clamp (-10000) 10000 (halfAway (p * 10000) s)

/-- A free angle from −180.00° to +180.00°: the spec gives no way to take the fundamental's phase
(notes/assumptions/25.md). -/
def freeAngle (k : Nat) : Int := Config.freeInt k % 36001 - 18000

/-- QUADRANT of a pair of powers (12 R388, R389). -/
def quadrantOf (p q : Int) : Int :=
  if 0 ≤ p then (if 0 ≤ q then 1 else 4) else (if 0 ≤ q then 2 else 3)

/-- The values of IDs 0x0910 to 0x092E for the sums of the window (12 R388). -/
def Mach.windowValues (m : Mach) : List Int :=
  let w := m.meter.winSum
  let n := (nth w 16 0).toNat
  let ph := m.phasesUsed
  let vs := m.met pVOLT_SCALE
  let cs := m.met pCUR_SCALE
  let p := fun k => if ph.contains k then nth w (10 + k) 0 else 0
  let q := fun k => if ph.contains k then nth w (13 + k) 0 else 0
  let s := fun k => if ph.contains k then rootNear ((nth w (7 + k) 0).toNat * (nth w (3 + k) 0).toNat) 1 else 0
  let pt := p 0 + p 1 + p 2
  let qt := q 0 + q 1 + q 2
  let st := s 0 + s 1 + s 2
  (List.range 3).map (fun k => (rmsOf (nth w k 0) vs n 8388608 : Int))
    ++ (List.range 4).map (fun k => (rmsOf (nth w (3 + k) 0) cs n 16777216 : Int))
    ++ (List.range 3).map (fun k => m.wattsOf (p k) n) ++ (List.range 3).map (fun k => m.wattsOf (q k) n)
    ++ [m.wattsOf pt n, m.wattsOf qt n, m.wattsOf st n, m.pfOf pt st n]
    ++ (List.range 3).map (fun k => m.pfOf (p k) (s k) n)
    ++ [(m.meter.freq : Int), b2i m.meter.freqValid]
    ++ (List.range 5).map (fun k => freeAngle (m.free + k))
    ++ [quadrantOf pt qt] ++ m.meter.hc.map (fun x => (x : Int))

/-- Take the window's values into a calibration measurement (12 R408), or begin it here. -/
def Mach.measureWindow (m : Mach) : Mach :=
  match m.meter.meas with
  | none => m
  | some c =>
    if !c.started then
      { m with meter.meas := some { c with started := true } }.post 0xA 1 meterUnit c.phase c.left
    else if c.left ≤ c.n then m
    else
      let k := c.phase - 1
      let v := fun i => nth m.meter.win i 0
      { m with meter.meas := some { c with
          n := c.n + 1, us := c.us ++ [(v k).toNat], is := c.is ++ [(v (3 + k)).toNat],
          ps := c.ps ++ [v (7 + k)], qs := c.qs ++ [v (10 + k)] } }

/-- MRAM address of the meter's calibration (13 R435). -/
def calAddr : Nat := 0x3BC000

/-- The sequence number of the next write of a record that stands alone. -/
def Mach.seqAfter (m : Mach) (a : Nat) : Nat := (leAt (m.peek a 64) 56 4 + 1) % 2 ^ 32

/-- The calibration goes into its record (12 R409; its layout: notes/assumptions/46.md). -/
def Mach.storeCalibration (m : Mach) : Mach :=
  m.writeRecord calAddr (m.meter.gains.flatMap (leS 4) ++ m.meter.phases.flatMap (leS 2)) (m.seqAfter calAddr)

/-- The calibration comes back from its record (12 R409). -/
def Mach.loadCalibration (m : Mach) : Mach :=
  match m.readRecord calAddr with
  | some r => { m with
      meter.gains := (List.range 7).map fun k => leSAt r.1 (4 * k) 4
      meter.phases := (List.range 3).map fun k => leSAt r.1 (28 + 2 * k) 2 }
  | none => m

/-- Coefficients accepted by an APPLY take effect and are stored (12 R409). -/
def Mach.takeCoefficients (m : Mach) : Mach :=
  match m.meter.calNext with
  | none => m
  | some c =>
    { m with
      meter.gains := c.1
      meter.phases := c.2
      meter.calNext := none
      meter.calState := 0 }.storeCalibration.completed 0x63 m.meter.calTag stOK meterUnit 0

/-- Configuration writes take effect at the window boundary (12 R412). -/
def Mach.takeMeterCfg (m : Mach) : Mach :=
  { (m.each m.meter.cfgNext fun m c => m.put c.handle c.id c.val) with meter.cfgNext := [] }

/-- Take P_TOTAL of a window into the peaks of a trip (12 R397). -/
def tripPeaks (pt : Int) (t : TripRec) : TripRec :=
  { t with
    peakImp := max t.peakImp pt.toNat
    peakExp := max t.peakExp (-pt).toNat }

/-- The end of an aggregation window (12 R387, R388, R393, R397, R408, R409, R412, R413). -/
def Mach.windowEnd (m : Mach) : Mach :=
  let vals := m.windowValues
  let pt := nth vals 13 0
  let m1 := { m with
    free := m.free + 5
    meter.win := vals
    meter.winEnd := if m.meter.freqValid then m.meter.crossAt else m.ts
    meter.winSum := List.replicate 17 0
    meter.winHalfs := 0
    meter.winFull := false
    meter.own := if m.meter.own == UState.stopping then UState.off else m.meter.own
    meter.trip := m.meter.trip.map (tripPeaks pt) }
  let m2 := if m.meter.overrange && !m.meter.winFull then { m1.endFault meterUnit 0xC1 with meter.overrange := false } else m1
  m2.measureWindow.takeCoefficients.takeMeterCfg

/-- Half-cycles in an aggregation window (12 R387). -/
def Mach.windowHalfs (m : Mach) : Nat := if m.met pF_NOMINAL == 1 then 24 else 20

/-- AGGREGATION_WINDOW_END (12 R387): after 10 or 12 periods, or without valid frequency at each
200 ms of the timestamp. -/
def execAggregationWindowEnd (s : State) : Res :=
  onWhen s (if s.now.meter.freqValid then decide (s.now.windowHalfs ≤ s.now.meter.winHalfs)
    else s.now.time.frame % 800 == 0 && s.now.meter.winEnd != s.now.ts) Mach.windowEnd

/-! What a frame brings the meter. -/

/-- The data path's self-check in this frame (12 R413): 0xC0 ends when it has passed for 1 s. -/
def Mach.meterCheck (m : Mach) (bad : Bool) : Mach :=
  (if bad then m.raise meterUnit 0xC0 2 else m).endAfter meterUnit 0xC0 4000 (!bad)

/-- Time in µs since the positive-going crossing that began the period in progress (12 R386). -/
def Mach.periodSoFar (m : Mach) : Nat := m.ts - m.meter.crossAt + (if m.meter.rose then 0 else m.meter.lastHalf / 10)

/-- The meter's part of a frame: STARTING ends (12 R393), and a period that goes on for longer than the longest
makes frequency invalid (R386). -/
def Mach.meterFrame (m : Mach) : Mach :=
  let m1 := if m.meter.freqValid && decide (23529 < m.periodSoFar) then m.freqLost else m
  if m1.meter.own == UState.starting && (m1.meter.freqValid || m1.passedMs m1.meter.since 1000) then
    let m2 :=
      { m1 with
        meter.own := .on
        meter.since := m1.time.frame }
    if m2.meter.freqValid then m2 else m2.freqLost
  else m1

/-- ENERGY_UNIT took effect at this tick (12 R395, R396). -/
def Mach.meterUnitCheck (m old : Mach) : Mach :=
  if m.met pENERGY_UNIT == old.met pENERGY_UNIT then m
  else { m with meter.reads := m.meter.reads.map fun (r : ReadRec) => { r with unitChg := true } }

/-- UNIT_DISABLE of the meter (12 R393). -/
def Mach.meterOff (m : Mach) : Mach :=
  if m.meter.own == .off then m
  else
    { m with
      meter.own := .stopping
      meter.since := m.time.frame }

/-- UNIT_ENABLE of the meter (12 R393). -/
def Mach.meterOn (m : Mach) : Mach :=
  if m.meter.own == .off || m.meter.own == UState.stopping then
    { m with
      meter.own := .starting
      meter.since := m.time.frame }
  else m

/-! Trips and hours (12 R397, R398). -/

/-- µWh to the nearest mWh. -/
def toMilli (x : Nat) : Nat := min ((x + 500) / 1000) (2 ^ 32 - 1)

/-- The six registers of a trip as they stand. -/
def Mach.tripRegs (m : Mach) : List Nat := (List.range 6).map m.accW

/-- The vote that energises the MOTOR groups starts a trip (12 R397). -/
def Mach.tripStart (m : Mach) (t : Nat) : Mach :=
  { m with meter.trip := some ⟨t, m.curLandingN, (m.eng.exec.map fun r => r.plan.id).getD 0, m.tripRegs, 0, 0,
      (if m.meter.events != [] then 2 else 0) + (if m.meterGap then 4 else 0)⟩ }

/-- The six energies of a trip up to now, in mWh and mvarh. -/
def Mach.tripMilli (m : Mach) (t : TripRec) : List Nat :=
  (List.range 6).map fun k => toMilli (m.accW k - nth t.base k 0)

/-- Record a trip that ends at a time, at a landing, with its energies (12 R397; 13 R423). -/
def Mach.fileTrip (m : Mach) (t : TripRec) (stop land : Nat) (es : List Nat) (incomplete : Bool) : Mach :=
  let e := fun k => nth es k 0
  let dur := (stop - t.start + 249) / 250
  let m1 := { m with
    meter.trip := none
    meter.tripEa := (e 0, e 1, min ((stop - t.start) / 1000) (2 ^ 32 - 1)) }
  m1.ringRecord 6 false ([3, t.flags ||| b2n incomplete] ++ le 2 t.startL ++ le 2 land ++ le 2 t.plan ++ le 8 t.start
    ++ le 4 dur ++ le 4 (e 0) ++ le 4 (e 1) ++ le 4 (e 2) ++ le 4 (e 3) ++ le 4 (e 4) ++ le 4 (e 5)
    ++ le 4 t.peakImp ++ le 4 t.peakExp)

/-- The vote that de-energises them ends it. -/
def Mach.tripEnd (m : Mach) (t : Nat) : Mach :=
  match m.meter.trip with
  | none => m
  | some r => m.fileTrip r t m.curLandingN (m.tripMilli r) false

/-- Energy of the hour in progress: running and idle, imported and exported, in µWh (12 R398). -/
def Mach.hourEnergy (m : Mach) : List Nat :=
  let run := fun k => nth m.meter.hourRun k 0
  let all := fun k => m.accW k - nth m.meter.hourBase k 0
  [run 0, all 0 - run 0, run 1, all 1 - run 1]

/-- Close the hour in progress (12 R398; 13 R423). -/
def Mach.closeHour (m : Mach) (short aligned : Bool) : Mach :=
  let e := m.hourEnergy
  let rec6 := [3, b2n short + 2 * b2n aligned] ++ List.replicate 6 0 ++ le 8 m.meter.hourFrom
    ++ e.flatMap (fun x => le 4 (toMilli x)) ++ le 8 (m.wallAt m.meter.hourFrom)
  let m1 := m.ringRecord 6 true rec6
  { m1 with
    meter.hourFrom := m.ts
    meter.hourBase := [m.accW 0, m.accW 1]
    meter.hourRun := [0, 0] }

/-- µs in an hour. -/
def hourUs : Nat := 3600000000

/-- A full hour falls into this frame (12 R398). -/
def Mach.hourDue (m : Mach) : Bool :=
  m.meter.hourFrom != m.ts &&
    (if m.time.wallValid then m.wall / hourUs != (m.wall - 250) / hourUs else m.ts % hourUs == 0)

/-- HOUR_RECORD (12 R398). -/
def execHourRecord (s : State) : Res :=
  onWhen s s.now.hourDue fun m => m.closeHour false m.time.wallValid

/-! Save sets (12 R403 to R406). -/

/-- MRAM address of record i of a slot (12 R403). -/
def setAddr (x : Ab) (i : Nat) : Nat := 0x3C0000 + 0x200 * x.idx + 0x40 * i

/-- MRAM address of the marker (12 R403). -/
def markerAddr : Nat := 0x3C0400

/-- The payloads of a slot's eight records and their sequence number, where the set is complete (12 R403). -/
def Mach.setIn (m : Mach) (x : Ab) : Option (List (List Nat) × Nat) :=
  let rs := (List.range 8).filterMap fun i => m.readRecord (setAddr x i)
  match rs with
  | [] => none
  | r :: _ => if rs.length == 8 && rs.all (fun q => q.2 == r.2) then some (rs.map (·.1), r.2) else none

/-- The newest complete set: its slot, payloads and sequence number (12 R406). -/
def Mach.newestSet (m : Mach) : Option (Ab × List (List Nat) × Nat) :=
  match m.setIn .a, m.setIn .b with
  | some a, some b => some (if newer 32 b.2 a.2 then (.b, b) else (.a, a))
  | some a, none => some (.a, a)
  | none, some b => some (.b, b)
  | none, none => none

/-- Payload of record i of a set of the present state (12 R403). The order of the fields, the widths of the
energies and the flags beside a trip: notes/assumptions/46.md. -/
def Mach.setPayload (m : Mach) (kind seq i : Nat) : List Nat :=
  match i with
  | 0 => le 4 seq ++ [kind] ++ le 8 m.ts ++ le 4 m.sec.boots ++ le 4 m.fc
  | 1 => (List.range 4).flatMap fun k => le 8 (m.accW k)
  | 2 => (List.range 4).flatMap fun k => le 8 (m.accW (4 + k))
  | 3 =>
    (match m.meter.trip with
      | some t => (0x80 + t.flags) :: le 8 t.start ++ (m.tripMilli t).flatMap (le 4)
      | none => List.replicate 33 0)
      ++ m.hourEnergy.flatMap fun x => le 4 (toMilli x)
  | _ => (List.range 12).flatMap fun k => le 4 (nth m.meter.tables (12 * (i - 4) + k) 0)

/-- Write a set into the slot that does not hold the newest complete one (12 R404, R405). -/
def Mach.saveMeter (m : Mach) (kind : Nat) : Mach :=
  let slot := match m.newestSet with
    | some x => x.1.other
    | none => Ab.a
  let seq := (m.meter.setSeq + 1) % 2 ^ 32
  let m1 := m.each (List.range 8) fun m i => m.writeRecord (setAddr slot i) (m.setPayload kind seq i) seq
  { m1 with
    meter.setSeq := seq
    meter.lastSave := m.ts }

/-- ENERGY_SAVE (12 R404); the first complete PERIODIC set ends 0xC6 (R413). -/
def execEnergySave (s : State) : Res :=
  onWhen s (s.now.ts != 0 && s.now.ts % (s.now.met pENERGY_SAVE_PERIOD * 1000000) == 0) fun m =>
    (m.saveMeter 0).endFault meterUnit 0xC6

/-- The meter's part of the state save at a power-fail warning (12 R402, R405). -/
def Mach.meterPowerFail (m : Mach) : Mach :=
  let seq := match m.newestSet with
    | some x => x.2.2
    | none => 0
  let m1 := m.writeRecord markerAddr (le 8 m.ts ++ le 4 m.sec.boots ++ le 4 seq) (m.seqAfter markerAddr)
  m1.truncateEvents.saveMeter 1

/-- Take a set back (12 R406). -/
def Mach.takeSet (m : Mach) (ps : List (List Nat)) (seq : Nat) : Mach :=
  let acc := (List.range 8).map fun k => leAt (nth ps (1 + k / 4) []) (8 * (k % 4)) 8
  let hour := fun k => 1000 * leAt (nth ps 3 []) (33 + 4 * k) 4
  { m with
    meter.acc := acc.map fun w => ⟨w, 0⟩
    meter.tables := (List.range 48).map fun k => leAt (nth ps (4 + k / 12) []) (4 * (k % 12)) 4
    meter.setSeq := seq
    meter.hourFrom := 0
    meter.hourRun := [hour 0, hour 2]
    meter.hourBase := [nth acc 0 0 - hour 0 - hour 1, nth acc 1 0 - hour 2 - hour 3] }

/-- Every counter carries RESTORED in its first read (12 R406). -/
def Mach.markRestored (m : Mach) : Mach :=
  { m with
    meter.restored := true
    meter.reads := m.meter.reads.map fun (r : ReadRec) => { r with restored := true } }

/-- A trip that a POWER_FAIL set holds is closed with the saved energies at the time of the warning, INCOMPLETE
(12 R398). The set keeps neither its landings nor its plan nor its peaks: notes/assumptions/46.md. -/
def Mach.closeSavedTrip (m : Mach) (r : List Nat) (warned : Nat) : Mach :=
  if nth r 0 0 < 0x80 then m
  else
    m.fileTrip ⟨leAt r 1 8, 0xFFFF, 0, [], 0, 0, nth r 0 0 - 0x80⟩ warned 0xFFFF
      ((List.range 6).map fun k => leAt r (9 + 4 * k) 4) true

/-- A start finds no state as it was at the loss of supply: the time lost in ms and the fault (12 R406). -/
def Mach.meterLost (m : Mach) (ms code : Nat) : Mach :=
  ({ m with meter.lostTime := ms }.raise meterUnit code 1).markRestored

/-- The meter at start-up (12 R398, R406): volatile state is new, the newest complete set is taken
back, and a trip of a POWER_FAIL set is closed with INCOMPLETE. -/
def Mach.restoreMeter (m : Mach) : Mach :=
  let m0 := { m with meter := MeterState.reset }.loadCalibration
  match m0.newestSet with
  | none => m0.meterLost 0xFFFFFFFF 0xC6
  | some x =>
    let r0 := nth x.2.1 0 []
    let boot := leAt r0 13 4
    let m1 := m0.takeSet x.2.1 x.2.2
    let mark := (m0.readRecord markerAddr).map (·.1)
    let sameBoot := (mark.map fun k => leAt k 8 4 == boot) == some true
    let warned := (mark.map fun k => leAt k 0 8).getD 0
    if nth r0 4 0 == 1 && sameBoot then m1.closeSavedTrip (nth x.2.1 3 []) warned
    else if sameBoot && (mark.map fun k => leAt k 12 4 == x.2.2) == some true then m1.meterLost ((warned - leAt r0 5 8) / 1000) 0xC5
    else m1.meterLost 0xFFFFFFFF 0xC5

/-! Offsets and calibration (12 R407 to R410). -/

/-- OFFSET_TRACKING (12 R407): once a second, each estimate moves by 1/16 of the channel's mean;
0xC3 above 0.5 % of full scale, ending below 0.4 %. -/
def execOffsetTracking (means : List Int) (s : State) : Res :=
  onWhen s (s.now.time.frame % 4000 == 0) fun m =>
    let o := (List.range 7).map fun k => nth m.meter.offsets k 0 + halfAway (nth means k 0) 16
    let m1 := { m with meter.offsets := o }
    if o.any fun x => decide (41943 < x.natAbs) then m1.raise meterUnit 0xC3 1
    else m1.endIf meterUnit 0xC3 (o.all fun x => decide (x.natAbs ≤ 33554))

/-- Mean times count is the sum: a deviation of every window within 0.2 % of the mean (12 R409). -/
def steady (l : List Nat) : Bool :=
  let n := l.length
  let t := sumN l
  l.all fun x => decide (500 * ((x * n : Nat) - (t : Int)).natAbs ≤ t)

/-- Elementary angles of 2^-i in 10⁻⁹ degree. -/
def cordicAngles : List Int :=
  [45000000000, 26565051177, 14036243468, 7125016349, 3576334375, 1789910608, 895173710, 447614171,
   223810500, 111905677, 55952892, 27976453, 13988227, 6994114, 3497057, 1748528, 874264, 437132]
  ++ [218566, 109283, 54642, 27321, 13660, 6830, 3415, 1708, 854, 427, 213, 107, 53, 27, 13, 7, 3, 2, 1]

/-- Rotate a vector onto the x axis, adding up the angle. -/
def cordic : List Int → Nat → Int → Int → Int → Int
  | [], _, _, _, z => z
  | a :: r, i, x, y, z =>
    if 0 < y then cordic r (i + 1) (x + y / 2 ^ i) (y - x / 2 ^ i) (z + a)
    else cordic r (i + 1) (x - y / 2 ^ i) (y + x / 2 ^ i) (z - a)

/-- atan2 in 10⁻⁹ degree; free where both are 0 (the spec states no value there). -/
def atan2 (q p : Int) (k : Nat) : Int :=
  if p == 0 && q == 0 then Config.freeInt k
  else
    let x := p * 2 ^ 48
    let y := q * 2 ^ 48
    if 0 ≤ x then cordic cordicAngles 0 x y 0
    else cordic cordicAngles 0 (-x) (-y) (if 0 ≤ y then 180000000000 else -180000000000)

/-- An angle brought into ±180°. -/
def wrapAngle (z : Int) : Int :=
  if 180000000000 < z then z - 360000000000 else if z < -180000000000 then z + 360000000000 else z

/-- What an APPLY computes from a measurement (12 R409): gains in ppm and the phase in 0.001°, or
none where a condition fails. -/
def Mach.coefficients (m : Mach) (c : CalMeas) (uref iref : Nat) (pref qref : Int) : Option (Int × Int × Int) :=
  let n := c.us.length
  let su := sumN c.us
  let si := sumN c.is
  let ph := wrapAngle (atan2 qref pref m.free - atan2 (sumI c.qs) (sumI c.ps) (m.free + 1))
  let near := fun (ref sum : Nat) => decide (50 * ((ref * n : Nat) - (sum : Int)).natAbs ≤ sum)
  if steady c.us && steady c.is && decide (80 * m.met pU_DECL * n ≤ 100 * su) && decide (10 * m.met pI_NOM * n ≤ 100 * si)
      && near uref su && near iref si && decide (ph.natAbs ≤ 2000000000) && n != 0 && su != 0 && si != 0 then
    some (halfAway ((uref * n : Nat) * 1000000) su - 1000000, halfAway ((iref * n : Nat) * 1000000) si - 1000000,
      halfAway ph 1000000)
  else none

/-- The first rows of 12 R410 that both kinds share. -/
def Mach.calState? (m : Mach) : Bool := m.meter.freqValid && m.ownState meterUnit == some .on

/-- CAL_START with kind MEASURE (12 R408, R410). -/
def Mach.calMeasure (m : Mach) (tag phase windows : Nat) : Mach × Nat × List Nat :=
  if m.meter.meas.isSome then refuse m stBUSY
  else if phase == 0 || !m.phasesUsed.contains (phase - 1) || windows < 5 || 300 < windows then refuse m stBAD_PARAM
  else if !m.calState? then refuse m stWRONG_MODE
  else pending { m with
    meter.meas := some { CalMeas.reset with phase := phase, left := windows, tag := tag }
    meter.calState := 1 }

/-- CAL_MEASURE: CAL_START kind 0. -/
def execCalMeasure (tag phase windows : Nat) (s : State) : Res := serve s 0x63 tag fun m => m.calMeasure tag phase windows

/-- CAL_MEASURE_END (12 R408): after the windows named; completion and the event of the end. -/
def execCalMeasureEnd (s : State) : Res :=
  match s.now.meter.meas with
  | none => .next s
  | some c => onWhen s (c.started && decide (c.left ≤ c.n)) fun m =>
    ({ m with
      meter.meas := none
      meter.calRes := some c
      meter.calState := 2 }.post 0xA 2 meterUnit c.phase c.left).completed 0x63 c.tag stOK meterUnit 0

/-- 0xC4: a calibration failed; a command that waited is completed. -/
def Mach.calFailed (m : Mach) (tag : Nat) : Mach :=
  ({ m with meter.calState := 3 }.raise meterUnit 0xC4 1).completed 0x63 tag stUNIT_FAULT meterUnit 0

/-- CAL_START with kind APPLY (12 R409, R410). -/
def Mach.calApply (m : Mach) (tag uref iref : Nat) (pref qref : Int) : Mach × Nat × List Nat :=
  if !m.calState? then refuse m stWRONG_MODE
  else match m.meter.calRes with
    | none => refuse m stWRONG_MODE
    | some c =>
      let m1 := { m with
        meter.calRes := none
        free := m.free + 2 }
      match m.coefficients c uref iref pref qref with
      | none => pending (m1.calFailed tag)
      | some (gu, gi, ph) =>
        let k := c.phase - 1
        pending ({ m1 with
          meter.calTag := tag
          meter.calNext := some (updAt (updAt m.meter.gains k fun _ => gu) (k + 3) fun _ => gi,
            updAt m.meter.phases k fun _ => ph) }.endFault meterUnit 0xC4)

/-- CAL_APPLY: CAL_START kind 1. -/
def execCalApply (tag uref iref : Nat) (pref qref : Int) (s : State) : Res :=
  serve s 0x63 tag fun m => m.calApply tag uref iref pref qref

/-! Configuration and reads (12 R384, R394, R395, R412). -/

/-- 12 R384 on a set of values. -/
def meterCfgOk (l : List ParamCell) : Bool :=
  let v := fun id => (cellInt l meterUnit id).toNat
  decide ((v pU_DECL * 3) ^ 2 * 2 ≤ (2 * v pVOLT_SCALE) ^ 2)
    && decide ((v pI_NOM * 12) ^ 2 * 2 ≤ (5 * v pCUR_SCALE) ^ 2)
    && (v pI4_ROLE == 0 || v pMETER_WIRING == 0)

/-- The values that R384 ties together. -/
def tied (id : Nat) : Bool :=
  id == pMETER_WIRING || id == pU_DECL || id == pVOLT_SCALE || id == pCUR_SCALE || id == pI_NOM || id == pI4_ROLE

/-- The configuration with accepted writes and the entries of a command on top. -/
def Mach.meterCfgWith (m : Mach) (es : List SetEntry) : List ParamCell :=
  let base := m.meter.cfgNext.foldl (fun l (c : ParamCell) => cellPut l c.handle c.id c.val) m.params
  es.foldl (fun l (e : SetEntry) => match rowFor meterUnit e.id with
    | some r => match decodeVal r e.val with
      | some v => cellPut l meterUnit e.id v
      | none => l
    | none => l) base

/-- Keep one write until its time. -/
def Mach.meterDeferOne (cmd : Nat × Nat) (m : Mach) (e : SetEntry) : Mach :=
  if e.id == pENERGY_UNIT then m.defer cmd meterUnit [e]
  else match rowFor meterUnit e.id with
    | some r => { m with meter.cfgNext := cellSet m.meter.cfgNext meterUnit e.id (decodeElems r r.count e.val) }
    | none => m

/-- Accept configuration writes: ENERGY_UNIT at the next tick (12 R396), the others at the next
window boundary (R412); a measurement running ends with 0xC4 (R410). -/
def Mach.meterDefer (m : Mach) (cmd : Nat × Nat) (es : List SetEntry) : Mach :=
  let m1 := m.each es (Mach.meterDeferOne cmd)
  match m1.meter.meas with
  | some c => { m1 with meter.meas := none }.calFailed c.tag
  | none => m1

/-- Write entries to the meter (12 R384, R412; 14 R458). -/
def Mach.meterWrite (m : Mach) (cmd : Nat × Nat) (es : List SetEntry) : Mach × Nat × List Nat :=
  let good := meterCfgOk (m.meterCfgWith es)
  let sts := es.map fun e =>
    let x := m.setStatus meterUnit e
    if x == 0 && tied e.id && !good then stBAD_PARAM else x
  let bad := firstRefusal sts
  if !countOk es then refuse m stBAD_LENGTH
  else if bad == 0 then (m.meterDefer cmd es, stOK, setReply es sts) else (m, bad, setReply es sts)

/-- METER_CONFIG (12 R384, R412). -/
def execMeterConfig (tag : Nat) (entries : List SetEntry) (s : State) : Res :=
  serve s 0x60 tag fun m => m.meterWrite (0x60, tag) entries

/-- Values of IDs 0x0910 to 0x092E as bytes of their types (12 R412). -/
def windowBytes (vals : List Int) : List Nat :=
  (List.range 31).flatMap fun k =>
    match rowOfId (0x0910 + k) with
    | some r => leS r.bytes (nth vals k 0)
    | none => []

/-- METER_READ (14 R460): the end timestamp of the last window and its values. -/
def execMeterRead (tag : Nat) (s : State) : Res :=
  serve s 0x61 tag fun m => (m, stOK, le 8 s.shown.meter.winEnd ++ windowBytes s.shown.meter.win)

/-- ENERGY_UNIT in µWh (12 R394, R412). -/
def energyUnit (e : Nat) : Nat :=
  match e with
  | 0 => 1000 | 1 => 10000 | 2 => 100000 | _ => 1000000

/-- Counter and wrap counter of an accumulator (12 R394). -/
def counterOf (a u : Nat) : Nat × Nat := ((a / u) % 2 ^ 32, (a / (u * 2 ^ 32)) % 256)

/-- Flags of a counter in an ENERGY_READ reply (12 R395). -/
def readFlags (r : ReadRec) (c w : Nat) : Nat :=
  let dw := (w + 256 - r.w) % 256
  let ovf := !r.first && !r.unitChg && (decide (2 ≤ dw) || (dw == 1 && decide (r.c ≤ c)))
  b2n ovf + 2 * b2n r.first + 4 * b2n r.restored + 8 * b2n r.unitChg

/-- The read-clear record of a counter after an ENERGY_READ returned it (12 R395). -/
def readDone (c w : Nat) : ReadRec := ⟨c, w, false, false, false⟩

/-- ENERGY_READ (12 R394, R395): all eight counters as they stood after the last sample of the frame
before. The first one after a start ends 0xC5 (R413). -/
def Mach.energyRead (m shown : Mach) : Mach × Nat × List Nat :=
  let u := energyUnit (m.met pENERGY_UNIT)
  let cs := (List.range 8).map fun k => counterOf (shown.accW k) u
  let body := (List.range 8).flatMap fun k =>
    let c := nth cs k (0, 0)
    le 4 c.1 ++ [c.2, readFlags (nth m.meter.reads k ReadRec.reset) c.1 c.2]
  ({ m with
    meter.reads := cs.map fun (c : Nat × Nat) => readDone c.1 c.2
    meter.restored := false }.endFault meterUnit 0xC5, stOK, le 8 m.ts ++ body)

/-- ENERGY_READ. -/
def execEnergyRead (tag : Nat) (s : State) : Res := serve s 0x62 tag fun m => m.energyRead s.shown

/-- METER_FLAGS (12 R412). -/
def Mach.meterFlags (m : Mach) : Nat :=
  b2n m.meter.meas.isSome + 2 * b2n (!m.meter.freqValid) + 4 * b2n m.meter.overrange
    + 8 * b2n (m.supplyEvt 0).isSome + 16 * b2n (m.supplyEvt 1).isSome + 32 * b2n (m.supplyEvt 2).isSome
    + 64 * b2n m.meter.restored + 128 * b2n m.meter.noAccum

/-- The read-only parameters of unit 0x0300 (12 R412). A counter is read in the ENERGY_UNIT of the serving frame, `now`
(R396). -/
def Mach.meterRo (m now : Mach) (id : Nat) : Option (List Int) :=
  let u := energyUnit (now.met pENERGY_UNIT)
  if id == pFREQ then some [m.meter.freq]
  else if id == pFREQ_VALID then some [b2i m.meter.freqValid]
  else if pURMS_HC_1 ≤ id && id ≤ pURMS_HC_3 then some [(nth m.meter.hc (id - pURMS_HC_1) 0 : Nat)]
  else if 0x0910 ≤ id && id ≤ 0x092E then some [nth m.meter.win (id - 0x0910) 0]
  else if pEA_IMP ≤ id && id ≤ pES_EXP then some [((counterOf (m.accW (id - pEA_IMP)) u).1 : Nat)]
  else if pWRAP_0 ≤ id && id ≤ pWRAP_7 then some [((counterOf (m.accW (id - pWRAP_0)) u).2 : Nat)]
  else if id == pMETER_FLAGS then some [(m.meterFlags : Nat)]
  else if id == pLAST_SAVE_TIME then some [(m.meter.lastSave : Nat)]
  else if id == pMETER_LOST_TIME then some [(m.meter.lostTime : Nat)]
  else if id == pTRIP_EA_IMP then some [(m.meter.tripEa.1 : Nat)]
  else if id == pTRIP_EA_EXP then some [(m.meter.tripEa.2.1 : Nat)]
  else if id == pTRIP_DURATION then some [(m.meter.tripEa.2.2 : Nat)]
  else if id == pMETER_GAP_TIME then some [(min (m.meter.gapN / 32) (2 ^ 32 - 1) : Nat)]
  else if id == pCAL_STATE then some [(m.meter.calState : Nat)]
  else if 0x0951 ≤ id && id ≤ 0x0957 then some [nth m.meter.gains (id - 0x0951) 0]
  else if 0x0958 ≤ id && id ≤ 0x095A then some [nth m.meter.phases (id - 0x0958) 0]
  else if 0x095B ≤ id && id ≤ 0x0961 then some [nth m.meter.offsets (id - 0x095B) 0]
  else if id == pSAG_TABLE then some ((m.meter.tables.take 30).map fun x => (x : Int))
  else if id == pSWELL_TABLE then some (((m.meter.tables.drop 30).take 12).map fun x => (x : Int))
  else if id == pINTR_TABLE then some ((m.meter.tables.drop 42).map fun x => (x : Int))
  else none

end Sys2Proof.Machine
end

