-- ==== Sys2Proof/Machine/Planner.lean ====
section
/-!
DEFINITION. Kinematics (04 R97, R99), the check of a plan (R100), the stopping distance (R106) and
the planner that builds shortest-time plans. The spec leaves the planner's rounding of durations
open; the model's is in notes/assumptions/6.md.
-/
namespace Sys2Proof.Machine

open Sys2Proof

/-- 10 ns units in a second. -/
def uS : Nat := 100000000

/-- 10 ns units in a frame. -/
def uF : Nat := 25000

/-- The engine's resolution: 2^-20 of a unit (04 R99). -/
def q20 : Nat := 1048576

/-- A 2^-20 value rounded to the unit, halves away from zero (04 R99). -/
def unitOf (x : Int) : Int := halfAway x q20

/-- State after t units at jerk j (04 R97), each quantity exact and then rounded once (R99). -/
def kinAfter (k : Kin) (j : Int) (t : Nat) : Kin :=
  { p := halfAway (6 * k.p * (uS ^ 3 : Nat) + 6 * k.v * t * (uS ^ 2 : Nat) + 3 * k.a * t * t * (uS : Nat) + j * (q20 : Nat) * t * t * t) (6 * uS ^ 3),
    v := halfAway (2 * k.v * (uS ^ 2 : Nat) + 2 * k.a * t * (uS : Nat) + j * (q20 : Nat) * t * t) (2 * uS ^ 2),
    a := halfAway (k.a * (uS : Nat) + j * (q20 : Nat) * t) uS }

/-- End state of consecutive segments. -/
def runSegs (k : Kin) (l : List Seg) : Kin := l.foldl (fun k s => kinAfter k s.j s.t) k

/-- Where consecutive segments have come after an elapsed time: state, jerk, segments left. -/
def evalSegs (k : Kin) : List Seg → Nat → Kin × Int × Nat
  | [], _ => (k, 0, 0)
  | s :: r, t => if t < s.t then (kinAfter k s.j t, s.j, r.length + 1) else evalSegs (kinAfter k s.j s.t) r (t - s.t)

/-- Total duration of segments. -/
def segsTime (l : List Seg) : Nat := l.foldl (fun x s => x + s.t) 0

/-- A state seen with the direction reversed. -/
def kinFlip (k : Kin) : Kin := ⟨-k.p, -k.v, -k.a⟩

/-- Segments with the direction reversed. -/
def flipSegs (l : List Seg) : List Seg := l.map fun s => ⟨-s.j, s.t⟩

/-! The check of a plan (04 R100). -/

/-- |a| ≤ A_MAX at both boundaries of a segment and |j| ≤ J_MAX. -/
def segLimits (amax jmax : Nat) (k : Kin) (s : Seg) (k' : Kin) : Bool :=
  decide (mag s.j ≤ jmax) && decide (1 ≤ s.t) && decide (s.t < 2 ^ 32) && decide (mag k.a ≤ amax * q20) && decide (mag k'.a ≤ amax * q20)

/-- Speed inside a segment: |v| ≤ cap at its ends and where a passes through zero, and v keeps the
direction of travel (here upward), with the tolerance of 1 µm/s in the last segment. -/
def segSpeeds (cap : Nat) (last : Bool) (k : Kin) (s : Seg) (k' : Kin) : Bool :=
  let c : Int := (cap * q20 : Nat)
  let floor : Int := if last then -(q20 : Int) else 1
  let ends := decide (0 ≤ k.v) && decide (k.v ≤ c) && decide (floor ≤ k'.v) && decide (k'.v ≤ c)
  let turns := (k.a < 0 && 0 < k'.a) || (0 < k.a && k'.a < 0)
  let den : Int := 2 * s.j * (q20 : Nat)
  let num := k.v * den - k.a * k.a
  let inner := !turns || (if den > 0 then decide (floor * den ≤ num) && decide (num ≤ c * den)
    else decide (num ≤ floor * den) && decide (c * den ≤ num))
  ends && inner

/-- All segments of an upward plan. -/
def segsOk (amax jmax cap : Nat) : Kin → List Seg → Bool
  | _, [] => true
  | k, s :: r =>
    let k' := kinAfter k s.j s.t
    segLimits amax jmax k s k' && segSpeeds cap r.isEmpty k s k' && segsOk amax jmax cap k' r

/-- The cap of 04 R103 for a kind, from a switch state; none: refused. `f3`: the exit plan of an F3
reaction that replaces a moving plan. -/
def Mach.capFor (m : Mach) (kind : Nat) (k : Kin) (f3 : Bool) : Option Nat :=
  let q := m.quality
  let lim (v : Nat) := if q == 1 then min v 300000 else v
  let modes := m.inspection || m.evacuation
  if q == 0 then none
  else match kind with
    | 0 =>
      if modes then none
      else if 2 ≤ q then some m.vRated
      else if f3 && k.v != 0 then some (min m.vRated (mag (unitOf k.v)))
      else none
    | 1 => some (m.nat pLEVEL_SPEED)
    | 2 => some (m.nat pRELEVEL_SPEED)
    | 3 => if m.inspection then some (lim (m.nat pINSP_SPEED)) else none
    | 4 => if m.evacuation then some (m.nat pEVAC_SPEED) else none
    | 5 => some (m.nat pHOME_SPEED)
    | 6 => some (lim (m.nat pLEARN_SPEED))
    | _ => none

/-- SILL_LEVEL of the lowest and the highest landing. -/
def Mach.sillLow (m : Mach) : Int := m.land 0 pSILL_LEVEL

/-- SILL_LEVEL of the highest landing. -/
def Mach.sillHigh (m : Mach) : Int := m.land (m.nLandings - 1) pSILL_LEVEL

/-- The target lies where its kind allows (04 R100). -/
def Mach.targetOk (m : Mach) (kind : Nat) (t : Int) : Bool :=
  let d : Int := if kind ≤ 2 then 0 else 500000
  decide (m.sillLow - d ≤ t) && decide (t ≤ m.sillHigh + d)

/-- An upward plan never accelerates the car: a is not above zero anywhere (04 R103), with the tolerance of
1 µm/s² of R100. -/
def coasts : Kin → List Seg → Bool
  | k, [] => decide (k.a ≤ q20)
  | k, s :: r => decide (k.a ≤ q20) && coasts (kinAfter k s.j s.t) r

/-- The exit plan of an F3 reaction under LIMITED quality (04 R103). -/
def Mach.coasting (m : Mach) (kind : Nat) (f3 : Bool) : Bool := f3 && kind == 0 && m.quality == 1

/-- The conditions of 04 R100 on a plan whose switch state is `k`; `f3`: an exit plan of an F3 reaction, which
under LIMITED quality never accelerates the car (R103). -/
def Mach.planOk (m : Mach) (pl : Plan) (k : Kin) (fromRest f3 : Bool) : Bool :=
  let n := (pl.switch + 2 ^ 32 - m.fc) % 2 ^ 32
  let near := decide (mag (unitOf pl.start.p - unitOf k.p) ≤ 1) && decide (mag (unitOf pl.start.v - unitOf k.v) ≤ 1)
    && decide (mag (unitOf pl.start.a - unitOf k.a) ≤ 1)
  let up := decide (unitOf k.p ≤ pl.target)
  let k' := if up then k else (kinFlip k)
  let segs := if up then pl.segs else flipSegs pl.segs
  let e := runSegs k pl.segs
  (fromRest || (decide (1 ≤ n) && decide (n ≤ 8)))
    && near
    && decide (1 ≤ pl.segs.length) && decide (pl.segs.length ≤ 16)
    && (match m.capFor pl.kind k f3 with
      | some c => segsOk (m.nat pA_MAX) (m.nat pJ_MAX) c k' segs
      | none => false)
    && (!m.coasting pl.kind f3 || coasts k' segs)
    && decide (mag (e.p - pl.target * (q20 : Nat)) ≤ q20) && decide (mag e.v ≤ q20) && decide (mag e.a ≤ q20)
    && m.targetOk pl.kind pl.target

/-! Building plans. Everything below works upward: the caller flips a downward motion. -/

/-- Duration of at most so many units per segment. -/
def hold (j : Int) (t : Nat) : List Seg :=
  if t == 0 then []
  else if t < 2 ^ 32 then [⟨j, t⟩]
  else List.replicate (t / (2 ^ 32 - 1)) ⟨j, 2 ^ 32 - 1⟩ ++ (if t % (2 ^ 32 - 1) == 0 then [] else [⟨j, t % (2 ^ 32 - 1)⟩])

/-- Bring the acceleration towards a value (2^-20 units) at the limit jerk, for the whole units that fit. -/
def jerkTo (k : Kin) (a : Int) (jmax : Nat) : List Seg :=
  let d := a - k.a
  let s : Int := if d < 0 then -1 else 1
  hold (s * (jmax : Int)) (d.natAbs * uS / (jmax * q20))

/-- End an acceleration before a cruise: the limit jerk for the whole units that fit, and one unit at the jerk
that takes away what is left, so that the cruise does not drift. -/
def easeOff (k : Kin) (jmax : Nat) : List Seg :=
  let l := jerkTo k 0 jmax
  let r := (runSegs k l).a
  l ++ hold (clamp (-(jmax : Int)) jmax (-(halfAway (r * (uS : Nat)) q20))) (if r == 0 then 0 else 1)

/-- End a deceleration at rest: the limit jerk for the nearest whole number of units. -/
def easeIn (k : Kin) (jmax : Nat) : List Seg :=
  hold (if k.a < 0 then (jmax : Int) else -(jmax : Int)) ((2 * k.a.natAbs * uS + jmax * q20) / (2 * jmax * q20))

/-- Peak acceleration for a speed change of dv (2^-20 µm/s) from acceleration a0, at most A (04 R106). -/
def peakAcc (dv a0 : Int) (a j : Nat) : Int :=
  let x := dv * (j * q20 : Nat) + a0 * a0 / 2
  let r : Int := (isqrt x.toNat : Nat)
  if r < ((a * q20 : Nat) : Int) then r else (a * q20 : Nat)

/-- The speed once the acceleration of a state has been ended at the limit jerk (2^-20 µm/s). -/
def calmV (k : Kin) (j : Nat) : Int :=
  if k.a < 0 then k.v - k.a * k.a / (2 * j * q20 : Nat) else k.v + k.a * k.a / (2 * j * q20 : Nat)

/-- Speed up from a state to the speed vp (2^-20 µm/s), arriving without acceleration. -/
def speedUp (k : Kin) (vp : Int) (a j : Nat) : List Seg :=
  let ap := peakAcc (vp - k.v) k.a a j
  let up := jerkTo k ap j
  let k1 := runSegs k up
  let down := easeOff k1 j
  let gain := (runSegs k1 down).v - k1.v
  let flat := if 0 < k1.a then ((vp - k1.v - gain) * (uS : Nat) / k1.a).toNat else 0
  up ++ hold 0 flat ++ down

/-- Reach the speed vp without acceleration, from below or from above. -/
def speedTo (k : Kin) (vp : Int) (a j : Nat) : List Seg :=
  if calmV k j ≤ vp then speedUp k vp a j else flipSegs (speedUp (kinFlip k) (-vp) a j)

/-- Brake from a state to rest (the shape of stop_distance, 04 R106). -/
def brake (k : Kin) (a j : Nat) : List Seg :=
  let ap := peakAcc k.v k.a a j
  let down := if -ap < k.a then jerkTo k (-ap) j else []
  let k1 := runSegs k down
  let up := easeIn k1 j
  let loss := k1.v - (runSegs k1 up).v
  let flat := if k1.a < 0 then ((k1.v - loss) * (uS : Nat) / (-k1.a)).toNat else 0
  down ++ hold 0 flat ++ up

/-- The stopping distance from a state (04 R106), in 2^-20 µm along the direction of travel. -/
def stopDistQ (k : Kin) (a j : Nat) : Int :=
  let k0 : Kin := if k.v < 0 then (kinFlip k) else k
  let k1 : Kin := { k0 with p := 0 }
  (runSegs k1 (brake k1 a j)).p

/-- The plan that peaks at vp without a cruise. -/
def peakPlan (k : Kin) (vp : Int) (a j : Nat) : List Seg :=
  let up := speedTo k vp a j
  up ++ brake (runSegs k up) a j

/-- The plan that eases a braking state for t units and then brakes. -/
def easePlan (k : Kin) (t : Nat) (a j : Nat) : List Seg :=
  let up := hold j t
  up ++ brake (runSegs k up) a j

/-- Largest x below 2^n (from a base) whose plan ends at or before the target. -/
def bisect (f : Nat → Bool) : Nat → Nat → Nat
  | 0, x => x
  | n + 1, x => bisect f n (if f (x + 2 ^ n) then x + 2 ^ n else x)

/-- The shortest-time segments from a state to rest at a target ahead of it (04 R106): a run at the
cap with a cruise, a lower peak, or less braking; none when the target is nearer than the stopping
distance, or lies beyond it and the car comes to rest before its deceleration can be ended (R100).
Positions in 2^-20 µm, the cap c0 in 2^-20 µm/s: it is aimed at 1/1024 µm/s below the cap, so that a
replacement begun near it stays within it. -/
def shortest (k : Kin) (target : Int) (c0 : Int) (a j : Nat) : Option (List Seg) :=
  let stop := brake k a j
  let calm := calmV k j
  let c := max (c0 - 1024) (min calm c0)
  if target < (runSegs k stop).p - (q20 : Int) then none
  else if k.a < 0 && decide (calm < (q20 : Int)) then
    if target ≤ (runSegs k stop).p + (q20 : Int) then some stop else none
  else
    let top := peakPlan k c a j
    let e := runSegs k top
    if e.p ≤ target then
      let up := speedTo k c a j
      let k1 := runSegs k up
      let t := if 0 < k1.v then ((target - e.p) * (uS : Nat) / k1.v).toNat else 0
      let k2 := runSegs k1 (hold 0 t)
      some (up ++ hold 0 t ++ brake k2 a j)
    else if calm ≤ c && (runSegs k (peakPlan k calm a j)).p ≤ target then
      let x := bisect (fun x => decide (calm + (x : Int) ≤ c) && decide ((runSegs k (peakPlan k (calm + x) a j)).p ≤ target)) 46 0
      some (peakPlan k (calm + x) a j)
    else if k.a < 0 then
      let x := bisect (fun x => decide (x * j * q20 ≤ k.a.natAbs * uS) && decide ((runSegs k (easePlan k x a j)).p ≤ target)) 32 0
      some (easePlan k x a j)
    else some stop

/-- The same for a cap in µm/s. -/
def underCap (k : Kin) (target : Int) (cap a j : Nat) : Option (List Seg) := shortest k target (cap * q20 : Nat) a j

/-- Segments from a state to rest at a target in µm, in the direction of the target. -/
def segsTo (k : Kin) (target : Int) (cap a j : Nat) : Option (List Seg) :=
  if k.p ≤ target * (q20 : Nat) then underCap k (target * (q20 : Nat)) cap a j
  else (underCap (kinFlip k) (-(target * (q20 : Nat))) cap a j).map flipSegs

/-- The speed of a braking car once its deceleration is eased off, in whole µm/s: a plan under that cap never
accelerates it (04 R103). -/
def calmSpeed (k : Kin) (j : Nat) : Nat :=
  let u := if k.v < 0 then kinFlip k else k
  (min u.v (calmV u j) / (q20 : Nat)).toNat

/-- A planned motion under A_MAX and J_MAX. -/
def Mach.planSegs (m : Mach) (k : Kin) (target : Int) (cap : Nat) : Option (List Seg) :=
  segsTo k target cap (m.nat pA_MAX) (m.nat pJ_MAX)

/-- STOP_DIST (04 R106, R124), in µm. -/
def Mach.stopDist (m : Mach) : Nat := (unitOf (stopDistQ m.eng.kin (m.nat pA_MAX) (m.nat pJ_MAX))).toNat

end Sys2Proof.Machine
end

