-- ==== Sys2Proof/Machine/Engine.lean ====
section
/-!
DEFINITION. The motion profile engine and the drive slot (chapter 04): plans, stops, starting and
ending a run, setpoints, feedback and drive supervision, with the meanings of their events.
-/
namespace Sys2Proof.Machine

open Sys2Proof

/-- MODE while a plan of a kind executes (04 R112). -/
def modeOf (kind : Nat) : Nat :=
  match kind with
  | 1 => 3
  | 2 => 7
  | 3 => 6
  | 4 => 6
  | _ => 2

/-- MODE of a stop (04 R108). -/
def stopMode : StopKind → Nat
  | .safe => 5
  | .ramp => 4
  | .immediate => 2

/-- Rank of a stop (04 R111). -/
def stopRank : StopKind → Nat
  | .safe => 3
  | .ramp => 2
  | .immediate => 1

/-- The present instant in 10 ns units: the tick of the frame. -/
def Mach.nowU (m : Mach) : Nat := uF * m.time.frame

/-- The brake is reported open, as the engine takes it (07 R194, R239). -/
def Mach.brakeOpen (m : Mach) : Bool := m.safe.brake == 1

/-- The brake is reported closed. -/
def Mach.brakeClosed (m : Mach) : Bool := m.safe.brake == 2

/-- Where an engine stop has come at an instant: at rest once v has reached 0 (04 R108). -/
def StopRun.at (r : StopRun) (t : Nat) : Kin × Int × Nat :=
  let (k, j, n) := evalSegs r.s0 r.segs (t - r.t0)
  if n == 0 || (if r.up then decide (k.v ≤ 0) else decide (0 ≤ k.v)) then (⟨k.p, 0, 0⟩, 0, 0) else (k, j, n)

/-- Where a plan has come at an instant: its target once its last segment has ended (04 R99). -/
def RunningPlan.at (r : RunningPlan) (t : Nat) : Kin × Int × Nat :=
  if t < r.t0 then (r.s0, 0, r.plan.segs.length)
  else
    let (k, j, n) := evalSegs r.s0 r.plan.segs (t - r.t0)
    if n == 0 then (Kin.rest r.plan.target, 0, 0) else (k, j, n)

/-- The engine's state, jerk and segments left at an instant. -/
def Mach.engineAt (m : Mach) (t : Nat) : Kin × Int × Nat :=
  match m.eng.stop, m.eng.exec with
  | some r, _ => r.at t
  | none, some r => r.at t
  | none, none => (m.eng.kin, 0, 0)

/-- The plan identifier after the last one (05 R139). -/
def nextId (x : Nat) : Nat := if 0xFFFF ≤ x then 1 else x + 1

/-- A plan is pending or executing. -/
def Mach.hasPlan (m : Mach) : Bool := m.eng.pend.isSome || (match m.eng.exec with | some r => !r.ended | none => false)

/-- An application processor plans: one holds the tether, and no ballast hold is in force (04 R100, R123). -/
def Mach.planner (m : Mach) : Bool := m.pair.holder.isSome && !m.time.ballast

/-- Load a plan (04 R100, R101, R111): without a planner, or after a double-bit ECC error, none reaches the
engine (R123; 01 R20); while a stop executes it is discarded and counted; refused, it changes nothing but
PLAN_REJECTS and fault 0x40; accepted, it replaces any pending plan. -/
def Mach.loadPlan (m : Mach) (pl : Plan) (fromRest f3 : Bool) : Mach × Bool :=
  if !m.planner || m.time.planEcc == .double then (m, false)
  else if m.eng.stop.isSome then ({ m with eng.rejects := sat32 m.eng.rejects }, false)
  else
    let n := (pl.switch + 2 ^ 32 - m.fc) % 2 ^ 32
    let k := if fromRest then m.eng.kin else (m.engineAt (m.nowU + uF * n)).1
    if m.planOk pl k fromRest f3 then
      ({ m with
          eng.pend := some pl
          eng.pendRest := fromRest
          eng.pendSince := m.time.frame
          eng.pendCap := (m.capFor pl.kind k f3).getD 0
          eng.heldOk := true
        }.endFault 1 0x40, true)
    else ({ m with eng.rejects := sat32 m.eng.rejects }.raise 1 0x40 2, false)

/-- Withdraw the pending plan when its switch tick has not come (04 R101); a cancel that arrives while a stop executes,
or takes effect at the tick of one, is discarded and counted (R111), and none comes without a planner (R123). -/
def Mach.cancelPlan (m : Mach) : Mach :=
  if !m.planner then m
  else if m.eng.stop.isSome then { m with eng.rejects := sat32 m.eng.rejects }
  else { m with
    eng.cancelled := true
    eng.pend := none
    eng.pendRest := false
    eng.closing := m.eng.closing || m.eng.pendRest
    eng.brakeReq := m.eng.brakeReq && !m.eng.pendRest }

/-- Build a plan from the engine's state at rest and load it (04 R112). -/
def Mach.planFromRest (m : Mach) (kind : Nat) (target : Int) : Mach × Bool :=
  let k : Kin := ⟨m.eng.kin.p, 0, 0⟩
  let cap := (m.capFor kind k false).getD 0
  let segs := (m.planSegs k target cap).getD []
  let id := nextId m.sched.planId
  ({ m with sched.planId := id }).loadPlan ⟨id, kind, 0, k, target, segs⟩ true false

/-- Segments of the stop the engine computes from a state (04 R108), in its direction of motion. -/
def stopSegs (k : Kin) (a j : Nat) : List Seg :=
  if k.v < 0 then flipSegs (brake (kinFlip k) a j) else brake k a j

/-- The stop of a kind from the engine's state at a tick (04 R108, R110). -/
def Mach.makeStop (m : Mach) (kind : StopKind) : StopRun :=
  let k := m.eng.kin
  let up := decide (0 < k.v) || (k.v == 0 && (match m.eng.exec with
    | some r => decide (unitOf r.s0.p < r.plan.target)
    | none => false))
  let ramp : StopRun :=
    let r : StopRun := ⟨.ramp, if k.v == 0 then [] else stopSegs k (m.nat pERAMP_DEC) (m.nat pERAMP_JERK), m.nowU, k, 0, up⟩
    { r with target := unitOf (r.at (m.nowU + segsTime r.segs)).1.p }
  match kind with
  | .safe => ⟨.safe, [], m.nowU, Kin.rest m.fpos, m.fpos, up⟩
  | .ramp => ramp
  | .immediate =>
    let r : StopRun := ⟨.immediate, if k.v == 0 then [] else stopSegs k (m.nat pA_MAX) (m.nat pJ_MAX), m.nowU, k, 0, up⟩
    let e := unitOf (r.at (m.nowU + segsTime r.segs)).1.p
    if k.v != 0 && (if up then decide (m.sillHigh < e) else decide (e < m.sillLow)) then ramp else { r with target := e }

/-- Begin a stop: it replaces the executing plan and discards any pending plan (04 R108). -/
def Mach.beginStop (m : Mach) (kind : StopKind) : Mach :=
  let r := m.makeStop kind
  { m with
    eng.stop := some r
    eng.kin := r.s0
    eng.jerk := 0
    eng.mode := stopMode r.kind
    eng.exec := none
    eng.pend := none
    eng.pendRest := false
    eng.settleSince := none
    eng.closing := false
    eng.heldOk := false
    eng.retries := 0
    eng.vCap := 0 }

/-- The pending plan switches at this tick (04 R101). -/
def Mach.switchDue (m : Mach) : Bool :=
  match m.eng.pend with
  | some p => !m.eng.pendRest && p.switch % 2 ^ 32 == m.fc
  | none => false

/-- The stop that arrives at this tick takes effect: none of the same or a higher order executes
(04 R111). -/
def Mach.stopWins (m : Mach) (k : StopKind) : Bool :=
  match m.eng.stop with
  | some r => decide (stopRank r.kind < stopRank k)
  | none => true

/-- Make the pending plan the executing plan, starting at an instant (04 R101, R112). -/
def Mach.startPlan (m : Mach) (t0 : Nat) : Mach :=
  match m.eng.pend with
  | some p =>
    { m with
      eng.exec := some ⟨p, t0, m.eng.kin, false⟩
      eng.pend := none
      eng.pendRest := false
      eng.newPlan := true
      eng.settleSince := none
      eng.retries := if p.kind == 1 then m.eng.retries else 0
      eng.vCap := m.eng.pendCap
      eng.relMoving := p.kind == 2 }
  | none => m

/-- The engine holds the fused position: in the safe stop, and in IDLE until a plan is accepted (04 R118). -/
def Mach.holdsFused (m : Mach) : Bool :=
  match m.eng.stop with
  | some r => r.kind == .safe
  | none => m.eng.mode == 0 && m.eng.exec.isNone && !m.eng.heldOk

/-- The engine at a frame tick: its state advances, then the highest stop or the pending plan takes
effect (04 R99, R101, R108 to R111). -/
def Mach.engineTick (m : Mach) : Mach :=
  let at1 := m.engineAt m.nowU
  let k := at1.1
  let j := at1.2.1
  let n := at1.2.2
  let begun := match m.eng.exec with | some r => decide (r.t0 ≤ m.nowU) | none => false
  let idle := m.holdsFused
  let m1 := { m with
    eng.kin := if idle then Kin.rest m.fpos else k
    eng.jerk := j
    eng.exec := (m.eng.exec.map fun (r : RunningPlan) => { r with ended := r.ended || (begun && n == 0) })
    eng.mode := (match m.eng.exec with
      | some r => if begun && (m.eng.mode == 1 || m.eng.mode == 3) && !r.ended then modeOf r.plan.kind else m.eng.mode
      | none => m.eng.mode)
    eng.stopReq := none
    eng.cancelled := false }
  match m.eng.stopReq with
  | some q =>
    if m1.stopWins q then
      { m1 with eng.rejects := satAdd 32 m1.eng.rejects (b2n m1.switchDue + b2n m.eng.cancelled) }.beginStop q
    else { m1 with eng.rejects := sat32 m1.eng.rejects }
  | none =>
    if m1.switchDue then
      let m2 := m1.startPlan m1.nowU
      { m2 with eng.mode := (match m2.eng.exec with | some r => modeOf r.plan.kind | none => m2.eng.mode) }
    else m1

/-! Setpoints (04 R112, R115 to R118). -/

/-- Module timestamp of a basic cycle's start: the cycle's first frame is the one before. -/
def Mach.spTime (m : Mach) : Nat := 250 * (m.time.frame - 1) + m.nat pDRV_LEAD

/-- What the assembly changes before the setpoint is built: PRETORQUE for a plan that waits from
rest, its start once the brake is open, and IDLE once the brake is closed (04 R108, R112, R113). A correction
accepted while the brake is still open starts from mode 3, without PRETORQUE or the wait for TORQUE_ON: the
torque is on already, and the rules do not say (DESIGN CHOICE, notes/assumptions/51.md). -/
def Mach.assemblyTurns (m : Mach) : Mach :=
  let t := m.spTime * 100
  let f5 := m.faults.any fun f => f.cls == 5
  let isSafe := match m.eng.stop with | some r => r.kind == .safe | none => false
  if m.eng.closing && m.brakeClosed && !(isSafe && f5) then
    let corr := m.eng.pendRest
    { m with
      eng.mode := if corr then 1 else 0
      eng.kin := if m.eng.stop.isSome then Kin.rest m.fpos else m.eng.kin
      eng.stop := none
      eng.exec := none
      eng.closing := false
      eng.vCap := 0
      eng.relReq := m.eng.relReq && !m.eng.relMoving
      eng.relMoving := false }
  else if m.eng.pendRest && m.eng.brakeReq && m.brakeOpen && (m.eng.mode == 1 || m.eng.mode == 3) then
    let m1 := { m.startPlan t with eng.started := some (t / uF) }
    (m1.endFault 1 0x46).endFault 1 0x4A
  else if m.eng.pendRest && m.eng.mode == 0 then { m with eng.mode := 1 }
  else m

/-- Content of the setpoint assembled at this tick (04 R117), ended by the safety CRC over its
identifier and bytes (11 R365). -/
def Mach.setpoint (m : Mach) : List Nat :=
  let t := m.spTime * 100
  let (k, j, n) := m.engineAt t
  let mode := match m.eng.stop, m.eng.exec with
    | none, some r => if !r.ended then modeOf r.plan.kind else m.eng.mode
    | _, _ => m.eng.mode
  let still := mode == 0 || mode == 1
  let safe := mode == 5
  let p := if safe then m.fpos else unitOf k.p
  let v := if safe || still then 0 else unitOf k.v
  let a := if safe || still then 0 else unitOf k.a
  let jj := if safe || still then 0 else j
  let pl := if mode == 1 then m.eng.pend else m.eng.exec.map (·.plan)
  let from0 := match m.eng.exec with | some r => unitOf r.s0.p | none => unitOf m.eng.kin.p
  let ahead := match m.eng.stop with
    | some r => r.up
    | none => match pl with | some q => decide (from0 < q.target) | none => false
  let up := decide (0 < v) || (v == 0 && mode != 0 && mode != 5 && ahead)
  let target := match m.eng.stop with
    | some r => if safe then m.fpos else r.target
    | none => if mode == 0 then p else match pl with | some q => q.target | none => p
  let plan := if mode == 0 || mode == 4 || mode == 5 || m.eng.stop.isSome then 0 else match pl with | some q => q.id | none => 0
  let flags := b2n up + 2 * b2n m.eng.brakeReq + 4 * b2n (n == 1) + 8 * b2n m.eng.newPlan + 16 * b2n m.time.ballast
  let b := le 2 m.eng.spSeq ++ [m.nat pDRV_SRC_ID, mode] ++ le 2 flags ++ le 2 plan ++ le 8 m.spTime
    ++ leS 4 p ++ leS 4 v ++ leS 4 a ++ leS 4 jj ++ leS 4 target ++ le 4 m.eng.vCap ++ le 4 m.fc
  b ++ le 4 (crcSafety (le 4 (m.nat pDRV_SP_ID) ++ b))

/-- SETPOINT_ASSEMBLY at the tick of a frame with count ≡ 1 mod 4 (04 R115); a setpoint with a double-bit ECC
error in its source is discarded (R117; 01 R20). -/
def Mach.assemble (m : Mach) : Mach :=
  if m.eng.spOn && m.time.frame % 4 == 1 then
    let m1 := m.assemblyTurns
    let b := m1.setpoint
    if m1.time.spEcc == .double then m1 else
    { m1 with
      eng.spLast := b
      eng.spSeq := (m1.eng.spSeq + 1) % 65536
      eng.spSent := true
      eng.newPlan := false
      bus.sent := m1.bus.sent ++ [(abOf (m1.nat pDRV_PORT), m1.nat pDRV_SP_ID, b)] }
  else m

/-! Feedback (04 R120, R121). -/

/-- A feedback message received at an instant (µs) is valid (04 R121). -/
def Mach.feedbackOk (m : Mach) (b : List Nat) (rx : Nat) : Bool :=
  let t := leAt b 8 8
  b.length == 32 && leAt b 28 4 == crcSafety (le 4 (m.nat pDRV_FB_ID) ++ b.take 28) && leAt b 2 1 == m.nat pDRV_FB_SRC
    && (!m.eng.fbSeen || newer 16 (leAt b 0 2) m.eng.fb.seq)
    && decide (t ≤ rx) && decide (rx ≤ t + 2000)
    && (!m.eng.spSent || decide ((m.eng.spSeq + 65535 + 65536 - leAt b 4 2) % 65536 ≤ 2))

/-- The fields of a feedback message. -/
def parseFeedback (b : List Nat) : Feedback :=
  { seq := leAt b 0 2, state := leAt b 3 1, flags := leAt b 6 2, vMotor := leSAt b 16 4,
    torque := leSAt b 20 2, udc := leAt b 22 2, code := leAt b 24 4 }

/-- The car moves by its fused velocity (04 R122). -/
def Mach.fusedMoving (m : Mach) : Bool := decide (1000 ≤ mag m.fvel)

/-- DRIVE_FEEDBACK (04 R112, R120 to R122): an invalid message is discarded. -/
def execDriveFeedback (msg : List Nat) (rx : Nat) (s : State) : Res :=
  onWhen s (s.now.feedbackOk msg rx) fun m =>
    let fb := parseFeedback msg
    let m1 := { m with
      eng.fb := fb
      eng.fbSeen := true
      eng.fbThisCycle := true
      eng.brakeReq := m.eng.brakeReq || (m.eng.pendRest && fb.state == 2) }
    if fb.state == 4 then m1.raise 1 0x45 (if m1.fusedMoving then 5 else 3) fb.code 0 else m1

/-- A basic cycle ends and the next begins, at the tick of a frame with count ≡ 0 mod 4: setpoints
begin after step 4 of start-up (04 R115), and the feedback of the cycle is judged (R121, R125). -/
def Mach.engineCycle (m : Mach) (portAwake : Bool) : Mach :=
  if m.time.frame % 4 != 0 then m
  else if !m.eng.spOn then
    { m with eng.spOn := decide (5 ≤ m.start.step) && m.start.step != 7, eng.fbMiss := 0, eng.fbThisCycle := false }
  else
    let got := m.eng.fbThisCycle
    let m1 := { m with
      eng.fbThisCycle := false
      eng.fbMiss := if !portAwake || got then 0 else m.eng.fbMiss + 1
      eng.fbGood := if got then m.eng.fbGood + 1 else 0
      eng.fbReady := if got && m.eng.fb.state == 1 then m.eng.fbReady + 1 else 0 }
    ((m1.endIf 1 0x41 (decide (16 ≤ m1.eng.fbGood) && m1.stationary)).endIf 1 0x42 (decide (16 ≤ m1.eng.fbGood))).endIf 1 0x45
      (decide (16 ≤ m1.eng.fbReady))

/-- DRV_FB_TIMEOUT (04 R121, R122). -/
def execDrvFbTimeout (s : State) : Res :=
  onWhen s (s.now.eng.spOn && decide (s.now.nat pDRV_FB_TIMEOUT ≤ s.now.eng.fbMiss)) fun m =>
    if m.fusedMoving then m.raise 1 0x41 5 else m.raise 1 0x42 3

/-! Supervision (04 R114, R122). -/

/-- Tracking is evaluated (04 R122). -/
def Mach.tracked (m : Mach) : Bool :=
  m.eng.mode != 5 && decide (2 ≤ m.quality)
    && (match m.eng.started with | some f => decide (f + 64 ≤ m.time.frame) | none => true)

/-- The comparisons of one frame: TRACK_POS, the run of the velocity error, the run of the level
error and the end of 0x48 (04 R114, R122, R125). -/
def Mach.engineFrame (m : Mach) : Mach :=
  let dv := mag (unitOf m.eng.kin.v - m.fvel)
  let dp := mag (unitOf m.eng.kin.p - m.fpos)
  let plan := match m.eng.exec with | some r => !r.ended && decide (r.t0 ≤ m.nowU) | none => false
  let le := m.levelError
  let off := le != -2147483648 && decide (m.nat pRELEVEL_START < mag le)
  let m1 := { m with
    eng.trackRun := if m.tracked && decide (m.nat pTRACK_TOL_V < dv) then m.eng.trackRun + 1 else 0
    eng.relRun := if off then m.eng.relRun + 1 else 0 }
  let m2 := if m.tracked && plan && decide (m.nat pTRACK_TOL_P < dp) then m1.raise 1 0x44 4 else m1
  m2.endIf 1 0x48 (m2.stationary && m2.brakeClosed && le != -2147483648 && !off)

/-- The evaluated end of a plan is at rest at its target (04 R100, R125). -/
def RunningPlan.endsAtRest (r : RunningPlan) : Bool :=
  let e := runSegs r.s0 r.plan.segs
  decide (mag (e.p - r.plan.target * (q20 : Nat)) ≤ q20) && decide (mag e.v ≤ q20) && decide (mag e.a ≤ q20)

/-- Loads and cancels from the processor without the tether are counted (04 R123), and the engine checks
itself (R125): its state at the end of a plan, and its fixed-point arithmetic. -/
def Mach.engineChecks (m : Mach) (i : FrameIn) : Mach :=
  let m1 := { m with eng.rejects := satAdd 32 m.eng.rejects i.strayPlans }
  let ended := match m1.eng.exec with
    | some r => r.ended && !r.endsAtRest
    | none => false
  if ended || i.engineBad then m1.raise 1 0x49 5 else m1

/-- TRACK_VEL (04 R122). -/
def execTrackVel (s : State) : Res :=
  onWhen s (decide (msF (s.now.nat pTRACK_TIME) ≤ s.now.eng.trackRun)) fun m => m.raise 1 0x43 4

/-! The ends of motions. -/

/-- The engine stop in progress has reached zero velocity. -/
def Mach.stopAtRest (m : Mach) : Bool :=
  match m.eng.stop with
  | some _ => m.eng.kin.v == 0 && !m.eng.closing
  | none => false

/-- ENGINE_STOP_END (04 R108): the brake request is cleared; IDLE follows once the brake is closed. -/
def execEngineStopEnd (s : State) : Res :=
  onWhen s s.now.stopAtRest fun m => { m with eng.brakeReq := false, eng.closing := true }

/-- DRV_START_TIMEOUT (04 R112): the plan is discarded, the brake request cleared and 0x46 raised. -/
def execDrvStartTimeout (s : State) : Res :=
  onWhen s (s.now.eng.pendRest && s.now.passedMs s.now.eng.pendSince (s.now.nat pDRV_START_TIME)) fun m =>
    { m with eng.pend := none, eng.pendRest := false, eng.brakeReq := false, eng.closing := m.eng.mode != 0 }.raise 1 0x46 3

/-- The executing plan has ended and its settle has not begun. -/
def Mach.planEnded (m : Mach) : Bool :=
  m.eng.stop.isNone && m.eng.settleSince.isNone && !m.eng.closing && !m.eng.pendRest
    && (match m.eng.exec with | some r => r.ended | none => false)

/-- PLAN_END (04 R112, R113): MODE 3 LEVEL, and the settle begins. -/
def execPlanEnd (s : State) : Res :=
  onWhen s s.now.planEnded fun m => { m with eng.mode := 3, eng.settleSince := some m.time.frame }

/-- The mean of the valid LEVEL_ERROR values of the last 16 frames (04 R113), rounded to whole µm with halves
away from zero: the rule gives no rounding for it (DESIGN CHOICE, notes/assumptions/51.md). -/
def Mach.levelMean (m : Mach) : Option Int :=
  let l := (m.pos.levelHist.take 16).filter fun x => x != -2147483648
  if l == [] then none else some (halfAway (sumI l) l.length)

/-- Take a settle mean: fault 0x47 or its end, and the drawer for levelling error (04 R113; 13 R422). -/
def Mach.takeMean (m : Mach) (x : Int) (last : Bool) : Mach :=
  let m1 := m.hist 2 0 2 x
  let m2 := match m1.curLanding with
    | some l => m1.extreme 2 l x
    | none => m1
  if last then (if decide (m2.nat pLEVEL_ACCEPT < mag x) then m2.raise 1 0x47 1 else m2.endFault 1 0x47) else m2

/-- The settle of 04 R113 has lasted LEVEL_SETTLE. -/
def Mach.settleDone (m : Mach) : Bool :=
  match m.eng.settleSince with
  | some f => m.passedMs f (m.nat pLEVEL_SETTLE)
  | none => false

/-- Clear the brake request; IDLE follows once the brake is closed (04 R113). -/
def Mach.endRun (m : Mach) : Mach := { m with eng.brakeReq := false, eng.closing := true, eng.settleSince := none }

/-- A correction is due at the end of a settle (04 R113): not after a plan of kind RELEVEL, INSPECT or EVAC. -/
def Mach.corrects (m : Mach) (kind : Nat) (x : Int) : Bool :=
  (kind == 0 || kind == 1 || kind == 5 || kind == 6) && decide (m.nat pLEVEL_TOL < mag x)
    && decide (m.eng.retries < m.nat pLEVEL_RETRIES)

/-- The correction is loaded, with the mean taken once; where the engine refuses it, the run ends (04 R113). -/
def Mach.levelCorr (m : Mach) (x : Int) : Mach :=
  let r := { m with eng.settleSince := none }.planFromRest 1 (unitOf m.eng.kin.p - x)
  if r.2 then { r.1 with eng.retries := r.1.eng.retries + 1 }.takeMean x false else (r.1.takeMean x true).endRun

/-- LEVEL_SETTLE_END (04 R113, R114). The settle ends after a plan of every kind; the mean belongs to
SERVICE, HOME and LEARN, and to the corrections and RELEVEL moves at a landing, so that after INSPECT and EVAC
none is taken: the rule gives none there (DESIGN CHOICE, notes/assumptions/51.md). A correction waits for the
planner that commits it (R123). -/
def execLevelSettleEnd (s : State) : Res :=
  onWhen s s.now.settleDone fun m =>
    let kind := match m.eng.exec with | some r => r.plan.kind | none => 0
    match (if kind == 3 || kind == 4 then none else m.levelMean) with
    | none => m.endRun
    | some x => if m.corrects kind x then (if m.planner then m.levelCorr x else m) else (m.takeMean x true).endRun

/-! Re-levelling (04 R114). -/

/-- A side at the landing is opening or open, and none is closing (06 R162). -/
def Mach.doorsInUse (m : Mach) : Bool :=
  let open? (s : Ab) := let x := (m.doors.get s).state; x == 2 || x == 3 || x == 5
  let shut? (s : Ab) := let x := (m.doors.get s).state; x == 4 || x == 7
  (open? .a || open? .b) && !(shut? .a) && !(shut? .b)

/-- The conditions of 04 R114. -/
def Mach.relevelDue (m : Mach) : Bool :=
  m.flag pRELEVEL_ENABLE && m.stationary && m.brakeClosed && m.doorsInUse && decide (2 ≤ m.quality)
    && !m.eng.relReq && m.eng.mode == 0 && m.eng.stop.isNone
    && decide (msF (m.nat pRELEVEL_DELAY) ≤ m.eng.relRun)

/-- RELEVEL_START (04 R114): bridging is requested; the plan follows once it is granted. -/
def execRelevelStart (s : State) : Res :=
  onWhen s s.now.relevelDue fun m => { m with eng.relReq := true, eng.relSince := m.time.frame, eng.relMoving := false }

/-- Once bridging is granted, the RELEVEL plan starts from the fused position (04 R114). -/
def Mach.relevelPlan (m : Mach) : Mach :=
  if m.eng.relReq && m.safe.grant && !m.eng.relMoving && m.eng.pend.isNone && m.eng.exec.isNone then
    let m1 := { m with eng.kin := Kin.rest m.fpos }
    (m1.planFromRest 2 (m1.fpos - m1.levelError)).1
  else m

/-- Bridging is refused or withdrawn, or the brake is not closed again in 3000 ms (04 R114; 07 R221). -/
def Mach.relevelFailed (m : Mach) : Bool :=
  m.eng.relReq && ((decide (m.eng.relSince + 2 ≤ m.time.frame) && !m.safe.grant) || m.passedMs m.eng.relSince 3000)

/-- Re-levelling is in progress (04 R114): requested, or its plan waits or executes, until the brake is closed again. -/
def Mach.relevels (m : Mach) : Bool :=
  m.eng.relReq || (match m.eng.pend with | some p => p.kind == 2 | none => false)
    || (match m.eng.exec with | some r => r.plan.kind == 2 | none => false)

/-- RELEVEL_TIMEOUT (04 R114). -/
def execRelevelTimeout (s : State) : Res :=
  onWhen s s.now.relevelFailed fun m =>
    let m1 := { m with eng.relReq := false }.raise 1 0x48 3
    if m1.eng.pendRest && m1.planner then { m1.cancelPlan with eng.closing := m1.eng.mode != 0 } else m1

/-- STOP mode 1 and 2 and their fault reactions are asked of the engine by `Mach.stopReq`; STOP
replies 0x00 in every state (14 R460); before READY there is nothing to stop. STOP_IMMEDIATE
(04 R108). -/
def execStopImmediate (tag : Nat) (s : State) : Res := serve s 0x23 tag fun m => ok (m.when m.start.ready fun m => m.stopReq .immediate)

/-- STOP_EMERGENCY_RAMP (04 R108). -/
def execStopEmergencyRamp (tag : Nat) (s : State) : Res := serve s 0x23 tag fun m => ok (m.when m.start.ready fun m => m.stopReq .ramp)

end Sys2Proof.Machine
end

