-- ==== Sys2Proof/Machine/Sched.lean ====
section
/-!
DEFINITION. The stop scheduler and the spool (chapter 05): the call table, the collective selective
itinerary, commit decisions, speculation, service (17 R519 to R522), and the meanings of the call
commands and scheduler events.
-/
namespace Sys2Proof.Machine

open Sys2Proof

/-! The call table (05 R126 to R129). -/

/-- A change of premise (02 R58; 05 R144). -/
def Mach.bumpEpoch (m : Mach) : Mach := { m with sched.epoch := (m.sched.epoch + 1) % 2 ^ 32 }

/-- No landing. -/
def noLanding : Nat := 0xFFFF

/-- A record is the call of a landing, a kind and a side. -/
def CallRec.is (c : CallRec) (l k : Nat) (s : Ab) : Bool := c.landing == l && c.kind == k && c.side == s

/-- A call is registered. -/
def Mach.registered (m : Mach) (l k : Nat) (s : Ab) : Bool := m.sched.calls.any fun c => c.is l k s

/-- Sides of a mask: bit 0 side A, bit 1 side B. -/
def sidesOf (mask : Nat) : List Ab := (if bit mask 0 then [Ab.a] else []) ++ (if bit mask 1 then [Ab.b] else [])

/-- Hall call in an impossible direction (05 R127). -/
def Mach.badHall (m : Mach) (l k : Nat) : Bool := (k == 1 && l + 1 == m.nLandings) || (k == 2 && l == 0)

/-- The landing unit is ON (01 R32). -/
def Mach.landingOn (m : Mach) (l : Nat) : Bool := m.ownState (landingHandle l) == some .on

/-- The first three rows of 05 R127. -/
def Mach.callForm (m : Mach) (l k sides : Nat) : Nat :=
  if m.nLandings ≤ l then stUNIT_UNKNOWN
  else if sides == 0 || 3 < sides || 2 < k || (sides &&& m.sidesServed l) != sides then stBAD_PARAM
  else if m.badHall l k then stBAD_PARAM
  else stOK

/-- The reply to a CALL_ADD (05 R127); 0 registers what is not yet registered. -/
def Mach.callStatus (m : Mach) (l k sides : Nat) : Nat :=
  let f := m.callForm l k sides
  if f != stOK then f
  else
    let mode := m.nat pSCHED_MODE
    if mode == 0 || (k != 0 && mode == 2) || !m.sched.inService || m.inspection || m.evacuation || !m.landingOn l then stWRONG_MODE
    else if k == 0 && m.land l pCAR_CALL_EN == 0 then stDENIED
    else if k != 0 && m.land l pHALL_CALL_EN == 0 then stDENIED
    else stOK

/-- Have a change made at the next freeze (05 R129). -/
def Mach.queueCall (m : Mach) (c : CallChange) : Mach := { m with sched.changes := m.sched.changes ++ [c] }

/-- CALL_ADD (05 R127). -/
def execCallAdd (tag landing kind sides : Nat) (s : State) : Res := serve s 0x20 tag fun m =>
  let st := m.callStatus landing kind sides
  if st == stOK then ok (m.queueCall ⟨2, true, landing, kind, sides, none, false⟩) else refuse m st

/-- CALL_CANCEL (05 R128). -/
def execCallCancel (tag landing kind sides : Nat) (s : State) : Res := serve s 0x21 tag fun m =>
  let st := m.callForm landing kind sides
  if st == stOK then ok (m.queueCall ⟨2, false, landing, kind, sides, none, false⟩) else refuse m st

/-- RUN_TO (05 R130, R548). -/
def execRunTo (tag landing sides : Nat) (s : State) : Res := serve s 0x22 tag fun m =>
  if m.nat pSCHED_MODE != 0 then refuse m stWRONG_MODE
  else if m.nLandings ≤ landing then refuse m stUNIT_UNKNOWN
  else if 3 < sides || (sides &&& m.sidesServed landing) != sides then refuse m stBAD_PARAM
  else if !m.sched.inService || m.inspection || m.evacuation || !m.landingOn landing then refuse m stWRONG_MODE
  else ok { m.bumpEpoch with sched.runTo := some (landing, sides), sched.replan := true }

/-- STOP_AT_LANDING (05 R145): the exit plan is committed and SCHED_HOLD set. A learning run ends
(03 R86). -/
def execStopAtLanding (tag : Nat) (s : State) : Res := serve s 0x23 tag fun m =>
  let m1 := (m.putI 0 pSCHED_HOLD 1)
  if m1.pos.learn.active then ok m1.endLearn
  else ok { m1 with sched.exitReq := true }

/-- The side's door answers a car call of the landing the car stands at without a new stop (05 R133). -/
def Mach.answersAtOnce (m : Mach) (c : CallChange) (s : Ab) : Bool :=
  let st := (m.doors.get s).state
  c.add && c.kind == 0 && m.stationary && m.curLanding == some c.landing
    && (st == 2 || st == 3 || st == 4 || st == 5 || st == 7)

/-- Add or remove one call. A registration carries the timestamp of its freeze (05 R126). -/
def Mach.changeCall (m : Mach) (c : CallChange) (s : Ab) : Mach :=
  if c.add then
    if m.registered c.landing c.kind s then m
    else { m with
      sched.calls := m.sched.calls ++ [(⟨c.landing, c.kind, s, m.ts, c.fallback⟩ : CallRec)]
      sched.answered := m.sched.answered.filter fun a => !a.is c.landing c.kind s }
  else { m with sched.calls := m.sched.calls.filter fun a => !a.is c.landing c.kind s }

/-- Send a group result (11 R369) in the next basic cycle. -/
def Mach.groupRes (m : Mach) (result call landing ref : Nat) : Mach :=
  { m with sched.groupOut := m.sched.groupOut ++ [⟨result, call, landing, ref⟩] }

/-- CALL byte of a group message (11 R369). -/
def callByte (kind sides : Nat) : Nat := kind + 4 * sides

/-- Restart the dwell of an open side for a call answered there: the longer of the time left and the
time for that call (06 R166). -/
def Mach.dwellFor (m : Mach) (s : Ab) (hall : Bool) : Mach :=
  let d := m.doors.get s
  let n := msF (m.door s (if hall then pDWELL_HALL else pDWELL_CAR))
  match d.dwellFrom with
  | some f =>
    let left := f + d.dwellLen - m.time.frame
    if left < n then { m with doors := m.doors.set s { d with dwellFrom := some m.time.frame, dwellLen := n } } else m
  | none => m

/-- A side answers a call of the landing (05 R126: SERVING). -/
def Mach.serveSide (m : Mach) (l : Nat) (s : Ab) : Mach :=
  { m with sched.serving := if m.sched.serving.contains (l, s) then m.sched.serving else m.sched.serving ++ [(l, s)] }

/-- Apply one change at the freeze (05 R129, R133, R135). A car call for a side that is closing asks
for a reversal. -/
def Mach.applyChange (m : Mach) (c : CallChange) : Mach :=
  m.each (sidesOf c.sides) fun m s =>
    if m.answersAtOnce c s then
      let st := (m.doors.get s).state
      let m1 := { m with sched.answered := m.sched.answered ++ [(⟨c.landing, c.kind, s, m.ts, false⟩ : CallRec)] }.serveSide c.landing s
      if st == 4 || st == 7 then { m1 with sched.openReq := m1.sched.openReq.set s true } else m1.dwellFor s false
    else m.changeCall c s

/-- Whether a call keeps a landing as a stop of direction d (05 R131). -/
def stopsAt (cs : List CallRec) (l d : Nat) : Bool := cs.any fun c => c.landing == l && (c.kind == 0 || c.kind == d)

/-- Some call of a kind at a landing. -/
def callOf (cs : List CallRec) (l k : Nat) : Bool := cs.any fun c => c.landing == l && c.kind == k

/-- The other direction. -/
def revDir (d : Nat) : Nat := if d == 1 then 2 else if d == 2 then 1 else 0

/-- Landings from a reference in a direction, nearest first. -/
def landingsFrom (n ref d : Nat) (same : Bool) : List Nat :=
  if d == 1 then (List.range n).filter fun l => decide (ref < l) || (same && l == ref)
  else ((List.range n).filter fun l => decide (l < ref) || (same && l == ref)).reverse

/-- The oldest call; ties to the lower landing, then car before hall (05 R131). -/
def oldestCall : List CallRec → Option CallRec
  | [] => none
  | c :: r =>
    match oldestCall r with
    | none => some c
    | some b =>
      if b.time < c.time || (b.time == c.time && (b.landing < c.landing || (b.landing == c.landing && b.kind < c.kind))) then some b else some c

/-- next_stop of 05 R131; the fuel allows for the choice of a direction and one reversal. -/
def nextStop : Nat → List CallRec → Nat → Nat → Nat → Bool → Option (Nat × Nat)
  | 0, _, _, _, _, _ => none
  | f + 1, cs, n, ref, d, same =>
    if d == 0 then
      match oldestCall cs with
      | none => none
      | some c =>
        let d' := if ref < c.landing then 1 else if c.landing < ref then 2
          else if c.kind != 0 then c.kind
          else if cs.any fun x => decide (ref < x.landing) then 1 else 2
        nextStop f cs n ref d' same
    else
      match (landingsFrom n ref d same).find? fun l => stopsAt cs l d with
      | some l => some (l, d)
      | none =>
        match ((landingsFrom n ref d same).filter fun l => callOf cs l (revDir d)).getLast? with
        | some l => some (l, revDir d)
        | none =>
          if (landingsFrom n ref (revDir d) same).any fun l => cs.any fun c => c.landing == l
          then nextStop f cs n ref (revDir d) same else none

/-- The itinerary from a reference: at most so many stops, each answering its calls. -/
def itinerary : Nat → List CallRec → Nat → Nat → Nat → Bool → List (Nat × Nat)
  | 0, _, _, _, _, _ => []
  | k + 1, cs, n, ref, d, same =>
    match nextStop 4 cs n ref d same with
    | none => []
    | some (l, d') =>
      (l, d') :: itinerary k (cs.filter fun c => !(c.landing == l && (c.kind == 0 || c.kind == d'))) n l d' false

/-- The landing whose SILL_LEVEL is nearest FUSE_POS, the lower one on a tie. -/
def Mach.nearestLanding (m : Mach) : Nat :=
  (m.landings.foldl (fun (b : Nat × Nat) l =>
    let d := mag (m.land l pSILL_LEVEL - m.fpos)
    if d < b.2 then (l, d) else b) (0, mag (m.land 0 pSILL_LEVEL - m.fpos))).1

/-- The reference landing of a car that stands (05 R131). -/
def Mach.refLanding (m : Mach) : Nat := (m.zoneOf m.fpos).getD m.nearestLanding

/-- A landing at which no stop has yet been made. -/
def Mach.freshAt (m : Mach) (l : Nat) : Bool := m.sched.stoppedAt != l

/-- The stop after S_0, or from where the car stands, with the calls of the moment. In HOST mode it
is the landing of RUN_TO (05 R130). -/
def Mach.itineraryNow (m : Mach) : List (Nat × Nat) :=
  match m.sched.runTo with
  | some (l, _) => if m.hasPlan && m.sched.target == l then [] else [(l, if m.refLanding < l then 1 else 2)]
  | none =>
    if m.hasPlan && m.sched.target != noLanding then
      let here := m.sched.calls.filter fun c => !(c.landing == m.sched.target && (c.kind == 0 || c.kind == m.sched.stopDir))
      itinerary 8 here m.nLandings m.sched.target m.sched.stopDir false
    else itinerary 8 m.sched.calls m.nLandings m.refLanding m.sched.dir (m.freshAt m.refLanding)

/-! Commits (05 R106, R107, R138, R139). -/

/-- The switch frame of a commit decided now: the first count ≡ 1 mod 4 from two frames on (05 R138). -/
def Mach.switchFrame (m : Mach) : Nat :=
  let n := m.time.frame + 2
  n + (5 - n % 4) % 4

/-- The engine's state at that switch tick. -/
def Mach.switchState (m : Mach) : Kin := (m.engineAt (uF * m.switchFrame)).1

/-- The executing plan is one that the scheduler may replace: kind SERVICE, still moving. -/
def Mach.inService? (m : Mach) : Bool :=
  match m.eng.exec with
  | some r => r.plan.kind == 0 && !r.ended && m.eng.stop.isNone
  | none => false

/-- A plan of any kind executes, still moving. -/
def Mach.inMotion? (m : Mach) : Bool :=
  match m.eng.exec with
  | some r => !r.ended && m.eng.stop.isNone
  | none => false

/-- The executing plan is that of a HOME or learning run, still moving. -/
def Mach.inSearch? (m : Mach) : Bool :=
  match m.eng.exec with
  | some r => (r.plan.kind == 5 || r.plan.kind == 6) && !r.ended && m.eng.stop.isNone
  | none => false

/-- Direction of the executing plan: 1 up, 2 down. -/
def Mach.travelDir (m : Mach) : Nat :=
  match m.eng.exec with
  | some r => if unitOf r.s0.p ≤ r.plan.target then 1 else 2
  | none => match m.eng.pend with
    | some p => if unitOf m.eng.kin.p ≤ p.target then 1 else 2
    | none => 0

/-- The landing, if any, at whose SILL_LEVEL the pending or executing plan of a run ends: that of the scheduler's
commit, or of another plan; a correction of level is no run (DESIGN CHOICE, notes/assumptions/21.md). -/
def Mach.planLanding (m : Mach) : Option Nat :=
  if m.sched.target != noLanding then some m.sched.target
  else if !m.hasPlan then none
  else match m.eng.pend <|> m.eng.exec.map (·.plan) with
    | some p => if p.kind == 1 || p.kind == 2 then none else m.landings.find? fun l => m.land l pSILL_LEVEL == p.target
    | none => none

/-- COMMIT_TARGET (05 R149). -/
def Mach.commitTarget (m : Mach) : Nat := m.planLanding.getD noLanding

/-- Target position of the pending or executing plan. -/
def Mach.planTarget (m : Mach) : Int :=
  match m.eng.pend <|> m.eng.exec.map (·.plan) with
  | some p => p.target
  | none => m.fpos

/-- The first reachable landing (04 R107): in the direction of travel, at least the stopping distance
beyond the switch position; the landing of the plan's own target where no nearer one is reachable. -/
def Mach.exitLanding (m : Mach) : Nat :=
  let k := m.switchState
  let d := stopDistQ k (m.nat pA_MAX) (m.nat pJ_MAX)
  let up := m.travelDir == 1
  let reach (l : Nat) : Bool :=
    let x := m.land l pSILL_LEVEL * (q20 : Nat)
    if up then decide (k.p + d ≤ x) else decide (x ≤ k.p - d)
  let l := if up then m.landings else m.landings.reverse
  match l.find? reach with
  | some e =>
    let x := m.land e pSILL_LEVEL
    if (if up then decide (x < m.planTarget) else decide (m.planTarget < x)) then e else m.commitTarget
  | none => m.commitTarget

/-- Start state of a run from where the car stands: rest at SILL_LEVEL where the held position is
within 1 µm of it, so that a hop built ahead is the same plan (05 R139, R140). -/
def Mach.restStart (m : Mach) : Kin :=
  let p := m.eng.kin.p
  match m.landings.find? fun l => decide (mag (p - m.land l pSILL_LEVEL * (q20 : Nat)) ≤ q20) with
  | some l => Kin.rest (m.land l pSILL_LEVEL)
  | none => ⟨p, 0, 0⟩

/-- Count a commit and note its target (05 R138, R143, R144): a change of the committed target other
than the advance increments the epoch. -/
def Mach.noteCommit (m : Mach) (l d : Nat) (hit advance : Bool) : Mach :=
  { m with
    sched.hits := if hit then sat32 m.sched.hits else m.sched.hits
    sched.misses := if hit then m.sched.misses else sat32 m.sched.misses
    sched.epoch := if advance || m.sched.target == l then m.sched.epoch else (m.sched.epoch + 1) % 2 ^ 32
    sched.target := l
    sched.stopDir := d
    sched.decided := true
    sched.keepStop := false }

/-- A hop: from rest at SILL_LEVEL of one landing to another (05 R140). -/
def Mach.hopSegs (m : Mach) (a b : Nat) : List Seg :=
  (m.planSegs (Kin.rest (m.land a pSILL_LEVEL)) (m.land b pSILL_LEVEL) m.vRated).getD []

/-- The speed cap of a service run from a state, 0 where POS_QUALITY gives none (04 R103). -/
def Mach.runCap (m : Mach) (k : Kin) : Nat := (m.capFor 0 k false).getD 0

/-- The plan of a run from where the car stands to a landing, still without an identifier (05 R138, R139). -/
def Mach.restPlan (m : Mach) (l : Nat) : Plan :=
  let k := m.restStart
  let t := m.land l pSILL_LEVEL
  ⟨0, 0, 0, k, t, (m.planSegs k t (m.runCap k)).getD []⟩

/-- The exit plan to a landing for the next switch frame, still without an identifier (05 R140). -/
def Mach.exitCandidate (m : Mach) (l : Nat) : Plan :=
  let k := m.switchState
  let t := m.land l pSILL_LEVEL
  ⟨0, 0, m.switchFrame % 2 ^ 32, k, t, (m.planSegs k t (m.runCap k)).getD []⟩

/-- An entry's start state is the engine's held position within the tolerance of 04 R100 (05 R143). -/
def Mach.startsHere (m : Mach) (e : SpoolEntry) : Bool := decide (mag (e.plan.start.p - m.eng.kin.p) ≤ q20)

/-- An entry's segments evaluate to its target (05 R143). -/
def SpoolEntry.evaluates (e : SpoolEntry) : Bool :=
  let x := runSegs e.plan.start e.plan.segs
  decide (mag (x.p - e.plan.target * (q20 : Nat)) ≤ q20) && decide (mag x.v ≤ q20) && decide (mag x.a ≤ q20)

/-- A plan from rest is the one that frame work would build now: of the current epoch, from where the car stands, and
under the speed cap in force (05 R139, R143; the cap DESIGN CHOICE, notes/assumptions/21.md). -/
def Mach.entryHolds (m : Mach) (e : SpoolEntry) : Bool :=
  e.epoch == m.sched.epoch && m.startsHere e && e.cap == m.runCap m.restStart && e.cap != 0

/-- The candidate of slot 0 holds for a run from rest to a landing. -/
def Mach.candFor (m : Mach) (l : Nat) : Option SpoolEntry :=
  m.sched.cand.filter fun e => e.target == l && e.plan.start.v == 0 && m.entryHolds e

/-- Put a plan built as frame work into slot 0 (05 R140); without a speed cap none is built. -/
def Mach.setCand (m : Mach) (p : Plan) (l : Nat) : Mach :=
  let c := m.runCap p.start
  { m with sched.cand := if c == 0 then none else some ⟨0, m.sched.epoch, true, p, l, c⟩, sched.candHit := false }

/-- Slot 0 of a standing car for the run to a landing (05 R140, R143): kept while it holds, else the hop that
has come to slot 0 where it passes both checks, else built. An entry that fails is discarded; one that
starts here and does not evaluate to its target raises 0x4B. -/
def Mach.restSlot (m : Mach) (l : Nat) : Mach :=
  if (m.candFor l).isSome then m
  else match m.sched.spool.find? fun e => e.ready && e.slot == 0 && e.target == l with
    | none => m.setCand (m.restPlan l) l
    | some e =>
      let m1 := { m with sched.spool := m.sched.spool.filter fun x => !(x == e) }
      if m1.entryHolds e && e.evaluates then { m1.setCand e.plan l with sched.candHit := true }
      else
        let m2 := { m1 with time.specDiscards := satAdd 32 m1.time.specDiscards 1 }
        (if m2.entryHolds e then m2.raise 1 0x4B 1 else m2).setCand (m2.restPlan l) l

/-- Slot 0 of a moving car: the exit plan for the next switch frame (05 R140). -/
def Mach.exitSlot (m : Mach) : Mach :=
  let l := m.exitLanding
  if m.nLandings ≤ l then { m with sched.cand := none, sched.candHit := false }
  else if m.sched.cand.any fun e => e.epoch == m.sched.epoch && e.target == l && e.plan.switch == m.switchFrame % 2 ^ 32 then m
  else m.setCand (m.exitCandidate l) l

/-- Commit a run from rest to a landing (05 R138, R143): slot 0 where it holds for it, else built now. -/
def Mach.commitRest (m : Mach) (l d : Nat) (advance : Bool) : Mach :=
  let c := m.candFor l
  let hit := c.isSome && m.sched.candHit
  let m0 := if hit then m.endFault 1 0x4B else m
  let p := (c.map (·.plan)).getD (m0.restPlan l)
  let id := nextId m0.sched.planId
  let ld := { m0 with sched.planId := id, sched.cand := none, sched.candHit := false }.loadPlan { p with id := id } true false
  let dir := if m0.refLanding < l then 1 else 2
  if ld.2 then { ld.1.noteCommit l d hit advance with sched.dir := dir } else ld.1

/-- Segments of a replacement plan from the switch state to a landing (04 R103, R106); the exit plan of an F3
reaction under LIMITED quality never accelerates the car. -/
def Mach.movingSegs (m : Mach) (l : Nat) (f3 : Bool) : Option (List Seg) :=
  let k := m.switchState
  match m.capFor 0 k f3 with
  | none => none
  | some cap => m.planSegs k (m.land l pSILL_LEVEL) (if m.coasting 0 f3 then min cap (calmSpeed k (m.nat pJ_MAX)) else cap)

/-- Commit a replacement plan to a landing at the next switch frame (04 R106, R107); where the target
cannot be reached the executing plan continues. -/
def Mach.commitMoving (m : Mach) (l d : Nat) (f3 : Bool) : Mach :=
  match m.movingSegs l f3 with
  | none => m
  | some segs =>
    let id := nextId m.sched.planId
    let ld := { m with sched.planId := id }.loadPlan ⟨id, 0, m.switchFrame % 2 ^ 32, m.switchState, m.land l pSILL_LEVEL, segs⟩ false f3
    if ld.2 then { ld.1.noteCommit l d false false with sched.cand := none } else ld.1

/-- Commit the exit plan to a landing (04 R107; 05 R145): the stop there has no call of its own, so that it cannot lose its
last one (R136). -/
def Mach.commitExit (m : Mach) (l : Nat) (f3 : Bool) : Mach :=
  let m1 := m.commitMoving l m.travelDir f3
  { m1 with sched.parkRun := m1.sched.parkRun || (m1.sched.target == l && !(stopsAt m1.sched.calls l m1.sched.stopDir)) }

/-! Speculation (02 R58, R59; 05 R140 to R143). -/

/-- Spool depth (05 R141). -/
def Mach.spoolDepth (m : Mach) : Nat :=
  if m.power.state == 2 || m.power.state == 3 then 1
  else match m.nat pBUDGET_POLICY with
    | 0 => m.nat pSPOOL_DEPTH
    | 1 => 1
    | _ => min (m.nat pSPOOL_DEPTH) (1 + 7 * m.nat pBUDGET_MIX_SPOOL / 100)

/-- The landings between which the car will run, and the slot of the first hop (05 R140, R143): while it
moves, or a run is pending, hop 1 leaves S_0; once the stop at which it stands has been made, the run to S_1
is slot 0. -/
def Mach.line (m : Mach) : List Nat × Nat :=
  let stops := m.sched.stops.map (·.1)
  if m.hasPlan && m.sched.target != noLanding then (m.sched.target :: stops, 1)
  else if stops.head? == some m.refLanding then (stops, 1)
  else (m.refLanding :: stops, 0)

/-- The hops of the slots (05 R140): slot, start landing, target. -/
def Mach.hops (m : Mach) : List (Nat × Nat × Nat) :=
  (List.range (8 - m.line.2)).filterMap fun i => match m.line.1.drop i with
    | a :: b :: _ => some (i + m.line.2, a, b)
    | _ => none

/-- Discard the entries of an older epoch (02 R58). -/
def Mach.discardSpool (m : Mach) : Mach :=
  let old := m.sched.spool.filter fun e => e.epoch != m.sched.epoch
  { m with
    sched.spool := m.sched.spool.filter fun e => e.epoch == m.sched.epoch
    time.specDiscards := satAdd 32 m.time.specDiscards old.length }

/-- Move entries to the slots their hops have come to (05 R143); one whose hop is gone is discarded and
counted (02 R59). -/
def Mach.reslot (m : Mach) : Mach :=
  let kept := m.sched.spool.filterMap fun e =>
    ((m.hops.find? fun h => e.plan.start == Kin.rest (m.land h.2.1 pSILL_LEVEL) && e.target == h.2.2).map
      fun h => { e with slot := h.1 })
  { m with
    sched.spool := kept
    time.specDiscards := satAdd 32 m.time.specDiscards (m.sched.spool.length - kept.length) }

/-- Begin the lowest empty slot within the depth, one at a time (05 R141). -/
def Mach.specBegin (m : Mach) : Mach :=
  if m.sched.spool.any fun e => !e.ready then m
  else match m.hops.find? fun h => decide (1 ≤ h.1) && decide (h.1 < m.spoolDepth) && !(m.sched.spool.any fun e => e.slot == h.1) with
    | some (slot, a, b) =>
      let t := m.land b pSILL_LEVEL
      { m with sched.spool := m.sched.spool ++
          [⟨slot, m.sched.epoch, false, ⟨0, 0, 0, Kin.rest (m.land a pSILL_LEVEL), t, m.hopSegs a b⟩, b, m.vRated⟩] }
    | none => m

/-- Complete the slot being built, and begin the next: as often as spare time allows (05 R142). Beyond the depth that
the budget policy leaves, none is completed (02 R55; 05 R141). -/
def Mach.speculate : Nat → Mach → Mach
  | 0, m => m.specBegin
  | n + 1, m =>
    let m1 := m.specBegin
    Mach.speculate n { m1 with sched.spool := m1.sched.spool.map fun e => { e with ready := e.ready || decide (e.slot < m1.spoolDepth) } }

/-! The frame of the scheduler. -/

/-- Apply the changes of the frame before, in order (05 R129); the epoch follows the table. -/
def Mach.applyChanges (m : Mach) : Mach :=
  let l := m.sched.changes
  let order := (List.range 4).flatMap fun src => l.filter fun c => c.src == src
  let m1 := { m with sched.changes := [] }.each order fun m c => m.applyChange c
  let key (cs : List CallRec) : List CallRec := cs.map fun c => { c with time := 0, fallback := false }
  let same := (key m.sched.calls).all (key m1.sched.calls).contains && (key m1.sched.calls).all (key m.sched.calls).contains
  if same then m1 else { m1.bumpEpoch with sched.replan := true }

/-- Result of a withdrawal applied at this freeze (05 R135), before R136 is decided. -/
def withdrawResult (before after : Mach) (c : CallChange) : Nat :=
  let was := (sidesOf c.sides).any fun s => before.registered c.landing c.kind s
  let done := (sidesOf c.sides).any fun s => before.sched.answered.any fun a => a.is c.landing c.kind s
  if !was then (if done then 4 else 3)
  else if after.hasPlan && after.sched.target == c.landing && !(stopsAt after.sched.calls c.landing after.sched.stopDir)
      && after.sched.keepStop then 5 else 3

/-- Every interlock is made: car door contact and landing door interlock blocks ARMED (05 R133). -/
def Mach.interlocksMade (m : Mach) : Bool :=
  (m.blocksOf .carDoor ++ m.blocksOf .landingDoor).all fun h => (m.blockReport h).1 == 1

/-- The car stands ready for a run from rest, but for POS_QUALITY (05 R138, R148). -/
def Mach.standsReady (m : Mach) : Bool :=
  m.stationary && m.allSidesClosed && m.interlocksMade && !m.flag pSCHED_HOLD && m.planner
    && m.eng.mode == 0 && !m.hasPlan && m.eng.stop.isNone && !m.eng.relReq && m.sched.inService
    && !m.pos.learn.active && !m.pos.home.active
    && !(m.faults.any fun f => decide (3 ≤ f.cls) && !lateFault f.code)

/-- The car stands ready for a run from rest (05 R138). -/
def Mach.readyForRun (m : Mach) : Bool := m.standsReady && decide (2 ≤ m.quality)

/-- R136: the committed stop has lost its last call, and is kept. A call beyond it is a stop beyond it. -/
def Mach.keepsStop (m : Mach) : Bool :=
  let near := decide (mag (m.switchState.p - m.land m.sched.target pSILL_LEVEL * (q20 : Nat)) < m.nat pSTOP_KEEP_DIST * q20)
  near || !(m.sched.calls.any fun c =>
    if m.travelDir == 1 then decide (m.sched.target < c.landing) else decide (c.landing < m.sched.target))

/-- The committed stop has lost its last call (05 R136); one that never had a call has none to lose. -/
def Mach.stopLost (m : Mach) : Bool :=
  m.sched.runTo.isNone && !m.sched.parkRun && m.sched.target != noLanding && !(stopsAt m.sched.calls m.sched.target m.sched.stopDir)

/-- A decision on a premise change while the car moves (05 R136, R138; 04 R106, R107). -/
def Mach.replanMoving (m : Mach) : Mach :=
  let e := m.exitLanding
  let d := m.travelDir
  let want : Option (Nat × Nat) := match m.sched.runTo with
    | some (l, _) => some (l, d)
    | none => nextStop 4 m.sched.calls m.nLandings e d true
  let lost := m.stopLost
  let go (l d' : Nat) : Mach :=
    let ahead := if d == 1 then decide (e ≤ l) else decide (l ≤ e)
    if ahead then (if l == m.sched.target then { m with sched.stopDir := d', sched.parkRun := false }
      else { m.commitMoving l d' false with sched.parkRun := false })
    else if e == m.sched.target then m else m.commitExit e false
  match want with
  | some (l, d') => if lost && m.keepsStop then { m with sched.keepStop := true } else go l d'
  | none => if lost then { m with sched.keepStop := true } else m

/-- A decision on a premise change while a run waits for its start. -/
def Mach.replanWaiting (m : Mach) : Mach :=
  let want : Option (Nat × Nat) := match m.sched.runTo with
    | some (l, _) => some (l, if m.refLanding < l then 1 else 2)
    | none => nextStop 4 m.sched.calls m.nLandings m.refLanding m.sched.dir false
  let lost := m.stopLost
  match want with
  | some (l, d) =>
    if l == m.sched.target then { m with sched.stopDir := d, sched.parkRun := false }
    else if lost && m.keepsStop then { m with sched.keepStop := true }
    else { m.commitRest l d false with sched.parkRun := false }
  | none => if lost then { m with sched.keepStop := true } else m

/-- The exit plan of a run of kind HOME or LEARN (03 R86, R91; 04 R107): under an F3 reaction the run ends, else
where the plan is accepted. -/
def Mach.exitSearch (m : Mach) : Mach :=
  let e := m.exitLanding
  let m1 := if m.nLandings ≤ e || e == m.commitTarget then m else m.commitExit e m.sched.exitF3
  if m1.sched.exitF3 || m1.commitTarget == e then m1.quitLearn.endHome else m1

/-- The exit plan of STOP mode 0, of an F3 reaction or of UNIT_DISABLE (04 R107; 05 R145). An F3 reaction
increments the epoch also where the committed target stays (R151). -/
def Mach.exitPlan (m : Mach) : Mach :=
  let m1 := { m with sched.exitReq := false }
  if m1.eng.pendRest then { m1.cancelPlan.bumpEpoch with sched.target := noLanding, sched.cand := none }
  else if m1.inService? then
    let e := m1.exitLanding
    if e == m1.commitTarget || m1.nLandings ≤ e then (if m1.sched.exitF3 then m1.bumpEpoch else m1)
    else m1.commitExit e m1.sched.exitF3
  else if m1.inSearch? then m1.exitSearch
  else m1

/-- The output delivery of a frame (05 R151): an F3 reaction raised in it after its commit decision replaces that
decision by the exit plan. -/
def Mach.deliver (m : Mach) : Mach := if m.sched.decided && m.sched.exitReq && m.planner then m.exitPlan else m

/-- The sides of the landing at which the car stands that are to open for calls (05 R132). -/
def Mach.openFor (m : Mach) (l d : Nat) (s : Ab) : Bool :=
  m.sched.calls.any fun c => c.landing == l && c.side == s && (c.kind == 0 || c.kind == d)

/-- A side is opening or open (06 R162). -/
def Mach.opensOrOpen (m : Mach) (s : Ab) : Bool :=
  let st := (m.doors.get s).state
  st == 2 || st == 3 || st == 5

/-- RUN_TO at the landing where the car stands (05 R130): a side that is opening or open has been opened, and with no
side left the run is over. -/
def Mach.runToHere (m : Mach) (l : Nat) : Mach :=
  match m.sched.runTo with
  | some (x, mask) =>
    if x != l then m
    else
      let done := (sidesOf mask).filter m.opensOrOpen
      let left := done.foldl (fun k s => setBit k s.idx false) mask
      { m.each done fun m s => m.serveSide l s with sched.runTo := if left == 0 then none else some (x, left) }
  | none => m

/-- Opening requests of a car that stands at a landing (05 R131 to R133); RUN_TO names its sides. A car call for a
closed side is answered there as long as no run has started; a run that is loaded and waits for its start (04 R112)
counts as started (DESIGN CHOICE, notes/assumptions/21.md). The reversal of a closing side, asked for by a call
answered at once, stands until it has begun. -/
def Mach.openRequests (m0 : Mach) : Mach :=
  match m0.curLanding with
  | none => { m0 with sched.openReq := ⟨false, false⟩ }
  | some l =>
    if !(m0.stationary && m0.eng.mode == 0 && !m0.hasPlan) then m0
    else
      let m := m0.runToHere l
      let here := match m.sched.runTo, m.sched.stops with
        | none, (x, d) :: _ => if x == l then some d else none
        | _, _ => none
      let shuts (s : Ab) : Bool := m.sched.openReq.get s && ((m.doors.get s).state == 4 || (m.doors.get s).state == 7)
      let side (s : Ab) : Bool := m.serves l s && (shuts s ||
        match m.sched.runTo with
          | some (x, mask) => x == l && bit mask s.idx
          | none =>
            match here with
            | some d => m.openFor l d s
            | none => m.registered l 0 s || m.sched.openReq.get s && m.sched.stoppedAt == l && m.openFor l m.sched.stopDir s)
      { m with
        sched.openReq := ⟨side .a, side .b⟩
        sched.stopDir := here.getD m.sched.stopDir
        sched.dir := here.getD m.sched.dir }

/-- A side has begun opening at a landing: the calls it answers leave the table (05 R132). -/
def Mach.answerCalls (m : Mach) (l : Nat) (s : Ab) : Mach :=
  let d := m.sched.stopDir
  let here (c : CallRec) : Bool := c.landing == l && c.side == s && (c.kind == 0 || c.kind == d)
  let gone := m.sched.calls.filter here
  { m with
    sched.calls := m.sched.calls.filter fun c => !here c
    sched.answered := m.sched.answered ++ gone
    sched.openReq := m.sched.openReq.set s false
    sched.hallOpen := m.sched.hallOpen.set s (gone.any fun c => c.kind != 0)
    sched.stoppedAt := l
    sched.serving := if gone == [] && m.sched.runTo.isNone then m.sched.serving else m.sched.serving ++ [(l, s)]
    sched.runTo := (match m.sched.runTo with
      | some (x, mask) => if x == l then (if setBit mask s.idx false == 0 then none else some (x, setBit mask s.idx false)) else some (x, mask)
      | none => none) }

/-- Register car calls on every served side of a landing, by the scheduler itself (05 R145); a side that is opening, open
or closing there answers its call at once (R133). -/
def Mach.selfCalls (m : Mach) (l : Nat) : Mach :=
  let m1 := m.applyChange ⟨3, true, l, 0, m.sidesServed l, none, false⟩
  if m1.sched.calls == m.sched.calls then m1 else m1.bumpEpoch

/-- Clear the call table, and the calls accepted but not yet applied; assigned hall calls are returned to the
group controller as released (05 R134). -/
def Mach.clearCalls (m : Mach) : Mach :=
  let out := if m.nat pSCHED_MODE == 2 then m.sched.calls.filter fun c => c.kind != 0 && !c.fallback else []
  let new := if m.nat pSCHED_MODE == 2 then m.sched.changes.filter fun c => c.add && c.kind != 0 && !c.fallback else []
  let m1 := m.each out fun m c => m.groupRes 3 (callByte c.kind (1 + c.side.idx)) c.landing 0
  let m2 := m1.each new fun m c => m.groupRes 3 (callByte c.kind c.sides) c.landing 0
  { m2.bumpEpoch with sched.calls := [], sched.runTo := none, sched.changes := m2.sched.changes.filter fun c => !c.add }

/-- A change of SCHED_MODE clears the call table and increments the epoch (05 R130). `old` is the
machine before the writes of this tick. -/
def Mach.schedModeCheck (m old : Mach) : Mach :=
  if m.nat pSCHED_MODE == old.nat pSCHED_MODE then m
  else { m.bumpEpoch with
    sched.calls := []
    sched.runTo := none
    sched.changes := m.sched.changes.filter fun c => !c.add
    sched.replan := true }

/-- Service at the start of a frame (17 R519 to R522; 05 R134). -/
def Mach.serviceFrame (m : Mach) : Mach :=
  let now := m.mayServe && (m.sched.inService || m.stationary)
  let insp := m.inspection || m.evacuation
  let m1 := if (m.sched.inService && !now) || (insp && !m.sched.wasInsp) then m.clearCalls else m
  let m2 := { m1 with sched.wasService := m1.sched.inService, sched.inService := now, sched.wasInsp := insp }
  if now && !m.sched.inService && m.sched.afterF45 then { m2.selfCalls m2.nearestLanding with sched.afterF45 := false } else m2

/-- The stop of an F3 reaction or of UNIT_DISABLE is made: its calls are registered; outside every door zone there
are none, from the frame in which the car becomes stationary (05 R145). -/
def Mach.exitStop (m : Mach) : Mach :=
  let halted := m.stationary && !m.hasPlan && !m.sched.exitReq
  let stands := halted && m.eng.mode == 0 && m.eng.stop.isNone
  if m.sched.exitF3 && halted && m.curLanding.isNone then { m with sched.exitF3 := false, sched.f3Served := true }
  else if m.sched.exitF3 && stands then
    match m.curLanding with
    | some l => { m.selfCalls l with sched.exitF3 := false }
    | none => m
  else if !m.sched.exitF3 && !m.sched.f3Served && stands
      && !(m.sched.calls.any fun c => c.kind == 0 && some c.landing == m.curLanding) then { m with sched.f3Served := true }
  else m

/-- The parking run and the homing-floor return may go to a landing (01 R32). -/
def Mach.parkable (m : Mach) (l : Nat) : Bool := decide (l < m.nLandings) && m.landingOn l && m.curLanding != some l

/-- The homing-floor return (05 R147). -/
def Mach.homingReturn (m : Mach) : Mach :=
  let h := m.nat pHOME_FLOOR
  if !m.sched.homeDue || !m.sched.inService then m
  else if h == noLanding || m.sched.calls != [] || m.sched.runTo.isSome || m.curLanding == some h then { m with sched.homeDue := false }
  else if m.readyForRun && m.sched.stops == [] && m.parkable h then
    { m.commitRest h (if m.refLanding < h then 1 else 2) false with sched.homeDue := false, sched.parkRun := true }
  else m

/-- The bookkeeping of idle time and of a run that is due (05 R146, R148). A stop S_1 at the landing where the car stands
needs an opening and no run: it is not timed (DESIGN CHOICE, notes/assumptions/21.md). -/
def Mach.schedTimers (m : Mach) : Mach :=
  let idle := m.sched.inService && m.stationary && m.sched.stops == [] && m.sched.calls == [] && m.allSidesClosed
    && !m.flag pSCHED_HOLD && !m.hasPlan && m.eng.mode == 0
  let next := match m.sched.stops with
    | (l, _) :: _ => !(m.curLanding == some l && m.freshAt l)
    | [] => false
  let due := (next || m.eng.pendRest) && m.sched.inService && m.allSidesClosed && !m.flag pSCHED_HOLD && decide (2 ≤ m.quality)
    && m.eng.exec.isNone && m.eng.stop.isNone
  let low := next && m.standsReady && decide (m.quality < 2)
  { m with
    sched.idleSince := if idle then m.sched.idleSince else m.time.frame
    sched.dueSince := if due && m.sched.runDue then m.sched.dueSince else m.time.frame
    sched.runDue := due
    sched.lowSince := if low && m.sched.lowDue then m.sched.lowSince else m.time.frame
    sched.lowDue := low }.endIf 1 0x4E (decide (2 ≤ m.quality))

/-- The run that slot 0 of a standing car holds when the itinerary is empty (05 R140): the homing-floor return
where it is due, else the parking run. -/
def Mach.idleTarget (m : Mach) : Option Nat :=
  let h := m.nat pHOME_FLOOR
  let p := m.nat pPARK_LANDING
  if m.sched.homeDue && h != noLanding then (if m.parkable h then some h else none)
  else if p != noLanding && m.parkable p then some p else none

/-- Validate slot 0, and rebuild it where it is missing or invalid (05 R138, R140). -/
def Mach.slotZero (m : Mach) : Mach :=
  if m.inMotion? then m.exitSlot
  else if m.hasPlan || m.eng.stop.isSome || !m.stationary then { m with sched.cand := none, sched.candHit := false }
  else match (match m.sched.stops with
      | (l, _) :: _ => if m.curLanding == some l then none else some l
      | [] => m.idleTarget) with
    | some l => m.restSlot l
    | none => { m with sched.cand := none, sched.candHit := false }

/-- The decision of a frame (05 R138, R145, R147): the exit plan, a decision on a premise change, a run
from rest to the next stop, or the homing return. While SCHED_HOLD is 1 a premise change waits for its end. -/
def Mach.schedChoice (m : Mach) : Mach :=
  let hold := m.flag pSCHED_HOLD
  if m.sched.exitReq then m.exitPlan
  else if m.sched.replan && hold then (if m.stopLost then { m with sched.keepStop := true } else m)
  else if m.sched.replan && m.inService? then m.replanMoving
  else if m.sched.replan && m.eng.pendRest && m.sched.target != noLanding then m.replanWaiting
  else if m.readyForRun then
    match m.sched.stops with
    | (l, d) :: _ => if m.curLanding == some l then m else m.commitRest l d true
    | [] => m.homingReturn
  else m.homingReturn

/-- The direction in which the car is travelling, by its plan or in an engine stop by its velocity, or will next travel
(05 R131): SCHED_DIR. -/
def Mach.schedDir (m : Mach) : Nat :=
  if m.hasPlan then m.travelDir
  else if m.eng.stop.isSome && m.fvel != 0 && !m.stationary then (if 0 < m.fvel then 1 else 2)
  else match m.sched.stops with
    | (l, d) :: _ => if m.refLanding < l then 1 else if l < m.refLanding then 2 else d
    | [] => 0

/-- The scheduler's work of one frame (05 R129, R131, R138, R142 to R144), after service has been judged. A
committed target lost to an engine stop or a start time-out is a change of premise; one reached is not. The stop made at
a landing counts as made until every side is closed again: the rules do not say when it begins anew (DESIGN CHOICE,
notes/assumptions/21.md). -/
def Mach.schedFrame (m : Mach) (specDone : Nat) : Mach :=
  let withdraws := m.sched.changes.filter fun c => !c.add && c.ref.isSome
  let m0 := m.applyChanges.discardSpool
  let gone := !m0.hasPlan
  let m1 := if gone && m0.sched.target != noLanding && m0.eng.exec.isNone then m0.bumpEpoch else m0
  let m2 := { m1 with
    sched.target := if gone then noLanding else m1.sched.target
    sched.parkRun := m1.sched.parkRun && !gone
    sched.stoppedAt := if m1.allSidesClosed then noLanding else m1.sched.stoppedAt
    sched.dir := if gone && m1.sched.calls == [] && m1.sched.runTo.isNone then 0
      else if gone && m.sched.target != noLanding then m1.sched.stopDir else m1.sched.dir
    sched.serving := (m1.sched.serving.filter fun (x : Nat × Ab) => !(m1.sideClosed x.2)) }
  let m3 := { m2 with sched.stops := m2.itineraryNow, sched.decided := false }.reslot
  let m4 := m3.exitStop.slotZero
  let m5 := m4.schedChoice
  let m6 := { m5 with sched.replan := m5.sched.replan && m5.flag pSCHED_HOLD }
  let m7 := { m6 with sched.stops := m6.itineraryNow }
  let m8 := m7.openRequests
  let m9 := { m8 with
    sched.next := (match m8.sched.stops with | x :: _ => x.1 | [] => noLanding)
    sched.exitL := if m8.inMotion? then m8.exitLanding else noLanding }
  let m10 := m9.each withdraws fun x c => x.groupRes (withdrawResult m x c) (callByte c.kind c.sides) c.landing (c.ref.getD 0)
  Mach.speculate specDone m10.schedTimers.discardSpool.reslot

/-- The parking run is due (05 R146). -/
def Mach.parkDue (m : Mach) : Bool :=
  let p := m.nat pPARK_LANDING
  p != noLanding && m.parkable p && m.readyForRun && m.sched.stops == [] && m.sched.calls == []
    && decide (sF (m.nat pPARK_DELAY) ≤ m.since m.sched.idleSince)

/-- PARK_DELAY_EXPIRED (05 R146). -/
def execParkDelayExpired (s : State) : Res :=
  onWhen s s.now.parkDue fun m =>
    let p := m.nat pPARK_LANDING
    { m.commitRest p (if m.refLanding < p then 1 else 2) false with sched.parkRun := true }

/-- A run that is due has not started within SCHED_STALL_TIME (05 R148). -/
def Mach.stalled (m : Mach) : Bool := m.sched.runDue && m.passedMs m.sched.dueSince (m.nat pSCHED_STALL_TIME)

/-- POS_QUALITY alone has held a run up for SCHED_STALL_TIME (05 R148). -/
def Mach.heldUp (m : Mach) : Bool := m.sched.lowDue && m.passedMs m.sched.lowSince (m.nat pSCHED_STALL_TIME)

/-- SCHED_STALL (05 R148): 0x4A, or 0x4E where POS_QUALITY is the only obstacle. -/
def execSchedStall (s : State) : Res :=
  onWhen s (s.now.stalled || s.now.heldUp) fun m => if m.stalled then m.raise 1 0x4A 3 else m.raise 1 0x4E 1

/-- GROUP_LOST (05 R137). -/
def execGroupLost (s : State) : Res :=
  onWhen s (s.now.nat pSCHED_MODE == 2 && s.now.power.state != 3 && s.now.passedMs s.now.sched.hbLast (s.now.nat pGROUP_HB_TIMEOUT)) fun m => m.raise 1 0x4C 1

/-- The fallback of 05 R137 registers hall calls locally. -/
def Mach.groupFallback (m : Mach) : Bool :=
  m.nat pSCHED_MODE == 2 && m.inForce 1 0x4C && m.nat pGROUP_FALLBACK == 1

/-- CALL_STATE of a landing (05 R126). -/
def Mach.callState (m : Mach) (l : Nat) : Nat :=
  b2n (m.registered l 0 .a) + 2 * b2n (m.registered l 0 .b) + 4 * b2n (m.registered l 1 .a) + 8 * b2n (m.registered l 1 .b)
    + 16 * b2n (m.registered l 2 .a) + 32 * b2n (m.registered l 2 .b)
    + 256 * b2n (m.planLanding == some l) + 512 * b2n (m.sched.serving.any fun x => x.1 == l && m.opensOrOpen x.2)

end Sys2Proof.Machine
end

