-- ==== Sys2Proof/Machine/Door.lean ====
section
/-!
DEFINITION. The door drive engines (chapter 06): permits, position and state, commands, the door
model and learning, profiles, the energy and force bounds, obstruction, reversal and nudging, with
the meanings of their commands and events.
-/
namespace Sys2Proof.Machine

open Sys2Proof

/-! States of 06 R162. -/

def dUNREF : Nat := 0
def dCLOSED : Nat := 1
def dOPENING : Nat := 2
def dOPEN : Nat := 3
def dCLOSING : Nat := 4
def dREOPENING : Nat := 5
def dSTOPPED : Nat := 6
def dNUDGING : Nat := 7
def dLEARNING : Nat := 8

/-- Change a side. -/
def Mach.side (m : Mach) (s : Ab) (f : DoorState → DoorState) : Mach := { m with doors := m.doors.upd s f }

/-- The side closes: CLOSING or NUDGING. -/
def DoorState.closes (d : DoorState) : Bool := d.state == 4 || d.state == 7

/-- A learned attribute of the side at a landing (06 R189), by its side A ID. -/
def Mach.learnedAt (m : Mach) (s : Ab) (l id : Nat) : Nat := (m.land l (learnedId s id)).toNat

/-- The landing a side's attributes are taken from: the current one. Without one the spec names only the mass of
the energy bound (06 R174); the rest are those of landing 0 (DESIGN CHOICE, notes/assumptions/52.md). -/
def Mach.doorLanding (m : Mach) : Nat := m.curLanding.getD 0

/-- DOOR_WIDTH at the landing. -/
def Mach.doorWidth (m : Mach) (s : Ab) : Nat := m.learnedAt s m.doorLanding pDOOR_WIDTH

/-- Where the side's opening ends: DOOR_WIDTH, at an unlearned landing the end that stroke 1 found; 0 while
neither is known (06 R169, R173). -/
def Mach.openEnd (m : Mach) (s : Ab) : Nat :=
  if m.doorWidth s == 0 then (m.doors.get s).endX else m.doorWidth s

/-- DOOR_MASS for the energy bound in 0.1 kg: of the current landing, else the largest (06 R174). -/
def Mach.boundMass (m : Mach) (s : Ab) : Nat :=
  match m.curLanding with
  | some l => m.learnedAt s l pDOOR_MASS
  | none => (m.landings.filter fun l => m.serves l s).foldl (fun x l => max x (m.learnedAt s l pDOOR_MASS)) 0

/-- E_lim in mJ (06 R174). -/
def Mach.eLim (m : Mach) (s : Ab) : Nat := if (m.doors.get s).state == 7 then m.door s pNUDGE_ENERGY else m.door s pE_MAX

/-- m_b in 0.001 kg: DOOR_MASS × (100 + MASS_MARGIN) (06 R174). -/
def Mach.massB (m : Mach) (s : Ab) : Nat := m.boundMass s * (100 + m.door s pMASS_MARGIN)

/-- v_lim in whole µm/s (06 R174). -/
def Mach.vLim (m : Mach) (s : Ab) : Nat := if m.massB s == 0 then 0 else isqrt (m.eLim s * 2000000000000 / m.massB s)

/-- Twice the kinetic energy, as mass × v², compared with E_lim exactly (06 R175). -/
def Mach.keExceeds (m : Mach) (s : Ab) (v : Int) : Bool := decide (m.eLim s * 2000000000000 < m.massB s * (v.natAbs * v.natAbs))

/-- DOOR_KE in mJ (06 R175). -/
def Mach.keOf (m : Mach) (s : Ab) (v : Int) : Nat :=
  if v < 0 then min 65535 (halfAway (m.massB s * (v.natAbs * v.natAbs) : Nat) 2000000000000).toNat else 0

/-- A closer map at a position, linear between its 16 points (06 R168). -/
def closerAt (map : List Int) (w : Nat) (x : Int) : Int :=
  if w == 0 then nth map 0 0
  else
    let p := (clamp 0 w x).toNat * 15
    let k := min 14 (p / w)
    let a := nth map k 0
    let b := nth map (k + 1) 0
    a + halfAway ((b - a) * (p - k * w : Nat)) w

/-- Friction in 0.1 N of a Coulomb and a viscous coefficient: below 5 mm/s the sign of v counts as 0 (06 R168). -/
def frictionAt (c b : Int) (v : Int) : Int :=
  (if mag v < 5000 then 0 else if v < 0 then -c else c) + halfAway (b * v) 1000000

/-- F_c at a position in 0.1 N (06 R168). -/
def Mach.closerForce (m : Mach) (s : Ab) (x : Int) : Int :=
  closerAt (m.valAt (landingHandle m.doorLanding) (learnedId s pDOOR_CLOSER_MAP)) (m.doorWidth s) x

/-- F_fr at a speed in 0.1 N (06 R168). -/
def Mach.friction (m : Mach) (s : Ab) (v : Int) : Int :=
  frictionAt (m.learnedAt s m.doorLanding pDOOR_FRIC_C) (m.learnedAt s m.doorLanding pDOOR_FRIC_V) v

/-- Motor thrust of a current in 0.1 N (06 R168). -/
def Mach.thrustOf (m : Mach) (s : Ab) (iq : Int) : Int := halfAway (m.door s pDOOR_KF * iq) 10000

/-- The residual in 0.1 N (06 R178), with no friction at all below 5 mm/s. -/
def Mach.residualOf (m : Mach) (s : Ab) (x v a f : Int) : Int :=
  halfAway (m.learnedAt s m.doorLanding pDOOR_MASS * a) 1000000
    - (f - m.closerForce s x - (if mag v < 5000 then 0 else m.friction s v))

/-- The acceleration in µm/s² that the door model gives (06 R168). -/
def Mach.modelAcc (m : Mach) (s : Ab) (x v f : Int) : Int :=
  halfAway ((f - m.closerForce s x - m.friction s v) * 1000000) (m.learnedAt s m.doorLanding pDOOR_MASS)

/-! The bridge (06 R153, R187). -/

/-- A PWM period in DRV cycles of 6.25 ns: 8, 16 or 32 kHz (06 R153). -/
def Mach.pwmPeriod (m : Mach) (s : Ab) : Nat := 20000 / 2 ^ m.door s pDOOR_PWM_FREQ

/-- DOOR_DEADTIME in whole DRV cycles, rounded up (06 R153). -/
def Mach.deadCycles (m : Mach) (s : Ab) : Nat := (m.door s pDOOR_DEADTIME * 4 + 24) / 25

/-- A gate output of a phase with duty d, at cycle t of a centre-aligned period of p cycles: each output rises a
dead time after the other has fallen, also where that lies in the next period (06 R153). -/
def gateAt (p dead d : Nat) (high : Bool) (t : Nat) : Bool :=
  if d == 0 then !high
  else if p ≤ d then high
  else if high then decide ((p - d) / 2 + dead ≤ t) && decide (t < (p - d) / 2 + d)
  else
    let since := (t + p - ((p - d) / 2 + d)) % p
    decide (dead ≤ since) && decide (since < p - d)

/-- Cycles of a period for which that output is high. -/
def gateTime (p dead d : Nat) (high : Bool) : Nat :=
  if d == 0 then (if high then 0 else p)
  else if p ≤ d then (if high then p else 0)
  else if high then d - dead
  else p - d - dead

/-- A gate output of a side at a DRV cycle since the tick: low with the bridge off (06 R153). -/
def Mach.gate (m : Mach) (s : Ab) (d : Nat) (high : Bool) (t : Nat) : Bool :=
  (m.doors.get s).gates && gateAt (m.pwmPeriod s) (m.deadCycles s) d high (t % m.pwmPeriod s)

/-- The on-times the six gate outputs of a side have at the duties of the last update (06 R187). -/
def Mach.gateTimes (m : Mach) (s : Ab) : List Nat :=
  let d := m.doors.get s
  let one (x : Nat) (high : Bool) : Nat := if d.gates then gateTime (m.pwmPeriod s) (m.deadCycles s) x high else 0
  [one d.duty.a true, one d.duty.a false, one d.duty.b true, one d.duty.b false, one d.duty.c true, one d.duty.c false]

/-- A current in LSB reaches one in mA: the full scale of 2048 LSB is 1.65 V × DOOR_I_SCALE (06 R154, R155). -/
def Mach.reaches (m : Mach) (s : Ab) (lsb : Int) (ma : Nat) : Bool :=
  decide (ma * 204800 ≤ mag lsb * (m.door s pDOOR_I_SCALE * 165))

/-- A sample of the inputs reaches DOOR_I_TRIP in a phase, its offsets removed and V derived (06 R154, R155). -/
def Mach.currentTrips (m : Mach) (s : Ab) (c : Int × Int) : Bool :=
  let d := m.doors.get s
  let u := c.1 - d.offU
  let w := c.2 - d.offW
  let trip := m.door s pDOOR_I_TRIP
  m.reaches s u trip || m.reaches s w trip || m.reaches s (-(u + w)) trip

/-- The pair of a block stands at its normal levels at the last freeze; a wire break reads as safe
(07 R199). -/
def Mach.pairNormal (m : Mach) (h : Nat) : Bool :=
  let a := m.battr h pFB_CH_A
  let b := m.battr h pFB_CH_B
  let lv (c : Nat) : Bool := decide (c < 64) && bit m.link.frIn c
  let wb (c : Nat) : Bool := decide (c < 64) && bit m.field.wire c
  lv a && !wb a && !wb b && (if m.battr h pFB_POLARITY == 1 then !lv b else lv b)

/-- The car door contact of a side reads closed; a side no enabled block covers has none (06 R161). -/
def Mach.contactClosed (m : Mach) (s : Ab) : Bool :=
  let h := 0x0710 + s.idx
  !m.blockOn h || m.pairNormal h

/-! Beginning motions. -/

/-- Gates off (06 R154). -/
def DoorState.gatesOff (d : DoorState) (f : Nat) : DoorState :=
  { d with gates := false, gatesOffSince := if d.gates then f else d.gatesOffSince, refV := 0, refA := 0, cmd := 0, keBrake := false }

/-- Post a DOOR event (14 R467). -/
def Mach.doorEvent (m : Mach) (s : Ab) (detail : Nat) : Mach :=
  m.post 4 detail (sideHandle s) m.curLandingN (toU 32 (m.doors.get s).x)

/-- End a learning cycle with 0x59; nothing is stored (06 R169). -/
def Mach.learnFail (m : Mach) (s : Ab) : Mach :=
  let d := m.doors.get s
  let m1 := (m.side s fun d => { d with learnTag := none, learnStroke := 0 }).raise (sideHandle s) 0x59 1
  match d.learnTag with
  | some t => if t < 256 then m1.completed 0x34 t stUNIT_FAULT (sideHandle s) 0 else m1
  | none => m1

/-- The greatest thrust of the current limit: DOOR_I_PEAK, or DOOR_I_CONT while the thermal model limits it, and never
above DOOR_I_PEAK (06 R176, R187). -/
def Mach.thrustMax (m : Mach) (s : Ab) : Int :=
  let peak := m.door s pDOOR_I_PEAK
  m.thrustOf s (if (m.doors.get s).i2tLimit then min peak (m.door s pDOOR_I_CONT) else peak : Nat)

/-- The deceleration of a reversal in µm/s²: REOPEN_DEC, or what the motor can give (06 R180). -/
def Mach.revDec (m : Mach) (s : Ab) : Nat :=
  let l := m.doorLanding
  let f := m.thrustMax s - m.closerForce s (m.doors.get s).x + m.learnedAt s l pDOOR_FRIC_C
  min (m.door s pREOPEN_DEC) (f.toNat * 1000000 / m.learnedAt s l pDOOR_MASS)

/-- Begin a reversal (06 R180): from the next update the reference decelerates the door; it ends ballast hold (R160), and
the application processor plans again once it has taken the door event. A deferred close stays (R181). A closing stroke
that ends so is judged for 0x55 (R175). -/
def Mach.reverse (m : Mach) (s : Ab) (hold : Bool) : Mach :=
  let d := m.doors.get s
  let m1 := if d.state == 8 then m.learnFail s else m
  let m2 := if d.closes && d.keStrokeOk then m1.endFault (sideHandle s) 0x55 else m1
  m2.side s fun d => { d with
    state := 5, reversing := true, holdAfter := hold, refX := d.x, refV := d.v, refA := m.revDec s, refK := d.upd, held := false
    sp := none, engEvt := true, keBrake := false, nudgeDue := false
    strokeClean := false, stroke := some m.time.frame, maskSince := none, obstRun := 0, stallRun := 0, dwellFrom := none }

/-- A detected obstruction (06 R179, R180, R182); one that ends nudging bars it for a time (R184). -/
def Mach.obstruct (m : Mach) (s : Ab) : Mach :=
  let was := (m.doors.get s).state
  let m1 := (m.doorEvent s 1).reverse s false
  let m2 := m1.side s fun d => { d with
    obstCount := sat32 d.obstCount, obstConsec := min 255 (d.obstConsec + 1)
    nudgeAgain := if was == 7 then some m.time.frame else d.nudgeAgain }
  if m2.door s pOBST_REPEAT_MAX ≤ (m2.doors.get s).obstConsec then
    (m2.side s fun d => { d with forceNudge := true }).raise (sideHandle s) 0x58 1
  else m2

/-- Nudging that an obstruction has ended waits for a further NUDGE_HOLD (06 R184). -/
def Mach.nudgeBarred (m : Mach) (s : Ab) : Bool :=
  match (m.doors.get s).nudgeAgain with
  | some f => decide (m.since f < sF (m.door s pNUDGE_HOLD))
  | none => false

/-- Begin closing (06 R173), as nudging where R182 asks for it, and then not before nudging may start again (R184); a
close waits while re-levelling is in progress (04 R114). -/
def Mach.startClose (m : Mach) (s : Ab) (nudge : Bool) : Mach :=
  let d := m.doors.get s
  let mode := m.door s pNUDGE_MODE
  if m.relevels then { m with eng.relClose := m.eng.relClose.set s true }
  else if d.forceNudge && mode == 0 then m.side s fun d => { d with dwellFrom := none, holdFrom := none, deferred := false }
  else if (nudge || d.forceNudge) && m.nudgeBarred s then m.side s fun d => { d with dwellFrom := none, holdFrom := none, deferred := true }
  else m.side s fun d => { d with
    state := if nudge || (d.forceNudge && mode != 0) then 7 else 4
    stroke := some m.time.frame, keStrokeOk := true, strokeClean := true, resSum := 0, resN := 0,
    dwellFrom := none, holdFrom := none, deferred := false, nudgeDue := false, refX := d.x, refV := d.v, maskSince := none, obstRun := 0
    nudgeOver := d.reopenReq }

/-- Begin a learning cycle (06 R169, R171). -/
def Mach.startLearn (m : Mach) (s : Ab) (tag : Nat) : Mach :=
  m.side s fun d => { d with
    state := 8, learnTag := some tag, learnStroke := 1, learnLand := m.doorLanding, refX := d.x, refV := 0,
    stallRun := 0, slowRun := 0, stroke := none, openedHere := true, endX := 0, openThrust := [], speedUp := true }

/-- A side that would open at a landing it has not learned, with AUTO_LEARN 0, raises 0x5A (06 R171, R191). -/
def Mach.notLearned (m : Mach) (s : Ab) : Mach :=
  let l := m.doorLanding
  (m.side s fun d => { d with unlearned := if d.unlearned.contains l then d.unlearned else d.unlearned ++ [l] }).raise (sideHandle s) 0x5A 1

/-- The side rests, closed or between its ends, at a landing where DOOR_LEARNED is 0: it opens there only as
AUTO_LEARN says (06 R171). -/
def Mach.unlearnedRest (m : Mach) (s : Ab) : Bool :=
  let d := m.doors.get s
  (d.state == 1 || d.state == 6) && m.learnedAt s m.doorLanding pDOOR_LEARNED == 0

/-- The dwell of an opening in ms (06 R166): DWELL_HALL where it answered a hall call. -/
def Mach.dwellMs (m : Mach) (s : Ab) : Nat := m.door s (if m.sched.hallOpen.get s then pDWELL_HALL else pDWELL_CAR)

/-- Begin or continue opening by a command or for a call (06 R164, R171). A hold goes on (R167). -/
def Mach.startOpen (m : Mach) (s : Ab) : Mach :=
  let d := m.doors.get s
  if d.state == 5 || d.state == 2 then m
  else if d.closes then m.reverse s false
  else if d.state == 3 then m.side s fun d => { d with
    dwellFrom := if d.holdFrom.isSome then none else some m.time.frame
    dwellLen := msF (m.dwellMs s) }
  else if d.state == 8 then m.reverse s false
  else if !d.openPermit then m
  else if m.unlearnedRest s then (if m.door s pAUTO_LEARN == 1 then m.startLearn s 256 else m.notLearned s)
  else m.side s fun d => { d with
    state := 2, stroke := some m.time.frame, refX := d.x, refV := d.v, dwellFrom := none, stallRun := 0 }

/-- DOOR_OPEN and DOOR_HOLD cancel a deferred close (06 R181), and the nudging that would carry it out. -/
def Mach.dropDeferred (m : Mach) (s : Ab) : Mach := m.side s fun d => { d with deferred := false, nudgeDue := false }

/-- The side has begun opening in this frame at a landing: it answers the calls there (05 R132) and
the levelling error is filed when it is the first side (13 R422). -/
def Mach.openingBegun (m : Mach) (s : Ab) (was : Nat) : Mach :=
  let d := m.doors.get s
  if (d.state == 2 && was != 2) || (d.state == 8 && was != 8) then
    match m.curLanding with
    | some l =>
      let m1 := if m.sched.openReq.get s || m.openFor l m.sched.stopDir s then m.answerCalls l s
        else { m with sched.hallOpen := m.sched.hallOpen.set s false, sched.stoppedAt := l }
      let m2 := if m1.rcd.lastOpening then m1 else { (m1.hist 2 1 2 m1.levelError) with rcd.lastOpening := true }
      { m2 with rcd.doorT0 := m2.rcd.doorT0.set s (if d.state == 2 then some m2.time.frame else none) }
    | none => m
  else m

/-- One command taking effect in the engine (06 R164, R185): 1 open, 2 close, 3 hold, 4 nudge, 5
learn. A close ends a hold also where it is deferred (R167); nudging leaves a reversal in progress to its end. -/
def Mach.doorCommand (m : Mach) (s : Ab) (c : Nat) : Mach :=
  let d := m.doors.get s
  match c with
  | 1 => (m.dropDeferred s).startOpen s
  | 2 =>
    if d.state == 0 then m
    else if d.state == 5 || d.reopenReq then m.side s fun d => { d with deferred := true, holdFrom := none, holdAfter := false }
    else if d.state == 2 || d.state == 3 || d.state == 6 then m.startClose s false
    else m
  | 3 =>
    let m1 := m.dropDeferred s
    if d.state == 5 || d.state == 2 then m1.side s fun d => { d with holdAfter := true }
    else if d.closes then m1.reverse s true
    else if d.state == 3 || d.state == 6 then m1.side s fun d => { d with holdFrom := some m.time.frame, dwellFrom := none }
    else m
  | 4 =>
    if d.state == 5 then m.side s fun d => { d with nudgeDue := d.deferred }
    else if d.state == 3 || d.deferred then m.startClose s true else m
  | _ => m

/-! The commands of the host and of the panel (06 R164). -/

/-- Conditions of R184 for nudging. -/
def Mach.nudgeOk (m : Mach) (s : Ab) : Bool :=
  let d := m.doors.get s
  let mode := m.door s pNUDGE_MODE
  let ended := match d.dwellFrom with
    | some f => decide (f + d.dwellLen ≤ m.time.frame)
    | none => d.holdFrom.isNone
  let held := match d.dpdSince with
    | some f => decide (sF (m.door s pNUDGE_HOLD) ≤ m.since f)
    | none => false
  (mode == 1 || mode == 2) && ((d.state == 3 && ended) || d.deferred)
    && (held || decide (m.door s pOBST_REPEAT_MAX ≤ d.obstConsec)) && !m.nudgeBarred s

/-- Conditions of R169 for a learning cycle. -/
def Mach.learnOk (m : Mach) (s : Ab) : Bool :=
  let d := m.doors.get s
  d.state == 1 && m.stationary && m.brakeClosed && m.curLanding.isSome && d.openPermit
    && !(m.sched.serving.any fun x => x.2 == s)

/-- The status of a door command for a side (06 R164): the first row that applies. -/
def Mach.doorStatus (m : Mach) (s : Ab) (c : Nat) : Nat :=
  let d := m.doors.get s
  let here := m.curLanding
  if here.isNone && c != 2 then stWRONG_MODE
  else if here.isNone && !m.servedAnywhere s then stBAD_PARAM
  else if (match here with | some l => !m.serves l s | none => false) then stBAD_PARAM
  else if m.ownState (sideHandle s) == some .fault then stUNIT_FAULT
  else if m.ownState (sideHandle s) != some .on then stWRONG_MODE
  else if d.state == 8 && c != 1 then stWRONG_MODE
  else if d.state == 8 then stOK
  else if c != 2 && d.state == 0 then stWRONG_MODE
  else match c with
    | 1 =>
      if d.state == 5 then stOK
      else if !d.openPermit then stWRONG_MODE
      else if d.closes then stOK
      else if m.unlearnedRest s && m.door s pAUTO_LEARN == 0 then stWRONG_MODE
      else stOK
    | 2 => if d.state != 0 && (d.state == 5 || d.reopenReq) then stPENDING else stOK
    | 3 => if d.state == 1 then stWRONG_MODE else stOK
    | 4 => if m.nudgeOk s then stOK else stWRONG_MODE
    | _ => if m.learnOk s then stPENDING else stWRONG_MODE

/-- Accept a command for a side: it takes effect at the next tick. A learning cycle begins with its
tag; DOOR_OPEN of an unlearned side without AUTO_LEARN raises 0x5A (06 R171). -/
def Mach.doorAccept (m : Mach) (s : Ab) (c tag : Nat) : Mach :=
  let st := m.doorStatus s c
  let d := m.doors.get s
  if st == stOK || st == stPENDING then
    if c == 5 then m.side s fun d => { d with cmds := d.cmds ++ [16 + tag] } else m.side s fun d => { d with cmds := d.cmds ++ [c] }
  else if c == 1 && st == stWRONG_MODE && m.ownState (sideHandle s) == some .on && m.unlearnedRest s && d.openPermit
      && m.curLanding.isSome then m.notLearned s
  else m

/-- Answer a door command (06 R164; 14 R460): the overall status and the statuses of the sides. -/
def Mach.doorCmd (m : Mach) (c tag sides : Nat) : Mach × Nat × List Nat :=
  if sides == 0 || 3 < sides then refuse m stBAD_PARAM
  else
    let l := sidesOf sides
    let sts := l.map fun s => m.doorStatus s c
    let bad := sts.find? fun x => x != stOK && x != stPENDING
    let all := match bad with
      | some x => x
      | none => if sts.contains stPENDING then stPENDING else stOK
    let m1 := m.each l fun m s => m.doorAccept s c tag
    (m1, all, [if bit sides 0 then m.doorStatus .a c else 0xFF, if bit sides 1 then m.doorStatus .b c else 0xFF])

/-- DOOR_OPEN (06 R164). -/
def execDoorOpen (tag sides : Nat) (s : State) : Res := serve s 0x30 tag fun m => m.doorCmd 1 tag sides

/-- DOOR_CLOSE (06 R164). -/
def execDoorClose (tag sides : Nat) (s : State) : Res := serve s 0x31 tag fun m => m.doorCmd 2 tag sides

/-- DOOR_HOLD (06 R164). -/
def execDoorHold (tag sides : Nat) (s : State) : Res := serve s 0x32 tag fun m => m.doorCmd 3 tag sides

/-- DOOR_NUDGE (06 R164, R184). -/
def execDoorNudge (tag sides : Nat) (s : State) : Res := serve s 0x33 tag fun m => m.doorCmd 4 tag sides

/-- DOOR_LEARN (06 R164, R169). -/
def execDoorLearn (tag sides : Nat) (s : State) : Res := serve s 0x34 tag fun m => m.doorCmd 5 tag sides

/-! The current loop (06 R157, R158, R174 to R187). -/

/-- The Hall sequence: successor of each state. Which way round counts as positive the spec does not say; the model counts
1, 3, 2, 6, 4, 5 so, and 0, 2, 3, 1 of the tracks (DESIGN CHOICE, notes/assumptions/52.md). -/
def hallNext (h : Nat) : Nat :=
  match h with
  | 1 => 3 | 3 => 2 | 2 => 6 | 6 => 4 | 4 => 5 | 5 => 1 | _ => 0

/-- The quadrature sequence: successor of each state of the tracks. -/
def quadNext (q : Nat) : Nat :=
  match q with
  | 0 => 2 | 2 => 3 | 3 => 1 | _ => 0

/-- The motor feedback as it is read: the last valid state, samples in a row at 0b000 or 0b111, counts and
transitions, and whether the sequence was violated (06 R157). -/
structure MotorRead where
  last : Option Nat
  bad : Nat
  count : Int
  moved : Bool
  viol : Bool

/-- One state of the feedback (06 R157): a valid transition is one count, its sign the direction in the
sequence. -/
def MotorRead.next (hall : Bool) (b : MotorRead) (x : Nat) : MotorRead :=
  let step (n : Nat) : Nat := if hall then hallNext n else quadNext n
  if hall && (x % 8 == 0 || x % 8 == 7) then { b with bad := b.bad + 1, viol := b.viol || 1 ≤ b.bad }
  else
    let e := { b with last := some x, bad := 0 }
    match b.last with
    | none => e
    | some l =>
      if l == x then e
      else if step l == x then { e with count := b.count + 1, moved := true }
      else if step x == l then { e with count := b.count - 1, moved := true }
      else { e with viol := true }

/-- What the feedback of an update says (06 R157): without its DFB_5V the Hall inputs read 0b000, and QUAD fails (18 R536). -/
def Mach.feedback (m : Mach) (s : Ab) (i : DoorIn) : MotorRead :=
  let d := m.doors.get s
  let fed := m.supplied (1 + s.idx)
  (if fed then i.fb else i.fb.map fun _ => 0).foldl (MotorRead.next (m.door s pDOOR_FB_TYPE == 0))
    ⟨d.hall, d.hallBad, 0, false, m.door s pDOOR_FB_TYPE == 1 && (i.fast || !fed)⟩

/-- Counts of a motor revolution (06 R157): 6 × DOOR_POLE_PAIRS Hall transitions; under QUAD 4 × DOOR_POLE_PAIRS, where the
spec gives four counts a line and no lines a revolution (DESIGN CHOICE, notes/assumptions/52.md). -/
def Mach.revCounts (m : Mach) (s : Ab) : Nat := (if m.door s pDOOR_FB_TYPE == 0 then 6 else 4) * m.door s pDOOR_POLE_PAIRS

/-- The I²t limit in mA² × update: (I_PEAK² − I_CONT²) × 10 s (06 R187). -/
def Mach.i2tFull (m : Mach) (s : Ab) : Nat :=
  (m.door s pDOOR_I_PEAK * m.door s pDOOR_I_PEAK - m.door s pDOOR_I_CONT * m.door s pDOOR_I_CONT) * 160000

/-- A learning stroke's speed in µm/s (06 R169). -/
def Mach.strokeSpeed (m : Mach) (s : Ab) (n : Nat) : Nat :=
  if n ≤ 2 then 50000 else if n ≤ 4 then 100000
  else if m.door s pE_MAX == 10000 then 150000
  else isqrt (m.door s pE_MAX * 2000000000 / 880)

/-! The thrust demanded of the current loop (06 R163, R169, R173, R176). -/

/-- The opening thrust measured at a position in the preceding opening stroke, to the centimetre (06 R169). -/
def DoorState.openThrustAt (d : DoorState) (x : Int) : Int :=
  match d.openThrust.find? fun (c : Nat × Int) => c.1 == (x / 10000).toNat with
  | some c => c.2
  | none => 0

/-- The side opens towards an end not known yet, which it finds by stall (06 R169). -/
def Mach.seeksEnd (m : Mach) (s : Ab) : Bool :=
  let d := m.doors.get s
  (d.state == 2 || d.state == 5) && m.openEnd s == 0

/-- The clamp of the opening thrust: F_MAX in a learning stroke (06 R169). -/
def Mach.openClamp (m : Mach) (s : Ab) : Int :=
  if (m.doors.get s).state == 8 || m.seeksEnd s then min (m.thrustMax s) (m.door s pF_MAX * 10 : Nat) else m.thrustMax s

/-- What holds the door towards closed beside the motor: the closer map; in a learning stroke the thrust measured
in opening (06 R169); 50 N for the referencing stroke of an unlearned landing (R163). -/
def Mach.closerShare (m : Mach) (s : Ab) (x : Int) : Int :=
  let d := m.doors.get s
  if d.state == 8 then d.openThrustAt x
  else if d.state == 0 && (m.curLanding.isNone || m.learnedAt s m.doorLanding pDOOR_LEARNED == 0) then 500
  else m.closerForce s x

/-- The clamp of the closing thrust: F_MAX − F_c(x), and never above the current limit (06 R176). -/
def Mach.closeClamp (m : Mach) (s : Ab) (x : Int) : Int :=
  max 0 (min (m.thrustMax s) ((m.door s pF_MAX * 10 : Nat) - m.closerShare s x))

/-- A thrust within both clamps (06 R176). -/
def Mach.clampThrust (m : Mach) (s : Ab) (x f : Int) : Int := clamp (-(m.closeClamp s x)) (m.openClamp s) f

/-- The reference so many updates after it was set (06 R158): position and velocity; one that brakes a reversal does not
pass through zero (R180). -/
def DoorState.refAfter (d : DoorState) (k : Int) : Int × Int :=
  let v := d.refV + halfAway (d.refA * k) 16000
  (d.refX + halfAway (d.refV * k * 32000 + d.refA * k * k) 512000000, if d.reversing then min 0 v else v)

/-- The reference at the update in progress, interpolated between the ticks, with a closing speed clamped to v_lim but
for a door that is braked from above it (06 R158, R174, R175). -/
def Mach.refNow (m : Mach) (s : Ab) : Int × Int :=
  let d := m.doors.get s
  let r := d.refAfter ((d.upd - 1 - d.refK : Nat) : Int)
  (r.1, if d.reversing || d.keBrake then r.2 else max r.2 (-(m.vLim s : Int)))

/-- The speed and position loop runs at the first update of a frame (06 R158): it takes position and velocity, and the
setpoint is interpolated for the updates that follow. -/
def Mach.runLoop (m : Mach) (s : Ab) : Mach :=
  if (m.doors.get s).upd == 1 then
    { m with free := m.free + 1 }.side s fun d => { d with loopN := m.free, loopX := d.x, loopV := d.v }
  else m

/-- The thrust demanded in an update before its clamps (06 R160, R173, R175, R180): none in OPEN and STOPPED and
at rest after ballast hold, 20 N towards closed in CLOSED, an opening one where the door is braked, whatever its state,
else what the loop's law asks for, which the spec leaves open. -/
def Mach.thrustWish (m : Mach) (s : Ab) : Int :=
  let d := m.doors.get s
  let r := m.refNow s
  let f := Config.doorLoop d.loopN (r.1 - d.loopX) (r.2 - d.loopV)
  if !d.gates then 0
  else if (d.state == 5 && d.reversing) || d.keBrake then max 0 f
  else if d.state == 3 || d.state == 6 then 0
  else if d.state == 1 then -200
  else if d.ballastStop && d.state != 5 && d.refV == 0 then 0
  else f

/-- The thrust demanded and the PWM duties of an update (06 R158, R176); in ballast hold those of the last one
stay (R160). -/
def Mach.drivePwm (m : Mach) (s : Ab) : Mach :=
  let d := m.doors.get s
  let f := m.clampThrust s d.x (m.thrustWish s)
  let duty (k : Nat) : Nat := min (m.pwmPeriod s) (Config.doorPwm (m.free + k) f d.rotor)
  { m with free := m.free + 3 }.side s fun d =>
    if d.held then d else { d with cmd := f, duty := ⟨duty 0, duty 1, duty 2⟩ }

/-! The learning strokes in an update (06 R169). -/

/-- The measured thrust stands at its clamp. -/
def Mach.atClamp (m : Mach) (s : Ab) (opens : Bool) : Bool :=
  let d := m.doors.get s
  if opens then decide (m.openClamp s ≤ d.thrust) else decide (m.closeClamp s d.x ≤ -d.thrust)

/-- A stroke that looks for an end stop at a speed: updates below 10 % of it with the thrust at its clamp. -/
def Mach.stallNow (m : Mach) (s : Ab) (opens : Bool) (sp : Nat) : Nat :=
  let d := m.doors.get s
  if decide (10 * mag d.v < sp) && m.atClamp s opens then d.stallRun + 1 else 0

/-- The next learning stroke begins at rest; stroke 1 found the open end. -/
def DoorState.nextStroke (d : DoorState) : DoorState :=
  { d with
    learnStroke := d.learnStroke + 1, stallRun := 0, slowRun := 0, refV := 0, refX := d.x, speedUp := true
    endX := if d.learnStroke == 1 then d.x.toNat else d.endX
    openThrust := if d.learnStroke % 2 == 0 then [] else d.openThrust }

/-- The learning cycle in an update: thrusts measured in opening, end stops found by stall, closing strokes that
slow down, and a reopen demand, which ends the cycle (06 R169). -/
def Mach.learnUpdate (m : Mach) (s : Ab) : Mach :=
  let d := m.doors.get s
  if d.state != 8 || d.learnStroke == 0 || 6 < d.learnStroke then m
  else
    let sp := m.strokeSpeed s d.learnStroke
    let opens := d.learnStroke % 2 == 1
    let stall := m.stallNow s opens sp
    let slow := if !opens && decide (2 * mag d.v < sp) && decide ((m.door s pOBST_MASK : Int) < d.x) then d.slowRun + 1 else 0
    let cm := (d.x / 10000).toNat
    let m1 := m.side s fun d => { d with
      stallRun := stall, slowRun := slow
      openThrust := if opens then (cm, d.thrust) :: d.openThrust.filter (fun (c : Nat × Int) => c.1 != cm) else d.openThrust }
    if d.reopenReq || (128 ≤ slow && d.refA == 0) then m1.reverse s false
    else if 800 ≤ stall || (!opens && 4 ≤ d.closedRun) then m1.side s DoorState.nextStroke
    else m1

/-- An opening towards an end not known yet finds it by stall (06 R169, R180). -/
def Mach.seekUpdate (m : Mach) (s : Ab) : Mach :=
  if m.seeksEnd s && !(m.doors.get s).reversing then
    let stall := m.stallNow s true (m.strokeSpeed s 1)
    m.side s fun d => { d with stallRun := stall, endX := if 800 ≤ stall then d.x.toNat else 0 }
  else m

/-! One update (06 R155 to R158, R174 to R183, R187). -/

/-- The observer (06 R157): the door model carries the velocity on, and the travel counted beyond it corrects it
by a gain that the spec leaves open. Answers the velocity in nm/s and the acceleration. -/
def Mach.observe (m : Mach) (s : Ab) (moved f : Int) : Int × Int :=
  let d := m.doors.get s
  let a := m.modelAcc s d.x d.v f + Config.doorObserver m.free (moved - halfAway d.vFine 16000)
  (d.vFine + halfAway a 16, a)

/-- What an update measures: position, velocity and acceleration, thrust, residual, energy, bus voltage and the
thermal model, with the runs the monitors count. -/
def Mach.doorSense (m : Mach) (s : Ab) (i : DoorIn) : Mach :=
  let d0 := m.doors.get s
  let fb := m.feedback s i
  let moved := (if m.door s pDOOR_DIR == 1 then -fb.count else fb.count) * m.door s pDOOR_NM_PER_COUNT
  let nm := d0.x * 1000 + d0.xFrac + moved
  let x := nm / 1000
  let f := if d0.gates then m.thrustOf s i.iq else 0
  let o := m.observe s moved f
  let v := halfAway o.1 1000
  let r := m.residualOf s x v o.2 f
  let excess := v < 0 && m.keExceeds s v
  let masked := decide (x ≤ (m.door s pOBST_MASK : Int))
  let icont := m.door s pDOOR_I_CONT
  let i2 := ((d0.i2t : Int) + (i.iq * i.iq - (icont * icont : Nat))).toNat
  let lim := m.i2tFull s
  let forced := d0.state == 5 && decide (20000 ≤ mag d0.refV) && (decide (0 < f) == decide (0 < d0.refV))
    && decide (m.door s pDOOR_KF * icont ≤ 2 * (m.door s pDOOR_KF * mag i.iq))
  let steady := d0.closes && d0.refA == 0 && d0.refV != 0
  { m with free := m.free + 1 }.side s fun d => { d with
    x := x, xFrac := (nm % 1000).toNat, vFine := o.1, v := v, aObs := o.2, thrust := f, residual := r
    rotor := ((d.rotor + fb.count) % (m.revCounts s : Int)).toNat
    udc := (halfAway (i.udc.1 + i.udc.2 : Nat) 2).toNat
    ke := m.keOf s v, vLim := m.vLim s
    keRun := if excess then d.keRun + 1 else 0
    keRaised := d.keRaised && excess
    keStrokeOk := d.keStrokeOk && !excess
    obstRun := if d0.closes && !masked && decide ((m.door s pOBST_FORCE * 10 : Int) ≤ r) then d.obstRun + 1 else 0
    maskSince := if d.closes && masked then (if d.maskSince.isSome then d.maskSince else some m.time.frame) else none
    hall := fb.last, hallBad := fb.bad
    noCount := if forced && !fb.moved then d.noCount + 1 else 0
    fbGood := if fb.viol then 0 else d.fbGood
    i2t := min i2 lim
    i2tLimit := if lim ≤ i2 then true else d.i2tLimit && decide (4 * lim ≤ 5 * i2)
    strokeClean := d.strokeClean && !d.reopenReq
    resSum := if steady then d.resSum + r else d.resSum
    resN := if steady then d.resN + 1 else d.resN
    upd := d.upd + 1
    reversing := d.reversing && v < 0
    refX := if d.reversing && 0 ≤ v then x else d.refX
    refV := if d.reversing && 0 ≤ v then v else d.refV
    refA := if d.reversing && 0 ≤ v then (if d.openPermit then (m.door s pOPEN_ACC : Int) else 0) else d.refA
    refK := if d.reversing && 0 ≤ v then d.upd else d.refK
    warn := (400 ≤ i.udc.1 + i.udc.2 && i.udc.1 + i.udc.2 < 480) || (1200 < i.udc.1 + i.udc.2 && i.udc.1 + i.udc.2 ≤ 1320) }

/-- The converter's samples at full scale in a row (06 R157): two of them count as a trip. -/
def fullRun (n : Nat) (l : List (Int × Int)) : Nat × Bool :=
  l.foldl (fun (x : Nat × Bool) c =>
    let k := if 2047 ≤ mag c.1 || 2047 ≤ mag c.2 then x.1 + 1 else 0
    (k, x.2 || decide (2 ≤ k))) (n, false)

/-- Raise a fault of the bridge with all gates low (06 R154). -/
def Mach.bridgeOff (m : Mach) (s : Ab) (code cls : Nat) : Mach :=
  (m.side s fun d => d.gatesOff m.time.frame).raise (sideHandle s) code cls

/-- The bridge's own conditions in an update (06 R154, R187, R191): phase currents, bus voltage, and the gate
outputs read back against the duties before this update. -/
def Mach.bridgeUpdate (m : Mach) (s : Ab) (i : DoorIn) : Mach :=
  let full := fullRun (m.doors.get s).adcFull i.cur
  let u := i.udc.1 + i.udc.2
  let m1 := m.side s fun d => { d with adcFull := full.1 }
  let m2 := if i.gateOn == m.gateTimes s then m1 else m1.bridgeOff s 0x5F 5
  let m3 := if full.2 || i.cur.any (m.currentTrips s) then m2.bridgeOff s 0x50 3 else m2
  if u < 400 then m3.bridgeOff s 0x51 3 else if 1320 < u then m3.bridgeOff s 0x52 3 else m3

/-- The other monitors of an update (06 R157, R187): feedback, thermal model and uncommanded opening. -/
def Mach.doorMonitors (m : Mach) (s : Ab) (viol : Bool) : Mach :=
  let h := sideHandle s
  let d := m.doors.get s
  let m1 := if viol || 3200 ≤ d.noCount then m.raise h 0x54 3 else m
  let m2 := if m.i2tFull s ≤ d.i2t && m.i2tFull s != 0 then m1.raise h 0x56 1 else if d.i2tLimit then m1 else m1.endFault h 0x56
  if d.state == 1 && decide ((m.door s pCLOSED_TOL : Int) + 10000 < d.x) then m2.raise h 0x5D 3 else m2

/-- A reopen demand reverses a closing or nudging side (06 R183); the one a nudge began under is the one that the
protective device function withholds while the side nudges (R184; 07 R211). -/
def Mach.reopenNow (m : Mach) (s : Ab) : Bool :=
  let d := m.doors.get s
  d.reopenReq && (d.state == 4 || (d.state == 7 && !d.nudgeOver))

/-- DOOR_CURRENT_LOOP_UPDATE (06 R155 to R158, R174 to R183, R187): the samples and the bridge's conditions, the
monitors, the learning strokes, thrust and duties; a reopen demand reverses the door from the next update (R180). -/
def Mach.loopUpdate (m : Mach) (s : Ab) (i : DoorIn) : Mach :=
  let viol := (m.feedback s i).viol
  let m1 := ((m.bridgeUpdate s i).doorSense s i).doorMonitors s viol
  let m2 := (((m1.learnUpdate s).seekUpdate s).runLoop s).drivePwm s
  if m1.reopenNow s then (m2.doorEvent s 2).reverse s false else m2

/-- DOOR_CURRENT_LOOP_UPDATE (06 R158). -/
def execDoorCurrentLoopUpdate (side : Ab) (inp : DoorIn) (s : State) : Res := on s fun m => m.loopUpdate side inp

/-- A condition of 06 R154 that holds, with the fault it raises: the withdrawal of the run permit raises none. -/
def Mach.tripOf (m : Mach) (s : Ab) : TripCause → Option (Option (Nat × Nat))
  | .current u w => if m.currentTrips s (u, w) then some (some (0x50, 3)) else none
  | .bus v => if v < 200 then some (some (0x51, 3)) else if 660 < v then some (some (0x52, 3)) else none
  | .permit => if (m.doors.get s).runPermit then none else some none
  | .integrity => some (some (0x5F, 5))

/-- BRIDGE_TRIP (06 R154, R191): all gates low. -/
def execBridgeTrip (side : Ab) (cause : TripCause) (s : State) : Res :=
  onWhen s (s.now.tripOf side cause).isSome fun m =>
    let m1 := m.side side fun d => { d.gatesOff m.time.frame with permitOff := d.permitOff || (cause == .permit && d.gates) }
    match m.tripOf side cause with
    | some (some f) => m1.raise (sideHandle side) f.1 f.2
    | _ => m1

/-- KE_BOUND_EXCEEDED (06 R175): counted and raised once per excess; in the final approach the door
reverses, elsewhere it is braked to v_lim at REOPEN_DEC. Both end ballast hold (R160). -/
def execKeBoundExceeded (side : Ab) (s : State) : Res :=
  let d := s.now.doors.get side
  onWhen s (decide (16 ≤ d.keRun) && !d.keRaised) fun m =>
    let m1 := ((m.side side fun d => { d with keCount := sat32 d.keCount, keRaised := true }).doorEvent side 3).raise (sideHandle side) 0x55 2
    if d.x ≤ (m.door side pOBST_MASK : Int) then m1.reverse side false
    else m1.side side fun d => { d with keBrake := true, held := false, refV := d.v, refX := d.x }

/-- OBSTRUCTION_DETECTED (06 R179): OBST_TIME of 16 updates per ms. -/
def execObstructionDetected (side : Ab) (s : State) : Res :=
  let d := s.now.doors.get side
  onWhen s (d.closes && decide (16 * s.now.door side pOBST_TIME ≤ d.obstRun)) fun m => m.obstruct side

/-- FINAL_APPROACH_TIMEOUT (06 R178): 1000 ms in the masked zone. -/
def execFinalApproachTimeout (side : Ab) (s : State) : Res :=
  let d := s.now.doors.get side
  onWhen s (d.closes && (match d.maskSince with | some f => s.now.passedMs f 1000 | none => false)) fun m => m.obstruct side

/-- The stroke in progress has lasted DOOR_TIME_LIMIT. -/
def Mach.strokeLate (m : Mach) (s : Ab) : Bool :=
  match (m.doors.get s).stroke with
  | some f => m.passedMs f (m.door s pDOOR_TIME_LIMIT)
  | none => false

/-- The referencing stroke has lasted DOOR_TIME_LIMIT. -/
def Mach.refLate (m : Mach) (s : Ab) : Bool :=
  match (m.doors.get s).refFrom with
  | some f => m.passedMs f (m.door s pDOOR_TIME_LIMIT)
  | none => false

/-- DOOR_TIME_LIMIT (06 R163, R179, R182): a closing stroke counts as obstructed, an opening stroke
ends in STOPPED with 0x57, a referencing stroke raises 0x5C. -/
def execDoorTimeLimit (side : Ab) (s : State) : Res :=
  let d := s.now.doors.get side
  onWhen s ((s.now.strokeLate side && (d.closes || d.state == 2 || d.state == 5)) || (s.now.refLate side && d.state == 0)) fun m =>
    if d.closes then m.obstruct side
    else if d.state == 0 then (m.side side fun d => { d with refFrom := none }).raise (sideHandle side) 0x5C 3
    else (m.side side fun d => { d with state := 6, stroke := none, refV := 0, reversing := false }).raise (sideHandle side) 0x57 2

/-! Dwell, hold and nudging (06 R166, R167, R184). -/

/-- The side's own state is ON. -/
def Mach.sideOn (m : Mach) (s : Ab) : Bool := m.ownState (sideHandle s) == some .on

/-- The dwell of an open side has elapsed. -/
def Mach.dwellOver (m : Mach) (s : Ab) : Bool :=
  let d := m.doors.get s
  match d.dwellFrom with
  | some f => d.state == 3 && d.holdFrom.isNone && !d.reopenReq && decide (f + d.dwellLen ≤ m.time.frame) && m.sideOn s
  | none => false

/-- DWELL_END (06 R166): the side closes. -/
def execDwellEnd (side : Ab) (s : State) : Res := onWhen s (s.now.dwellOver side) fun m => m.startClose side false

/-- A hold has lasted HOLD_MAX (06 R167). -/
def Mach.holdOver (m : Mach) (s : Ab) : Bool :=
  match (m.doors.get s).holdFrom with
  | some f => decide (sF (m.door s pHOLD_MAX) ≤ m.since f) && m.sideOn s
  | none => false

/-- HOLD_TIMEOUT (06 R167): 0x5B, and the side closes; a reopen demand in force defers that (R181, R183). -/
def execHoldTimeout (side : Ab) (s : State) : Res :=
  onWhen s (s.now.holdOver side) fun m =>
    let m1 := m.raise (sideHandle side) 0x5B 1
    if (m.doors.get side).reopenReq then m1.side side fun d => { d with holdFrom := none, deferred := true }
    else m1.startClose side false

/-- NUDGE_AUTO_START (06 R184, R185): with NUDGE_MODE 2, once a reversal in progress has reached OPEN. -/
def execNudgeAutoStart (side : Ab) (s : State) : Res :=
  onWhen s (s.now.nudgeOk side && (s.now.doors.get side).state == 3 && s.now.door side pNUDGE_MODE == 2 && s.now.sideOn side) fun m =>
    m.startClose side true

/-- DOOR_BALLAST_TIMEOUT (06 R160): after two frames without a setpoint the door is brought to rest. -/
def execDoorBallastTimeout (side : Ab) (s : State) : Res :=
  onWhen s (decide (2 ≤ (s.now.doors.get side).spMiss)) fun m => m.side side fun d => { d with ballastStop := true }

/-- The side has stopped (06 R186): its gates go off and it enters OFF, at rest where it stands; a learning cycle
that it cuts short fails (R169). -/
def Mach.doorOff (m : Mach) (s : Ab) : Mach :=
  let m1 := if (m.doors.get s).state == 8 then m.learnFail s else m
  m1.side s fun d => { d.gatesOff m.time.frame with
    own := .off, stopPend := false, dwellFrom := none, holdFrom := none, stroke := none
    state := if d.state == 2 || d.state == 8 || d.closes then 6 else d.state }

/-- DOOR_STOPPING_COMPLETE (06 R186; 01 R33): at rest and no reversal in progress, the gates go off
and the side enters OFF. -/
def execDoorStoppingComplete (side : Ab) (s : State) : Res :=
  let d := s.now.doors.get side
  onWhen s (d.own == .stopping && d.refV == 0 && d.v == 0 && d.state != 5 && !d.reversing) fun m => m.doorOff side

/-- CURRENT_OFFSET_CHECK (06 R155, R163, R191): with the gates off for 10 ms; ±3 % of full scale is
±61 LSB of ±2048. -/
def execCurrentOffsetCheck (side : Ab) (u : Int) (w : Int) (s : State) : Res :=
  let d := s.now.doors.get side
  onWhen s (!d.gates && s.now.passedMs d.gatesOffSince 10) fun m =>
    if mag u * 100 ≤ 3 * 2048 && mag w * 100 ≤ 3 * 2048 then
      (m.side side fun d => { d with offU := u, offW := w, offOk := true }).endFault (sideHandle side) 0x53
    else (m.side side fun d => { d with offOk := false }).raise (sideHandle side) 0x53 3

/-- DOOR_RECHECK (15 R484): each CLOSED side applies its closing hold for 100 ms; the clock of the
re-checks starts again. -/
def execDoorRecheck (s : State) : Res :=
  onWhen s (s.now.nat pDOOR_RECHECK_PERIOD != 0 && decide (sF (s.now.nat pDOOR_RECHECK_PERIOD) ≤ s.now.since s.now.power.recheckAt)) fun m =>
    { m with
      power.recheckAt := m.time.frame
      doors := m.doors.map fun _ d => if d.state == 1 then { d with recheck := true } else d }

/-! The results of a learning cycle (06 R170). -/

/-- Mean of half the differences of two thrust curves, as a sum over 32. -/
def halfDiff (a b : List Int) : Int := sumI ((a.zip b).map fun (x, y) => x - y)

/-- The viscous friction of a learning cycle, from the differences at the two speeds: sums of 16, that is
32 times the mean half difference in 0.1 N (06 R170). -/
def learnFricV (i : DoorLearnIn) : Int :=
  halfAway ((halfDiff i.open10 i.close10 - halfDiff i.open05 i.close05) * 20) 32

/-- The Coulomb friction (06 R170). -/
def learnFricC (i : DoorLearnIn) : Int := halfAway (halfDiff i.open05 i.close05) 32 - halfAway ((learnFricV i) * 5) 100

/-- The closer force at its 16 points (06 R170). -/
def learnCloser (i : DoorLearnIn) : List Int := (i.open05.zip i.close05).map fun (x, y) => halfAway (x + y) 2

/-- The width, the mean of the two strokes (06 R170). -/
def learnWidth (i : DoorLearnIn) : Int := halfAway (i.width1 + i.width2 : Nat) 2

/-- The mean of the masses in 0.1 kg that the readings of a phase give with the cycle's closer map and friction
(06 R170). -/
def phaseMass (i : DoorLearnIn) (l : List MassSample) : Int :=
  let good := l.filter fun q => q.a != 0
  let one (q : MassSample) : Int :=
    let f := q.f - closerAt (learnCloser i) (learnWidth i).toNat q.x - frictionAt (learnFricC i) (learnFricV i) q.v
    halfAway (f * (if q.a < 0 then -1000000000 else 1000000000)) (mag q.a)
  if good == [] then 0 else halfAway (sumI (good.map one)) (good.length * 1000)

/-- The equivalent mass: the mean over the acceleration phases (06 R170). -/
def learnMass (i : DoorLearnIn) : Int := phaseMass i i.acc

/-- The figures of a learning cycle pass every check (06 R170). -/
def Mach.learnFigures (m : Mach) (s : Ab) (i : DoorLearnIn) : Bool :=
  i.open05.length == 16 && i.close05.length == 16 && i.open10.length == 16 && i.close10.length == 16
    && decide (mag ((i.width1 : Int) - i.width2) ≤ 5000) && decide (200000 ≤ (learnWidth i)) && decide ((learnWidth i) ≤ 3000000)
    && decide (200 ≤ (learnMass i)) && decide ((learnMass i) ≤ 8000)
    && decide (((10 * mag (learnMass i - phaseMass i i.dec) : Nat) : Int) ≤ max (learnMass i) (phaseMass i i.dec))
    && decide (0 ≤ (learnFricC i)) && decide ((learnFricC i) ≤ 1000) && decide (0 ≤ (learnFricV i)) && decide ((learnFricV i) ≤ 5000)
    && (learnCloser i).all (fun (x : Int) => decide (0 ≤ x) && decide (x ≤ ((m.door s pF_MAX * 8 : Nat) : Int)))
    && decide (mag i.residual ≤ 100)

/-- The model of a side is stored at the landing where it was learned (06 R170). -/
def Mach.storeModel (m : Mach) (s : Ab) (i : DoorLearnIn) : Mach :=
  let l := landingHandle (m.doors.get s).learnLand
  let w (m : Mach) (id : Nat) (v : List Int) : Mach := m.put l (learnedId s id) v
  let m1 := w (w (w (w m pDOOR_LEARNED [1]) pDOOR_MASS [learnMass i]) pDOOR_FRIC_C [learnFricC i]) pDOOR_FRIC_V [learnFricV i]
  w (w (w (w m1 pDOOR_WIDTH [learnWidth i]) pDOOR_CLOSER_MAP (learnCloser i)) pDOOR_LEARN_TIME [(m.wall : Int)]) pDOOR_FRIC_C_LEARNED [learnFricC i]

/-- A learning cycle that gave a model is over: the side is CLOSED at x = 0. -/
def Mach.learnDone (m : Mach) (s : Ab) : Mach :=
  let h := sideHandle s
  let tag := (m.doors.get s).learnTag.getD 256
  let left := (m.doors.get s).unlearned.filter fun l => l != (m.doors.get s).learnLand
  let m1 := m.side s fun d => { d with
    state := 1, learnTag := none, learnStroke := 0, x := 0, xFrac := 0, refX := 0, refV := 0, closedRun := 4, drift := [], openedHere := false
    unlearned := left }
  let m2 := ((m1.endFault h 0x59).endIf h 0x5A (left == [])).endFault h 0x5E
  if tag < 256 then m2.completed 0x34 tag stOK h 0 else m2

/-- DOOR_LEARN_COMPLETE after stroke 6 (06 R170): the model is stored, or 0x59 raised. -/
def execDoorLearnComplete (side : Ab) (inp : DoorLearnIn) (s : State) : Res :=
  onWhen s ((s.now.doors.get side).state == 8 && (s.now.doors.get side).learnStroke == 7) fun m =>
    if m.learnFigures side inp then (m.storeModel side inp).learnDone side
    else (m.side side fun d => { d with state := 1, x := 0, xFrac := 0, refX := 0, refV := 0, closedRun := 4 }).learnFail side

/-! One frame of a door engine. -/

/-- One frame of a reference (06 R173): towards an end at a distance r, with a greatest speed, an
acceleration, and creep before the end. Answers the new speed in the direction of motion. -/
def refSpeed (v : Int) (r : Int) (vmax acc creep creepDist : Nat) : Int :=
  let far := if r ≤ creepDist then creep else isqrt (creep * creep + 2 * acc * (r - creepDist).toNat)
  let want : Int := min vmax far
  let dv : Int := (acc / 4000 : Nat)
  if v + dv < want then v + dv else if want < v - dv then v - dv else want

/-- Bring a reference speed to rest at a deceleration, one frame. -/
def refRest (v : Int) (dec : Nat) : Int :=
  let dv : Int := (dec / 4000 : Nat)
  if dv < v then v - dv else if v < -dv then v + dv else 0

/-- Set a reference speed and move the reference by one frame; a closing one is clamped to v_lim (06 R174). -/
def DoorState.refTo (d : DoorState) (lim : Nat) (v : Int) : DoorState :=
  let w := max v (-(lim : Int))
  { d with refX := d.refX + halfAway w 4000, refA := (w - d.refV) * 4000, refV := w }

/-- One frame of an opening: creep before the end, or the speed of stroke 1 towards an end not known (06 R173). -/
def Mach.openStep (m : Mach) (s : Ab) : DoorState :=
  let d := m.doors.get s
  let p (id : Nat) : Nat := m.door s id
  let w : Int := m.openEnd s
  if d.refV < 0 then d.refTo (m.vLim s) (refRest d.refV (p pREOPEN_DEC))
  else if w == 0 then d.refTo (m.vLim s) (refSpeed d.refV 1000000 (m.strokeSpeed s 1) (p pOPEN_ACC) 0 0)
  else
    let e := d.refTo (m.vLim s) (refSpeed d.refV (w - d.refX) (p pOPEN_SPEED) (p pOPEN_ACC) (p pCREEP_SPEED) (p pCREEP_DIST))
    if w ≤ e.refX then { e with refX := w, refV := 0, refA := 0 } else e

/-- One frame of a closing or a nudging, under v_lim (06 R173, R174). -/
def Mach.closeStep (m : Mach) (s : Ab) : DoorState :=
  let d := m.doors.get s
  let p (id : Nat) : Nat := m.door s id
  if 0 < d.refV then d.refTo (m.vLim s) (refRest d.refV (p pREOPEN_DEC))
  else
    let vmax := min (p pCLOSE_SPEED) (m.vLim s)
    let e := d.refTo (m.vLim s) (-(refSpeed (-d.refV) d.refX vmax (p pCLOSE_ACC) (p pCREEP_SPEED) (p pCREEP_DIST)))
    if e.refX ≤ 0 then { e with refX := 0, refV := 0, refA := 0 } else e

/-- One frame of a learning stroke; stroke 5 speeds up and brakes by turns (06 R169). Its 0.5 m/s² serves the other
strokes too, for which the spec gives no acceleration (DESIGN CHOICE, notes/assumptions/52.md). -/
def Mach.learnStep (m : Mach) (s : Ab) : DoorState :=
  let d := m.doors.get s
  let sp := m.strokeSpeed s d.learnStroke
  if d.learnStroke == 0 || 6 < d.learnStroke then d.refTo (m.vLim s) (refRest d.refV (m.door s pREOPEN_DEC))
  else if d.learnStroke == 5 then
    let e := d.refTo (m.vLim s) (if d.speedUp then min (sp : Int) (d.refV + 125) else max 0 (d.refV - 125))
    { e with speedUp := if d.speedUp then decide (e.refV < sp) else e.refV == 0 }
  else if d.learnStroke % 2 == 1 then d.refTo (m.vLim s) (refSpeed d.refV 1000000 sp 500000 0 0)
  else d.refTo (m.vLim s) (-(refSpeed (-d.refV) 1000000 sp 500000 0 0))

/-- One frame of the profile of the side's state (06 R163, R165, R169, R173). -/
def Mach.doorStep (m : Mach) (s : Ab) : DoorState :=
  let d := m.doors.get s
  let rest := d.refTo (m.vLim s) (refRest d.refV (m.door s pREOPEN_DEC))
  if d.state == 2 || d.state == 5 then (if d.openPermit then m.openStep s else rest)
  else if d.closes then m.closeStep s
  else if d.state == 0 then (if d.refFrom.isSome then d.refTo (m.vLim s) (-(m.door s pCREEP_SPEED : Int)) else d)
  else if d.state == 8 then m.learnStep s
  else { d with refV := 0, refA := 0 }

/-- The DOOR_STATE a side is driving towards (06 R158). -/
def DoorState.towards (d : DoorState) : Nat :=
  if d.state == 2 || d.state == 5 then 3 else if d.closes || d.state == 0 then 1 else d.state

/-- The setpoint for the next tick, planned by the application processor from the engine's state (06 R158). -/
def Mach.doorSetpoint (m : Mach) (s : Ab) : DoorSp :=
  let e := m.doorStep s
  ⟨e.refX, e.refV, e.refA, (m.doors.get s).towards, m.eLim s⟩

/-- The engine follows the setpoint that was handed over for this tick where it drives towards what the engine
does under the same energy bound, and opens only under OPEN_PERMIT; otherwise the profile itself, until one does
(06 R158, R165, R180). -/
def Mach.followSp (m : Mach) (s : Ab) : DoorState :=
  let d := m.doors.get s
  let e := m.doorStep s
  match d.sp with
  | some p =>
    if p.state == d.towards && p.eLim == m.eLim s && !d.engEvt && (d.openPermit || p.state != 3) then
      { e with refX := p.pos, refV := max p.vel (-(m.vLim s : Int)), refA := p.acc }
    else e
  | none => e

/-- The setpoint of this tick, missing where none was handed over or the memory ECC found it bad: ballast hold for two
frames, which a reversal, a KE action and the withdrawal of OPEN_PERMIT end, and then rest (06 R157, R160; 01 R18). The
reference of a reversal has come as far as the updates of the frame before took it. -/
def Mach.takeSp (m : Mach) (s : Ab) : Mach :=
  m.side s fun d =>
    let sp := if m.time.doorEcc.get s == .double then none else d.sp
    { d with
      sp := sp, upd := 0
      refX := if d.reversing then (d.refAfter (4 - d.refK : Nat)).1 else d.refX
      refV := if d.reversing then (d.refAfter (4 - d.refK : Nat)).2 else d.refV
      refK := 0
      spMiss := if sp.isSome then 0 else d.spMiss + 1
      ballastStop := sp.isNone && (d.ballastStop || decide (2 ≤ d.spMiss))
      held := sp.isNone && m.power.state < 2 && d.state != 5 && !d.keBrake && !d.engEvt && decide (d.spMiss < 2)
        && (d.state != 2 || d.openPermit) }

/-- The setpoint for the next tick is handed over, unless ballast hold is in force or no processor holds the tether
(06 R158, R160); the door event has been taken by then (R180). -/
def Mach.giveSp (m : Mach) (s : Ab) : Mach :=
  let p := m.doorSetpoint s
  m.side s fun d => { d with sp := if m.planner then some p else none, engEvt := d.engEvt && !m.planner }

/-- Braking after a KE excess, one frame: to v_lim at REOPEN_DEC (06 R175). -/
def Mach.keBrakeStep (m : Mach) (s : Ab) : DoorState :=
  let d := m.doors.get s
  let v := refRest d.refV (m.door s pREOPEN_DEC)
  if v ≤ -(m.vLim s : Int) then { d with refX := d.refX + halfAway v 4000, refA := (v - d.refV) * 4000, refV := v }
  else { d.refTo (m.vLim s) (-(m.vLim s : Int)) with keBrake := false }

/-- The reference of a side for one frame, by the order of 06 R185: gates off; a reversal that brakes, and the
braking of a KE excess; ballast hold; stopping; the profile (06 R160, R165, R180, R186). -/
def Mach.doorProfile (m : Mach) (s : Ab) : Mach :=
  let d := m.doors.get s
  let lim := m.vLim s
  let rest := d.refTo lim (refRest d.refV (m.door s pREOPEN_DEC))
  if !d.gates then m.side s fun d => { d with refX := d.x, refV := 0, refA := 0 }
  else if d.state == 5 && d.reversing then m.side s fun d => { d with refA := m.revDec s }
  else if d.keBrake then m.side s fun _ => m.keBrakeStep s
  else if d.ballastStop && d.state != 5 then m.side s fun _ => rest
  else if d.held then m
  else if d.own == .stopping && d.state != 5 then m.side s fun _ => rest
  else
    let e := m.followSp s
    let ends := (d.state == 2 || d.state == 5) && !d.openPermit && e.refV == 0
    m.side s fun _ => if ends then { e with state := 6, stroke := none } else e

/-- Adapt DOOR_FRIC_C after a clean closing stroke (06 R172). -/
def Mach.adaptFriction (m : Mach) (s : Ab) : Mach :=
  let d := m.doors.get s
  let l := m.doorLanding
  if !d.strokeClean || d.resN == 0 || m.learnedAt s l pDOOR_LEARNED == 0 then m
  else
    let mean := halfAway d.resSum d.resN
    let base : Int := m.learnedAt s l pDOOR_FRIC_C_LEARNED
    let lo := halfAway (base * 7) 10
    let hi := halfAway (base * 13) 10
    let x := (m.learnedAt s l pDOOR_FRIC_C : Int) + halfAway mean 16
    let y := clamp lo hi x
    let drift := (mag mean :: d.drift).take 8
    let m1 := (m.put (landingHandle l) (learnedId s pDOOR_FRIC_C) [y]).side s fun d => { d with drift := drift }
    if x ≤ lo || hi ≤ x || (drift.length == 8 && 8 * 150 < sumN drift) then m1.raise (sideHandle s) 0x5E 1 else m1

/-- File a door time (13 R422): type 0 opening, 1 closing. -/
def Mach.doorTime (m : Mach) (s : Ab) (type : Nat) : Mach :=
  match m.rcd.doorT0.get s with
  | some f =>
    let ms := halfAway (m.since f : Nat) 4
    let m1 := (m.hist 1 (2 * type + s.idx) type ms).extreme 1 (2 * (2 * m.doorLanding + s.idx) + type) ms
    { m1 with rcd.doorT0 := m1.rcd.doorT0.set s none }
  | none => m

/-- The side becomes CLOSED (06 R161, R172, R175, R180, R182, R191). -/
def Mach.becomeClosed (m : Mach) (s : Ab) : Mach :=
  let h := sideHandle s
  let d := m.doors.get s
  let l := m.doorLanding
  let m1 := if d.closes then (m.adaptFriction s).doorTime s 1 else m
  let m2 := if d.closes && d.keStrokeOk then m1.endFault h 0x55 else m1
  let m3 := if d.openedHere && m2.curLanding.isSome then
      m2.put (landingHandle l) (learnedId s pDOOR_CYCLES) [(sat32 (m2.learnedAt s l pDOOR_CYCLES) : Nat)] else m2
  let m4 := (((m3.endFault h 0x58).endFault h 0x5B).endIf h 0x5C (d.state == 0)).side s fun d => { d with
    state := 1, obstConsec := 0, forceNudge := false, stroke := none, openedHere := false, refFrom := none, keBrake := false
    closedRun := 4, refX := 0, refV := 0, refA := 0, dwellFrom := none, holdFrom := none, nudgeAgain := none, deferred := false }
  if m4.allSidesClosed && m4.rcd.lastOpening then { (m4.hist 2 2 2 m4.levelError) with rcd.lastOpening := false } else m4

/-- The side reaches OPEN (06 R166, R180, R181, R191). -/
def Mach.becomeOpen (m : Mach) (s : Ab) : Mach :=
  let d := m.doors.get s
  let again := d.state == 5
  let len := if again then m.door s pDWELL_REOPEN else m.dwellMs s
  let m1 := (if again then m else m.doorTime s 0).endFault (sideHandle s) 0x57
  let m2 := m1.side s fun d => { d with
    state := 3, stroke := none, reversing := false, openedHere := true, holdAfter := false
    holdFrom := if d.holdAfter then some m.time.frame else d.holdFrom
    dwellFrom := if d.holdAfter || d.holdFrom.isSome then none else some m.time.frame
    dwellLen := msF len, refX := m.openEnd s, refV := 0, refA := 0 }
  if d.own != .on then m2
  else if d.nudgeDue then m2.startClose s true
  else if d.deferred && !d.reopenReq then m2.startClose s false else m2

/-- A fault that keeps the side from running: 0x5C leaves it free to reference again (06 R163, R191). -/
def Mach.sideFaulted (m : Mach) (s : Ab) : Bool :=
  (m.stateFaults (sideHandle s)).any fun f => f.code != 0x5C || ((m.doors.get s).own != .starting && (m.doors.get s).refFrom.isNone)

/-- The feedback reads a valid state (06 R157, R163). -/
def DoorState.fbOk (d : DoorState) : Bool := d.hall.isSome && d.hallBad == 0

/-- STARTING of a side (06 R163): offsets, bus voltage and feedback checked; the reference is taken
from the closed contact, or by a stroke once RUN_PERMIT is in force. -/
def Mach.doorStarting (m : Mach) (s : Ab) : Mach :=
  let d := m.doors.get s
  if d.own != .starting || m.sideFaulted s then m
  else if !d.offOk || d.udc < 240 || 600 < d.udc || !d.fbOk then m
  else if m.contactClosed s then
    (m.side s fun d => { d with own := .on, x := 0, xFrac := 0, gates := d.runPermit && m.pair.holder.isSome, permitOff := false }).becomeClosed s
  else if d.runPermit && m.pair.holder.isSome then
    m.side s fun d => { d with own := .on, state := 0, gates := true, permitOff := false, refFrom := some m.time.frame }
  else m

/-- Enter STARTING (01 R30; 06 R163). -/
def DoorState.restart (d : DoorState) (f : Nat) : DoorState :=
  { d.gatesOff f with
    own := .starting, state := 0, offOk := false, refFrom := none, stroke := none, dwellFrom := none, holdFrom := none,
    reversing := false, deferred := false, permitOff := false, learnTag := none, learnStroke := 0, keBrake := false, nudgeOver := false
    sp := none, held := false }

/-- A side passes through STARTING; a learning cycle that this cuts short fails (06 R169). -/
def Mach.doorRestart (m : Mach) (s : Ab) : Mach :=
  let m1 := if (m.doors.get s).state == 8 then m.learnFail s else m
  m1.side s fun d => d.restart m.time.frame

/-- The triad bits of 06 R159 in force at this tick: set by two of the cores that vote. -/
def Mach.doorBits (m : Mach) (s : Ab) : Mach :=
  m.side s fun d => { d with
    runPermit := m.bits fun k => k.runPermit.get s
    openPermit := m.bits fun k => k.openPermit.get s
    reopenReq := m.bits fun k => k.reopenReq.get s }

/-- The side is under way: in a stroke or referencing. -/
def DoorState.underWay (d : DoorState) : Bool :=
  d.state == 2 || d.state == 5 || d.state == 8 || d.closes || (d.state == 0 && d.refFrom.isSome)

/-- A fault of class F3 or above in the side (06 R186, R191): its gates go off at this tick, but a reversal in
progress is finished first; a side under way is STOPPING. -/
def Mach.doorFaulted (m : Mach) (s : Ab) : Mach :=
  m.side s fun d =>
    let e := if d.state == 5 then d else d.gatesOff m.time.frame
    if d.own == .on && d.underWay then { e with own := .stopping, stopPend := d.state == 5, refFrom := none } else e

/-- What RUN_PERMIT and the side's own faults do to its gates (06 R154, R159, R160, R191; 17 R523). -/
def Mach.doorGates (m : Mach) (s : Ab) : Mach :=
  let d := m.doors.get s
  let own := m.sideFaulted s
  let f5 := m.faults.any fun f => f.cls == 5
  if !d.runPermit && d.gates then m.side s fun d => { d.gatesOff m.time.frame with permitOff := true }
  else if own && (d.gates || (d.own == .on && d.underWay)) then m.doorFaulted s
  else if d.permitOff && d.runPermit && !f5 && d.own == .on then m.doorRestart s
  else if !d.gates && !own && d.runPermit && !d.permitOff && (d.own == .on || d.own == .stopping) && (m.power.state < 2 || d.recheck)
      && m.pair.holder.isSome then
    m.side s fun d => { d with gates := true, refX := d.x, refV := 0 }
  else if d.gates && 2 ≤ m.power.state && !d.recheck && d.state == 1 then m.side s fun d => d.gatesOff m.time.frame
  else m

/-- Evidence and ends of the bridge faults counted per frame (06 R191). -/
def Mach.doorEnds (m : Mach) (s : Ab) : Mach :=
  let h := sideHandle s
  let d := m.doors.get s
  let inRange := decide (240 ≤ d.udc) && decide (d.udc ≤ 600)
  let m1 := m.side s fun d => { d with
    busOkSince := if inRange then (if d.busOkSince.isSome then d.busOkSince else some m.time.frame) else none
    fbGood := if d.v == 0 then d.fbGood + 1 else 0 }
  let d1 := m1.doors.get s
  let busOk := match d1.busOkSince with | some f => m1.passedMs f 100 | none => false
  (((m1.endIf h 0x51 busOk).endIf h 0x52 busOk).endIf h 0x50 (!d.gates && d.offOk && m1.passedMs d.gatesOffSince 1000)).endIf h 0x54
    (decide (400 ≤ d1.fbGood) && d.v == 0)

/-- Dwell suspension, deferred closes and the interruption of the protective device (06 R166, R181,
R184). -/
def Mach.doorDemand (m : Mach) (s : Ab) (was : Bool) : Mach :=
  let d := m.doors.get s
  let h := 0x0730 + s.idx
  let st := (m.blockReport h).1
  let broken := m.blockOn h && (st == 2 || st == 4)
  let m1 := m.side s fun d => { d with
    dpdSince := if broken then (if d.dpdSince.isSome then d.dpdSince else some m.time.frame) else none
    dwellSusp := d.reopenReq && d.state == 3
    nudgeOver := d.nudgeOver && d.reopenReq }
  if d.deferred && !d.reopenReq && d.state == 3 && d.own == .on then m1.startClose s false
  else if was && !d.reopenReq && d.state == 3 then
    if d.holdFrom.isSome then m1
    else m1.side s fun d => { d with dwellFrom := some m.time.frame, dwellLen := msF (m.door s pDWELL_REOPEN) }
  else m1

/-- The commands accepted in the frame before take effect (06 R164, R185). -/
def Mach.doorCommands (m : Mach) (s : Ab) (l : List Nat) : Mach :=
  m.each l fun m c =>
    if (m.doors.get s).own != .on then m else if 16 ≤ c then m.startLearn s (c - 16) else m.doorCommand s c

/-- The scheduler's demand that the side open for a call (05 R133), and a close that waited for a re-levelling to end
and for the brake to be closed (04 R114). -/
def Mach.doorCalls (m : Mach) (s : Ab) : Mach :=
  let st := (m.doors.get s).state
  let m1 := if m.sched.openReq.get s && m.sideOn s && st != 8 && st != 0 && st != 2 && st != 3 then m.startOpen s else m
  if !m1.relevels && m1.brakeClosed && m1.eng.relClose.get s then { m1 with eng.relClose := m1.eng.relClose.set s false }.doorCommand s 2 else m1

/-- What a tick counts for a side: the frames of the CLOSED condition and the re-check's time. -/
def Mach.doorCount (m : Mach) (s : Ab) : Mach :=
  m.side s fun d => { d with
    closedRun := if decide (mag d.x ≤ m.door s pCLOSED_TOL) && m.contactClosed s then d.closedRun + 1 else 0
    recheck := d.recheck && !(m.passedMs m.power.recheckAt 100)
    cmds := [] }

/-- A learning cycle ends where OPEN_PERMIT is withdrawn: the door comes to rest (06 R165, R169). -/
def Mach.learnPermit (m : Mach) (s : Ab) : Mach :=
  let d := m.doors.get s
  if d.state == 8 && !d.openPermit then (m.learnFail s).side s fun d => { d with
    state := if d.refV < 0 then 4 else 2, stroke := some m.time.frame, keStrokeOk := false, strokeClean := false }
  else m

/-- The ends of strokes at a tick: referenced by the contact, CLOSED, OPEN (06 R161, R163, R166). -/
def Mach.strokeEnds (m : Mach) (s : Ab) : Mach :=
  let d0 := m.doors.get s
  let m1 := if d0.state == 0 && d0.own == .on && m.contactClosed s && d0.refFrom.isSome && d0.x != 0 then
      m.side s fun d => { d with x := 0, xFrac := 0, refX := 0, refV := 0 } else m
  let d := m1.doors.get s
  let w : Int := m1.openEnd s
  if 4 ≤ d.closedRun && (d.closes || d.state == 6 || (d.state == 0 && d.own == .on && d.refFrom.isSome)) then m1.becomeClosed s
  else if (d.state == 2 || (d.state == 5 && !d.reversing)) && w ≤ d.refX && w - (m1.door s pCLOSED_TOL : Nat) ≤ d.x && 0 < w then
    m1.becomeOpen s
  else m1

/-- One frame of one side, at its tick: the triad bits, STARTING, the setpoint, the commands and openings accepted
in the frame before, the profile, the ends of strokes, and the setpoint for the next tick. -/
def Mach.doorTick (m : Mach) (s : Ab) : Mach :=
  let d0 := m.doors.get s
  let m1 := ((m.doorBits s).doorGates s).doorDemand s d0.reopenReq
  let m2 := (((m1.doorStarting s).doorEnds s).doorCount s).takeSp s
  let m3 := ((m2.doorCommands s d0.cmds).doorCalls s).learnPermit s
  (((m3.openingBegun s d0.state).doorProfile s).strokeEnds s).giveSp s

end Sys2Proof.Machine
end

