-- ==== Sys2Proof/Machine/Learn.lean ====
section
/-!
DEFINITION. Learning runs and homing (03 R84 to R89): their acceptance, the recording of switch
edges, the plans of the passes and the results.
-/
namespace Sys2Proof.Machine

open Sys2Proof

/-- Insert a staged entry, ascending by handle and parameter; an entry for the same one is replaced
(08 R260). -/
def stagePut (l : List Staged) (e : Staged) : List Staged :=
  match l with
  | [] => [e]
  | x :: r =>
    if x.handle == e.handle && x.id == e.id then e :: r
    else if e.handle < x.handle || (e.handle == x.handle && e.id < x.id) then e :: x :: r
    else x :: stagePut r e

/-- No reaction that bars a learning run or HOME is in force (03 R84). -/
def Mach.learnFaultsOk (m : Mach) : Bool :=
  m.faults.all fun f =>
    if f.cls == 3 then f.code == 0x32 || f.code == 0x33 || f.code == 0x3E
    else f.cls < 3 || f.code == 0x3B

/-- The conditions of 03 R84 other than the session. -/
def Mach.learnMay (m : Mach) : Bool :=
  m.still && !m.inspection && !m.evacuation && m.tapeInUse && decide (1 ≤ m.quality) && m.learnFaultsOk

/-- A learning run or HOME is in progress. -/
def Mach.learning (m : Mach) : Bool := m.pos.learn.active || m.pos.home.active

/-- LEARN_RUN (03 R84); its acceptance ends 0x3B and 0x3D (R96). -/
def execLearnRun (tag : Nat) (s : State) : Res := serve s 0x24 tag fun m =>
  if !m.session then refuse m stDENIED
  else if !m.learnMay then refuse m stWRONG_MODE
  else if m.learning then refuse m stBUSY
  else pending (({ m with pos.learn := { LearnState.reset with active := true, state := 1, tag := tag } }.endFault 1 0x3B).endFault 1 0x3D)

/-- HOME (03 R87); its acceptance ends 0x3B (R96). -/
def execHome (tag dir : Nat) (s : State) : Res := serve s 0x25 tag fun m =>
  if 1 < dir then refuse m stBAD_PARAM
  else if !m.learnMay then refuse m stWRONG_MODE
  else if m.learning then refuse m stBUSY
  else pending ({ m with pos.home := { HomeState.reset with active := true, up := dir == 1, tag := tag } }.endFault 1 0x3B)

/-- Channel of the door-zone input. -/
def Mach.dzChannel (m : Mach) : Nat := m.battr 0x0718 pFB_CH_A

/-- Channels of the slowdown switches with their blocks. -/
def Mach.tslChannels (m : Mach) : List (Nat × Nat) := (m.blocksOf .tsl).map fun h => (h, m.battr h pFB_CH_A)

/-- An input channel reads on at the last freeze. -/
def Mach.inputOn (m : Mach) (c : Nat) : Bool := decide (c < 64) && bit m.link.frIn c

/-- Edges of the frame's freeze on watched channels, each at the position interpolated to its link
tick between the estimates of the two ticks around it (03 R84). -/
def Mach.frameEdges (m : Mach) (prevP : Int) (pass : Nat) : List EdgeRec :=
  let watched := m.dzChannel :: m.tslChannels.map (·.2)
  (m.link.frTrans.filter fun t => watched.contains t.ch).map fun t =>
    let base := 40 * (m.time.frame - 1)
    ⟨pass, t.ch, t.on, prevP + halfAway ((m.fpos - prevP) * (t.lt - base : Nat)) 40⟩

/-- Load a plan that replaces the executing one by a stop under the normal limits. -/
def Mach.brakePlan (m : Mach) (kind : Nat) : Mach × Bool :=
  let k := m.switchState
  let segs := stopSegs k (m.nat pA_MAX) (m.nat pJ_MAX)
  let id := nextId m.sched.planId
  { m with sched.planId := id }.loadPlan ⟨id, kind, m.switchFrame % 2 ^ 32, k, unitOf (runSegs k segs).p, segs⟩ false false

/-- Segments towards a target and the position where they end: the target, or a nearer one where the way there
would take more than 16 segments (04 R97, R98). -/
def Mach.longSegs (m : Mach) (k : Kin) (t : Int) (cap : Nat) : Option (List Seg × Int) :=
  match m.planSegs k t cap with
  | none => none
  | some l =>
    if l.length ≤ 16 then some (l, t)
    else
      let part : Int := (4 * (2 ^ 32 - 1) * cap / uS : Nat)
      let near := if unitOf k.p < t then min t (unitOf k.p + part) else max t (unitOf k.p - part)
      (m.planSegs k near cap).map fun l => (l, near)

/-- Build the plan of a run towards a target that may lie beyond one plan's reach, from rest or to replace the
executing one, and load it; nothing where its kind has no cap. -/
def Mach.longPlan (m : Mach) (kind : Nat) (t : Int) (fromRest : Bool) : Mach × Bool :=
  let k : Kin := if fromRest then ⟨m.eng.kin.p, 0, 0⟩ else m.switchState
  match (m.capFor kind k false).bind (m.longSegs k t) with
  | none => (m, false)
  | some x =>
    let id := nextId m.sched.planId
    let sw := if fromRest then 0 else m.switchFrame % 2 ^ 32
    { m with sched.planId := id }.loadPlan ⟨id, kind, sw, k, x.2, x.1⟩ fromRest false

/-- The executing plan ends short of a run's target, and less than 12 s of its constant speed are left. -/
def Mach.runsOut (m : Mach) (t : Int) : Bool :=
  match m.eng.exec with
  | some r =>
    let k := m.eng.kin
    let left := segsTime r.plan.segs - (m.nowU - r.t0) - segsTime (stopSegs k (m.nat pA_MAX) (m.nat pJ_MAX))
    m.eng.pend.isNone && m.eng.stop.isNone && r.plan.target != t && k.a == 0 && k.v != 0 && decide (left ≤ 12 * uS)
  | none => false

/-- The engine is free for the next plan of a run. -/
def Mach.engineFree (m : Mach) : Bool := m.eng.mode == 0 && !m.hasPlan && m.eng.exec.isNone && m.eng.stop.isNone

/-- A pass of a learning run is over: its plan was committed and the engine is IDLE again. -/
def Mach.passOver (m : Mach) : Bool := m.pos.learn.active && m.pos.learn.passStarted && m.engineFree

/-- Where the plan of a run in a direction would end (04 R100): 500 mm beyond the terminal sill. -/
def Mach.passTarget (m : Mach) (down : Bool) : Int := if down then m.sillLow - 500000 else m.sillHigh + 500000

/-- Position of reader 1 less that of reader 2 in nm, where both give one in this frame (03 R85). -/
def Mach.readerDiff (m : Mach) : Option Int :=
  let now (t : TapeReader) : Option Int := if t.missRun == 0 && !t.lost then t.pos else none
  match now m.est.readers.a, now m.est.readers.b with
  | some a, some b => if m.nat pTAPE_READERS == 2 then some (a - b) else none
  | _, _ => none

/-- A learning run in one frame (03 R84): the plans of the passes, the edges and the reader
differences. `state` is the pass. Of several slowdown switches of a terminal, all are active at its landing
(notes/assumptions/19.md). -/
def Mach.learnFrame (m : Mach) (prevP : Int) : Mach :=
  let l := m.pos.learn
  if !l.active then m
  else if m.eng.stop.isSome then m.endLearn
  else
    let down := l.state != 2
    let ends := if down then (m.tslChannels.filter fun x => x.1 < 0x0784) else (m.tslChannels.filter fun x => 0x0784 ≤ x.1)
    let atEnd := m.inputOn m.dzChannel && ends != [] && ends.all fun x => m.inputOn x.2
    let diff := m.readerDiff
    let l1 := { l with
      edges := if 2 ≤ l.state && l.passStarted then l.edges ++ m.frameEdges prevP l.state else l.edges
      seen := l.seen || (l.passStarted && atEnd)
      pairSum := if l.state == 2 then l.pairSum + diff.getD 0 else l.pairSum
      pairN := if l.state == 2 && diff.isSome then l.pairN + 1 else l.pairN }
    let m1 := { m with pos.learn := l1 }
    if m1.passOver then
      if l.state < 3 then { m1 with pos.learn := { l1 with state := l.state + 1, passStarted := false, seen := false, braked := false } } else m1
    else if !l.passStarted then
      if m1.engineFree then
        let r2 := m1.longPlan 6 (m1.passTarget down) true
        if r2.2 then { r2.1 with pos.learn := { l1 with passStarted := true } } else r2.1.endLearn
      else m1
    else if l1.seen && !m1.inputOn m1.dzChannel && !l1.braked then
      let r2 := m1.brakePlan 6
      if r2.2 then { r2.1 with pos.learn := { l1 with braked := true } } else r2.1
    else if !l1.braked && m1.runsOut (m1.passTarget down) then (m1.longPlan 6 (m1.passTarget down) false).1
    else m1

/-- Complete door zones of a channel's edges: where it turned on, and then off. -/
def zonesOf : List EdgeRec → List (Int × Int)
  | a :: b :: r => if a.on && !b.on then (a.pos, b.pos) :: zonesOf r else zonesOf (b :: r)
  | _ => []

/-- What a learning run finds for one landing: lower and upper edge means, midpoints up and down. -/
structure Learned where
  low : Int
  high : Int
  up : Int
  down : Int
  deriving DecidableEq, Repr

/-- The door zones of both passes, landing by landing (03 R85). Half micrometres, here as in SILL_LEVEL and in the
mean edges of the switches, are rounded away from zero: the rule says only that values are rounded to µm
(DESIGN CHOICE, notes/assumptions/19.md). -/
def Mach.learnedZones (m : Mach) : Option (List Learned) :=
  let e := m.pos.learn.edges.filter fun x => x.ch == m.dzChannel
  let up := zonesOf (e.filter fun x => x.pass == 2)
  let dn := (zonesOf (e.filter fun x => x.pass == 3)).reverse
  if up.length == m.nLandings && dn.length == m.nLandings then
    some ((up.zip dn).map fun (u, d) => ⟨halfAway (u.1 + d.2) 2, halfAway (u.2 + d.1) 2, halfAway (u.1 + u.2) 2, halfAway (d.1 + d.2) 2⟩)
  else none

/-- SILL_LEVEL before the shift (03 R85). -/
def Mach.learnedSill (m : Mach) (z : Learned) : Int := halfAway (z.up + z.down) 2 + m.int pDZ_SILL_OFFSET

/-- The length and midpoint conditions of 03 R85 on one zone. -/
def zoneOk (z : Learned) : Bool :=
  decide (40000 ≤ z.high - z.low) && decide (z.high - z.low ≤ 400000) && decide (mag (z.up - z.down) ≤ 5000)

/-- Adjacent levels at least 500 mm apart. -/
def spacedOk : List Int → Bool
  | a :: b :: r => decide (500000 ≤ b - a) && spacedOk (b :: r)
  | _ => true

/-- Mean position of the edges of a slowdown switch, if it had any. -/
def Mach.switchEdge (m : Mach) (c : Nat) : Option Int :=
  let l := (m.pos.learn.edges.filter fun e => e.ch == c).map (·.pos)
  if l == [] then none else some (halfAway (sumI l) l.length)

/-- The staged entries of a successful run (03 R85). -/
def Mach.learnEntries (m : Mach) (zs : List Learned) : List Staged :=
  let shift := ((zs.map m.learnedSill).head?).getD 0
  let lands := ((List.range zs.length).zip zs).flatMap fun (i, z) =>
    let h := landingHandle i
    [⟨h, pSILL_LEVEL, [m.learnedSill z - shift]⟩, ⟨h, pDZ_LOW, [z.low - shift]⟩, ⟨h, pDZ_HIGH, [z.high - shift]⟩,
     ⟨h, pDZ_MID_UP, [z.up - shift]⟩, ⟨h, pDZ_MID_DOWN, [z.down - shift]⟩]
  let edges := m.tslChannels.filterMap fun (h, c) => (m.switchEdge c).map fun p => (⟨h, pTSL_EDGE, [p - shift]⟩ : Staged)
  let two := if m.nat pTAPE_READERS == 2 && 0 < m.pos.learn.pairN then
      [(⟨0, pTAPE2_OFFSET, [m.int pTAPE2_OFFSET + halfAway m.pos.learn.pairSum (1000 * m.pos.learn.pairN)]⟩ : Staged)] else []
  [⟨0, pTAPE_ORIGIN, [m.int pTAPE_ORIGIN - shift]⟩] ++ two ++ lands ++ edges

/-- LEARN_RUN_COMPLETE at the end of pass 3 (03 R85): the results are staged, or 0x3D raised, as
also where they do not fit the staged set (08 R261). -/
def execLearnRunComplete (s : State) : Res :=
  onWhen s (s.now.passOver && s.now.pos.learn.state == 3) fun m =>
    let tag := m.pos.learn.tag
    let good := match m.learnedZones with
      | some zs =>
        if zs.all zoneOk && spacedOk (zs.map m.learnedSill)
            && decide ((zs.map m.learnedSill).getLastD 0 - (zs.map m.learnedSill).headD 0 ≤ 1000000000)
            && decide (((m.learnEntries zs).foldl stagePut m.cab.staged).length ≤ 2048)
        then some zs else none
      | none => none
    match good with
    | some zs =>
      { m with
        cab.staged := (m.learnEntries zs).foldl stagePut m.cab.staged
        pos.learn := { LearnState.reset with state := 4, tag := tag } }.completed 0x24 tag stOK 1 4
    | none =>
      ({ m with pos.learn := { LearnState.reset with state := 5, tag := tag } }.raise 1 0x3D 1).completed 0x24 tag stUNIT_FAULT 1 5

/-! Homing (03 R87). -/

/-- The plan of a homing run to its terminal (03 R87). -/
def Mach.homePlan (m : Mach) : Mach :=
  let r := m.longPlan 5 (m.passTarget !m.pos.home.up) true
  if r.2 then { r.1 with pos.home.planned := true, pos.home.edges := [] } else r.1.endHome

/-- It brakes once it has crossed a whole zone. -/
def Mach.homeBrake (m : Mach) : Mach :=
  let r := m.brakePlan 5
  if r.2 then { r.1 with pos.home.braked := true } else r.1

/-- It returns to the landing whose zone it has crossed: the one whose DZ_MID_DOWN is nearest to the midpoint
measured, in either direction; 03 R87 does not say how it is told (DESIGN CHOICE, notes/assumptions/19.md). -/
def Mach.homeReturn (m : Mach) (z : Int × Int) : Mach :=
  let mid := halfAway (z.1 + z.2) 2
  let near := m.landings.foldl (fun b l =>
    if mag (m.land l pDZ_MID_DOWN - mid) < mag (m.land b pDZ_MID_DOWN - mid) then l else b) 0
  let k : Kin := ⟨m.eng.kin.p, 0, 0⟩
  let t := m.land near pSILL_LEVEL
  let id := nextId m.sched.planId
  let segs := (m.planSegs k t (m.nat pLEVEL_SPEED)).getD []
  let r := { m with sched.planId := id }.loadPlan ⟨id, 5, 0, k, t, segs⟩ true false
  { r.1 with
    pos.home.returning := true
    pos.home.mid := mid
    pos.home.landing := near
    pos.home.planned := r.2 }

/-- A homing run under way: past its zone it brakes and returns; before it, it runs on as the mode allows. -/
def Mach.homeOn (m : Mach) : Mach :=
  let h := m.pos.home
  match zonesOf h.edges with
  | z :: _ => if !h.braked then m.homeBrake else if m.engineFree then m.homeReturn z else m
  | [] =>
    if m.engineFree then m.endHome
    else if m.runsOut (m.passTarget !h.up) then (m.longPlan 5 (m.passTarget !h.up) false).1
    else m

/-- A homing run in one frame. -/
def Mach.homeFrame (m : Mach) (prevP : Int) : Mach :=
  let h := m.pos.home
  if !h.active then m
  else if m.eng.stop.isSome then m.endHome
  else
    let e := h.edges ++ (m.frameEdges prevP 0).filter fun x => x.ch == m.dzChannel
    let m1 := { m with pos.home := { h with edges := e } }
    if !h.planned then (if m1.engineFree then m1.homePlan else m1)
    else if h.returning then m1
    else m1.homeOn

/-- The homing run has measured its zone and stands at the landing again. -/
def Mach.homeStopped (m : Mach) : Bool := m.pos.home.active && m.pos.home.returning && m.engineFree

/-- The position is confirmed by a HOME run (03 R87; 05 R147). -/
def Mach.confirm (m : Mach) : Mach :=
  { m with
    pos.est := m.pos.est.map fun _ e => { e with confirmed := true }
    sched.homeDue := true }.endFault 1 0x3F

/-- HOME_COMPLETE (03 R87, R96; 05 R147): the position is confirmed, or 0x3E raised. While 0x3E is in force
POS_QUALITY stays LIMITED, whatever a later run measures. -/
def execHomeComplete (s : State) : Res :=
  onWhen s s.now.homeStopped fun m =>
    let h := m.pos.home
    let ref := m.land h.landing (if h.up then pDZ_MID_UP else pDZ_MID_DOWN)
    let m0 := { m with pos.home := HomeState.reset }
    if mag (h.mid - ref) ≤ m.nat pHOME_TOL then
      let m2 := if m0.inForce 1 0x3E then m0 else m0.confirm
      (if m2.tapeInUse then m2.endFault 1 0x32 else m2).completed 0x25 h.tag stOK 1 0
    else
      let m1 := { m0 with pos.est := m0.pos.est.map fun _ e => { e with confirmed := false } }
      (m1.raise 1 0x3E 3).completed 0x25 h.tag stUNIT_FAULT 1 0

/-! Inspection and evacuation runs (07 R233, R235; 05 R134). -/

/-- Direction of the two-hand condition as two cores judged it (07 R232): 1 up, 2 down, 0 none. -/
def Mach.stationDir (m : Mach) : Nat :=
  if m.twoCores (·.stnDir == 1) then 1 else if m.twoCores (·.stnDir == 2) then 2 else 0

/-- The terminal sill in a direction. -/
def Mach.terminalSill (m : Mach) (dir : Nat) : Int := if dir == 1 then m.sillHigh else m.sillLow

/-- Build the plan of a station's run, from rest or to replace the executing one, and load it. -/
def Mach.stationPlan (m : Mach) (kind dir : Nat) (fromRest : Bool) : Mach :=
  let k : Kin := if fromRest then ⟨m.eng.kin.p, 0, 0⟩ else m.switchState
  let t := m.terminalSill dir
  if (if dir == 1 then decide (unitOf k.p < t) else decide (t < unitOf k.p)) then
    let r := m.longPlan kind t fromRest
    { r.1 with eng.inspReload := r.1.eng.inspReload || r.2 }
  else m

/-- A station's run in one frame (07 R233, R235). When the two-hand condition no longer holds in its
direction, a plan that waits is withdrawn and a moving car is left to its brake: the run conditions have failed (07 R210),
and the engine is asked for the safe stop, MODE 5, where the rules name no stop of the engine (DESIGN CHOICE,
notes/assumptions/53.md). -/
def Mach.stationFrame (m : Mach) : Mach :=
  let dir := m.stationDir
  let kind := if m.inspection then 3 else 4
  if m.eng.inspReload then
    let cur := if m.hasPlan && m.eng.stop.isNone then (m.eng.pend <|> m.eng.exec.map (·.plan)) else none
    match cur with
    | none => { m with eng.inspReload := false }
    | some p =>
      if dir == (if unitOf p.start.p < p.target then 1 else 2) then
        if m.runsOut (m.terminalSill dir) then m.stationPlan kind dir false else m
      else
        let m1 := { m with eng.inspReload := false }
        if m.eng.pendRest then m1.cancelPlan else m1.stopReq .safe
  else if dir != 0 && (m.inspection || m.evacuation) && m.engineFree then m.stationPlan kind dir true
  else m

/-- Note the slowdown switch transitions of the freeze: the link ticks of the last five (03 R89). -/
def Mach.switchRuns (m : Mach) : Mach :=
  let chs := m.tslChannels.map (·.2)
  m.each (m.link.frTrans.filter fun t => chs.contains t.ch) fun m t =>
    let old := (m.pos.switches.find? fun x => x.ch == t.ch).getD ⟨t.ch, []⟩
    { m with pos.switches := (m.pos.switches.filter fun x => x.ch != t.ch) ++ [⟨t.ch, (t.lt :: old.times).take 5⟩] }

/-- A switch has made its fifth transition less than 100 ms (16 000 link ticks) after the first of
the five (03 R89, 07 R230). -/
def SwitchRun.unstable (x : SwitchRun) : Bool :=
  match x.times with
  | [e, _, _, _, a] => decide (e - a < 16000)
  | _ => false

/-- Limit switches and unstable slowdown switches during HOME or a learning run (03 R88, R89). -/
def Mach.learnHazards (m : Mach) (limit : Bool) : Mach :=
  if !m.learning then m
  else
    let new := m.link.frTrans.map (·.ch)
    let m1 := if limit then
        { m with pos.est := m.pos.est.map fun _ e => { e with confirmed := false } }.raise 1 0x3C 5
      else m
    if m1.pos.switches.any fun x => new.contains x.ch && x.unstable then m1.raise 1 0x3B 4 else m1

end Sys2Proof.Machine
end

