-- ==== Sys2Proof/Machine/SafetyFn.lean ====
section
/-!
DEFINITION. The safety function blocks (chapter 07): pairs and discrepancy, the reset edge, the
modes and the two-hand condition, the door zone and bridging, each block's evaluation in each core,
the run conditions and what leaves the cores.
-/
namespace Sys2Proof.Machine

open Sys2Proof

/-- A pair as configured (07 R199, R220, R232, R236): block, role, channels A and B, ANTIVALENT. -/
structure PairSpec where
  handle : Nat
  role : Nat
  chA : Nat
  chB : Nat
  anti : Bool
  deriving DecidableEq, Repr

/-- The pairs of a block. -/
def Mach.pairsOf (m : Mach) (h : Nat) : List PairSpec :=
  let anti := attrApplies h pFB_POLARITY && m.natAt h pFB_POLARITY == 1
  let main : PairSpec := ⟨h, 0, m.natAt h pFB_CH_A, m.natAt h pFB_CH_B, anti⟩
  match blockKind h with
  | some .estop | some .carDoor | some .doorZone | some .dpd => [main]
  | some .landingDoor => if m.nat pLOCK_SOURCE == 1 then [] else [main]
  | some .station =>
    [main] ++ [1, 2, 3].map fun r =>
      (⟨h, r, m.natAt h (pSTN_COMMON_A + 2 * (r - 1)), m.natAt h (pSTN_COMMON_A + 2 * (r - 1) + 1), anti⟩ : PairSpec)
  | _ => []

/-- Every pair that the blocks read, in ascending handle order. -/
def Mach.pairSpecs (m : Mach) : List PairSpec := m.blocks.flatMap m.pairsOf

/-- A level is a channel's safe level (07 R199). -/
def PairSpec.safe (sp : PairSpec) (chB on : Bool) : Bool := if chB && sp.anti then on else !on

/-- The level of a channel at a link tick that the last freeze covers. -/
def Mach.levelAt (m : Mach) (ch lt : Nat) : Bool :=
  if 64 ≤ ch then false else
  match m.link.frTrans.find? fun t => t.ch == ch && decide (lt < t.lt) with
  | some t => !t.on
  | none => bit m.link.frIn ch

/-- Both channels of a pair at their normal level. -/
def PairState.normal (p : PairState) : Bool := !p.aSafe && !p.bSafe

/-- A core's state of a pair. -/
def CoreState.pair (k : CoreState) (h role : Nat) : PairState :=
  (k.pairs.find? fun p => p.handle == h && p.role == role).getD { PairState.reset with handle := h, role := role }

/-- A pair of a core is NORMAL. -/
def CoreState.pairNormal (k : CoreState) (h role : Nat) : Bool := (k.pair h role).normal

/-- Discrepancy time of a block in link ticks (07 R202). -/
def Mach.discTicks (m : Mach) (h : Nat) : Nat := m.natAt h pFB_DISC_TIME * 160

/-- Remove the first element that satisfies a test. -/
def dropFirst {α : Type} (f : α → Bool) : List α → List α
  | [] => []
  | x :: r => if f x then r else x :: dropFirst f r

/-- One transition of one channel of a pair (07 R202): it closes the oldest open measurement of the
same transition by the other channel, or opens one. -/
def PairState.channel (p : PairState) (n : Nat) (isB safe : Bool) (lt : Nat) : PairState :=
  if (if isB then p.bSafe else p.aSafe) == safe then p
  else
    let hit (r : Meas) : Bool := r.chB != isB && r.toSafe == safe && decide (lt ≤ r.l0 + n)
    let p1 := match p.meas.find? hit with
      | some r => { p with meas := dropFirst hit p.meas, lastDisc := lt - r.l0, discLt := lt }
      | none => { p with meas := p.meas ++ [(⟨isB, safe, lt⟩ : Meas)] }
    let p2 := if isB then { p1 with bSafe := safe } else { p1 with aSafe := safe }
    { p2 with
      bothSafe := p2.bothSafe || (p2.aSafe && p2.bSafe)
      dip := p2.dip || !p2.normal
      rise := p2.rise || p2.normal
      pressedAt := if p2.normal then (if p.normal then p.pressedAt else some lt) else none }

/-- One recorded transition on a pair. -/
def PairState.transition (p : PairState) (sp : PairSpec) (n : Nat) (t : Trans) : PairState :=
  let p1 := if t.ch == sp.chA then p.channel n false (sp.safe false t.on) t.lt else p
  if t.ch == sp.chB then p1.channel n true (sp.safe true t.on) t.lt else p1

/-- Channel A and channel B of a pair are in bench. -/
def Mach.benchedAB (m : Mach) (sp : PairSpec) : Bool × Bool :=
  (decide (sp.chA < 64) && bit m.field.bench sp.chA, decide (sp.chB < 64) && bit m.field.bench sp.chB)

/-- Benched channels count at their normal level, with measurements suspended (07 R240). -/
def Mach.benchPair (m : Mach) (sp : PairSpec) (p : PairState) : PairState :=
  let ab := m.benchedAB sp
  if ab.1 || ab.2 then { p with aSafe := p.aSafe && !ab.1, bSafe := p.bSafe && !ab.2, meas := [], held := true }
  else { p with held := false }

/-- A pair whose benched channels bring no transition (07 R240). -/
def Mach.unbenched (m : Mach) (sp : PairSpec) : PairSpec :=
  let ab := m.benchedAB sp
  { sp with chA := if ab.1 then 0xFF else sp.chA, chB := if ab.2 then 0xFF else sp.chB }

/-- A pair read for the first time takes the levels of the freeze; an unnamed channel is safe. -/
def Mach.firstRead (m : Mach) (sp : PairSpec) (p : PairState) : PairState :=
  let a := sp.safe false (m.levelAt sp.chA m.link.frLt) || decide (64 ≤ sp.chA)
  let b := sp.safe true (m.levelAt sp.chB m.link.frLt) || decide (64 ≤ sp.chB)
  { p with
    aSafe := a
    bSafe := b
    fresh := false
    dip := a || b
    rise := !a && !b
    pressedAt := if !a && !b then some m.link.frLt else none }

/-- The pairs of a core at a freeze: as long as a channel is in bench, the other alone brings transitions; after a bench the
pair is read anew. While the core is out for its proof test what happened is kept (09 R279). -/
def Mach.readPairs (m : Mach) (c : CoreId) : List PairState :=
  let k := m.safe.cores.get c
  let out := m.triad.proofOut && m.triad.proof == some c
  m.pairSpecs.map fun sp =>
    let p := k.pair sp.handle sp.role
    let ab := m.benchedAB sp
    if p.fresh || (p.held && !ab.1 && !ab.2) then
      let q := m.benchPair sp (m.firstRead sp p)
      { q with dip := !q.normal, rise := q.normal }
    else
      let q := m.benchPair sp p
      let p0 := if out then q else { q with dip := !q.normal, rise := q.normal }
      m.benchPair sp (m.link.frTrans.foldl (fun q t => q.transition (m.unbenched sp) (m.discTicks sp.handle) t) p0)

/-- Last link tick of the freeze at which every button of a station was released, if any (07 R232), from the pairs as a
core held them before the freeze. -/
def Mach.releasedAt (m : Mach) (k : CoreState) (h : Nat) : Option Nat :=
  let specs := (m.pairsOf h).filter fun sp => sp.role != 0
  let free (l : List PairState) : Bool := l.all fun p => !p.normal
  let ps0 := specs.map fun sp => let p := k.pair sp.handle sp.role; if p.fresh then m.firstRead sp p else p
  let go := m.link.frTrans.foldl (fun (x : List PairState × Option Nat × Nat) t =>
    ((specs.zip x.1).map fun (sp, p) => p.transition sp 0 t,
      if free x.1 && decide (x.2.2 < t.lt) then some (t.lt - 1) else x.2.1, t.lt)) (ps0, none, 0)
  if free go.1 then some m.link.frLt else go.2.1

/-! Codes held by a core. -/

/-- Keep a block's record, ascending by handle. -/
def blockOf (l : List BlockRec) (h : Nat) (f : BlockRec → BlockRec) : List BlockRec :=
  match l with
  | [] => [f { BlockRec.reset with handle := h }]
  | b :: r =>
    if b.handle == h then f b :: r
    else if h < b.handle then f { BlockRec.reset with handle := h } :: b :: r
    else b :: blockOf r h f

/-- Change a block's record. -/
def CoreState.onBlock (k : CoreState) (h : Nat) (f : BlockRec → BlockRec) : CoreState := { k with blocks := blockOf k.blocks h f }

/-- A code is held. -/
def CoreState.holds (k : CoreState) (h code : Nat) : Bool := (k.block h).codes.contains code

/-- Some block holds a code. -/
def CoreState.holdsAny (k : CoreState) (code : Nat) : Bool := k.blocks.any fun b => b.codes.contains code

/-- Hold a trip or fault (07 R198): each is counted when it arises (R246). -/
def CoreState.hold (k : CoreState) (h code ts : Nat) : CoreState :=
  if k.holds h code then k
  else k.onBlock h fun b => { b with codes := (b.codes.filter (· < code)) ++ [code] ++ b.codes.filter (code < ·), trips := sat32 b.trips, lastEvent := ts }

/-- Hold it under a condition. -/
def CoreState.holdIf (k : CoreState) (c : Bool) (h code ts : Nat) : CoreState := if c then k.hold h code ts else k

/-- A trip or fault ends. -/
def CoreState.drop (k : CoreState) (h code : Nat) : CoreState :=
  if k.holds h code then k.onBlock h fun b => { b with codes := b.codes.filter (· != code) } else k

/-- It ends under a condition. -/
def CoreState.dropIf (k : CoreState) (c : Bool) (h code : Nat) : CoreState := if c then k.drop h code else k

/-- A block's DEMAND. -/
def CoreState.demandSet (k : CoreState) (h : Nat) (d : Bool) : CoreState :=
  if (k.block h).demand == d then k else k.onBlock h fun b => { b with demand := d }

/-- A block reports neither trip nor fault and no demand: ARMED but for a bench (07 R208). -/
def CoreState.clear (k : CoreState) (h : Nat) : Bool :=
  let b := k.block h
  !b.demand && !b.codes.any fun c => tripCode c || faultedCode c

/-- A block is ARMED in a core (07 R196): clear, and none of its channels in bench. -/
def CoreState.armed (k : CoreState) (h : Nat) : Bool := k.clear h && !(k.block h).bench

/-- Change a core's state. -/
def Mach.core (m : Mach) (c : CoreId) (f : CoreState → CoreState) : Mach := { m with safe.cores := m.safe.cores.upd c f }

/-- A side of a landing away from the car, 2 × landing + side, has been open for 1000 ms (07 R219). -/
def Mach.awayLate (m : Mach) (x : Nat) : Bool :=
  m.safe.away.any fun (q : Nat × Nat) => q.1 == x && m.passedMs q.2 1000

/-- The faults in force in the blocks are those that some core not excluded holds (07 R197, R198). -/
def Mach.syncSafety (m : Mach) : Mach :=
  let cores := m.coresIn.map fun c => m.safe.cores.get c
  let held := cores.flatMap fun k => k.blocks.flatMap fun b => b.codes.map fun c => (b.handle, c)
  let away := ((m.landings.find? fun l => m.awayLate (2 * l) || m.awayLate (2 * l + 1)).getD 0)
  let m1 := m.each held fun m (h, c) => if m.inForce h c then m else m.raise h c (blockClass h c) (if c == 0x65 then away else 0) 0
  m1.each (m1.faults.filter fun f => 0x0700 ≤ f.unit && f.unit ≤ 0x07FF && !held.contains (f.unit, f.code))
    fun m f => m.endFault f.unit f.code

/-! The reset input (07 R204, R205). -/

/-- The transitions of RESET_CH in a freeze: activity, arming and a valid release. -/
def Mach.readReset (m : Mach) (k : CoreState) : CoreState :=
  let ch := m.nat pRESET_CH
  m.link.frTrans.foldl (fun (k : CoreState) t =>
    if t.ch != ch || t.on == k.rstActive then k
    else if t.on then { k with rstActive := true, rstArmed := decide (8000 ≤ t.lt - k.rstSince), rstSince := t.lt }
    else
      let n := t.lt - k.rstSince
      { k with
        rstActive := false
        rstEdge := if k.rstArmed && 8000 ≤ n && n ≤ 480000 then some t.lt else k.rstEdge
        rstSince := t.lt }) { k with rstEdge := none }

/-! What the blocks judge. -/

/-- A core has a position of its own (03 R94). -/
def Mach.placed (m : Mach) (c : CoreId) : Bool := (m.pos.est.get c.proc).inited

/-- A core's own estimate. -/
def Mach.own (m : Mach) (c : CoreId) : EstState := m.pos.est.get c.proc

/-- The landing in whose door zone the car is, as a core judges it from its own fused position, whatever its quality
(07 R220). -/
def Mach.zone (m : Mach) (c : CoreId) (k : CoreState) : Option Nat :=
  if k.pairNormal 0x0718 0 && !(k.pair 0x0718 0).dip && !k.holds 0x0718 0x61 && m.placed c then m.zoneOf (m.own c).pubP else none

/-- Frames of LOCK_WD. -/
def Mach.lockWd (m : Mach) : Nat := msF (m.nat pLOCK_WD)

/-- The lock state of a landing. -/
def Mach.lockOf (m : Mach) (l : Nat) : LockRec :=
  (m.safe.locks.find? fun r => r.landing == l).getD { LockRec.reset with landing := l }

/-- A landing's side is closed and locked in the newest message, with its watchdog running
(07 R215, R216). -/
def Mach.msgLocked (m : Mach) (l : Nat) (s : Ab) : Bool :=
  let r := m.lockOf l
  bit r.bits 4 && decide (m.since r.atF ≤ m.lockWd) && bit r.bits (2 * s.idx) && bit r.bits (2 * s.idx + 1)

/-- Every landing that the side serves is closed and locked by its messages. -/
def Mach.allMsgLocked (m : Mach) (s : Ab) : Bool := m.landings.all fun l => !m.serves l s || m.msgLocked l s

/-- Every such landing but one. -/
def Mach.othersLocked (m : Mach) (s : Ab) (z : Option Nat) : Bool :=
  m.landings.all fun l => !m.serves l s || some l == z || m.msgLocked l s

/-- A landing door interlock judges its side closed and locked (07 R215, R218). -/
def Mach.sideLocked (m : Mach) (k : CoreState) (s : Ab) : Bool :=
  let chain := k.pairNormal (0x0712 + s.idx) 0 && !(k.pair (0x0712 + s.idx) 0).dip
  match m.nat pLOCK_SOURCE with
  | 0 => chain
  | 1 => m.allMsgLocked s
  | _ => chain && m.allMsgLocked s

/-- What bridging tolerates of a landing door interlock (07 R215). -/
def Mach.sideTolerated (m : Mach) (c : CoreId) (k : CoreState) (s : Ab) : Bool :=
  m.nat pLOCK_SOURCE == 0 || m.othersLocked s (m.zone c k)

/-- The doors are not locked (07 R224). -/
def Mach.notLocked (m : Mach) (c : CoreId) (k : CoreState) : Bool :=
  (m.blocksOf .carDoor).any (fun h => !k.armed h) ||
  match m.zone c k with
  | none => false
  | some l => [Ab.a, .b].any fun s =>
    m.serves l s &&
      (let chainOpen := m.blockOn (0x0712 + s.idx) && (!k.pairNormal (0x0712 + s.idx) 0 || (k.pair (0x0712 + s.idx) 0).dip)
       match m.nat pLOCK_SOURCE with
       | 0 => chainOpen
       | 1 => !m.msgLocked l s
       | _ => !m.msgLocked l s || (chainOpen && m.allMsgLocked s))

/-- Every car door contact and landing door interlock block is ARMED (07 R223). -/
def Mach.doorsArmed (m : Mach) (k : CoreState) : Bool :=
  (m.blocksOf .carDoor).all k.armed && (m.blocksOf .landingDoor).all k.armed

/-- Every car door is closed, and every side closed and locked (07 R248). -/
def Mach.doorsShut (m : Mach) (k : CoreState) : Bool :=
  (m.blocksOf .carDoor).all (fun h => k.pairNormal h 0 && !(k.pair h 0).dip)
    && (m.blocksOf .landingDoor).all fun h => m.sideLocked k (if h == 0x0712 then .a else .b)

/-- An F5 reaction is in force (07 R208). -/
def Mach.f5 (m : Mach) : Bool := m.reacting 5

/-! One block in one core (07 R194, R198). -/

/-- Emergency stop (07 R213). -/
def Mach.evalEstop (m : Mach) (k : CoreState) (h : Nat) : CoreState :=
  let p := k.pair h 0
  let k1 := k.holdIf (p.dip || !p.normal) h 0x60 m.ts
  k1.dropIf (p.normal && !p.dip && p.meas == [] && !k1.holds h 0x61 && m.natAt h pFB_RESET == 0) h 0x60

/-- Car door contact (07 R214). -/
def Mach.evalCarDoor (m : Mach) (k : CoreState) (h : Nat) : CoreState :=
  let p := k.pair h 0
  let off := p.dip || !p.normal
  (k.demandSet h off).holdIf (off && k.running && !m.safe.grant) h 0x63 m.ts

/-- Landing door interlock (07 R215). -/
def Mach.evalLandingDoor (m : Mach) (c : CoreId) (k : CoreState) (h : Nat) : CoreState :=
  let s := if h == 0x0712 then Ab.a else .b
  let off := !m.sideLocked k s
  (k.demandSet h off).holdIf (off && k.running && !(m.safe.grant && m.sideTolerated c k s)) h 0x64 m.ts

/-- A request for bridging is present, for re-levelling or for advanced opening (07 R221). -/
def Mach.bridgeReq (m : Mach) (c : CoreId) (k : CoreState) : Bool × Bool :=
  (m.safe.req.bridge, m.nat pADV_OPEN == 1 && k.running && m.zone c k == some m.safe.req.target)

/-- The conditions of 07 R221 hold at this freeze. -/
def Mach.mayBridge (m : Mach) (c : CoreId) (k : CoreState) : Bool :=
  let e := m.own c
  let r := m.bridgeReq c k
  (m.zone c k).isSome && decide (2 ≤ m.qualityOf e) && !m.f5 &&
    ((r.1 && decide (mag e.pubV ≤ m.nat pBRIDGE_SPEED) && (k.grant || e.stationary))
      || (r.2 && decide (mag e.pubV ≤ m.nat pADV_OPEN_SPEED)))

/-- The door zone block and bridging (07 R220 to R223). A re-levelling whose request ends with the car stationary
and the brake reported closed completes normally. -/
def Mach.evalDoorZone (m : Mach) (c : CoreId) (k : CoreState) : CoreState :=
  let go := m.mayBridge c k
  let r := m.bridgeReq c k
  let normalEnd := k.grantRel && !r.1 && (m.own c).stationary && k.brake == 2
  { k.holdIf (k.grant && !go && !m.doorsArmed k && !normalEnd) 0x0718 0x79 m.ts with grant := go, grantRel := r.1 }

/-- The selector of a station is not NORMAL, or counts as such (07 R231). -/
def Mach.selectorOff (_m : Mach) (k : CoreState) (h : Nat) : Bool :=
  !(k.pair h 0).normal || (k.pair h 0).dip || k.holds h 0x61

/-- The two-hand condition of a station: 1 UP, 2 DOWN, 0 none (07 R232, R233). -/
def Mach.twoHandOf (_m : Mach) (k : CoreState) (h : Nat) : Nat :=
  let was := aGet k.twoHand h 0
  let com := k.pair h 1
  let try1 (d : Nat) : Bool :=
    let b := k.pair h (if d == 1 then 2 else 3)
    let o := k.pair h (if d == 1 then 3 else 2)
    match com.pressedAt, b.pressedAt with
    | some x, some y =>
      let lo := min x y
      decide (max x y - lo ≤ 80000) && !o.normal && !(was != 0 && (com.dip || b.dip || o.rise))
        && (match k.allReleased.find? fun q => q.1 == h with
          | some q => decide (k.modeLt ≤ q.2) && decide (q.2 < lo)
          | none => false)
    | _, _ => false
  if (was == 0 || was == 1) && try1 1 then 1 else if (was == 0 || was == 2) && try1 2 then 2 else 0

/-- The stations and the modes (07 R231 to R234). A two-hand condition that has failed needs every
button released together again. The run that was kept at the entry of inspection mode ends with the car stationary. -/
def Mach.evalStations (m : Mach) (c : CoreId) (k : CoreState) : CoreState :=
  let sts := m.blocksOf .station
  let off := sts.filter (m.selectorOff k)
  let wantI := off.any fun h => m.natAt h pSTN_KIND != 2
  let wantE := off.any fun h => m.natAt h pSTN_KIND == 2
  let insp := wantI || (k.insp && k.running)
  let evac := !insp && (wantE || (k.evac && k.running))
  let began := (insp && !k.insp) || (evac && !k.evac)
  let entry := insp && !k.insp && k.running && !k.runInsp
  let kept := (entry || k.inspEntryRun) && k.running && !(m.own c).stationary && insp
  let k1 := { k with
    insp := insp
    evac := evac
    modeLt := if began then m.link.frLt else k.modeLt
    inspSince := if insp && !k.insp then m.time.frame else k.inspSince
    inspEntryRun := kept
    entryOver := k.running && (k.entryOver || (k.inspEntryRun && !kept))
    ramp := k.ramp || entry }
  let k2 := k1
  let active := off.filter fun h => if insp then m.natAt h pSTN_KIND != 2 else evac && m.natAt h pSTN_KIND == 2
  let dirs := active.map fun h => (h, m.twoHandOf k2 h)
  let failed := dirs.filter fun x => x.2 == 0 && aGet k.twoHand x.1 0 != 0
  let d := match dirs with
    | [] => 0
    | x :: _ => if dirs.all fun y => y.2 == x.2 then x.2 else 0
  { k2 with
    twoHand := dirs
    stnDir := d
    allReleased := k2.allReleased.filter fun q => !(failed.any fun x => x.1 == q.1) || k2.freed.contains q.1 }

/-- Door protective device (07 R236). -/
def Mach.evalDpd (_m : Mach) (k : CoreState) (h : Nat) : CoreState :=
  let p := k.pair h 0
  k.demandSet h (p.dip || !p.normal)

/-- Role of a safety output group (07 R209): 0 UNUSED, 1 MOTOR, 2 BRAKE, 3 AUX. -/
def Mach.roleOf (m : Mach) (h : Nat) : Nat := m.natAt h pSOG_ROLE

/-- Number of the group of a contactor feedback block. -/
def groupOfBlock (h : Nat) : Nat := h - 0x0740

/-- Mirror channel of a contactor (10 R317). -/
def mirrorCh (g : Nat) (s : Ab) : Nat := 16 + 8 * s.idx + g

/-- Link tick at which a contactor's running check ends (07 R238). -/
def Mach.contactorDue (m : Mach) (g : Nat) (x : Contactor) : Nat :=
  x.lt + 160 * m.natAt (0x0740 + g) (if x.on then pCF_PULL_TIME else pCF_DROP_TIME)

/-- The checks of one contactor at a freeze: its new record, and whether 0x6C or 0x6B arises. A
mirror that reads on reads closed. -/
def Mach.checkContactor (m : Mach) (g : Nat) (s : Ab) (x : Contactor) : Contactor × Bool × Bool :=
  let ch := mirrorCh g s
  let due := min m.link.frLt (m.contactorDue g x)
  let met := decide (x.lt ≤ m.link.frLt) && m.levelAt ch due == !x.on
  let x1 := if x.wait && met then { x with wait := false, ok := true, bad := 0 } else x
  let closed := m.levelAt ch m.link.frLt
  if x.wait || !x.ok then
    (x1, false, m.roleOf (0x0740 + g) == 0 && !x.on && !closed)
  else if x.on then
    let n := if closed then x.bad + 1 else 0
    ({ x with bad := n }, decide (4 ≤ n), false)
  else (x, false, !closed)

/-- A group in a core. -/
def CoreState.group (k : CoreState) (g : Nat) : GroupOut := nth k.groups g GroupOut.reset

/-- Confirmed pulled: both contactors have passed the pull check. -/
def GroupOut.pulled (g : GroupOut) : Bool := g.cs.a.on && g.cs.a.ok && g.cs.b.on && g.cs.b.ok

/-- Energised by the last vote (07 R207). -/
def GroupOut.energised (g : GroupOut) : Bool := g.cs.a.on || g.cs.b.on

/-- Change a group. -/
def CoreState.onGroup (k : CoreState) (g : Nat) (f : GroupOut → GroupOut) : CoreState := { k with groups := updAt k.groups g f }

/-- Contactor feedback (07 R238): the pull, held, drop and idle checks. -/
def Mach.evalContactor (m : Mach) (k : CoreState) (h : Nat) : CoreState :=
  let g := groupOfBlock h
  let old := k.group g
  let ra := m.checkContactor g .a old.cs.a
  let rb := m.checkContactor g .b old.cs.b
  let new := { old with cs := ⟨ra.1, rb.1⟩ }
  let k1 := k.onGroup g fun _ => new
  let bad := ra.2.1 || rb.2.1
  let k2 := (k1.holdIf bad h 0x6C m.ts).holdIf (ra.2.2 || rb.2.2) h 0x6B m.ts
  let k3 := if bad then k2.onGroup g fun x => { x with bar := true } else k2
  k3.dropIf (new.pulled && !old.pulled) h 0x6C

/-- A lift-monitoring switch reads lifted at a link tick (07 R239). -/
def Mach.lifted (m : Mach) (s : Ab) (lt : Nat) : Bool :=
  let ch := m.natAt 0x0750 (if s == .a then pFB_CH_A else pFB_CH_B)
  m.levelAt ch lt == (m.natAt 0x0750 pBRK_LIFT_LEVEL == 0)

/-- Link tick at which the brake's running check ends. -/
def Mach.brakeDue (m : Mach) (k : CoreState) : Nat :=
  k.brakeLt + 160 * m.natAt 0x0750 (if k.brakeOn == some true then pBRK_OPEN_TIME else pBRK_CLOSE_TIME)

/-- Brake supervision (07 R239). -/
def Mach.evalBrake (m : Mach) (k : CoreState) : CoreState :=
  let want := k.brakeOn == some true
  let due := min m.link.frLt (m.brakeDue k)
  if k.brakeWait then
    if decide (k.brakeLt ≤ m.link.frLt) && m.lifted .a due == want && m.lifted .b due == want then
      { k.dropIf want 0x0750 0x6D with
        brake := if want then 1 else 2
        brakeWait := false
        brakeBad := ⟨0, 0⟩
        openedThisRun := k.openedThisRun || (want && k.running) }
    else k
  else if k.brake == 0 then k
  else
    let up : CoreState → Bool := fun k => k.brake == 1
    let n (s : Ab) : Nat := if m.lifted s m.link.frLt == up k then 0 else k.brakeBad.get s + 1
    let k1 := { k with brakeBad := ⟨n .a, n .b⟩ }
    let bad := decide (4 ≤ n .a) || decide (4 ≤ n .b)
    if up k then { k1.holdIf bad 0x0750 0x6F m.ts with dragSeen := k1.dragSeen || bad } else k1.holdIf bad 0x0750 0x6E m.ts

/-- Overspeed (07 R226, R227). -/
def Mach.evalOverspeed (m : Mach) (c : CoreId) (k : CoreState) : CoreState :=
  let e := m.own c
  let v := e.pubV
  let h := 0x0760
  let k1 := ((k.holdIf (decide ((m.nat pOS_UP_TRIP : Int) < v)) h 0x70 m.ts).holdIf (decide ((m.nat pOS_UP_SAFE : Int) < v)) h 0x71 m.ts)
  let k2 := ((k1.holdIf (decide (v < -(m.nat pOS_DN_TRIP : Int))) h 0x72 m.ts).holdIf (decide (v < -(m.nat pOS_DN_SAFE : Int))) h 0x73 m.ts)
  let capped := match k.runCap with
    | some x => k.running && decide (x + m.nat pOS_MODE_MARGIN < mag v)
    | none => false
  ((k2.holdIf capped h 0x74 m.ts).dropIf e.stationary h 0x70).dropIf e.stationary h 0x72

/-- Unintended car movement (07 R224). -/
def Mach.evalUcm (m : Mach) (c : CoreId) (k : CoreState) : CoreState :=
  let e := m.own c
  let h := 0x0770
  if !m.notLocked c k || m.safe.grant then { k.demandSet h false with ucmRef := none }
  else
    let lost := m.qualityOf e == 0
    if !m.placed c then k.demandSet h lost else
    let ref := k.ucmRef.getD e.pubP
    let k1 := { k.demandSet h lost with ucmRef := some ref, ucmPub := ref }
    k1.holdIf (decide (m.nat pUCM_DIST < mag (e.pubP - ref))) h 0x75 m.ts

/-- How far a position lies beyond the edge of a terminal block, towards its terminal (07 R229). -/
def Mach.beyond (m : Mach) (h : Nat) (p : Int) : Int :=
  let edge := m.intAt h pTSL_EDGE
  if h < 0x0784 then edge - p else p - edge

/-- The switch of a terminal block reads active. -/
def Mach.switchOn (m : Mach) (h : Nat) : Bool := m.levelAt (m.natAt h pFB_CH_A) m.link.frLt

/-- The switch of a terminal block chatters at this freeze (07 R230). -/
def Mach.chatters (m : Mach) (h : Nat) : Bool :=
  let ch := m.natAt h pFB_CH_A
  !m.learning && m.link.frTrans.any (fun t => t.ch == ch) && m.pos.switches.any fun x => x.ch == ch && x.unstable

/-- Terminal speed limiting (07 R229, R230). A passage of the edge ends 0x78 (R248): switch and position agree on one side
and then on the other, between them never apart by more than TSL_POS_TOL, and without chatter. -/
def Mach.evalTsl (m : Mach) (c : CoreId) (k : CoreState) (h : Nat) : CoreState :=
  let e := m.own c
  let d := m.beyond h e.pubP
  let sw := m.switchOn h
  let toward := if h < 0x0784 then e.pubV < 0 else 0 < e.pubV
  let hit := (sw || (decide (0 < d) && m.placed c)) && decide toward
  let v := m.natAt h pTSL_V
  let tol := (m.nat pTSL_POS_TOL : Int)
  let wrong := m.placed c && ((sw && decide (d < -tol)) || (!sw && decide (tol < d)))
  let was := (k.tslBeyond.find? fun x => x.1 == h).map (·.2)
  let isB := decide (0 < d)
  let agrees := m.placed c && sw == isB
  let passed := agrees && was == some !isB && !m.chatters h
  let k1 := (k.holdIf (hit && decide (v < mag e.pubV)) h 0x76 m.ts).holdIf
    (hit && decide (v * (100 + m.nat pTSL_STAGE2) < 100 * mag e.pubV)) h 0x77 m.ts
  let rest := k.tslBeyond.filter fun x => x.1 != h
  { (k1.dropIf e.stationary h 0x76).dropIf passed h 0x78 with
    tslRun := aSet k.tslRun h (if wrong then aGet k.tslRun h 0 + 1 else 0)
    tslBeyond := if wrong || m.chatters h then rest else if agrees then aSet k.tslBeyond h isB else k.tslBeyond }

/-- The lock message faults end (07 R248): 0x66 once every landing has had 16 consecutive valid
messages, 0x67 once the judgements have agreed for 1000 ms, 0x65 once every side it names is closed and locked. -/
def Mach.lockEnds (m : Mach) (k : CoreState) (h : Nat) : CoreState :=
  let s := if h == 0x0712 then Ab.a else .b
  let t := !(m.landings.any fun l => m.serves l s && (m.lockOf l).timedOut)
  let agree := match m.safe.agree.get s with
    | some f => m.passedMs f 1000
    | none => false
  ((k.dropIf t h 0x66).dropIf agree h 0x67).dropIf (!(m.safe.away.any fun (q : Nat × Nat) => q.1 % 2 == s.idx && m.passedMs q.2 1000)) h 0x65

/-- One block of one core. -/
def Mach.evalBlock (m : Mach) (c : CoreId) (k : CoreState) (h : Nat) : CoreState :=
  let k1 := match blockKind h with
    | some .estop => m.evalEstop k h
    | some .carDoor => m.evalCarDoor k h
    | some .landingDoor => m.lockEnds (m.evalLandingDoor c k h) h
    | some .doorZone => m.evalDoorZone c k
    | some .station => if (m.blocksOf .station).head? == some h then m.evalStations c k else k
    | some .dpd => m.evalDpd k h
    | some .contactor => m.evalContactor k h
    | some .brake => m.evalBrake k
    | some .overspeed => m.evalOverspeed c k
    | some .ucm => m.evalUcm c k
    | some .tsl => m.evalTsl c k h
    | none => k
  let b := !m.unread h && (m.namedBy h).any fun ch => decide (ch < 64) && bit m.field.bench ch
  if (k1.block h).bench == b then k1 else k1.onBlock h fun x => { x with bench := b }

/-- Every existing block once, in ascending handle order; the stations together at the first of them, for what they
do is one condition (07 R194, R231, R233). -/
def Mach.evalBlocks (m : Mach) (c : CoreId) (k : CoreState) : CoreState :=
  let k1 := if m.blocksOf .station == [] then m.evalStations c k else k
  m.blocks.foldl (m.evalBlock c) k1

/-- The blocks are evaluated: from the end of the fourth step of start-up, which reads the configuration that says which
blocks exist and sets up their channels (07 R194; 17 R512). -/
def Mach.blocksRun (m : Mach) : Bool :=
  match m.start.blockedAt with
  | some k => decide (5 ≤ k)
  | none => decide (5 ≤ m.start.step)

/-- The stations whose buttons were all released at some link tick of the freeze, with the last one (07 R232). -/
def Mach.releases (m : Mach) (k : CoreState) : List (Nat × Nat) :=
  (m.blocksOf .station).filterMap fun h => (m.releasedAt k h).map fun t => (h, t)

/-- What a core reads from its freeze: the pairs and the reset input (07 R194, R199, R204). Missing inputs bring no
transition, and the levels stay (02 R48). -/
def Mach.readCore (m : Mach) (c : CoreId) : CoreState :=
  let k := m.readReset (m.safe.cores.get c)
  if m.blocksRun then
    let rel := m.releases k
    { k with
      pairs := m.readPairs c
      freed := rel.map (·.1)
      allReleased := rel.foldl (fun l (x : Nat × Nat) => aSet l x.1 x.2) k.allReleased }
  else k

/-- The evaluation of a core (07 R194). A core that is out for its proof test only records (09 R279). -/
def Mach.evalCore (m : Mach) (c : CoreId) : CoreState :=
  let k := m.safe.cores.get c
  if !m.blocksRun || (m.triad.proofOut && m.triad.proof == some c) then k else m.evalBlocks c k

/-! Run conditions and outputs. -/

/-- The run conditions of 07 R208 in a core; no run is possible while start-up is blocked (17 R514). -/
def Mach.runOk (m : Mach) (c : CoreId) (k : CoreState) : Bool :=
  let mode := k.insp || k.evac
  let doors := (m.blocksOf .carDoor).all (fun h => k.clear h || m.safe.grant)
    && (m.blocksOf .landingDoor).all fun h => k.clear h || (m.safe.grant && m.sideTolerated c k (if h == 0x0712 then .a else .b))
  !m.f5 && m.start.blockedAt.isNone && !(k.blocks.any fun b => b.codes.any fun x => (tripCode x || faultedCode x) && blockClass b.handle x == 5)
    && (m.blocksOf .estop).all k.clear && doors
    && decide (1 ≤ m.qualityOf (m.own c)) && !(k.block 0x0770).demand
    && (!mode || k.stnDir != 0 || k.inspEntryRun) && !k.entryOver
    && (m.blocksOf .contactor).all (fun h => !(m.roleOf h == 1 || m.roleOf h == 2) || k.clear h)
    && (mode || !k.blocks.any fun b => b.bench)

/-- Every MOTOR group is confirmed pulled. -/
def Mach.motorsPulled (m : Mach) (k : CoreState) : Bool :=
  (m.blocksOf .contactor).all fun h => m.roleOf h != 1 || (k.group (groupOfBlock h)).pulled

/-- A group's request (07 R195, R209). -/
def Mach.groupReq (m : Mach) (h : Nat) : Bool :=
  match m.roleOf h with
  | 1 => m.safe.req.run
  | 2 => m.safe.req.brake
  | 3 => bit m.safe.req.aux (groupOfBlock h)
  | _ => false

/-- A group is to be energised, but for the start check (07 R209). -/
def Mach.wants (m : Mach) (c : CoreId) (k : CoreState) (h : Nat) : Bool :=
  m.groupReq h && !(k.group (groupOfBlock h)).bar &&
    match m.roleOf h with
    | 1 => m.runOk c k
    | 2 => m.runOk c k && m.safe.req.run && m.motorsPulled k
    | 3 => !m.f5
    | _ => false

/-- Both mirrors of a group read closed at the freeze. -/
def Mach.mirrorsClosed (m : Mach) (g : Nat) : Bool :=
  m.levelAt (mirrorCh g .a) m.link.frLt && m.levelAt (mirrorCh g .b) m.link.frLt

/-- The start check (07 R238): 0x6B where a mirror is open before a group is energised; a bar ends
with the request. -/
def Mach.startChecks (m : Mach) (c : CoreId) : CoreState :=
  (m.blocksOf .contactor).foldl (fun k h =>
    let g := groupOfBlock h
    let k1 := if m.groupReq h then k else if (k.group g).bar then k.onGroup g fun x => { x with bar := false } else k
    k1.holdIf (m.wants c k1 h && !(k1.group g).energised && !m.mirrorsClosed g) h 0x6B m.ts) (m.safe.cores.get c)

/-- The commands of the channels outside OUT_SAFE (07 R194; 06 R184; 14 R461): the tether holder's. -/
def Mach.outCmd (m : Mach) : Nat :=
  let x := (List.range 64).foldl (fun x ch =>
    let mode := m.chan ch pCH_MODE
    if (mode == 5 || mode == 7) && bit m.link.cmd ch then x + 2 ^ ch else x) 0
  [Ab.a, .b].foldl (fun x s =>
    let ch := m.door s pNUDGE_CH
    if ch < 64 && m.chan ch pCH_MODE == 5 then setBit x ch ((m.doors.get s).state == 7) else x) x

/-- The bits that leave a core (07 R194, R209 to R212): none that could move the car or a door while start-up is blocked (17
R514). -/
def Mach.coreOut (m : Mach) (c : CoreId) : CoreState :=
  let k := m.safe.cores.get c
  let e := m.own c
  let live := m.start.blockedAt.isNone
  let on := (m.blocksOf .contactor).filter fun h =>
    live && m.wants c k h && ((k.group (groupOfBlock h)).energised || m.mirrorsClosed (groupOfBlock h))
  let gs := on.map groupOfBlock
  let vec := gs.foldl (fun x g => x ||| 2 ^ g ||| 2 ^ (8 + g)) m.outCmd
  let z := m.zone c k
  let permit := !m.f5 && live
  let openOk (s : Ab) : Bool := permit && (match z with
    | some l => m.serves l s && ((!k.running && e.stationary) || m.safe.grant)
    | none => false)
  let dpd (s : Ab) : Bool :=
    let h := 0x0730 + s.idx
    m.blockOn h && (let st := fbState (k.block h); st == 2 || st == 4)
  let reopen (s : Ab) : Bool := openOk s && dpd s && m.safe.req.doors.get s != 7 && m.safe.req.doors.get s != 1
  let trips := k.holds 0x0760 0x70 || k.holds 0x0760 0x72 || k.holdsAny 0x76
  { k with
    vector := vec
    groups := (List.range 8).map fun g => { k.group g with cmd := gs.contains g }
    runPermit := ⟨permit, permit⟩
    openPermit := ⟨openOk .a, openOk .b⟩
    reopenReq := ⟨reopen .a, reopen .b⟩
    ramp := (k.ramp || trips) && !e.stationary }

/-- Set a core's state. -/
def Mach.setCore (m : Mach) (c : CoreId) (k : CoreState) : Mach := { m with safe.cores := m.safe.cores.set c k }

/-- The three cores. -/
def coreIds : List CoreId := [.a, .b, .c]

/-- The start checks and the outputs of all cores, from what they hold now. -/
def Mach.outputs (m : Mach) : Mach :=
  let m1 := (m.each (coreIds.filter fun c => !(m.triad.proofOut && m.triad.proof == some c)) fun m c => m.setCore c (m.startChecks c)).syncSafety
  m1.each (coreIds.filter fun c => !(m.triad.proofOut && m.triad.proof == some c)) fun m c => m.setCore c (m.coreOut c)

/-- A trip or fault judged in the evaluation of this frame: the module's faults and the outputs
follow. -/
def Mach.judged (m : Mach) : Mach := m.syncSafety.outputs

/-- The AUX requests of the tether holder (07 R195): the spec names no rule by which it sets them, so the request
of each AUX group is a free value. -/
def Mach.auxReq (m : Mach) : Nat :=
  (m.blocksOf .contactor).foldl (fun x h =>
    let g := groupOfBlock h
    if m.roleOf h == 3 then setBit x g (bit (Config.freeValue m.free) g) else x) 0

/-- The values of 07 R195 at a freeze; during ballast hold they stay (R195), but with 0x24 in force the run request
follows the engine's mode, and the brake-open request is clear once the engine's velocity is zero (09 R290). -/
def Mach.takeRequests (m : Mach) : Mach :=
  let mode := m.eng.mode
  if m.time.ballast then
    if m.inForce 0x0600 0x24 then { m with
      safe.req.run := m.eng.spOn && mode != 0 && mode != 5
      safe.req.brake := m.safe.req.brake && m.eng.kin.v != 0 }
    else m
  else
    let k := match m.eng.exec, m.eng.pend with
      | some x, _ => x.plan.kind
      | none, some p => p.kind
      | none, none => 0
    { m with
      free := m.free + 1
      safe.req := {
        run := m.eng.spOn && mode != 0 && mode != 5
        brake := m.eng.brakeReq && !(m.pair.holder.isNone && m.eng.kin.v == 0)
        aux := m.auxReq
        bridge := m.eng.relReq
        target := m.commitTarget
        kind := k
        doors := ⟨m.doors.a.state, m.doors.b.state⟩ } }

/-- What the landing door messages and chains say over time (07 R218, R219), the chains as read at this freeze. -/
def Mach.lockClocks (m : Mach) : Mach :=
  let src := m.nat pLOCK_SOURCE
  if src == 0 then { m with safe.disagree := ⟨none, none⟩, safe.agree := ⟨none, none⟩, safe.away := [] }
  else
    let k := m.pubCore
    let z := m.zone (m.coresIn.headD .a) k
    let differ (s : Ab) : Bool := src == 2 && m.blockOn (0x0712 + s.idx) && k.pairNormal (0x0712 + s.idx) 0 != m.allMsgLocked s
    let from1 (o : Option Nat) (c : Bool) : Option Nat := if c then (match o with | some f => some f | none => some m.time.frame) else none
    let opens := if k.running then [] else m.landings.flatMap fun l => if some l == z then [] else
      ([Ab.a, .b].filter fun s => m.serves l s && m.blockOn (0x0712 + s.idx) && !m.msgLocked l s).map fun s => 2 * l + s.idx
    { m with
      safe.disagree := m.safe.disagree.map fun s o => from1 o (differ s)
      safe.agree := m.safe.agree.map fun s o => from1 o (!differ s)
      safe.away := (opens.map fun x => (x, aGet m.safe.away x m.time.frame)) ++ m.safe.away.filter fun (q : Nat × Nat) =>
        !opens.contains q.1 && m.passedMs q.2 1000 && !m.msgLocked (q.1 / 2) (abOf (q.1 % 2)) }

/-- SAFETY_EVALUATION of a frame (07 R194): the three cores, the faults they hold, their outputs. The
vector before it is the one that a vote in DOZE or PARK takes (07 R242). -/
def Mach.safetyFrame (m : Mach) : Mach :=
  let m0 := { m with safe.cores := m.safe.cores.map fun _ (k : CoreState) => { k with latched := k.vector } }
  let m1 := (m0.each coreIds fun x c => x.setCore c (m0.readCore c)).lockClocks
  let m2 := m1.each coreIds fun x c => x.setCore c (m1.evalCore c)
  let m3 := if m2.inForce 1 0x62 && m2.coresIn.all (fun c => let k := m2.safe.cores.get c; !k.rstActive && decide (8000 ≤ m2.link.frLt - k.rstSince))
    then m2.endFault 1 0x62 else m2
  m3.judged

/-- What the cores set for a frame comes into force at the next tick (07 R194; 04 R109). -/
def Mach.takeBits (m0 : Mach) : Mach :=
  let m := { m0 with safe.came := ⟨m0.latches .a, m0.latches .b, m0.latches .c⟩ }
  { m with
    safe.grant := m.bits (·.grant)
    safe.ramp := m.bits (·.ramp)
    safe.brake := if m.bits (·.brake == 1) then 1 else if m.bits (·.brake == 2) then 2 else 0 }

/-! The vote's part in the cores (07 R207, R227, R238, R239). -/

/-- A contactor after a vote. -/
def Contactor.voteSet (x : Contactor) (on : Bool) (lt : Nat) : Contactor :=
  if x.voted && x.on == on then x else { on := on, voted := true, lt := lt, wait := true, ok := false, bad := 0 }

/-- Lowest cap binding a run that starts now (07 R227). -/
def Mach.capAtStart (m : Mach) (c : CoreId) (k : CoreState) : Option Nat :=
  let l := (if k.insp then [m.nat pINSP_SPEED] else []) ++ (if k.evac then [m.nat pEVAC_SPEED] else [])
    ++ (if m.qualityOf (m.own c) == 1 then [300000] else [])
    ++ (if m.safe.req.run && m.safe.req.kind == 5 then [m.nat pHOME_SPEED] else [])
    ++ (if m.safe.req.run && m.safe.req.kind == 6 then [m.nat pLEARN_SPEED] else [])
  l.foldl (fun o x => match o with | none => some x | some y => some (min x y)) none

/-- A core after the vote of a frame: contactors, brake and run (07 R207). -/
def Mach.coreVoted (m : Mach) (c : CoreId) (bits lt : Nat) : CoreState :=
  let k := m.safe.cores.get c
  let gs := (List.range 8).map fun g =>
    let x := k.group g
    { x with cs := ⟨x.cs.a.voteSet (bit bits g) lt, x.cs.b.voteSet (bit bits (8 + g)) lt⟩ }
  let k1 := { k with groups := gs }
  let any (r : Nat) : Bool := (m.blocksOf .contactor).any fun h => m.roleOf h == r && (k1.group (groupOfBlock h)).energised
  let br := any 2
  let k2 := if k1.brakeOn == some br then k1
    else { k1 with brakeOn := some br, brakeLt := lt, brakeWait := true, brake := 0, brakeBad := ⟨0, 0⟩ }
  let run := any 1
  if run && !k2.running then
    { k2 with running := true, runCap := m.capAtStart c k2, runInsp := k2.insp, dragSeen := false, openedThisRun := false }
  else if !run && k2.running then
    { k2.dropIf (k2.openedThisRun && !k2.dragSeen) 0x0750 0x6F with running := false, runCap := none, runInsp := false, inspEntryRun := false, entryOver := false }
  else k2

/-- The vote's part in the three cores. -/
def Mach.voted (m : Mach) (bits lt : Nat) : Mach :=
  (m.each coreIds fun x c => x.setCore c (m.coreVoted c bits lt)).syncSafety

/-! Events of single blocks. -/

/-- Measurements of a block still open at L0 + N + 1 of a freeze (07 R202). -/
def Mach.expired (m : Mach) (h : Nat) (r : Meas) : Bool := decide (r.l0 + m.discTicks h + 1 ≤ m.link.frLt)

/-- A pair of the block with its expired measurements closed; evidence for R203 begins anew. -/
def Mach.expirePair (m : Mach) (h : Nat) (p : PairState) : PairState :=
  if p.handle == h && p.meas.any (m.expired h) then
    { p with meas := p.meas.filter (fun r => !m.expired h r), bothSafe := p.aSafe && p.bSafe, disc := true }
  else p

/-- DISCREPANCY_TIMEOUT in one core for one block (07 R202, R237). -/
def execDiscrepancyTimeout (c : CoreId) (h : Nat) (s : State) : Res :=
  onWhen s (s.now.blocks.contains h && (s.now.safe.cores.get c).pairs.any fun p => p.handle == h && p.meas.any (s.now.expired h)) fun m =>
    (m.core c fun k =>
      let k1 := { k with pairs := k.pairs.map (m.expirePair h) }
      k1.hold h (if blockKind h == some .dpd then 0x6A else 0x61) m.ts).judged

/-- Whether a discrepancy of a block may end at a reset edge (07 R203): both channels of each pair that it arose in
have been safe since; of a restored fault, which names no pair, those of every pair. -/
def CoreState.discOver (k : CoreState) (h : Nat) : Bool :=
  let own := k.pairs.filter fun (p : PairState) => p.handle == h
  let bad := own.filter fun (p : PairState) => p.disc
  own != [] && (if bad == [] then own else bad).all (·.bothSafe)

/-- The discrepancies of a block end at a reset edge where they may (07 R203). -/
def CoreState.endDisc (k : CoreState) (h : Nat) : CoreState :=
  if k.discOver h then
    { (k.drop h 0x61).drop h 0x6A with
      pairs := k.pairs.map fun (p : PairState) => if p.handle == h then { p with disc := false } else p }
  else k

/-- A reset edge in one core: every trip or fault whose other condition holds in the same evaluation
ends (07 R203, R206, R225, R248). -/
def Mach.resetBlock (m : Mach) (c : CoreId) (k : CoreState) (h : Nat) : CoreState :=
  let e := m.own c
  let p := k.pair h 0
  let s := if h == 0x0712 then Ab.a else .b
  let k1 := k.endDisc h
  let k2 := k1.dropIf (p.normal && !p.dip && p.meas == [] && !k1.holds h 0x61) h 0x60
  let k3 := (k2.dropIf (e.stationary && p.normal && !p.dip) h 0x63).dropIf (e.stationary && m.sideLocked k2 s) h 0x64
  let g := groupOfBlock h
  let closed := blockKind h == some .contactor && m.mirrorsClosed g
  let k4 := if k3.holds h 0x6B && closed then
      (k3.drop h 0x6B).onGroup g fun x => { x with cs := x.cs.map fun _ y => if y.on then y else { y with ok := true, wait := false } }
    else k3
  let down := !m.lifted .a m.link.frLt && !m.lifted .b m.link.frLt
  let k5 := if k4.holds h 0x6E && down then
      { k4.drop h 0x6E with
        brake := if k4.brakeOn == some true then k4.brake else 2
        brakeWait := k4.brakeWait && k4.brakeOn == some true
        brakeBad := ⟨0, 0⟩ }
    else k4
  let k6 := ((k5.dropIf (e.stationary && e.pubV ≤ m.nat pOS_UP_SAFE) h 0x71).dropIf e.stationary h 0x73).dropIf e.stationary h 0x74
  let k7 := (k6.dropIf e.stationary h 0x77).dropIf (e.stationary && m.doorsShut k6) h 0x79
  if k7.holds h 0x75 && k7.insp && e.stationary then
    { k7.drop h 0x75 with ucmRef := if m.notLocked c k7 then some e.pubP else none,
                          ucmPub := if m.notLocked c k7 then e.pubP else k7.ucmPub }
  else k7

/-- The faults of other chapters that end with a reset edge, once two voting cores have acted on it
(07 R206). -/
def Mach.resetOthers (m : Mach) : Mach :=
  if m.twoCores (fun k => k.edgeAt == some m.time.frame) then
    let st := m.stationary
    let m0 := { m with pos.est := m.pos.est.map fun _ e => { e with encOff := e.encOff && !e.stationary } }
    let m1 := ((((m0.endIf 0 0x0D (decide (1000 ≤ nth m0.time.clkGood 8 0))).endIf 1 0x36 st).endIf 1 0x43 st).endIf 1 0x44 st)
    let m2 := ((m1.endIf 2 0x5D (m1.sideClosed .a)).endIf 3 0x5D (m1.sideClosed .b))
    let m3 := ((m2.endIf 0 0x90 (decide (16 ≤ m2.link.dnGood))).endIf 0 0x91 (decide (16 ≤ m2.link.upGood)))
    m3.endIf 1 0x3C m3.inspection
  else m

/-- Codes kept in ascending order with one put in, without counting it as new. -/
def putCode (l : List Nat) (code : Nat) : List Nat :=
  if l.contains code then l else (l.filter (· < code)) ++ [code] ++ l.filter (code < ·)

/-- A reset edge on one block. After an overflow of the latch records, restored trips also need
inspection mode (17 R517). -/
def Mach.resetOne (m : Mach) (c : CoreId) (k : CoreState) (h : Nat) : CoreState :=
  let k1 := m.resetBlock c k h
  if m.safe.restoredNeedsInsp && !k.insp then
    let kept := (m.safe.restored.filter fun (x : Nat × Nat) => x.1 == h && k.holds h x.2).map fun (x : Nat × Nat) => x.2
    if kept == [] then k1 else k1.onBlock h fun b => { b with codes := kept.foldl putCode b.codes }
  else k1

/-- RESET_EDGE in one core (07 R204, R206). -/
def execResetEdge (c : CoreId) (s : State) : Res :=
  onWhen s (s.now.safe.cores.get c).rstEdge.isSome fun m =>
    let k0 := { m.safe.cores.get c with rstEdge := none, edgeAt := some m.time.frame }
    ((m.setCore c (m.blocks.foldl (m.resetOne c) k0)).syncSafety.resetOthers).judged

/-- RESET_STUCK: the input is still active 480 001 link ticks after it became active (07 R205). -/
def execResetStuck (c : CoreId) (s : State) : Res :=
  onWhen s ((s.now.safe.cores.get c).rstActive && decide ((s.now.safe.cores.get c).rstSince + 480001 ≤ s.now.link.frLt)) fun m =>
    m.raise 1 0x62 1

/-- Write a landing's lock record. -/
def Mach.setLock (m : Mach) (r : LockRec) : Mach :=
  { m with safe.locks := (m.safe.locks.filter fun x => x.landing != r.landing) ++ [r] }

/-- LOCK_MSG_TIMEOUT of a landing (07 R216, R247): its sides count as neither closed nor locked, and the
landing door interlocks that it belongs to are FAULTED, where LOCK_SOURCE has them use the messages. -/
def execLockMsgTimeout (l : Nat) (s : State) : Res :=
  let r := s.now.lockOf l
  let used := s.now.nat pLOCK_SOURCE != 0
  onWhen s (decide (l < s.now.nLandings) && (bit r.bits 4 || (used && !r.timedOut)) && decide (s.now.lockWd < s.now.since r.atF)) fun m =>
    let m1 := m.setLock { m.lockOf l with bits := setBit (m.lockOf l).bits 4 false, timedOut := used, good := 0 }
    if !used then m1 else
    (m1.each coreIds fun m c => m.core c fun k =>
      [Ab.a, .b].foldl (fun k s => k.holdIf (m.serves l s && m.blockOn (0x0712 + s.idx)) (0x0712 + s.idx) 0x66 m.ts) k).judged

/-- LOCK_SOURCE_DISAGREE of a side (07 R218). -/
def execLockSourceDisagree (side : Ab) (s : State) : Res :=
  onWhen s (match s.now.safe.disagree.get side with
    | some f => s.now.passedMs f (s.now.nat pLOCK_DISAGREE_TIME)
    | none => false) fun m =>
    (m.each coreIds fun m c => m.core c fun k => k.hold (0x0712 + side.idx) 0x67 m.ts).judged

/-- LANDING_DOOR_AWAY (07 R219). -/
def execLandingDoorAway (s : State) : Res :=
  onWhen s (s.now.safe.away.any fun (q : Nat × Nat) => s.now.passedMs q.2 1000) fun m =>
    let open1 (s : Ab) : Bool := m.landings.any fun l => m.awayLate (2 * l + s.idx)
    (m.each coreIds fun m c => m.core c fun k =>
      [Ab.a, .b].foldl (fun k s => k.holdIf (open1 s) (0x0712 + s.idx) 0x65 m.ts) k).judged

/-- INSP_STOP_TIMEOUT: a run kept at the entry of inspection mode ends at this vote (07 R234). -/
def execInspStopTimeout (s : State) : Res :=
  onWhen s (coreIds.any fun c =>
      let k := s.now.safe.cores.get c
      k.inspEntryRun && s.now.passedMs k.inspSince (s.now.nat pINSP_STOP_TIME)) fun m =>
    (m.each coreIds fun m c => m.core c fun k =>
      if k.inspEntryRun && m.passedMs k.inspSince (m.nat pINSP_STOP_TIME) then { k with inspEntryRun := false, entryOver := k.running } else k).judged

/-- A check of a contactor of a group is due and has not passed. -/
def Mach.contactorLate (m : Mach) (c : CoreId) (g : Nat) (on : Bool) (x : Contactor) : Bool :=
  let _ := c
  x.wait && x.on == on && decide (m.contactorDue g x ≤ m.link.frLt)

/-- CONTACTOR_PULL_TIMEOUT of a group in one core (07 R238). -/
def execContactorPullTimeout (c : CoreId) (g : Nat) (s : State) : Res :=
  let x := (s.now.safe.cores.get c).group g
  onWhen s (s.now.blockOn (0x0740 + g) && (s.now.contactorLate c g true x.cs.a || s.now.contactorLate c g true x.cs.b)) fun m =>
    (m.core c fun k => (k.onGroup g fun x =>
      { x with bar := true, cs := x.cs.map fun _ y => if m.contactorLate c g true y then { y with wait := false } else y }).hold
        (0x0740 + g) 0x6C m.ts).judged

/-- CONTACTOR_DROP_TIMEOUT of a group in one core (07 R238). -/
def execContactorDropTimeout (c : CoreId) (g : Nat) (s : State) : Res :=
  let x := (s.now.safe.cores.get c).group g
  onWhen s (s.now.blockOn (0x0740 + g) && (s.now.contactorLate c g false x.cs.a || s.now.contactorLate c g false x.cs.b)) fun m =>
    (m.core c fun k => (k.onGroup g fun x =>
      { x with cs := x.cs.map fun _ y => if m.contactorLate c g false y then { y with wait := false } else y }).hold
        (0x0740 + g) 0x6B m.ts).judged

/-- The groups of role BRAKE are barred until the request is clear (07 R209). -/
def Mach.barBrakes (m : Mach) (k : CoreState) : CoreState :=
  (m.blocksOf .contactor).foldl (fun k h => if m.roleOf h == 2 then k.onGroup (groupOfBlock h) fun x => { x with bar := true } else k) k

/-- BRAKE_OPEN_TIMEOUT in one core (07 R239). -/
def execBrakeOpenTimeout (c : CoreId) (s : State) : Res :=
  let k := s.now.safe.cores.get c
  onWhen s (k.brakeWait && k.brakeOn == some true && decide (s.now.brakeDue k ≤ s.now.link.frLt)) fun m =>
    (m.core c fun k => m.barBrakes ({ k with brakeWait := false }.hold 0x0750 0x6D m.ts)).judged

/-- BRAKE_CLOSE_TIMEOUT in one core (07 R239). -/
def execBrakeCloseTimeout (c : CoreId) (s : State) : Res :=
  let k := s.now.safe.cores.get c
  onWhen s (k.brakeWait && k.brakeOn == some false && decide (s.now.brakeDue k ≤ s.now.link.frLt)) fun m =>
    (m.core c fun k => { k with brakeWait := false }.hold 0x0750 0x6E m.ts).judged

/-- TSL_SWITCH of a block in one core (07 R230). -/
def execTslSwitch (c : CoreId) (h : Nat) (s : State) : Res :=
  onWhen s (blockKind h == some .tsl && s.now.blockOn h
      && (decide (4 ≤ aGet (s.now.safe.cores.get c).tslRun h 0) || s.now.chatters h)) fun m =>
    (m.core c fun k => k.hold h 0x78 m.ts).judged

end Sys2Proof.Machine
end

