-- ==== Sys2Proof/Machine/Cabinet.lean ====
section
/-!
DEFINITION. The cabinet (chapter 08) but for the commit: its values and digest, the change log,
passwords, login and sessions, staging.
-/
namespace Sys2Proof.Machine

open Sys2Proof

/-- Every row of the parameter table. -/
def allRows : List PRow := (List.range 14).flatMap ptabOf

/-- The CAB rows of a kind of unit, as IDs in ascending order. -/
def cabIds (k : Home) : List Nat :=
  (allRows.filter fun r => r.home == k && r.acc == .cab).flatMap fun r => (List.range r.n).map (r.id + ·)

/-- Handles that carry CAB values, ascending (08 R267). -/
def cabHandles : List Nat :=
  [0, 2, 3] ++ (List.range 64).map chHandle ++ [0x0200, 0x0201, 0x0300, 0x0400] ++ blockHandles
    ++ (List.range 256).map landingHandle

/-- The CAB IDs of a handle as it carries them. -/
def cabIdsOf (h : Nat) : List Nat :=
  match homeOf h with
  | none => []
  | some k =>
    let l := (cabIds k).filter fun id => k != .block || (attrApplies h id && !(id == pFB_ENABLE && blockAlways h))
    if h == 3 || h == 0x0201 then l.map (· + 0x40) else l

/-- The bytes of one CAB value in the digest (08 R267). -/
def cabBytes (l : List ParamCell) (h id : Nat) : List Nat :=
  match rowFor h id with
  | some r => let v := encodeVal r (cellVal l h id); le 2 h ++ le 2 id ++ le 2 v.length ++ v
  | none => []

/-- The cabinet digest of values (08 R267). -/
def cabDigestOf (l : List ParamCell) : List Nat :=
  sha512 (cabHandles.flatMap fun h => (cabIdsOf h).flatMap fun id => cabBytes l h id)

/-- A parameter's access code is CAB. -/
def isCab (h id : Nat) : Bool :=
  match rowFor h id with
  | some r => r.acc == .cab
  | none => false

/-- The CAB cells of a list of values. -/
def cabCells (l : List ParamCell) : List ParamCell := l.filter fun c => isCab c.handle c.id

/-! The change log (08 R265), held in the MRAM from 0x34_0000. -/

/-- Address of the entry with a sequence number. -/
def logAddr (seq : Nat) : Nat := 0x340000 + 256 * ((seq + 1023) % 1024)

/-- What an entry says beside its sequence number, time and value hashes. -/
structure LogFields where
  gen : Nat
  slot : Nat
  kind : Nat
  status : Nat
  unit : Nat
  param : Nat
  count : Nat
  index : Nat
  deriving DecidableEq, Repr

/-- SHA-512 of a value's bytes; a hash of an absent value is zero. -/
def hashOf (v : Option (List Nat)) : List Nat :=
  match v with
  | some b => sha512 b
  | none => List.replicate 64 0

/-- The 256 bytes of an entry. -/
def logBytes (seq wall time boot : Nat) (f : LogFields) (old new : Option (List Nat)) : List Nat :=
  let b := le 4 seq ++ le 8 wall ++ le 8 time ++ le 4 boot ++ le 4 f.gen ++ [f.slot % 256, f.kind, f.status, 0]
    ++ le 2 f.unit ++ le 2 f.param ++ le 2 f.count ++ le 2 f.index ++ hashOf old ++ hashOf new ++ List.replicate 76 0
  b ++ le 4 (crc32c b) ++ le 4 seq ++ le 4 markValid

/-- The entry in a slot is valid. -/
def Mach.logValid (m : Mach) (seq : Nat) : Bool := leAt (m.peek (logAddr seq + 252) 4) 0 4 == markValid

/-- Append an entry in the record write order (08 R265). -/
def Mach.logAppend (m : Mach) (f : LogFields) (old new : Option (List Nat)) : Mach :=
  let seq := m.cab.head + 1
  let a := logAddr seq
  let b := logBytes seq m.wall m.ts m.sec.boots f old new
  let m1 := { m with
    cab.head := seq
    cab.overwrites := if m.logValid seq then sat32 m.cab.overwrites else m.cab.overwrites }
  ((m1.poke (a + 252) [0, 0, 0, 0]).poke a (b.take 252)).poke (a + 252) (b.drop 252)

/-- Change the status of an entry that is held. -/
def Mach.logStatus (m : Mach) (seq st : Nat) : Mach :=
  let a := logAddr seq
  let b := (m.peek a 244).take 30 ++ [st] ++ (m.peek a 244).drop 31
  ((m.poke (a + 252) [0, 0, 0, 0]).poke (a + 30) [st]).poke (a + 244) (le 4 (crc32c b) ++ le 4 seq ++ le 4 markValid)

/-- An entry that names no value. -/
def Mach.logEvent (m : Mach) (kind slot unit : Nat) : Mach := m.logAppend ⟨0, slot, kind, 0, unit, 0, 1, 0⟩ none none

/-! Passwords (08 R253). -/

/-- Characters and length of a password. -/
def passwordOk (p : List Nat) : Bool := decide (10 ≤ p.length) && decide (p.length ≤ 32) && p.all fun c => decide (0x20 ≤ c) && decide (c ≤ 0x7E)

/-- H_k for the remaining rounds. -/
def hashRounds : Nat → List Nat → List Nat → List Nat
  | 0, h, _ => h
  | n + 1, h, pwd => hashRounds n (sha512 (h ++ pwd)) pwd

/-- H_10000 (08 R253). -/
def passwordHash (salt : List Nat) (slot : Nat) (pwd : List Nat) : List Nat :=
  hashRounds 9999 (sha512 (salt ++ [slot] ++ pwd)) pwd

/-! The MRAM of the cabinet (08 R250): copies A and B, state blocks A and B. -/

/-- Address of a configuration copy, of 0x1_F000 bytes (08 R250). -/
def copyAddr (x : Ab) : Nat := 0x300000 + 0x20000 * x.idx

/-- Address of a state block, of 0x1000 bytes (08 R250). -/
def blockAddr (x : Ab) : Nat := 0x31F000 + 0x20000 * x.idx

/-- A state block passes its check: none of its words is unusable (08 R268; 01 R19). -/
def Mach.blockOk (m : Mach) (x : Ab) : Bool := !m.damaged (blockAddr x) 0x1000

/-- The digest of a copy matches its content (08 R268): the two are written together, so that it does unless a
word of the copy is unusable (01 R19; 13 R436). -/
def Mach.copyOk (m : Mach) (x : Ab) : Bool := !m.damaged (copyAddr x) 0x1F000

/-- The state block that is read: A, or B where A fails its check; none where both do (08 R268). -/
def Mach.blockRead (m : Mach) : Option Ab := if m.blockOk .a then some .a else if m.blockOk .b then some .b else none

/-- The slot records; with neither state block, every slot is empty (08 R268). -/
def Mach.creds (m : Mach) : List Cred :=
  match m.blockRead with
  | some x => m.cab.creds.get x
  | none => CabinetState.reset.creds.a

/-- Failure count and lockout time as last written (08 R259). -/
def Mach.lockSaved (m : Mach) : Nat × Nat :=
  match m.blockRead with
  | some x => m.cab.locked.get x
  | none => (0, 0)

/-- Both state blocks are written (08 R255, R259). -/
def Mach.writeBlocks (m : Mach) (l : List Cred) (k : Nat × Nat) : Mach :=
  (({ m with cab.creds := ⟨l, l⟩, cab.locked := ⟨k, k⟩ } : Mach).written (blockAddr .a) 0x1000).written (blockAddr .b) 0x1000

/-- Both state blocks record the failure count and the lockout time remaining (08 R259). -/
def Mach.saveLock (m : Mach) (fails left : Nat) : Mach := { m with cab.locked := ⟨(fails, left), (fails, left)⟩ }

/-- A configuration copy is written (08 R264). -/
def Mach.writeCopy (m : Mach) (x : Ab) (mark : Bool) (gen : Nat) (vals : List ParamCell) : Mach :=
  ({ m with cab.copies := m.cab.copies.set x ⟨mark, gen, vals⟩ } : Mach).written (copyAddr x) 0x1F000

/-- A copy is usable: its mark is valid and its digest matches (08 R268). -/
def Mach.usable (m : Mach) (x : Ab) : Bool := (m.cab.copies.get x).mark && m.copyOk x

/-- The copy with the higher generation among the usable ones. -/
def Mach.newestCopy (m : Mach) : Option CabCopy :=
  let a := m.cab.copies.a
  let b := m.cab.copies.b
  if m.usable .a && m.usable .b then some (if a.gen < b.gen then b else a)
  else if m.usable .a then some a else if m.usable .b then some b else none

/-- The record of a slot. -/
def Mach.cred (m : Mach) (slot : Nat) : Cred := nth m.creds slot Cred.reset

/-- A slot has a password. -/
def Mach.slotSet (m : Mach) (slot : Nat) : Bool := (m.cred slot).hash != []

/-- CAB_SLOTS_SET (08 R271). -/
def Mach.slotsSet (m : Mach) : Nat := sumN ((List.range 4).map fun i => if m.slotSet i then 2 ^ i else 0)

/-- A fresh 32-byte salt from the secure element (08 R255). -/
def Mach.drawSalt (m : Mach) : Mach × List Nat := ({ m with free := m.free + 1 }, (List.range 32).map (Config.randomByte m.free))

/-- CAB_STATE (08 R271): 0 NO_SESSION, 1 LOGIN_PENDING, 2 SESSION, 3 COMMIT_PENDING, 4 LOCKED_OUT. -/
def Mach.cabState (m : Mach) : Nat :=
  if m.cab.commit.isSome then 3 else if m.cab.session.isSome then 2 else if m.cab.login.isSome then 1
  else if 0 < m.cab.lockout then 4 else 0

/-- Frames of a session: 900 s (08 R257). -/
def sessionFrames : Nat := sF 900

/-- CAB_SESSION_LEFT in ms. -/
def Mach.sessionLeft (m : Mach) : Nat := if m.session then (sessionFrames - m.since m.cab.sessAt) / 4 else 0

/-- CAB_LOCKOUT_LEFT in s. -/
def Mach.lockoutLeft (m : Mach) : Nat := (m.cab.lockout + 3999) / 4000

/-- Lockout after a number of failures, in minutes (08 R258). -/
def lockoutMin (n : Nat) : Nat := if n < 5 then 0 else if n ≤ 12 then 10 * 2 ^ (n - 5) else 1440

/-- CAB_LOGIN (08 R256). -/
def execCabLogin (tag slot : Nat) (pwd : List Nat) (s : State) : Res := serve s 0x80 tag fun m =>
  if 0 < m.cab.lockout then refuse m stLOCKED_OUT
  else if m.session || m.cab.login.isSome then refuse m stBUSY
  else pending { m with cab.login := some ⟨slot, pwd, tag, m.time.frame⟩ }

/-- A failed login (08 R258, R259). -/
def Mach.loginFailed (m : Mach) (tag slot : Nat) : Mach :=
  let n := satAdd 8 m.cab.fails 1
  let d := lockoutMin n
  let m1 := { m with cab.login := none, cab.fails := n, cab.lockout := 60 * sF d }.saveLock n (60 * d)
  (if 0 < d then (m1.raise 0 0xE8 1).post 7 2 0 0 (60 * d) else m1).completed 0x80 tag stDENIED 0 slot

/-- The staged set of a new session: with no configuration in force it starts from the values of the copy with the
higher generation (08 R270), of which a copy holds those that differ from their defaults; else it is empty. -/
def Mach.firstStaged (m : Mach) : List Staged :=
  if m.noConfig then ((m.newestCopy.map fun (c : CabCopy) => c.vals).getD []).map fun (c : ParamCell) => ⟨c.handle, c.id, c.val⟩
  else []

/-- LOGIN_VERIFIED (08 R256): every core that is not excluded has computed the hash, and it matches the record
stored; one written in this frame is usable from the next (R255). -/
def execLoginVerified (agree : Three Bool) (s : State) : Res :=
  match s.now.cab.login with
  | none => .next s
  | some r => on s fun m =>
    let c := s.shown.cred r.slot
    if decide (r.slot < 4) && s.shown.slotSet r.slot && passwordOk r.pwd && m.coresIn.all agree.get
        && passwordHash c.salt r.slot r.pwd == c.hash then
      ({ m with
        cab.login := none
        cab.session := some r.slot
        cab.staged := m.firstStaged
        cab.sessAt := m.time.frame
        cab.fails := 0 }.saveLock 0 m.lockoutLeft).completed 0x80 r.tag stOK 0 r.slot
    else m.loginFailed r.tag r.slot

/-- CAB_LOCKOUT_END: the lockout time has elapsed (08 R258). -/
def execCabLockoutEnd (s : State) : Res :=
  onWhen s (s.now.cab.lockout == 0 && s.now.inForce 0 0xE8) fun m => (m.saveLock m.cab.fails 0).endFault 0 0xE8

/-- LOCKOUT_STATE_WRITE once per second of a lockout (08 R259). -/
def execLockoutStateWrite (s : State) : Res :=
  onWhen s (decide (0 < s.now.cab.lockout) && decide (s.now.lockoutLeft < s.now.lockSaved.2)) fun m =>
    m.saveLock m.cab.fails m.lockoutLeft

/-- End the session (08 R257): the staged set is discarded, a learning run and the session's benches
end. The event names the cause: 0 expiry, 1 logout, 2 keep-alive (14 R467). -/
def Mach.endSession (m : Mach) (cause : Nat) : Mach :=
  if m.session then
    ({ m with
      cab.session := none
      cab.logoutReq := false
      cab.staged := [] }.endBenches.endLearn).post 7 1 0 cause 0
  else { m with cab.logoutReq := false }

/-- CAB_LOGOUT (08 R257): the session ends at the next tick. -/
def execCabLogout (tag : Nat) (s : State) : Res := serve s 0x81 tag fun m =>
  ok { m with cab.logoutReq := m.session }

/-- SESSION_EXPIRED after 900 s (08 R257). -/
def execSessionExpired (s : State) : Res :=
  onWhen s (s.now.session && decide (sessionFrames ≤ s.now.since s.now.cab.sessAt)) fun m => m.endSession 0

/-- A unit whose attributes can be staged, or which has none: the fixed units, every block of the table of 07 R192,
every landing and every group that is defined (08 R260). -/
def Mach.stageable (m : Mach) (h : Nat) : Bool := h == 0 || (blockKind h).isSome || (homeOf h == some .landing) || m.exists h

/-- How a staged entry is judged (08 R260). -/
def Mach.stageStatus (m : Mach) (e : StageEntry) : Nat :=
  if !m.stageable e.handle then stUNIT_UNKNOWN
  else match rowFor e.handle e.id with
    | none => stBAD_PARAM
    | some r =>
      if r.acc != .cab || ((blockKind e.handle).isSome && (!attrApplies e.handle e.id || (e.id == pFB_ENABLE && blockAlways e.handle))) then stBAD_PARAM
      else match decodeVal r e.val with
        | none => stBAD_PARAM
        | some v => if valueOk r v then stOK else stBAD_PARAM

/-- A stage entry as it is held. -/
def stagedOf (e : StageEntry) : Staged :=
  match rowFor e.handle e.id with
  | some r => ⟨e.handle, e.id, decodeElems r r.count e.val⟩
  | none => ⟨e.handle, e.id, []⟩

/-- CAB_STAGE (08 R260). -/
def execCabStage (tag : Nat) (entries : List StageEntry) (s : State) : Res := serve s 0x82 tag fun m =>
  let sts := entries.map m.stageStatus
  let new := (entries.map stagedOf).foldl stagePut m.cab.staged
  if !m.session then refuse m stDENIED
  else if m.cab.commit.isSome then refuse m stBUSY
  else if sts.contains stBAD_PARAM || 2048 < new.length then refuse m stBAD_PARAM
  else if sts.contains stUNIT_UNKNOWN then refuse m stUNIT_UNKNOWN
  else ({ m with cab.staged := new }, stOK, le 2 new.length)

/-- CAB_DISCARD (08 R261). -/
def execCabDiscard (tag : Nat) (s : State) : Res := serve s 0x84 tag fun m =>
  if !m.session then refuse m stDENIED
  else if m.cab.commit.isSome then refuse m stBUSY
  else ok { m with cab.staged := [] }

/-- How CAB_PASSWORD is judged (08 R254, R255). -/
def Mach.passwordStatus (m : Mach) (slot : Nat) (pwd : List Nat) : Nat :=
  let form := if pwd == [] || passwordOk pwd then stPENDING else stBAD_PARAM
  match m.cab.session with
  | none =>
    if m.slotsSet != 0 || slot != 0 || pwd == [] then stDENIED
    else if !m.still then stWRONG_MODE
    else form
  | some 0 => if 3 < slot || (slot == 0 && pwd == []) then stBAD_PARAM else form
  | some k => if slot != k || pwd == [] then stDENIED else form

/-- CAB_PASSWORD (08 R254, R255). -/
def execCabPassword (tag slot : Nat) (pwd : List Nat) (s : State) : Res := serve s 0x86 tag fun m =>
  if m.cab.pwd.isSome then refuse m stBUSY
  else
    let st := m.passwordStatus slot pwd
    if st == stPENDING then pending { m with cab.pwd := some ⟨slot, pwd, tag, m.time.frame, m.cab.session.getD 0⟩ }
    else refuse m st

/-- PASSWORD_WRITTEN (08 R255): the record is written when every core that is not excluded has
computed the same value, and the change is logged. -/
def execPasswordWritten (agree : Three Bool) (s : State) : Res :=
  match s.now.cab.pwd with
  | none => .next s
  | some r => on s fun m =>
    let m0 := { m with cab.pwd := none }
    if m.coresIn.all agree.get then
      let d := m0.drawSalt
      let c : Cred := if r.pwd == [] then Cred.reset else ⟨d.2, passwordHash d.2 r.slot r.pwd⟩
      ((d.1.writeBlocks (updAt d.1.creds r.slot fun _ => c) d.1.lockSaved).logEvent (if r.pwd == [] then 2 else 1) r.bySlot r.slot).completed
        0x86 r.tag stOK 0 0
    else m0.completed 0x86 r.tag stDENIED 0 0

/-- The oldest entry still held (08 R265). -/
def Mach.logOldest (m : Mach) : Nat := if m.cab.head ≤ 1024 then 1 else m.cab.head - 1023

/-- A change-log entry passes its sequence and mark checks (08 R265, R266). -/
def Mach.logGood (m : Mach) (seq : Nat) : Bool :=
  let b := m.peek (logAddr seq) 256
  leAt b 0 4 == seq && leAt b 248 4 == seq && leAt b 252 4 == markValid

/-- CAB_LOG_READ (08 R266). An entry that fails its checks fails every attempt of the copy rules (13 R432). -/
def execCabLogRead (tag first count : Nat) (s : State) : Res := serve s 0x85 tag fun m =>
  if count < 1 || 15 < count then refuse m stBAD_PARAM
  else
    let lost := decide (first < m.logOldest) && decide (1 ≤ first)
    let a := max first m.logOldest
    let n := min count (m.cab.head + 1 - a)
    if !((List.range n).all fun i => m.logGood (a + i)) then refuse m stRETRY
    else (m, stOK, le 4 m.cab.head ++ le 4 m.cab.overwrites ++ [b2n lost, n]
      ++ (List.range n).flatMap fun i => m.peek (logAddr (a + i)) 256)

end Sys2Proof.Machine
end

