-- ==== Sys2Proof/Machine/Channels.lean ====
section
/-!
DEFINITION. The 64 field channels as the field controller works them (chapter 10): configuration
records, inputs, outputs, supplies, test pulses, bench, and the host commands on channels.
-/
namespace Sys2Proof.Machine

open Sys2Proof

/-! Configuration records (10 R303). -/

/-- CH_DEBOUNCE in link ticks (10 R319). -/
def debounceTicks (e user : Nat) : Nat :=
  if e == 0 then 0 else if e == 15 then user else 2 ^ (e - 1)

/-- The values of a commit that is past its commit point and not in force yet (08 R264). -/
def Mach.comingCab (m : Mach) : Option (List ParamCell) :=
  match m.cab.commit with
  | some r => if r.phase == 2 then some r.vals else none
  | none => none

/-- An attribute with the writes and the cabinet values that take effect in the next frame (10 R334). -/
def Mach.soon (m : Mach) (h id : Nat) : Nat :=
  match m.deferred.reverse.find? fun d => d.handle == h && d.id == id with
  | some d => (d.val.headD 0).toNat
  | none => match m.comingCab with
    | some l => if isCab h id then ((cellVal l h id).headD 0).toNat else m.natAt h id
    | none => m.natAt h id

/-- Pack a record: mode, debounce, safe state, input safe level, pulse source, retry count and delay
from the most significant bit down (10 R303). -/
def packCfg (mode deb safe inSafe src count delay : Nat) : Nat :=
  ((((((mode * 2 ^ 14 + deb) * 4 + safe) * 2 + inSafe) * 128 + src) * 16 + count) * 65536) + delay

/-- The record of a channel from the attributes in force. -/
def Mach.cfgBits (m : Mach) (c : Nat) : Nat :=
  let h := chHandle c
  let src := m.soon h pCH_PULSE_SRC
  packCfg (m.soon h pCH_MODE) (debounceTicks (m.soon h pCH_DEBOUNCE) (m.soon 0 pDEBOUNCE_USER)) (m.soon h pCH_SAFE_STATE)
    (m.soon h pCH_IN_SAFE) (if src == 0xFF then 0x7F else src) (m.soon h pCH_RETRY_COUNT) (m.soon h pCH_RETRY_DELAY)

/-- The record the field controller holds before it has received one: every attribute at its default. -/
def cfgBlank : Nat := packCfg 0 32 0 0 0x7F 3 1000

/-- The record in force at the field controller. -/
def Mach.fieldCfg (m : Mach) (c : Nat) : Nat :=
  ((m.field.cfg.find? fun r => r.ch == c).map (·.bits)).getD cfgBlank

/-- Mode at the field controller. -/
def Mach.fMode (m : Mach) (c : Nat) : Nat := Machine.field (m.fieldCfg c) 47 44

/-- Debounce in link ticks at the field controller. -/
def Mach.fDebounce (m : Mach) (c : Nat) : Nat := Machine.field (m.fieldCfg c) 43 30

/-- Safe state at the field controller: 0 OFF, 1 ON, 2 HOLD. -/
def Mach.fSafe (m : Mach) (c : Nat) : Nat := Machine.field (m.fieldCfg c) 29 28

/-- Input safe level at the field controller. -/
def Mach.fInSafe (m : Mach) (c : Nat) : Bool := bit (m.fieldCfg c) 27

/-- Pulse source at the field controller. -/
def Mach.fSrc (m : Mach) (c : Nat) : Option Nat :=
  let s := Machine.field (m.fieldCfg c) 26 20
  if s == 0x7F then none else some s

/-- Retry count at the field controller. -/
def Mach.fRetries (m : Mach) (c : Nat) : Nat := Machine.field (m.fieldCfg c) 19 16

/-- Retry delay in ms at the field controller. -/
def Mach.fDelay (m : Mach) (c : Nat) : Nat := Machine.field (m.fieldCfg c) 15 0

/-- Bytes of a number, most significant first. -/
def beBytes (n x : Nat) : List Nat := be n x

/-- The image over which the configuration digest runs (10 R308, R310): the 64 records and
LINK_TIMEOUT (notes/assumptions/33.md). -/
def cfgImage (rec0 : Nat → Nat) (tmo : Nat) : List Nat := (List.range 64).flatMap (fun c => beBytes 6 (rec0 c)) ++ le 4 tmo

/-- The digest the field controller reports. -/
def Mach.fieldDigestNow (m : Mach) : Nat := crc32c (cfgImage m.fieldCfg m.field.tmo)

/-- The digest each core computes from the attributes in force. -/
def Mach.coreDigestNow (m : Mach) : Nat := crc32c (cfgImage m.cfgBits (m.soon 0 pLINK_TIMEOUT))

/-- The queue entry that stands for the global record. -/
def globalRec : Nat := 64

/-- Put records in the queue of those still to be sent. -/
def Mach.queueCfg (m : Mach) (l : List Nat) : Mach :=
  { m with link.cfgQueue := (m.link.cfgQueue.filter fun c => !l.contains c) ++ l }

/-- Every record, as after a reset of the field controller. -/
def Mach.queueAllCfg (m : Mach) : Mach := m.queueCfg (List.range 65)

/-! Domains and inputs. -/

/-- Domain of a channel (chapter 10). -/
def domainOf (c : Nat) : Ab := if c < 32 then .a else .b

/-- DOMAIN_STATE of a channel. -/
def Mach.domState (m : Mach) (c : Nat) : Nat := (m.field.domains.get (domainOf c)).state

/-- A domain that reports its inputs at their safe levels (10 R312). -/
def domInOff (st : Nat) : Bool := st == 2 || st == 3 || st == 5

/-- A domain in LOW or worse, which holds the wire-break counts at zero (10 R320). -/
def domHolds (st : Nat) : Bool := st == 1 || domInOff st

/-- A domain whose outputs are off (10 R312, R313). -/
def domOutOff (st : Nat) : Bool := domInOff st || st == 6

/-- A channel in one of the input modes. -/
def inputMode (mode : Nat) : Bool := 1 ≤ mode && mode ≤ 4

/-- A channel in one of the output modes. -/
def outputMode (mode : Nat) : Bool := 5 ≤ mode && mode ≤ 7

/-- IN of a channel (10 R307, R311, R312, R315, R320, R331, R333). An output carries its driver state,
as STATE does (R335). -/
def Mach.inNow (m : Mach) (c : Nat) : Bool :=
  let mode := m.fMode c
  if outputMode mode then bit m.field.driver c
  else if mode == 0 || bit m.field.unitOff c || m.field.timeout || domInOff (m.domState c) then m.fInSafe c
  else if bit m.field.bench c then bit m.field.benchVal c
  else if bit m.field.wire c then m.fInSafe c
  else bit m.field.inBits c

/-- The channel being pulsed. -/
def Mach.pulsed (m : Mach) (c : Nat) : Bool :=
  match m.field.pulse with
  | some p => p.ch == c
  | none => false

/-- RB of a channel (10 R325): clear while it is pulsed. -/
def Mach.rbNow (m : Mach) (c : Nat) : Bool := bit m.field.rb c && !m.pulsed c

/-- CH_STATUS (10 R335). -/
def Mach.chStatus (m : Mach) (c : Nat) : Nat :=
  let f := m.field
  b2n (if outputMode (m.fMode c) then bit f.driver c && !m.pulsed c else m.inNow c) + 2 * b2n (m.rbNow c) + 4 * b2n (bit f.wire c)
    + 8 * b2n (bit f.undef c) + 16 * b2n (bit f.limit c) + 32 * b2n (bit f.overtemp c) + 64 * b2n (bit f.short c)
    + 128 * b2n (bit f.cross c) + 256 * b2n (bit f.pulseFail c) + 512 * b2n (bit f.bench c)
    + 1024 * b2n (domOutOff (m.domState c)) + 2048 * b2n (bit f.retry c)

/-- CH_STATUS as the logic side has it (10 R335): STATE and READBACK from the newest valid up-frame, bits [9:2] and
the domain from the diagnostic fields received; RETRY_WAIT, which no field carries, as it stands
(notes/assumptions/33.md). -/
def Mach.statusOf (m : Mach) (c : Nat) : Nat :=
  let dom := Machine.field m.link.sup (if c < 32 then 39 else 35) (if c < 32 then 36 else 32)
  b2n (bit m.link.upIn c) + 2 * b2n (bit m.link.upRb c) + 4 * (nth m.link.stat (c / 8) 0 / 2 ^ (8 * (c % 8)) % 256)
    + 1024 * b2n (m.link.upAt.isSome && domOutOff dom) + 2048 * b2n (bit m.field.retry c)

/-! Reports to the cores (10 R311; the table under R330). -/

/-- The field controller reports a fault; the cores take it at their next valid freeze. -/
def Mach.report (m : Mach) (unit code cls : Nat) : Mach :=
  { m with field.reports := m.field.reports ++ [(unit, code, cls + 1)] }

/-- It reports that a condition has ended. -/
def Mach.reportEnd (m : Mach) (unit code : Nat) : Mach :=
  { m with field.reports := m.field.reports ++ [(unit, code, 0)] }

/-- The reports as the cores take them. -/
def Mach.takeReports (m : Mach) : Mach :=
  { (m.each m.field.reports fun m r => if r.2.2 == 0 then m.endFault r.1 r.2.1 else m.raise r.1 r.2.1 (r.2.2 - 1)) with
    field.reports := [] }

/-- A fault is held at a class: raised where it is not in force, and taken at the new class where
another domain has changed it. -/
def Mach.holdAt (m : Mach) (code cls : Nat) : Mach :=
  if m.faults.any fun f => f.unit == 0 && f.code == code && f.cls == cls then m
  else { m with faults := m.faults.filter fun f => !(f.unit == 0 && f.code == code) }.raise 0 code cls

/-- Class of a supply fault by the domains that hold it (10 R337). -/
def supplyClass (code : Nat) (a : Bool) : Nat :=
  if code == 0x86 || code == 0x89 then 1 else if a then 5 else 3

/-- The supply faults of both domains as the cores take them (10 R337), and the fallback (R314). -/
def Mach.takeSupplies (m : Mach) : Mach :=
  let ds := m.field.domains
  let m1 := m.each [0x86, 0x87, 0x88, 0x89, 0x8A] fun m code =>
    if ds.a.codes.contains code || ds.b.codes.contains code then m.holdAt code (supplyClass code (ds.a.codes.contains code))
    else m.endFault 0 code
  if m.field.fallback && ds.a.sampled && ds.b.sampled then m1.raise 0 0x94 5 else m1.endIf 0 0x94 (!m.field.fallback)

/-! Outputs (10 R311 to R314, R322 to R327). -/

/-- A driver may be on (10 R312 to R315, R323, R324, R333): nothing holds it off. -/
def Mach.mayDrive (m : Mach) (c : Nat) : Bool :=
  let f := m.field
  !domOutOff (m.domState c) && !bit f.groupsOff (c / 8) && !bit f.blocked c && !bit f.unitOff c && !bit f.retry c
    && !f.fallback && f.booted

/-- An OUT_SAFE output that a limit has switched off is energised again only with its die below 145 °C; one that is on
stays on (10 R323). -/
def Mach.mayEnergise (m : Mach) (c : Nat) : Bool :=
  bit m.field.driver c || !(m.fMode c == 6 && (bit m.field.overtemp c || bit m.field.limit c) && decide (1450 ≤ aGet m.field.temp c 0))

/-- What an output follows: its bench value or the bit decided (10 R315, R331). -/
def Mach.wanted (m : Mach) (c : Nat) : Bool :=
  let mode := m.fMode c
  if mode == 5 && bit m.field.bench c then bit m.field.benchVal c
  else outputMode mode && bit m.field.decided c

/-- Switch a driver. Switching on counts in CH_OPS (10 R334; 13 R422) and, after a limit, starts its
10 s (R323); RB follows the driver. Switching off during its pulse discards the pulse (R330). -/
def Mach.drive (m : Mach) (c : Nat) (on : Bool) : Mach :=
  if bit m.field.driver c == on then m
  else if on then
    { (m.count 9 0 c) with
      field.driver := setBit m.field.driver c true
      field.rb := setBit m.field.rb c true
      field.ops := aSet m.field.ops c (sat32 (aGet m.field.ops c 0))
      field.ranFrom := if bit m.field.limit c || aGet m.field.retries c 99 != 99
        then aSet m.field.ranFrom c m.time.frame else m.field.ranFrom }
  else
    { m with
      field.driver := setBit m.field.driver c false
      field.rb := setBit m.field.rb c false
      field.ranFrom := aDel m.field.ranFrom c
      field.pulse := m.field.pulse.map fun p => if p.ch == c then { p with discarded := true } else p }

/-- The outputs stay in their safe states: during a link time-out (10 R311), and once the fault of the FLD
clock has stopped the field controller driving them (02 R54). -/
def Mach.outputsHeld (m : Mach) : Bool := m.field.timeout || m.inForce 0 0x0D

/-- Every output of a list as it may and should be, in ascending order. -/
def Mach.driveAll (m : Mach) (l : List Nat) : Mach :=
  if m.outputsHeld then m else m.each l fun m c => m.drive c (m.mayDrive c && m.mayEnergise c && m.wanted c)

/-- Switch off every output of a list, in ascending order. -/
def Mach.allOff (m : Mach) (l : List Nat) : Mach := m.each l fun m c => m.drive c false

/-- The channels of a domain, ascending. -/
def domainChannels (d : Ab) : List Nat := (List.range 32).map fun k => 32 * d.idx + k

/-- The channels of a group, ascending. -/
def groupChannels (g : Nat) : List Nat := (List.range 8).map fun k => 8 * g + k

/-- One output takes its programmed safe state (10 R311, R327): OFF, ON or HOLD. A link timeout never
energises an OUT_SAFE channel, and none that may not be driven; before its first vote the field controller
holds every output off (18 R537). -/
def Mach.driveSafe (m : Mach) (c : Nat) : Mach :=
  let on := match m.fSafe c with
    | 1 => m.fMode c != 6 && m.mayDrive c
    | 2 => bit m.field.driver c
    | _ => false
  m.drive c (on && m.field.votedOnce && outputMode (m.fMode c))

/-- Every output takes its programmed safe state, ascending. -/
def Mach.safeStates (m : Mach) : Mach := m.each (List.range 64) Mach.driveSafe

/-- LINK_TIMEOUT in link ticks, rounded up (10 R311). -/
def linkTicks (us : Nat) : Nat := (4 * us + 24) / 25

/-- The link-tick index in progress. -/
def Mach.ltNow (m : Mach) : Nat := ltIndex m.time.frame m.link.lt

/-- LINK_TIMEOUT (10 R311). -/
def execLinkTimeout (s : State) : Res :=
  onWhen s (s.now.field.booted && !s.now.field.timeout && decide (linkTicks s.now.field.tmo ≤ s.now.ltNow - s.now.field.lastValid)) fun m =>
    let m1 := m.safeStates
    { m1 with
      field.timeout := true
      field.recover := 0
      field.sawSync := false
      link.timeouts := sat32 m.link.timeouts }.report 0 0x90 5

/-! Supplies (10 R312 to R314). -/

/-- State that two samples in 10 mV give a domain (10 R312), where nothing was latched. -/
def supplyState (s1 s2 : Nat) : Nat :=
  let below (x : Nat) : Bool := decide (s1 < x) && decide (s2 < x)
  let above (x : Nat) : Bool := decide (x < s1) && decide (x < s2)
  if below 900 then 3 else if below 1500 then 2 else if below 1920 then 1
  else if above 3600 then 5 else if above 3300 then 4 else 0

/-- Every supply fault of a state (10 R312, R337). -/
def supplyCodes (st : Nat) : List Nat :=
  match st with
  | 1 => [0x86] | 2 => [0x86, 0x87] | 3 => [0x86, 0x87, 0x88] | 4 => [0x89] | 5 => [0x89, 0x8A] | _ => []

/-- The range a sample lies in: 0 below 9.0 V, 1 below 15.0 V, 2 below 19.2 V, 3 to 33.0 V, 4 to 36.0 V, 5 above. -/
def supplyRange (x : Nat) : Nat :=
  if x < 900 then 0 else if x < 1500 then 1 else if x < 1920 then 2 else if x ≤ 3300 then 3 else if x ≤ 3600 then 4 else 5

/-- The range a domain is in. -/
def DomainRec.range (d : DomainRec) : Nat :=
  match d.state with
  | 3 => 0 | 2 => 1 | 1 => 2 | 4 => 4 | 5 => 5
  | _ => if d.codes.contains 0x89 then 4 else if d.state == 6 && d.codes.contains 0x86 then 2 else 3

/-- DOMAIN_STATE of a range. -/
def rangeState (r : Nat) : Nat :=
  match r with
  | 0 => 3 | 1 => 2 | 2 => 1 | 4 => 4 | 5 => 5 | _ => 0

/-- What two consecutive samples make of a domain's supply (10 R312): a threshold that only one of them lies
beyond is not crossed; the first two place it directly. -/
def domainSupply (d : DomainRec) (s1 s2 : Nat) : Nat :=
  if !d.sampled then supplyState s1 s2
  else
    let a := supplyRange s1
    let b := supplyRange s2
    rangeState (max (min a b) (min d.range (max a b)))

/-- The next state of a domain (10 R312, R313): an off state is left through WAIT_REARM alone. -/
def domainNext (d : DomainRec) (s1 s2 : Nat) : Nat :=
  let st := domainSupply d s1 s2
  if !d.sampled then st
  else if domOutOff d.state then (if domInOff st then (if d.state == 3 && st == 2 then 3 else st) else d.state)
  else st

/-- The codes a domain holds after two samples: 0x86 ends in NORMAL and HIGH, 0x89 in NORMAL, the
others at the re-arm (10 R337). -/
def domainCodes (d : DomainRec) (st s1 s2 : Nat) : List Nat :=
  let kept := d.codes.filter fun c =>
    if c == 0x86 then !(st == 0 || st == 4) else if c == 0x89 then st != 0 else true
  kept ++ (supplyCodes (domainSupply d s1 s2)).filter fun c => !kept.contains c

/-- A supply from 19.2 V to 33.0 V. -/
def supplyGood (v : Nat) : Bool := decide (1920 ≤ v) && decide (v ≤ 3300)

/-- VF of a domain as measured now, in 10 mV (10 R312, R313). -/
def Mach.vfSample (m : Mach) (d : Ab) (v : Nat) : Mach :=
  let r := m.field.domains.get d
  let since := if supplyGood v then (match r.okSince with
    | some f => some f
    | none => some m.time.frame) else none
  { m with field.domains := m.field.domains.set d { r with vf := v, okSince := since } }

/-- SUPPLY_THRESHOLD (10 R312, R314): two consecutive samples of a domain. -/
def Mach.supplyThreshold (m : Mach) (d : Ab) (s1 s2 : Nat) : Mach :=
  let r := m.field.domains.get d
  let st := domainNext r s1 s2
  let m1 := { m with field.domains := m.field.domains.set d { r with
    state := st
    sampled := true
    heldTo := if domHolds r.state then m.ltNow else r.heldTo
    codes := domainCodes r st s1 s2 } }.vfSample d s2
  let m2 := { m1 with
    field.fallback := decide (m1.field.domains.a.vf < 900) && decide (m1.field.domains.b.vf < 900) }
  if m2.field.fallback then m2.allOff (List.range 64)
  else if domOutOff st then m2.allOff (domainChannels d) else m2

/-- SUPPLY_THRESHOLD. -/
def execSupplyThreshold (d : Ab) (s1 s2 : Nat) (s : State) : Res :=
  onWhen s s.now.field.booted fun m => m.supplyThreshold d s1 s2

/-- DOMAIN_WAIT_REARM (10 R313): the supply has stayed in range for 100 ms. -/
def execDomainWaitRearm (d : Ab) (s : State) : Res :=
  let r := s.now.field.domains.get d
  onWhen s (domInOff r.state && (match r.okSince with
    | some f => s.now.passedMs f 100
    | none => false)) fun m =>
    { m with field.domains := m.field.domains.set d { m.field.domains.get d with state := 6, heldTo := m.ltNow } }

/-- A re-arm at the SYNC (10 R313): a domain returns to NORMAL and its latched faults end; a group
returns to the vote. -/
def Mach.rearm (m : Mach) (target : Nat) : Mach :=
  if target == 0x10 || target == 0x11 then
    let d := if target == 0x10 then Ab.a else .b
    let r := m.field.domains.get d
    if r.state == 6 then
      { m with field.domains := m.field.domains.set d { r with state := 0, codes := [] } }
    else m
  else if bit m.field.groupsOff target && !domOutOff (m.domState (8 * target)) then
    { (m.each (groupChannels target) fun m c => m.reportEnd (chHandle c) 0x8B) with
      field.groupsOff := setBit m.field.groupsOff target false }
  else m

/-! Input events (10 R318 to R320). -/

/-- A channel's inputs are evaluated: an input mode, powered, and not reported at its safe level. -/
def Mach.evaluates (m : Mach) (c : Nat) : Bool :=
  m.field.booted && decide (c < 64) && inputMode (m.fMode c) && !domInOff (m.domState c)

/-- The 1600-sample count of a channel (10 R320): held at zero while the domain is LOW or worse, it takes of a row of
samples those since the end of that. -/
def Mach.wireCount (m : Mach) (c samples : Nat) : Nat :=
  if domHolds (m.domState c) then 0 else min samples (m.ltNow - (m.field.domains.get (domainOf c)).heldTo)

/-- The wire break of a channel ends after 1600 good samples (10 R320). -/
def Mach.wireEnds (m : Mach) (c samples : Nat) : Mach :=
  if bit m.field.wire c && decide (1600 ≤ m.wireCount c samples) then
    { m with field.wire := setBit m.field.wire c false }.reportEnd (chHandle c) 0x80
  else m

/-- How a sample is read (10 R318): in mV at the terminal, in IN_WB in µA; none in the undefined band. In IN_WB
one below 0.35 mA is read at the input safe level. -/
def Mach.readBand (m : Mach) (c x : Nat) : Option Bool :=
  let at1 (on off : Nat) : Option Bool := if on ≤ x then some true else if x ≤ off then some false else none
  match m.fMode c with
  | 1 => at1 15000 5000
  | 3 => if x < 350 then some (m.fInSafe c) else at1 2000 1600
  | _ => at1 11000 5000

/-- So many consecutive samples read at a level, or in the undefined band (10 R319, R335): the debounced state
follows the level once there are enough; a sample in the undefined band keeps it. -/
def Mach.debounced (m : Mach) (c : Nat) (level : Option Bool) (samples : Nat) : Mach :=
  let m1 := { m with field.undef := setBit m.field.undef c level.isNone }
  match level with
  | none => m1
  | some v =>
    if bit m1.field.inBits c != v && decide (max 1 (m.fDebounce c) ≤ samples) then
      { (m1.count 9 1 c) with
        field.inBits := setBit m1.field.inBits c v
        field.trans := aSet m1.field.trans c (sat32 (aGet m1.field.trans c 0)) }
    else m1

/-- INPUT_DEBOUNCED (10 R318 to R320): the last sample, how many in a row lay in its band, and how many in a row
at 0.35 mA or more. -/
def execInputDebounced (c : Nat) (x : InSample) (samples : Nat) (s : State) : Res :=
  onWhen s (s.now.evaluates c && samples != 0) fun m => (m.wireEnds c x.unbroken).debounced c (m.readBand c x.reading) samples

/-- WIRE_BREAK (10 R318, R320): a sample below 0.35 mA reads at the input safe level; 1600 of them in
a row are a wire break. -/
def Mach.wireBreak (m : Mach) (c samples : Nat) : Mach :=
  let m1 := m.debounced c (some (m.fInSafe c)) samples
  if decide (1600 ≤ m.wireCount c samples) && !bit m.field.wire c then
    { m1 with field.wire := setBit m1.field.wire c true }.report (chHandle c) 0x80 2
  else m1

/-- WIRE_BREAK. -/
def execWireBreak (c samples : Nat) (s : State) : Res :=
  onWhen s (s.now.evaluates c && s.now.fMode c == 3 && samples != 0) fun m =>
    m.wireBreak c samples

/-! Output events (10 R323 to R325). -/

/-- Class of a fault of an output: F4 or F5 for OUT_SAFE, F2 otherwise (10 R337). -/
def Mach.outClass (m : Mach) (c worst : Nat) : Nat := if m.fMode c == 6 then worst else 2

/-- Switch an output off for a limit (10 R323): retried after its delay while retries are left, else
off until a vote or a command has de-energised it. -/
def Mach.limitOff (m : Mach) (c : Nat) : Mach :=
  let m1 := m.drive c false
  let left := aGet m.field.retries c (m.fRetries c)
  if m.fMode c != 6 && left != 0 then
    { m1 with
      field.retry := setBit m1.field.retry c true
      field.retryAt := aSet m1.field.retryAt c (m.time.frame + msF (m.fDelay c))
      field.retries := aSet m1.field.retries c (left - 1) }
  else { m1 with field.blocked := setBit m1.field.blocked c true }

/-- OUTPUT_LIMIT (10 R323): 5 ms in current limit, or a die at 165 °C. -/
def execOutputLimit (c : Nat) (cause : LimitCause) (s : State) : Res :=
  onWhen s (decide (c < 64) && outputMode (s.now.fMode c) && bit s.now.field.driver c && (match cause with
    | .current us => decide (5000 ≤ us)
    | .temp t => decide (1650 ≤ t))) fun m =>
    let m1 := m.limitOff c
    match cause with
    | .current _ => { m1 with field.limit := setBit m1.field.limit c true }.report (chHandle c) 0x81 (m.outClass c 4)
    | .temp t => { m1 with
        field.overtemp := setBit m1.field.overtemp c true
        field.temp := aSet m1.field.temp c t }.report (chHandle c) 0x82 (m.outClass c 4)

/-- OUTPUT_RETRY (10 R323): after CH_RETRY_DELAY, with the die below 145 °C. -/
def execOutputRetry (c : Nat) (s : State) : Res :=
  onWhen s (bit s.now.field.retry c && decide (aGet s.now.field.retryAt c 0 ≤ s.now.time.frame)
      && decide (aGet s.now.field.temp c 0 < 1450)) fun m =>
    { m with
      field.retry := setBit m.field.retry c false
      field.retryAt := aDel m.field.retryAt c }.driveAll [c]

/-- GROUP_OVERLOAD (10 R324). -/
def execGroupOverload (g ma us : Nat) (s : State) : Res :=
  onWhen s (decide (g < 8) && !bit s.now.field.groupsOff g
      && ((decide (4000 < ma) && decide (1000000 ≤ us)) || (decide (6000 < ma) && decide (10000 ≤ us)))) fun m =>
    (({ m with field.groupsOff := setBit m.field.groupsOff g true }.allOff (groupChannels g)).each (groupChannels g) fun m c =>
      m.report (chHandle c) 0x8B (if g ≤ 1 then 5 else 3))

/-- RB of an output from its terminal voltage in mV (10 R325): set from 11.0 V, clear to 5.0 V, else as before. -/
def Mach.readBack (m : Mach) (c mv : Nat) : Mach :=
  if outputMode (m.fMode c) && (decide (11000 ≤ mv) || decide (mv ≤ 5000)) then
    { m with field.rb := setBit m.field.rb c (decide (11000 ≤ mv)) }
  else m

/-- SHORT_SUPPLY of a channel ends (10 R325). -/
def Mach.shortOver (m : Mach) (c : Nat) : Mach :=
  { m with
    field.short := setBit m.field.short c false
    field.clearAt := aDel m.field.clearAt c }.reportEnd (chHandle c) 0x83

/-- A link tick of a channel marked SHORT_SUPPLY: 320 of them in a row with the driver off and RB clear end the
mark (10 R325). -/
def Mach.shortTick (m : Mach) (c : Nat) : Mach :=
  if bit m.field.driver c || bit m.field.rb c then { m with field.clearAt := aDel m.field.clearAt c }
  else
    let from_ := aGet m.field.clearAt c m.ltNow
    if 320 ≤ m.ltNow - from_ then m.shortOver c else { m with field.clearAt := aSet m.field.clearAt c from_ }

/-- SHORT_TO_SUPPLY (10 R325): RB has stayed set for so many link ticks with the driver off; none: RB
has become clear. -/
def execShortToSupply (c ticks : Nat) (s : State) : Res :=
  onWhen s (decide (c < 64) && outputMode (s.now.fMode c) && !bit s.now.field.driver c) fun m =>
    if ticks == 0 then { m with field.rb := setBit m.field.rb c false }
    else
      let m1 := { m with field.rb := setBit m.field.rb c true }
      if decide (320 ≤ ticks) && !bit m.field.short c && !bit m.field.cross c then
        { m1 with field.short := setBit m1.field.short c true }.report (chHandle c) 0x83 (m.outClass c 5)
      else m1

/-! Test pulses (10 R328 to R330, R321). -/

/-- The channel that the SYNC of a frame names for a pulse (10 R328). -/
def Mach.pulseName (m : Mach) : Option Nat :=
  let i := m.fc % 256
  let c := i % 64
  let mode := m.chan c pCH_MODE
  if (i / 64 == 0 && mode == 6) || (i / 64 == 2 && mode == 7) then some c
  else if ((i / 64 == 1 && mode == 6) || (i / 64 == 3 && mode == 7)) && bit m.field.reserve c then some c
  else none

/-- Link tick 4 (10 R328, R329): the named channel is switched off when it is on. A reserve slot
whose channel is off leaves it to its primary slot (R330). -/
def Mach.pulseStart (m : Mach) : Mach :=
  match m.field.named with
  | none => m
  | some c =>
    let m1 := { m with
      field.named := none
      field.reserve := setBit m.field.reserve c false }
    if bit m.field.driver c then { m1 with field.pulse := some ⟨c, false, m.field.inBits, m.field.driver⟩ } else m1

/-- End of a mark that faults 0x84 and 0x8D share. -/
def Mach.uncross (m : Mach) (c code : Nat) : Mach :=
  { m with field.cross := setBit m.field.cross c (m.inForce (chHandle c) (if code == 0x84 then 0x8D else 0x84)) }.reportEnd
    (chHandle c) code

/-- Mark a channel CROSS; SHORT_SUPPLY gives way to it (10 R325). -/
def Mach.markCross (m : Mach) (c : Nat) : Mach :=
  let m1 := { m with
    field.cross := setBit m.field.cross c true
    field.short := setBit m.field.short c false }
  if bit m.field.short c then m1.reportEnd (chHandle c) 0x83 else m1

/-- The outputs whose RB followed a pulse (10 R329) with their driver unchanged since its start, on or off. -/
def Mach.crossed (m : Mach) (c drv : Nat) (followers : List Nat) : List Nat :=
  followers.filter fun d => d != c && decide (d < 64) && outputMode (m.fMode d) && bit m.field.driver d == bit drv d

/-- The inputs checked against a pulse (10 R321): on at its start, with a pulse source. -/
def Mach.checkedInputs (m : Mach) (c ins : Nat) : List Nat :=
  (List.range 64).filter fun i =>
    inputMode (m.fMode i) && bit ins i && (match m.fSrc i with
      | some src => src == c || m.fMode c == 7
      | none => false)

/-- An input is found fed from elsewhere: by another source during its own source's pulse, or by
this channel although its source is another (10 R321). -/
def Mach.fedElsewhere (m : Mach) (c : Nat) (inp : PulseIn) (i : Nat) : Bool :=
  if m.fSrc i == some c then inp.held.contains i else inp.followers.contains i

/-- The input checks of a pulse (10 R321, R337). -/
def Mach.checkInputs (m : Mach) (c ins : Nat) (inp : PulseIn) : Mach :=
  let l := m.checkedInputs c ins
  let other := l.any fun i => m.fedElsewhere c inp i && m.fSrc i != some c
  let m1 := m.each l fun m i =>
    if m.fedElsewhere c inp i then
      let cls := if m.chNamed i then 5 else 2
      let m2 := (m.markCross i).report (chHandle i) 0x8D cls
      if m.fSrc i == some c then m2 else m2.report (chHandle c) 0x8D cls
    else if m.inForce (chHandle i) 0x8D then m.uncross i 0x8D else m
  if !other && l != [] && m.inForce (chHandle c) 0x8D then m1.reportEnd (chHandle c) 0x8D else m1

/-- A pulse has passed (10 R329). -/
def Mach.pulsePassed (m : Mach) (c : Nat) : Mach :=
  let m1 := { m with
    field.pulseFail := setBit m.field.pulseFail c false
    field.lastTp := aSet m.field.lastTp c m.ts }
  if bit m.field.pulseFail c then m1.reportEnd (chHandle c) 0x85 else m1

/-- A pulse has shown other outputs connected with its channel (10 R329, R337). -/
def Mach.pulseCrossed (m : Mach) (c : Nat) (ds : List Nat) : Mach :=
  let cls := if (c :: ds).any fun d => m.fMode d == 6 then 5 else 2
  { m.each (c :: ds) fun m d => (m.markCross d).report (chHandle d) 0x84 cls with field.xcPartner := ds.head? }

/-- The judgement of a pulse that was not discarded (10 R329), with its result. -/
def Mach.judgePulse (m : Mach) (c drv : Nat) (inp : PulseIn) : Mach × Nat :=
  let ds := m.crossed c drv inp.followers
  let m1 := if inp.rb then m else m.pulsePassed c
  let m2 :=
    if ds != [] then m1.pulseCrossed c ds
    else if inp.rb then { m1 with field.pulseFail := setBit m1.field.pulseFail c true }.report (chHandle c) 0x85 (m.outClass c 5)
    else if m.inForce (chHandle c) 0x84 then m1.uncross c 0x84 else m1
  (m2, if inp.rb then 2 else 1)

/-- TEST_PULSE_END (10 R329, R330): the driver comes back on, unless it was switched off meanwhile. -/
def execTestPulseEnd (inp : PulseIn) (s : State) : Res :=
  match s.now.field.pulse with
  | none => .next s
  | some p => on s fun m =>
    let m0 := { m with
      field.pulse := none
      field.xcPartner := none }
    if p.discarded then
      { m0 with
        field.reserve := setBit m0.field.reserve p.ch true
        field.tpResult := some (p.ch, 3) }
    else
      let r := m0.judgePulse p.ch p.drv inp
      { (r.1.checkInputs p.ch p.ins inp) with field.tpResult := some (p.ch, r.2) }

/-! What a frame brings the channels. -/

/-- The end of limits, over-temperature and STARTING (10 R323, R333, R337). -/
def Mach.channelFrame (m : Mach) : Mach :=
  let ran := m.field.ranFrom.filter fun p => decide (sF 10 ≤ m.time.frame - p.2)
  let m1 := m.each ran fun m p =>
    { m with
      field.limit := setBit m.field.limit p.1 false
      field.ranFrom := aDel m.field.ranFrom p.1
      field.retries := aDel m.field.retries p.1 }.reportEnd (chHandle p.1) 0x81
  let cool := (bitsOf m.field.overtemp).filter fun c => decide (aGet m.field.temp c 0 < 1450)
  let m2 := m1.each cool fun m c =>
    { m with field.overtemp := setBit m.field.overtemp c false }.reportEnd (chHandle c) 0x82
  m2.each (m.units.filter fun u => 0x0100 ≤ u.handle && u.handle ≤ 0x013F && u.own == .starting && decide (u.since < m.time.frame)) fun m u =>
    m.cell u.handle fun x => { x with own := .on, since := m.time.frame }

/-- Currents, temperatures and supplies of a frame (10 R334, R336; 13 R422). -/
def Mach.fieldSamples (m : Mach) (inp : FrameIn) : Mach :=
  let m1 := { m with
    field.current := inp.chCur
    field.temp := inp.chTemp
    field.groupCur := inp.groupCur
    field.die := inp.die }
  let m2 := (m1.each inp.chCur fun m p => m.extreme 9 p.1 (p.2 : Nat)).each inp.term fun m p => m.readBack p.1 p.2
  let m3 := (m2.vfSample .a (minOf inp.vf.a)).vfSample .b (minOf inp.vf.b)
  ((m3.extreme 7 3 inp.die).extreme 7 4 (minOf inp.vf.a : Nat)).extreme 7 5 (minOf inp.vf.b : Nat)

/-! Channel units (10 R333; 01 R30 to R35). -/

/-- UNIT_ENABLE and UNIT_DISABLE are denied for a channel that safety uses (10 R333). -/
def Mach.chProtected (m : Mach) (c : Nat) : Bool :=
  m.chan c pCH_MODE == 6 || m.chNamed c || m.nat pRESET_CH == c

/-- UNIT_DISABLE of a channel (10 R333): an output switches its driver off and stops, an input is
OFF. -/
def Mach.chOff (m : Mach) (c : Nat) : Mach :=
  let h := chHandle c
  let m1 := { m with field.unitOff := setBit m.field.unitOff c true }.drive c false
  let st := if outputMode (m.chan c pCH_MODE) then UState.stopping else .off
  m1.cell h fun u => { u with own := st, since := m.time.frame, pend := false }

/-- UNIT_ENABLE of a channel (10 R333): STARTING for one frame. -/
def Mach.chOn (m : Mach) (c : Nat) : Mach :=
  let m1 := { m with field.unitOff := setBit m.field.unitOff c false }
  m1.cell (chHandle c) fun u => { u with own := .starting, since := m.time.frame, pend := false }

/-- CHANNEL_STOPPING_END (10 R333): RB clear, or 10 ms passed. An enable pending starts it at the next
tick (01 R33). -/
def execChannelStoppingEnd (c : Nat) (s : State) : Res :=
  let u := s.now.cellAt (chHandle c)
  onWhen s (decide (c < 64) && u.own == .stopping && (!bit s.now.field.rb c || s.now.passedMs u.since 10)) fun m =>
    m.cell (chHandle c) fun x => { x with own := .off, since := m.time.frame }

/-! Bench (10 R331, R332; 07 R240). -/

/-- The blocks that name a channel. -/
def Mach.namers (m : Mach) (c : Nat) : List Nat := m.blocks.filter fun h => (m.namedBy h).contains c

/-- A block is in BENCH (07 R196, R240): a core holds one of its channels at its normal level. -/
def Mach.benched (m : Mach) (h : Nat) : Bool := m.coresIn.any fun c => ((m.safe.cores.get c).block h).bench

/-- BENCH_SET on a channel is refused under 07 R240. -/
def Mach.benchDenied (m : Mach) (c : Nat) : Bool :=
  let l := m.namers c
  let car := fun h => blockKind h == some .carDoor
  let land := fun h => blockKind h == some .landingDoor
  l.any (fun h => !(car h || land h || blockKind h == some .dpd) || m.unread h)
    || (l.any car && (m.blocksOf .landingDoor).any m.benched) || (l.any land && (m.blocksOf .carDoor).any m.benched)

/-- The normal level of a channel (07 R199): on, but off for channel B of an ANTIVALENT pair. -/
def Mach.normalLevel (m : Mach) (c : Nat) : Bool :=
  !(m.pairSpecs.any fun sp => sp.chB == c && sp.anti)

/-- The orders of BENCH_SET for one channel, each with its entry of the change log (08 R265): an order replaces the one
before, which is logged here where it has not been applied. -/
def Mach.benchOrder (m : Mach) (b : BenchRec) : Mach :=
  let m1 := m.each (m.link.benches.filter fun (o : BenchRec) => o.ch == b.ch && o.due) fun m o => m.logEvent 4 o.slot o.ch
  { m1 with link.benches := (m1.link.benches.filter fun (o : BenchRec) => o.ch != b.ch) ++ [b] }

/-- BENCH_SET (10 R331): bench, its value and its end take effect at the SYNC of the next frame. -/
def Mach.benchSet (m : Mach) (ch on val : Nat) : Mach × Nat × List Nat :=
  if 64 ≤ ch || 2 ≤ on || 2 ≤ val then refuse m stBAD_PARAM
  else
    let mode := m.chan ch pCH_MODE
    match m.cab.session with
    | none => refuse m stDENIED
    | some slot =>
      if !m.inspection then refuse m stWRONG_MODE
      else if mode == 6 || mode == 7 || mode == 0 then refuse m stDENIED
      else if m.benchDenied ch then refuse m stDENIED
      else ok (m.benchOrder ⟨ch, if m.chNamed ch then m.normalLevel ch else val == 1, slot, m.time.frame, on == 1, true⟩)

/-- BENCH_SET. -/
def execBenchSet (tag ch bOn val : Nat) (s : State) : Res := serve s 0x44 tag fun m => m.benchSet ch bOn val

/-- BENCH_END (10 R332): the end of inspection mode, of the session, or an F5 ends every bench at the
SYNC of the frame after. -/
def execBenchEnd (s : State) : Res :=
  onWhen s (s.now.link.benches != [] && (!s.now.inspection || s.now.cab.session.isNone || s.now.f5)) Mach.endBenches

/-- A bench record is applied at a SYNC (10 R303, R331, R332): the channel's bench begins, takes a value or ends, with
its entry of the change log. An order that has been carried out is not sent again. -/
def Mach.benchApply (m : Mach) (x : Nat × Bool × Bool) : Mach :=
  let m1 := { m with
    field.bench := setBit m.field.bench x.1 x.2.1
    field.benchVal := if x.2.1 then setBit m.field.benchVal x.1 x.2.2 else m.field.benchVal }
  let m2 := m1.each (m.link.benches.filter fun (b : BenchRec) => b.ch == x.1 && b.due) fun m b => m.logEvent 4 b.slot b.ch
  { m2 with link.benches := (m2.link.benches.map fun (b : BenchRec) => if b.ch == x.1 then { b with due := false } else b).filter fun b =>
    b.due || b.on }

/-- Benches at a SYNC: the records received in the frame before (10 R303). -/
def Mach.benchSync (m : Mach) : Mach :=
  let l := m.field.benchNext
  ({ m with field.benchNext := [] }.each l Mach.benchApply).driveAll ((l.map fun (x : Nat × Bool × Bool) => x.1).filter fun c => m.fMode c == 5)

/-- Every bench ends with the loss of VIN or a restart, each with its entry of the change log (10 R332). -/
def Mach.benchesLost (m : Mach) : Mach :=
  m.each (m.link.benches.filter fun (b : BenchRec) => b.due || b.on) fun m b => m.logEvent 4 b.slot b.ch

/-! Host commands on channels (14 R460, R461; 10 R313). -/

/-- CH_CONFIG (10 R334; 14 R458): as UNIT_SET on the channel; its record follows. -/
def Mach.chConfig (m : Mach) (tag ch : Nat) (es : List SetEntry) : Mach × Nat × List Nat :=
  if 64 ≤ ch then refuse m stUNIT_UNKNOWN
  else
    let r := m.setEntries (0x40, tag) (chHandle ch) es fun _ _ _ => 0
    if r.2.1 == 0 then (r.1.queueCfg [ch], r.2) else r

/-- CH_CONFIG. -/
def execChConfig (tag ch : Nat) (entries : List SetEntry) (s : State) : Res := serve s 0x40 tag fun m => m.chConfig tag ch entries

/-- CH_READ (14 R460): IN and RB as received, then CH_STATUS and CH_CURRENT per channel. -/
def execChRead (tag first count : Nat) (s : State) : Res :=
  serve s 0x41 tag fun m =>
    if count == 0 || 64 ≤ first || 64 < first + count then refuse m stBAD_PARAM
    else
      let o := s.shown
      (m, stOK, le 8 o.link.upIn ++ le 8 o.link.upRb ++ ((List.range count).flatMap fun k =>
        le 2 (o.statusOf (first + k)) ++ le 2 (aGet o.field.current (first + k) 0)))

/-- CH_WRITE (14 R461). -/
def Mach.chWrite (m : Mach) (mask vals : Nat) : Mach × Nat × List Nat :=
  let l := bitsOf mask
  if l.any fun c => !(m.chan c pCH_MODE == 5 || m.chan c pCH_MODE == 7) || m.chNamed c || m.nat pRESET_CH == c then refuse m stBAD_PARAM
  else
    let old := m.link.cmdNext.getD (0, 0)
    ok { m with link.cmdNext := some (old.1 ||| mask, (old.2 &&& (2 ^ 64 - 1 - mask)) ||| (vals &&& mask)) }

/-- CH_WRITE. -/
def execChWrite (tag mask vals : Nat) (s : State) : Res := serve s 0x42 tag fun m => m.chWrite mask vals

/-- The tether holder takes the commands of CH_WRITE at the freeze (14 R461). -/
def Mach.takeCommands (m : Mach) : Mach :=
  match m.link.cmdNext with
  | none => m
  | some (mask, vals) =>
    if m.pair.holder.isNone || m.time.ballast then m
    else
      { m with
        link.cmd := (m.link.cmd &&& (2 ^ 64 - 1 - mask)) ||| vals
        link.cmdNext := none }

/-- GROUP_REARM (10 R313). -/
def Mach.groupRearm (m : Mach) (target : Nat) : Mach × Nat × List Nat :=
  let take := ok { m with link.rearm := m.link.rearm ++ [(target, m.time.frame)] }
  if target == 0x10 || target == 0x11 then
    let st := (m.field.domains.get (if target == 0x10 then Ab.a else .b)).state
    if st == 6 then take else if domInOff st then refuse m stWRONG_MODE else ok m
  else if 8 ≤ target then refuse m stBAD_PARAM
  else if !bit m.field.groupsOff target then ok m
  else if domOutOff (m.domState (8 * target)) then refuse m stWRONG_MODE
  else take

/-- GROUP_REARM. -/
def execGroupRearm (tag target : Nat) (s : State) : Res := serve s 0x43 tag fun m => m.groupRearm target

/-- Re-arms at a SYNC (10 R303, R313): the records received in the frame before. -/
def Mach.rearmSync (m : Mach) : Mach :=
  let l := m.field.armNext
  { m with
    field.armNext := []
    link.rearm := m.link.rearm.filter fun (r : Nat × Nat) => !l.contains r.1 }.each l Mach.rearm

end Sys2Proof.Machine
end

