-- ==== Sys2Proof/Machine/Float.lean ====
section
/-!
DEFINITION. IEEE 754 binary64 arithmetic with round to nearest, ties to even (03 R72), on exact
dyadic values. Values beyond the binary64 range do not arise from 32-bit positions and speeds; no
infinity is modelled (notes/assumptions/5.md).
-/
namespace Sys2Proof

open Machine

/-- Remove factors of two, at most so many. -/
def stripTwos : Nat → Nat → Int → Nat × Int
  | 0, m, e => (m, e)
  | n + 1, m, e => if m % 2 == 0 then stripTwos n (m / 2) (e + 1) else (m, e)

/-- Magnitude m · 2^e rounded to 53 significant bits (fewer below 2^-1022), ties to even. -/
def roundMag (m : Nat) (e : Int) : Nat × Int :=
  if m == 0 then (0, 0) else
  let bits := Nat.log2 m + 1
  let s1 : Int := (bits : Int) - 53
  let s2 : Int := -1074 - e
  let s := if s1 < s2 then s2 else s1
  if s ≤ 0 then (m, e)
  else
    let k := s.toNat
    let q := m >>> k
    let r := m - q * 2 ^ k
    let h := 2 ^ (k - 1)
    let q' := if h < r || (r == h && q % 2 == 1) then q + 1 else q
    (q', e + s)

/-- The binary64 value nearest to m · 2^e. -/
def Dbl.make (m : Int) (e : Int) : Dbl :=
  let r := roundMag m.natAbs e
  if r.1 == 0 then Dbl.zero
  else
    let s := stripTwos 64 r.1 r.2
    let s' := stripTwos 1100 s.1 s.2
    ⟨if m < 0 then -(s'.1 : Int) else (s'.1 : Int), s'.2⟩

/-- An integer rounded to binary64. -/
def Dbl.ofInt (x : Int) : Dbl := Dbl.make x 0

/-- x scaled so that its exponent is e (e is at most its exponent). -/
def Dbl.scaled (x : Dbl) (e : Int) : Int := x.mant * (2 ^ (x.exp - e).toNat : Nat)

/-- Sum. -/
def Dbl.add (x y : Dbl) : Dbl :=
  let e := if x.exp < y.exp then x.exp else y.exp
  Dbl.make (x.scaled e + y.scaled e) e

/-- Opposite. -/
def Dbl.neg (x : Dbl) : Dbl := ⟨-x.mant, x.exp⟩

/-- Difference. -/
def Dbl.sub (x y : Dbl) : Dbl := x.add y.neg

/-- Product. -/
def Dbl.mul (x y : Dbl) : Dbl := Dbl.make (x.mant * y.mant) (x.exp + y.exp)

/-- Quotient; a division by zero gives zero and does not arise. -/
def Dbl.div (x y : Dbl) : Dbl :=
  if y.mant == 0 then Dbl.zero else
  let k := Nat.log2 y.mant.natAbs + 64
  let n := x.mant.natAbs * 2 ^ k
  let d := y.mant.natAbs
  let q := n / d
  let m := 2 * q + (if n % d == 0 then 0 else 1)
  let sgn := (x.mant < 0) != (y.mant < 0)
  Dbl.make (if sgn then -(m : Int) else (m : Int)) (x.exp - y.exp - (k : Int) - 1)

/-- The binary64 value nearest to a fraction. -/
def Dbl.ofRat (n : Int) (d : Nat) : Dbl := (Dbl.ofInt n).div (Dbl.ofInt d)

/-- x < y. -/
def Dbl.lt (x y : Dbl) : Bool :=
  let e := if x.exp < y.exp then x.exp else y.exp
  decide (x.scaled e < y.scaled e)

/-- Magnitude. -/
def Dbl.abs (x : Dbl) : Dbl := ⟨x.mant.natAbs, x.exp⟩

/-- The nearest integer, halves away from zero (03 R72). -/
def Dbl.round (x : Dbl) : Int :=
  if 0 ≤ x.exp then x.mant * (2 ^ x.exp.toNat : Nat) else halfAway x.mant (2 ^ (-x.exp).toNat)

/-- The least integer not below it. -/
def Dbl.ceil (x : Dbl) : Int :=
  if 0 ≤ x.exp then x.mant * (2 ^ x.exp.toNat : Nat) else -(-x.mant / (2 ^ (-x.exp).toNat : Nat))

/-- A vector of binary64 values over the filter's states. -/
abbrev Vec4 := FourOf Dbl

end Sys2Proof
end

