-- ==== Sys2Proof/Machine/Position.lean ====
section
/-!
DEFINITION. Tracking the car (chapter 03): the tape, encoder and accelerometer readings of a capture
set, the fusion filter, the comparisons of the estimates, snapshots and recovery, and the meanings
of the events of these rules.
-/
namespace Sys2Proof.Machine

open Sys2Proof

/-! Tape readers (03 R62 to R67). -/

/-- Position and status bits of a poll as the CRC covers them (03 R63). -/
def Mach.pollBits (m : Mach) (p : TapePoll) : Nat :=
  p.raw % 2 ^ m.nat pTAPE_BITS * 2 ^ m.nat pTAPE_STATUS_BITS + p.status % 2 ^ m.nat pTAPE_STATUS_BITS

/-- sign × raw × TAPE_LSB of a reading, in nm (03 R64). -/
def Mach.tapeCount (m : Mach) (raw : Nat) : Int :=
  let x : Int := (raw % 2 ^ m.nat pTAPE_BITS * m.nat pTAPE_LSB : Nat)
  if m.nat pTAPE_DIR == 0 then x else -x

/-- TAPE_ORIGIN, with TAPE2_OFFSET for reader 2 (03 R64), in µm. -/
def Mach.tapeZero (m : Mach) (r : Ab) : Int := m.int pTAPE_ORIGIN + (if r == Ab.b then m.int pTAPE2_OFFSET else 0)

/-- p_tape of a raw reading in nm, exact (03 R64). -/
def Mach.tapeNm (m : Mach) (r : Ab) (raw : Nat) : Int := m.tapeCount raw + 1000 * m.tapeZero r

/-- p_tape as the filter takes it: binary64, in the order of 03 R64 (R72). -/
def Mach.tapeD (m : Mach) (r : Ab) (raw : Nat) : Dbl :=
  let x := ((Dbl.ofInt (m.tapeCount raw)).div (Dbl.ofInt 1000)).add (Dbl.ofInt (m.int pTAPE_ORIGIN))
  if r == Ab.b then x.add (Dbl.ofInt (m.int pTAPE2_OFFSET)) else x

/-- Sill level of the top landing. -/
def Mach.topSill (m : Mach) : Int := m.land (m.nLandings - 1) pSILL_LEVEL

/-- A poll fails one of the checks of 03 R65 that need no filter. -/
def Mach.pollBad (m : Mach) (r : Ab) (p : TapePoll) : Bool :=
  let n := m.nat pTAPE_BITS + m.nat pTAPE_STATUS_BITS
  let x := m.tapeNm r p.raw
  !p.low || p.ecc == .double
    || (m.nat pTAPE_CRC == 1 && crc6Inv n (m.pollBits p) != p.crc % 64)
    || (m.nat pTAPE_STATUS_BITS != 0 && bit p.status (m.nat pTAPE_STATUS_BITS - 1))
    || decide (x < -5000000000) || decide (1000 * (m.topSill + 5000000) < x)

/-- Latency of a reader in 10 ns (03 R64). -/
def Mach.tapeLatency (m : Mach) (r : Ab) : Nat := 10 * m.nat (if r == Ab.a then pTAPE1_LATENCY else pTAPE2_LATENCY)

/-- Δs of a reading in 10 ns: from its instant to the tick (03 R71). -/
def Mach.tapeAge (m : Mach) (r : Ab) (p : TapePoll) : Int :=
  (25000 * m.time.frame : Nat) - ((p.ts : Int) - m.tapeLatency r)

/-- The judgement of one poll of a reader (03 R65, R66): the runs of missed and good polls, whether the
reader is lost, and its reading, none where the poll is missed. -/
def TapeReader.judged (t : TapeReader) (x : Option (Int × Int)) : TapeReader :=
  let miss := if x.isNone then t.missRun + 1 else 0
  let good := if x.isNone then 0 else t.goodRun + 1
  { t with
    missRun := miss
    goodRun := good
    lost := if t.lost then decide (good < 400) else decide (2 ≤ miss)
    pos := (match x with
      | some y => some y.1
      | none => t.pos)
    posHist := (x :: t.posHist).take 5 }

/-! Encoder and accelerometer (03 R68 to R70). -/

/-- Counts per line (03 R68, R69). -/
def Mach.countsPerLine (m : Mach) : Nat := if m.nat pENC_TYPE == 2 then 4 else 4096

/-- Length of one count in nm, in binary64. -/
def Mach.countNm (m : Mach) : Dbl :=
  (Dbl.ofInt (m.nat pENC_NM_PER_REV)).div (Dbl.ofInt (m.nat pENC_LINES * m.countsPerLine : Nat))

/-- Difference of two latched 32-bit counts, with the sign of ENC_DIR (03 R95). -/
def Mach.encDiff (m : Mach) (new old : Int) : Int :=
  let d := wrap32 (new - old)
  if m.nat pENC_DIR == 0 then d else -d

/-- Acceleration of a raw 16-bit reading of ±4 g in µm/s², to the nearest µm/s² with halves away from zero; 1 g
is the default of ACC_G_CAL: the spec gives neither (PRESUMED, notes/assumptions/17.md). -/
def accScale (raw : Int) : Int := halfAway (raw * 39226600) 32768

/-- The reading of the axis ACC_AXIS selects. -/
def Mach.accAxis (m : Mach) (s : AccSample) : Int :=
  match m.nat pACC_AXIS with
  | 0 => s.x | 1 => -s.x | 2 => s.y | 3 => -s.y | 4 => s.z | _ => -s.z

/-- An axis at 3.9 g or more (03 R70): 3.9 / 4 of 32 768 is 31 948.8. -/
def accSaturated (s : AccSample) : Bool := [s.x, s.y, s.z].any fun a => decide (31949 ≤ mag a)

/-- Sample period Δt = 250 µs in seconds (03 R71). -/
def dtD : Dbl := Dbl.ofRat 1 4000

/-! The fusion filter (03 R71 to R73): a Kalman filter with the error model of R73. The spec gives the
prediction, the innovations and the variances of the errors; how a measurement row is linearised, the
order of the covariance arithmetic and the covariance a filter starts with are the model's
(notes/assumptions/5.md). -/

/-- Scalar product with a row of the covariance. -/
def Vec4.dot (x y : Vec4) : Dbl := (((x.p.mul y.p).add (x.v.mul y.v)).add (x.b.mul y.b)).add (x.k.mul y.k)

/-- The covariance times a measurement row. -/
def Cov.times (c : Cov) (h : Vec4) : Vec4 :=
  ⟨Vec4.dot ⟨c.pp, c.pv, c.pb, c.pk⟩ h, Vec4.dot ⟨c.pv, c.vv, c.vb, c.vk⟩ h,
   Vec4.dot ⟨c.pb, c.vb, c.bb, c.bk⟩ h, Vec4.dot ⟨c.pk, c.vk, c.bk, c.kk⟩ h⟩

/-- The covariance less gain times c. -/
def Cov.less (c : Cov) (g x : Vec4) : Cov :=
  { pp := c.pp.sub (g.p.mul x.p), pv := c.pv.sub (g.p.mul x.v), pb := c.pb.sub (g.p.mul x.b), pk := c.pk.sub (g.p.mul x.k),
    vv := c.vv.sub (g.v.mul x.v), vb := c.vb.sub (g.v.mul x.b), vk := c.vk.sub (g.v.mul x.k),
    bb := c.bb.sub (g.b.mul x.b), bk := c.bk.sub (g.b.mul x.k), kk := c.kk.sub (g.k.mul x.k) }

/-- Correct the state by an innovation of variance r (03 R71, R73) seen through a measurement row. -/
def EstState.measure (e : EstState) (h : Vec4) (r inn : Dbl) : EstState :=
  let c := e.cov.times h
  let s := (Vec4.dot h c).add r
  let g : Vec4 := ⟨c.p.div s, c.v.div s, c.b.div s, c.k.div s⟩
  { e with
    p := e.p.add (g.p.mul inn), v := e.v.add (g.v.mul inn), b := e.b.add (g.b.mul inn), k := e.k.add (g.k.mul inn),
    cov := e.cov.less g c }

/-- The covariance after a prediction (03 R71, R73): with the accelerometer its noise of 0.05 m/s², without
it 0.5 m/s² × Δt on v; b walks by 0.002 m/s² and k by 2 ppm per √s. -/
def Cov.predict (c : Cov) (acc : Bool) : Cov :=
  let g := if acc then Dbl.ofRat 1 32000000 else Dbl.zero
  let w := if acc then dtD else Dbl.zero
  let row (x v b : Dbl) := (x.add (dtD.mul v)).sub (g.mul b)
  let pp := row c.pp c.pv c.pb
  let pv := row c.pv c.vv c.vb
  let pb := row c.pb c.vb c.bb
  let vv := c.vv.sub (w.mul c.vb)
  let vb := c.vb.sub (w.mul c.bb)
  { pp := (row pp pv pb).add (if acc then Dbl.ofRat 1 409600 else Dbl.zero)
    pv := (pv.sub (w.mul pb)).add (if acc then Dbl.ofRat 5 256 else Dbl.zero)
    pb := pb
    pk := row c.pk c.vk c.bk
    vv := (vv.sub (w.mul vb)).add (if acc then Dbl.ofRat 625 4 else Dbl.ofInt 15625)
    vb := vb
    vk := c.vk.sub (w.mul c.bk)
    bb := c.bb.add (Dbl.ofInt 1000)
    bk := c.bk
    kk := c.kk.add (Dbl.ofRat 1 1000) }

/-- The prediction (03 R71); without a usable sample the acceleration input is zero (R70). -/
def EstState.predict (e : EstState) (am : Option Int) : EstState :=
  let a := match am with
    | some x => (Dbl.ofInt x).sub e.b
    | none => Dbl.zero
  { e with
    p := (e.p.add (e.v.mul dtD)).add (((a.mul dtD).mul dtD).div (Dbl.ofInt 2)),
    v := e.v.add (a.mul dtD), acc := a, cov := e.cov.predict am.isSome }

/-- v_enc of a count difference (03 R71). -/
def encSpeed (countNm k : Dbl) (dc : Int) : Dbl :=
  (((((Dbl.ofInt dc).mul countNm).mul ((Dbl.ofInt 1).add (k.div (Dbl.ofInt 1000000)))).div (Dbl.ofInt 1000)).div dtD)

/-- Variance of the count quantisation on v_enc (03 R73): (count_nm / (√6 × Δt))². -/
def encVar (countNm : Dbl) : Dbl :=
  let c := countNm.div (Dbl.ofInt 1000)
  ((c.mul c).mul (Dbl.ofInt 16000000)).div (Dbl.ofInt 6)

/-- The encoder update (03 R71): `old` is the state before the prediction. -/
def EstState.encUpdate (e old : EstState) (countNm : Dbl) (dc : Int) : EstState :=
  let hk := ((encSpeed countNm Dbl.zero dc).div (Dbl.ofInt 1000000)).neg
  e.measure ⟨Dbl.zero, Dbl.ofInt 1, Dbl.zero, hk⟩ (encVar countNm)
    ((encSpeed countNm e.k dc).sub ((old.v.add e.v).div (Dbl.ofInt 2)))

/-- The innovation of a reading (03 R71), with Δs in 10 ns. -/
def EstState.tapeInnovation (e : EstState) (x : Dbl) (age : Int) : Dbl :=
  let ds := Dbl.ofRat age 100000000
  let pred := (e.p.sub (e.v.mul ds)).add (((e.acc.mul ds).mul ds).div (Dbl.ofInt 2))
  x.sub pred

/-- Variance of a reading (03 R73): 30 µm of noise, TAPE_LSB / √12, and 5 µs × |v|. -/
def tapeVar (lsb : Nat) (v : Dbl) : Dbl :=
  let l := Dbl.ofRat lsb 1000
  let s := v.mul (Dbl.ofRat 5 1000000)
  ((Dbl.ofInt 900).add ((l.mul l).div (Dbl.ofInt 12))).add (s.mul s)

/-- The tape update (03 R71): the worked example's gain is the position variance over its sum with the
variance of the reading. -/
def EstState.tapeUpdate (e : EstState) (lsb : Nat) (inn : Dbl) : EstState :=
  e.measure ⟨Dbl.ofInt 1, Dbl.zero, Dbl.zero, Dbl.zero⟩ (tapeVar lsb e.v) inn

/-- An innovation above TAPE_GATE (03 R65). -/
def Mach.gated (m : Mach) (inn : Dbl) : Bool := Dbl.lt (Dbl.ofInt (m.nat pTAPE_GATE)) inn.abs

/-- FUSE_SIGMA_P of a position variance (03 R73): its root rounded up to whole µm. -/
def sigmaOf (x : Dbl) : Nat := min (isqrtUp x.ceil.toNat) (2 ^ 32 - 1)

/-- Round and publish (03 R72, R73), and count standstill (00 R12). -/
def EstState.publish (e : EstState) : EstState :=
  let v := e.v.round
  { e with
    pubP := e.p.round, pubV := v, pubA := e.acc.round, sigma := sigmaOf e.cov.pp,
    still := if mag v < 1000 then e.still + 1 else 0 }

/-- Prediction and encoder update of a frame (03 R71). -/
def Mach.filterStart (m : Mach) (e : EstState) (am : Option Int) (dc : Option Int) : EstState :=
  let e1 := e.predict am
  match dc with
  | some d => e1.encUpdate e m.countNm d
  | none => e1

/-- Judge one reader's poll in one processor, and fuse it where it is not missed and the reader is in use
(03 R65, R66, R71). A filter not yet initialised has no innovation. -/
def Mach.readPoll (m : Mach) (polls : Two TapePoll) (e : EstState) (r : Ab) : EstState :=
  let p := polls.get r
  let inn := e.tapeInnovation (m.tapeD r p.raw) (m.tapeAge r p)
  let missed := m.pollBad r p || (e.inited && m.gated inn)
  let t := (e.readers.get r).judged (if missed then none else some (m.tapeNm r p.raw, (p.ts : Int)))
  let e1 := { e with readers := e.readers.set r t }
  if missed || t.lost || !e.inited then e1 else e1.tapeUpdate (m.nat pTAPE_LSB) inn

/-! Recovery at start-up (03 R93, R94; 17 R513). -/

/-- MRAM address of a snapshot (03 R93). -/
def snapAddr (p : ProcId) (slot : Nat) : Nat := 0x3E0000 + 0x80 * p.idx + 0x40 * slot

/-- A processor's newer valid snapshot (03 R94): payload and sequence number. -/
def Mach.snapshotOf (m : Mach) (p : ProcId) : Option (List Nat × Nat) :=
  match m.readRecord (snapAddr p 0), m.readRecord (snapAddr p 1) with
  | some a, some b => if newer 32 a.2 b.2 then some a else some b
  | some a, none => some a
  | none, b => b

/-- Payload of a snapshot (03 R93). -/
def Mach.snapPayload (m : Mach) (p : ProcId) : List Nat :=
  let e := m.pos.est.get p
  leS 4 e.pubP ++ leS 4 e.pubV ++ leS 4 e.k.round ++ leS 4 e.b.round ++ leS 4 e.gCal
    ++ leS 4 m.pos.stretch ++ le 2 ((m.zoneOf e.pubP).getD 0xFFFF) ++ [m.qualityOf e, p.idx]
    ++ le 8 m.ts ++ le 4 m.fc ++ le 4 m.sec.boots ++ List.replicate 8 0

/-- Write one processor's snapshot, alternating its slots (03 R93). -/
def Mach.writeSnapshot (m : Mach) (p : ProcId) : Mach :=
  let slot := m.pos.snapSlot.get p
  let seq := (m.pos.snapSeq.get p + 1) % 2 ^ 32
  let m1 := m.writeRecord (snapAddr p slot) (m.snapPayload p) seq
  { m1 with pos.snapSeq := m1.pos.snapSeq.set p seq, pos.snapSlot := m1.pos.snapSlot.set p (1 - slot) }

/-- The writers of snapshots: the cores, and the tether holder (03 R93); only with a position. -/
def Mach.snapWriters (m : Mach) : List ProcId :=
  ([ProcId.a, .b, .c] ++ (match m.pair.holder with
    | some a => [a.proc]
    | none => [])).filter fun p => (m.pos.est.get p).inited

/-- Every writer writes a snapshot. -/
def Mach.writeSnapshots (m : Mach) : Mach := m.each m.snapWriters fun m p => m.writeSnapshot p

/-- The snapshots of a frame: in frames whose count is ≡ 0 mod 64, and in the one in which the car
becomes stationary (03 R93). `was` says whether it stood in the frame before. -/
def Mach.snapshotFrame (m : Mach) (was : Bool) : Mach :=
  if m.time.frame % 64 == 0 || (m.stationary && !was) then m.writeSnapshots else m

/-- The covariance a filter starts with: the spec gives none, so every value of it is free. -/
def covStart : Cov :=
  let d (i : Nat) : Dbl := Dbl.make (Config.kalmanStart i).1 (Config.kalmanStart i).2
  { pp := d 0, pv := d 1, pb := d 2, pk := d 3, vv := d 4, vb := d 5, vk := d 6, bb := d 7, bk := d 8, kk := d 9 }

/-- An estimate set to a position at rest, starting its covariance anew; what the processor has judged of
the sensors stays. -/
def EstState.initAt (e : EstState) (p : Int) (k b : Int) (confirmed noRef : Bool) : EstState :=
  { EstState.reset with
    p := Dbl.ofInt p, k := Dbl.ofInt k, b := Dbl.ofInt b, cov := covStart, pubP := p, inited := true,
    confirmed := confirmed, noRef := noRef,
    readers := e.readers, gCal := e.gCal, accVert := e.accVert, accLost := e.accLost, accGood := e.accGood,
    encLost := e.encLost, encOff := e.encOff, encGood := e.encGood }

/-- Change one processor's estimate. -/
def Mach.setEst (m : Mach) (p : ProcId) (e : EstState) : Mach := { m with pos.est := m.pos.est.set p e }

/-- The snapshot found at a recovery is the processor's newest (03 R93). -/
def Mach.snapFound (m : Mach) (p : ProcId) (snap : Option (List Nat × Nat)) : Mach :=
  match snap with
  | some s => { m with
      pos.snapSeq := m.pos.snapSeq.set p s.2,
      pos.snapSlot := m.pos.snapSlot.set p (if m.readRecord (snapAddr p 0) == some s then 1 else 0) }
  | none => m

/-- The 32-bit signed value at a byte of a snapshot, 0 without one. -/
def snapVal (snap : Option (List Nat × Nat)) (at1 : Nat) : Int := (snap.map fun s => leSAt s.1 at1 4).getD 0

/-- Tape and snapshot agree (03 R94). -/
def Mach.recoverAgree (m : Mach) (tape : Option Int) (snap : Option (List Nat × Nat)) (timeout : Bool) : Bool :=
  match tape, snap with
  | some t, some _ => !timeout && decide (mag (t - snapVal snap 0) ≤ m.nat pRECOVER_TOL)
  | _, _ => false

/-- The estimate a recovery starts with (03 R94; 17 R513). Where tape and snapshot disagree or there is no
snapshot, k and b start at 0; a snapshot without tape gives its own: the rule names no value there
(DESIGN CHOICE, notes/assumptions/50.md). -/
def EstState.recovered (e : EstState) (tape : Option Int) (snap : Option (List Nat × Nat)) (agree : Bool) : EstState :=
  let k := snapVal snap 8
  let b := snapVal snap 12
  match tape, snap with
  | some t, some _ =>
    let e1 := if agree then { e with gCal := snapVal snap 16 } else e
    e1.initAt t (if agree then k else 0) (if agree then b else 0) agree false
  | some t, none => e.initAt t 0 0 false false
  | none, some _ => e.initAt (snapVal snap 0) k b false false
  | none, none => e.initAt 0 0 0 false true

/-- Initialise a processor's position (03 R94): `tape` is the tape position to take, if any; the
fault 0x3F is raised where tape and snapshot disagree or no snapshot exists, or the wait of 17 R513
has ended. -/
def Mach.recoverAt (m : Mach) (p : ProcId) (tape : Option Int) (timeout : Bool) : Mach :=
  let snap := m.snapshotOf p
  let agree := m.recoverAgree tape snap timeout
  let m1 := (m.snapFound p snap).setEst p ((m.pos.est.get p).recovered tape snap agree)
  if timeout || (tape.isSome && !agree) then
    m1.raise 1 0x3F 2 (toU 32 (snapVal snap 0)) (toU 32 (tape.getD 0))
  else m1

/-- A core or processor has booted. -/
def Mach.procUp (m : Mach) : ProcId → Bool
  | .a => m.triad.mails.a
  | .b => m.triad.mails.b
  | .c => m.triad.mails.c
  | .d => m.pair.aps.a.booted
  | .e => m.pair.aps.b.booted

/-- Position recovery takes place in it: in step 5, and after READY in one that boots later. -/
def Mach.recovers (m : Mach) (p : ProcId) : Bool := (m.start.step == 5 || m.start.step == 6) && m.procUp p

/-- The later of two readings. -/
def laterReading (b : Option (Int × Int)) (x : Int × Int) : Option (Int × Int) :=
  match b with
  | some y => if y.2 < x.2 then some x else some y
  | none => some x

/-- The newest position that was not missed of the readers in use, in µm (17 R513): of two, the one of the later
instant. -/
def Mach.newestTape (m : Mach) (e : EstState) : Option Int :=
  let l := m.readersUsed.filterMap fun r => let t := e.readers.get r; if t.lost then none else t.posHist.findSome? id
  (l.foldl laterReading none).map fun x => halfAway x.1 1000

/-- POSITION_RECOVERY: after 64 qualifying frames of step 5, or with no reader in use, a processor
initialises its position from tape and snapshot (03 R94). -/
def execPositionRecovery (p : ProcId) (s : State) : Res :=
  let e := s.now.pos.est.get p
  onWhen s (s.now.recovers p && !e.inited && (decide (64 ≤ e.recRun) || !s.now.readsTape e)) fun m =>
    if m.readsTape e then m.recoverAt p (some (halfAway e.recSum (1000 * e.recRun))) false
    else m.recoverAt p none false

/-- RECOVERY_TIMEOUT: 1400 ms after the start a processor stops waiting (17 R513). -/
def execRecoveryTimeout (p : ProcId) (s : State) : Res :=
  onWhen s (s.now.start.step == 5 && s.now.recovers p && !(s.now.pos.est.get p).inited
      && decide (1400000 ≤ s.now.start.usBase + (s.now.ts : Int) - s.now.start.dlBase)) fun m =>
    m.recoverAt p (m.newestTape (m.pos.est.get p)) true

/-! The capture set and one frame of the estimator. -/

/-- Run the count of a processor that waits for its recovery (03 R94). Readers that are lost do not count,
and the tape position of a frame is the rounded mean of the readers in use: the rule gives neither
(DESIGN CHOICE, notes/assumptions/50.md). -/
def Mach.recoveryCount (m : Mach) (e : EstState) (enc : Int) : EstState :=
  let base := e.recEnc.getD enc
  let qual := decide (mag (m.encDiff enc base) < m.countsPerLine)
    && decide (mag e.accVert ≤ 50000)
    && m.readersUsed.all fun r => let t := e.readers.get r; t.lost || t.missRun == 0
  let ps := m.readersUsed.filterMap fun r => let t := e.readers.get r; if t.lost then none else t.pos
  if qual && ps != [] then
    { e with recRun := e.recRun + 1, recSum := e.recSum + halfAway (sumI ps) ps.length, recEnc := some base }
  else { e with recRun := 0, recSum := 0, recEnc := some enc }

/-- The reader that gives the tape velocity: with two in use the rule names none, and the model takes the
first (DESIGN CHOICE, notes/assumptions/50.md). -/
def Mach.velReader (m : Mach) (e : EstState) : Option Ab := m.readersUsed.find? fun r => !(e.readers.get r).lost

/-- The tape velocity in µm/s (03 R80): the difference of the tape positions across four frames, divided by
the time between their instants; none where either poll is missed. -/
def Mach.tapeSpeed (m : Mach) (e : EstState) : Option Int :=
  match (m.velReader e).map fun r => (e.readers.get r).posHist with
  | some (some x :: _ :: _ :: _ :: some y :: _) => if y.2 < x.2 then some (halfAway ((x.1 - y.1) * 100000) (x.2 - y.2).toNat) else none
  | _ => none

/-- Take the accelerometer sample of the set (03 R61, R70): whether it can be used. One with a double-bit error
is as one never received (01 R20): no sample has come since the set before. -/
def Mach.takeAcc (m : Mach) (s : AccSample) (ecc : Ecc) : Mach × Bool :=
  let stale := ecc == .double || m.pos.accSeq == some s.seq
  ({ m with
     pos.accSeq := if ecc == .double then m.pos.accSeq else some s.seq
     pos.accTs := if ecc == .double then m.pos.accTs else s.ts
     pos.accStale := if stale then m.pos.accStale + 1 else 0 }, !stale && !accSaturated s)

/-- The 256-frame mean differs from the tape-derived acceleration over the same frames by more than
0.5 m/s² (03 R70). The tape-derived acceleration is the second difference of the tape positions at the
window's ends and middle, 32 ms apart, of one reader (DESIGN CHOICE, notes/assumptions/50.md). -/
def EstState.meanOff (e : EstState) : Bool :=
  match e.accHist, e.accHist.drop 128, e.accHist.drop 256 with
  | x :: _, y :: _, z :: _ =>
    let s := sumI ((e.accHist.take 256).map fun (w : Int × Int × Ab) => w.1)
    x.2.2 == y.2.2 && y.2.2 == z.2.2
      && decide (131072000000 < mag (1024 * s - 256000 * (x.2.1 - 2 * y.2.1 + z.2.1)))
  | _, _, _ => false

/-- What the accelerometer monitor holds after a frame (03 R70, R96): the window, restarted where the sample
cannot be used or no reader gives a position, whether the accelerometer is lost, and the frames without
a violation. -/
def Mach.accMonitor (m : Mach) (usable : Bool) (e : EstState) : EstState :=
  let here := match m.velReader e with
    | some r => if (e.readers.get r).missRun == 0 then (e.readers.get r).pos.map fun x => (x, r) else none
    | none => none
  let e1 := { e with accHist := (match here with
    | some x => if usable then ((e.accVert - e.b.round, x.1, x.2) :: e.accHist).take 257 else []
    | none => []) }
  let bad := decide (2 ≤ m.pos.accStale) || (e1.inited && e1.meanOff)
  let good := if bad then 0 else e1.accGood + 1
  { e1 with
    accGood := good
    accLost := (e1.accLost && decide (good < 400)) || (bad && !m.mountCabinet) }

/-- ACC_G_CAL is refined during standstill under the TEND or MIXED budget (03 R70): by how much the spec does
not say, so the new value is free within the range of R95. -/
def Mach.refineG (m : Mach) (usable : Bool) (raw : Int) (e : EstState) : EstState :=
  if usable && e.stationary && m.nat pBUDGET_POLICY != 0 then
    { e with gCal := clamp 9000000 10600000 (Config.gCalRefined e.gCal raw) }
  else e

/-- The comparison of v_enc with the tape velocity in one processor (03 R80). Both are rounded to whole µm/s, and
k is that of the frame's updates: the rule gives neither (DESIGN CHOICE, notes/assumptions/50.md). -/
def Mach.slipStep (m : Mach) (dc : Option Int) (e : EstState) : EstState :=
  let slip := match dc, m.tapeSpeed e with
    | some d, some v => decide (m.nat pSLIP_LIMIT < mag ((encSpeed m.countNm e.k d).round - v)) && !e.encLost
    | _, _ => false
  { e with slipRun := if slip then e.slipRun + 1 else 0 }

/-- The difference has lasted SLIP_TIME without interruption (03 R80). -/
def Mach.slipping (m : Mach) (e : EstState) : Bool := decide (msF (m.nat pSLIP_TIME) ≤ e.slipRun) && decide (0 < e.slipRun)

/-- The updates of one frame in one processor, and what it judges of the sensors by them (03 R65 to R71, R80). -/
def Mach.updateEst (m : Mach) (i : FrameIn) (usable : Bool) (am dc : Option Int) (e : EstState) : EstState :=
  let e1 := if e.inited then m.filterStart e am (if e.encLost || e.encOff then none else dc) else e
  m.slipStep dc (m.accMonitor usable (m.readersUsed.foldl (m.readPoll i.polls) e1))

/-- The frames without an encoder violation at this processor's standstill (03 R96): 400 of them end its loss. -/
def encRest (viol : Bool) (e : EstState) : EstState :=
  let n := if viol || !e.stationary then 0 else e.encGood + 1
  { e with encGood := n, encLost := e.encLost && decide (n < 400) }

/-- One frame of the estimator in one processor (03 R65 to R73, R80): `usable` says whether the sample is. From the
frame in which SLIP_TIME has passed the filter makes no encoder update. -/
def Mach.stepEst (m : Mach) (i : FrameIn) (usable : Bool) (dc : Option Int) (e : EstState) : EstState :=
  let raw := accScale (m.accAxis i.acc)
  let e0 := if usable then { e with accVert := raw - e.gCal } else e
  let am := if usable && !m.mountCabinet && !e0.accLost then some e0.accVert else none
  let e1 := m.updateEst i usable am dc e0
  let e2 := if m.slipping e1 && !e0.encOff then m.updateEst i usable am dc { e0 with encOff := true } else e1
  let e3 := encRest (i.encViol || !m.supplied 0) (m.refineG usable raw e2)
  if e3.inited then e3.publish else e3

/-- A core out for its proof test estimates nothing: its RAM and arithmetic units are under test, and k, b and
ACC_G_CAL are kept outside them (09 R279). -/
def Mach.underTest (m : Mach) (p : ProcId) : Bool := m.triad.proofOut && (m.triad.proof.map CoreId.proc) == some p

/-- The encoder count of the set; one with a double-bit error is as one never received (01 R20). -/
def encTaken (i : FrameIn) : Option Int := if i.encEcc == .double then none else some i.enc

/-- Every processor fuses the readings of the set from its own state (01 R17; 03 R61), or counts towards its
recovery. -/
def Mach.fuse (m : Mach) (i : FrameIn) (usable : Bool) : Mach :=
  let dc := match m.pos.encCount, encTaken i with
    | some c, some x => some (m.encDiff x c)
    | _, _ => none
  { m with
    pos.est := m.pos.est.map fun p e =>
      if m.underTest p then e
      else if e.inited then m.stepEst i usable dc e
      else if m.recovers p then m.recoveryCount (m.stepEst i usable dc e) i.enc
      else e
    pos.encCount := encTaken i
    pos.encTs := i.encTs
    pos.encDc := dc
    pos.polls := i.polls.map fun _ p => some p }

/-- What the frame's readings show besides the estimates: the two readers apart, where both give a position
(03 R67). -/
def Mach.sensorRuns (m : Mach) : Mach :=
  let now (r : Ab) : Option Int := let t := m.est.readers.get r; if t.missRun == 0 && !t.lost then t.pos else none
  let gap : Option Nat := if m.nat pTAPE_READERS == 2 then
      (match now .a, now .b with
      | some a, some b => some (mag (a - b))
      | _, _ => none)
    else none
  let tol := 1000 * m.nat pTAPE_PAIR_TOL
  { m with
    pos.pairRun := (match gap with
      | some g => if tol < g then m.pos.pairRun + 1 else 0
      | none => 0)
    pos.pairOkRun := (match gap with
      | some g => if tol < g then 0 else m.pos.pairOkRun + 1
      | none => 0) }

/-- Where the car came to rest, how far the ropes have given since, and the level error of the frame
(03 R81, R82; 04 R113); `was` says whether it stood in the frame before. -/
def Mach.noteStop (m : Mach) (was : Bool) : Mach :=
  let stop := if m.stationary && !was then some m.fpos else if m.stationary then m.pos.pStop else none
  let m1 := { m with
    pos.pStop := stop,
    pos.stretch := (match stop with
      | some p => if m.est.inited then m.fpos - p else 0
      | none => m.pos.stretch) }
  { m1 with pos.levelHist := (m1.levelError :: m1.pos.levelHist).take 16 }

/-- R61 to R73 and R80 to R82 in one frame: the capture set closed at the tick is fused by every
processor. -/
def Mach.positionFrame (m : Mach) (i : FrameIn) : Mach :=
  let ta := m.takeAcc i.acc i.accEcc
  ((ta.1.fuse i ta.2).sensorRuns).noteStop m.stationary

/-- Post the mailboxes of the cores for the next frame (03 R76). -/
def Mach.postMail (m : Mach) : Mach :=
  { m with pos.mail := ⟨
      (if m.pos.est.a.inited then some ⟨m.pos.est.a.pubP, m.pos.est.a.pubV, m.qualityOf m.pos.est.a⟩ else none),
      (if m.pos.est.b.inited then some ⟨m.pos.est.b.pubP, m.pos.est.b.pubV, m.qualityOf m.pos.est.b⟩ else none),
      (if m.pos.est.c.inited then some ⟨m.pos.est.c.pubP, m.pos.est.c.pubV, m.qualityOf m.pos.est.c⟩ else none)⟩ }

/-- Two estimates are concordant (03 R77). -/
def Mach.concordant (m : Mach) (x y : Mail) : Bool :=
  decide (mag (x.p - y.p) ≤ m.nat pCORE_TOL_P) && decide (mag (x.v - y.v) ≤ m.nat pCORE_TOL_V) && x.q == y.q

/-- Median of three. -/
def median3 (a b c : Int) : Int := max (min a b) (min (max a b) c)

/-- The core that does not vote, if one does not. -/
def Mach.quietCore (m : Mach) : Option CoreId := [CoreId.a, .b, .c].find? fun c => !m.coreVotes c

/-- The mailboxes of two cores hold concordant estimates. -/
def Mach.mailsAgree (m : Mach) (c k : CoreId) : Bool :=
  match m.pos.mail.get c, m.pos.mail.get k with
  | some x, some y => m.concordant x y
  | _, _ => false

/-- The median of the published estimates, component by component (03 R79). -/
def Mach.medianMail (m : Mach) (own : Mail) : Mail :=
  let v (f : Mail → Int) : Int :=
    let x (o : Option Mail) : Int := f (o.getD own)
    median3 (x m.pos.mail.a) (x m.pos.mail.b) (x m.pos.mail.c)
  ⟨v (·.p), v (·.v), (v fun x => (x.q : Int)).toNat⟩

/-- One application processor's comparison of the published estimates (03 R76, R77, R79), once every core that
votes publishes one. While two cores run, the two remaining estimates are judged: no core is named, and
four discordant comparisons are three-way discord (09 R276). -/
def Mach.compareCores (m : Mach) (own : EstState) (d : DiscordState) : DiscordState :=
  if m.voters.any fun c => (m.pos.mail.get c).isNone then DiscordState.reset
  else
    let ab := m.mailsAgree .a .b
    let bc := m.mailsAgree .b .c
    let ac := m.mailsAgree .a .c
    let mine : Mail := ⟨own.pubP, own.pubV, m.qualityOf own⟩
    let concord : Three Nat := ⟨if ab || ac then d.concord.a + 1 else 0, if ab || bc then d.concord.b + 1 else 0,
      if ac || bc then d.concord.c + 1 else 0⟩
    match m.quietCore with
    | some q =>
      let two := match q with
        | .a => bc | .b => ac | .c => ab
      let near := m.voters.any fun c => (m.pos.mail.get c).any fun x => m.concordant mine x
      let tw := if two then 0 else d.threeWay + 1
      { named := ⟨0, 0, 0⟩, threeWay := tw, concord := concord
        own := if own.inited && !near then d.own + 1 else 0
        verdict := if 4 ≤ tw then .threeWay else .none }
    | none =>
      let na := if bc && !ab && !ac then d.named.a + 1 else 0
      let nb := if ac && !ab && !bc then d.named.b + 1 else 0
      let nc := if ab && !ac && !bc then d.named.c + 1 else 0
      let tw := if !ab && !bc && !ac then d.threeWay + 1 else 0
      { named := ⟨na, nb, nc⟩, threeWay := tw, concord := concord
        own := if own.inited && !m.concordant mine (m.medianMail mine) then d.own + 1 else 0
        verdict := if 4 ≤ na then .core .a else if 4 ≤ nb then .core .b else if 4 ≤ nc then .core .c
          else if 4 ≤ tw then .threeWay else .none }

/-- Both processors' comparisons of a frame (03 R76): the cores read at its freeze the verdicts that the
processors wrote in the output delivery of the frame before. -/
def Mach.compareFrame (m : Mach) : Mach :=
  { m with
    pos.read := m.pos.discord.map fun _ d => d.verdict
    pos.discord := m.pos.discord.map fun ap d => m.compareCores (m.pos.est.get ap.proc) d }

/-- The verdict the cores act on: the active processor's, and the standby's too while it is in
sync (03 R78). -/
def Mach.agreedVerdict (m : Mach) : Verdict :=
  match m.pair.holder with
  | none => .none
  | some h =>
    let v := m.pos.read.get h
    if (m.pair.aps.get h.other).role == 3 && m.pos.read.get h.other != v then .none else v

/-- Evidence of 03 R96 that is counted per frame. -/
def Mach.positionEnds (m : Mach) : Mach :=
  let m1 := m.endIf 1 0x33 (decide (400 ≤ m.pos.pairOkRun))
  let m2 := m1.endIf 1 0x34 (!m1.est.encLost)
  let m3 := m2.endIf 1 0x35 (m2.est.inited && !m2.est.accLost)
  m3.endIf 1 0x37 (!m3.inForce 1 0x32 || !m3.inForce 1 0x34)

/-! Events of chapter 03. -/

/-- CORE_DISCORD (03 R78): the cores act on the verdicts read at the freeze of the frame; `ap` is the
processor whose verdict it is. -/
def execCoreDiscord (ap : Ab) (s : State) : Res :=
  let v := s.now.agreedVerdict
  onWhen s (v != .none && s.now.pos.read.get ap == v) fun m =>
    match v with
    | .core c => { m.raise 1 0x38 m.triadClass with triad.stopVec := m.triad.stopVec.set c true }
    | .threeWay => m.raise 1 0x39 5
    | .none => m

/-- AP_EST_DISCORD (03 R79). -/
def execApEstDiscord (ap : Ab) (s : State) : Res :=
  onWhen s (decide (4 ≤ (s.now.pos.discord.get ap).own)) fun m => m.raise 1 0x3A 2

/-- Raise 0x37 with the individual faults when tape and encoder are both lost (03 R91, R96). -/
def Mach.bothLost (m : Mach) : Mach := if !m.tapeInUse && m.est.encLost then m.raise 1 0x37 4 else m

/-- The loss of all readers (03 R86, R91): 0x32, and a learning run or HOME ends under its reaction, without
a stop of its own. -/
def Mach.allReadersLost (m : Mach) : Mach := (m.raise 1 0x32 3).quitLearn.endHome.bothLost

/-- TAPE_READER_LOST (03 R65, R91): 0x30 or 0x31 while the other reader is in use, else 0x32. Each processor
judges its readers itself; the fault follows the estimate that is published (DESIGN CHOICE,
notes/assumptions/50.md). -/
def execTapeReaderLost (r : Ab) (s : State) : Res :=
  onWhen s (s.now.readersUsed.contains r && (s.now.est.readers.get r).lost) fun m =>
    if m.tapeInUse then m.raise 1 (if r == Ab.a then 0x30 else 0x31) 2
    else if m.inForce 1 0x32 then m else m.allReadersLost

/-- TAPE_READER_REINSTATED (03 R66): in the frame in which it contributes again. -/
def execTapeReaderReinstated (r : Ab) (s : State) : Res :=
  let t := s.now.est.readers.get r
  onWhen s (!t.lost && decide (400 ≤ t.goodRun)) fun m => m.endFault 1 (if r == Ab.a then 0x30 else 0x31)

/-- TAPE_PAIR_DISCORD (03 R67). -/
def execTapePairDiscord (s : State) : Res :=
  onWhen s (decide (16 ≤ s.now.pos.pairRun)) fun m => m.raise 1 0x33 3

/-- Whether what the encoder monitor found is a fault (03 R68, R69). -/
def Mach.encCauseOk (m : Mach) : EncCause → Bool
  | .amplitude n => m.nat pENC_TYPE == 1 && decide (8 ≤ n)
  | .rate hz => m.nat pENC_TYPE == 2 && decide (10000000 < hz)
  | .both ns => m.nat pENC_TYPE == 2 && decide (ns ≤ 25)

/-- The encoder is lost to every processor: they fuse one count (03 R61, R90). -/
def Mach.loseEncoder (m : Mach) : Mach := { m with pos.est := m.pos.est.map fun _ e => { e with encLost := true, encGood := 0 } }

/-- 0x34 (03 R68, R69, R91). -/
def Mach.encoderLost (m : Mach) : Mach := (m.loseEncoder.raise 1 0x34 3).bothLost

/-- ENC_FAULT (03 R68, R69, R91). -/
def execEncFault (cause : EncCause) (s : State) : Res := onWhen s (s.now.encCauseOk cause) Mach.encoderLost

/-- ACC_FAULT (03 R70, R91, R92): F2 up to 8.00 m/s rated speed, else F3; never with MOUNT CABINET. -/
def execAccFault (cause : AccCause) (s : State) : Res :=
  let found := match cause with
    | .stale => decide (2 ≤ s.now.pos.accStale)
    | .mean => s.now.est.inited && s.now.est.meanOff
  onWhen s (found && !s.now.mountCabinet) fun m => m.raise 1 0x35 (if m.vRated ≤ 8000000 then 2 else 3)

/-- A voting core has found the difference above SLIP_LIMIT for SLIP_TIME (03 R80). -/
def Mach.slips (m : Mach) : Bool := m.voters.any fun c => m.slipping (m.pos.est.get c.proc)

/-- TRACTION_SLIP (03 R80): each processor's filter has left the encoder out from the frame of its own
comparison on. -/
def execTractionSlip (s : State) : Res :=
  onWhen s s.now.slips fun m => m.raise 1 0x36 4

end Sys2Proof.Machine
end

