-- ==== Sys2Proof/Machine/Triad.lean ====
section
/-!
DEFINITION. The triad (chapter 09): exclusion, the loss of the triad, proof tests, re-admission, and
the clock monitors of chapter 02 that may exclude a core.
-/
namespace Sys2Proof.Machine

open Sys2Proof

/-- Handle of the triad. -/
def triadUnit : Nat := 0x0500

/-- Frames in so many hours. -/
def hF (h : Nat) : Nat := 14400000 * h

/-- Some core is excluded. -/
def Mach.anyExcluded (m : Mach) : Bool := m.triad.excluded.count != 0

/-- TRIAD_MODE (09 R298): 2 LOST, 1 while only two cores vote, else 0. -/
def Mach.triadMode (m : Mach) : Nat :=
  if m.triad.lost then 2 else if m.voters.length == 3 then 0 else 1

/-- 0x11: every bit of this vote and of every later one is de-energised (09 R275). -/
def Mach.loseTriad (m : Mach) : Mach := { m with triad.lost := true }.raise triadUnit 0x11 5

/-- Exclude a core for a cause code (09 R273, R277, R278). -/
def Mach.exclude (m : Mach) (c : CoreId) (cause : Nat) : Mach :=
  let m1 := { m with
    triad.excluded := m.triad.excluded.set c true
    triad.propose := m.triad.propose.set c false
    triad.missRun := m.triad.missRun.set c 0
    triad.diffRun := m.triad.diffRun.set c 0
    triad.clkRun := m.triad.clkRun.set c 0
    triad.causes := (m.triad.causes.filter fun (x : Nat × Nat) => x.1 != c.idx) ++ [(c.idx, cause)]
    triad.exclTimes := (m.triad.exclTimes ++ [(c.idx, m.time.frame)])
    triad.duplexLeft := if m.anyExcluded || m.nat pTRIAD_DEGRADED_POLICY != 1 then m.triad.duplexLeft else hF (m.nat pTRIAD_DEGRADED_LIMIT)
    field.exclMask := m.triad.excluded.set c true }
  (m1.raise triadUnit 0x10 m.triadClass).post 8 3 triadUnit c.idx 0

/-! Proof tests (09 R279 to R282). -/

/-- The core that a number names. -/
def coreOfNat (n : Nat) : CoreId := if n == 0 then .a else if n == 1 then .b else .c

/-- µs since a core's last pass. -/
def Mach.sincePass (m : Mach) (c : CoreId) : Nat := m.ts - m.triad.proofLast.get c

/-- The core whose test is due soonest: the one that passed longest ago. -/
def Mach.dueFirst (m : Mach) : CoreId :=
  let l := m.triad.proofLast
  if l.a ≤ l.b && l.a ≤ l.c then .a else if l.b ≤ l.c then .b else .c

/-- PROOF_INTERVAL in µs. -/
def Mach.proofUs (m : Mach) : Nat := m.nat pPROOF_INTERVAL * 3600000000

/-- Every core has passed within PROOF_INTERVAL (09 R299). -/
def Mach.provedInTime (m : Mach) : Bool := coreIds.all fun k => decide (m.sincePass k ≤ m.proofUs)

/-- PROOF_DUE (09 R298): seconds until the next core falls due; its reset value before the first tick. -/
def Mach.proofDue (m : Mach) : Nat :=
  if m.time.running then (m.proofUs - m.sincePass m.dueFirst) / 1000000 else 0

/-- A verification that R280 waits for: login, commit or password. -/
def Mach.cabBusy (m : Mach) : Bool := m.cab.login.isSome || m.cab.commit.isSome || m.cab.pwd.isSome

/-- The status of a PROOF_TEST of a core (09 R280). -/
def Mach.proofStatus (m : Mach) (_c : CoreId) : Nat :=
  if m.anyExcluded || m.triad.lost then stWRONG_MODE
  else if m.triad.proof.isSome then stBUSY
  else if m.cabBusy then stBUSY
  else stPENDING

/-- A proof test is accepted: the core is out from the vote of the next frame. -/
def Mach.proofStart (m : Mach) (c : CoreId) (tag : Option Nat) (readmit : Bool) : Mach :=
  { m with
    triad.proof := some c
    triad.proofAt := m.time.frame
    triad.proofTag := tag
    triad.proofOut := false
    triad.proofBad := false
    triad.rejoinAt := 0
    triad.rejoinRun := 0
    triad.readmit := readmit }

/-- PROOF_TEST. -/
def execProofTest (tag core : Nat) (s : State) : Res :=
  serve s 0xA3 tag fun m =>
    if core != 0xFF && 3 ≤ core then refuse m stBAD_PARAM
    else
      let c := if core == 0xFF then m.dueFirst else coreOfNat core
      let st := m.proofStatus c
      if st == stPENDING then pending (m.proofStart c (some tag) false) else refuse m st

/-- A door side closes or nudges. -/
def Mach.doorCloses (m : Mach) : Bool := [Ab.a, .b].any fun s =>
  let st := (m.doors.get s).state
  st == 4 || st == 7

/-- PROOF_AUTO_START (09 R282). -/
def execProofAutoStart (s : State) : Res :=
  let m := s.now
  onWhen s (m.flag pPROOF_AUTO && m.start.ready && decide (m.power.state ≤ 1) && decide (m.proofUs ≤ m.sincePass m.dueFirst)
      && m.proofStatus m.dueFirst == stPENDING && !m.inRun && !m.doorCloses) fun m =>
    m.proofStart m.dueFirst none false

/-- The exclusions of a core that count: those within 24 h, and three that bar it until VIN is lost (09 R278). -/
def Mach.exclusions (m : Mach) (c : CoreId) : Nat := (m.triad.exclTimes.filter fun (x : Nat × Nat) => x.1 == c.idx).length

/-- The cause of an exclusion has ended (09 R278): 1000 good gates of the clock, or the core's own checks. -/
def Mach.causeEnded (m : Mach) (c : CoreId) (checked : Bool) : Bool :=
  if m.triad.causes.contains (c.idx, 0x0A) then decide (1000 ≤ m.triad.clkRun.get c) else checked

/-- READMISSION_START (09 R278): a complete proof test and the rejoin follow. -/
def Mach.mayReadmit (m : Mach) (c : CoreId) (checked : Bool) : Bool :=
  m.nat pREADMIT_MODE == 1 && m.triad.excluded.get c && m.triad.excluded.count == 1 && !m.triad.lost && m.triad.proof.isNone
    && m.causeEnded c checked && decide (m.exclusions c < 3)

/-- READMISSION_START. -/
def execReadmissionStart (r : Readmit) (s : State) : Res :=
  onWhen s (s.now.mayReadmit r.core r.checked) fun m => m.proofStart r.core none true

/-- A core takes p from the tape reading of the capture set and v from the encoder update, and keeps k, b
and ACC_G_CAL (09 R281); its readers it judges anew. -/
def Mach.rejoinEst (m : Mach) (c : CoreId) : Mach :=
  let e := m.pos.est.get c.proc
  let tape := m.readersUsed.findSome? fun r => (m.pos.polls.get r).bind fun p => if m.pollBad r p then none else some (m.tapeD r p.raw)
  let p := tape.getD e.p
  let v := (m.pos.encDc.map (encSpeed m.countNm e.k)).getD Dbl.zero
  m.setEst c.proc { e.initAt p.round 0 0 e.confirmed e.noRef with
    readers := EstState.reset.readers
    p := p
    k := e.k
    b := e.b
    v := v
    pubV := v.round
    still := e.still }

/-- A core evaluates every block from the states it kept and the transitions recorded. -/
def Mach.evaluateKept (m : Mach) (c : CoreId) : Mach :=
  let k := m.safe.cores.get c
  (m.setCore c (m.evalBlocks c k)).judged

/-- No test or rejoin any more. -/
def Mach.proofOver (m : Mach) : Mach :=
  { m with
    triad.proof := none
    triad.proofTag := none
    triad.proofOut := false
    triad.rejoinAt := 0
    triad.rejoinRun := 0
    triad.readmit := false }

/-- COMPLETED of a PROOF_TEST that the host gave. -/
def Mach.proofDone (m : Mach) (status : Nat) : Mach :=
  match m.triad.proofTag with
  | some t => m.completed 0xA3 t status triadUnit 0
  | none => m

/-- The proof test or the rejoin of a core has failed (09 R273, R281, R299): 0x13, and the other two propose
the exclusion; a re-admission that fails leaves the core excluded. -/
def Mach.proofFails (m : Mach) (c : CoreId) : Mach :=
  let m1 := ((m.raise triadUnit 0x13 1).proofDone stUNIT_FAULT).proofOver
  if m.triad.readmit then { m1 with triad.exclTimes := m1.triad.exclTimes ++ [(c.idx, m1.time.frame)] }
  else { m1 with
    triad.propose := m1.triad.propose.set c true
    triad.causes := (m1.triad.causes.filter fun (x : Nat × Nat) => x.1 != c.idx) ++ [(c.idx, 0x13)] }

/-- The core rejoins from this freeze (09 R281). -/
def Mach.rejoins (m : Mach) (c : CoreId) : Mach :=
  ({ m with
    triad.proofOut := false
    triad.rejoinAt := m.time.frame
    triad.rejoinRun := 0
    triad.stopVec := m.triad.stopVec.set c false
    pos.discord := m.pos.discord.map fun _ (d : DiscordState) => { d with concord := d.concord.set c 0 } }.rejoinEst c).evaluateKept c

/-- A test of the core that is out has failed in this frame (09 R279). -/
def Mach.proofFound (m : Mach) (bad : Bool) : Mach :=
  if bad && m.triad.proofOut then { m with triad.proofBad := true } else m

/-- PROOF_TEST_END (09 R279, R281): after 160 frames a core that has passed the tests rejoins at this freeze;
one that has failed them does not. -/
def execProofTestEnd (s : State) : Res :=
  match s.now.triad.proof with
  | none => .next s
  | some c => onWhen s (s.now.triad.proofOut && decide (s.now.triad.proofAt + 161 ≤ s.now.time.frame)) fun m =>
    if m.triad.proofBad then m.proofFails c else m.rejoins c

/-- The rejoin has met both conditions of 09 R281. -/
def Mach.rejoined (m : Mach) (c : CoreId) : Bool :=
  m.triad.rejoinAt != 0 && decide (16 ≤ m.triad.rejoinRun) && decide (4 ≤ (m.pos.discord.get m.apOf).concord.get c)

/-- The cause fault of an excluded core ends with its re-admission (09 R278). -/
def Mach.endCause (m : Mach) (c : CoreId) : Mach :=
  match m.triad.causes.find? fun (x : Nat × Nat) => x.1 == c.idx with
  | some x => (m.endCode x.2).endFault triadUnit 0x10 |>.endFault triadUnit 0x12
  | none => (m.endFault triadUnit 0x10).endFault triadUnit 0x12

/-- PROOF_REJOIN (09 R278, R281): the core returns to the vote of this frame. -/
def execProofRejoin (s : State) : Res :=
  match s.now.triad.proof with
  | none => .next s
  | some c => onWhen s (s.now.rejoined c) fun m =>
    let m1 := ({ m with triad.proofLast := m.triad.proofLast.set c m.ts }.post 8 1 triadUnit c.idx 0).proofDone stOK
    let m2 := m1.endIf triadUnit 0x13 (m.triad.causes.all fun (x : Nat × Nat) => x.1 == c.idx || x.2 != 0x13)
    let m3 := m2.endIf triadUnit 0x14 m2.provedInTime
    if m.triad.readmit then
      ({ (m3.endCause c) with
        triad.excluded := m3.triad.excluded.set c false
        field.exclMask := m3.triad.excluded.set c false
        triad.causes := m3.triad.causes.filter fun (x : Nat × Nat) => x.1 != c.idx
        triad.readmits := sat32 m3.triad.readmits
        triad.duplexLeft := if m3.nat pTRIAD_DEGRADED_POLICY == 1 then hF (m3.nat pTRIAD_DEGRADED_LIMIT) else m3.triad.duplexLeft }.post
          8 4 triadUnit c.idx 0).proofOver
    else m3.proofOver

/-- PROOF_FAILED (09 R281): not returned within 400 frames of the end of the test. -/
def execProofFailed (s : State) : Res :=
  match s.now.triad.proof with
  | none => .next s
  | some c => onWhen s (s.now.triad.rejoinAt != 0 && !s.now.rejoined c && decide (s.now.triad.rejoinAt + 400 ≤ s.now.time.frame)) fun m =>
    m.proofFails c

/-- PROOF_OVERDUE of a core (09 R282). -/
def execProofOverdue (c : CoreId) (s : State) : Res :=
  onWhen s (decide (s.now.proofUs + 3600000000 < s.now.sincePass c)) fun m => m.raise triadUnit 0x14 3

/-- DUPLEX_EXPIRED (09 R277). -/
def execDuplexExpired (s : State) : Res :=
  onWhen s (s.now.nat pTRIAD_DEGRADED_POLICY == 1 && s.now.anyExcluded && !s.now.triad.lost && s.now.triad.duplexLeft == 0) fun m =>
    m.raise triadUnit 0x12 3

/-- What a frame brings the triad: the core accepted for a test is out from now, in DOZE and PARK once the module has
woken, DUPLEX_LEFT counts down outside a proof test while two cores vote (09 R277, R280), exclusions are forgotten
after 24 h unless three bar the core (R278), and 0x14 ends (R299). -/
def Mach.triadFrame (m : Mach) (inp : FrameIn) : Mach :=
  let waits := m.triad.proof.isSome && !m.triad.proofOut && m.triad.rejoinAt == 0 && decide (2 ≤ m.power.state)
  let begins := m.triad.proof.isSome && m.triad.rejoinAt == 0 && !waits
  let m := m.endIf triadUnit 0x14 m.provedInTime
  { m with
    triad.proofOut := begins
    triad.proofAt := if waits then m.time.frame else m.triad.proofAt
    triad.late := inp.late
    triad.dead := inp.dead
    triad.duplexLeft := if m.anyExcluded && !m.triad.lost && m.triad.proof.isNone && m.nat pTRIAD_DEGRADED_POLICY == 1
      then m.triad.duplexLeft - 1 else m.triad.duplexLeft
    triad.exclTimes := m.triad.exclTimes.filter fun x => decide (m.time.frame - x.2 < hF 24)
      || decide (3 ≤ (m.triad.exclTimes.filter fun (y : Nat × Nat) => y.1 == x.1).length) }

/-! Clock monitors (02 R50 to R53). -/

/-- Nominal count of a gate in eighths (02 R51), so that AON's 8.192 over one frame is its 8192 over
1000: index in the order of CLK_DEV. SYS is judged against the SAFE clocks. -/
def Mach.nominal (m : Mach) (k : Nat) : Nat :=
  match k with
  | 0 => 25000
  | 1 | 2 => if m.power.state == 2 then 75000 else 150000
  | 3 | 4 | 5 => 50000
  | 6 => 40000
  | 7 => 4096
  | 8 => 25000
  | _ => 8192

/-- A count deviates by more than 2 % (02 R51). -/
def deviates (count nominal : Nat) : Bool := decide (nominal < 50 * ((count : Int) - nominal).natAbs)

/-- Deviation in units of 0.001 %, rounded to the nearest with halves away from zero: 02 R60 gives the unit
and no rounding (DESIGN CHOICE, notes/assumptions/48.md). -/
def devOf (count nominal : Nat) : Int := clamp (-32768) 32767 (halfAway (100000 * ((count : Int) - nominal)) nominal)

/-- Deviation of SYS from the mean of the three SAFE domains (02 R60): in a gate of 25 000 SYS cycles they
count 50 000 each where they agree with it. -/
def devSys (a b c : Nat) : Int := if a + b + c == 0 then 32767 else devOf 150000 (a + b + c)

/-- Two SAFE clocks agree with one another within 2 % (02 R52): the 2 % are of the other core's count, a
reference that the rule leaves open (DESIGN CHOICE, notes/assumptions/48.md). -/
def agree (a b : Nat) : Bool := !deviates a (max 1 b)

/-- What the SAFE gates of one frame show (02 R52). -/
inductive SafePattern where
  | fine
  | one (c : CoreId)
  | sys
  | other
  deriving DecidableEq, Repr

/-- The pattern of three SAFE counts (02 R52). -/
def safePattern (a b c : Nat) : SafePattern :=
  let bad (x : Nat) : Bool := deviates x 50000
  match bad a, bad b, bad c with
  | false, false, false => .fine
  | true, false, false => if !agree a b && !agree a c then .one .a else .other
  | false, true, false => if !agree b a && !agree b c then .one .b else .other
  | false, false, true => if !agree c a && !agree c b then .one .c else .other
  | true, true, true => if agree a b && agree b c && agree a c then .sys else .other
  | _, _, _ => .other

/-- The clocks judged one by one: index, fault, unit, class (02 R50). -/
def Mach.clockFaults (_m : Mach) : List (Nat × Nat × Nat × Nat) :=
  [(1, 0x09, 0x0600, 2), (2, 0x09, 0x0600, 2), (6, 0x0B, 0, 4), (7, 0x0C, 0, 1), (8, 0x0D, 0, 5), (9, 0x0E, 0, 1)]

/-- A clock is monitored in this gate (02 R51): not the APP clock of a processor that is OFF, not an
APP gate that spans a change of power state, AON in every 1000th gate. -/
def Mach.judgedClock (m : Mach) (k : Nat) : Bool :=
  if k == 1 then m.pair.aps.a.role != 0 && !m.time.gateSpans
  else if k == 2 then m.pair.aps.b.role != 0 && !m.time.gateSpans
  else if k == 9 then m.time.frame % 1000 == 0
  else true

/-- The condition of a clock fault has ended (17 R526): 1000 good gates, for AON 10; DRV with the car
stationary; APP in both processors; FLD at the reset edge alone. -/
def Mach.clockEnds (m : Mach) (k : Nat) : Bool :=
  let good (j n : Nat) : Bool := decide (n ≤ nth m.time.clkGood j 0) || !m.judgedClock j
  match k with
  | 1 | 2 => good 1 1000 && good 2 1000
  | 6 => good 6 1000 && m.stationary
  | 7 => good 7 1000
  | 9 => good 9 10
  | _ => false

/-- A clock fails in a gate (02 R51): it deviates, or its PLL has lost lock. -/
def Mach.clockFails (m : Mach) (counts unlocked : List Nat) (k : Nat) : Bool :=
  deviates (nth counts k 0) (m.nominal k) || (k != 8 && k != 9 && unlocked.contains k)

/-- One clock of a gate: its deviation, its run of good gates, its fault. -/
def Mach.judgeClock (m : Mach) (counts unlocked : List Nat) (x : Nat × Nat × Nat × Nat) : Mach :=
  let k := x.1
  if !m.judgedClock k then m
  else if m.clockFails counts unlocked k then
    let m1 := m.raise x.2.2.1 x.2.1 x.2.2.2
    if k == 9 && !m.inForce 0 0x0E then { m1 with time.wallValid := false }
    else if k == 8 then m1.safeStates
    else m1
  else m.endIf x.2.2.1 x.2.1 (m.clockEnds k)

/-- The count of a SAFE clock as its monitor takes it: one whose PLL has lost lock fails its gate (02 R51). -/
def safeCount (counts unlocked : List Nat) (k : Nat) : Nat := if unlocked.contains k then 0 else nth counts k 0

/-- The runs and deviations of a gate. -/
def Mach.clockRuns (m : Mach) (counts unlocked : List Nat) : Mach :=
  let good := (List.range 10).map fun k =>
    if !m.judgedClock k then nth m.time.clkGood k 0
    else if m.clockFails counts unlocked k then 0 else nth m.time.clkGood k 0 + 1
  let dev := (List.range 10).map fun k =>
    if k == 0 then devSys (nth counts 3 0) (nth counts 4 0) (nth counts 5 0)
    else if m.judgedClock k then devOf (nth counts k 0) (m.nominal k) else nth m.time.clkDev k 0
  { m with
    time.clkGood := good
    time.clkDev := dev
    triad.clkRun := m.triad.clkRun.map fun c n => if deviates (safeCount counts unlocked (3 + c.idx)) 50000 then 0 else n + 1 }

/-- The clocks judged one by one; the gate that spans a change of power state is over after it (02 R51). -/
def Mach.clocksJudged (m : Mach) (counts unlocked : List Nat) : Mach :=
  let m1 := m.clockRuns counts unlocked
  { m1.each m1.clockFaults fun m x => m.judgeClock counts unlocked x with time.gateSpans := false }

/-- CLOCK_GATE_END (02 R51, R52): acts on the vote of this frame. A SYS PLL that has lost lock is a failure of
its domain too (R50). -/
def Mach.clockGate (m : Mach) (counts unlocked : List Nat) : Mach :=
  let m1 := m.clocksJudged counts unlocked
  let m2 := if unlocked.contains 0 then m1.raise 0 0x08 5 else m1
  match safePattern (safeCount counts unlocked 3) (safeCount counts unlocked 4) (safeCount counts unlocked 5) with
  | .fine => m2
  | .one c =>
    if m2.triad.excluded.get c then m2
    else { (m2.raise triadUnit 0x0A m2.triadClass) with
      triad.propose := m2.triad.propose.set c true
      triad.causes := (m2.triad.causes.filter fun (x : Nat × Nat) => x.1 != c.idx) ++ [(c.idx, 0x0A)] }
  | .sys => m2.raise 0 0x08 5
  | .other => m2.raiseWorse triadUnit 0x0A 5

/-- CLOCK_GATE_END. -/
def execClockGateEnd (g : GateEnd) (s : State) : Res := on s fun m => m.clockGate g.counts g.unlocked

/-- FRAME_TICK_LOST in one core (02 R53): it stops latching vectors and raises 0x0F. -/
def execFrameTickLost (c : CoreId) (s : State) : Res := on s fun m =>
  { (m.raise 0 0x0F 5) with time.ticksMissed := m.time.ticksMissed.set c true }

end Sys2Proof.Machine
end

