-- ==== Sys2Proof/Machine/Link.lean ====
section
/-!
DEFINITION. The isolation link (10 R300 to R311): down-frames and up-frames bit by bit, the voter at
the field side (chapter 09, 02 R42 to R45), and the freeze of the inputs (02 R41, R48).
-/
namespace Sys2Proof.Machine

open Sys2Proof

/-! Frames (10 R301, R302, R307). -/

/-- A frame with its CRC: computed over the frame count and the bytes above the CRC (10 R301). -/
def linkWord (count bytes word : Nat) : Nat := word * 2 ^ 32 + crc32c (le 4 count ++ be bytes word)

/-- A received frame passes its CRC under a frame count. -/
def linkOk (count bytes x : Nat) : Bool := linkWord count bytes (x / 2 ^ 32) == x

/-- KIND of a link tick (10 R303). -/
def kindOf (lt : Nat) : Nat := if lt == 0 then 0 else if lt == 31 || lt == 32 then 2 else if lt == 33 || lt == 34 then 3 else 1

/-- The vector of a core for the vote of this frame (07 R242): in DOZE and PARK the one of the safety
frame before. -/
def Mach.vectorOf (m : Mach) (c : CoreId) : Nat :=
  let k := m.safe.cores.get c
  if m.longFrame then k.latched else k.vector

/-- Header word of a core (10 R304). It proposes no core of the exclusion mask it has read (09 R274). -/
def Mach.headerOf (m : Mach) (c : CoreId) : Nat :=
  let off := m.triad.proof == some c
  let prop := coreIds.foldl (fun x k => x + (if k != c && m.triad.propose.get k && !m.triad.maskRead.get k then 2 ^ k.idx else 0)) 0
  m.fc * 2 ^ 32 + b2n (off && m.triad.proofOut) * 2 ^ 31 + b2n (off && m.triad.rejoinAt != 0) * 2 ^ 30 + prop * 2 ^ 27

/-- The cores latch their header words, once per frame, before link tick 31 (10 R304). -/
def Mach.latchHeads (m : Mach) : Mach := { m with triad.hdr := ⟨m.headerOf .a, m.headerOf .b, m.headerOf .c⟩ }

/-- The core that is out for its proof test has latched a test vector, which the voter checks and does not use (09
R279). -/
def Mach.testVector (m : Mach) (c : CoreId) : Bool :=
  m.heads c && m.triad.proofOut && m.triad.proof == some c && !m.triad.late.get c && !m.triad.stopVec.get c

/-- Core check of a vector (10 R305). -/
def voteCheck (c : CoreId) (count header vec : Nat) : Nat := crc8 ([c.idx] ++ le 4 count ++ le 8 header ++ le 8 vec)

/-- Core check of a header word (10 R305). -/
def headCheck (c : CoreId) (header : Nat) : Nat := crc8 ([c.idx] ++ le 8 header)

/-- Three 64-bit words and their checks as BODY and TAIL: SC-A first. -/
def tripleBody (l : List (Nat × Nat)) : Nat × Nat :=
  (l.foldl (fun x p => x * 2 ^ 64 + p.1) 0, l.foldl (fun x p => x * 256 + p.2) 0)

/-- BODY and TAIL of HEADER and VOTE frames (10 R303). What a core has not latched carries a check that
is wrong. -/
def Mach.coreWords (m : Mach) (vote : Bool) : Nat × Nat :=
  tripleBody (coreIds.map fun c =>
    let h := m.triad.hdr.get c
    if vote then
      let v := m.vectorOf c
      let k := voteCheck c m.fc h v
      if m.latches c || m.testVector c then (v, k) else (0, voteCheck c m.fc h 0 ^^^ 0xFF)
    else if m.heads c then (h, headCheck c h) else (0, headCheck c 0 ^^^ 0xFF))

/-- A control record: type, target, 176 bits of data (10 R303). -/
structure CtlRec where
  type : Nat
  target : Nat
  data : Nat
  deriving DecidableEq, Repr

/-- The record of a queue entry: a channel's configuration, or LINK_TIMEOUT. -/
def Mach.cfgRec (m : Mach) (q : Nat) : CtlRec :=
  if q == globalRec then ⟨4, 0, m.soon 0 pLINK_TIMEOUT * 2 ^ 144⟩ else ⟨1, q, m.cfgBits q * 2 ^ 128⟩

/-- Re-arms and benches that the field side has not received yet (notes/assumptions/33.md). -/
def Mach.urgent (m : Mach) : List CtlRec :=
  ((m.link.rearm.filter fun (r : Nat × Nat) => !m.field.armNext.contains r.1).map fun (r : Nat × Nat) => (⟨2, r.1, 0⟩ : CtlRec))
    ++ ((m.link.benches.filter fun (b : BenchRec) => b.due && !m.field.benchNext.contains (b.ch, b.on, b.val)).map fun (b : BenchRec) =>
      (⟨3, b.ch, (2 * b2n b.on + b2n b.val) * 2 ^ 174⟩ : CtlRec))

/-- The record that a control link tick carries (10 R303): re-arms and benches first, then the queue. -/
def Mach.ctlRec (m : Mach) : CtlRec × Bool :=
  match m.urgent, m.link.cfgQueue with
  | r :: _, _ => (r, false)
  | [], q :: _ => (m.cfgRec q, true)
  | [], [] => (⟨0, 0, 0⟩, false)

/-- BODY and TAIL of a down-frame (10 R303). -/
def Mach.downBody (m : Mach) (lt : Nat) : Nat × Nat :=
  match kindOf lt with
  | 0 => (m.fc * 2 ^ 160 + (match m.pulseName with
      | some c => 2 ^ 159 + c * 2 ^ 153
      | none => 0), 0)
  | 1 => let r := m.ctlRec.1; (r.type * 2 ^ 184 + r.target * 2 ^ 176 + r.data, 0)
  | 2 => m.coreWords false
  | _ => m.coreWords true

/-- The down-frame of a link tick (10 R302). -/
def Mach.downWord (m : Mach) (lt : Nat) : Nat :=
  let b := m.downBody lt
  linkWord m.fc 28 (kindOf lt * 2 ^ 222 + lt * 2 ^ 216 + b.1 * 2 ^ 24 + b.2)

/-- BODY of a received down-frame. -/
def bodyOf (x : Nat) : Nat := Machine.field x 247 56

/-- TAIL of a received down-frame. -/
def tailOf (x : Nat) : Nat := Machine.field x 55 32

/-- The 64-bit word of a core in a BODY. -/
def coreWord (body : Nat) (c : CoreId) : Nat := (body / 2 ^ (64 * (2 - c.idx))) % 2 ^ 64

/-- The check of a core in a TAIL. -/
def coreCheck (tail : Nat) (c : CoreId) : Nat := (tail / 2 ^ (8 * (2 - c.idx))) % 256

/-! The voter (02 R42 to R45; 09 R273 to R281; 10 R306). -/

/-- How the voter sees a core at a vote. -/
inductive CoreVote where
  /-- excluded: disregarded -/
  | excluded
  /-- out for its proof test: counted neither as missing nor as disagreeing; its test vector passes its check -/
  | away (ok : Bool)
  /-- a REJOIN vector, compared and not used; none when it is missing -/
  | rejoin (v : Option Nat)
  /-- no valid vector -/
  | missing
  /-- its vector -/
  | vec (v : Nat)
  deriving DecidableEq, Repr

/-- The view of a core, from the header taken and the VOTE frame (10 R306). -/
def Mach.coreView (m : Mach) (x : Nat) (c : CoreId) : CoreVote :=
  if m.triad.excluded.get c && m.triad.proof != some c then .excluded
  else match m.field.hdrs.get c with
    | none => if m.triad.excluded.get c then .excluded else .missing
    | some h =>
      let v := coreWord (bodyOf x) c
      let ok := coreCheck (tailOf x) c == voteCheck c m.field.frame h v && h / 2 ^ 32 == m.field.frame
      if bit h 31 then .away ok
      else if bit h 30 then .rejoin (if ok then some v else none)
      else if m.triad.excluded.get c then .excluded
      else if ok then .vec v else .missing

/-- De-energised value of a bit (10 R327): off for OUT_SAFE, the programmed safe state otherwise. -/
def Mach.deBit (m : Mach) (i : Nat) : Bool :=
  let mode := m.fMode i
  (mode == 5 || mode == 7) && (match m.fSafe i with
    | 1 => true
    | 2 => bit m.field.driver i
    | _ => false)

/-- A word of 64 bits given bit by bit. -/
def word64 (f : Nat → Bool) : Nat := (List.range 64).foldl (fun x i => if f i then x + 2 ^ i else x) 0

/-- Every bit at its de-energised value. -/
def Mach.deWord (m : Mach) : Nat := word64 m.deBit

/-- Bit by bit, the value on which two vectors agree, else the de-energised one (02 R44). -/
def Mach.twoOfThree (m : Mach) (vs : List Nat) : Nat :=
  word64 fun i =>
    if 2 ≤ (vs.filter fun v => bit v i).length then true
    else if 2 ≤ (vs.filter fun v => !bit v i).length then false
    else m.deBit i

/-- The valid vectors among views. -/
def vectorsOf (l : List (CoreId × CoreVote)) : List Nat :=
  l.filterMap fun p => match p.2 with
    | .vec v => some v
    | _ => none

/-- The cores whose vector was valid, one bit each. -/
def validMask (l : List (CoreId × CoreVote)) : Nat :=
  l.foldl (fun x p => match p.2 with
    | .vec _ => x + 2 ^ p.1.idx
    | _ => x) 0

/-- The cores that vote: those with a vector or missing one. -/
def votingOf (l : List (CoreId × CoreVote)) : List (CoreId × CoreVote) :=
  l.filter fun p => match p.2 with
    | .vec _ => true
    | .missing => true
    | _ => false

/-- The headers of both other cores that are not excluded propose a core (10 R306). -/
def Mach.proposed (m : Mach) (c : CoreId) : Bool :=
  let others := coreIds.filter fun k => k != c && !m.triad.excluded.get k
  others != [] && others.all fun k => match m.field.hdrs.get k with
    | some h => bit h (27 + c.idx)
    | none => false

/-- Two remaining cores decide together (09 R275): the vector both sent, or none. -/
def bothAgree (l : List (CoreId × CoreVote)) : Option Nat :=
  match l with
  | [(_, .vec a), (_, .vec b)] => if a == b then some a else none
  | _ => none

/-- Consecutive votes a core has missed, with this one. -/
def Mach.missNow (m : Mach) (p : CoreId × CoreVote) : Nat := if p.2 == .missing then m.triad.missRun.get p.1 + 1 else 0

/-- Consecutive votes in which a core's vector differed while the other two agreed on every bit, with
this one (09 R273). -/
def Mach.diffNow (m : Mach) (l : List (CoreId × CoreVote)) (bits : Nat) (p : CoreId × CoreVote) : Nat :=
  match p.2 with
  | .vec v =>
    let o := l.filter fun q => q.1 != p.1
    if v != bits && (bothAgree o).isSome then m.triad.diffRun.get p.1 + 1 else 0
  | _ => 0

/-- The fault code for which a core is proposed (09 R273). -/
def Mach.causeOf (m : Mach) (c : CoreId) : Nat := ((m.triad.causes.find? fun (x : Nat × Nat) => x.1 == c.idx).map (·.2)).getD 0x0A

/-- The cause of an exclusion that a vote gives a core: its fault code (09 R273). -/
def Mach.causeNow (m : Mach) (l : List (CoreId × CoreVote)) (bits : Nat) (p : CoreId × CoreVote) : Option Nat :=
  if m.proposed p.1 then some (m.causeOf p.1)
  else if 2 ≤ m.missNow p then some (if m.triad.stopVec.get p.1 then 0x38 else 0x10)
  else if 2 ≤ m.diffNow l bits p then some 0x15
  else none

/-- 0x15 of a core at a vote (09 R273; 13 R424): counted always, its event and record at most once a
second. -/
def Mach.disagreed (m : Mach) (c : CoreId) : Mach :=
  let m1 := { m with triad.disagree := m.triad.disagree.upd c sat32 }
  let due := match m.triad.lastDisEvt.get c with
    | some f => decide (4000 ≤ m.time.frame - f)
    | none => true
  if due then { (m1.raiseMomentary triadUnit 0x15 0) with triad.lastDisEvt := m1.triad.lastDisEvt.set c (some m.time.frame) }
  else m1.count 4 0 0x15

/-- The runs of a vote. -/
def Mach.voteRuns (m : Mach) (l : List (CoreId × CoreVote)) (bits : Nat) : Mach :=
  m.each l fun x p => { x with
    triad.missRun := x.triad.missRun.set p.1 (m.missNow p)
    triad.diffRun := x.triad.diffRun.set p.1 (m.diffNow l bits p) }

/-- What a vote decides: the bits, and what becomes of the triad. -/
def Mach.ballot (m : Mach) (l : List (CoreId × CoreVote)) : Nat × Mach :=
  if m.triad.lost then (m.deWord, m)
  else if l.length == 3 then
    let bits := m.twoOfThree (vectorsOf l)
    let causes := l.filterMap fun p => (m.causeNow l bits p).map fun x => (p.1, x)
    match causes with
    | [] => (bits, m.voteRuns l bits)
    | [(c, code)] =>
      let m1 := (m.voteRuns l bits).exclude c code
      match bothAgree (l.filter fun p => p.1 != c) with
      | some b => (b, m1)
      | none => (m.deWord, m1.loseTriad)
    | _ => (m.deWord, (m.voteRuns l bits).loseTriad)
  else match bothAgree l with
    | some b => if l.any fun p => (m.causeNow l b p).isSome then (m.deWord, m.loseTriad) else (b, m.voteRuns l b)
    | none => (m.deWord, m.loseTriad)

/-- A core has missed the vote deadline (02 R42, R60; 10 R306). -/
def Mach.missedVote (m : Mach) (c : CoreId) : Mach := { m with time.ovrCore := m.time.ovrCore.upd c sat32 }

/-- REJOIN vectors against the result (09 R281); a test vector that fails its check fails the proof test (R279). -/
def Mach.judgeRejoin (m : Mach) (views : List (CoreId × CoreVote)) (bits : Nat) : Mach :=
  m.each views fun m p => match p.2 with
    | .rejoin v => { m with triad.rejoinRun := if v == some bits then m.triad.rejoinRun + 1 else 0 }
    | .away ok => m.proofFound (!ok)
    | _ => m

/-- The core that is out for its test or rejoining is excluded too when the other two propose it (09 R273), which ends
the test. -/
def Mach.outExcluded (m : Mach) (views : List (CoreId × CoreVote)) : Mach :=
  match m.triad.proof with
  | some c =>
    if m.proposed c && !m.triad.excluded.get c && !m.triad.lost && views.any (fun p => p.1 == c && match p.2 with
      | .away _ => true
      | .rejoin _ => true
      | _ => false)
    then ((m.proofDone stUNIT_FAULT).proofOver).exclude c (m.causeOf c)
    else m
  | none => m

/-- The outputs follow the vote (02 R43; 10 R306, R311, R323), unless they are held in their safe states
(02 R54; 10 R311): what a vote has de-energised may be switched on again from the next one. -/
def Mach.applyVote (m : Mach) (bits : Nat) : Mach :=
  let m1 := { m with field.decided := bits }.driveAll (List.range 64)
  { m1 with field.blocked := m1.field.blocked &&& bits }

/-- A trip of the meter starts or ends with the run (12 R397). -/
def Mach.tripVote (m : Mach) (was : Bool) : Mach :=
  let now := m.pubCore.running
  let t := m.ts + 206
  if now && !was then (m.tripStart t).endFault 0x0600 0x25 else if was && !now then m.tripEnd t else m

/-- The vote of a frame from a valid VOTE frame (02 R43, R44; 10 R306). -/
def Mach.vote (m : Mach) (x lt : Nat) : Mach :=
  let views := coreIds.map fun c => (c, m.coreView x c)
  let l := votingOf views
  let r := m.ballot l
  let m1 := r.2.each (l.filter fun p => match p.2 with
    | .vec v => v != r.1
    | _ => true) fun m p => m.disagreed p.1
  let m2 := (m1.each (l.filter fun p => p.2 == .missing) fun m p => m.missedVote p.1).judgeRejoin views r.1 |>.outExcluded views
  let m3 := { m2 with
    field.voteDone := true
    field.votedOnce := true
    field.voteFrame := m2.field.frame
    field.voteSrc := lt - 33
    field.validVecs := validMask views }
  let was := m3.pubCore.running
  ((m3.applyVote r.1).voted r.1 (ltIndex m.time.frame 33)).tripVote was

/-- The link has been established since the restart: the third step of start-up is over (17 R512). -/
def Mach.linkUp (m : Mach) : Bool :=
  match m.start.blockedAt with
  | some k => decide (4 ≤ k)
  | none => decide (4 ≤ m.start.step)

/-- The voter decides in this frame: none before the link is established (18 R537); then in every frame,
in DOZE and PARK in the safety frames (07 R242). -/
def Mach.votesNow (m : Mach) : Bool := m.linkUp && (!m.longFrame || m.safetyFrameNow)

/-! Reception at the field side (10 R303, R309, R311). -/

/-- Configuration records received are applied at the SYNC (10 R303). A channel whose mode changes
starts at its input safe level with its driver off. -/
def Mach.applyCfg (m : Mach) : Mach :=
  let m1 := m.each m.field.cfgNext fun m r =>
    let was := m.fMode r.ch
    let m' := { m with field.cfg := (m.field.cfg.filter fun x => x.ch != r.ch) ++ [r] }
    if m'.fMode r.ch == was then m'
    else { (m'.drive r.ch false) with field.inBits := setBit m'.field.inBits r.ch (m'.fInSafe r.ch) }
  { m1 with
    field.cfgNext := []
    field.tmo := m1.field.tmoNext.getD m1.field.tmo
    field.tmoNext := none }

/-- A valid SYNC (10 R303): the frame count, the pulse named, configuration, benches and re-arms. -/
def Mach.takeSync (m : Mach) (body : Nat) : Mach :=
  let m1 := { m with
    field.frame := Machine.field body 191 160
    field.named := if bit body 159 then some (Machine.field body 158 153) else none }
  m1.applyCfg.benchSync.rearmSync

/-- A valid control record (10 R303). -/
def Mach.takeCtl (m : Mach) (body : Nat) : Mach :=
  match Machine.field body 191 184 with
  | 1 =>
    let r : CfgRecord := ⟨Machine.field body 183 176 % 64, Machine.field body 175 128⟩
    { m with field.cfgNext := (m.field.cfgNext.filter fun x => x.ch != r.ch) ++ [r] }
  | 2 =>
    let t := Machine.field body 183 176
    { m with field.armNext := if m.field.armNext.contains t then m.field.armNext else m.field.armNext ++ [t] }
  | 3 =>
    let c := Machine.field body 183 176 % 64
    { m with field.benchNext := (m.field.benchNext.filter fun x => x.1 != c) ++ [(c, bit body 175, bit body 174)] }
  | 4 => { m with field.tmoNext := some (Machine.field body 175 144) }
  | _ => m

/-- A valid HEADER frame (10 R306): the first one whose check is good, core by core. -/
def Mach.takeHeads (m : Mach) (x : Nat) : Mach :=
  { m with field.hdrs := m.field.hdrs.map fun c h =>
      match h with
      | some v => some v
      | none =>
        let w := coreWord (bodyOf x) c
        if coreCheck (tailOf x) c == headCheck c w then some w else none }

/-- Every valid down-frame counts towards the end of a link time-out (10 R311); the outputs stay as they are until
the next valid vote. -/
def Mach.countDown (m : Mach) (lt : Nat) : Mach :=
  let rec1 := m.field.recover + 1
  let sync := m.field.sawSync || lt == 0
  let over1 := m.field.timeout && decide (16 ≤ rec1) && sync
  { m with
    field.lastValid := ltIndex m.time.frame lt
    field.recover := rec1
    field.sawSync := sync
    field.timeout := m.field.timeout && !over1
    field.decided := if over1 then m.field.driver else m.field.decided
    link.dnGood := m.link.dnGood + 1 }

/-- A valid down-frame taken at the field side. -/
def Mach.takeDown (m : Mach) (lt x : Nat) : Mach :=
  let m1 := m.countDown lt
  match kindOf lt with
  | 0 => m1.takeSync (bodyOf x)
  | 1 => m1.takeCtl (bodyOf x)
  | 2 => m1.takeHeads x
  | _ => if m1.field.voteDone || !m1.votesNow then m1 else m1.vote x lt

/-- The link ticks of the newest losses of a lane: the 161 that 0x92 looks at (10 R309). -/
def lossNoted (l : List Nat) (t : Nat) : List Nat := let n := l ++ [t]; n.drop (n.length - 161)

/-- More than 160 frames of a lane were lost within the second of link ticks that ends now (10 R309). -/
def Mach.lossesHigh (m : Mach) (l : List Nat) : Bool := decide (160 < (l.filter fun t => decide (m.ltNow < t + 160000)).length)

/-- A down-frame that fails is discarded (10 R309). -/
def Mach.lostDown (m : Mach) : Mach :=
  { m with
    field.recover := 0
    field.sawSync := false
    link.dnErr := sat32 m.link.dnErr
    link.dnLost := lossNoted m.link.dnLost m.ltNow
    link.dnGood := 0 }

/-- The control queue moves on once its record has been sent. -/
def Mach.ctlSent (m : Mach) (lt : Nat) : Mach :=
  if kindOf lt == 1 && m.ctlRec.2 then { m with link.cfgQueue := m.link.cfgQueue.drop 1 } else m

/-- A down-frame is valid (10 R309): a SYNC frame by the count it carries, the others by the field
controller's own. -/
def Mach.downGood (m : Mach) (lt x : Nat) : Bool :=
  linkOk (if lt == 0 then Machine.field (bodyOf x) 191 160 else m.field.frame) 28 x && Machine.field x 253 248 == lt

/-- A down-frame arrives at a field controller that runs: it is taken or discarded (10 R309). -/
def Mach.downArrives (m : Mach) (lt x : Nat) : Mach := if m.downGood lt x then m.takeDown lt x else m.lostDown

/-- The cores that have not latched their vectors in time, though they vote. -/
def Mach.lateCores (m : Mach) : List CoreId := coreIds.filter fun c => m.coreVotes c && !m.latches c

/-- The end of the VOTE frames: with none of them valid, the outputs stay (02 R43). -/
def Mach.voteOver (m : Mach) (lt : Nat) : Mach :=
  if lt == 34 && m.votesNow && !m.field.voteDone then { m.each m.lateCores Mach.missedVote with field.voteSrc := 2 } else m

/-- The 256 bits of a down-frame as they arrive, some of them inverted (10 R300, R309). -/
def Mach.downBits (m : Mach) (lt err : Nat) : Nat := m.downWord lt ^^^ (err % 2 ^ 256)

/-- A down-frame that the logic side does not release, for a double-bit error in its source words (01 R18,
R20), is lost to the field side; there is no frame whose check could fail. -/
def Mach.withheldDown (m : Mach) : Mach :=
  { m with
    field.recover := 0
    field.sawSync := false
    link.dnLost := lossNoted m.link.dnLost m.ltNow
    link.dnGood := 0 }

/-- DOWN_FRAME (10 R300 to R306, R309, R311; 02 R43): the frame of a link tick, some of whose bits may
arrive inverted, or which is not released at all (01 R18, R20). -/
def Mach.downFrame (m : Mach) (lt err : Nat) (ecc : Ecc) : Mach :=
  let m := if lt == 31 then m.latchHeads else m
  let x := m.downBits lt err
  let m0 := { m.ctlSent lt with link.lt := lt }
  if !m.field.booted then m0
  else
    let m1 := (if lt == 4 then m0.pulseStart else m0).each (bitsOf m.field.short) Mach.shortTick
    (if ecc == .double then m1.withheldDown else m1.downArrives lt x).voteOver lt

/-- DOWN_FRAME: they stop once a state save is complete (15 R475). -/
def execDownFrame (lt : Nat) (err : Kept Nat) (s : State) : Res :=
  onWhen s (decide (lt < 40) && !s.now.power.saveDone) fun m => (m.downFrame lt err.val err.ecc).eccSeen 10 err.ecc

/-! Up-frames (10 R307 to R309). -/

/-- DIAG of a link tick (10 R308). -/
def Mach.diag (m : Mach) (lt : Nat) : Nat :=
  let f := m.field
  if lt ≤ 31 then (List.range 8).foldl (fun x k => x + Machine.field (m.chStatus (8 * (lt % 8) + k)) 9 2 * 2 ^ (8 * k)) 0
  else if lt == 32 then
    (f.domains.a.vf % 4096) * 2 ^ 52 + (f.domains.b.vf % 4096) * 2 ^ 40 + f.domains.a.state * 2 ^ 36 + f.domains.b.state * 2 ^ 32
      + toU 16 f.die * 2 ^ 16 + b2n f.fallback * 2 ^ 15
  else if lt == 33 then (List.range 8).foldl (fun x g => x + min 255 (aGet f.groupCur g 0 / 25) * 2 ^ (8 * g)) 0
  else if lt == 34 then
    (match f.tpResult with
      | some (c, r) => 2 ^ 63 + c * 2 ^ 57 + r * 2 ^ 55
      | none => 0)
      + (match f.xcPartner with
        | some d => 2 ^ 54 + d * 2 ^ 48
        | none => 0) + m.fieldDigestNow
  else
    (coreIds.foldl (fun x c => x + b2n (f.exclMask.get c) * 2 ^ c.idx) 0) * 2 ^ 61 + f.validVecs * 2 ^ 58 + f.voteSrc * 2 ^ 56
      + f.voteFrame * 2 ^ 24

/-- The up-frame of a link tick (10 R307). -/
def Mach.upWord (m : Mach) (lt : Nat) : Nat :=
  linkWord m.field.frame 26 (lt * 2 ^ 202 + 1 * 2 ^ 200 + (m.field.frame % 256) * 2 ^ 192 + word64 m.inNow * 2 ^ 128
    + word64 m.rbNow * 2 ^ 64 + m.diag lt)

/-- The transitions an up-frame shows against the one before (07 R200). -/
def transitions (old new lt : Nat) : List Trans :=
  (bitsOf (old ^^^ new)).map fun c => ⟨c, bit new c, lt⟩

/-- The diagnostic field of a link tick as it is received (10 R308). -/
def Mach.takeDiag (m : Mach) (lt d : Nat) : Mach :=
  if lt ≤ 31 then { m with link.stat := updAt ((m.link.stat ++ List.replicate 8 0).take 8) (lt % 8) fun _ => d }
  else if lt == 32 then { m with link.sup := d }
  else if lt == 33 then { m with link.cur := d }
  else if lt == 34 then { m with link.fieldDigest := d % 2 ^ 32 }
  else { m with link.voter := d }

/-- A valid up-frame (10 R309; 07 R200). -/
def Mach.takeUp (m : Mach) (lt x : Nat) : Mach :=
  let inn := Machine.field x 223 160
  let i := ltIndex m.time.frame lt
  { m with
    link.trans := if m.link.upAt.isSome then m.link.trans ++ transitions m.link.upIn inn i else m.link.trans
    link.upIn := inn
    link.upRb := Machine.field x 159 96
    link.upAt := some i
    link.upGood := m.link.upGood + 1 }.takeDiag lt (Machine.field x 95 32)

/-- An invalid up-frame counts as lost (10 R309). A field controller that has not booted sends none. -/
def Mach.lostUp (m : Mach) (lt : Nat) : Mach :=
  if m.field.booted then
    { m with
      link.upErr := sat32 m.link.upErr
      link.upLost := lossNoted m.link.upLost (ltIndex m.time.frame lt)
      link.upGood := 0 }
  else { m with link.upGood := 0 }

/-- The 240 bits of an up-frame as they arrive, some of them inverted (10 R307, R309). -/
def Mach.upBits (m : Mach) (lt err : Nat) : Nat := m.upWord lt ^^^ (err % 2 ^ 240)

/-- An up-frame is valid (10 R309). -/
def Mach.upGoodNow (m : Mach) (lt x : Nat) : Bool :=
  m.field.booted && linkOk m.fc 26 x && Machine.field x 239 234 == lt && Machine.field x 231 224 == m.fc % 256

/-- UP_FRAME (10 R307 to R309): the frame of a link tick, some of whose bits may arrive inverted; one with
a double-bit error in the receive buffer counts as lost (01 R18, R20). -/
def Mach.upFrame (m : Mach) (lt err : Nat) (ecc : Ecc) : Mach :=
  if m.upGoodNow lt (m.upBits lt err) && ecc != .double then m.takeUp lt (m.upBits lt err) else m.lostUp lt

/-- UP_FRAME. -/
def execUpFrame (lt : Nat) (err : Kept Nat) (s : State) : Res :=
  onWhen s (decide (lt < 40) && !s.now.power.saveDone) fun m => (m.upFrame lt err.val err.ecc).eccSeen 10 err.ecc

/-- LINK_ERROR_RATE (10 R309): more than 160 frames of a lane lost within one second. -/
def execLinkErrorRate (up : Bool) (s : State) : Res :=
  onWhen s (s.now.lossesHigh (if up then s.now.link.upLost else s.now.link.dnLost)) fun m => m.raise 0 0x92 1

/-- FIELD_CONFIG_MISMATCH (10 R310). -/
def execFieldConfigMismatch (s : State) : Res :=
  onWhen s (decide (64 ≤ s.now.link.digBad)) fun m => m.raise 0 0x96 5

/-! What a frame brings the link. -/

/-- The field controller's own frame begins (02 R40; 10 R306). -/
def Mach.fieldTick (m : Mach) : Mach :=
  { m with
    link.lt := 0
    field.frame := (m.field.frame + 1) % 2 ^ 32
    field.hdrs := ⟨none, none, none⟩
    field.voteDone := false
    field.tpResult := none
    field.xcPartner := none
    field.named := none }

/-- 0x92 ends after one second of powered time within the limits (10 R338). -/
def Mach.linkSecond (m : Mach) : Mach :=
  m.endAfter 0 0x92 4000 (!m.lossesHigh m.link.upLost && !m.lossesHigh m.link.dnLost)

/-- The cores compare the digests (10 R310, R338). Records that did not arrive are sent again
(notes/assumptions/33.md). -/
def Mach.compareDigest (m : Mach) : Mach :=
  if m.link.upAt.isNone then m
  else if m.link.fieldDigest == m.coreDigestNow then
    let n := m.link.digOk + 1
    { m with
      link.digBad := 0
      link.digOk := n }.endIf 0 0x96 (decide (64 ≤ n))
  else
    let m1 := { m with
      link.digBad := m.link.digBad + 1
      link.digOk := 0 }
    if m1.link.cfgQueue == [] && m1.field.cfgNext == [] && m1.link.digBad % 4 == 3 then m1.queueAllCfg else m1

/-- The input freeze (02 R41, R48): the newest valid up-frame, its transitions, the exclusion mask (09 R274), and what
the field controller reports. One that is more than two link ticks older than the tick leaves the inputs of
this frame missing and raises 0x91. -/
def Mach.freeze (m : Mach) : Mach :=
  let tick := ltIndex m.time.frame 0
  let stale := match m.link.upAt with
    | some i => decide (2 < tick - i)
    | none => true
  if stale then
    let m1 := { m with
      link.missing := true
      link.frTrans := []
      link.frLt := tick - 1 }
    if m.link.upAt.isSome || m.start.ready then m1.raise 0 0x91 5 else m1
  else
    let m1 := { m with
      link.missing := false
      link.frIn := m.link.upIn
      link.frRb := m.link.upRb
      link.frLt := m.link.upAt.getD (tick - 1)
      link.frTrans := m.link.trans
      link.trans := []
      triad.maskRead := ⟨bit m.link.voter 61, bit m.link.voter 62, bit m.link.voter 63⟩ }
    m1.takeReports.takeSupplies.compareDigest

end Sys2Proof.Machine
end

