-- ==== Sys2Proof/Machine/Pair.lean ====
section
/-!
DEFINITION. The application pair and the tether (09 R283 to R296; 02 R46, R47).
-/
namespace Sys2Proof.Machine

open Sys2Proof

/-- Handle of the pair. -/
def pairUnit : Nat := 0x0600

/-- A processor. -/
def Mach.ap (m : Mach) (a : Ab) : ApState := m.pair.aps.get a

/-- Change a processor. -/
def Mach.onAp (m : Mach) (a : Ab) (f : ApState → ApState) : Mach := { m with pair.aps := m.pair.aps.upd a f }

/-- PAIR_PREFERRED as a processor (09 R298). -/
def Mach.preferred (m : Mach) : Ab := if m.nat pPAIR_PREFERRED == 2 then .b else .a

/-- A processor is STANDBY. -/
def Mach.standby (m : Mach) (a : Ab) : Bool := (m.ap a).role == 3

/-- A processor becomes SYNCING (09 R287). 0x20 is raised once it has been STANDBY. -/
def Mach.unsync (m : Mach) (a : Ab) : Mach :=
  let p := m.ap a
  if p.role == 3 || p.role == 2 then
    let m1 := m.onAp a fun x => { x with role := 2, cleanRun := 0 }
    if p.everStandby then m1.raise pairUnit 0x20 2 else m1
  else m

/-- A processor that lost the tether by a trigger other than a command is out of sync, and is held in reset for
1 ms from 210 µs of the first frame after it that it does not deliver; the fourth loss within 24 h stops it
(09 R292). -/
def Mach.lostTether (m : Mach) (a : Ab) : Mach :=
  let old := (m.ap a).losses.filter fun f => decide (m.time.frame - f < hF 24)
  let l := old ++ [m.time.frame]
  if 4 ≤ l.length then
    (m.onAp a fun x => { x with role := 5, losses := l, resetUntil := none, gotSnapshot := false, cleanRun := 0, booted := false }).raise pairUnit 0x27 2
  else
    let m1 := m.onAp a fun x => { x with role := 2, losses := l, resetDue := true, gotSnapshot := false, cleanRun := 0 }
    if (m.ap a).everStandby then m1.raise pairUnit 0x20 2 else m1

/-- At 210 µs the triad holds in reset the processor that has lost the tether (09 R292). -/
def Mach.startResets (m : Mach) : Mach :=
  { m with pair.aps := m.pair.aps.map fun _ x =>
      if x.resetDue then { x with resetDue := false, role := 1, booted := false, resetUntil := some (m.time.frame + 4) } else x }

/-- The tether passes to a processor (09 R288): the old holder stays STANDBY after a command. -/
def Mach.passTether (m : Mach) (to1 : Ab) (command : Bool) : Mach :=
  let m1 := match m.pair.holder with
    | some h => if command then m.onAp h fun x => { x with role := 3, gotSnapshot := true } else m.lostTether h
    | none => m
  { (m1.onAp to1 fun x => { x with role := 4 }) with
    pair.holder := some to1
    pair.choice := some to1
    pair.armed := none
    pair.passTo := none
    pair.missRun := 0
    pair.noHolder := 0
    pair.snapFor := none
    pair.takeover := true
    pair.fresh := true
    pair.tethMon := to1 == .a }

/-- No processor holds the tether any more, after so many frames of ballast hold: with none ACTIVE the pair
enters FAULT (09 R283, R290). -/
def Mach.noTether (m : Mach) (frames : Nat) : Mach :=
  { m.entersFault pairUnit with
    pair.holder := none
    pair.armed := none
    pair.noHolder := frames
    pair.snapFor := none }

/-- The second missed handover without a STANDBY processor (09 R288): two frames of ballast hold are over. -/
def Mach.dropTether (m : Mach) : Mach :=
  match m.pair.holder with
  | some h => { (m.lostTether h).noTether 2 with pair.choice := none }
  | none => m

/-- The cores never select a processor that is not STANDBY or ACTIVE (09 R284). -/
def Mach.selectable (m : Mach) (a : Ab) : Bool := m.standby a || (m.ap a).role == 4

/-- A core writes its tether selection in this frame: it runs, and is not excluded (09 R284). -/
def Mach.writesSel (m : Mach) (inp : FrameIn) (c : CoreId) : Bool :=
  m.voters.contains c && m.triad.mails.get c && !inp.dead.get c && !m.time.ticksMissed.get c

/-- The selections of the frame (09 R284): the cores keep their holder. -/
def Mach.writeSels (m : Mach) (inp : FrameIn) : Mach :=
  let ch := match m.pair.choice with
    | some a => if m.selectable a then some a else none
    | none => none
  { m with
    pair.choice := ch
    pair.sel := ⟨if m.writesSel inp .a then ch else none, if m.writesSel inp .b then ch else none,
      if m.writesSel inp .c then ch else none⟩ }

/-- Two cores write a selection in this frame. -/
def Mach.selects (m : Mach) (inp : FrameIn) : Bool := decide (2 ≤ (coreIds.filter (m.writesSel inp)).length)

/-- The selection in force: the processor on which two cores agree (09 R284). -/
def Mach.selected? (m : Mach) : Option Ab :=
  [Ab.a, .b].find? fun a => decide (2 ≤ (coreIds.filter fun c => m.pair.sel.get c == some a).length)

/-- The holder has the tether again: the cores had kept their selection of it (09 R284, R293). -/
def Mach.regrant (m : Mach) (a : Ab) : Mach :=
  { m.onAp a fun x => { x with role := 4 } with
    pair.holder := some a
    pair.noHolder := 0
    pair.missRun := 0
    pair.dualUntil := some (m.time.frame + 64) }

/-- The selections come into force (09 R284): without two that agree no processor holds the tether, and the one that
held it is no more than STANDBY; with two that agree again it returns to it. -/
def Mach.selection (m0 : Mach) (inp : FrameIn) : Mach :=
  let m := m0.writeSels inp
  match m.pair.holder, m.selected? with
  | some h, none => (m.onAp h fun x => { x with role := 3 }).noTether 0
  | none, some h => m.regrant h
  | _, _ => m

/-- A processor misses its handover in this frame: late at 210 µs, or delivering nothing. -/
def missed (inp : FrameIn) (a : Ab) : Bool := inp.apLate.get a || inp.ap.get a == .dead

/-- Overruns of a frame (02 R46, R47). -/
def Mach.overruns (m : Mach) (inp : FrameIn) : Mach :=
  { m with
    time.ovrAp := m.time.ovrAp.map fun a n => if missed inp a && (m.ap a).role != 0 then sat32 n else n
    time.ovrApRun := m.time.ovrApRun.map fun a n => if missed inp a then n + 1 else 0 }

/-- The digests of the frame before are compared at this freeze (09 R285): no processor overran in it, and there
is a second one that computes. -/
def Mach.compared (m : Mach) : Bool :=
  match m.pair.holder with
  | some h => ((m.ap h.other).role == 3 || (m.ap h.other).role == 2) && m.time.ovrApRun.a == 0 && m.time.ovrApRun.b == 0
  | none => false

/-- A processor shows a reason for a difference (09 R288): an integrity fault, 0x3A or an overrun. -/
def Mach.suspect (m : Mach) (inp : FrameIn) (a : Ab) : Bool :=
  inp.ap.get a != .fine || (m.ap a).integrity || decide (4 ≤ (m.pos.discord.get a).own) || m.time.ovrApRun.get a != 0

/-- The reasons shown since the digests differ: from the first differing frame to the second (09 R288). -/
def Mach.noteMarks (m : Mach) (inp : FrameIn) : Mach :=
  { m with pair.marks := m.pair.marks.map fun a was => (m.pair.diffRun != 0 && was) || m.suspect inp a }

/-- What a processor delivers in a frame, byte by byte: the commands of the channels, the requests, the setpoints of the
doors and the plan. The rule names every output and gives no layout (DESIGN CHOICE, notes/assumptions/31.md). -/
def Mach.outputBytes (m : Mach) : List Nat :=
  le 4 m.fc ++ le 8 m.link.cmd ++ [b2n m.safe.req.run + 2 * b2n m.safe.req.brake + 4 * b2n m.safe.req.bridge] ++ le 2 m.sched.planId
    ++ [m.doors.a.state, m.doors.b.state] ++ leS 4 m.doors.a.refX ++ leS 4 m.doors.b.refX ++ leS 4 m.doors.a.refV ++ leS 4 m.doors.b.refV

/-- The frame state of a processor after a frame, byte by byte (09 R285; DESIGN CHOICE, notes/assumptions/31.md). -/
def Mach.stateBytes (m : Mach) : List Nat :=
  le 4 m.fc ++ le 4 m.sched.epoch ++ le 2 m.sched.target ++ [m.sched.dir] ++ leS 4 m.fpos
    ++ m.sched.calls.flatMap fun c => le 2 c.landing ++ [c.kind] ++ le 8 c.time

/-- The digests that both processors write in the output delivery of a frame (09 R285). -/
def Mach.writeDigests (m : Mach) (inp : FrameIn) : Mach :=
  let o := crc32c m.outputBytes
  let s := crc32c m.stateBytes
  { m with pair.digests := inp.digestErr.map fun _ e => (o ^^^ (e.1 % 2 ^ 32), s ^^^ (e.2 % 2 ^ 32)) }

/-- The digests of the frame before differ (09 R285). -/
def Mach.digestsDiffer (m : Mach) : Bool := m.pair.digests.a != m.pair.digests.b

/-- Shadow comparison (09 R285, R288): the difference is counted, and attributed at the second one. -/
def Mach.shadowCompare (m : Mach) : Mach :=
  if !m.compared then m
  else if !m.digestsDiffer then { m with pair.diffRun := 0 }
  else
    let n := m.pair.diffRun + 1
    let m1 := { m with
      pair.diffRun := n
      pair.mismatch := sat32 m.pair.mismatch
      pair.snapEq := false }
    if n < 2 then m1
    else match m.pair.holder with
      | none => m1
      | some h =>
        let m2 := m1.raise pairUnit 0x23 2
        if m.pair.marks.get h && !m.pair.marks.get h.other then (if m2.standby h.other then m2.passTether h.other false else m2)
        else m2.unsync h.other

/-- The triggers of 09 R288 seen at this freeze that pass the tether at 180 µs of this frame. -/
def Mach.passAtFreeze (m : Mach) (inp : FrameIn) : Mach :=
  match m.pair.holder with
  | none =>
    let p := m.preferred
    if !m.selects inp || m.pair.choice.isSome then m
    else if m.standby p then m.passTether p true
    else if m.standby p.other then m.passTether p.other true
    else m
  | some h =>
    let o := h.other
    let m1 := match m.pair.passTo with
      | some (x, _) => if x != h && m.standby x then m.passTether x true else { m with pair.passTo := none }
      | none => m
    if m1.pair.holder != some h then m1
    else if inp.ap.get h == .integrity then
      let m2 := (m1.onAp h fun x => { x with integrity := true }).raise pairUnit 0x22 2
      if m2.standby o then m2.passTether o false else m2
    else if m1.inForce 1 0x3A && decide (4 ≤ (m1.pos.discord.get h).own) && (m1.pos.discord.get o).own == 0 && m1.standby o then
      m1.passTether o false
    else m1

/-- What the other processor shows (09 R287, R288): an integrity fault, 0x3A, two overruns or a chain
stopped for more than four frames leave it out of sync. -/
def Mach.otherFrame (m : Mach) (inp : FrameIn) : Mach :=
  match m.pair.holder with
  | none => m
  | some h =>
    let o := h.other
    let bad := inp.ap.get o == .integrity
    let m1 := if bad && (m.ap o).role != 0 then (m.onAp o fun x => { x with integrity := true }).raise pairUnit 0x22 2
      else m.onAp o fun x => { x with integrity := bad && x.integrity }
    if bad || decide (4 ≤ (m1.pos.discord.get o).own) || decide (2 ≤ m1.time.ovrApRun.get o) || decide (4 < m1.pair.deltaGap) then m1.unsync o else m1

/-- The holder's handover at 210 µs (02 R46; 09 R288): the first miss arms the successor, the second
passes the tether or leaves it with no holder. -/
def Mach.handover (m : Mach) (inp : FrameIn) : Mach :=
  match m.pair.holder with
  | none => { m with
      pair.noHolder := m.pair.noHolder + 1
      time.ballast := m.start.ready }
  | some h =>
    if !missed inp h then { m with
      pair.missRun := 0
      pair.armed := none
      time.ballast := false }
    else
      let n := m.pair.missRun + 1
      let m1 := { m with
        pair.missRun := n
        pair.armed := if m.standby h.other then some h.other else none
        time.ballast := true }
      if n < 2 then m1
      else
        let m2 := m1.raise pairUnit 0x21 2
        if m2.standby h.other then m2.passTether h.other false else m2.dropTether

/-- Deltas and snapshot chunks of a frame (09 R286): one whose source words hold a double-bit error gets no valid mark
and is incomplete. Until the new holder has taken over, the copy stays where it was. -/
def Mach.copyWrites (m : Mach) (inp : FrameIn) : Mach :=
  if m.pair.takeover then m
  else if m.pair.holder.isNone || m.time.ballast then
    { m with
      pair.deltaOk := false
      pair.deltaGap := m.pair.deltaGap + 1
      pair.snapFor := none }
  else
    let f := m.time.frame
    let ok := m.pair.deltaOk && inp.deltaEcc != .double
    let m1 := { m with
      pair.deltaOk := ok
      pair.copyFrame := if ok then f else m.pair.copyFrame
      pair.deltaGap := if ok then 0 else m.pair.deltaGap + 1
      pair.lastDelivered := f }
    if f % 64 == 0 then { m1 with
      pair.snapFor := some f
      pair.snapChunks := 0 }
    else if inp.chunkEcc == .double then { m1 with pair.snapFor := none }
    else match m.pair.snapFor with
      | some _ => { m1 with pair.snapChunks := min 8 (m1.pair.snapChunks + 1) }
      | none => m1

/-- The clean frames of a SYNCING processor (09 R287). -/
def Mach.cleanFrames (m : Mach) : Mach :=
  match m.pair.holder with
  | none => m
  | some h =>
    let good := m.pair.deltaOk && !m.time.ballast && !(m.compared && m.digestsDiffer) && (m.ap h.other).gotSnapshot
    m.onAp h.other fun x => { x with cleanRun := if good then x.cleanRun + 1 else 0 }

/-- Faults of the pair that follow from its state (09 R287, R290, R296, R299). -/
def Mach.pairFaults (m : Mach) : Mach :=
  let a := m.ap .a
  let b := m.ap .b
  let m1 := if !a.booted || !b.booted then m
    else if a.compat != b.compat then m.raise pairUnit 0x26 1 else m.endFault pairUnit 0x26
  m1.endIf pairUnit 0x24 m1.pair.holder.isSome

/-- TETH_MON (09 R284): high while AP-1 holds the tether, low while AP-2 does; at every tick without a holder it
toggles. -/
def Mach.tethPin (m : Mach) : Mach :=
  { m with pair.tethMon := match m.pair.holder with
    | some h => h == .a
    | none => !m.pair.tethMon }

/-- The pair's part of a frame. -/
def Mach.pairFrame (m : Mach) (inp : FrameIn) : Mach :=
  if m.power.state == 3 then m.tethPin
  else
    let m0 := ((m.selection inp).noteMarks inp).shadowCompare.passAtFreeze inp
    let m1 := m0.cleanFrames.overruns inp
    let m2 := (((m1.otherFrame inp).startResets.handover inp).copyWrites inp).tethPin
    let sb := match m2.pair.holder with
      | some h => m2.standby h.other
      | none => false
    { m2 with pair.standbyRun := if sb then m2.pair.standbyRun + 1 else 0 }.pairFaults

/-! Events (09 R286, R287, R289, R290, R292, R293). -/

/-- TAKEOVER (09 R289): in the first frame whose outputs the new holder delivers. Its deltas begin a new chain. -/
def execTakeover (s : State) : Res :=
  onWhen s (s.now.pair.takeover && s.now.pair.holder.isSome && !s.now.time.ballast) fun m =>
    let t := m.time.frame
    let age := t - m.pair.copyFrame
    let m1 := { m with
      pair.takeover := false
      pair.switches := sat32 m.pair.switches
      pair.ballast := satAdd 32 m.pair.ballast (t - m.pair.lastDelivered - 1)
      pair.age := min 255 age
      pair.copyFrame := t
      pair.lastDelivered := t
      pair.deltaOk := true
      pair.deltaGap := 0
      pair.dualUntil := some (t + 64) }
    let who := match m.pair.holder with
      | some .a => 1
      | _ => 2
    let m2 := (m1.post 8 2 pairUnit who 0).endFault pairUnit 0x21
    if 4 < age then m2.raise pairUnit 0x25 4 else m2

/-- PAIR_NO_HOLDER (09 R290): beyond the two frames of ballast hold. -/
def execPairNoHolder (s : State) : Res :=
  onWhen s (s.now.start.ready && s.now.power.state != 3 && s.now.pair.holder.isNone && decide (3 ≤ s.now.pair.noHolder)) fun m => m.raise pairUnit 0x24 4

/-- SNAPSHOT_COMPLETE (09 R286): equal to the copy state it becomes the last complete one; otherwise
the copy is replaced and the standby becomes SYNCING. -/
def execSnapshotComplete (s : State) : Res :=
  match s.now.pair.snapFor, s.now.pair.holder with
  | some f, some h => onWhen s (s.now.pair.snapChunks == 8) fun m =>
    let eq := m.pair.deltaOk && m.pair.snapEq && (m.ap h.other).gotSnapshot
    let m1 := { m with
      pair.snapFor := none
      pair.snapChunks := 0
      pair.snapEq := true
      pair.snapFrame := f % 2 ^ 32
      pair.deltaOk := true
      pair.deltaGap := 0
      pair.copyFrame := m.time.frame }
    let r := (m.ap h.other).role
    if eq || r == 0 || r == 1 || r == 5 then m1
    else
      let m2 := (m1.unsync h.other).onAp h.other fun x => { x with gotSnapshot := true, cleanRun := 0 }
      if (m2.pos.est.get h.other.proc).inited then m2
      else { m2 with pos.est := m2.pos.est.set h.other.proc (m2.pos.est.get h.proc) }
  | _, _ => .next s

/-- STANDBY_IN_SYNC (09 R287, R296, R299; 03 R96). -/
def execStandbyInSync (s : State) : Res :=
  match s.now.pair.holder with
  | none => .next s
  | some h =>
    let o := s.now.ap h.other
    onWhen s (o.role == 2 && o.gotSnapshot && decide (64 ≤ o.cleanRun) && o.compat == (s.now.ap h).compat && !o.integrity) fun m =>
      ((m.onAp h.other fun x => { x with role := 3, everStandby := true }).endFault pairUnit 0x20).endFault pairUnit 0x22
        |>.endFault pairUnit 0x23 |>.endFault 1 0x3A

/-- A processor that was OFF for a firmware reload is BOOTING (09 R283); 0x20 is raised once it has been STANDBY
(R287). -/
def Mach.afterReload (m : Mach) (a : Ab) : Mach :=
  if (m.ap a).role == 0 then
    let m1 := m.onAp a fun x => { x with role := 1 }
    if (m.ap a).everStandby then m1.raise pairUnit 0x20 2 else m1
  else m

/-- AP_RESET_RELEASE (09 R292; 16 R508): after 1 ms the processor boots; BOOT_VERIFIED follows. -/
def execApResetRelease (a : Ab) (s : State) : Res :=
  onWhen s (match (s.now.ap a).resetUntil with
    | some f => decide (f ≤ s.now.time.frame)
    | none => false) fun m => (m.onAp a fun x => { x with resetUntil := none }).afterReload a

/-- DUAL_TX (09 R293, R298). -/
def Mach.dualTx (m : Mach) : Bool :=
  (m.time.running && m.pair.dualStart) || m.triad.proof.isSome || (match m.pair.dualUntil with
    | some f => decide (m.time.frame < f)
    | none => false)

/-- DUAL_TX_END (09 R293): the period from start-up, or the 64 frames after a change, are over. -/
def execDualTxEnd (s : State) : Res :=
  onWhen s ((s.now.pair.dualStart && decide (64 ≤ s.now.pair.standbyRun)) || (match s.now.pair.dualUntil with
      | some f => decide (f ≤ s.now.time.frame)
      | none => false)) fun m =>
    { m with
      pair.dualStart := m.pair.dualStart && !decide (64 ≤ m.pair.standbyRun)
      pair.dualUntil := match m.pair.dualUntil with
        | some f => if f ≤ m.time.frame then none else some f
        | none => none }

/-- SWITCH_OVER and SWITCH_BACK (09 R291). -/
def Mach.switchTo (m : Mach) (to1 : Ab) (back : Bool) : Mach × Nat × List Nat :=
  if m.triad.proof.isSome then refuse m stBUSY
  else if back && m.pair.holder == some to1 then ok m
  else if !m.standby to1 then refuse m stWRONG_MODE
  else ok { m with pair.passTo := some (to1, 0) }

/-- SWITCH_OVER. -/
def execSwitchOver (tag : Nat) (s : State) : Res :=
  serve s 0xA1 tag fun m => m.switchTo (match m.pair.holder with
    | some h => h.other
    | none => m.preferred) false

/-- SWITCH_BACK. -/
def execSwitchBack (tag : Nat) (s : State) : Res := serve s 0xA2 tag fun m => m.switchTo m.preferred true

/-- TETHER_HOLDER (09 R298). -/
def Mach.holderN (m : Mach) : Nat :=
  match m.pair.holder with
  | none => 0
  | some .a => 1
  | some .b => 2

/-- DUPLEX_LEFT in seconds, a second begun counting as whole (09 R298). -/
def Mach.duplexLeftS (m : Mach) : Nat := (m.triad.duplexLeft + 3999) / 4000

/-- PAIR_STATUS (14 R460). -/
def execPairStatus (tag : Nat) (s : State) : Res :=
  serve s 0xA0 tag fun m =>
    let o := s.shown
    (m, stOK, [o.triadMode, coreIds.foldl (fun x c => x + b2n (o.triad.excluded.get c) * 2 ^ c.idx) 0,
      (match o.triad.proof with
        | some c => c.idx + 1
        | none => 0), (o.ap .a).role, (o.ap .b).role, o.holderN, m.nat pPAIR_PREFERRED, b2n o.dualTx]
      ++ le 4 o.duplexLeftS ++ le 4 o.pair.switches ++ le 4 o.pair.snapFrame)

end Sys2Proof.Machine
end

