-- ==== Sys2Proof/Machine/Bus.lean ====
section
/-!
DEFINITION. The shaft bus ports (11 R339 to R362, R376 to R380): bit timing, message objects, the
schedule matrix, time references, errors, sleep and wake, and the port as a unit.
-/
namespace Sys2Proof.Machine

open Sys2Proof

/-- A port. -/
def Mach.prt (m : Mach) (p : Ab) : PortState := m.bus.ports.get p

/-- Change a port. -/
def Mach.onPort (m : Mach) (p : Ab) (f : PortState → PortState) : Mach := { m with bus.ports := m.bus.ports.upd p f }

/-! The messages of the Yanel shaft profile (11 R363). -/

/-- A message of 11 R363. -/
inductive Msg where
  | timeRef | drvSp | drvFb
  | lock (node : Nat)
  | groupCmd | groupRes | groupHb | carStatus | panelBtn | panelInd
  | hallBtn (landing : Nat)
  | hallInd (block : Nat)
  deriving DecidableEq, Repr

/-- Kind of its object: 1 RX, 2 TX_EVENT, 3 TX_TT (11 R363). -/
def Msg.kind : Msg → Nat
  | .timeRef => 3
  | .drvSp => 3
  | .drvFb => 1
  | .lock _ => 1
  | .groupCmd => 1
  | .groupRes => 2
  | .groupHb => 1
  | .carStatus => 2
  | .panelBtn => 1
  | .panelInd => 2
  | .hallBtn _ => 1
  | .hallInd _ => 2

/-- Its length in bytes (11 R363). -/
def Msg.len : Msg → Nat
  | .timeRef => 24
  | .drvSp => 48
  | .drvFb => 32
  | .lock _ => 20
  | .groupCmd => 12
  | .groupRes => 12
  | .groupHb => 8
  | .carStatus => 24
  | .panelBtn => 8
  | .panelInd => 48
  | .hallBtn _ => 8
  | .hallInd _ => 24

/-- Its TYPE byte; none for the drive messages (11 R363, R364). -/
def Msg.type : Msg → Option Nat
  | .timeRef => some 0x01
  | .drvSp => none
  | .drvFb => none
  | .lock _ => some 0x10
  | .groupCmd => some 0x20
  | .groupRes => some 0x21
  | .groupHb => some 0x22
  | .carStatus => some 0x23
  | .panelBtn => some 0x30
  | .panelInd => some 0x31
  | .hallBtn _ => some 0x40
  | .hallInd _ => some 0x41

/-- It ends in the safety CRC (11 R363, R365). -/
def Msg.safety : Msg → Bool
  | .timeRef => true
  | .drvSp => true
  | .drvFb => true
  | .lock _ => true
  | _ => false

/-- Its identifier (11 R363). -/
def Mach.msgIdent (m : Mach) : Msg → Nat
  | .timeRef => m.nat pTIME_REF_ID
  | .drvSp => m.nat pDRV_SP_ID
  | .drvFb => m.nat pDRV_FB_ID
  | .lock n => m.nat pLOCK_ID_BASE + n
  | .groupCmd => m.nat pGROUP_ID_BASE + m.nat pCAR_NO
  | .groupRes => m.nat pGROUP_ID_BASE + 0x10 + m.nat pCAR_NO
  | .groupHb => m.nat pGROUP_ID_BASE + 0x20
  | .carStatus => m.nat pGROUP_ID_BASE + 0x30 + m.nat pCAR_NO
  | .panelBtn => m.nat pPANEL_ID_BASE
  | .panelInd => m.nat pPANEL_ID_BASE + 1
  | .hallBtn l => m.nat pHALL_ID_BASE + l
  | .hallInd b => m.nat pHALL_IND_BASE + b

/-- The parameters of unit 0x0000 that place a message (11 R357, R378). -/
def Msg.placedBy : Msg → List Nat
  | .timeRef => [pTIME_REF_ID]
  | .drvSp => [pDRV_PORT, pDRV_SP_ID]
  | .drvFb => [pDRV_PORT, pDRV_FB_ID]
  | .lock _ => [pLOCK_PORT, pLOCK_ID_BASE]
  | .groupCmd => [pGROUP_PORT, pGROUP_ID_BASE, pCAR_NO]
  | .groupRes => [pGROUP_PORT, pGROUP_ID_BASE, pCAR_NO]
  | .groupHb => [pGROUP_PORT, pGROUP_ID_BASE]
  | .carStatus => [pGROUP_PORT, pGROUP_ID_BASE, pCAR_NO]
  | .panelBtn => [pFIXTURE_PORT, pPANEL_ID_BASE]
  | .panelInd => [pFIXTURE_PORT, pPANEL_ID_BASE]
  | .hallBtn _ => [pFIXTURE_PORT, pHALL_ID_BASE]
  | .hallInd _ => [pFIXTURE_PORT, pHALL_IND_BASE]

/-- The LOCK_NODE values in use, ascending. -/
def Mach.lockNodes (m : Mach) : List Nat :=
  let l := m.landings.map fun l => (m.land l pLOCK_NODE).toNat
  (List.range 255).filter fun n => n != 0 && l.contains n

/-- The time reference is sent on a port with TIME_ROLE MASTER (11 R351). -/
def Mach.master (m : Mach) (p : Ab) : Bool := m.port p pTIME_ROLE == 0

/-- DRV_PORT. -/
def Mach.drvPort (m : Mach) : Ab := abOf (m.nat pDRV_PORT)

/-- The messages a port carries, in the order of 11 R363 (11 R376). -/
def Mach.profMsgs (m : Mach) (p : Ab) : List Msg :=
  (if m.master p then [Msg.timeRef] else [])
    ++ (if m.drvPort == p then [.drvSp, .drvFb] else [])
    ++ (if abOf (m.nat pLOCK_PORT) == p then m.lockNodes.map Msg.lock else [])
    ++ (if abOf (m.nat pGROUP_PORT) == p then [.groupCmd, .groupRes, .groupHb, .carStatus] else [])
    ++ (if abOf (m.nat pFIXTURE_PORT) == p then
        [.panelBtn, .panelInd] ++ m.landings.map Msg.hallBtn
          ++ (List.range ((m.nLandings + 31) / 32)).map Msg.hallInd
      else [])

/-- Object numbers from 511 downwards that the host has not bound. -/
def PortState.freeNums (x : PortState) : List Nat :=
  (List.range 512).reverse.filter fun n => !x.objs.any fun (o : ObjRec) => o.num == n

/-- The objects the profile holds on a port: number and message (11 R376). -/
def Mach.profObjs (m : Mach) (p : Ab) : List (Nat × Msg) := (m.prt p).freeNums.zip (m.profMsgs p)

/-- The message whose object has a number. -/
def Mach.profAt (m : Mach) (p : Ab) (n : Nat) : Option Msg :=
  ((m.profObjs p).find? fun (x : Nat × Msg) => x.1 == n).map (·.2)

/-- The number of a message's object. -/
def Mach.profNum (m : Mach) (p : Ab) (g : Msg) : Nat :=
  (((m.profObjs p).find? fun (x : Nat × Msg) => x.2 == g).map (·.1)).getD 0

/-- OBJ_USED (11 R377). -/
def Mach.objUsed (m : Mach) (p : Ab) : Nat := (m.prt p).objs.length + (m.profMsgs p).length

/-- A fresh object of the profile. -/
def Mach.profFresh (m : Mach) (n : Nat) (g : Msg) : ObjRec :=
  { ObjRec.reset with num := n, kind := g.kind, ident := m.msgIdent g, fflags := 3 }

/-- The object of a profile message. -/
def Mach.profObj (m : Mach) (p : Ab) (n : Nat) (g : Msg) : ObjRec :=
  match (m.prt p).prof.find? fun (o : ObjRec) => o.ident == m.msgIdent g with
  | some o => { o with num := n, kind := g.kind, ext := false, fflags := 3 }
  | none => m.profFresh n g

/-- An object of a port, bound by the host or held by the profile. -/
def Mach.objAt (m : Mach) (p : Ab) (n : Nat) : Option ObjRec :=
  match (m.prt p).objs.find? fun (o : ObjRec) => o.num == n with
  | some o => some o
  | none => match m.profAt p n with
    | some g => some (m.profObj p n g)
    | none => none

/-- The host has bound an object. -/
def Mach.hostObj (m : Mach) (p : Ab) (n : Nat) : Bool := (m.prt p).objs.any fun (o : ObjRec) => o.num == n

/-- Keep host objects ascending by number. -/
def putObj (l : List ObjRec) (o : ObjRec) : List ObjRec :=
  match l with
  | [] => [o]
  | x :: r => if x.num == o.num then o :: r else if o.num < x.num then o :: x :: r else x :: putObj r o

/-- Keep profile objects ascending by identifier. -/
def putProf (l : List ObjRec) (o : ObjRec) : List ObjRec :=
  match l with
  | [] => [o]
  | x :: r => if x.ident == o.ident then o :: r else if o.ident < x.ident then o :: x :: r else x :: putProf r o

/-- Write an object. -/
def Mach.setObj (m : Mach) (p : Ab) (o : ObjRec) : Mach :=
  if m.hostObj p o.num then m.onPort p fun x => { x with objs := putObj x.objs o }
  else m.onPort p fun x => { x with prof := putProf x.prof o }

/-- The RX object that an identifier and format match (11 R343). -/
def Mach.rxObj (m : Mach) (p : Ab) (ext : Bool) (ident : Nat) : Option ObjRec :=
  match (m.prt p).objs.find? fun (o : ObjRec) => o.kind == 1 && o.ext == ext && o.ident == ident with
  | some o => some o
  | none =>
    if ext then none
    else match (m.profObjs p).find? fun (x : Nat × Msg) => x.2.kind == 1 && m.msgIdent x.2 == ident with
      | some (n, g) => some (m.profObj p n g)
      | none => none

/-- The message an RX identifier carries. -/
def Mach.rxMsg (m : Mach) (p : Ab) (ext : Bool) (ident : Nat) : Option Msg :=
  if ext then none else (m.profMsgs p).find? fun g => g.kind == 1 && m.msgIdent g == ident

/-- Every object of a port that is suspended by a clash. -/
def PortState.clashed (x : PortState) : Bool := (x.objs ++ x.prof).any fun (o : ObjRec) => o.susp

/-- A write of profile parameters re-binds the objects that they place (11 R357), and objects of
identifiers no longer used are dropped. 0xA4 ends when no object is suspended. -/
def Mach.rebind (m : Mach) (written : List Nat) : Mach :=
  m.each [Ab.a, .b] fun m p =>
    let keep := (m.profMsgs p).filter fun g => !g.placedBy.any fun i => written.contains i
    let ids := keep.map m.msgIdent
    let m1 := m.onPort p fun x => { x with prof := x.prof.filter fun (o : ObjRec) => ids.contains o.ident }
    m1.endIf (portHandle p) 0xA4 (!(m1.prt p).clashed)

/-! Bit timing and frame durations (11 R340, R342, R347). -/

/-- Bit timing of a controller (11 R340). -/
structure BitTiming where
  /-- prescaler of the 80 MHz protocol clock -/
  presc : Nat
  /-- time quanta per bit -/
  quanta : Nat
  /-- quanta before the sample point -/
  sample : Nat
  /-- phase segment 2, and the resynchronisation jump width, in quanta -/
  seg2 : Nat
  deriving DecidableEq, Repr

/-- The bit timing of a rate, given as the clocks of its bit, and a sample point in %: the smallest prescaler that
gives at most 160 quanta, and the sample point at the nearest quantum (11 R340). -/
def bitTiming (clocks sp : Nat) : BitTiming :=
  let p := (clocks + 159) / 160
  let n := clocks / p
  let s := (sp * n + 50) / 100
  ⟨p, n, s, n - s⟩

/-- The quanta, from the start of a bit, at which it is sampled (11 R341): three times with BUS_TRIPLE. -/
def BitTiming.samples (b : BitTiming) (triple : Bool) : List Nat :=
  if triple then [b.sample - 2, b.sample - 1, b.sample] else [b.sample]

/-- Bit time in ns of 80 MHz clocks. -/
def BitTiming.ns (b : BitTiming) : Nat := b.presc * b.quanta * 1000 / 80

/-- Protocol clocks of a bit at a nominal rate (11 R340, R377). -/
def nomClocks (r : Nat) : Nat := nth [8000, 4000, 1600, 640, 320, 160, 100, 80] r 80

/-- Protocol clocks of a bit at a data rate; without switching those of the nominal one. -/
def dataClocks (nom d : Nat) : Nat := nth [nomClocks nom, 80, 40, 20, 16, 10] d 80

/-- The bit-timing parameters in force: rate, sample point, data rate, data sample point, triple (11 R342). -/
def Mach.timingNow (m : Mach) (p : Ab) : List Nat :=
  (m.prt p).timing.getD
    [m.port p pBUS_NOM_RATE, m.port p pBUS_NOM_SP, m.port p pBUS_DATA_RATE, m.port p pBUS_DATA_SP, m.port p pBUS_TRIPLE]

/-- Bit timing of the nominal phase (11 R340). -/
def Mach.nomTiming (m : Mach) (p : Ab) : BitTiming := bitTiming (nomClocks (nth (m.timingNow p) 0 7)) (nth (m.timingNow p) 1 80)

/-- Bit timing of the data phase (11 R340). -/
def Mach.dataTiming (m : Mach) (p : Ab) : BitTiming :=
  bitTiming (dataClocks (nth (m.timingNow p) 0 7) (nth (m.timingNow p) 2 4)) (nth (m.timingNow p) 3 75)

/-- Nominal and data bit times in force, in ns (11 R340, R342). -/
def Mach.bitTimes (m : Mach) (p : Ab) : Nat × Nat := ((m.nomTiming p).ns, (m.dataTiming p).ns)

/-- Worst-case duration of a frame in ns (11 R347). An FD frame without BRS takes its data phase at
the nominal rate. -/
def frameNs (tn td : Nat) (fflags : Nat) (ext : Bool) (n : Nat) : Nat :=
  if bit fflags 0 then
    let t := if bit fflags 1 then td else tn
    (if ext then 57 else 34) * tn + ((if n ≤ 16 then 33 else 38) + 10 * n) * t
  else if ext then (8 * n + 67 + (53 + 8 * n) / 4) * tn
  else (8 * n + 47 + (33 + 8 * n) / 4) * tn

/-- Windows of 62.5 µs that a duration reaches into (11 R346). -/
def windowsOf (ns : Nat) : Nat := (ns + 62499) / 62500

/-- Windows a profile message claims. -/
def Mach.msgWindows (m : Mach) (p : Ab) (g : Msg) : Nat :=
  windowsOf (frameNs (m.bitTimes p).1 (m.bitTimes p).2 3 false g.len)

/-- Windows an object claims with its present data. -/
def Mach.objWindows (m : Mach) (p : Ab) (o : ObjRec) : Nat :=
  let n := match m.profAt p o.num with
    | some g => if m.hostObj p o.num then o.data.length else g.len
    | none => o.data.length
  windowsOf (frameNs (m.bitTimes p).1 (m.bitTimes p).2 o.fflags o.ext n)

/-- The drive slots of a port: first window and number (11 R346; 04 R115). -/
def Mach.driveSlots (m : Mach) (p : Ab) : List (Nat × Nat) :=
  if m.drvPort == p then
    [(m.nat pDRV_SP_WINDOW, m.msgWindows p .drvSp), (m.nat pDRV_FB_WINDOW, m.msgWindows p .drvFb)]
  else []

/-- The reserved slots of a basic cycle (11 R346). -/
def Mach.reservedSlots (m : Mach) (p : Ab) : List (Nat × Nat) :=
  (if m.master p then [(0, m.msgWindows p .timeRef)] else []) ++ m.driveSlots p

/-- A window is reserved. -/
def Mach.reserved (m : Mach) (p : Ab) (w : Nat) : Bool :=
  (m.reservedSlots p).any fun (x : Nat × Nat) => decide (x.1 ≤ w) && decide (w < x.1 + x.2)

/-- Two slots share a window. -/
def slotsMeet (x y : Nat × Nat) : Bool := decide (x.1 < y.1 + y.2) && decide (y.1 < x.1 + x.2)

/-! The configuration rules of 11 R379. -/

/-- Some element occurs twice, by a bit map of those met. -/
def repeated : Nat → List Nat → Bool
  | _, [] => false
  | seen, x :: r => bit seen x || repeated (setBit seen x true) r

/-- Identifiers of the profile on a port; a slave port receives the time reference. -/
def Mach.profIdents (m : Mach) (p : Ab) : List Nat :=
  (if m.master p then [] else [m.msgIdent .timeRef]) ++ (m.profMsgs p).map m.msgIdent

/-- Landings named by a node are at most eight and consecutive. -/
def consecutive : List Nat → Bool
  | a :: b :: r => b == a + 1 && consecutive (b :: r)
  | _ => true

/-- One LOCK_NODE value keeps the last rule of 11 R379. -/
def Mach.lockNodeOk (m : Mach) (n : Nat) : Bool :=
  let l := m.landings.filter fun l => m.land l pLOCK_NODE == n
  decide (l.length ≤ 8) && consecutive l

/-- One of the conditions of 11 R379 would hold with these parameters. -/
def Mach.busBad (m : Mach) : Bool :=
  !m.master m.drvPort
    || (m.nat pLOCK_SOURCE != 0 && !m.master (abOf (m.nat pLOCK_PORT)))
    || ([Ab.a, .b].any fun p =>
        let ids := m.profIdents p
        repeated 0 ids || ids.any (fun i => decide (0x7FF < i)) || decide (512 < m.objUsed p)
          || (m.port p pBUS_DATA_RATE != 0
              && decide (nomClocks (m.port p pBUS_NOM_RATE) < dataClocks (m.port p pBUS_NOM_RATE) (m.port p pBUS_DATA_RATE))))
    || (let p := m.drvPort
        let slots := m.reservedSlots p
        slots.any (fun (x : Nat × Nat) => decide (16 < x.1 + x.2))
          || (match slots with
            | [x, y, z] => slotsMeet x y || slotsMeet x z || slotsMeet y z
            | [x, y] => slotsMeet x y
            | _ => false))
    || m.lockNodes.any fun n => !m.lockNodeOk n

/-- Parameters as they would stand after the writes waiting and those of a command. -/
def Mach.withEntries (m : Mach) (h : Nat) (es : List SetEntry) : Mach :=
  let m1 := { m with params := m.deferred.foldl (fun l (d : Deferred) => cellPut l d.handle d.id d.val) m.params }
  m1.each es fun m e => match rowFor h e.id with
    | some r => m.put h e.id (decodeElems r r.count e.val)
    | none => m

/-- The timing of a port with every write applied. -/
def Mach.untimed (m : Mach) : Mach := (m.onPort .a fun x => { x with timing := none }).onPort .b fun x => { x with timing := none }

/-- Profile parameters of unit 0x0000 that 11 R379 concerns. -/
def profParam (id : Nat) : Bool :=
  id == pCAR_NO || id == pTIME_REF_ID || id == pLOCK_PORT || id == pLOCK_ID_BASE || id == pGROUP_PORT || id == pGROUP_ID_BASE
    || id == pFIXTURE_PORT || id == pPANEL_ID_BASE || id == pHALL_ID_BASE || id == pHALL_IND_BASE
    || id == pDRV_PORT || id == pDRV_SP_ID || id == pDRV_FB_ID

/-- A port of a handle. -/
def portOfH (h : Nat) : Option Ab := if h == 0x0200 then some .a else if h == 0x0201 then some .b else none

/-- The rules of chapter 11 for an entry that passed the rest, with all entries of the command: 0 or
0x13 BAD_PARAM (11 R341, R359, R379). -/
def Mach.busEntry (m : Mach) (h : Nat) (es : List SetEntry) (e : SetEntry) : Nat :=
  let n := (m.withEntries h es).untimed
  match portOfH h with
  | some p =>
    let id := canonId h e.id
    if (id == pBUS_TRIPLE || id == pBUS_NOM_RATE) && n.port p pBUS_TRIPLE == 1 && decide (3 < n.port p pBUS_NOM_RATE) then stBAD_PARAM
    else if id == pWAKE_MODE && n.port p pWAKE_MODE == 1 && decide (n.port p pBUS_NOM_RATE < 3) then stBAD_PARAM
    else if pBUS_NOM_RATE ≤ id && id ≤ pBUS_TRIPLE && n.busBad then stBAD_PARAM
    else stOK
  | none => if h == 0 && profParam e.id && n.busBad then stBAD_PARAM else stOK

/-- What bit-timing values a port has. -/
def Mach.timingOf (m : Mach) (p : Ab) : List Nat :=
  [m.port p pBUS_NOM_RATE, m.port p pBUS_NOM_SP, m.port p pBUS_DATA_RATE, m.port p pBUS_DATA_SP, m.port p pBUS_TRIPLE]

/-- After writes have taken effect: bit timing waits for an idle bus (11 R342), and profile parameters
re-bind their objects (11 R357). `old` is the machine before them. -/
def Mach.busWritten (m old : Mach) : Mach :=
  let ids := (old.deferred.filter fun (d : Deferred) => d.handle == 0).map (·.id)
  let m1 := m.each [Ab.a, .b] fun m p =>
    if m.timingOf p == old.timingOf p then m
    else m.onPort p fun x => { x with timing := some (x.timing.getD (old.timingOf p)), timingPend := true }
  if ids.any profParam then m1.rebind ids else m1

/-- BIT_TIMING_APPLY (11 R342): the port becomes idle; it then waits for 11 recessive bits. -/
def execBitTimingApply (port : Ab) (s : State) : Res :=
  onWhen s (s.now.prt port).timingPend fun m =>
    m.onPort port fun x => { x with timing := none, timingPend := false, wakeAt := some m.time.frame }

/-! The port's condition (11 R355, R356, R362). -/

/-- Statistics of the bus health drawer (13 R422). -/
def Mach.busCount (m : Mach) (p : Ab) (idx n : Nat) : Mach := if n == 0 then m else m.countN 8 p.idx idx n

/-- Frames added to LOST_COUNT. -/
def Mach.busLost (m : Mach) (p : Ab) (n : Nat) : Mach :=
  (m.onPort p fun x => { x with lost := satAdd 32 x.lost n }).busCount p 8 n

/-- Frames added to SAFETY_CRC_ERR. -/
def Mach.busCrcErr (m : Mach) (p : Ab) : Mach :=
  (m.onPort p fun x => { x with crcErr := sat32 x.crcErr }).busCount p 9 1

/-- Frames of the port can be requested: it is not offline, asleep or in bus-off. During the wait for recessive bits
one stays pending (11 R342). -/
def PortState.requests (x : PortState) : Bool := (x.own == UState.on || x.own == UState.stopping) && !x.sleep && !x.off

/-- The port takes part in the bus: not offline, not asleep, not waiting for recessive bits and not
in bus-off. -/
def PortState.takesPart (x : PortState) : Bool :=
  x.requests && x.wakeAt.isNone

/-- Crossings of a warning threshold post an event each (11 R355). -/
def Mach.crossing (m : Mach) (p : Ab) (w old new : Nat) : Mach :=
  if old < w && w ≤ new then m.post 5 1 (portHandle p) 0 0
  else if w ≤ old && new < w then m.post 5 2 (portHandle p) 0 0
  else m

/-- 0xA0 stands while a counter is at or above its threshold (11 R355, R380). -/
def Mach.busWarning (m : Mach) (p : Ab) : Mach :=
  let x := m.prt p
  if m.port p pTEC_WARN ≤ x.tecC || m.port p pREC_WARN ≤ x.recC then m.raise (portHandle p) 0xA0 1
  else m.endFault (portHandle p) 0xA0

/-- Error passive: a counter of 128 or more (ISO 11898-1:2015). -/
def PortState.passive (x : PortState) : Bool := decide (128 ≤ x.tecC) || decide (128 ≤ x.recC)

/-- New counter values, with what follows from them (11 R355, R356): warnings, error passive, and
bus-off above 255 transmit errors. -/
def Mach.setCounters (m : Mach) (p : Ab) (tec errs : Nat) : Mach :=
  let x := m.prt p
  let rx := min 255 errs
  let h := portHandle p
  let m1 := ((m.onPort p fun x => { x with tecC := tec, recC := rx }).extreme 8 (2 * p.idx) (min 255 tec)).extreme 8 (2 * p.idx + 1) rx
  let m2 := ((m1.crossing p (m.port p pTEC_WARN) x.tecC tec).crossing p (m.port p pREC_WARN) x.recC rx).busWarning p
  let y := m2.prt p
  let m3 := if y.passive && !x.passive then (m2.post 5 3 h 0 0).raise h 0xA1 1
    else if x.passive && !y.passive then m2.endFault h 0xA1 else m2
  if 255 < tec && !x.off then
    ((m3.onPort p fun z => { z with
      off := true
      recovering := m.port p pBUS_OFF_RECOVERY == 0
      offCount := sat32 z.offCount }).post 5 4 h 0 0).raise h 0xA3 2
  else m3

/-- BUS_STATE (11 R362, R377). -/
def Mach.busState (m : Mach) (p : Ab) : Nat :=
  let x := m.prt p
  if x.own == .off || x.own == .starting then 0
  else if x.off then 3
  else if x.sleep then 4
  else if x.passive then 2 else 1

/-- The read-only parameters of a port, by their port A IDs (11 R377). -/
def Mach.portRo (m : Mach) (p : Ab) (id : Nat) : Option Int :=
  let x := m.prt p
  if id == pBUS_STATE then some (m.busState p)
  else if id == pTEC then some (min 255 x.tecC)
  else if id == pREC then some (min 255 x.recC)
  else if id == pBUS_OFF_COUNT then some x.offCount
  else if id == pTX_OK then some x.txOk
  else if id == pRX_OK then some x.rxOk
  else if id == pLOST_COUNT then some x.lost
  else if id == pCLASH_COUNT then some x.clashes
  else if id == pTT_MISSED_COUNT then some x.ttMissed
  else if id == pSAFETY_CRC_ERR then some x.crcErr
  else if id == pOBJ_USED then some (m.objUsed p)
  else none

/-- The first acknowledged frame, or a valid frame of another node, ends the suspension (11 R358). -/
def Mach.heard (m : Mach) (p : Ab) : Mach :=
  if (m.prt p).noListener then (m.onPort p fun x => { x with noListener := false }).endFault (portHandle p) 0xA2 else m

/-- BUS_OFF_RECOVERED (11 R356): after 128 occurrences of 11 recessive bits. -/
def execBusOffRecovered (port : Ab) (runs : Nat) (s : State) : Res :=
  let x := s.now.prt port
  onWhen s (x.off && x.recovering && decide (128 ≤ runs)) fun m =>
    let m1 := m.setCounters port 0 0
    let off := (m.cellAt (portHandle port)).offAfter
    let m2 := m1.onPort port fun x =>
      { x with off := false, recovering := false, own := if off then UState.off else x.own }
    let m3 := if off then m2.cell (portHandle port) fun c => { c with offAfter := false } else m2
    (m3.post 5 5 (portHandle port) 0 0).endFault (portHandle port) 0xA3

/-- BUS_RECEIVE_ERROR (11 R355): ISO 11898-1 raises REC by so much. -/
def execBusReceiveError (port : Ab) (inc : Nat) (s : State) : Res :=
  onWhen s (s.now.prt port).takesPart fun m => m.setCounters port (m.prt port).tecC ((m.prt port).recC + inc)

/-- A transceiver fault (11 R339, R380). -/
def Mach.transceiverFault (m : Mach) (p : Ab) : Mach :=
  (m.onPort p fun x => { x with trxFault := some m.time.frame }).raise (portHandle p) 0xA7 2

/-- TRANSMIT_DOMINANT_TIMEOUT (11 R339): 4 ms. -/
def execTransmitDominantTimeout (port : Ab) (us : Nat) (s : State) : Res :=
  onWhen s (decide (4000 ≤ us)) fun m => m.transceiverFault port

/-- TRANSCEIVER_OVERTEMP (11 R380). -/
def execTransceiverOvertemp (port : Ab) (s : State) : Res := on s fun m => m.transceiverFault port

/-- PORT_STOPPING_END (11 R362; 01 R33): the frame in progress has ended, or 2 ms have passed. -/
def execPortStoppingEnd (port : Ab) (sending : Bool) (s : State) : Res :=
  let x := s.now.prt port
  onWhen s (x.own == .stopping && (!sending || s.now.passedMs x.stopAt 2)) fun m =>
    m.onPort port fun x => { x with own := .off }

/-- ELEVEN_RECESSIVE_BITS (11 R342, R361, R362): the port takes part in the bus. -/
def execElevenRecessiveBits (port : Ab) (s : State) : Res :=
  on s fun m => m.onPort port fun x =>
    { x with wakeAt := none, own := if x.own == .starting then .on else x.own }

/-! Sequence numbers (11 R364; 09 R294). -/

/-- The SEQ last accepted from a source under an identifier. -/
def Mach.seqOf (m : Mach) (p : Ab) (ident src : Nat) : Option Nat :=
  (m.bus.seqs.find? fun (x : SeqRec) => !x.tx && x.port == p && x.ident == ident && x.src == src).map (·.seq)

/-- A SEQ is newer than the last one accepted (09 R294; 04 R119). -/
def Mach.seqNewer (m : Mach) (p : Ab) (ident src seq : Nat) : Bool :=
  match m.seqOf p ident src with
  | some l => newer 16 seq l
  | none => true

/-- Accept a SEQ. -/
def Mach.seqAccept (m : Mach) (p : Ab) (ident src seq : Nat) : Mach :=
  { m with bus.seqs := (m.bus.seqs.filter fun (x : SeqRec) => x.tx || x.port != p || x.ident != ident || x.src != src)
      ++ [⟨p, ident, src, false, seq⟩] }

/-- SEQ of the next message of the module under an identifier; the first is 0. -/
def Mach.txSeq (m : Mach) (p : Ab) (ident : Nat) : Nat :=
  ((m.bus.seqs.find? fun (x : SeqRec) => x.tx && x.port == p && x.ident == ident).map (·.seq)).getD 0

/-- Use it. -/
def Mach.txSeqNext (m : Mach) (p : Ab) (ident : Nat) : Mach :=
  let n := (m.txSeq p ident + 1) % 65536
  { m with bus.seqs := (m.bus.seqs.filter fun (x : SeqRec) => !x.tx || x.port != p || x.ident != ident)
      ++ [⟨p, ident, 0, true, n⟩] }

/-- The safety CRC of a message with its identifier is good (11 R365). -/
def safetyOk (ident : Nat) (b : List Nat) : Bool :=
  decide (4 ≤ b.length) && leAt b (b.length - 4) 4 == crcSafety (le 4 ident ++ b.take (b.length - 4))

/-- A message with its safety CRC appended (11 R365). -/
def withSafety (ident : Nat) (b : List Nat) : List Nat := b ++ le 4 (crcSafety (le 4 ident ++ b))

/-- Length and TYPE of a message as 11 R363 gives them (11 R364). -/
def Msg.formOk (g : Msg) (b : List Nat) : Bool :=
  b.length == g.len && (match g.type with
    | some t => nth b 3 0 == t
    | none => true)

/-! Reception (11 R344, R358, R364, R365). -/

/-- REC after a frame received without error: one lower, or a value from 119 to 127 where it was
above 127 (ISO 11898-1:2015 leaves which). -/
def Mach.recDown (m : Mach) (p : Ab) : Mach :=
  let x := m.prt p
  if x.recC == 0 then m
  else if x.recC ≤ 127 then m.setCounters p x.tecC (x.recC - 1)
  else { m with free := m.free + 1 }.setCounters p x.tecC (119 + Config.freeValue m.free % 9)

/-- The SEQ of a received profile message is newer than the last one accepted, and than the one its
object still holds. -/
def Mach.rxNewer (m : Mach) (p : Ab) (g : Msg) (o : ObjRec) (b : List Nat) : Bool :=
  let seq := leAt b 0 2
  let held := !o.taken && nth o.data 2 0 == nth b 2 0 && !newer 16 seq (leAt o.data 0 2)
  !held && (match g with
    | .drvFb => !m.eng.fbSeen || newer 16 seq m.eng.fb.seq
    | _ => m.seqNewer p o.ident (nth b 2 0) seq)

/-- Store a frame in its object (11 R344). -/
def Mach.storeFrame (m : Mach) (p : Ab) (o : ObjRec) (f : CanFrame) : Mach :=
  let m1 := m.setObj p { o with
    data := f.data
    time := f.time
    fflags := f.fflags
    taken := false
    lost := o.lost || !o.taken }
  let m2 := m1.onPort p fun x => { x with rxOk := sat32 x.rxOk }
  if o.taken then m2 else m2.busLost p 1

/-- BUS_FRAME_RECEIVED (11 R339, R344, R364, R365; 09 R294): a remote frame is acknowledged and otherwise
ignored. -/
def execBusFrameReceived (port : Ab) (frame : CanFrame) (s : State) : Res :=
  onWhen s (s.now.prt port).takesPart fun m =>
    let m1 := (m.heard port).recDown port
    match (if frame.rtr then none else m1.rxObj port frame.ext frame.ident) with
    | none => m1
    | some o =>
      match (if m1.hostObj port o.num then none else m1.rxMsg port frame.ext frame.ident) with
      | none => m1.storeFrame port o frame
      | some g =>
        if !g.formOk frame.data then m1
        else if g.safety && !safetyOk frame.ident frame.data then m1.busCrcErr port
        else if !m1.rxNewer port g o frame.data then m1
        else m1.storeFrame port o frame

/-! When an event-driven frame may start (11 R345, R346, R350). -/

/-- The place of an instant, in 10 ns, in the schedule matrix of a port, in 10 ns of its 16 ms; none while a slave
port has no cycle (11 R346, R352). -/
def Mach.matrixPos (m : Mach) (p : Ab) (t : Nat) : Option Nat :=
  let x := m.prt p
  if m.master p then some (t % 1600000)
  else match x.refLast with
    | some r => if x.ttSusp then none else some ((x.cycle * 100000 + (t - r)) % 1600000)
    | none => none

/-- A cell of the matrix is reserved, or claimed by a TX_TT object with every window its frame reaches into
(11 R346). -/
def Mach.cellTaken (m : Mach) (p : Ab) (cell : Nat) : Bool :=
  m.reserved p (cell % 16) || (m.prt p).matrix.any fun (x : Nat × Nat) =>
    decide (x.1 ≤ cell) && (match m.objAt p x.2 with
      | some o => decide (cell < x.1 + max 1 (m.objWindows p o))
      | none => cell == x.1)

/-- The pending frame of an object, started at an instant, ends before the next cell that the module has claimed or
reserved on the port (11 R350). -/
def Mach.fitsGap (m : Mach) (p : Ab) (o : ObjRec) (sof : Nat) : Bool :=
  match m.matrixPos p sof with
  | none => true
  | some x =>
    let len := (o.pend.getD []).length
    let dur := (frameNs (m.bitTimes p).1 (m.bitTimes p).2 o.fflags o.ext len + 9) / 10
    let first := x / 6250
    (List.range ((x + dur) / 6250 + 1 - first)).all fun k => !m.cellTaken p ((first + k) % 256)

/-- Arbitration order of an object: lower first; of a base and an extended identifier that begin alike the base
one wins (ISO 11898-1:2015). -/
def ObjRec.rank (o : ObjRec) : Nat := if o.ext then 2 * o.ident + 1 else o.ident * 2 ^ 19

/-- An event-driven frame of an object may start at an instant: it fits before the next cell, and no frame with an
identifier before its own, requested in an earlier frame, could start there (11 R345, R350). -/
def Mach.mayStart (m : Mach) (p : Ab) (o : ObjRec) (sof : Nat) : Bool :=
  m.fitsGap p o sof && !((m.prt p).objs ++ (m.prt p).prof).any fun (q : ObjRec) =>
    q.kind == 2 && q.pend.isSome && !q.susp && q.rank < o.rank && decide ((q.reqAt + 1) * 25000 ≤ sof) && m.fitsGap p q sof

/-! Transmission (11 R345, R349, R354, R357, R358). -/

/-- The pending frame is done with: a frame requested meanwhile takes its place. -/
def ObjRec.done (o : ObjRec) : ObjRec :=
  { o with pend := o.queued, queued := none, cancelled := false, tried := false }

/-- The event of a cancel that came too late (11 R354; 14 R467). -/
def Mach.cancelEvent (m : Mach) (p : Ab) (o : ObjRec) (completed : Bool) : Mach :=
  if o.cancelled then m.post 5 7 (portHandle p) o.num (b2n completed) else m

/-- An attempt ended without being sent: a TX_TT frame is dropped (11 R349), a cancelled one is not
retried (11 R354). -/
def Mach.notSent (m : Mach) (p : Ab) (o : ObjRec) : Mach :=
  if o.kind == 3 then m.setObj p o.done
  else if o.cancelled then (m.cancelEvent p o false).setObj p o.done
  else m.setObj p { o with tried := true }

/-- Transmit errors of an attempt. -/
def Mach.txError (m : Mach) (p : Ab) (inc : Nat) : Mach := m.setCounters p ((m.prt p).tecC + inc) (m.prt p).recC

/-- A TX_TT object has been sent in its cell: 0xA5 ends with the last one that was missed (11 R380). -/
def Mach.ttSent (m : Mach) (p : Ab) (n : Nat) : Mach :=
  let m1 := m.onPort p fun x => { x with ttLate := x.ttLate.filter (· != n) }
  m1.endIf (portHandle p) 0xA5 (m1.prt p).ttLate.isEmpty

/-- The frame that ends is one that began before the tick of the frame in which newer data were requested: those are
still to be sent (11 R345). -/
def ObjRec.begunBefore (o : ObjRec) (sof : Nat) : Bool := o.older && decide (sof < o.newAt * 25000)

/-- An object carries the port's time reference. -/
def Mach.isTimeRef (m : Mach) (p : Ab) (n : Nat) : Bool := m.profAt p n == some .timeRef && !m.hostObj p n

/-- A frame has been sent and acknowledged. -/
def Mach.frameSent (m : Mach) (p : Ab) (o : ObjRec) (sof : Nat) : Mach :=
  let x := m.prt p
  let m1 := (m.onPort p fun x => { x with txOk := sat32 x.txOk }).heard p
  let m2 := m1.setCounters p (x.tecC - 1) x.recC
  let o1 := { o with clash := 0, noAck := 0, older := false }
  let o2 := if o.begunBefore sof then { o1 with tried := false }
    else if 1 < o.copies && !o.cancelled then { o1 with copies := o.copies - 1 }
    else { o1.done with copies := 1 }
  let m3 := (m2.cancelEvent p o true).setObj p o2
  if o.kind == 3 then
    let m4 := m3.ttSent p o.num
    if m.isTimeRef p o.num then m4.onPort p fun x => { x with prevSof := some sof } else m4
  else m3

/-- In PARK a port that stays awake sends only its time references (11 R360): it requests nothing else. -/
def Mach.parkBars (m : Mach) (p : Ab) (n : Nat) : Bool := m.power.state == 3 && !m.isTimeRef p n

/-- A frame of an object may be attempted: at a time of R350 for an event-driven one, which is not repeated while
the port has no listener (11 R358); in PARK none but a time reference begins (R360). -/
def Mach.attempts (m : Mach) (p : Ab) (o : ObjRec) (sof : Nat) : Bool :=
  !(m.parkBars p o.num && decide (25000 * m.power.stateAt ≤ sof))
    && (o.kind == 3 || (m.mayStart p o sof && !((m.prt p).noListener && o.tried)))

/-- The port sends: it takes part in the bus, or completes the frame that was in progress when it was put to sleep
(11 R359). -/
def PortState.sends (x : PortState) (o : ObjRec) : Bool :=
  x.takesPart || (x.sleep && (o.cancelled || x.finishing == some o.num))

/-- BUS_FRAME_SENT (11 R345, R350, R355 to R358): how an attempt ended. One that could not be made is none. -/
def execBusFrameSent (port : Ab) (obj : Nat) (res : TxAttempt) (s : State) : Res :=
  match s.now.objAt port obj with
  | none => .next s
  | some o =>
    onWhen s ((s.now.prt port).sends o && o.kind != 1 && o.pend.isSome && !o.susp && s.now.attempts port o res.sof) fun m =>
      match res.res with
      | .sent => m.frameSent port o res.sof
      | .lostArb => m.notSent port { o with clash := 0 }
      | .error inc => (m.txError port inc).notSent port { o with clash := 0, noAck := 0 }
      | .clash inc =>
        let n := o.clash + 1
        let m1 := m.txError port inc
        if n < 2 then m1.notSent port { o with clash := n, noAck := 0 }
        else
          ((m1.notSent port { o with clash := n, noAck := 0, susp := true }).onPort port fun x =>
            { x with clashes := sat32 x.clashes }).raise (portHandle port) 0xA4 2
      | .noAck inc =>
        let n := o.noAck + 1
        let m1 := (m.txError port inc).notSent port { o with clash := 0, noAck := n }
        if 16 ≤ n && !(m.prt port).noListener then
          ((m1.onPort port fun x => { x with noListener := true }).post 5 6 (portHandle port) obj 0).raise (portHandle port) 0xA2 2
        else m1

/-- Request a frame of a TX object in a frame; a cancelled frame still on the bus comes first. A frame that was
pending already keeps its place, and its data give way to the newer ones, unless it had begun before (11 R345). -/
def ObjRec.request (o : ObjRec) (data : List Nat) (copies f : Nat) : ObjRec :=
  if o.cancelled then { o with queued := some data }
  else { o with
    pend := some data
    copies := copies
    newAt := f
    older := o.pend.isSome
    reqAt := if o.pend.isSome then o.reqAt else f
    tried := o.pend.isSome && o.tried }

/-! The schedule matrix (11 R346 to R349). -/

/-- The claims of a SCHED_LOAD: cell and object. -/
def claimsOf : Nat → List Nat → List (Nat × Nat)
  | _, [] => []
  | i, c :: r => if c == 0xFFFF then claimsOf (i + 1) r else (i, c) :: claimsOf (i + 1) r

/-- A claim keeps 11 R348. -/
def Mach.claimOk (m : Mach) (p : Ab) (claims : List (Nat × Nat)) (x : Nat × Nat) : Bool :=
  match m.objAt p x.2 with
  | none => false
  | some o =>
    let w := x.1 % 16
    let n := m.objWindows p o
    o.kind == 3 && decide (w + n ≤ 16)
      && (List.range n).all (fun k => !m.reserved p (w + k))
      && (List.range (n - 1)).all (fun k => !claims.any fun (y : Nat × Nat) => y.1 == x.1 + k + 1 && y.2 != x.2)

/-- SCHED_LOAD (11 R348). -/
def execSchedLoad (tag port : Nat) (cells : List Nat) (s : State) : Res := serve s 0x54 tag fun m =>
  if 2 ≤ port || cells.length != 256 then refuse m stBAD_PARAM
  else
    let p := abOf port
    let claims := claimsOf 0 cells
    if claims.all (m.claimOk p claims) then
      ok (m.onPort p fun x => { x with matrixNext := some claims, matrixAt := m.time.frame })
    else refuse m stBAD_PARAM

/-- An accepted matrix takes effect (11 R348). -/
def Mach.matrixTick (m : Mach) (p : Ab) : Mach :=
  match (m.prt p).matrixNext with
  | some l =>
    if m.time.frame % 64 == 0 && (m.prt p).matrixAt < m.time.frame then
      m.onPort p fun x => { x with matrix := l, matrixNext := none }
    else m
  | none => m

/-- The basic cycle in progress on a port (11 R346, R352). -/
def Mach.cycleOf (m : Mach) (p : Ab) : Nat := if m.master p then (m.time.frame / 4) % 16 else (m.prt p).cycle

/-- The window of a cell starts in this frame; a slave port's cycle starts at its reference. -/
def Mach.cellNow (m : Mach) (p : Ab) (cell : Nat) : Bool :=
  decide (cell < 256) && cell / 16 == m.cycleOf p
    && (if m.master p then cell % 16 / 4 == m.time.frame % 4 else (m.prt p).refLast.isSome && !(m.prt p).ttSusp)

/-- The object whose first window a cell is. -/
def Mach.cellObj (m : Mach) (p : Ab) (cell : Nat) : Option Nat :=
  if m.drvPort == p && cell % 16 == m.nat pDRV_SP_WINDOW then
    (if m.eng.spSent then some (m.profNum p .drvSp) else none)
  else ((m.prt p).matrix.find? fun (x : Nat × Nat) => x.1 == cell).map (·.2)

/-- What a TX_TT object sends now: the setpoint, the time reference, or the object's own data. -/
def Mach.ttData (m : Mach) (p : Ab) (o : ObjRec) : List Nat :=
  if !m.hostObj p o.num && m.profAt p o.num == some .drvSp then m.eng.spLast else o.data

/-- TT_WINDOW_START (11 R349): the frame is requested. Cells stay empty in bus-off (11 R356) and, but for the time
reference, in PARK (R360). -/
def execTtWindowStart (port : Ab) (cell : Nat) (s : State) : Res :=
  match s.now.cellObj port cell with
  | none => .next s
  | some n =>
    match s.now.objAt port n with
    | none => .next s
    | some o =>
      onWhen s (s.now.cellNow port cell && (s.now.prt port).requests && !s.now.parkBars port n && o.kind == 3 && !o.susp) fun m =>
        m.setObj port (o.request (m.ttData port o) 1 m.time.frame)

/-- TT_MISSED (11 R349): not started by the end of its first claimed window. -/
def execTtMissed (port : Ab) (obj : Nat) (s : State) : Res :=
  match s.now.objAt port obj with
  | none => .next s
  | some o =>
    onWhen s (o.kind == 3 && o.pend.isSome) fun m =>
      let m1 := m.setObj port { o with pend := none }
      let m2 := (m1.onPort port fun x => { x with
        ttMissed := sat32 x.ttMissed
        ttLate := if x.ttLate.contains obj then x.ttLate else x.ttLate ++ [obj] }).busCount port 10 1
      m2.raise (portHandle port) 0xA5 1

/-! Time master and time slave (11 R351, R352, R367). -/

/-- The time reference of the basic cycle that starts at this tick (11 R367). -/
def Mach.timeRef (m : Mach) (p : Ab) : List Nat :=
  let x := m.prt p
  let prev := match x.prevSof with
    | some f => f - 100 * (m.ts - 1000)
    | none => 0
  withSafety (m.nat pTIME_REF_ID)
    (le 2 x.refSeq ++ [m.nat pCAR_SRC, 0x01, (m.time.frame / 4) % 16, b2n m.time.wallValid + 2 * b2n x.prevSof.isSome, 0, 0]
      ++ le 8 m.ts ++ le 4 prev)

/-- The time reference of a basic cycle is requested. -/
def Mach.requestRef (m : Mach) (p : Ab) : Mach :=
  let b := m.timeRef p
  let o := m.profObj p (m.profNum p .timeRef) .timeRef
  let m1 := m.setObj p { o with data := b, pend := if o.susp then none else some b }
  { m1 with bus.sent := m1.bus.sent ++ [(p, m.nat pTIME_REF_ID, b)] }

/-- TIME_REFERENCE_SEND (11 R351): requested at the tick that starts a basic cycle, on a port that sends; the sequence
counter goes on in every basic cycle. -/
def Mach.timeRefTick (m : Mach) (p : Ab) : Mach :=
  if m.master p && m.time.frame % 4 == 0 then
    (if (m.prt p).requests then m.requestRef p else m).onPort p fun x => { x with refSeq := (x.refSeq + 1) % 65536, prevSof := none }
  else m

/-- TIME_REFERENCE_RECEIVED (11 R352): a valid reference starts a basic cycle of a slave port. One that comes late counts
with those that are missing before it. -/
def execTimeReferenceReceived (port : Ab) (frame : CanFrame) (s : State) : Res :=
  onWhen s ((s.now.prt port).takesPart && !s.now.master port && !frame.ext && frame.ident == s.now.nat pTIME_REF_ID) fun m =>
    let b := frame.data
    let m1 := (m.heard port).recDown port
    if !Msg.timeRef.formOk b then m1
    else if !safetyOk frame.ident b then m1.busCrcErr port
    else if !m1.seqNewer port frame.ident (nth b 2 0) (leAt b 0 2) then m1
    else
      let m2 := m1.seqAccept port frame.ident (nth b 2 0) (leAt b 0 2)
      let good := match (m.prt port).refLast with
        | some t => decide (t + 99500 ≤ frame.time) && decide (frame.time ≤ t + 100500)
        | none => true
      let late := match (m.prt port).refLast with
        | some t => max 1 ((frame.time - t + 50000) / 100000)
        | none => 0
      let m3 := m2.onPort port fun x => { x with
        refLast := some frame.time
        cycle := nth b 4 0 % 16
        refBad := if good then 0 else x.refBad + late
        refGood := if good then x.refGood + 1 else 0 }
      if (m3.prt port).ttSusp && 16 ≤ (m3.prt port).refGood then
        (m3.onPort port fun x => { x with ttSusp := false }).endFault (portHandle port) 0xA6
      else m3

/-- TIME_SLAVE_LOST (11 R352): four consecutive references mistimed, or missing since the last one. -/
def execTimeSlaveLost (port : Ab) (s : State) : Res :=
  let x := s.now.prt port
  let gone := match x.refLast with
    | some t => decide (t + 400500 ≤ 100 * (s.now.ts + 250))
    | none => decide (4000 ≤ s.now.ts)
  onWhen s (!s.now.master port && !x.ttSusp && (decide (4 ≤ x.refBad) || gone)) fun m =>
    (m.onPort port fun x => { x with ttSusp := true, refGood := 0 }).raise (portHandle port) 0xA6 2

/-! Sleep and wake (11 R359 to R361). -/

/-- BUS_SLEEP is refused for a port (11 R360). -/
def Mach.sleepRefused (m : Mach) (p : Ab) : Bool :=
  (abOf (m.nat pLOCK_PORT) == p && m.nat pLOCK_SOURCE != 0) || (m.drvPort == p && !m.still)

/-- The frame of an object is in progress: a cancelled one, or that of the object named. -/
def ObjRec.inProgress (o : ObjRec) (onBus : Option Nat) : Bool := o.cancelled || onBus == some o.num

/-- Frames pending that a port discards when it falls asleep. -/
def PortState.pendN (x : PortState) (onBus : Option Nat) : Nat :=
  ((x.objs ++ x.prof).filter fun (o : ObjRec) => o.pend.isSome && !o.inProgress onBus).length
    + ((x.objs ++ x.prof).filter fun (o : ObjRec) => o.queued.isSome).length

/-- Discard what waits; a frame in progress completes. -/
def ObjRec.drop (onBus : Option Nat) (o : ObjRec) : ObjRec :=
  { o with pend := if o.inProgress onBus then o.pend else none, queued := none, copies := 1 }

/-- A port falls asleep (11 R359); the frame of an object may be in progress. -/
def Mach.portSleep (m : Mach) (p : Ab) (onBus : Option Nat) : Mach :=
  if (m.prt p).sleep then m
  else
    let n := (m.prt p).pendN onBus
    (m.onPort p fun x => { x with
      objs := x.objs.map (ObjRec.drop onBus)
      prof := x.prof.map (ObjRec.drop onBus)
      sleep := true
      finishing := onBus
      wakeAt := none }).busLost p n

/-- A port wakes; it is ready after 11 recessive bits (11 R361). -/
def Mach.portWake (m : Mach) (p : Ab) : Mach :=
  if (m.prt p).sleep then m.onPort p fun x => { x with sleep := false, finishing := none, wakeAt := some m.time.frame } else m

/-- BUS_SLEEP (11 R359, R360). -/
def execBusSleep (tag port : Nat) (f : SleepFlags) (s : State) : Res := serve s 0x55 tag fun m =>
  if 2 ≤ port || !bit f.flags 0 || bit f.flags 1 then refuse m stBAD_PARAM
  else if m.sleepRefused (abOf port) then refuse m stWRONG_MODE
  else ok (m.portSleep (abOf port) f.onBus)

/-- BUS_WAKE_COMMAND (11 R361). -/
def execBusWakeCommand (tag port flags : Nat) (s : State) : Res := serve s 0x55 tag fun m =>
  if 2 ≤ port || !bit flags 1 || bit flags 0 then refuse m stBAD_PARAM
  else ok (m.portWake (abOf port))

/-- Two bytes agree under a mask. -/
def maskEq (mask x y : Nat) : Bool := (x &&& mask) == (y &&& mask)

/-- A wake-up frame of a port (11 R359): classical, with the format, identifier, DLC and data that the parameters
give under their masks. -/
def Mach.wakeFrame (m : Mach) (p : Ab) (f : CanFrame) : Bool :=
  let bytes (id : Nat) : List Nat := (m.valAt (portHandle p) (id + 0x40 * p.idx)).map Int.toNat
  !bit f.fflags 0 && f.ext == (m.port p pWAKE_IDE == 1) && maskEq (m.port p pWAKE_ID_MASK) f.ident (m.port p pWAKE_ID)
    && f.data.length == m.port p pWAKE_DLC
    && (List.range f.data.length).all fun k => maskEq (nth (bytes pWAKE_DATA_MASK) k 0) (nth f.data k 0) (nth (bytes pWAKE_DATA) k 0)

/-- A cause wakes the port in its WAKE_MODE (11 R359): any dominant state of 5 µs or more, or a wake-up frame or more
than 31 frame errors. -/
def Mach.wakes (m : Mach) (p : Ab) : WakeCause → Bool
  | .dominant ns => m.port p pWAKE_MODE == 0 && decide (5000 ≤ ns)
  | .frame f => m.port p pWAKE_MODE == 1 && m.wakeFrame p f
  | .errors n => m.port p pWAKE_MODE == 1 && decide (31 < n)

/-- BUS_WAKE (11 R359, R361): a wake event of a sleeping port. The frame that woke it is not delivered. -/
def execBusWake (w : PortWaking) (s : State) : Res :=
  onWhen s ((s.now.prt w.port).sleep && s.now.wakes w.port w.cause) fun m =>
    (m.portWake w.port).post 5 8 (portHandle w.port) 0 0

/-! The host's commands (11 R343 to R345, R354, R356). -/

/-- BUS_CONFIG (11 R356, R377; 14 R458): as UNIT_SET on the port; the recovery flag starts a MANUAL
recovery. -/
def execBusConfig (tag port flags : Nat) (entries : List SetEntry) (s : State) : Res := serve s 0x50 tag fun m =>
  let r := m.setEntries (0x50, tag) (0x0200 + port) entries fun m h e => m.busEntry h entries e
  if 2 ≤ port then refuse m stUNIT_UNKNOWN
  else if r.2.1 == stOK && bit flags 0 && (m.prt (abOf port)).off && m.port (abOf port) pBUS_OFF_RECOVERY == 1 then
    (r.1.onPort (abOf port) fun x => { x with recovering := true }, r.2)
  else r

/-- An identifier of its format. -/
def identOk (fmt ident : Nat) : Bool := if fmt == 0 then decide (ident ≤ 0x7FF) else decide (ident ≤ 0x1FFFFFFF)

/-- Another object of the port already uses an identifier (11 R343). -/
def Mach.identUsed (m : Mach) (p : Ab) (n : Nat) (ext : Bool) (ident : Nat) : Bool :=
  ((m.prt p).objs.any fun (o : ObjRec) => o.num != n && o.ext == ext && o.ident == ident)
    || (!ext && ((m.profMsgs p).map m.msgIdent).contains ident)

/-- The profile holds an object (11 R376). -/
def Mach.profHeld (m : Mach) (p : Ab) (n : Nat) : Bool := !m.hostObj p n && (m.profAt p n).isSome

/-- OBJ_BIND (11 R343, R357, R379). -/
def execObjBind (tag port obj kind fmt ident fflags : Nat) (s : State) : Res := serve s 0x51 tag fun m =>
  let p := abOf port
  if 2 ≤ port || 512 ≤ obj || kind == 0 || 3 < kind || 1 < fmt || 3 < fflags || !identOk fmt ident then refuse m stBAD_PARAM
  else if m.profHeld p obj || m.identUsed p obj (fmt == 1) ident then refuse m stBAD_PARAM
  else
    let o : ObjRec := { ObjRec.reset with num := obj, kind := kind, ext := fmt == 1, ident := ident, fflags := fflags }
    let m1 := m.onPort p fun x => { x with objs := putObj x.objs o }
    ok (m1.endIf (portHandle p) 0xA4 (!(m1.prt p).clashed))

/-- OBJ_UNBIND (11 R343). -/
def execObjUnbind (tag port obj : Nat) (s : State) : Res := serve s 0x51 tag fun m =>
  let p := abOf port
  if 2 ≤ port || 512 ≤ obj || m.profHeld p obj then refuse m stBAD_PARAM
  else
    let m1 := m.onPort p fun x => { x with objs := x.objs.filter fun (o : ObjRec) => o.num != obj }
    ok (m1.endIf (portHandle p) 0xA4 (!(m1.prt p).clashed))

/-- The reply of an OBJ_CONFIG READ (14 R460); the timestamp is in µs. -/
def objReply (o : ObjRec) : List Nat :=
  [o.kind, b2n o.ext] ++ le 4 o.ident ++ [o.fflags, b2n o.lost, o.data.length] ++ le 8 (o.time / 100)
    ++ (o.data ++ List.replicate 64 0).take 64

/-- OBJ_READ (11 R343, R344): the host takes an RX object. -/
def execObjRead (tag port obj : Nat) (s : State) : Res := serve s 0x51 tag fun m =>
  let p := abOf port
  if 2 ≤ port || 512 ≤ obj || m.profHeld p obj then refuse m stBAD_PARAM
  else match m.objAt p obj with
    | none => refuse m stBAD_PARAM
    | some o => (if o.kind == 1 then m.setObj p { o with taken := true, lost := false } else m, stOK, objReply o)

/-- A CAN FD data length (14 R460). -/
def fdLength (n : Nat) : Bool := decide (n ≤ 8) || [12, 16, 20, 24, 32, 48, 64].contains n

/-- OBJ_SEND (11 R345; 14 R460). -/
def execObjSend (tag port obj : Nat) (data : List Nat) (s : State) : Res := serve s 0x52 tag fun m =>
  let p := abOf port
  if 2 ≤ port || 512 ≤ obj || !fdLength data.length || m.profHeld p obj then refuse m stBAD_PARAM
  else match m.objAt p obj with
    | none => refuse m stWRONG_MODE
    | some o =>
      if o.kind != 2 || o.susp then refuse m stWRONG_MODE
      else if !bit o.fflags 0 && 8 < data.length then refuse m stBAD_PARAM
      else ok (m.setObj p (o.request data 1 m.time.frame))

/-- OBJ_CANCEL (11 R354). -/
def execObjCancel (tag port obj : Nat) (sof : Bool) (s : State) : Res := serve s 0x53 tag fun m =>
  let p := abOf port
  if 2 ≤ port || 512 ≤ obj then refuse m stBAD_PARAM
  else match m.objAt p obj with
    | none => (m, stOK, [2])
    | some o =>
      if o.queued.isSome then (m.setObj p { o with queued := none }, stOK, [0])
      else if o.pend.isNone then (m, stOK, [2])
      else if o.cancelled then (m, stOK, [1])
      else if sof then (m.setObj p { o with cancelled := true }, stOK, [1])
      else (m.setObj p { o with pend := none, copies := 1 }, stOK, [0])

/-! The frame's part (11 R344, R348, R351, R380). -/

/-- The freeze takes the profile's RX objects (11 R344; 02 R41). -/
def Mach.takeObjects (m : Mach) : Mach :=
  m.each [Ab.a, .b] fun m p => m.onPort p fun x =>
    { x with prof := x.prof.map fun (o : ObjRec) => if o.kind == 1 then { o with taken := true, lost := false } else o }

/-- Nothing waits to be sent on a port. -/
def PortState.idle (x : PortState) : Bool := (x.objs ++ x.prof).all fun (o : ObjRec) => o.pend.isNone

/-- 0xA7 ends 100 ms after its last occurrence with the port idle (11 R380). -/
def Mach.trxTick (m : Mach) (p : Ab) : Mach :=
  match (m.prt p).trxFault with
  | some f =>
    if m.passedMs f 100 && (m.prt p).idle then (m.onPort p fun x => { x with trxFault := none }).endFault (portHandle p) 0xA7 else m
  | none => m

/-- What the tick does on both ports. -/
def Mach.busTick (m : Mach) : Mach :=
  m.each [Ab.a, .b] fun m p => (((m.matrixTick p).timeRefTick p).trxTick p).busWarning p

/-! Handing a profile message to its port (11 R363, R364, R376). -/

/-- Copies sent of an event message: one for each processor that requests it (09 R293). -/
def Mach.copiesN (m : Mach) : Nat :=
  if m.dualTx then
    max 1 ((if (m.ap .a).role == 3 || (m.ap .a).role == 4 then 1 else 0) + (if (m.ap .b).role == 3 || (m.ap .b).role == 4 then 1 else 0))
  else 1

/-- The port on which a message travels. -/
def Mach.msgPort (m : Mach) (g : Msg) : Ab := if (m.profMsgs .a).contains g then .a else .b

/-- Request an event message of the module: header of 11 R364, then its content. A module in PARK
sends only time references (11 R360). -/
def Mach.sendMsg (m : Mach) (g : Msg) (body : List Nat) : Mach :=
  let p := m.msgPort g
  let id := m.msgIdent g
  if m.power.state == 3 || m.time.ballast then m
  else
    let b := le 2 (m.txSeq p id) ++ [m.nat pCAR_SRC, g.type.getD 0] ++ body
    let k := m.copiesN
    let m1 := (m.txSeqNext p id).setObj p ((m.profObj p (m.profNum p g) g).request b k m.time.frame)
    { m1 with bus.sent := m1.bus.sent ++ List.replicate k (p, id, b) }

end Sys2Proof.Machine
end

