-- ==== Sys2Proof/Machine/Image.lean ====
section
/-!
DEFINITION. Firmware images and their checks: the layout of 16 R493, the signature scheme of R494
(RSASSA-PSS of RFC 8017) and the validity rules of R495.
-/
namespace Sys2Proof.Machine

open Sys2Proof

/-! RSASSA-PSS with SHA-512, MGF1, a 64-byte salt and exponent 65 537 (16 R494; RFC 8017). -/

/-- The number whose bytes, most significant first, are given. -/
def ofBe (bs : List Nat) : Nat := bs.foldl (fun x b => 256 * x + b % 256) 0

/-- Squarings modulo n. -/
def sqMod : Nat → Nat → Nat → Nat
  | 0, x, _ => x
  | k + 1, x, n => sqMod k (x * x % n) n

/-- x to the power of 65 537 modulo n. -/
def rsaPublic (x n : Nat) : Nat := sqMod 16 (x % n) n * x % n

/-- MGF1 with SHA-512: so many blocks of 64 bytes. -/
def mgf1 (seed : List Nat) (blocks : Nat) : List Nat :=
  (List.range blocks).flatMap fun i => sha512 (seed ++ be 4 i)

/-- Exclusive or of two byte strings. -/
def xorBytes (a b : List Nat) : List Nat := (a.zip b).map fun (x, y) => x ^^^ y

/-- A 512-byte signature over a message verifies under a 4096-bit modulus. -/
def pssVerify (msg sig : List Nat) (n : Nat) : Bool :=
  let s := ofBe sig
  if sig.length != 512 || n == 0 || decide (n ≤ s) then false
  else
    let em := be 512 (rsaPublic s n)
    let masked := em.take 447
    let h := (em.drop 447).take 64
    let db := xorBytes masked (mgf1 h 7)
    let db1 := (match db with
      | x :: r => (x % 128) :: r
      | [] => [])
    nth em 511 0 == 0xBC && decide (nth masked 0 0 < 128)
      && db1.take 382 == List.replicate 382 0 && nth db1 382 0 == 1
      && sha512 (List.replicate 8 0 ++ sha512 msg ++ db1.drop 383) == h

/-! Images (16 R492, R493, R495). -/

/-- The image kind a target takes: 0 KERNEL, 1 AP1, 2 AP2, 3 FIELD. -/
def imageKind (t : Nat) : Nat := if t == 0 then 0 else if t == 3 then 2 else 1

/-- Largest body of a kind (16 R492). -/
def bodyMax (k : Nat) : Nat := if k == 0 then 2097152 else if k == 1 then 12582912 else 524288

/-- The image digest (16 R493). -/
def imageDigest (hdr : List Nat) : List Nat := sha512 (hdr.take 256)

/-- LEVEL (16 R493). -/
def hdrLevel (h : List Nat) : Nat := nth h 5 0 % 256

/-- COMPAT (16 R493). -/
def hdrCompat (h : List Nat) : Nat := leAt h 6 2

/-- VERSION (16 R493). -/
def hdrVersion (h : List Nat) : Nat := leAt h 8 4

/-- FLAGS bit 0, MAKER_SIGNED (16 R493). -/
def hdrMaker (h : List Nat) : Bool := bit (leAt h 20 4) 0

/-- FW_MAKER_KEY as a number, least significant byte first (00 R6). -/
def keyNum (k : List Int) : Nat := ofLe (k.map Int.toNat)

/-- The maker signature of an image is present and verifies under a key. -/
def makerSigns (h : List Nat) (key : Nat) : Bool := hdrMaker h && pssVerify (h.take 256) ((h.drop 768).take 512) key

/-- MAKER_SIG verifies whenever it is present, and is present where it is required (16 R495). -/
def makerCheck (h : List Nat) (required : Bool) (key : Nat) : Bool :=
  if hdrMaker h || required then pssVerify (h.take 256) ((h.drop 768).take 512) key else true

/-- The checks of 16 R495 in order, with the mirror's maker key: 0, or the status of the first that
fails (16 R507). -/
def Mach.imageStatus (m : Mach) (t : Nat) (b : List Nat) : Nat :=
  let k := imageKind t
  let h := b.take 1280
  let len := leAt h 12 4
  if leAt h 0 4 != 0x49464E59 || nth h 4 0 != k then stBAD_PARAM
  else if Config.hwRevision < leAt h 16 2 || leAt h 18 2 < Config.hwRevision then stBAD_PARAM
  else if bodyMax k < len || b.length != 1280 + len then stBAD_PARAM
  else if sha512 (b.drop 1280) != (h.drop 24).take 64 then stSIG_INVALID
  else if !pssVerify (h.take 256) ((h.drop 256).take 512) Config.vendorKey then stSIG_INVALID
  else if !makerCheck h m.sec.mirrorReq (keyNum m.sec.mirrorKey) then stSIG_INVALID
  else if hdrLevel h < m.sec.rollback then stROLLBACK
  else stOK

/-- The header of the image delivered at manufacture for a target (16 R493): MAGIC and KIND as the target has
them; FLAGS, the bytes of R493 that are zero and MAKER_SIG zero, because FW_MAKER_KEY is zero at delivery and a
maker signature under it would make the delivered image invalid (DEDUCED, notes/assumptions/9.md); every other
byte free. -/
def factoryHeader (t : Nat) : List Nat := (List.range 1280).map fun i =>
  if i < 4 then nth [0x59, 0x4E, 0x46, 0x49] i 0
  else if i == 4 then imageKind t
  else if (20 ≤ i && i < 24) || (88 ≤ i && i < 256) || 768 ≤ i then 0
  else Config.imageByte t i % 256

/-- The header of a slot's image. -/
def slotHeader (t : Nat) (r : ImageRec) : List Nat := if r.factory then factoryHeader t else r.bytes.take 1280

/-- A slot holds a valid image (16 R495). The delivered image passes the checks that do not depend on
what the lift maker sets. -/
def Mach.slotValid (m : Mach) (t : Nat) (r : ImageRec) : Bool :=
  r.valid && (if r.factory then
      makerCheck (factoryHeader t) m.sec.mirrorReq (keyNum m.sec.mirrorKey) && decide (m.sec.rollback ≤ hdrLevel (factoryHeader t))
    else m.imageStatus t r.bytes == stOK)

/-- The two slots of a target. -/
def Mach.slots (m : Mach) (t : Nat) : Two ImageRec := nth m.sec.store t ⟨ImageRec.reset, ImageRec.reset⟩

/-- The selected slot of a target (16 R491). -/
def Mach.selected (m : Mach) (t : Nat) : Nat := nth m.sec.selected t 0

/-- The slot a boot ROM boots from: the selected one, else the other; none when neither is valid
(16 R497). -/
def Mach.bootSlot (m : Mach) (t : Nat) : Option Nat :=
  let s := m.selected t
  if m.slotValid t ((m.slots t).get (abOf s)) then some s
  else if m.slotValid t ((m.slots t).get (abOf (1 - s))) then some (1 - s)
  else none

/-- A target's processor is up: its image can run. -/
def Mach.targetUp (m : Mach) (t : Nat) : Bool :=
  if t == 1 then m.pair.aps.a.booted else if t == 2 then m.pair.aps.b.booted else if t == 3 then m.field.booted else true

/-- What a target runs. -/
def Mach.runOf (m : Mach) (t : Nat) : RunImage :=
  let r := nth m.sec.run t RunImage.reset
  { r with booted := r.booted && m.targetUp t }

/-- Every running image has a maker signature that verifies under a key (16 R499, R510). -/
def Mach.allMakerSigned (m : Mach) (key : Nat) : Bool :=
  (List.range 4).all fun t => !(m.runOf t).booted || makerSigns (m.runOf t).hdr key

end Sys2Proof.Machine
end

