-- ==== Sys2Proof/Machine/Profile.lean ====
section
/-!
DEFINITION. The messages of the Yanel shaft profile that the module takes and sends (11 R363 to R375;
05 R135, R137; 07 R216).
-/
namespace Sys2Proof.Machine

open Sys2Proof

/-- A received profile message of the right form, whose SEQ is newer than the last accepted one of its
identifier and source (11 R364; 09 R294). -/
def Mach.msgTaken (m : Mach) (p : Ab) (g : Msg) (ident : Nat) (b : List Nat) : Bool :=
  g.formOk b && m.seqNewer p ident (nth b 2 0) (leAt b 0 2)

/-- Accept its SEQ. -/
def Mach.msgAccept (m : Mach) (p : Ab) (ident : Nat) (b : List Nat) : Mach := m.seqAccept p ident (nth b 2 0) (leAt b 0 2)

/-! Lock messages (11 R368; 07 R216). -/

/-- The conditions under which a whole LOCK message is invalid (11 R368). -/
def Mach.lockBad (m : Mach) (ident : Nat) (b : List Nat) : Bool :=
  let src := nth b 2 0
  let first := leAt b 4 2
  let n := nth b 6 0
  ident != m.nat pLOCK_ID_BASE + src || n == 0 || decide (8 < n) || decide (m.nLandings < first + n)
    || (List.range n).any fun k => m.land (first + k) pLOCK_NODE != src

/-- A 32-bit time stamp extended to 64 bits around an instant (11 R366). -/
def extend32 (t low : Nat) : Int :=
  let d := toS 32 (toU 32 ((low : Int) - (t : Int)))
  (t : Int) + d

/-- Take a landing's nibble (07 R216, R247). -/
def Mach.takeLock (m : Mach) (l nibble : Nat) : Mach :=
  let r := m.lockOf l
  let good := r.good + 1
  m.setLock { r with
    bits := 16 + nibble
    atF := m.time.frame
    good := if r.timedOut && good < 16 then good else 0
    timedOut := r.timedOut && decide (good < 16) }

/-- A LOCK message as the bus controller takes it (11 R368; 01 R18): its CRC, then its form; one whose message
object holds a double-bit error is as one that was not received. -/
def Mach.lockReceived (m : Mach) (port : Ab) (ident : Nat) (msg : List Nat) (ecc : Ecc) : Mach :=
  if ecc == .double then m
  else if !safetyOk ident msg then m.busCrcErr port
  else if m.lockBad ident msg then { m with bus.lockInvalid := sat32 m.bus.lockInvalid }
  else { m with safe.lockBox := m.safe.lockBox ++ [(ident, msg)] }

/-- LOCK (11 R368; 07 R216): the cores use it at the next freeze. -/
def execLock (port : Ab) (ident : Nat) (msg : Kept (List Nat)) (s : State) : Res :=
  onWhen s (abOf (s.now.nat pLOCK_PORT) == port && (s.now.prt port).takesPart && (Msg.lock 0).formOk msg.val) fun m =>
    (m.lockReceived port ident msg.val msg.ecc).eccSeen 12 msg.ecc

/-- A LOCK message at a freeze (07 R216): the CRC verified again, SEQ newer, and sampled within the 10 ms before. One
that fails breaks the row of valid messages that ends 0x66 (R248). -/
def Mach.useLock (m : Mach) (ident : Nat) (msg : List Nat) : Mach :=
  let port := abOf (m.nat pLOCK_PORT)
  let t := extend32 m.ts (leAt msg 12 4)
  if safetyOk ident msg && m.msgTaken port (.lock 0) ident msg && decide ((m.ts : Int) - 10000 ≤ t) && decide (t ≤ (m.ts : Int)) then
    (m.msgAccept port ident msg).each (List.range (nth msg 6 0)) fun m k =>
      m.takeLock (leAt msg 4 2 + k) (Machine.field (leAt msg 8 4) (4 * k + 3) (4 * k))
  else if safetyOk ident msg then
    m.each (List.range (nth msg 6 0)) fun m k => m.setLock { m.lockOf (leAt msg 4 2 + k) with good := 0 }
  else m

/-- The LOCK messages received since the last freeze. -/
def Mach.takeLocks (m : Mach) : Mach :=
  { m with safe.lockBox := [] }.each m.safe.lockBox fun m (x : Nat × List Nat) => m.useLock x.1 x.2

/-! Group controller (11 R369 to R371; 05 R135, R137). -/

/-- GROUP_CMD is taken (11 R364, R369). -/
def Mach.groupTaken (m : Mach) (p : Ab) (b : List Nat) : Bool :=
  abOf (m.nat pGROUP_PORT) == p && (m.prt p).takesPart && m.msgTaken p .groupCmd (m.msgIdent .groupCmd) b && nth b 2 0 == m.nat pGROUP_SRC

/-- The result of an assignment (05 R135). -/
def Mach.assignResult (m : Mach) (l d sides : Nat) : Nat :=
  if m.nLandings ≤ l || sides == 0 || (sides &&& m.sidesServed l) != sides || m.badHall l d then 1
  else if m.nat pSCHED_MODE != 2 || !m.sched.inService || m.inspection || m.evacuation || !m.landingOn l then 2
  else 0

/-- A GROUP_CMD (11 R369; 05 R135). -/
def Mach.groupCmd (m : Mach) (p : Ab) (b : List Nat) : Mach :=
  let op := nth b 4 0
  let call := nth b 5 0
  let d := Machine.field call 1 0
  let sides := Machine.field call 3 2
  let l := leAt b 6 2
  let ref := leAt b 8 2
  let m1 := m.msgAccept p (m.msgIdent .groupCmd) b
  if (op != 1 && op != 2) || d == 0 || d == 3 then (m1.groupRes 1 call l ref).raise 1 0x4D 1
  else if op == 2 then m1.queueCall ⟨p.idx, false, l, d, sides, some ref, false⟩
  else
    match m1.assignResult l d sides with
    | 0 => ((m1.groupRes 0 call l ref).queueCall ⟨p.idx, true, l, d, sides, none, false⟩).endFault 1 0x4D
    | 1 => (m1.groupRes 1 call l ref).raise 1 0x4D 1
    | r => m1.groupRes r call l ref

/-- GROUP_ASSIGN (05 R135): a GROUP_CMD whose OP is not WITHDRAW. -/
def execGroupAssign (port : Ab) (msg : List Nat) (s : State) : Res :=
  onWhen s (s.now.groupTaken port msg && nth msg 4 0 != 2) fun m => m.groupCmd port msg

/-- GROUP_WITHDRAW (05 R135, R136): answered when the change is applied at the freeze. -/
def execGroupWithdraw (port : Ab) (msg : List Nat) (s : State) : Res :=
  onWhen s (s.now.groupTaken port msg && nth msg 4 0 == 2) fun m => m.groupCmd port msg

/-- GROUP_HB (11 R371; 05 R137): the fault ends, and calls registered locally are reported. -/
def execGroupHb (port : Ab) (msg : List Nat) (s : State) : Res :=
  onWhen s (abOf (s.now.nat pGROUP_PORT) == port && (s.now.prt port).takesPart && s.now.msgTaken port .groupHb (s.now.msgIdent .groupHb) msg
      && nth msg 2 0 == s.now.nat pGROUP_SRC) fun m =>
    let m1 := { m.msgAccept port (m.msgIdent .groupHb) msg with sched.hbLast := m.time.frame }
    if m1.inForce 1 0x4C then
      (m1.each (m1.sched.calls.filter fun (c : CallRec) => c.fallback) fun m (c : CallRec) =>
        m.groupRes 6 (callByte c.kind (1 + c.side.idx)) c.landing 0).endFault 1 0x4C
    else m1

/-! Car panel (11 R373). -/

/-- A PANEL_BTN message with an OP is taken. -/
def Mach.panelTaken (m : Mach) (p : Ab) (b : List Nat) (op : Nat) : Bool :=
  abOf (m.nat pFIXTURE_PORT) == p && (m.prt p).takesPart && m.msgTaken p .panelBtn (m.msgIdent .panelBtn) b && nth b 4 0 == op

/-- A refused call or command of the panel is dropped and counted (11 R373). -/
def Mach.panelRefuse (m : Mach) : Mach := { m with bus.panelRefused := sat32 m.bus.panelRefused }

/-- A call of the panel. -/
def Mach.panelCall (m : Mach) (p : Ab) (b : List Nat) (add : Bool) : Mach :=
  let l := leAt b 6 2
  let sides := Machine.field (nth b 5 0) 1 0
  let st := if add then m.callStatus l 0 sides else m.callForm l 0 sides
  let m1 := m.msgAccept p (m.msgIdent .panelBtn) b
  if st == stOK then m1.queueCall ⟨p.idx, add, l, 0, sides, none, false⟩ else m1.panelRefuse

/-- A door command of the panel. -/
def Mach.panelDoor (m : Mach) (p : Ab) (b : List Nat) (c : Nat) : Mach :=
  let m1 := m.msgAccept p (m.msgIdent .panelBtn) b
  let r := m1.doorCmd c 0 (Machine.field (nth b 5 0) 1 0)
  if r.2.1 == stOK || r.2.1 == stPENDING then r.1 else r.1.panelRefuse

/-- PANEL_CALL_ADD (11 R373, OP 1; 05 R127). -/
def execPanelCallAdd (port : Ab) (msg : List Nat) (s : State) : Res :=
  onWhen s (s.now.panelTaken port msg 1) fun m => m.panelCall port msg true

/-- PANEL_CALL_CANCEL (11 R373, OP 2; 05 R128). -/
def execPanelCallCancel (port : Ab) (msg : List Nat) (s : State) : Res :=
  onWhen s (s.now.panelTaken port msg 2) fun m => m.panelCall port msg false

/-- PANEL_DOOR_OPEN (11 R373, OP 3; 06 R164). -/
def execPanelDoorOpen (port : Ab) (msg : List Nat) (s : State) : Res :=
  onWhen s (s.now.panelTaken port msg 3) fun m => m.panelDoor port msg 1

/-- PANEL_DOOR_CLOSE (11 R373, OP 4; 06 R164). -/
def execPanelDoorClose (port : Ab) (msg : List Nat) (s : State) : Res :=
  onWhen s (s.now.panelTaken port msg 4) fun m => m.panelDoor port msg 2

/-! Landing fixtures (11 R374). -/

/-- Call type and side of a button bit: up A, down A, up B, down B. -/
def buttonOf (k : Nat) : Nat × Nat := (1 + k % 2, if k < 2 then 1 else 2)

/-- The reply to a hall call under SIMPLEX rules, in SIMPLEX or under the fallback (05 R127, R137). -/
def Mach.hallStatus (m : Mach) (l k sides : Nat) : Nat := (m.putI 0 pSCHED_MODE 1).callStatus l k sides

/-- One button pressed (11 R374). -/
def Mach.hallPress (m : Mach) (p : Ab) (l k : Nat) : Mach :=
  let b := buttonOf k
  let reg (m : Mach) (fb : Bool) : Mach :=
    if m.hallStatus l b.1 b.2 == stOK then m.queueCall ⟨p.idx, true, l, b.1, b.2, none, fb⟩ else m
  match m.nat pSCHED_MODE with
  | 1 => reg m false
  | 2 =>
    let m1 := if m.flag pHALL_FWD then m.groupRes 7 (callByte b.1 b.2) l 0 else m
    if m1.groupFallback then reg m1 true else m1
  | _ => m

/-- HALL_BTN (11 R374). -/
def execHallBtn (port : Ab) (ident : Nat) (msg : List Nat) (s : State) : Res :=
  onWhen s (abOf (s.now.nat pFIXTURE_PORT) == port && (s.now.prt port).takesPart && decide (leAt msg 6 2 < s.now.nLandings)
      && ident == s.now.nat pHALL_ID_BASE + leAt msg 6 2 && s.now.msgTaken port (.hallBtn 0) ident msg) fun m =>
    (m.msgAccept port ident msg).each ((List.range 4).filter fun k => bit (nth msg 4 0) k) fun m k =>
      m.hallPress port (leAt msg 6 2) k

/-! Messages of the module (11 R369, R372, R375). -/

/-- FLAGS of CAR_STATUS and PANEL_IND (11 R372). -/
def Mach.carFlags (m : Mach) : Nat :=
  b2n m.sched.inService + 2 * b2n m.inspection + 4 * b2n m.evacuation + 8 * b2n m.allSidesClosed
    + 16 * b2n (m.flag pSCHED_HOLD) + 32 * b2n m.groupFallback + 64 * b2n (decide (2 ≤ m.quality))

/-- CAR_STATUS without its header (11 R372). -/
def Mach.carStatusBody (m : Mach) : List Nat :=
  le 2 ((m.zoneOf m.fpos).getD 0xFFFF) ++ [m.schedDir, m.carFlags] ++ leS 4 m.fpos ++ leS 4 m.fvel
    ++ le 2 m.commitTarget ++ le 2 m.sched.next ++ le 2 m.sched.calls.length ++ [0, 0]

/-- PANEL_IND without its header (11 R375). -/
def Mach.panelIndBody (m : Mach) : List Nat :=
  let calls := (m.sched.calls.filter fun (c : CallRec) => c.kind == 0).map (·.landing)
  le 2 m.nearestLanding ++ [m.schedDir, m.carFlags] ++ le 32 (calls.foldl (fun x l => setBit x l true) 0) ++ List.replicate 8 0

/-- The nibble of a landing's hall calls: up A, down A, up B, down B (11 R375). -/
def Mach.hallNibble (m : Mach) (l : Nat) : Nat :=
  b2n (m.registered l 1 .a) + 2 * b2n (m.registered l 2 .a) + 4 * b2n (m.registered l 1 .b) + 8 * b2n (m.registered l 2 .b)

/-- HALL_IND of a block without its header (11 R375). -/
def Mach.hallIndBody (m : Mach) (k : Nat) : List Nat :=
  [k, b2n m.sched.inService + 2 * m.schedDir] ++ le 2 m.nearestLanding
    ++ (List.range 16).map fun i => m.hallNibble (32 * k + 2 * i) + 16 * m.hallNibble (32 * k + 2 * i + 1)

/-- HALL_IND is sent (11 R375). -/
def Mach.hallInds (m : Mach) : Bool := m.nat pSCHED_MODE == 1 || m.groupFallback

/-- The blocks of landings. -/
def Mach.hallBlocks (m : Mach) : List Nat := List.range ((m.nLandings + 31) / 32)

/-- Send PANEL_IND when asked or when its content has changed. -/
def Mach.sendPanelInd (m : Mach) (always : Bool) : Mach :=
  let b := m.panelIndBody
  if always || b != m.bus.indLast then { m.sendMsg .panelInd b with bus.indLast := b } else m

/-- Send a HALL_IND when asked or when its content has changed. -/
def Mach.sendHallInd (m : Mach) (always : Bool) (k : Nat) : Mach :=
  let b := m.hallIndBody k
  if always || b != nth m.bus.hallLast k [] then
    let l := m.bus.hallLast ++ List.replicate (k + 1 - m.bus.hallLast.length) []
    { m.sendMsg (.hallInd k) b with bus.hallLast := updAt l k fun _ => b }
  else m

/-- All indications. -/
def Mach.indications (m : Mach) (always : Bool) : Mach :=
  let m1 := m.sendPanelInd always
  if m1.hallInds then m1.each m1.hallBlocks fun m k => m.sendHallInd always k else m1

/-- IND_REFRESH (11 R375): the refresh time has passed. In a frame of ballast hold the objects keep what
they hold (02 R46), and in PARK nothing is sent (11 R360): the refresh is due in the next frame that is delivered. -/
def execIndRefresh (s : State) : Res :=
  onWhen s (!s.now.time.ballast && s.now.power.state != 3 && s.now.passedMs s.now.bus.indAt (s.now.nat pIND_REFRESH)) fun m =>
    { m.indications true with bus.indAt := m.time.frame }

/-- A GROUP_RES without its header (11 R369). -/
def groupResBody (r : GroupRes) : List Nat := [r.result, r.call] ++ le 2 r.landing ++ le 2 r.ref ++ [0, 0]

/-- The messages of a frame, at output delivery (11 R369, R372, R375): results of a basic cycle are
handed over in the next, one in a frame. Nothing is sent before the profile is in force (17 R512). -/
def Mach.profileFrame (m : Mach) : Mach :=
  let m1 := if m.time.frame % 4 == 0 then
      { m with
        bus.groupQ := m.bus.groupQ ++ m.sched.groupOut
        sched.groupOut := [] }
    else m
  if m1.time.ballast || m1.power.state == 3 then m1
  else
    let m2 := match m1.bus.groupQ with
      | r :: l => { m1.sendMsg .groupRes (groupResBody r) with bus.groupQ := l }
      | [] => m1
    let m3 := if m2.time.frame % 64 == 0 then m2.sendMsg .carStatus m2.carStatusBody else m2
    m3.indications false

/-- The read-only parameters of the profile (11 R378). -/
def Mach.profRo (m : Mach) (id : Nat) : Option Int :=
  if id == pLOCK_INVALID then some m.bus.lockInvalid
  else if id == pPANEL_REFUSED then some m.bus.panelRefused
  else none

end Sys2Proof.Machine
end

