-- ==== Sys2Proof/Machine/CabCommit.lean ====
section
/-!
DEFINITION. The cabinet commit (08 R262 to R264): the cross-checks that the chapters attach to it,
what a new configuration changes when it comes into force, and the copies.
-/
namespace Sys2Proof.Machine

open Sys2Proof

/-! The cross-checks. Each says whether it fails and which values it looks at. -/

/-- A check: it fails, and the handles and IDs it concerns. -/
structure Check where
  bad : Bool
  concerns : Nat → Nat → Bool

/-- A check on parameters of unit 0x0000. -/
def rootCheck (bad : Bool) (ids : List Nat) : Check := ⟨bad, fun h id => h == 0 && ids.contains id⟩

/-- The learned data of a landing. -/
def Mach.zoneData (m : Mach) (l : Nat) : Learned :=
  ⟨m.land l pDZ_LOW, m.land l pDZ_HIGH, m.land l pDZ_MID_UP, m.land l pDZ_MID_DOWN⟩

/-- A landing below N_LANDINGS. -/
def Mach.landingH (m : Mach) (h : Nat) : Bool := 0x1000 ≤ h && decide (h < 0x1000 + m.nLandings)

/-- 03 R83. -/
def Mach.landingChecks (m : Mach) : List Check :=
  let sills := m.landings.map fun l => m.land l pSILL_LEVEL
  [ ⟨m.land 0 pSILL_LEVEL != 0, fun h id => h == 0x1000 && id == pSILL_LEVEL⟩,
    ⟨!spacedOk sills || decide (1000000000 < m.land (m.nLandings - 1) pSILL_LEVEL),
      fun h id => (m.landingH h && id == pSILL_LEVEL) || (h == 0 && id == pN_LANDINGS)⟩ ]
    ++ m.landings.map fun l =>
      let z := m.zoneData l
      ⟨decide (z.high ≤ z.low) || !zoneOk z, fun h id => h == landingHandle l && pDZ_LOW ≤ id && id ≤ pDZ_MID_DOWN⟩

/-- 03 R92. -/
def Mach.mountCheck (m : Mach) : List Check :=
  [rootCheck (m.mountCabinet && decide (8000000 < m.vRated)) [pMOUNT, pV_RATED]]

/-- Speed, in 2^-20 µm/s, of a normal stop from a speed v at a distance d before its end. -/
def stopSpeedAt (v a j : Nat) (d : Int) : Int :=
  let k : Kin := ⟨0, (v * q20 : Nat), 0⟩
  let l := brake k a j
  let total := (runSegs k l).p
  if d ≤ 0 then 0
  else if total ≤ d * (q20 : Nat) then k.v
  else (evalSegs k l (bisect (fun t => decide ((evalSegs k l t).1.p ≤ total - d * (q20 : Nat))) 36 0)).1.v

/-- Distance from a terminal block's edge to the terminal sill of its end. -/
def Mach.edgeDist (m : Mach) (h : Nat) : Int :=
  if h < 0x0784 then m.intAt h pTSL_EDGE - m.sillLow else m.sillHigh - m.intAt h pTSL_EDGE

/-- 04 R105. -/
def Mach.motionChecks (m : Mach) : List Check :=
  [ rootCheck (decide (m.nat pERAMP_DEC < m.nat pA_MAX) || decide (m.nat pERAMP_JERK < m.nat pJ_MAX))
      [pERAMP_DEC, pERAMP_JERK, pA_MAX, pJ_MAX],
    rootCheck (decide (100 * min (m.nat pOS_UP_TRIP) (m.nat pOS_DN_TRIP) < 105 * m.vRated + 100 * m.nat pTRACK_TOL_V))
      [pV_RATED, pTRACK_TOL_V, pOS_UP_TRIP, pOS_DN_TRIP],
    rootCheck (decide (m.nat pDRV_FB_WINDOW ≤ m.nat pDRV_SP_WINDOW)) [pDRV_SP_WINDOW, pDRV_FB_WINDOW] ]
    ++ ((m.blocksOf .tsl).filter fun b => m.intAt b pTSL_EDGE != 0).map fun b =>
      ⟨decide (9 * ((m.natAt b pTSL_V * q20 : Nat) : Int) < 10 * stopSpeedAt m.vRated (m.nat pA_MAX) (m.nat pJ_MAX) (m.edgeDist b)),
        fun h id => h == b || (h == 0 && [pV_RATED, pA_MAX, pJ_MAX].contains id)⟩

/-- 06 R190. -/
def Mach.doorChecks (m : Mach) : List Check :=
  [Ab.a, .b].flatMap fun s =>
    let own (ids : List Nat) : Nat → Nat → Bool := fun h id => h == sideHandle s && ids.contains (canonId h id)
    let f := m.door s pF_MAX
    [ ⟨decide (f < m.door s pOBST_FORCE), own [pF_MAX, pOBST_FORCE]⟩,
      ⟨decide (m.door s pE_MAX < m.door s pNUDGE_ENERGY), own [pE_MAX, pNUDGE_ENERGY]⟩,
      ⟨m.landings.any fun l => m.land l (learnedId s pDOOR_LEARNED) == 1
          && (m.valAt (landingHandle l) (learnedId s pDOOR_CLOSER_MAP)).any fun x => decide ((8 * f : Nat) < x),
        own [pF_MAX]⟩ ]

/-- The channels that a safety function block or RESET_CH names, once per name-giver. -/
def Mach.namings (m : Mach) : List Nat :=
  (if m.nat pRESET_CH == 0xFF then [] else [m.nat pRESET_CH]) ++ m.blocks.flatMap fun h => (m.namedBy h).eraseDups

/-- An attribute that names a channel. -/
def namesChannel (id : Nat) : Bool := id == pFB_ENABLE || id == pFB_CH_A || id == pFB_CH_B || (pSTN_COMMON_A ≤ id && id ≤ pSTN_DN_B)

/-- The modes a block's channels may have: 4 IN_OSSD for a door protective device, else 2 IN_T3 or
3 IN_WB. -/
def Mach.namedModeOk (m : Mach) (b c : Nat) : Bool :=
  let mode := m.chan c pCH_MODE
  if blockKind b == some .dpd then mode == 4 else mode == 2 || mode == 3

/-- The terminal switches of one end, by number, that are enabled. -/
def Mach.endSwitches (m : Mach) (top : Bool) : List Nat := (m.blocksOf .tsl).filter fun h => (0x0784 ≤ h) == top

/-- A switch with a higher number lies nearer its sill and has a lower TSL_V. -/
def Mach.switchesOk (m : Mach) : List Nat → Bool
  | a :: b :: r => decide (m.edgeDist b < m.edgeDist a) && decide (m.natAt b pTSL_V < m.natAt a pTSL_V) && m.switchesOk (b :: r)
  | _ => true

/-- 07 R193. -/
def Mach.safetyChecks (m : Mach) : List Check :=
  let dec := m.nat pERAMP_DEC
  let jerk := m.nat pERAMP_JERK
  let inspTime : Int := m.nat pINSP_STOP_TIME
  ([Ab.a, .b].map fun s =>
    (⟨m.servedAnywhere s && !(m.blockOn (0x0710 + s.idx) && m.blockOn (0x0712 + s.idx)),
      fun h id => (id == pFB_ENABLE && (h == 0x0710 + s.idx || h == 0x0712 + s.idx)) || id == pSIDES_SERVED⟩ : Check)) ++
  [ ⟨!((m.blocksOf .contactor).any fun h => m.roleOf h == 1) || !((m.blocksOf .contactor).any fun h => m.roleOf h == 2),
      fun h id => blockKind h == some .contactor && (id == pFB_ENABLE || id == pSOG_ROLE)⟩,
    ⟨decide (1000000 < m.vRated) && (m.endSwitches false == [] || m.endSwitches true == []),
      fun h id => (blockKind h == some .tsl && id == pFB_ENABLE) || (h == 0 && id == pV_RATED)⟩,
    ⟨m.nat pRESET_CH == 0xFF || repeated 0 m.namings,
      fun h id => (h == 0 && id == pRESET_CH) || ((blockKind h).isSome && namesChannel id)⟩,
    ⟨(m.blocks.any fun b => (m.namedBy b).any fun c => !m.namedModeOk b c),
      fun h id => ((blockKind h).isSome && namesChannel id) || id == pCH_MODE⟩,
    ⟨m.nat pLOCK_SOURCE != 0 && (m.landings.any fun l => m.land l pLOCK_NODE == 0xFF),
      fun h id => (h == 0 && id == pLOCK_SOURCE) || (m.landingH h && id == pLOCK_NODE)⟩,
    ⟨(m.blocksOf .tsl).any fun h => m.intAt h pTSL_EDGE == 0, fun h id => blockKind h == some .tsl && (id == pTSL_EDGE || id == pFB_ENABLE)⟩,
    ⟨!m.switchesOk (m.endSwitches false) || !m.switchesOk (m.endSwitches true), fun h _ => blockKind h == some .tsl⟩,
    rootCheck (decide (m.nat pOS_UP_SAFE ≤ m.nat pOS_UP_TRIP)) [pOS_UP_SAFE, pOS_UP_TRIP],
    rootCheck (decide (m.nat pOS_DN_SAFE ≤ m.nat pOS_DN_TRIP)) [pOS_DN_SAFE, pOS_DN_TRIP],
    rootCheck (decide ((inspTime - 1000) * (dec * jerk : Nat) < (1000 * (m.vRated * jerk + dec * dec) : Nat)))
      [pINSP_STOP_TIME, pV_RATED, pERAMP_DEC, pERAMP_JERK] ]

/-- The channels B of the ANTIVALENT pairs of a block. -/
def Mach.antiB (m : Mach) (b : Nat) : List Nat :=
  if attrApplies b pFB_POLARITY && m.natAt b pFB_POLARITY == 1 then
    ([m.natAt b pFB_CH_B] ++ if blockKind b == some .station then
      [m.natAt b (pSTN_COMMON_A + 1), m.natAt b (pSTN_COMMON_A + 3), m.natAt b (pSTN_COMMON_A + 5)] else []).filter (· != 0xFF)
  else []

/-- The mode that 10 R317 gives the channels of a safety output group. -/
def groupModes (g : Nat) : List (Nat × Nat) := [(g, 6), (8 + g, 6), (16 + g, 2), (24 + g, 2)]

/-- 10 R316. -/
def Mach.channelChecks (m : Mach) : List Check :=
  let user := m.nat pDEBOUNCE_USER
  let deb (c : Nat) : Nat := debounceTicks (m.chan c pCH_DEBOUNCE) user
  let of (c : Nat) (ids : List Nat) : Nat → Nat → Bool := fun h id => h == chHandle c && ids.contains id
  ((List.range 64).flatMap fun c =>
    let mode := m.chan c pCH_MODE
    let src := m.chan c pCH_PULSE_SRC
    [ (⟨mode == 6 && (decide (15 < c) || m.chan c pCH_SAFE_STATE != 0), of c [pCH_MODE, pCH_SAFE_STATE]⟩ : Check),
      ⟨mode == 4 && decide (deb c < 256), of c [pCH_MODE, pCH_DEBOUNCE]⟩,
      ⟨src != 0xFF && (m.chan src pCH_MODE != 7 || (mode != 1 && mode != 2) || decide (deb c < 32)),
        of c [pCH_MODE, pCH_DEBOUNCE, pCH_PULSE_SRC]⟩ ]) ++
  (m.blocks.flatMap fun b => (m.namedBy b).map fun c =>
    (⟨(m.chan c pCH_IN_SAFE == 1) != (m.antiB b).contains c,
      fun h id => (h == b && (namesChannel id || id == pFB_POLARITY)) || (h == chHandle c && id == pCH_IN_SAFE)⟩ : Check)) ++
  (m.blocksOf .contactor).map fun b =>
    ⟨(groupModes (groupOfBlock b)).any fun (x : Nat × Nat) => m.chan x.1 pCH_MODE != x.2,
      fun h id => (h == b && id == pFB_ENABLE) || (id == pCH_MODE && (groupModes (groupOfBlock b)).any fun (x : Nat × Nat) => h == chHandle x.1)⟩

/-- 11 R379. -/
def Mach.busChecks (m : Mach) : List Check :=
  [⟨m.untimed.busBad, fun h id => (h == 0 && (profParam id || id == pLOCK_SOURCE || id == pN_LANDINGS || id == pDRV_SP_WINDOW || id == pDRV_FB_WINDOW))
    || (portOfH h).isSome || id == pLOCK_NODE⟩]

/-- A USER_SOURCE names a numeric value of at most 32 bits, or nothing (13 R422). -/
def sourceOk (x : Nat) : Bool :=
  x == 0 || (match rowFor (x / 65536) (x % 65536) with
    | some r => r.count == 1 && decide (r.bytes ≤ 4)
    | none => false)

/-- 13 R420, R422. -/
def Mach.recorderChecks (m : Mach) : List Check :=
  ((List.range 7).map fun k => (⟨!ascendingB (m.valAt 0x0400 (pHIST_EDGES_T0 + k)), fun h id => h == 0x0400 && id == pHIST_EDGES_T0 + k⟩ : Check)) ++
  (List.range 4).map fun k => ⟨!sourceOk (m.natAt 0x0400 (pUSER_SOURCE_11 + k)), fun h id => h == 0x0400 && id == pUSER_SOURCE_11 + k⟩

/-- 16 R510. -/
def Mach.makerChecks (m : Mach) : List Check :=
  let key := keyNum (m.valAt 0 pFW_MAKER_KEY)
  [rootCheck (m.flag pFW_MAKER_REQUIRED && (key == 0 || !m.allMakerSigned key)) [pFW_MAKER_REQUIRED, pFW_MAKER_KEY]]

/-- Every cross-check of 08 R263. -/
def Mach.checks (m : Mach) : List Check :=
  m.landingChecks ++ m.mountCheck ++ m.motionChecks ++ m.doorChecks ++ m.safetyChecks ++ m.channelChecks ++ m.busChecks
    ++ m.recorderChecks ++ m.makerChecks

/-- The checks that fail. -/
def Mach.failing (m : Mach) : List Check := m.checks.filter fun (c : Check) => c.bad

/-! Configurations. -/

/-- Parameters with other CAB values. -/
def withCabCells (l cab : List ParamCell) : List ParamCell :=
  cab.foldl (fun l (c : ParamCell) => cellPut l c.handle c.id c.val) (l.filter fun c => !isCab c.handle c.id)

/-- The machine with other CAB values in its parameters, for judging them. -/
def Mach.withCab (m : Mach) (cab : List ParamCell) : Mach := { m with params := withCabCells m.params cab }

/-- The values a staged set starts from (08 R270). -/
def Mach.cabBase (m : Mach) : List ParamCell :=
  if m.noConfig then (m.newestCopy.map fun (c : CabCopy) => c.vals).getD [] else cabCells m.params

/-- The complete resulting configuration (08 R263). -/
def Mach.cabResult (m : Mach) (l : List Staged) : List ParamCell :=
  cabCells (l.foldl (fun p (e : Staged) => cellPut p e.handle e.id e.val) m.cabBase)

/-- The generation of the next commit. -/
def Mach.nextGen (m : Mach) : Nat := (max m.cab.copies.a.gen m.cab.copies.b.gen + 1) % 2 ^ 32

/-- The copy written first (08 R264). -/
def Mach.firstCopy (m : Mach) (g : Nat) : Ab :=
  let a := m.cab.copies.a
  let b := m.cab.copies.b
  if !a.mark then .a else if !b.mark then .b
  else if a.gen < b.gen then .a else if b.gen < a.gen then .b
  else if g % 2 == 1 then .b else .a

/-- Handles and IDs whose CAB values differ between two lists of values. -/
def cabDiff (old new : List ParamCell) : List (Nat × Nat) :=
  ((cabCells old ++ cabCells new).map fun (c : ParamCell) => (c.handle, c.id)).eraseDups.filter fun (x : Nat × Nat) =>
    cellVal old x.1 x.2 != cellVal new x.1 x.2

/-- Empty histograms and an extreme of a drawer (13 R420, R422). -/
def Mach.zeroStats (m : Mach) (d : Nat) (hs : List Nat) (ext : Bool) : Mach :=
  m.drawerSet d (hs.flatMap (fun h => [3 * h, 3 * h + 1, 3 * h + 2]) ++ if ext then [3] else []) fun x =>
    { x with
      hists := hs.foldl (fun l h => updAt l h fun _ => HistRec.reset) x.hists
      exts := if ext then x.exts.filter fun (e : ExtRec) => e.id != 0 else x.exts }

/-- The histograms of a type (13 R422). -/
def histsOfType (k : Nat) : Nat × List Nat :=
  if k == 0 then (1, [0, 1]) else if k == 1 then (1, [2, 3]) else if k == 2 then (2, [0, 1, 2]) else (8 + k, [0])

/-- Statistics whose edges, source or period have changed are zeroed (13 R420, R422). -/
def Mach.zeroChanged (m : Mach) (ch : List (Nat × Nat)) : Mach :=
  let hit (id : Nat) : Bool := ch.contains (0x0400, id)
  let m1 := m.each ((List.range 7).filter fun k => hit (pHIST_EDGES_T0 + k)) fun m k =>
    m.zeroStats (histsOfType k).1 (histsOfType k).2 false
  m1.each ((List.range 4).filter fun k => hit (pUSER_SOURCE_11 + k) || hit (pUSER_PERIOD_11 + k)) fun m k =>
    m.zeroStats (11 + k) [0] true

/-- Pairs of blocks whose attributes changed are read afresh, and records of blocks that no longer
exist are dropped (07 R192). -/
def CoreState.reconfigured (k : CoreState) (m : Mach) (ch : List (Nat × Nat)) : CoreState :=
  { k with
    blocks := k.blocks.filter fun (b : BlockRec) => m.blockOn b.handle
    pairs := k.pairs.filter fun (p : PairState) => m.blockOn p.handle && !ch.any fun (x : Nat × Nat) => x.1 == p.handle || x == (0, pLOCK_SOURCE) }

/-- The records that differ from those of `old` are sent to the field side (10 R303). -/
def Mach.sendChanged (m old : Mach) : Mach :=
  m.queueCfg (((List.range 64).filter fun c => m.cfgBits c != old.cfgBits c)
    ++ (if m.soon 0 pLINK_TIMEOUT != old.soon 0 pLINK_TIMEOUT then [globalRec] else []))

/-- New CAB values come into force (08 R252, R264 step 4). Of the limit parameters whose change counts up the epoch
(02 R58) the spec gives no list: V_RATED, A_MAX and J_MAX are taken (DESIGN CHOICE, notes/assumptions/21.md). -/
def Mach.applyCab (m : Mach) (vals : List ParamCell) : Mach :=
  let ch := cabDiff m.params vals
  let n := m.withCab vals
  let n1 := ({ n with
    safe.cores := n.safe.cores.map fun _ (k : CoreState) => k.reconfigured n ch
    sched.calls := n.sched.calls.filter fun (c : CallRec) => decide (c.landing < n.nLandings) }.sendChanged m).zeroChanged ch
  let ids := (ch.filter fun (x : Nat × Nat) => x.1 == 0).map fun (x : Nat × Nat) => x.2
  let n2 := if ids.any profParam then n1.rebind ids else n1
  if n2.sched.calls != m.sched.calls || ids.any fun i => i == pV_RATED || i == pA_MAX || i == pJ_MAX then n2.bumpEpoch else n2

/-! The commit. -/

/-- CAB_COMMIT (08 R262). -/
def execCabCommit (tag : Nat) (s : State) : Res := serve s 0x83 tag fun m =>
  match m.cab.session with
  | none => refuse m stDENIED
  | some slot =>
    if m.cab.commit.isSome then refuse m stBUSY
    else if m.cab.staged == [] then refuse m stDENIED
    else if !m.still || m.inRun then refuse m stWRONG_MODE
    else if m.triad.proof.isSome then refuse m stBUSY
    else pending { m with cab.commit := some { CommitRun.reset with
      atF := m.time.frame, tag := tag, slot := slot, entries := m.cab.staged } }

/-- End a commit with a final status (14 R460). -/
def Mach.endCommit (m : Mach) (r : CommitRun) (status data : Nat) : Mach :=
  { m with cab.commit := none }.completed 0x83 r.tag status 0 data

/-- The log entries of a commit change their status (08 R264). -/
def Mach.commitLog (m : Mach) (r : CommitRun) (status : Nat) : Mach :=
  m.each (List.range r.logN) fun m k => m.logStatus (r.logFrom + k) status

/-- The conditions have ceased or a run has started before the commit point (08 R264). -/
def Mach.commitAborts (m : Mach) : Bool :=
  match m.cab.commit with
  | some r => decide (r.phase < 2) && (!m.still || m.inRun)
  | none => false

/-- Nothing is put in force (08 R264). -/
def Mach.abortCommit (m : Mach) : Mach :=
  match m.cab.commit with
  | some r => if m.commitAborts then (m.commitLog r 1).endCommit r stWRONG_MODE 0 else m
  | none => m

/-- The staged entry that a rejection names: the lowest that a failing check concerns, else the lowest
(08 R263). -/
def rejected (l : List Staged) (f : List Check) : Nat × Nat :=
  match l.find? fun (e : Staged) => f.any fun (c : Check) => c.concerns e.handle e.id with
  | some e => (e.handle, e.id)
  | none => match l with
    | e :: _ => (e.handle, e.id)
    | [] => (0, 0)

/-- One change-log entry, PENDING, the index-th of so many. -/
def Mach.logChange (m : Mach) (r : CommitRun) (count index : Nat) (e : Staged) : Mach :=
  match rowFor e.handle e.id with
  | some row =>
    m.logAppend ⟨r.gen, r.slot, 0, 2, e.handle, e.id, count, index⟩ (some (encodeVal row (m.valAt e.handle e.id)))
      (some (encodeVal row e.val))
  | none => m

/-- One change-log entry per changed value, each PENDING (08 R264 step 2). -/
def Mach.logChanges (m : Mach) (r : CommitRun) (ch : List Staged) : Mach :=
  m.each ch.zipIdx fun m (x : Staged × Nat) => m.logChange r ch.length x.2 x.1

/-- The cores' verdicts (08 R263) and, when they pass, the write of the first copy and the log
(08 R264 steps 1 and 2). -/
def Mach.commitVerdicts (m : Mach) (r : CommitRun) (delivered : Three Bool) : Mach :=
  let vals := m.cabResult r.entries
  let bad := (m.withCab vals).failing
  if !(m.coresIn.all delivered.get) || 200 < m.since r.atF then (m.raise 0 0xDB 3).endCommit r stDENIED 0
  else
    let m1 := m.endFault 0 0xDB
    if bad.length != 0 then
      let x := rejected r.entries bad
      { m1 with cab.rejUnit := x.1, cab.rejId := x.2 }.endCommit r stBAD_PARAM (x.1 + 65536 * x.2)
    else if vals == cabCells m.params then { m1 with cab.staged := [] }.endCommit r stOK m.cab.gen
    else
      let g := m.nextGen
      let f := m.firstCopy g
      let ch := r.entries.filter fun (e : Staged) => e.val != m.valAt e.handle e.id
      let r1 := { r with
        phase := 1
        gen := g
        first := f
        vals := vals
        logFrom := m.cab.head + 1
        logN := ch.length }
      ({ m1 with cab.commit := some r1 }.writeCopy f false g vals).logChanges r1 ch

/-- COMMIT_VERDICTS (08 R263). -/
def execCommitVerdicts (delivered : Three Bool) (s : State) : Res :=
  match s.now.cab.commit with
  | some r => onWhen s (r.phase == 0) fun m => if m.commitAborts then m.abortCommit else m.commitVerdicts r delivered
  | none => .next s

/-- COMMIT_POINT: the first copy's header is marked valid (08 R264 step 3). The channel attributes that change take
effect at the SYNC of the next frame, so that their records are sent in this one (10 R303, R334). -/
def execCommitPoint (s : State) : Res :=
  match s.now.cab.commit with
  | some r => onWhen s (r.phase == 1) fun m =>
    if m.commitAborts then m.abortCommit
    else { m with
      cab.copies := m.cab.copies.upd r.first fun (c : CabCopy) => { c with mark := true }
      cab.commit := some { r with phase := 2, atF := m.time.frame } }.sendChanged m
  | none => .next s

/-- A committed learning run ends 0x3E and what it did to POS_QUALITY; a position unconfirmed since the
start-up stays so until HOME (03 R87, R94, R96). -/
def Mach.endMismatch (m : Mach) : Mach :=
  if m.inForce 1 0x3E then
    { m with pos.est := m.pos.est.map fun _ e => { e with confirmed := !m.inForce 1 0x3F } }.endFault 1 0x3E
  else m

/-- The learned data of a learning run are committed (03 R95, R96). -/
def Mach.learnCommitted (m : Mach) (r : CommitRun) : Mach :=
  if m.pos.learn.state == 4 && r.entries.any fun (e : Staged) => 0x1000 ≤ e.handle && e.id == pSILL_LEVEL then
    { m with pos.learn.state := 0 }.endMismatch
  else m

/-- Every core puts the new values in force at its freeze of the frame after the commit point
(08 R264 step 4). -/
def Mach.commitFreeze (m : Mach) : Mach :=
  match m.cab.commit with
  | some r =>
    if r.phase == 2 && r.atF < m.time.frame then
      ({ m.applyCab r.vals with
        cab.gen := r.gen
        cab.used := true
        cab.commit := some { r with phase := 3 } }.commitLog r 0).learnCommitted r
    else m
  | none => m

/-- The other copy is written and marked valid, which completes the commit and ends 0xD9 and 0xDA
(08 R264 step 5, R270). -/
def Mach.commitComplete (m : Mach) (r : CommitRun) : Mach :=
  ((({ m with cab.staged := [] }.writeCopy r.first.other true r.gen r.vals).endFault 0 0xD9).endFault 0 0xDA).endCommit r stOK r.gen

end Sys2Proof.Machine
end

