-- ==== Sys2Proof/Machine/GroupStore.lean ====
section
/-!
DEFINITION. The user group area of the MRAM (01 R24): 3072 records from 0x38_0000, in the record layout
and write order of chapter 13. A record holds the group handle, a part number, the number of children it
holds and those children (the order and widths of these fields: notes/assumptions/47.md).
-/
namespace Sys2Proof.Machine

open Sys2Proof

/-- First address of the user group area (01 R24; 13 R435). -/
def groupBase : Nat := 0x380000

/-- Records that a group of n children takes (01 R24). -/
def groupRecords (n : Nat) : Nat := (n + 23) / 24

/-- Address of a record of the area. -/
def groupAddr (i : Nat) : Nat := groupBase + 0x40 * i

/-- Payload of part k of a group. -/
def groupPayload (h k : Nat) (kids : List Nat) : List Nat :=
  let part := (kids.drop (24 * k)).take 24
  le 2 h ++ [k, part.length] ++ part.flatMap (le 2)

/-- Records of the area in which some byte is not blank, ascending. -/
def groupTouched (mram : List (Nat × BitVec 8)) : List Nat :=
  ((mram.filter fun c => decide (groupBase ≤ c.1) && decide (c.1 < groupBase + 0x30000)).map fun c =>
    (c.1 - groupBase) / 64).eraseDups

/-- A group record: index, group handle, part number and children. -/
structure GroupPart where
  idx : Nat
  handle : Nat
  part : Nat
  kids : List Nat
  deriving DecidableEq, Repr

/-- The record at an index, where it is valid (13 R414). -/
def Mach.groupPartAt (m : Mach) (i : Nat) : Option GroupPart :=
  (m.readRecord (groupAddr i)).map fun (r : List Nat × Nat) =>
    ⟨i, leAt r.1 0 2, nth r.1 2 0, (List.range (min 24 (nth r.1 3 0))).map fun k => leAt r.1 (4 + 2 * k) 2⟩

/-- Every valid record of the area. -/
def Mach.groupParts (m : Mach) : List GroupPart := (groupTouched m.mram).filterMap m.groupPartAt

/-- A group in its place, handles ascending. -/
def groupPut (l : List GroupDef) (g : GroupDef) : List GroupDef :=
  match l with
  | [] => [g]
  | x :: r => if g.handle < x.handle then g :: x :: r else if x.handle == g.handle then g :: r else x :: groupPut r g

/-- The children of a group, part by part. -/
def groupKids (ps : List GroupPart) (h : Nat) : List Nat :=
  (List.range 3).flatMap fun k => ((ps.find? fun p => p.handle == h && p.part == k).map (·.kids)).getD []

/-- The definitions that the area holds (01 R24), as a restart finds them. -/
def Mach.readGroups (m : Mach) : List GroupDef :=
  let ps := m.groupParts
  (ps.map (·.handle)).eraseDups.foldl (fun l h => groupPut l ⟨h, groupKids ps h⟩) []

/-- The sequence number of the area's next record (13 R416): one above the newest it holds. -/
def groupSeq (mram : List (Nat × BitVec 8)) : Nat :=
  match (groupTouched mram).map fun i => leAt (Memory.readBytes mram (groupAddr i + 56) 4) 0 4 with
  | [] => 0
  | x :: r => ((r.foldl (fun b y => if newer 32 y b then y else b) x) + 1) % 2 ^ 32

/-- The lowest free records, so many of them. -/
def Mach.groupFreeAt (m : Mach) (n : Nat) : List Nat :=
  let used := m.groupParts.map (·.idx)
  ((List.range (used.length + n)).filter fun i => !used.contains i).take n

/-- The records of a group's earlier definition are released (13 R415). -/
def Mach.freeGroup (m : Mach) (h : Nat) : Mach :=
  m.each (m.groupParts.filter fun p => p.handle == h) fun m p => m.voidRecord (groupAddr p.idx)

/-- A definition is stored in the place of the group's earlier one (01 R24); one with no children stores
nothing. -/
def Mach.storeGroup (m : Mach) (h : Nat) (kids : List Nat) : Mach :=
  let m1 := m.freeGroup h
  let seq := groupSeq m1.mram
  m1.each ((m1.groupFreeAt (groupRecords kids.length)).zip (List.range (groupRecords kids.length))) fun m x =>
    m.writeRecord (groupAddr x.1) (groupPayload h x.2 kids) ((seq + x.2) % 2 ^ 32)

end Sys2Proof.Machine
end

