-- ==== Sys2Proof/Machine/Recorder.lean ====
section
/-!
DEFINITION. The event recorder (chapter 13): the records of the drawers, flushes, clears, the window,
scrubbing and the start.
-/
namespace Sys2Proof.Machine

open Sys2Proof

/-- The recorder's handle. -/
def recorderUnit : Nat := 0x0400

/-- A drawer's SRAM state. -/
def Mach.drawerAt (m : Mach) (d : Nat) : DrawerState := nth m.rcd.drawers d DrawerState.reset

/-- Change a drawer's SRAM state. -/
def Mach.onDrawer (m : Mach) (d : Nat) (f : DrawerState → DrawerState) : Mach :=
  { m with rcd.drawers := updAt m.rcd.drawers d f }

/-- Address of record i of drawer d (13 R418). -/
def recAddr (d i : Nat) : Nat := 0x30000 * d + 0x40 * i

/-! Payloads of the fixed areas (13 R419, R422, R426). -/

/-- A part of a histogram. -/
def histPayload (x : DrawerState) (h part : Nat) : List Nat :=
  let r := nth x.hists h HistRec.reset
  let bins := (List.range (if part == 2 then 8 else 12)).map fun k => nth r.bins (12 * part + k) 0
  [0, part] ++ le 2 h ++ bins.flatMap (le 4) ++ if part == 2 then le 4 r.total else []

/-- An extreme item, empty where nothing has been seen (13 R421). -/
def extItem (x : DrawerState) (id : Nat) : List Nat :=
  let e := (x.exts.find? fun (e : ExtRec) => e.id == id).getD ExtRec.reset
  leS 4 e.min ++ leS 4 e.max ++ le 8 e.tMin ++ le 8 e.tMax

/-- One or two extreme items from an EXT_ID. -/
def extPayload (x : DrawerState) (id n : Nat) : List Nat :=
  [1, n] ++ le 2 id ++ (List.range n).flatMap fun k => extItem x (id + k)

/-- A part of an array of counts. -/
def countPayload (x : DrawerState) (arr part : Nat) : List Nat :=
  [2, part] ++ le 2 arr ++ (List.range 12).flatMap fun k =>
    le 4 (((x.counts.find? fun (c : Nat × Nat × Nat) => c.1 == arr && c.2.1 == 12 * part + k).map fun (c : Nat × Nat × Nat) => c.2.2).getD 0)

/-- The fields of a META record from the generation on (13 R426). -/
def DrawerState.meta (x : DrawerState) (gen : Nat) : List Nat :=
  le 4 gen ++ le 4 x.clears ++ le 8 x.clearWall ++ le 4 x.clearBoot
    ++ le 2 x.ring.head ++ [0, 0] ++ le 4 x.ring.written ++ le 4 x.ring.dropped
    ++ le 2 x.ring2.head ++ [0, 0] ++ le 4 x.ring2.written ++ le 4 x.ring2.dropped

/-- What a fixed record holds: a part of a histogram, items from an EXT_ID, or a part of an array. -/
inductive FixedKind where
  | hist (h part : Nat)
  | ext (id n : Nat)
  | count (arr part : Nat)
  deriving DecidableEq, Repr

/-- The table of 13 R422 for drawers 0 to 14. -/
def fixedKind (d i : Nat) : FixedKind :=
  match d with
  | 0 | 4 => .count 0 i
  | 1 => if i < 12 then .hist (i / 3) (i % 3) else .ext (2 * (i - 12)) 2
  | 2 => if i < 9 then .hist (i / 3) (i % 3) else .ext (2 * (i - 9)) 2
  | 8 => if i % 2 == 0 then .count (i / 2) 0 else .ext (i - 1) 2
  | 9 => if i < 12 then .count (i / 6) (i % 6) else .ext (2 * (i - 12)) 2
  | 10 => if i == 0 then .count 0 0 else .ext (2 * (i - 1)) 2
  | 3 | 5 | 7 => .ext (2 * i) 2
  | _ => if i < 3 then .hist 0 i else .ext 0 1

/-- The payload of a fixed record of drawers 0 to 14. -/
def Mach.fixedPayload (m : Mach) (d i : Nat) : List Nat :=
  let x := m.drawerAt d
  match fixedKind d i with
  | .hist h p => histPayload x h p
  | .ext id n => extPayload x id n
  | .count a p => countPayload x a p

/-! Writing (13 R415, R416, R427). -/

/-- A window read in progress forgets the failures of a record that has been written since: only one that
fails again with its SEQ unchanged is CORRUPT (13 R432). -/
def Mach.forgetFailure (m : Mach) (a : Nat) : Mach :=
  { m with rcd.win := m.rcd.win.map fun (w : WinRun) =>
      { w with badIdx := w.badIdx.filter fun i => recAddr m.rcd.curDrawer i != a } }

/-- A record has been written: 0xD1 ends when every record found corrupt has been (13 R439). -/
def Mach.rewritten (m : Mach) (a : Nat) : Mach :=
  let m1 := m.forgetFailure a
  if m1.rcd.corrupt.contains a then
    let l := m1.rcd.corrupt.filter (· != a)
    { m1 with rcd.corrupt := l }.endIf recorderUnit 0xD1 (l == [])
  else m1

/-- The outcome of a write's verification: 0xD0 after a failure, ended by 1000 good writes (13 R439). -/
def Mach.verified (m : Mach) (good : Bool) : Mach :=
  if good then
    let n := min 1000 (m.rcd.okWrites + 1)
    { m with rcd.okWrites := n }.endIf recorderUnit 0xD0 (n == 1000)
  else { m with rcd.okWrites := 0 }.raise recorderUnit 0xD0 2

/-- Write a drawer record under the next sequence number. What a record holds whose write failed its
verification is open. -/
def Mach.putRec (m : Mach) (bad : List Nat) (d i : Nat) (payload : List Nat) : Mach :=
  let a := recAddr d i
  let seq := (m.rcd.seq + 1) % 2 ^ 32
  let m1 := { m with rcd.seq := seq }
  if bad.contains a then
    { m1.poke a ((List.range 64).map fun k => Config.freeValue (m.free + k) % 256) with free := m.free + 64 }.verified false
  else ((m1.writeRecord a payload seq).rewritten a).verified true

/-- Write an emptied ring record with an invalid mark (13 R434). -/
def Mach.putVoid (m : Mach) (bad : List Nat) (d i : Nat) : Mach :=
  let a := recAddr d i
  if bad.contains a then m.verified false else ((m.voidRecord a).rewritten a).verified true

/-- Write a ring entry at its ring's head (13 R425). -/
def Mach.putEntry (m : Mach) (bad : List Nat) (e : RingEntry) : Mach :=
  match ringsOf e.drawer with
  | [] => m
  | r0 :: rs =>
    let g := if e.second then rs.headD r0 else r0
    let x := m.drawerAt e.drawer
    let r := if e.second then x.ring2 else x.ring
    let r' : RingRec := { r with head := (r.head + 1) % g.2, written := sat32 r.written }
    (m.putRec bad e.drawer (g.1 + r.head) e.payload).onDrawer e.drawer fun y =>
      if e.second then { y with ring2 := r' } else { y with ring := r' }

/-- Indexes of the ring records of a drawer. -/
def ringIndexes (d : Nat) : List Nat := (ringsOf d).flatMap fun (r : Nat × Nat) => (List.range r.2).map (r.1 + ·)

/-- The fixed records of a drawer that the next flush writes, ascending. -/
def Mach.dirtyFixed (m : Mach) (d : Nat) : List Nat := (List.range (fixedRecords d)).filter (m.drawerAt d).dirty.contains

/-- Ring entries held for a drawer, oldest first. -/
def Mach.heldEntries (m : Mach) (d : Nat) : List RingEntry := m.rcd.queue.filter fun (e : RingEntry) => e.drawer == d

/-- Records that the next flush writes in a drawer (13 R427, R434). -/
def Mach.dueRecords (m : Mach) (d : Nat) : Nat :=
  (m.dirtyFixed d).length + (m.heldEntries d).length + if (m.drawerAt d).clearing == 2 then (ringIndexes d).length else 0

/-- DIRTY_RECORDS (13 R438). -/
def Mach.dirtyRecords (m : Mach) : Nat := sumN ((List.range 15).map m.dueRecords)

/-- A flushed drawer's clear has been written (13 R434). -/
def Mach.clearWritten (m : Mach) (d : Nat) : Mach :=
  let x := m.drawerAt d
  if x.clearing == 2 then
    ((m.onDrawer d fun y => { y with clearing := 0 }).post 9 1 recorderUnit d x.clears).completed 0x73 x.clearTag stOK 0 0
  else m

/-- Flush one drawer: its generation passes through odd to the next even one (13 R427). -/
def Mach.flushDrawer (m : Mach) (bad : List Nat) (d : Nat) : Mach :=
  if m.dueRecords d == 0 then m
  else
    let voids := if (m.drawerAt d).clearing == 2 then ringIndexes d else []
    let m0 := { m.onDrawer d fun y => { y with dirty := [] } with
      rcd.queue := m.rcd.queue.filter fun (e : RingEntry) => e.drawer != d }
    let m1 := m0.each (m.dirtyFixed d) fun x i => x.putRec bad d i (m.fixedPayload d i)
    let m2 := m1.each voids fun x i => x.putVoid bad d i
    let m3 := m2.each (m.heldEntries d) fun x e => x.putEntry bad e
    m3.onDrawer d fun y => { y with gen := (y.gen + 2) % 2 ^ 32 }

/-- The times, in 0.1 µs, at which the flush of this frame writes each drawer: 0.8 µs a record from
offset 210 µs (13 R427). -/
def Mach.flushTimes (m : Mach) : List (Nat × Nat × Nat) :=
  ((List.range 15).foldl (fun (x : List (Nat × Nat × Nat) × Nat) d =>
    let n := m.dueRecords d
    if n == 0 then x else (x.1 ++ [(d, x.2, x.2 + 8 * n)], x.2 + 8 * n)) ([], 2500 * m.time.frame + 2100)).1

/-- A flush (13 R427): the drawers in ascending order, then their META records in drawer 15. -/
def Mach.flush (m : Mach) (bad : List Nat) : Mach :=
  let times := m.flushTimes
  let ds := times.map (·.1)
  let stop := (times.getLast?.map fun (t : Nat × Nat × Nat) => t.2.2).getD 0
  let m1 := m.each ds fun x d => x.flushDrawer bad d
  let gen15 := (m1.drawerAt 15).gen
  let m3 := if ds == [] then m1 else
    (m1.each (ds ++ [15]) fun x d => x.putRec bad 15 d ([4, 0] ++ le 2 d ++ (x.drawerAt d).meta (x.drawerAt d).gen)).onDrawer 15
      fun y => { y with gen := (gen15 + 2) % 2 ^ 32 }
  let m4 := { m3 with
    rcd.flushes := sat32 m3.rcd.flushes
    rcd.lastFlush := m.ts
    rcd.flushing := if ds == [] then [] else times ++ [(15, stop, stop + 8 * (ds.length + 1))] }
  let m5 := m4.each ds fun x d => x.clearWritten d
  if bad == [] then (m5.endFault recorderUnit 0xD3).endFault recorderUnit 0xD5 else m5

/-- A flush falls in this frame (13 R427). -/
def Mach.flushDue (m : Mach) : Bool :=
  m.recording && m.ts % (1000 * m.natAt recorderUnit pRECORD_FLUSH) == 0 && !(m.rcd.lastFlush == m.ts && m.rcd.flushes != 0)

/-- RECORD_FLUSH: the flush of a frame, with the addresses whose write failed its verification. -/
def execRecordFlush (bad : List Nat) (s : State) : Res := onWhen s s.now.flushDue fun m => m.flush bad

/-! Clears (13 R434). -/

/-- At the freeze after its acceptance, a clear empties the drawer. -/
def Mach.clearFreeze (m : Mach) : Mach :=
  m.each (List.range 15) fun m d =>
    if (m.drawerAt d).clearing == 1 then
      { m.onDrawer d fun x => { x with
          hists := []
          exts := []
          counts := []
          ring := { x.ring with head := 0, written := 0 }
          ring2 := { x.ring2 with head := 0, written := 0 }
          dirty := List.range (fixedRecords d)
          clearing := 2 } with
        rcd.queue := m.rcd.queue.filter fun (e : RingEntry) => e.drawer != d }
    else m

/-- DRAWER_CLEAR (13 R434). -/
def execDrawerClear (tag drawer : Nat) (s : State) : Res := serve s 0x73 tag fun m =>
  if 15 < drawer then refuse m stBAD_PARAM
  else match m.cab.session with
    | none => refuse m stDENIED
    | some slot =>
      if drawer == 15 then refuse m stBAD_PARAM
      else if m.rcd.drawers.any (fun (x : DrawerState) => x.clearing != 0) then refuse m stBUSY
      else pending ((m.onDrawer drawer fun x => { x with
        clears := sat32 x.clears
        clearWall := m.wall
        clearBoot := m.sec.boots
        clearing := 1
        clearTag := tag }).logEvent 5 slot drawer)

/-- DRAWER_INFO (13 R433). -/
def execDrawerInfo (tag drawer : Nat) (s : State) : Res := serve s 0x72 tag fun m =>
  if 15 < drawer then refuse m stBAD_PARAM
  else
    let x := m.drawerAt drawer
    (m, stOK, le 4 x.gen ++ le 2 drawer ++ x.meta x.gen ++ le 2 (fixedRecords drawer) ++ [(ringsOf drawer).length]
      ++ (ringsOf drawer).flatMap fun (r : Nat × Nat) => le 2 r.1 ++ le 2 r.2)

/-! The window (13 R431, R432). -/

/-- CURSOR_SET (13 R431). -/
def execCursorSet (tag drawer index : Nat) (s : State) : Res := serve s 0x70 tag fun m =>
  if 15 < drawer || 3071 < index then refuse m stBAD_PARAM
  else ok { m with rcd.curDrawer := drawer, rcd.curIndex := index }

/-- The indexes that a read at the cursor copies. -/
def Mach.windowIndexes (m : Mach) : List Nat := (List.range (min 4 (3072 - m.rcd.curIndex))).map (m.rcd.curIndex + ·)

/-- A drawer's generation is odd, or changes, within 2.5 µs of an instant in 0.1 µs. -/
def Mach.beingWritten (m : Mach) (d t : Nat) : Bool :=
  let times := if m.flushDue then m.flushTimes else m.rcd.flushing
  times.any fun (x : Nat × Nat × Nat) => x.1 == d && decide (x.2.1 < t + 25) && decide (t < x.2.2)

/-- The records of a copy that fail: a bad CRC with a valid mark, or as the evidence says. -/
def Mach.failedCopies (m : Mach) (bad : List Nat) : List Nat :=
  m.windowIndexes.filter fun i =>
    let a := recAddr m.rcd.curDrawer i
    let r := m.peek a 64
    recMarked r && (bad.contains i || !recGood a r || m.damaged a 64)

/-- A record in the window: its status and its bytes. -/
def Mach.windowRecord (m : Mach) (corrupt : List Nat) (i : Nat) : Nat × List Nat :=
  let r := m.peek (recAddr m.rcd.curDrawer i) 64
  if !recMarked r then (1, List.replicate 64 0) else if corrupt.contains i then (2, List.replicate 64 0) else (0, r)

/-- The window block (13 R431). -/
def Mach.windowBlock (m : Mach) (corrupt : List Nat) : List Nat :=
  let is := m.windowIndexes
  let rs := is.map (m.windowRecord corrupt)
  let b := [m.rcd.curDrawer, is.length] ++ le 2 m.rcd.curIndex ++ le 4 (m.drawerAt m.rcd.curDrawer).gen
    ++ (rs.map (fun (r : Nat × List Nat) => r.1) ++ List.replicate 4 0).take 4
      ++ (rs.flatMap (fun (r : Nat × List Nat) => r.2) ++ List.replicate 256 0).take 256
  b ++ le 4 (crc32c b)

/-- Records returned as CORRUPT raise 0xD1 (13 R432). -/
def Mach.corruptFound (m : Mach) (is : List Nat) : Mach :=
  if is == [] then m
  else { m with rcd.corrupt := (m.rcd.corrupt ++ is.map (recAddr m.rcd.curDrawer)).eraseDups }.raise recorderUnit 0xD1 1

/-- One copy attempt (13 R432): the block when it succeeds, and the records whose check failed. A
record that fails twice is returned as CORRUPT. -/
def Mach.copyAttempt (m : Mach) (t : Nat) (bad before : List Nat) : Option (Mach × List Nat) × List Nat :=
  let fails := m.failedCopies bad
  if m.beingWritten m.rcd.curDrawer t then (none, before)
  else if fails.all before.contains then
    let n := m.windowIndexes.length
    (some ({ m.corruptFound fails with rcd.curIndex := m.rcd.curIndex + n, rcd.win := none }, m.windowBlock fails), before)
  else (none, (before ++ fails).eraseDups)

/-- WINDOW_READ with its first attempt at offset 212.5 µs of the serving frame (13 R432). Where it
fails, the reply follows a later attempt. -/
def execWindowRead (tag : Nat) (bad : List Nat) (s : State) : Res :=
  if !s.now.serves? then .next s
  else if !s.now.admits 0x71 then .next { s with now := s.now.reply 0x71 tag stWRONG_MODE [] }
  else on s fun m =>
    match m.copyAttempt (2500 * m.time.frame + 2125) bad [] with
    | (some r, _) => r.1.reply 0x71 tag stOK r.2
    | (none, fails) => { m with
        rcd.win := some ⟨tag, 1, m.time.frame, fails⟩
        host.taken := none
        host.hbsy := true }

/-- A reply that is ready only in the frame after its serving (14 R453). -/
def Mach.lateReply (m : Mach) (tag at_ status : Nat) (payload : List Nat) : Mach :=
  { m.reply 0x71 tag status payload with host.prepAt := at_, host.prepLate := true }

/-- WINDOW_COPY_RETRY: a further attempt, 25 µs after the one before; after four the reply is 0x23
RETRY (13 R432). -/
def execWindowCopyRetry (bad : List Nat) (s : State) : Res :=
  match s.now.rcd.win with
  | none => .next s
  | some w => on s fun m =>
    match m.copyAttempt (2500 * w.atF + 2125 + 250 * w.attempts) bad w.badIdx with
    | (some r, _) => r.1.lateReply w.tag w.atF stOK r.2
    | (none, fails) =>
      if 3 ≤ w.attempts then { m with rcd.win := none }.lateReply w.tag w.atF stRETRY []
      else { m with rcd.win := some { w with attempts := w.attempts + 1, badIdx := fails } }

/-! Scrubbing (13 R436). -/

/-- SCRUB: one word read, with the bits that had flipped (01 R19; 13 R436): one is corrected, two make the word unusable
until it is written, and one that is unusable reads as such again. The pass ends with the last word. -/
def execScrub (addr flips : Nat) (s : State) : Res :=
  if mramSize ≤ addr || addr % 8 != 0 then .fault .noSuchAddress
  else on s fun m =>
    let bad := decide (2 ≤ flips) || m.mramBad.contains addr
    let m1 := if flips == 0 && !bad then m
      else if !bad then { m with rcd.scrubFix := sat32 m.rcd.scrubFix }
      else { m with
        mramBad := if m.mramBad.contains addr then m.mramBad else m.mramBad ++ [addr]
        rcd.scrubBad := sat32 m.rcd.scrubBad
        rcd.scrubAddr := addr
        rcd.passBad := true }.raise recorderUnit 0xD2 1
    let pos := addr / 8 + 1
    if pos == mramSize / 8 then { m1.endIf recorderUnit 0xD2 (!m1.rcd.passBad) with rcd.scrubPos := 0, rcd.passBad := false, rcd.passFrom := m.time.frame }
    else { m1 with rcd.scrubPos := pos }

/-! Per frame (13 R422, R439). -/

/-- A contactor group is confirmed dropped. -/
def GroupOut.dropped (g : GroupOut) : Bool := !g.cs.a.on && g.cs.a.ok && !g.cs.b.on && g.cs.b.ok

/-- The newest link tick at which one of some channels changed in this freeze, else the freeze's. -/
def Mach.changedAt (m : Mach) (chs : List Nat) : Nat :=
  let l := (m.link.frTrans.filter fun (t : Trans) => chs.contains t.ch).map fun (t : Trans) => t.lt
  if l == [] then m.link.frLt else l.foldl max 0

/-- Link ticks as milliseconds. -/
def ticksMs (n : Nat) : Int := halfAway n 160

/-- Drawer 10: contactors and brake, as the core that the reports follow sees them. -/
def Mach.contactorStats (m old : Mach) : Mach :=
  let k := m.pubCore
  let k0 := old.pubCore
  let m1 := m.each ((m.blocksOf .contactor).map groupOfBlock) fun m g =>
    let x := k.group g
    let ms := ticksMs (m.changedAt [mirrorCh g .a, mirrorCh g .b] - x.cs.a.lt)
    if x.pulled && !(k0.group g).pulled then (m.count 10 0 g).extreme 10 (2 * g) ms
    else if x.dropped && !(k0.group g).dropped then m.extreme 10 (2 * g + 1) ms
    else m
  let ms := ticksMs (m.changedAt [m.natAt 0x0750 pFB_CH_A, m.natAt 0x0750 pFB_CH_B] - k.brakeLt)
  if k.brake == 1 && k0.brake != 1 then (m1.count 10 0 8).extreme 10 16 ms
  else if k.brake == 2 && k0.brake != 2 then (m1.count 10 0 9).extreme 10 17 ms
  else m1

/-- SP_POS, SP_VEL and SP_ACC (04 R124). -/
def Mach.spPos (m : Mach) : Int := unitOf m.eng.kin.p
def Mach.spVel (m : Mach) : Int := unitOf m.eng.kin.v
def Mach.spAcc (m : Mach) : Int := unitOf m.eng.kin.a

/-- Drawers 0, 3, 7 and 10, and the end of 0xD4, once per frame. -/
def Mach.recorderFrame (m old : Mach) : Mach :=
  let m1 := if m.stationary && !old.stationary then
      (match m.zoneOf m.fpos with
      | some l => m.count 0 0 l
      | none => m)
    else m
  let m2 := ((((m1.extreme 3 0 m.fvel).extreme 3 1 m.est.pubA).extreme 3 2 (m.spVel - m.fvel)).extreme 3 3 (m.spPos - m.fpos)).extreme 3 4 m.pos.stretch
  let m3 := if m.eng.fbSeen then m2.extreme 3 5 m.eng.fb.torque else m2
  let m4 := if m.power.vinSeen then ((m3.extreme 7 0 (m.power.vin : Nat)).extreme 7 1 (m.power.power : Nat)).extreme 7 2 m.power.temp else m3
  let m5 := (m4.extreme 7 6 (m.doors.a.udc : Nat)).extreme 7 7 (m.doors.b.udc : Nat)
  let m6 := m5.contactorStats old
  let low := decide (m6.rcd.queue.length < 128)
  let m7 := { m6 with rcd.qLowSince := if low then some (m6.rcd.qLowSince.getD m.time.frame) else none }
  m7.endIf recorderUnit 0xD4 (match m7.rcd.qLowSince with
    | some f => m7.passedMs f 1000
    | none => false)

/-! The start (13 R430). -/

/-- The extreme items of a stored record that are not empty. -/
def extsOf (id n : Nat) (p : List Nat) : List ExtRec :=
  ((List.range n).map fun k =>
    (⟨id + k, leSAt p (4 + 24 * k) 4, leSAt p (8 + 24 * k) 4, leAt p (12 + 24 * k) 8, leAt p (20 + 24 * k) 8⟩ : ExtRec)).filter
      fun (e : ExtRec) => decide (e.min ≤ e.max)

/-- Take an older extreme item into those seen since (13 R421): an equal value changes nothing. -/
def extMerge (l : List ExtRec) (e : ExtRec) : List ExtRec :=
  match l with
  | [] => [e]
  | c :: r =>
    if c.id == e.id then
      { c with
        min := if c.min < e.min then c.min else e.min
        tMin := if c.min < e.min then c.tMin else e.tMin
        max := if e.max < c.max then c.max else e.max
        tMax := if e.max < c.max then c.tMax else e.tMax } :: r
    else if e.id < c.id then e :: c :: r
    else c :: extMerge r e

/-- Take a stored fixed record into the SRAM state, which may hold events of this start already. -/
def DrawerState.load (x : DrawerState) (k : FixedKind) (p : List Nat) : DrawerState :=
  match k with
  | .hist h part =>
    let n := if part == 2 then 8 else 12
    let f (r : HistRec) : HistRec :=
      ⟨(List.range n).foldl (fun b i => updAt b (12 * part + i) fun x => satAdd 32 x (leAt p (4 + 4 * i) 4)) r.bins,
        if part == 2 then satAdd 32 r.total (leAt p 36 4) else r.total⟩
    { x with hists := updAt (histsFrom x.hists h) h f }
  | .ext id n => { x with exts := (extsOf id n p).foldl extMerge x.exts }
  | .count a part =>
    let all := (List.range 12).map fun i => (a, 12 * part + i, leAt p (4 + 4 * i) 4)
    { x with counts := (all.filter fun (c : Nat × Nat × Nat) => c.2.2 != 0).foldl (fun l c => countAdd l c.1 c.2.1 c.2.2) x.counts }

/-- A record whose write was interrupted: an invalid mark with a SEQ that is not zero. -/
def Mach.interrupted (m : Mach) (d i : Nat) : Bool :=
  let r := m.peek (recAddr d i) 64
  !recMarked r && leAt r 56 4 != 0

/-- A ring rebuilt from its entries (13 R430). -/
def Mach.rebuildRing (m : Mach) (d : Nat) (g : Nat × Nat) : RingRec :=
  let seqs := (List.range g.2).map fun k => let r := m.peek (recAddr d (g.1 + k)) 64; if recMarked r then some (leAt r 56 4) else none
  let free := (List.range g.2).find? fun k => (nth seqs k none).isNone
  let newest := (List.range g.2).foldl (fun b k => match nth seqs b none, nth seqs k none with
    | some x, some y => if newer 32 y x then k else b
    | _, _ => b) 0
  { RingRec.reset with
    head := free.getD ((newest + 1) % g.2)
    written := (seqs.filter (·.isSome)).length }

/-- A drawer's generation, clears and rings from its META record, which is rebuilt where it fails its
check. A META record never written counts as all zero. -/
def Mach.loadMeta (m : Mach) (d : Nat) : Mach :=
  let a := recAddr 15 d
  let r := m.peek a 64
  if recMarked r && recGood a r && !m.damaged a 64 then
    m.onDrawer d fun x => { x with
      gen := (leAt r 4 4 + 4) % 2 ^ 32
      clears := leAt r 8 4
      clearWall := leAt r 12 8
      clearBoot := leAt r 20 4
      ring := ⟨leAt r 24 2, leAt r 28 4, leAt r 32 4⟩
      ring2 := ⟨leAt r 36 2, leAt r 40 4, leAt r 44 4⟩ }
  else if !recMarked r && leAt r 56 4 == 0 then m.onDrawer d fun x => { x with gen := 4 }
  else
    (m.onDrawer d fun x => { x with
      gen := 4
      clears := 0xFFFFFFFF
      ring := ((ringsOf d).head?.map (m.rebuildRing d)).getD RingRec.reset
      ring2 := (((ringsOf d).drop 1).head?.map (m.rebuildRing d)).getD RingRec.reset }).raise recorderUnit 0xD5 1

/-- The fixed records of a drawer. -/
def Mach.loadFixed (m : Mach) (d : Nat) : Mach :=
  m.each (List.range (fixedRecords d)) fun m i =>
    match m.readRecord (recAddr d i) with
    | some (p, _) => if d == 15 then m else m.onDrawer d fun x => x.load (fixedKind d i) p
    | none =>
      if m.interrupted d i then { m with rcd.lostAtStart := min 65535 (m.rcd.lostAtStart + 1) }.raise recorderUnit 0xD3 1 else m

/-- The newest sequence number in drawer 15, which every flush writes last. -/
def Mach.newestSeq (m : Mach) : Nat :=
  (List.range 16).foldl (fun b i => match m.readRecord (recAddr 15 i) with
    | some (_, q) => if newer 32 q b then q else b
    | none => b) 0

/-- One drawer at start-up. -/
def Mach.loadDrawer (m : Mach) (d : Nat) : Mach := (m.loadMeta d).loadFixed d

/-- The numbers of the drawers. -/
def drawerNumbers : List Nat := List.range 16

/-- RECORD_SEQ resumes from a sequence number (13 R430). -/
def Mach.resumeSeq (m : Mach) (n : Nat) : Mach := { m with rcd.seq := n }

/-- The recorder at start-up (13 R430). -/
def Mach.recorderStart (m : Mach) : Mach :=
  let m1 := m.each drawerNumbers Mach.loadDrawer
  m1.resumeSeq m1.newestSeq

end Sys2Proof.Machine
end

