-- ==== Sys2Proof/Machine/HostPort.lean ====
section
/-!
DEFINITION. The host port (chapter 14): transactions and their judgement, replies, the event queue,
the keep-alive, and the commands of the port itself.
-/
namespace Sys2Proof.Machine

open Sys2Proof

/-! Payload layouts (14 R451 check 7, R460). -/

/-- Entries of an ID, a length and a value fill a payload. -/
def entriesFill : Nat → List Nat → Bool
  | 0, l => l == []
  | n + 1, l => let v := leAt l 2 2; decide (4 + v ≤ l.length) && entriesFill n (l.drop (4 + v))

/-- Staged entries, each of a handle, an ID, a length and a value, fill a payload. -/
def stagedFill : Nat → List Nat → Bool
  | 0, l => l == []
  | n + 1, l => let v := leAt l 4 2; decide (6 + v ≤ l.length) && stagedFill n (l.drop (6 + v))

/-- A count from 1 to 64 and so many entries (14 R458). -/
def countedEntries (l : List Nat) : Bool :=
  match l with
  | k :: r => decide (1 ≤ k) && decide (k ≤ 64) && entriesFill k r
  | [] => false

/-- The payload of an opcode of fixed length. -/
def fixedLength (op : Nat) : Option Nat :=
  match op with
  | 0x00 | 0x01 | 0x02 | 0x24 | 0x61 | 0x62 | 0x71 | 0x81 | 0x83 | 0x84 | 0x94 | 0xA0 | 0xA1 | 0xA2 | 0xB1 => some 0
  | 0x03 | 0x23 | 0x25 | 0x30 | 0x31 | 0x32 | 0x33 | 0x34 | 0x43 | 0x72 | 0x73 | 0x91 | 0xA3 => some 1
  | 0x06 | 0x13 | 0x14 | 0x41 | 0x55 => some 2
  | 0x10 | 0x22 | 0x44 | 0x53 | 0x70 => some 3
  | 0x04 | 0x20 | 0x21 => some 4
  | 0x85 | 0x92 => some 5
  | 0x05 | 0x42 => some 16
  | 0x90 => some 32
  | 0x54 => some 513
  | _ => none

/-- An opcode of R460 whose payload varies. -/
def variableOpcode (op : Nat) : Bool :=
  [0x11, 0x12, 0x15, 0x40, 0x50, 0x51, 0x52, 0x60, 0x63, 0x80, 0x82, 0x86, 0x93, 0xB0].contains op

/-- OPCODE in R460. -/
def opcodeKnown (op : Nat) : Bool := (fixedLength op).isSome || variableOpcode op

/-- Payload length and counts are consistent with the layout (14 R451, R460). -/
def layoutOk (op : Nat) (p : List Nat) : Bool :=
  match fixedLength op with
  | some n => p.length == n
  | none =>
    let n := p.length
    let b (i : Nat) : Nat := nth p i 0
    match op with
    | 0x11 => decide (3 ≤ n) && decide (1 ≤ b 2) && decide (b 2 ≤ 64) && n == 3 + 2 * b 2
    | 0x12 => countedEntries (p.drop 2)
    | 0x15 => decide (3 ≤ n) && decide (b 2 ≤ 64) && n == 3 + 2 * b 2
    | 0x40 => countedEntries (p.drop 1)
    | 0x50 => countedEntries (p.drop 2)
    | 0x51 => if n < 4 then false else if b 1 == 0 then n == 11 else if b 1 ≤ 2 then n == 4 else n == 4 || n == 11
    | 0x52 => decide (4 ≤ n) && n == 4 + b 3
    | 0x60 | 0xB0 => countedEntries p
    | 0x63 => if n == 0 then false else if b 0 == 0 then n == 4 else if b 0 == 1 then n == 17 else n == 4 || n == 17
    | 0x80 | 0x86 => decide (2 ≤ n) && n == 2 + b 1
    | 0x82 => decide (2 ≤ n) && stagedFill (leAt p 0 2) (p.drop 2)
    | 0x93 => decide (5 ≤ n) && decide (n ≤ 4096)
    | _ => false

/-! Transactions (14 R443 to R452). -/

/-- What a transaction's bytes come to. -/
inductive Judged where
  | nothing
  | refused (op tag status : Nat)
  | packet (op tag : Nat) (payload : List Nat)
  deriving DecidableEq, Repr

/-- The CRC of a packet is good (14 R448, R450): at least its header and LENGTH are there. -/
def packetCrcOk (b : List Nat) : Bool :=
  let n := leAt b 4 2
  leAt b (6 + n) 4 == crc32c (b.take (6 + n))

/-- 14 R451, checks 1 to 7: a double-bit error in the packet as written counts as a CRC failure (01 R20). -/
def judge (ecc : Ecc) (b : List Nat) : Judged :=
  match b with
  | [] => .nothing
  | 0x00 :: _ => .nothing
  | 0xA5 :: _ =>
    let op := nth b 1 0xFF
    let tag := nth b 2 0
    let n := leAt b 4 2
    if b.length < 6 then .refused op tag stTRUNCATED
    else if 4096 < n then .refused op tag stBAD_LENGTH
    else if b.length < 10 + n then .refused op tag stTRUNCATED
    else if !packetCrcOk b || ecc == .double then .refused op tag stBAD_CRC
    else if nth b 3 0 != 0 then .refused op tag stBAD_PARAM
    else if !opcodeKnown op then .refused op tag stUNKNOWN_OPCODE
    else
      let p := (b.drop 6).take n
      if layoutOk op p then .packet op tag p else .refused op tag stBAD_LENGTH
  | _ => .refused 0xFF 0 stBAD_CRC

/-- The packet passed its CRC. -/
def crcPassed (ecc : Ecc) (b : List Nat) : Bool :=
  match judge ecc b with
  | .packet _ _ _ => true
  | .refused _ _ st => st == stBAD_PARAM || st == stUNKNOWN_OPCODE || (st == stBAD_LENGTH && decide (leAt b 4 2 ≤ 4096))
  | .nothing => false

/-- The keep-alive timer restarts (14 R470). -/
def Mach.keepRestart (m : Mach) : Mach :=
  let v := m.nat pHOST_KEEPALIVE
  { m with host.keepLeft := msF v, host.keepOn := v != 0 }

/-- A reply without its CRC (14 R449; 00 R6). -/
def replyBody (r : Reply) : List Nat :=
  [0x5A, r.opcode, r.tag, r.status] ++ le 2 r.payload.length ++ [r.rflags, r.evt] ++ r.payload

/-- The bytes of a reply as the port sends them (14 R449, R450): its CRC covers every byte before it. -/
def replyBytes (r : Reply) : List Nat := replyBody r ++ le 4 (crc32c (replyBody r))

/-- What the module sends on MISO while the host clocks so many bytes (14 R444, R445): the held reply, then
filler. -/
def misoBytes (held : Option Reply) (clocks : Nat) : List Nat :=
  match held with
  | some r => (replyBytes r).take clocks
  | none => [0x3C].take clocks

/-- The held reply after a transaction of so many clocks (14 R445): delivered, kept, or lost to a new
reply. -/
def Mach.heldAfter (m : Mach) (clocks : Nat) (newReply : Bool) : Mach :=
  match m.host.held with
  | none => if newReply then { m with host.prevLost := false } else m
  | some r =>
    if (replyBytes r).length ≤ clocks then
      { m with
        host.held := none
        host.prevLost := m.host.prevLost && !newReply
        host.resetGo := m.host.resetGo || (r.opcode == 0x03 && m.host.resetReq.isSome) }
    else if newReply then { m with host.held := none, host.prevLost := true, host.replyLost := sat32 m.host.replyLost }
    else m

/-- Count an answer of 0x10 or 0x14; more than 16 within 1 s raise 0xB0 (14 R472). -/
def Mach.linkError (m : Mach) (status : Nat) : Mach :=
  if status == stBAD_CRC || status == stTRUNCATED then
    let l := (m.host.badTimes.filter fun f => decide (m.since f < sF 1)) ++ [m.time.frame]
    let m1 := { m with host.badTimes := l }
    if 16 < l.length then m1.raise 0 0xB0 1 else m1
  else m

/-- A packet that fails its checks is answered in the next frame. -/
def Mach.refusePacket (m : Mach) (op tag status : Nat) : Mach :=
  { m with
    host.refused := some (op, tag, status)
    host.takenAt := m.time.frame
    host.hbsy := true }

/-- A packet whose mode or kind has no meaning: STOP above 2, RESET above 1 (14 R460). -/
def noSuchKind (op : Nat) (p : List Nat) : Bool :=
  let k := nth p 0 0
  (op == 0x23 && decide (2 < k)) || (op == 0x03 && decide (1 < k))

/-- The end of a transaction that the port was ready for. -/
def Mach.transaction (m : Mach) (b : List Nat) (clocks : Nat) (ecc : Ecc) : Mach :=
  let m0 := { m with host.miso := if m.host.held.isSome then 0x5A else 0x3C }
  let m1 := if crcPassed ecc b then (m0.keepRestart).endFault 0 0xB1 else m0
  match judge ecc b with
  | .nothing => m1.heldAfter clocks false
  | .packet op tag p =>
    if noSuchKind op p then (m1.heldAfter clocks true).refusePacket op tag stBAD_PARAM
    else
      { m1.heldAfter clocks true with
        host.taken := some ⟨op, tag, p⟩
        host.takenAt := m.time.frame
        host.hbsy := true }
  | .refused op tag st =>
    let m2 := m1.heldAfter clocks true
    let m3 := if st == stBAD_CRC then { m2 with host.badCrc := sat32 m2.host.badCrc }
      else if st == stTRUNCATED then { m2 with host.truncated := sat32 m2.host.truncated } else m2
    m3.refusePacket op tag st

/-- HOST_TRANSACTION: CS_N has risen (14 R443 to R452). -/
def execHostTransaction (mosi : Kept (List Nat)) (clocks : Nat) (s : State) : Res :=
  if clocks == 0 && mosi.val == [] then .next s
  else on s fun m =>
    if m.host.stalled then
      let h := m.host.stallHdr
      ({ m with host.stalled := false }.heldAfter clocks true).refusePacket h.1 h.2 stTRUNCATED
    else if m.host.hbsy then { m with host.miso := 0xC3, host.ignored := sat32 m.host.ignored }
    else (m.transaction mosi.val clocks mosi.ecc).eccSeen 13 mosi.ecc

/-- A packet has begun and is not complete. -/
def packetOpen (b : List Nat) : Bool :=
  match b with
  | 0xA5 :: _ => decide (b.length < 6) || (decide (leAt b 4 2 ≤ 4096) && decide (b.length < 10 + leAt b 4 2))
  | _ => false

/-- HOST_STALL: no SCK edge for 2 ms while a packet is incomplete (14 R452). -/
def execHostStall (mosi : List Nat) (idleUs : Nat) (s : State) : Res :=
  onWhen s (decide (2000 ≤ idleUs) && packetOpen mosi && !s.now.host.hbsy && !s.now.host.stalled) fun m =>
    { m with
      host.miso := if m.host.held.isSome then 0x5A else 0x3C
      host.stalls := sat32 m.host.stalls
      host.stalled := true
      host.stallHdr := (nth mosi 1 0xFF, nth mosi 2 0)
      host.hbsy := true }

/-- A packet that failed its checks is answered in the first serving frame after it (14 R453). -/
def Mach.serveRefused (m : Mach) : Mach :=
  match m.host.refused with
  | some (op, tag, st) =>
    if m.serves? && decide (m.host.takenAt < m.time.frame) then
      { (m.linkError st).reply op tag st [] with host.refused := none }
    else m
  | none => m

/-- REPLY_READY at offset 215 µs of the serving frame, or of the one after for a late window read
(14 R446, R450, R453): HBSY falls. -/
def execReplyReady (x : Kept Nat) (s : State) : Res :=
  match s.now.host.prep with
  | none => .next s
  | some r => onWhen s (decide (s.now.host.prepAt + b2n s.now.host.prepLate ≤ s.now.time.frame)) fun m =>
    let m := m.eccSeen 13 x.ecc
    let eccFails := x.val
    let r' : Reply := if eccFails < 2 then r else { r with status := stRETRY, payload := [], rflags := r.rflags ||| 8 }
    let n := if eccFails == 0 then min 1000 (m.host.okReplies + 1) else 0
    let m1 := { m with
      host.held := some r'
      host.prep := none
      host.hbsy := m.power.state == 3 || (m.power.save.isSome && m.power.saveKind != 2)
      host.okReplies := n }
    if 2 ≤ eccFails then m1.raise 0 0xB3 1 else m1.endIf 0 0xB3 (n == 1000)

/-! The event queue (14 R465 to R469). -/

/-- Enter one event into the queue. -/
def Mach.enqueue (m : Mach) (e : EvtRec) : Mach :=
  let seq := (m.host.evSeq + 1) % 65536
  if (m.host.queue.filter fun (x : EvtRec) => x.kind != 0xC).length < 255 then
    let x : EvtRec := { e with seq := seq }
    { m with host.queue := m.host.queue ++ [x], host.evSeq := seq, host.uart := m.host.uart ++ [x] }
  else
    let m1 := { m with host.dropped := sat32 m.host.dropped }
    if m.overflowHeld then
      { m1 with host.queue := m1.host.queue.map fun (x : EvtRec) => if x.kind == 0xC then { x with data := sat32 x.data } else x }
    else
      let x : EvtRec := ⟨seq, 0xC, 0, 0, 0, 1, m.ts % 2 ^ 32⟩
      { m1 with host.queue := m1.host.queue ++ [x], host.evSeq := seq, host.uart := m1.host.uart ++ [x] }.raise 0 0xB2 1

/-- Events posted in a frame enter the queue at the tick after it. -/
def Mach.takePosted (m : Mach) : Mach :=
  let l := m.host.posted
  { m with host.posted := [], host.uart := [] }.each l fun m e => m.enqueue e

/-- The 16 bytes of an entry (14 R466). -/
def evtBytes (e : EvtRec) : List Nat :=
  le 2 e.seq ++ [e.kind, e.detail] ++ le 2 e.unit ++ le 2 e.code ++ le 4 e.data ++ le 4 e.time

/-- EVT_READ (14 R468). -/
def execEvtRead (tag ack flags max : Nat) (s : State) : Res := serve s 0x04 tag fun m =>
  if max < 1 || 64 < max then refuse m stBAD_PARAM
  else
    let q := if bit flags 0 then m.host.queue.filter fun (e : EvtRec) => newer 16 e.seq ack else m.host.queue
    let out := q.take max
    ({ m with host.queue := q }, stOK, le 2 q.length ++ [out.length] ++ out.flatMap evtBytes)

/-! Once per frame. -/

/-- HATN is low while the queue holds an entry (14 R442, R465). -/
def Mach.hatn (m : Mach) : Bool := m.host.queue == []

/-- Timers and fault ends of the port, at the tick. `kept` says that HOST_KEEPALIVE has been written. -/
def Mach.hostFrame (m : Mach) (kept : Bool) : Mach :=
  let m1 := if kept then m.keepRestart else { m with host.keepLeft := m.host.keepLeft - 1 }
  let m2 := { m1 with host.badTimes := m1.host.badTimes.filter fun f => decide (m1.since f < sF 1) }
  ((m2.endIf 0 0xB0 (decide (m2.host.badTimes.length ≤ 16))).endIf 0 0xB2 (decide (m2.host.queue.length < 128))).serveRefused

/-- KEEPALIVE_LOST (14 R470). -/
def execKeepaliveLost (s : State) : Res :=
  onWhen s (s.now.host.keepOn && s.now.host.keepLeft == 0) fun m =>
    (({ m with host.keepOn := false }.raise 0 0xB1 (if m.nat pSCHED_MODE == 0 then 3 else 1)).post 0xD 1 0 0 (m.nat pHOST_KEEPALIVE)).endSession 2

/-! The port's own commands. -/

/-- NOP. -/
def execNop (tag : Nat) (s : State) : Res := serve s 0x00 tag ok

/-- Versions of the running images, in the order kernel, AP-1, AP-2, field controller. -/
def Mach.versions (m : Mach) : List Nat := (List.range 4).map fun t => if (m.runOf t).booted then hdrVersion (m.runOf t).hdr else 0

/-- IDENT (14 R460). -/
def execIdent (tag : Nat) (s : State) : Res := serve s 0x01 tag fun m =>
  let r := s.shown
  (m, stOK, ascii 8 (if Config.partX then "YN-6416X" else "YN-6416") ++ le 2 Config.hwRevision
    ++ (List.range 16).map (fun i => Config.serial i % 256) ++ le 4 Config.bootVersion ++ r.versions.flatMap (le 4)
    ++ le 2 r.pair.aps.a.compat ++ le 2 r.pair.aps.b.compat ++ le 4 r.sec.boots)

/-- STATUS (14 R460). -/
def execStatus (tag : Nat) (s : State) : Res := serve s 0x02 tag fun m =>
  let r := s.shown
  (m, stOK, le 4 (r.statusWord 0) ++ le 4 m.fc ++ le 8 m.ts ++ [r.start.step, r.power.state] ++ le 4 (r.statusWord 1)
    ++ [r.reactionClass] ++ le 2 r.evtQueued)

/-- RESET, kind PORT (14 R462). -/
def execResetPort (tag : Nat) (s : State) : Res := serve s 0x03 tag fun m =>
  ok { m with
    host.held := none
    host.packets := 0
    host.badCrc := 0
    host.truncated := 0
    host.stalls := 0
    host.ignored := 0
    host.replyLost := 0 }

/-- TIME_SET (14 R463; 02 R39): the offset is in force from the next tick, and the hour in progress
closes short (12 R398). -/
def execTimeSet (tag wall ref : Nat) (s : State) : Res := serve s 0x05 tag fun m =>
  ok { m.closeHour true m.time.wallValid with time.wallNext := some ((wall : Int) - (ref : Int)) }

/-- BUDGET_SET (02 R55, R57). -/
def execBudgetSet (tag policy mix : Nat) (s : State) : Res := serve s 0x06 tag fun m =>
  if 2 < policy || 100 < mix then refuse m stBAD_PARAM
  else ok { m with
    deferred := m.deferred ++ [⟨0, pBUDGET_POLICY, [(policy : Int)], false, (0x06, tag)⟩,
      ⟨0, pBUDGET_MIX_SPOOL, [(mix : Int)], false, (0x06, tag)⟩] }

end Sys2Proof.Machine
end

