-- ==== Sys2Proof/Machine/Power.lean ====
section
/-!
DEFINITION. Power entry, the state save, restarts and the sleep controller (chapter 15; 14 R442, R462;
17 R524; 18 R536).
-/
namespace Sys2Proof.Machine

open Sys2Proof

/-! Restarts (17 R524). -/

/-- Values held in the MRAM under 13 R435: the learned door attributes. -/
def keptCell (c : ParamCell) : Bool := decide (0x1000 ≤ c.handle) && decide (c.handle ≤ 0x10FF) && decide (0x0480 ≤ c.id) && decide (c.id < 0x04A0)

/-- A module restart: what the MRAM, the secure element and the image store hold stays, and nothing
else (17 R524); the benches it ends are logged (10 R332). Start-up has not begun. -/
def Mach.restart (m0 : Mach) : Mach :=
  let m := m0.benchesLost
  { Mach.reset with
    mram := m.mram
    mramBad := m.mramBad
    params := m.params.filter keptCell
    groups := m.readGroups
    free := m.free
    cab := { CabinetState.reset with
      copies := m.cab.copies
      creds := m.cab.creds
      locked := m.cab.locked
      head := m.cab.head
      overwrites := m.cab.overwrites }
    sec := { SecState.reset with
      rollback := m.sec.rollback
      boots := m.sec.boots
      bootFails := m.sec.bootFails
      selected := m.sec.selected
      mirrorReq := m.sec.mirrorReq
      mirrorKey := m.sec.mirrorKey
      store := m.sec.store }
    power := { PowerState.reset with holdupShort := m.power.holdupShort } }

/-- Start-up begins (17 R512): the boot count goes up before any boot ROM runs (16 R500), and a
rollback counter at 255 is recorded once per start (R511). -/
def Mach.begin (m : Mach) : Mach :=
  let m1 := { m with
    start.waiting := false
    power.on := true
    sec.boots := (m.sec.boots + 1) % 2 ^ 32 }
  if m1.sec.rollback == 255 then m1.raise 0 0xE7 1 else m1

/-- Milliseconds after the start of start-up by which a step must be complete (17 R512). -/
def stepDeadline (k : Nat) : Nat := nth [0, 20, 300, 400, 700, 1500] k 0

/-- µs that count towards the deadlines: since the start of start-up, less what a resumed start-up
gives back (17 R512, R514). -/
def Mach.elapsedUs (m : Mach) : Int := m.start.usBase + (m.ts : Int) - m.start.dlBase

/-- A fault blocks start-up in a step (17 R512). -/
def blocksStep (k : Nat) (f : FaultRec) : Bool :=
  match k with
  | 1 => f.code == 0x06 || f.code == 0x08
  | 2 => ((f.code == 0xE1 || f.code == 0xE5) && f.cls == 5) || f.code == 0xE3 || f.code == 0x0F
  | 3 => f.code == 0x91
  | 4 => f.code == 0xD9 || f.code == 0xDA || f.code == 0xE6 || f.code == 0x96
  | 5 => f.code == 0x24
  | _ => false

/-- Start-up stops at its step (17 R514), for a fault or, with code 0, for a missed deadline. -/
def Mach.blockStart (m : Mach) (code : Nat) : Mach :=
  { m with
    start.blockedAt := some m.start.step
    start.block := code
    start.step := 7 }.post 0xB 2 0 0 0

/-- A blocking fault stops start-up at the step in which it is raised (17 R514). -/
def Mach.startBlocks (m : Mach) : Mach :=
  match m.faults.find? (blocksStep m.start.step) with
  | some f => m.blockStart f.code
  | none => m

/-- The module is powered and its start-up has begun. -/
def Mach.powered (m : Mach) : Bool := m.power.on && !m.start.waiting && !m.power.resetHeld

/-- RESET_N held low for t_RST (14 R442): a restart that waits for its rise. -/
def execResetN (us : Nat) (s : State) : Res := onWhen s (decide (10 ≤ us)) fun m =>
  { m.restart with
    power.on := m.power.on
    power.resetHeld := true }

/-- RESET_N rises (17 R512). -/
def execResetNRelease (s : State) : Res := onWhen s s.now.power.resetHeld fun m =>
  let m1 := { m with power.resetHeld := false }
  if m1.power.on then m1.begin else m1

/-- VIN at or above 34.0 V for 10 ms, from off (15 R474). -/
def execVinGood (vin ms : Nat) (s : State) : Res :=
  onWhen s (decide (3400 ≤ vin) && decide (10 ≤ ms) && s.now.start.waiting) fun m =>
    if m.power.resetHeld then { m with power.on := true } else m.begin

/-! The state save (15 R477, R478). -/

/-- MRAM address of the power record (15 R478). -/
def powerAddr : Nat := 0x3C0440

/-- Payload of the power record (15 R478). -/
def Mach.powerRecord (m : Mach) (done : Bool) (us : Nat) : List Nat :=
  le 4 m.sec.boots ++ le 8 m.power.warnAt ++ le 4 (m.power.warnAt / 250 % 2 ^ 32) ++ le 2 m.power.saveMin
    ++ [b2n done + 2 * b2n (m.power.saveKind == 1), 0] ++ le 4 us

/-- Write the power record. -/
def Mach.writePower (m : Mach) (done : Bool) (us : Nat) : Mach :=
  m.writeRecord powerAddr (m.powerRecord done us) (m.seqAfter powerAddr)

/-- The second copy of a commit past its commit point is written; one before it is abandoned
(15 R477). -/
def Mach.saveCommit (m : Mach) : Mach :=
  match m.cab.commit with
  | some r =>
    if r.phase < 2 then { m with cab.commit := none }
    else m.writeCopy r.first.other true r.gen r.vals
  | none => m

/-- A state save begins (15 R477; 14 R462): its parts in their order, the recorder's final flush
among them unless the recorder is OFF (13 R437). Of the port, only the reply to RESET is still delivered. -/
def Mach.beginSave (m : Mach) (kind : Nat) : Mach :=
  let m1 := { m with
    power.save := some m.time.frame
    power.saveDone := false
    power.saveKind := kind
    power.warnAt := m.ts
    power.saveMin := m.power.vin
    power.waking := none
    host.hbsy := true
    host.prep := none
    host.taken := none }
  let w := (m1.writePower false 0).meterPowerFail
  let m2 := if w.recording then w.flush [] else w
  let m3 := ({ m2 with rcd.frozen := true }.writeSnapshots).saveCommit
  m3.saveLock m3.cab.fails m3.lockoutLeft

/-- The warning (15 R474, R477): VIN below 33.0 V. -/
def execPowerFailWarning (vin : Nat) (s : State) : Res :=
  onWhen s (decide (vin < 3300) && s.now.powered && !s.now.power.saveDone && (s.now.power.save.isNone || s.now.power.saveKind == 2)) fun m =>
    ({ m with power.vin := vin }.raise 0 0x01 5).beginSave 0

/-- While a save runs, the lowest VIN is kept and the snapshots are repeated every 16 frames
(15 R477, R478). -/
def Mach.saveFrame (m : Mach) (vin : Nat) : Mach :=
  match m.power.save with
  | some f =>
    let m1 := { m with power.saveMin := min m.power.saveMin vin }
    if m1.since f % 16 == 0 then m1.writeSnapshots else m1
  | none => m

/-- The converters turn off: everything but what a restart keeps is lost (15 R474, R475). -/
def Mach.turnOff (m : Mach) : Mach := m.restart

/-- The logic-side outputs take their reset state (15 R475): the door gates are off. -/
def Mach.outputsReset (m : Mach) : Mach :=
  { m with doors := m.doors.map fun _ d => d.gatesOff m.time.frame }

/-- The save is complete (15 R475, R478): the last snapshots, the lockout time, and the power record
with SAVE_DONE 1, which ends 0x03. Below 32.0 V the converters turn off, and after an overvoltage too;
otherwise the module waits with its outputs in their reset state. -/
def execStateSaveComplete (us : Nat) (s : State) : Res :=
  onWhen s (s.now.power.save.isSome && !s.now.power.saveDone) fun m =>
    let m1 := m.writeSnapshots.saveLock m.cab.fails m.lockoutLeft
    let m2 : Mach := { (m1.outputsReset.writePower true us).endFault 0 0x03 with
      power.saveDone := true
      power.saveDur := us
      power.saveVin := m.power.saveMin }
    if m2.power.saveKind == 1 then { m2 with power.on := false }
    else if m2.power.saveKind == 0 && decide (m2.power.vin < 3200) then m2.turnOff else m2

/-- CONVERTERS_OFF (15 R474, R475): below 24.0 V in every case, below 32.0 V unless a save is running. -/
def execConvertersOff (vin : Nat) (s : State) : Res :=
  onWhen s ((s.now.power.on || s.now.power.saveDone)
    && (decide (vin < 2400) || (decide (vin < 3200) && (s.now.power.save.isNone || s.now.power.saveDone)))) Mach.turnOff

/-- RESTART_AFTER_SAVE (15 R475; 14 R462): VIN from 34.0 V to 75.0 V for 10 ms, or for 1 s after 0x05;
after RESET, once its reply is delivered or 100 ms after its acceptance. -/
def execRestartAfterSave (vin ms : Nat) (s : State) : Res :=
  let k := s.now.power.saveKind
  let ok1 := decide (3400 ≤ vin) && decide (vin ≤ 7500) && decide ((if k == 1 then 1000 else 10) ≤ ms)
  onWhen s (s.now.power.saveDone && (if k == 2 then s.now.host.resetGo || decide (100 ≤ ms) else ok1)) fun m => m.restart.begin

/-- VIN_LOW (15 R474). -/
def execVinLow (vin ms : Nat) (s : State) : Res :=
  onWhen s (s.now.powered && decide (3300 ≤ vin) && decide (vin < 3600) && decide (100 ≤ ms)) fun m => m.raise 0 0x04 1

/-- VIN_HIGH (15 R474). -/
def execVinHigh (vin : Nat) (s : State) : Res :=
  onWhen s (s.now.powered && decide (7500 < vin)) fun m => m.raise 0 0x02 1

/-- 0x05: the state save as at the warning. One that the warning has begun, or that is complete, is the save that the
converters' turning off follows. -/
def Mach.overvolt (m : Mach) : Mach :=
  let m1 := m.raise 0 0x05 5
  if m.power.save.isNone || (m.power.saveKind == 2 && !m.power.saveDone) then m1.beginSave 1
  else { m1 with
    power.saveKind := 1
    power.on := m.power.on && !m.power.saveDone }

/-- VIN_OVERVOLT (15 R474): above 100.0 V, or above 75.0 V for 100 ms. -/
def execVinOvervolt (vin ms : Nat) (s : State) : Res :=
  onWhen s (s.now.powered && (decide (10000 < vin) || (decide (7500 < vin) && decide (100 ≤ ms))) && !s.now.inForce 0 0x05) Mach.overvolt

/-- VIN_FAULT_END (15 R490): 1 s back in range. -/
def execVinFaultEnd (vin ms : Nat) (s : State) : Res :=
  onWhen s (s.now.powered && decide (1000 ≤ ms)) fun m =>
    (m.endIf 0 0x04 (decide (3600 ≤ vin))).endIf 0 0x02 (decide (vin ≤ 7500))

/-- RAIL_FAULT (15 R490): two consecutive samples. -/
def execRailFault (bad : Nat) (s : State) : Res :=
  onWhen s (s.now.powered && decide (2 ≤ bad)) fun m => ({ m with power.railBad := true }.raise 0 0x06 5).startBlocks

/-- LOGIC_TEMP_THRESHOLD (15 R490): 105.0 °C, or 120.0 °C on YN-6416-X, ending 10 K lower. -/
def execLogicTempThreshold (temp : Int) (s : State) : Res :=
  let lim : Int := if Config.partX then 1200 else 1050
  onWhen s s.now.powered fun m =>
    if lim ≤ temp then m.raise 0 0x07 3 else m.endIf 0 0x07 (decide (temp < lim - 100))

/-- RESET, kind MODULE (14 R462): the state save first. -/
def execResetModule (tag : Nat) (s : State) : Res := serve s 0x03 tag fun m =>
  if !m.still || m.inRun then refuse m stWRONG_MODE
  else ok { m.beginSave 2 with host.resetReq := some m.time.frame }

/-! Supplies of the sensors (18 R536). -/

/-- SENSOR_SUPPLY_OFF: 10 ms in current limit. Without ENC_5V, output 0, the encoder fails 03 R68 or R69. -/
def execSensorSupplyOff (out ms : Nat) (s : State) : Res :=
  onWhen s (s.now.powered && decide (out < 3) && decide (10 ≤ ms) && s.now.supplied out) fun m =>
    let m1 := { m with power.sup := updAt m.power.sup out fun _ => (false, m.time.frame) }
    if out == 0 then m1.encoderLost else m1

/-- SENSOR_SUPPLY_ON: 1 s after it turned off. -/
def execSensorSupplyOn (out : Nat) (s : State) : Res :=
  let x := nth s.now.power.sup out (true, 0)
  onWhen s (s.now.powered && !x.1 && decide (sF 1 ≤ s.now.since x.2)) fun m =>
    { m with power.sup := updAt m.power.sup out fun _ => (true, m.time.frame) }

/-! The sleep controller (15 R482 to R487). -/

/-- Wake latency in µs (15 R482). -/
def latency (st : Nat) : Nat := if st == 1 then 10 else if st == 2 then 2000 else if st == 3 then 60000 else 0

/-- The conditions of IDLE (15 R483). -/
def Mach.idleAllowed (m : Mach) : Bool :=
  !m.inRun && m.stationary && m.brakeClosed && [Ab.a, .b].all fun s =>
    let st := (m.doors.get s).state
    !(st == 2 || st == 4 || st == 5 || st == 7 || st == 8)

/-- The conditions of DOZE and PARK that SLEEP_IDLE_DELAY follows (15 R483). -/
def Mach.idleConds (m : Mach) : Bool :=
  m.idleAllowed && m.allSidesClosed && !m.hasPlan && m.sched.target == noLanding && m.sched.stops == [] && m.sched.calls == []

/-- Every condition that DOZE and PARK share (15 R483). -/
def Mach.deepAllowed (m : Mach) : Bool :=
  m.idleConds
    && (match m.power.idleSince with
      | some f => decide (sF (m.nat pSLEEP_IDLE_DELAY) ≤ m.since f)
      | none => false)
    && !m.inspection && !m.evacuation && !m.learning && m.triad.proof.isNone && !m.triad.readmit
    && m.cabState != 1 && m.cabState != 3 && m.meter.meas.isNone && !m.codeInForce 0x0E && !m.reacting 3

/-- A firmware transfer is open or an installation runs: nothing deeper than IDLE (16 R509). -/
def Mach.fwOpen (m : Mach) : Bool := m.sec.fw.isSome

/-- A state is allowed (15 R483, R490; 16 R509). Sleep begins only after READY. -/
def Mach.stateAllowed (m : Mach) (st : Nat) : Bool :=
  if st == 0 then true
  else if !m.start.ready || m.reacting 3 then false
  else if st == 1 then m.idleAllowed
  else m.deepAllowed && !m.fwOpen && (st == 3 || m.pair.holder == some m.preferred)

/-- The earlier of two times in µs, none being never. -/
def soonest : Option Nat → Option Nat → Option Nat
  | some a, some b => some (min a b)
  | some a, none => some a
  | none, b => b

/-- Time in µs until the next cell that SCHED_LOAD has claimed on a port. -/
def Mach.nextCell (m : Mach) (p : Ab) : Option Nat :=
  let x := m.prt p
  if x.sleep || !x.takesPart then none
  else
    let phase := if m.master p then m.ts % 16000
      else match x.refLast with
        | some r => (1000 * x.cycle + (m.ts - r / 100)) % 16000
        | none => 0
    x.matrix.foldl (fun o (c : Nat × Nat) =>
      let start := 125 * c.1 / 2
      soonest o (some ((start % 16000 + 16000 - phase) % 16000))) none

/-- Words of a scrub pass. -/
def scrubWords : Nat := mramSize / 8

/-- Time in µs until the latest start of what is left of the scrub pass. -/
def Mach.scrubStart (m : Mach) : Nat :=
  250 * m.rcd.passFrom + m.natAt 0x0400 pSCRUB_PERIOD * 3600000000 - Config.scrubPassUs * (scrubWords - m.rcd.scrubPos) / scrubWords - m.ts

/-- T_next (15 R484): time in µs until the earliest known event, none while there is none. -/
def Mach.nextKnown (m : Mach) : Option Nat :=
  let recheck := m.nat pDOOR_RECHECK_PERIOD
  let period := m.met pENERGY_SAVE_PERIOD * 1000000
  let l := [ m.nextCell .a, m.nextCell .b, some m.scrubStart,
    if recheck == 0 then none else some (250 * m.power.recheckAt + 1000000 * recheck - m.ts),
    if m.nat pSCHED_MODE == 2 then some (250 * m.sched.hbLast + 250 * m.nat pGROUP_HB_TIMEOUT - m.ts) else none,
    if period == 0 then none else some (period - m.ts % period),
    if m.nat pPROOF_AUTO == 1 then some (1000000 * m.proofDue) else none ]
  l.foldl soonest none

/-- A state's wake latency with its guard is shorter than T_next (15 R484). -/
def Mach.fits (m : Mach) (st : Nat) (t : Option Nat) : Bool :=
  match t with
  | none => true
  | some us => decide (latency st * (100 + m.nat pSLEEP_GUARD) < 100 * us)

/-- The deepest state of 15 R484. -/
def Mach.chooseState (m : Mach) : Nat :=
  let t := m.nextKnown
  let can (st : Nat) : Bool := decide (st ≤ m.nat pSLEEP_MAX_STATE) && m.stateAllowed st && m.fits st t
  if can 3 then 3 else if can 2 then 2 else if can 1 then 1 else 0

/-- The power state changes (15 R485): a gate in progress spans it (02 R51), and a STATE event is
posted. -/
def Mach.setPower (m : Mach) (st : Nat) : Mach :=
  let span := if st == 3 then 16 else 4
  { m with
    power.state := st
    power.stateAt := m.time.frame
    power.slowFrom := if 2 ≤ st then some ((m.time.frame + span - 1) / span * span) else none
    power.fastFrom := none
    time.gateSpans := true
    time.aonGateSpans := true }.post 0xB 3 0 st 0

/-- A processor is powered off (09 R283); one in FAULT stays there until VIN is lost. -/
def Mach.apOff (m : Mach) (a : Ab) : Mach :=
  m.onAp a fun x => if x.role == 5 then x else { x with role := 0, cleanRun := 0, gotSnapshot := false }

/-- It boots again (15 R487). -/
def Mach.apBoots (m : Mach) (a : Ab) : Mach :=
  if (m.ap a).role != 0 then m
  else
    let m1 := m.onAp a fun x => { x with role := 1, booted := false, resetUntil := none, cleanRun := 0, gotSnapshot := false }
    if (m.ap a).everStandby then m1.raise pairUnit 0x20 2 else m1

/-- A deeper state is entered at a tick (15 R482, R487; 11 R359, R360; 14 R447). -/
def Mach.goDown (m : Mach) (st : Nat) : Mach :=
  let m1 := m.setPower st
  if st == 2 then m1.apOff m.preferred.other
  else if st == 3 then
    let m2 := (m1.apOff .a).apOff .b
    let m3 := { m2 with
      pair.holder := none
      pair.choice := none
      pair.armed := none
      pair.passTo := none
      pair.snapFor := none
      pair.retained := true
      host.hbsy := true }
    m3.each [Ab.a, .b] fun m p => if m.sleepRefused p || !(m.prt p).requests then m else m.portSleep p (m.bus.onBus.get p)
  else m1

/-- The processor that resumes after PARK: PAIR_PREFERRED, or the other one where that is in FAULT
(15 R487). -/
def Mach.resumes (m : Mach) : Ab := if (m.ap m.preferred).role == 5 then m.preferred.other else m.preferred

/-- RUN begins again (15 R485, R487; 11 R361; 14 R447). -/
def Mach.goRun (m : Mach) : Mach :=
  let was := m.power.state
  let m1 := { m.setPower 0 with power.waking := none }
  if was == 2 then m1.apBoots m1.preferred.other
  else if was == 3 then
    let a := m1.resumes
    let m2 := if (m1.ap a).role == 5 then m1.entersFault pairUnit
      else { m1.onAp a fun x => { x with role := 4 } with
        pair.holder := some a
        pair.choice := some a
        pair.dualUntil := some (m1.time.frame + 64)
        pair.noHolder := 0
        pair.missRun := 0
        pair.lastDelivered := m1.time.frame
        pair.copyFrame := m1.time.frame
        pair.retained := false }
    let m3 := { m2.apBoots a.other with
      sched.hbLast := m2.time.frame
      host.hbsy := m2.host.taken.isSome || m2.host.prep.isSome || m2.host.refused.isSome }
    m3.each [Ab.a, .b] Mach.portWake
  else m1

/-- The sleep controller at a tick: the end of a wake, else the choice made at the end of the frame
before (15 R484, R485). DOZE and PARK are left only by a wake. -/
def Mach.sleepTick (m : Mach) : Mach :=
  let conds := m.idleConds
  let t := m.nextKnown
  let m1 := { m with
    power.idleSince := if conds then (match m.power.idleSince with
      | some f => some f
      | none => some m.time.frame) else none
    power.nextEvt := match t with
      | some us => min (us / 1000) 0xFFFFFFFE
      | none => 0xFFFFFFFF }
  match m1.power.waking with
  | some f => if f ≤ m1.time.frame then m1.goRun else m1
  | none =>
    if m1.power.save.isSome then m1
    else
      let st := m1.power.state
      let c := m1.chooseState
      if 2 ≤ st then (if st < c then m1.goDown c else m1)
      else if c == st then m1
      else if c == 0 then m1.goRun else m1.goDown c

/-- A wake (15 R482, R485, R486): RUN begins after the wake latency. -/
def Mach.wakeUp (m : Mach) (src : Nat) : Mach :=
  let frames := if m.power.state == 3 then 240 else if m.power.state == 2 then 8 else 1
  let span := m.safetySpan
  { m with
    power.wakeSrc := src
    power.waking := some (m.time.frame + frames)
    power.fastFrom := some ((m.time.frame / span + 1) * span) }

/-- The module is asleep, with no wake under way and no save. -/
def Mach.canWake (m : Mach) : Bool := m.powered && m.power.state != 0 && m.power.waking.isNone && m.power.save.isNone

/-- SCHEDULED_WAKE (15 R485). -/
def execScheduledWake (s : State) : Res :=
  onWhen s (s.now.canWake && !s.now.fits s.now.power.state s.now.nextKnown) fun m => m.wakeUp 1

/-- The code of a wake source (15 R485). -/
def wakeCode : WakeSource → Nat
  | .movement _ _ => 2
  | .hostSelect => 3
  | .bus _ => 4
  | .input _ => 5
  | .block _ => 6
  | .fault _ _ => 7

/-- A source wakes the module (15 R485): a line period of movement or 0.3 m/s² from ACC_G_CAL in eight
consecutive samples (the encoder alone with MOUNT CABINET, 18 R545), a port that no longer sleeps, a block that is not ARMED, a fault from F1 up. -/
def Mach.wakesModule (m : Mach) : WakeSource → Bool
  | .movement lines acc =>
    decide (1 ≤ lines) || (!m.mountCabinet && decide (8 ≤ acc.length) && (acc.take 8).all fun x => decide (300000 < mag (x - m.est.gCal)))
  | .hostSelect => true
  | .bus p => !(m.prt p).sleep
  | .input ch => decide (ch < 64) && inputMode (m.fMode ch)
  | .block h => decide (0x0700 ≤ h) && decide (h ≤ 0x07FF) && m.exists h && (m.blockReport h).1 != 1
  | .fault u c => m.faults.any fun f => f.unit == u && f.code == c && decide (1 ≤ f.cls)

/-- WAKE on a source of 15 R485. -/
def execWake (src : WakeSource) (s : State) : Res :=
  onWhen s (s.now.canWake && s.now.wakesModule src) fun m => m.wakeUp (wakeCode src)

/-! Commands and values. -/

/-- SLEEP_POLICY (15 R489). -/
def execSleepPolicy (tag : Nat) (entries : List SetEntry) (s : State) : Res := serve s 0xB0 tag fun m =>
  m.setEntries (0xB0, tag) 0 entries fun _ _ e => if pSLEEP_MAX_STATE ≤ e.id && e.id ≤ pDOOR_RECHECK_PERIOD then 0 else stBAD_PARAM

/-- The read-only parameters of the power entry and the sleep controller (15 R489). -/
def Mach.powerRo (m : Mach) (id : Nat) : Option Int :=
  let p := m.power
  match id with
  | 0x0B10 => some p.state
  | 0x0B11 => some p.vin
  | 0x0B12 => some p.vinMin
  | 0x0B13 => some p.vinMax
  | 0x0B14 => some p.power
  | 0x0B15 => some p.temp
  | 0x0B16 => some p.nextEvt
  | 0x0B17 => some p.wakeSrc
  | 0x0B18 => some p.saveDur
  | 0x0B19 => some p.saveVin
  | 0x0B1A => some p.holdupShort
  | 0x0B1B | 0x0B1C | 0x0B1D | 0x0B1E => some (min (nth p.times (id - 0x0B1B) 0 / 4000) (2 ^ 32 - 1) : Nat)
  | _ => none

/-- POWER_READ (15 R489): IDs 0x0B10 to 0x0B1E. -/
def execPowerRead (tag : Nat) (s : State) : Res := serve s 0xB1 tag fun m =>
  (m, stOK, (List.range 15).flatMap fun k =>
    match rowFor 0 (0x0B10 + k) with
    | some r => encodeVal r [(s.shown.powerRo (0x0B10 + k)).getD 0]
    | none => [])

/-- What the power entry samples in a frame (15 R473, R489), and the time spent in each state. -/
def Mach.powerFrame (m : Mach) (vin pw : Nat) (temp : Int) : Mach :=
  let p := m.power
  { m with
    power.vin := vin
    power.vinMin := if p.vinSeen then min p.vinMin vin else vin
    power.vinMax := max p.vinMax vin
    power.vinSeen := true
    power.power := pw
    power.temp := temp
    power.times := updAt p.times p.state (· + 1) }.saveFrame vin

end Sys2Proof.Machine
end

