-- ==== Sys2Proof/Machine/Security.lean ====
section
/-!
DEFINITION. Secure boot, attestation and firmware update (chapter 16).
-/
namespace Sys2Proof.Machine

open Sys2Proof

/-! The boot chain (16 R496 to R501). -/

/-- BOOT_FAIL_COUNT goes up once in a start that raises one of 0xE1 to 0xE5 (16 R500). -/
def Mach.bootFail (m : Mach) : Mach :=
  if m.sec.failThis then m else { m with sec.failThis := true, sec.bootFails := sat32 m.sec.bootFails }

/-- Raise one of those faults. -/
def Mach.bootFault (m : Mach) (unit code cls : Nat) : Mach := (m.raise unit code cls).bootFail

/-- A target runs the image of a slot; the slot that is not selected raises 0xE4 (16 R497). -/
def Mach.runSlot (m : Mach) (t slot : Nat) : Mach :=
  let hdr := slotHeader t ((m.slots t).get (abOf slot))
  let r : RunImage := ⟨true, slot, hdr⟩
  let m1 := { m with sec.run := updAt m.sec.run t fun _ => r }
  if slot == m.selected t then m1 else m1.bootFault 0 0xE4 1

/-- The digest that stands for an image other than the one stored; each core that reads one reads its
own. -/
def otherDigest (c : CoreId) : List Nat := List.replicate 64 (256 + c.idx)

/-- The digest a core posts (16 R498). -/
def Mach.postedDigest (m : Mach) (c : CoreId) (ev : CoreBoot) : Option (List Nat) :=
  match ev with
  | .asStored => (m.bootSlot 0).map fun s => imageDigest (slotHeader 0 ((m.slots 0).get (abOf s)))
  | .otherImage => some (otherDigest c)
  | .nothing => none

/-- The digest that two or more cores posted. -/
def majority (d : Three (Option (List Nat))) : Option (List Nat) :=
  let l := d.toList.filterMap id
  l.find? fun x => decide (2 ≤ (l.filter fun y => y == x).length)

/-- A core that did not boot, or whose digest differs from the others', is excluded from the first vote
(16 R497, R498). -/
def Mach.bootExclude (m : Mach) (x : List Nat) (c : CoreId) : Mach :=
  match m.sec.coreDigest.get c with
  | none => (m.bootFault triadUnit 0xE1 m.triadClass).exclude c 0xE1
  | some y => if y == x then m else (m.bootFault 0 0xE5 m.triadClass).exclude c 0xE5

/-- The boot of the three cores and their exchange of digests (16 R496 to R498). -/
def Mach.bootKernel (m : Mach) (ev : Three CoreBoot) : Mach :=
  let d := ev.map fun c e => m.postedDigest c e
  let m1 := { m with
    sec.coreDigest := d
    triad.mails := d.map fun _ (o : Option (List Nat)) => o.isSome }
  match majority d with
  | some x =>
    let m2 := match m.bootSlot 0 with
      | some s => m1.runSlot 0 s
      | none => m1
    m2.each coreIds fun m c => m.bootExclude x c
  | none =>
    if m1.triad.mails.count < 2 then m1.bootFault triadUnit 0xE1 5
    else (if m1.triad.mails.count == 2 then m1.bootFault triadUnit 0xE1 m1.triadClass else m1).bootFault 0 0xE5 5

/-- A transfer is over without an installation, with the state that is shown (16 R509). -/
def Mach.fwEnd (m : Mach) (st : Nat) : Mach := { m with sec.fw := none, sec.fwState := st }

/-- The rollback counter advances to the lowest running level (16 R501). -/
def Mach.rollbackAdvance (m : Mach) : Mach :=
  if !(List.range 4).all (fun t => (m.runOf t).booted) || m.triad.mails.count != 3 then m
  else
    let lowest := minOf ((List.range 4).map fun t => hdrLevel (m.runOf t).hdr)
    if lowest ≤ m.sec.rollback then m
    else
      let m1 := { m with sec.rollback := lowest }
      if lowest == 255 then m1.raise 0 0xE7 1 else m1

/-- The installation of an application image ends once its boot ROM has verified it (16 R508). -/
def Mach.apInstalled (m : Mach) (t : Nat) : Mach :=
  match m.sec.fw with
  | some w =>
    if w.phase == 3 && w.target == t then
      (((m.fwEnd 0).endFault 0 0xE9).rollbackAdvance).completed 0x94 w.tag stOK 0 0
    else m
  | none => m

/-- An application processor's boot ROM has done its work (16 R496, R497; 09 R283). -/
def Mach.bootAp (m : Mach) (a : Ab) : Mach :=
  let t := 1 + a.idx
  match m.bootSlot t with
  | some s =>
    let m1 := m.runSlot t s
    let lvl := hdrCompat (nth m1.sec.run t RunImage.reset).hdr
    let role := if m.pair.holder.isSome then 2 else 1
    (m1.onAp a fun x => { x with booted := true, compat := lvl, role := role }).apInstalled t
  | none => (m.onAp a fun x => { x with role := 5 }).bootFault pairUnit 0xE2 2

/-- The field controller's boot ROM has done its work (16 R496, R497). -/
def Mach.bootField (m : Mach) : Mach :=
  match m.bootSlot 3 with
  | some s => { m.runSlot 3 s with field.booted := true }
  | none => m.bootFault 0 0xE3 5

/-- A target is out of reset and has not finished its boot. -/
def Mach.booting (m : Mach) (t : Nat) : Bool :=
  m.powered && m.time.running
    && (if t == 0 then m.triad.mails.count == 0 && !m.inForce triadUnit 0xE1
      else if t == 1 || t == 2 then
        let x := m.ap (abOf (t - 1))
        x.role == 1 && !x.booted && x.resetUntil.isNone
      else t == 3 && !m.field.booted && !m.inForce 0 0xE3)

/-- BOOT_VERIFIED of a target (16 R496 to R498, R508). -/
def execBootVerified (target : Nat) (cores : Three CoreBoot) (s : State) : Res :=
  onWhen s (s.now.booting target) fun m =>
    if target == 0 then (m.bootKernel cores).startBlocks
    else if target == 3 then m.bootField.startBlocks
    else m.bootAp (abOf (target - 1))

/-! Attestation (16 R502 to R504). -/

/-- The digest a target shows: zero while it has not booted (16 R504, R510). -/
def Mach.shownDigest (m : Mach) (t : Nat) : List Nat :=
  if (m.runOf t).booted then imageDigest (m.runOf t).hdr else List.replicate 64 0

/-- A target runs from the slot that is not selected (16 R504, R510). -/
def Mach.otherSlot (m : Mach) (t : Nat) : Bool := (m.runOf t).booted && (m.runOf t).slot != m.selected t

/-- The report without its signature (16 R504): `r` holds what reads are served from. -/
def Mach.attestBody (m r : Mach) (nonce : List Nat) : List Nat :=
  le 4 1 ++ le 2 1008 ++ [0, 0] ++ (List.range 16).map (fun i => Config.serial i % 256) ++ nonce ++ le 8 m.ts ++ le 4 m.fc
    ++ le 4 r.sec.boots ++ le 4 r.sec.bootFails
    ++ [r.sec.rollback, b2n (r.flag pFW_MAKER_REQUIRED) + 2 * b2n ((List.range 4).any r.otherSlot), 0, 0]
    ++ le 4 Config.bootVersion ++ r.versions.flatMap (le 4) ++ le 4 r.cab.gen ++ le 4 r.cab.head ++ [0, 0, 0, 0]
    ++ (List.range 4).flatMap r.shownDigest ++ cabDigestOf r.params
    ++ (if r.cab.head == 0 then List.replicate 64 0 else sha512 (r.peek (logAddr r.cab.head) 256))

/-- ATTEST (16 R503). -/
def execAttest (tag : Nat) (nonce : List Nat) (s : State) : Res := serve s 0x90 tag fun m =>
  let start : Mach × Nat × List Nat := pending { m with
    sec.report := none
    sec.attest := some ⟨nonce, m.attestBody s.shown nonce, tag, m.time.frame⟩ }
  match m.sec.report with
  | some (n, b) => if n == nonce then (m, stOK, b) else start
  | none => if m.sec.attest.isSome then refuse m stBUSY else start

/-- The signature of a report: 512 bytes. -/
def signatureOf (body : List Nat) : List Nat := ((Config.identitySign body).map (· % 256) ++ List.replicate 512 0).take 512

/-- ATTEST_COMPLETE (16 R503): the report is signed, within 500 ms. -/
def execAttestComplete (s : State) : Res :=
  match s.now.sec.attest with
  | some r => on s fun m =>
    { m with
      sec.attest := none
      sec.report := some (r.nonce, r.body ++ signatureOf r.body)
      sec.attests := sat32 m.sec.attests }.completed 0x90 r.tag stOK 0 0
  | none => .next s

/-- CERT_GET (16 R502). -/
def execCertGet (tag index : Nat) (s : State) : Res := serve s 0x91 tag fun m =>
  if 2 < index then refuse m stBAD_PARAM
  else (m, stOK, (List.range (min 4096 (Config.certLength index))).map fun i => Config.certByte index i % 256)

/-! Firmware update (16 R505 to R509). -/

/-- The target of a kind: for an application image the processor that does not hold the tether. -/
def Mach.fwTarget (m : Mach) (kind : Nat) : Nat :=
  if kind == 0 then 0 else if kind == 2 then 3 else 1 + (m.apOf.other).idx

/-- Write an image slot. -/
def Mach.setSlot (m : Mach) (t slot : Nat) (r : ImageRec) : Mach :=
  { m with sec.store := updAt m.sec.store t fun (x : Two ImageRec) => x.set (abOf slot) r }

/-- A transfer that a new FW_BEGIN ends while its image is verified is completed without success. -/
def Mach.fwDrop (m : Mach) : Mach :=
  match m.sec.fw with
  | some w => if w.phase == 2 then (m.fwEnd 0).completed 0x94 w.tag stWRONG_MODE 0 0 else m.fwEnd 0
  | none => m

/-- An installation is running (16 R508). -/
def Mach.installing (m : Mach) : Bool :=
  match m.sec.fw with
  | some w => w.phase == 3
  | none => false

/-- FW_BEGIN (16 R505). -/
def execFwBegin (tag kind len : Nat) (s : State) : Res := serve s 0x92 tag fun m =>
  let t := m.fwTarget kind
  if !m.session then refuse m stDENIED
  else if m.installing then refuse m stBUSY
  else if 2 < kind || len < 1281 || 1280 + bodyMax kind < len then refuse m stBAD_PARAM
  else if kind == 1 && (m.ap (abOf (t - 1))).role == 5 then refuse m stWRONG_MODE
  else
    let m1 := m.fwDrop
    ok { m1.setSlot t (1 - m.selected t) ⟨false, [], false⟩ with
      sec.fw := some { FwRun.reset with kind := kind, target := t, len := len, last := m.time.frame }
      sec.fwState := 1
      sec.fwKind := kind
      sec.fwCount := 0 }

/-- FW_CHUNK (16 R506). -/
def execFwChunk (tag offset : Nat) (data : List Nat) (s : State) : Res := serve s 0x93 tag fun m =>
  match m.sec.fw with
  | none => refuse m stWRONG_MODE
  | some w =>
    let n := w.data.length
    if w.phase != 1 then refuse m stWRONG_MODE
    else if w.writing then refuse m stBUSY
    else if offset == n && n + data.length ≤ w.len then
      ok { m with
        sec.fw := some { w with data := w.data ++ data, writing := true, last := m.time.frame }
        sec.fwCount := n + data.length }
    else if offset < n && (w.data.drop offset).take data.length == data then ok m
    else refuse m stBAD_PARAM

/-- FW_CHUNK_WRITTEN (16 R506): the image store has taken the chunk, within 5 ms. -/
def execFwChunkWritten (s : State) : Res :=
  match s.now.sec.fw with
  | some w => onWhen s w.writing fun m => { m with sec.fw := some { w with writing := false } }
  | none => .next s

/-- The conditions of 09 R297. -/
def Mach.fwQuiet (m : Mach) : Bool := !m.sched.inService && m.still && !m.inRun

/-- COMPAT of the tether holder. -/
def Mach.holderCompat (m : Mach) : Nat := (m.ap m.apOf).compat

/-- In service a processor is reloaded while it is STANDBY or SYNCING (09 R295; DEDUCED, notes/assumptions/42.md). -/
def Mach.reloadable (m : Mach) (t : Nat) : Bool := (m.ap (abOf (t - 1))).role == 2 || (m.ap (abOf (t - 1))).role == 3

/-- FW_COMMIT (16 R507; 09 R295). -/
def execFwCommit (tag : Nat) (s : State) : Res := serve s 0x94 tag fun m =>
  if !m.session then refuse m stDENIED
  else match m.sec.fw with
    | none => refuse m stBAD_PARAM
    | some w =>
      if w.phase != 1 || w.data.length != w.len then refuse m stBAD_PARAM
      else if w.kind != 1 && !m.fwQuiet then refuse m stWRONG_MODE
      else if w.kind == 1 && (hdrCompat w.data != m.holderCompat || !m.reloadable w.target) && !m.fwQuiet then refuse m stWRONG_MODE
      else pending { m with sec.fw := some { w with phase := 2, tag := tag }, sec.fwState := 2 }

/-- The verified image is selected (16 R508). -/
def Mach.selectImage (m : Mach) (w : FwRun) : Mach :=
  let slot := 1 - m.selected w.target
  { m.setSlot w.target slot ⟨true, w.data, false⟩ with sec.selected := updAt m.sec.selected w.target fun _ => slot }

/-- The target is held in reset for 1 ms, OFF (09 R283); this does not count towards 09 R292. -/
def Mach.apReload (m : Mach) (a : Ab) : Mach :=
  m.onAp a fun x => { x with role := 0, resetUntil := some (m.time.frame + 4), booted := false, gotSnapshot := false, cleanRun := 0 }

/-- The verification of an image has ended (16 R507, R508). -/
def Mach.fwVerified (m : Mach) (w : FwRun) : Mach :=
  let st := m.imageStatus w.target w.data
  if st != 0 then (((m.fwEnd 4).raise 0 0xE9 1)).completed 0x94 w.tag st 0 0
  else if w.kind == 1 then
    let a := abOf (w.target - 1)
    if m.pair.holder == some a then (m.fwEnd 0).completed 0x94 w.tag stBUSY 0 0
    else if !m.reloadable w.target && !m.fwQuiet then (m.fwEnd 0).completed 0x94 w.tag stWRONG_MODE 0 0
    else { (m.selectImage w).apReload a with sec.fw := some { w with phase := 3 }, sec.fwState := 3 }
  else
    let m1 := (((m.selectImage w).fwEnd 3).endFault 0 0xE9).completed 0x94 w.tag stOK 0 0
    m1.beginSave 2

/-- FW_VERIFIED. -/
def execFwVerified (s : State) : Res :=
  match s.now.sec.fw with
  | some w => onWhen s (w.phase == 2 && !w.writing) fun m => m.fwVerified w
  | none => .next s

/-- FW_TRANSFER_TIMEOUT: 30 min without an accepted FW_CHUNK (16 R509). -/
def execFwTransferTimeout (s : State) : Res :=
  match s.now.sec.fw with
  | some w => onWhen s (w.phase == 1 && decide (sF 1800 ≤ s.now.since w.last)) fun m => m.fwEnd 0
  | none => .next s

/-- The read-only parameters of security and identity (16 R510). -/
def Mach.secRo (m : Mach) (id : Nat) : Option (List Int) :=
  let up (t : Nat) : Bool := (m.runOf t).booted
  let one (x : Nat) : Option (List Int) := some [(x : Int)]
  match id with
  | 0x0C02 => one m.sec.rollback
  | 0x0C03 => one m.sec.boots
  | 0x0C04 => one m.sec.bootFails
  | 0x0C05 => one m.sec.fwState
  | 0x0C06 => one m.sec.fwKind
  | 0x0C07 => one m.sec.fwCount
  | 0x0C10 | 0x0C11 | 0x0C12 | 0x0C13 => one (nth m.versions (id - 0x0C10) 0)
  | 0x0C14 | 0x0C15 | 0x0C16 | 0x0C17 => let t := id - 0x0C14; one (if up t then hdrLevel (m.runOf t).hdr else 0)
  | 0x0C18 | 0x0C19 | 0x0C1A | 0x0C1B => let t := id - 0x0C18; one (m.selected t + 2 * b2n (m.otherSlot t))
  | 0x0C20 | 0x0C21 | 0x0C22 | 0x0C23 => some ((m.shownDigest (id - 0x0C20)).map fun x => (x : Int))
  | 0x0C30 => one m.sec.attests
  | _ => none

end Sys2Proof.Machine
end

