-- ==== Sys2Proof/Machine/Startup.lean ====
section
/-!
DEFINITION. Start-up (chapter 17): its five steps, what step 4 restores, blocking and resuming, the
grant of the tether, and the latch records.
-/
namespace Sys2Proof.Machine

open Sys2Proof

/-! The cabinet at start-up (08 R259, R268, R269; 16 R499). -/

/-- The copy that start-up goes by (08 R268). -/
def Mach.startCopy (m : Mach) : Option CabCopy :=
  let a := m.cab.copies.a
  let b := m.cab.copies.b
  if m.usable .a && m.usable .b && a.gen == b.gen && a.vals != b.vals then none else m.newestCopy

/-- The other copy needs a repair (08 R268). -/
def Mach.copyRepair (m : Mach) : Option Ab :=
  let a := m.cab.copies.a
  let b := m.cab.copies.b
  if m.usable .a && m.usable .b then (if a.gen == b.gen then none else if a.gen < b.gen then some .a else some .b)
  else if m.usable .a then some .b else some .a

/-- GEN and STATUS of a log entry. -/
def Mach.logGenStatus (m : Mach) (seq : Nat) : Nat × Nat :=
  let b := m.peek (logAddr seq + 24) 7
  (leAt b 0 4, nth b 6 0)

/-- Entries of the log that are held. -/
def Mach.logHeld (m : Mach) : List Nat := (List.range (m.cab.head + 1 - m.logOldest)).map (m.logOldest + ·)

/-- Entries of a commit that did not reach its commit point become ABORTED (08 R268). -/
def Mach.abortPending (m : Mach) (gen : Nat) : Mach :=
  m.each m.logHeld fun m seq =>
    let x := m.logGenStatus seq
    if x.2 == 2 && decide (gen < x.1) then m.logStatus seq 1 else m

/-- Repair the other copy (08 R269). -/
def Mach.repairCopy (m : Mach) (c : CabCopy) : Mach :=
  match m.copyRepair with
  | some x => (((m.writeCopy x true c.gen c.vals).logEvent 3 0xFF 0).raise 0 0xD8 0).endFault 0 0xD8
  | none => m

/-- The copies are read and cross-checked (08 R268), and the cores hold the values of the one used. -/
def Mach.readCopies (m : Mach) : Mach :=
  match m.startCopy with
  | none => m.raise 0 0xD9 5
  | some c =>
    if c.gen == 0 then m.raise 0 0xDA 5
    else if (m.withCab c.vals).failing.length != 0 then m.raise 0 0xD9 5
    else
      let m1 := { m.applyCab c.vals with
        cab.gen := c.gen
        cab.used := true }
      m1.repairCopy c

/-- State blocks (08 R259, R268): one that fails its check is rewritten from the other; with neither, every slot is
empty. -/
def Mach.readBlocks (m : Mach) : Mach :=
  let k := m.lockSaved
  let m1 := { m.writeBlocks m.creds k with
    cab.fails := k.1
    cab.lockout := sF k.2 }
  if 0 < k.2 then m1.raise 0 0xE8 1 else m1

/-- The maker mirror (16 R499). -/
def Mach.makerMirror (m : Mach) : Mach :=
  if !m.cab.used then m
  else
    let req := m.flag pFW_MAKER_REQUIRED
    let key := m.valAt 0 pFW_MAKER_KEY
    let m1 := { m with
      sec.mirrorReq := req
      sec.mirrorKey := if key.all (· == 0) then [] else key }
    if req && !m.allMakerSigned (keyNum key) then m1.raise 0 0xE6 5 else m1

/-! The power record at start-up (15 R479). -/

/-- 0x03: the last save did not complete. -/
def Mach.holdupShort (m : Mach) : Mach :=
  { m with power.holdupShort := sat32 m.power.holdupShort }.raise 0 0x03 1

/-- The power record is read (15 R479, R489). -/
def Mach.readPower (m : Mach) : Mach :=
  let r := m.peek powerAddr 64
  match m.readRecord powerAddr with
  | some (p, _) =>
    if (leAt p 0 4 + 1) % 2 ^ 32 != m.sec.boots then m
    else if bit (nth p 18 0) 0 then { m with
      power.saveDur := leAt p 20 4
      power.saveVin := leAt p 16 2 }
    else m.holdupShort
  | none => if !recMarked r && leAt r 56 4 != 0 then m.holdupShort else m

/-! Latch records (17 R516, R517). -/

/-- Trips that a competent person must reset (17 R516). -/
def latchCode (c : Nat) : Bool := [0x3C, 0x61, 0x63, 0x64, 0x6B, 0x6E, 0x71, 0x73, 0x74, 0x75, 0x77, 0x79].contains c

/-- MRAM address of a core's latch record. -/
def latchAddr (c : CoreId) : Nat := 0x3C0480 + 0x40 * c.idx

/-- The listed trips in force in a core, by unit and then code: 0x3C of the car is every core's. -/
def Mach.latched (m : Mach) (c : CoreId) : List (Nat × Nat) :=
  (if m.inForce 1 0x3C then [(1, 0x3C)] else [])
    ++ (m.safe.cores.get c).blocks.flatMap fun (b : BlockRec) => (b.codes.filter latchCode).map fun x => (b.handle, x)

/-- Payload of a latch record (17 R516). -/
def Mach.latchPayload (m : Mach) (c : CoreId) : List Nat :=
  let l := m.latched c
  le 4 m.sec.boots ++ [min 11 l.length, b2n (decide (11 < l.length)), 0, 0]
    ++ (l.take 11).flatMap fun (x : Nat × Nat) => le 2 x.1 ++ [x.2, 0]

/-- A core rewrites its record. -/
def Mach.writeLatch (m : Mach) (c : CoreId) : Mach := m.writeRecord (latchAddr c) (m.latchPayload c) (m.seqAfter (latchAddr c))

/-- Records are rewritten in the frame after a listed trip was raised or ended: `was` and `before` are
the module at the ends of the last two frames. -/
def Mach.latchFrame (m was before : Mach) : Mach :=
  if !m.linkUp then m
  else m.each coreIds fun m c => if was.latched c == before.latched c then m else m.writeLatch c

/-- The entries of a record. -/
def latchEntries (p : List Nat) : List (Nat × Nat) :=
  (List.range (min 11 (nth p 4 0))).map fun k => (leAt p (8 + 4 * k) 2, nth p (10 + 4 * k) 0)

/-- Raise a restored trip (17 R517) with CONTEXT_1 0xFFFF_FFFF, in every core. -/
def Mach.restoreTrip (m : Mach) (x : Nat × Nat) : Mach :=
  if x.1 == 1 then m.raise 1 x.2 5 0xFFFFFFFF
  else if !m.blockOn x.1 then m
  else
    let m1 := m.raise x.1 x.2 (blockClass x.1 x.2) 0xFFFFFFFF
    { m1 with safe.cores := m1.safe.cores.map fun _ (k : CoreState) => k.hold x.1 x.2 m1.ts }

/-- The latch records are restored in step 4 (17 R517). -/
def Mach.readLatches (m : Mach) : Mach :=
  let recs := coreIds.filterMap fun c => (m.readRecord (latchAddr c)).map fun (r : List Nat × Nat) => r.1
  let all := (recs.flatMap latchEntries).eraseDups
  let l := if recs.length == 1 then all
    else all.filter fun x => decide (2 ≤ (recs.filter fun p => (latchEntries p).contains x).length)
  let m1 := m.each l Mach.restoreTrip
  { m1 with
    safe.restored := l
    safe.restoredNeedsInsp := l != [] && recs.any fun p => bit (nth p 5 0) 0
    start.restored := min 11 l.length }

/-! Steps (17 R512, R514). -/

/-- The copies of the cabinet configuration are read, and a commit that was under way is aborted. -/
def Mach.readCabinet (m : Mach) : Mach :=
  (m.abortPending ((m.startCopy.map fun (c : CabCopy) => c.gen).getD 0)).readCopies

/-- The saved state besides the configuration is read. -/
def Mach.readSaved (m : Mach) : Mach := m.readBlocks.makerMirror.readPower.restoreMeter.recorderStart.readLatches

/-- Every channel's configuration is sent to the field side. -/
def Mach.sendConfig (m : Mach) : Mach := { m.queueAllCfg with link.digOk := 0 }

/-- What step 4 does on entering it; the channel configuration is sent from now on. -/
def Mach.stepFour (m : Mach) : Mach := m.readCabinet.readSaved.sendConfig

/-- The next step begins. -/
def Mach.enterStep (m : Mach) (k : Nat) : Mach :=
  let m1 := { m with
    start.step := k
    start.blockedAt := none
    start.block := 0 }
  (if k == 4 then m1.stepFour else m1).startBlocks

/-- READY (17 R514; 16 R501). -/
def Mach.becomeReady (m : Mach) : Mach :=
  ({ m with
    start.step := 6
    start.ready := true
    start.readyTime := (min (m.start.usBase + (m.ts : Int)) 0xFFFFFFFF).toNat }.post 0xB 1 0 0 0).rollbackAdvance

/-- The step in progress is complete (17 R512). -/
def Mach.stepDone (m : Mach) : Bool :=
  match m.start.step with
  | 1 => m.time.running
  | 2 => (majority m.sec.coreDigest).isSome && m.field.booted
  | 3 => decide (16 ≤ m.link.dnGood) && m.field.sawSync && decide (16 ≤ m.link.upGood)
  | 4 => decide (1 ≤ m.link.digOk) && m.link.cfgQueue == [] && m.cab.used
  | 5 => m.pairActive && coreIds.all fun c => !m.triad.mails.get c || (m.pos.est.get c.proc).inited
  | _ => false

/-- A fault blocks the step in progress. -/
def Mach.stepBlocked (m : Mach) : Bool := m.faults.any (blocksStep m.start.step)

/-- STARTUP_STEP_COMPLETE (17 R512, R514). -/
def execStartupStepComplete (s : State) : Res :=
  onWhen s (s.now.powered && s.now.stepDone && !s.now.stepBlocked) fun m =>
    if m.start.step == 5 then m.becomeReady else m.enterStep (m.start.step + 1)

/-- STARTUP_DEADLINE of the step in progress (17 R512, R514). Before the first tick the module has no
count of its own to judge it by. -/
def execStartupDeadline (s : State) : Res :=
  let k := s.now.start.step
  onWhen s (s.now.powered && decide (1 ≤ k) && decide (k ≤ 5)
      && (!s.now.time.running || decide ((1000 * stepDeadline k : Nat) ≤ s.now.elapsedUs))) fun m =>
    if k == 5 && !m.pair.aps.a.booted && !m.pair.aps.b.booted then (m.raise pairUnit 0x24 4).startBlocks
    else m.blockStart 0

/-- A blocked start-up whose blocking fault has ended resumes (17 R514): at the next step, or in step 5
once a processor has booted. Its later deadlines count from this frame. -/
def Mach.startResume (m : Mach) : Mach :=
  match m.start.blockedAt with
  | none => m
  | some k =>
    if m.start.block == 0 || (m.faults.any (blocksStep k)) then m
    else
      let next := min 5 (k + 1)
      { m with start.dlBase := m.start.usBase + (m.ts : Int) - (1000 * stepDeadline k : Nat) }.enterStep next

/-! The tether at start-up (17 R515). -/

/-- A processor has booted and is past its position recovery. -/
def Mach.qualifies (m : Mach) (a : Ab) : Bool := (m.ap a).booted && (m.ap a).role == 1 && (m.pos.est.get a.proc).inited

/-- The tether may be granted: step 5, or start-up blocked in it. -/
def Mach.granting (m : Mach) : Bool :=
  m.pair.holder.isNone && (m.start.step == 5 || m.start.blockedAt == some 5)

/-- The cores grant the tether; the other processor syncs from the holder. -/
def Mach.grantTether (m : Mach) (a : Ab) : Mach :=
  let m1 := m.onAp a fun x => { x with role := 4 }
  { m1.onAp a.other fun x => if x.booted && x.role == 1 then { x with role := 2 } else x with
    pair.holder := some a
    pair.choice := some a
    pair.noHolder := 0
    pair.missRun := 0
    pair.copyFrame := m.time.frame
    pair.lastDelivered := m.time.frame }.endFault pairUnit 0x24

/-- The grant to PAIR_PREFERRED, in the first frame in which it qualifies. -/
def Mach.grantFrame (m : Mach) : Mach := if m.granting && m.qualifies m.preferred then m.grantTether m.preferred else m

/-- TETHER_GRANT_FALLBACK: 1000 ms after the start (17 R515). -/
def execTetherGrantFallback (s : State) : Res :=
  let p := s.now.preferred
  onWhen s (s.now.granting && decide (1000000 ≤ s.now.elapsedUs) && !s.now.qualifies p && s.now.qualifies p.other) fun m =>
    m.grantTether p.other

/-! Once per frame. -/

/-- The first tick (02 R36), with every processor released from reset (17 R515) and none ACTIVE (09 R283):
how long after the start of start-up it comes, and how long after it the host port comes up,
is the hardware's, within 20 ms and 300 ms (17 R512; 14 R454). -/
def Mach.firstTick (m : Mach) : Mach :=
  { m.entersFault pairUnit with
    time.running := true
    pair.aps := m.pair.aps.map fun _ x => if x.role == 0 then { x with role := 1 } else x
    pair.dualStart := true
    start.usBase := ((Config.freeValue m.free % 20001 : Nat) : Int)
    start.serveAt := Config.freeValue (m.free + 1) % 300001
    free := m.free + 2 }

/-- The host port begins to serve (14 R454). -/
def Mach.serveFrom (m : Mach) : Mach :=
  if !m.host.serving && decide ((m.start.serveAt : Int) ≤ m.start.usBase + (m.ts : Int)) then
    { m with
      host.serving := true
      host.hbsy := false }
  else m

/-- Start-up's part in a frame. -/
def Mach.startFrame (m : Mach) : Mach :=
  let m1 := { m.serveFrom.grantFrame with
    safe.restored := m.safe.restored.filter fun (x : Nat × Nat) => m.inForce x.1 x.2 }
  m1.startBlocks.startResume

/-- COMMIT_COMPLETE (08 R264 step 5, R270; 17 R514). -/
def execCommitComplete (s : State) : Res :=
  match s.now.cab.commit with
  | some r => onWhen s (r.phase == 3) fun m => (m.commitComplete r).startResume
  | none => .next s

/-- The read-only parameters of start-up and service (17 R527). -/
def Mach.startRo (m : Mach) (id : Nat) : Option Int :=
  match id with
  | 0x0040 => some (match m.start.blockedAt with
    | some k => (k : Int)
    | none => m.start.step)
  | 0x0041 => some m.start.block
  | 0x0042 => some m.start.readyTime
  | 0x0043 => some m.start.restored
  | 0x0044 => some (b2n m.sched.inService)
  | 0x0045 => some m.reactionClass
  | _ => none

end Sys2Proof.Machine
end

