-- ==== Sys2Proof/Machine/Values.lean ====
section
/-!
DEFINITION. What a read of a parameter or attribute returns (14 R457; 01 R28): stored values as they
are in force, and the read-only values that the chapters publish.
-/
namespace Sys2Proof.Machine

open Sys2Proof

/-- One unsigned value. -/
def oneN (n : Nat) : Option (List Int) := some [(n : Int)]

/-- One signed value. -/
def oneI (i : Int) : Option (List Int) := some [i]

/-- One Boolean value. -/
def oneB (b : Bool) : Option (List Int) := some [b2i b]

/-- GROUP_STORE_FREE (01 R24). -/
def Mach.groupFree (m : Mach) : Nat := 3072 - sumN (m.groups.map fun g => groupRecords g.kids.length)

/-- The values of chapter 02 (R60). FRAME_COUNT and TIMESTAMP are those of the serving frame, which
is `now`. -/
def Mach.timeRo (m now : Mach) (id : Nat) : Option (List Int) :=
  match id with
  | 0x0001 => oneN now.fc
  | 0x0002 => oneN now.ts
  | 0x0003 => oneI m.time.wallOffset
  | 0x0004 => oneB m.time.wallValid
  | 0x0005 => oneN m.groupFree
  | 0x0020 => oneN m.time.ovrCore.a
  | 0x0021 => oneN m.time.ovrCore.b
  | 0x0022 => oneN m.time.ovrCore.c
  | 0x0023 => oneN m.time.ovrAp.a
  | 0x0024 => oneN m.time.ovrAp.b
  | 0x0025 => oneN m.time.specDiscards
  | _ => if 0x0030 ≤ id && id ≤ 0x0039 then oneI (nth m.time.clkDev (id - 0x0030) 0) else none

/-- The values of chapter 03 (R95). -/
def Mach.posRo (m : Mach) (id : Nat) : Option (List Int) :=
  match id with
  | 0x0131 => oneI m.est.gCal
  | 0x0140 => oneI m.est.pubP
  | 0x0141 => oneI m.est.pubV
  | 0x0142 => oneI m.est.pubA
  | 0x0143 => oneN m.est.sigma
  | 0x0144 => oneN m.quality
  | 0x0145 => oneI m.est.k.round
  | 0x0146 => oneI m.est.b.round
  | 0x0147 => oneI m.pos.stretch
  | 0x0148 => oneI m.levelError
  | 0x0149 => oneI (m.pos.est.get .a).pubP
  | 0x014A => oneI (m.pos.est.get .b).pubP
  | 0x014B => oneI (m.pos.est.get .c).pubP
  | 0x0166 => oneN m.pos.learn.state
  | _ => none

/-- PLAN_ID (04 R98, R108): 0 while no plan executes. It keeps the ended plan's identifier through the settle and
the closing of the brake until IDLE, as V_CAP keeps its value: the rule says only "while the plan executes"
(DESIGN CHOICE, notes/assumptions/51.md). -/
def Mach.planInForce (m : Mach) : Nat :=
  match m.eng.exec with
  | some r => if m.eng.stop.isSome then 0 else r.plan.id
  | none => 0

/-- PLAN_PENDING (04 R101). -/
def Mach.planWaiting (m : Mach) : Nat :=
  match m.eng.pend with
  | some p => p.id
  | none => 0

/-- The values of chapter 04 (R124). SP_POS, SP_VEL and SP_ACC are the engine state at the tick of the
serving frame, which is `now`. -/
def Mach.engRo (m now : Mach) (id : Nat) : Option (List Int) :=
  match id with
  | 0x0240 => oneN m.eng.mode
  | 0x0241 => oneN m.planInForce
  | 0x0242 => oneN m.planWaiting
  | 0x0243 => oneI now.spPos
  | 0x0244 => oneI now.spVel
  | 0x0245 => oneI now.spAcc
  | 0x0246 => oneN m.eng.vCap
  | 0x0247 => oneN m.stopDist
  | 0x0248 => oneN m.eng.rejects
  | 0x0249 => oneN m.eng.fb.state
  | _ => none

/-- The values of chapter 05 (R149). -/
def Mach.schedRo (m : Mach) (id : Nat) : Option (List Int) :=
  match id with
  | 0x0310 => oneN m.schedDir
  | 0x0311 => oneN m.commitTarget
  | 0x0312 => oneN m.sched.exitL
  | 0x0313 => oneN m.sched.next
  | 0x0314 => oneN m.sched.epoch
  | 0x0315 => oneN m.sched.hits
  | 0x0316 => oneN m.sched.misses
  | 0x0317 => oneN m.sched.calls.length
  | _ => none

/-- The values of a landing (05 R150; 07 R247). -/
def Mach.landingRo (m : Mach) (l id : Nat) : Option (List Int) :=
  if id == pCALL_STATE then oneN (m.callState l)
  else if id == pLOCK_STATE then oneN (m.lockOf l).bits
  else none

/-- DOOR_I2T in percent (06 R187). -/
def Mach.doorI2t (m : Mach) (s : Ab) : Nat :=
  if m.i2tFull s == 0 then 0 else min 100 ((m.doors.get s).i2t * 100 / m.i2tFull s)

/-- The values of a door side, by their side A IDs (06 R188). -/
def Mach.doorRo (m : Mach) (s : Ab) (id : Nat) : Option (List Int) :=
  let d := m.doors.get s
  match id with
  | 0x0430 => oneN d.state
  | 0x0431 => oneI d.x
  | 0x0432 => oneI d.v
  | 0x0433 => oneI d.thrust
  | 0x0434 => oneI d.residual
  | 0x0435 => oneN d.ke
  | 0x0436 => oneN d.vLim
  | 0x0437 => oneN d.obstCount
  | 0x0438 => oneN d.obstConsec
  | 0x0439 => oneN d.udc
  | 0x043A => oneN (m.doorI2t s)
  | 0x043B => oneN d.keCount
  | _ => none

/-- FB_LAST_DISC of a block in one core (07 R202): of the measurement that closed last. -/
def CoreState.lastDisc (k : CoreState) (h : Nat) : Nat :=
  ((k.pairs.filter fun (p : PairState) => p.handle == h).foldl
    (fun (x : Nat × Nat) (p : PairState) => if x.1 ≤ p.discLt then (p.discLt, p.lastDisc) else x) (0, 0)).2

/-- The values of a safety function block (07 R246): 0 where the attribute does not apply to its kind
(R547). -/
def Mach.blockRo (m : Mach) (h id : Nat) : Option (List Int) :=
  let k := m.pubCore
  if !(0x0560 ≤ id && id ≤ 0x0567) then none
  else if !attrApplies h id then oneN 0
  else
    match id with
    | 0x0560 => oneN (m.blockReport h).1
    | 0x0561 => oneN (k.block h).trips
    | 0x0562 => oneN (k.lastDisc h)
    | 0x0563 => oneN (k.block h).lastEvent
    | 0x0564 => oneN (aGet k.twoHand h 0)
    | 0x0565 => oneI k.ucmPub
    | 0x0566 => oneB m.safe.grant
    | _ => oneN m.safe.brake

/-- The values of the cabinet (08 R271). -/
def Mach.cabRo (m : Mach) (id : Nat) : Option (List Int) :=
  match id with
  | 0x05F0 => oneN m.cabState
  | 0x05F1 => oneN (m.cab.session.getD 0xFF)
  | 0x05F2 => oneN m.sessionLeft
  | 0x05F3 => oneN m.cab.fails
  | 0x05F4 => oneN m.lockoutLeft
  | 0x05F5 => oneN m.cab.staged.length
  | 0x05F6 => oneN m.cab.gen
  | 0x05F7 => some ((cabDigestOf m.params).map fun (x : Nat) => (x : Int))
  | 0x05F8 => oneN m.cab.head
  | 0x05F9 => oneN m.cab.overwrites
  | 0x05FA => oneN m.cab.rejUnit
  | 0x05FB => oneN m.cab.rejId
  | 0x05FC => oneN m.slotsSet
  | _ => none

/-- TRIAD_EXCLUDED (09 R274). -/
def Mach.exclMask (m : Mach) : Nat := coreIds.foldl (fun x c => x + b2n (m.triad.excluded.get c) * 2 ^ c.idx) 0

/-- PROOF_STATE (09 R280). -/
def Mach.proofState (m : Mach) : Nat :=
  match m.triad.proof with
  | some c => c.idx + 1
  | none => 0

/-- The values of the triad and the pair (09 R298). -/
def Mach.triadRo (m : Mach) (id : Nat) : Option (List Int) :=
  match id with
  | 0x0600 => oneN m.triadMode
  | 0x0601 => oneN m.exclMask
  | 0x0604 => oneN m.duplexLeftS
  | 0x0606 => oneN m.triad.disagree.a
  | 0x0607 => oneN m.triad.disagree.b
  | 0x0608 => oneN m.triad.disagree.c
  | 0x0609 => oneN m.triad.readmits
  | 0x0612 => oneN m.proofState
  | 0x0613 => oneN m.triad.proofLast.a
  | 0x0614 => oneN m.triad.proofLast.b
  | 0x0615 => oneN m.triad.proofLast.c
  | 0x0616 => oneN (min 86400 m.proofDue)
  | 0x0620 => oneN (m.ap .a).role
  | 0x0621 => oneN (m.ap .b).role
  | 0x0622 => oneN m.holderN
  | 0x0624 => oneN m.pair.switches
  | 0x0625 => oneN m.pair.ballast
  | 0x0626 => oneN m.pair.age
  | 0x0627 => oneN m.pair.mismatch
  | 0x0628 => oneN (m.pair.snapFrame % 2 ^ 32)
  | 0x0629 => oneB m.dualTx
  | 0x062A => oneN (m.ap .a).compat
  | 0x062B => oneN (m.ap .b).compat
  | _ => none

/-- CH_RETRIES_LEFT (10 R323, R334): 0 in modes that do not retry. -/
def Mach.retriesLeft (m : Mach) (c : Nat) : Nat :=
  if m.fMode c == 5 || m.fMode c == 7 then aGet m.field.retries c (m.fRetries c) else 0

/-- The values of a channel (10 R334). -/
def Mach.channelRo (m : Mach) (c id : Nat) : Option (List Int) :=
  match id with
  | 0x0710 => oneN (m.statusOf c)
  | 0x0711 => oneN (aGet m.field.current c 0)
  | 0x0712 => oneI (aGet m.field.temp c 0)
  | 0x0713 => oneN (aGet m.field.ops c 0)
  | 0x0714 => oneN (aGet m.field.trans c 0)
  | 0x0715 => oneB (bit m.field.benchVal c)
  | 0x0716 => oneN (aGet m.field.lastTp c 0)
  | 0x0717 => oneN (m.retriesLeft c)
  | _ => none

/-- The values of the link and the field side (10 R336), those of the field side as the diagnostic fields last carried
them (R308). -/
def Mach.fieldRo (m : Mach) (id : Nat) : Option (List Int) :=
  match id with
  | 0x0782 => oneN m.link.dnErr
  | 0x0783 => oneN m.link.upErr
  | 0x0784 => oneN m.link.timeouts
  | 0x0785 => oneN (Machine.field m.link.sup 63 52)
  | 0x0786 => oneN (Machine.field m.link.sup 51 40)
  | 0x0787 => oneN (Machine.field m.link.sup 39 36)
  | 0x0788 => oneN (Machine.field m.link.sup 35 32)
  | 0x0789 => oneN (Machine.field m.link.sup 15 15)
  | 0x078A => oneI (toS 16 (Machine.field m.link.sup 31 16))
  | 0x078B => oneN (Machine.field m.link.voter 57 56)
  | _ => if 0x0790 ≤ id && id ≤ 0x0797 then oneN (25 * (m.link.cur / 2 ^ (8 * (id - 0x0790)) % 256)) else none

/-- The values of the recorder (13 R438). -/
def Mach.recorderRo (m : Mach) (id : Nat) : Option (List Int) :=
  match id with
  | 0x0A40 => oneN m.rcd.seq
  | 0x0A41 => oneN m.dirtyRecords
  | 0x0A42 => oneN m.rcd.qDropped
  | 0x0A43 => oneN m.rcd.flushes
  | 0x0A44 => oneN m.rcd.lastFlush
  | 0x0A45 => oneN (min 1000 (m.rcd.scrubPos * 1000 / scrubWords))
  | 0x0A46 => oneN m.rcd.scrubFix
  | 0x0A47 => oneN m.rcd.scrubBad
  | 0x0A48 => oneN m.rcd.scrubAddr
  | 0x0A49 => oneN m.rcd.lostAtStart
  | _ => none

/-- The values of the host port (14 R471). -/
def Mach.hostRo (m : Mach) (id : Nat) : Option (List Int) :=
  match id with
  | 0x0D02 => oneN m.hostState
  | 0x0D10 => oneN m.host.packets
  | 0x0D11 => oneN m.host.badCrc
  | 0x0D12 => oneN m.host.truncated
  | 0x0D13 => oneN m.host.stalls
  | 0x0D14 => oneN m.host.ignored
  | 0x0D15 => oneN m.host.replyLost
  | 0x0D16 => oneN m.evtQueued
  | 0x0D17 => oneN m.host.dropped
  | 0x0D18 => oneN (if m.host.keepOn then m.host.keepLeft / 4 else 0)
  | _ => none

/-- One value as a list of one. -/
def listed (x : Option Int) : Option (List Int) := x.map fun v => [v]

/-- The first of two answers. -/
def orElse (a b : Option (List Int)) : Option (List Int) :=
  match a with
  | some x => some x
  | none => b

/-- The read-only values of unit 0x0000. -/
def Mach.rootRo (m now : Mach) (id : Nat) : Option (List Int) :=
  match id / 256 with
  | 0x00 => if id < 0x0040 then m.timeRo now id else listed (m.startRo id)
  | 0x01 => m.posRo id
  | 0x02 => m.engRo now id
  | 0x03 => m.schedRo id
  | 0x05 => m.cabRo id
  | 0x06 => m.triadRo id
  | 0x07 => m.fieldRo id
  | 0x08 => listed (m.profRo id)
  | 0x0B => listed (m.powerRo id)
  | 0x0C => m.secRo id
  | 0x0D => m.hostRo id
  | _ => none

/-- A published read-only value of a unit; none where the ID holds a stored value. -/
def Mach.roVal (m now : Mach) (h id : Nat) : Option (List Int) :=
  match homeOf h with
  | some .root => m.rootRo now id
  | some .landing => m.landingRo (h - 0x1000) id
  | some .side => m.doorRo (abOf (h - 2)) (canonId h id)
  | some .block => m.blockRo h id
  | some .channel => m.channelRo (h - 0x0100) id
  | some .port => listed (m.portRo (abOf (h - 0x0200)) (canonId h id))
  | some .meter => m.meterRo now id
  | some .recorder => m.recorderRo id
  | none => none

/-- An attribute of the safety function blocks (07 R246). -/
def blockAttr (id : Nat) : Bool := decide (0x0540 ≤ id) && decide (id ≤ 0x0567)

/-- The value of a parameter or attribute; of a block, 0 where it does not apply to its kind, and FB_ENABLE 1 on a block
marked always (07 R246, R547). `m` is the module as a read sees it, `now` the serving
frame. -/
def Mach.readVal (m now : Mach) (h id : Nat) : List Int :=
  if id == pFB_ENABLE && blockAlways h then [1]
  else if blockAttr id && blockKind h != none && !attrApplies h id then [0]
  else (m.roVal now h id).getD (m.valAt h id)

/-- The bounds of a row's type. -/
def typeLo (r : PRow) : Int := if r.signed then -(2 ^ (8 * r.bytes - 1) : Nat) else 0
def typeHi (r : PRow) : Int := if r.signed then (2 ^ (8 * r.bytes - 1) : Nat) - 1 else (2 ^ (8 * r.bytes) : Nat) - 1

/-- The bytes of a value as a read returns them, within the bounds of its type. -/
def valBytes (r : PRow) (v : List Int) : List Nat := encodeVal r (v.map (clamp (typeLo r) (typeHi r)))

end Sys2Proof.Machine
end

