-- ==== Sys2Proof/Machine/Units.lean ====
section
/-!
DEFINITION. The unit commands: UNIT_LIST, UNIT_GET and UNIT_SET (14 R457, R458, R460), UNIT_ENABLE and
UNIT_DISABLE with the starting and stopping of units (01 R30 to R35; 14 R459), and GROUP_DEFINE (01 R22
to R24).
-/
namespace Sys2Proof.Machine

open Sys2Proof

/-! Reads. -/

/-- UNIT_LIST (01 R21; 14 R460): existing units in ascending order from a handle on. -/
def execUnitList (tag first max : Nat) (s : State) : Res := serve s 0x10 tag fun m =>
  if max < 1 || 255 < max then refuse m stBAD_PARAM
  else
    let r := s.shown
    let l := r.unitHandles.filter fun h => decide (first ≤ h)
    let out := l.take max
    (m, stOK, [out.length] ++ le 2 ((l.drop max).headD 0xFFFF) ++ out.flatMap fun h => le 2 h ++ le 4 (r.statusWord h))

/-- One entry of a UNIT_GET reply: ID, status, length and value (14 R457). -/
def getEntry (id st : Nat) (v : List Nat) : List Nat := le 2 id ++ [st] ++ le 2 v.length ++ v

/-- The entries of a UNIT_GET reply (14 R457). A value is placed while the payload, with 5 bytes for
each entry still to come, stays within 4096 bytes. -/
def Mach.getEntries (r now : Mach) (h : Nat) : Nat → List Nat → List Nat
  | _, [] => []
  | used, id :: ids =>
    let e := match r.carries h id with
      | none => getEntry id stBAD_PARAM []
      | some row =>
        let v := valBytes row (r.readVal now h id)
        if used + 5 + v.length + 5 * ids.length ≤ 4096 then getEntry id stOK v else getEntry id stBAD_LENGTH []
    e ++ Mach.getEntries r now h (used + e.length) ids

/-- UNIT_GET (14 R457; 01 R28). -/
def execUnitGet (tag handle : Nat) (ids : List Nat) (s : State) : Res := serve s 0x11 tag fun m =>
  if ids.length < 1 || 64 < ids.length then refuse m stBAD_LENGTH
  else if !s.shown.exists handle then refuse m stUNIT_UNKNOWN
  else (m, stOK, le 2 handle ++ le 4 (s.shown.statusWord handle) ++ [ids.length] ++ s.shown.getEntries m handle 7 ids)

/-! Writes. -/

/-- The ID under which UNIT_SET writes the unit status word, as 4 bytes (01 R29): the spec gives the
W1C bit FAULT_LATCHED no ID of its own (DESIGN CHOICE, notes/assumptions/11.md). -/
def idSTATUS_WORD : Nat := 0xFFFF

/-- How an entry of UNIT_SET is judged: as 14 R458 says, with the rules of the chapter that owns the
unit (11 R379; 12 R384). Of the unit status word bit 5 alone is written; its RO bits are ignored, whatever the entry
has there (DESIGN CHOICE, notes/assumptions/11.md: 00 R9 refuses the write of an RO field). -/
def Mach.unitEntry (m : Mach) (h : Nat) (es : List SetEntry) (good : Bool) (e : SetEntry) : Nat :=
  if e.id == idSTATUS_WORD then (if e.val.length == 4 then stOK else stBAD_PARAM)
  else
    let st := m.setStatus h e
    if st != 0 then st
    else if h == 0x0300 then (if tied e.id && !good then stBAD_PARAM else stOK)
    else m.busEntry h es e

/-- Accept the entries of UNIT_SET: they take effect as their access codes give; those of the meter and
of a channel as METER_CONFIG and CH_CONFIG do (12 R412; 10 R334). -/
def Mach.unitApply (m : Mach) (tag h : Nat) (es : List SetEntry) : Mach :=
  if h == 0x0300 then m.meterDefer (0x12, tag) es
  else
    let m1 := m.defer (0x12, tag) h es
    if 0x0100 ≤ h && h ≤ 0x013F && es != [] then m1.queueCfg [h - 0x0100] else m1

/-- UNIT_SET (14 R458): all entries, or nothing. -/
def Mach.unitSet (m : Mach) (tag h : Nat) (es : List SetEntry) : Mach × Nat × List Nat :=
  if !countOk es then refuse m stBAD_LENGTH
  else if !m.exists h then refuse m stUNIT_UNKNOWN
  else
    let own := es.filter fun (e : SetEntry) => e.id != idSTATUS_WORD
    let good := h != 0x0300 || meterCfgOk (m.meterCfgWith own)
    let sts := es.map (m.unitEntry h own good)
    let bad := firstRefusal sts
    if bad != 0 then (m, bad, setReply es sts)
    else
      let m1 := m.unitApply tag h own
      let clear := es.any fun (e : SetEntry) => e.id == idSTATUS_WORD && bit (leAt e.val 0 4) 5
      (if clear then m1.clearLatched h else m1, stOK, setReply es sts)

/-- UNIT_SET. -/
def execUnitSet (tag handle : Nat) (entries : List SetEntry) (s : State) : Res :=
  serve s 0x12 tag fun m => m.unitSet tag handle entries

/-! Starting and stopping of units (01 R30 to R35). -/

/-- A landing unit. -/
def isLanding (h : Nat) : Bool := decide (0x1000 ≤ h) && decide (h ≤ 0x10FF)

/-- A channel unit. -/
def isChannel (h : Nat) : Bool := decide (0x0100 ≤ h) && decide (h ≤ 0x013F)

/-- The units that refuse both commands (01 R31; 10 R333), and the ports that refuse a disable
(11 R362). -/
def Mach.enableDenied (m : Mach) (h : Nat) (enable : Bool) : Bool :=
  h == 0 || h == 0x0500 || h == 0x0600 || (decide (0x0700 ≤ h) && decide (h ≤ 0x07FF))
    || (isChannel h && m.chProtected (h - 0x0100))
    || (!enable && (match portOfH h with
      | some p => m.drvPort == p || (m.nat pLOCK_SOURCE != 0 && abOf (m.nat pLOCK_PORT) == p)
      | none => false))

/-- The status of UNIT_ENABLE or UNIT_DISABLE on one unit (01 R30, R31; 10 R333). -/
def Mach.enableStatus (m : Mach) (h : Nat) (enable : Bool) : Nat :=
  if m.enableDenied h enable then stDENIED
  else if enable && isChannel h && m.chan (h - 0x0100) pCH_MODE == 0 then stWRONG_MODE
  else match m.ownState h with
    | some .stopping => if enable then stPENDING else stOK
    | some .fault => if enable then stUNIT_FAULT else stOK
    | some .bypassed => stWRONG_MODE
    | some .test => stWRONG_MODE
    | _ => stOK

/-- A unit enters STARTING (01 R30): a door side under 06 R163, a port waiting for recessive bits
(11 R362), the meter under 12 R393; the recorder has nothing to start and is ON at the next tick; the
car, landings and channels are STARTING for one frame (01 R32; 10 R333). -/
def Mach.unitStart (m : Mach) (h : Nat) : Mach :=
  let m1 := m.cell h fun c => { c with pend := false, offAfter := false }
  let starting (m : Mach) : Mach := m.cell h fun c => { c with own := .starting, since := m.time.frame }
  if h == 2 || h == 3 then m1.doorRestart (abOf (h - 2))
  else match portOfH h with
    | some p => m1.onPort p fun x => { x with own := .starting, wakeAt := some m.time.frame }
    | none =>
      if h == 0x0300 then m1.meterOn
      else if h == 0x0400 then starting { m1 with rcd.own := .starting }
      else if isChannel h then m1.chOn (h - 0x0100)
      else starting m1

/-- A unit is OFF (01 R30). -/
def Mach.unitOff (m : Mach) (h : Nat) : Mach :=
  if h == 2 || h == 3 then
    m.doorOff (abOf (h - 2))
  else match portOfH h with
    | some p => m.onPort p fun x => { x with own := .off }
    | none =>
      if h == 0x0300 then { m with meter.own := .off }
      else if h == 0x0400 then { m with rcd.own := .off }
      else
        let m1 := if isChannel h then { m with field.unitOff := setBit m.field.unitOff (h - 0x0100) true }.drive (h - 0x0100) false else m
        m1.cell h fun c => { c with own := .off, since := m.time.frame }

/-- UNIT_DISABLE of the car (01 R32): STOPPING; a moving car commits the exit plan of STOP mode 0, at
whose stop the scheduler registers car calls. -/
def Mach.carOff (m : Mach) : Mach :=
  let m1 := m.cell 1 fun c => { c with own := .stopping, since := m.time.frame }
  let moves := match m.eng.exec with
    | some r => !r.ended
    | none => false
  if m.stationary && !moves then (if m.eng.pendRest then m1.cancelPlan else m1)
  else { m1 with sched.exitReq := true, sched.exitF3 := true }

/-- UNIT_DISABLE of a landing (01 R32): OFF in the frame after acceptance, at whose freeze its calls
are removed as by CALL_CANCEL. -/
def Mach.landingOff (m : Mach) (h : Nat) : Mach :=
  let m1 := m.cell h fun c => { c with offAfter := true }
  let l := h - 0x1000
  m1.each [0, 1, 2] fun m k => m.queueCall ⟨2, false, l, k, 3, none, false⟩

/-- UNIT_DISABLE of a unit that is STARTING or ON (01 R30). -/
def Mach.unitStop (m : Mach) (h : Nat) : Mach :=
  if h == 1 then m.carOff
  else if isLanding h then m.landingOff h
  else if h == 2 || h == 3 then
    let s := abOf (h - 2)
    m.side s fun d => { d with own := .stopping, stopPend := d.state == 5 || d.reversing, refFrom := none }
  else match portOfH h with
    | some p => m.onPort p fun x => { x with own := .stopping, stopAt := m.time.frame }
    | none =>
      if h == 0x0300 then m.meterOff
      else if h == 0x0400 then { m with rcd.own := .stopping }
      else if isChannel h then m.chOff (h - 0x0100)
      else m

/-- UNIT_ENABLE or UNIT_DISABLE of one unit that accepts it (01 R30). -/
def Mach.unitAct (m : Mach) (h : Nat) (enable : Bool) : Mach :=
  match m.ownState h, enable with
  | some .off, true => m.unitStart h
  | some .stopping, true => m.cell h fun c => { c with pend := true }
  | some .stopping, false => m.cell h fun c => { c with pend := false }
  | some .starting, false => m.unitStop h
  | some .on, false => m.unitStop h
  | some .fault, false => m.cell h fun c => { c with offAfter := true }
  | _, _ => m

/-- The fixed units that a command reaches (01 R35): a group passes it on depth first, each unit once;
a fixed unit does not pass it on (R32). The fuel bounds the number of handles met. -/
def Mach.groupReach (m : Mach) : Nat → List Nat → List Nat → List Nat
  | 0, _, seen => seen
  | _ + 1, [], seen => seen
  | n + 1, h :: r, seen =>
    if seen.contains h then m.groupReach n r seen
    else m.groupReach n ((if 0x2000 ≤ h then m.kids h else []) ++ r) (seen ++ [h])

/-- Units reached, in order of application. -/
def Mach.unitsReached (m : Mach) (h : Nat) : List Nat := (m.groupReach 300000 [h] []).filter fun u => decide (u < 0x2000)

/-- The overall status of a group command (01 R35): the refusal of the lowest-handle unit that refused,
else PENDING where some unit set ENABLE_PENDING. -/
def groupStatus (l : List (Nat × Nat)) : Nat :=
  let bad := l.filter fun x => decide (1 < x.2)
  match bad with
  | x :: r => (r.foldl (fun b y => if y.1 < b.1 then y else b) x).2
  | [] => if l.any fun x => x.2 == stPENDING then stPENDING else stOK

/-- UNIT_ENABLE and UNIT_DISABLE (01 R30 to R35; 14 R459). -/
def Mach.enableCmd (m : Mach) (tag h : Nat) (enable : Bool) : Mach × Nat × List Nat :=
  if !m.exists h then refuse m stUNIT_UNKNOWN
  else
    let us := m.unitsReached h
    let outs := us.map fun u => (u, m.enableStatus u enable)
    let m1 := m.each outs fun m x => if x.2 ≤ 1 then m.unitAct x.1 enable else m
    let st := groupStatus outs
    let waiting := (outs.filter fun x => x.2 == stPENDING).map (·.1)
    let m2 := if st == stPENDING then { m1 with enables := m1.enables ++ [(⟨tag, h, waiting, stOK⟩ : EnableRun)] } else m1
    let listed := (outs.filter fun x => x.2 != stOK).take 1364
    (m2, st, le 2 us.length ++ le 2 listed.length ++ listed.flatMap fun x => le 2 x.1 ++ [x.2])

/-- UNIT_ENABLE. -/
def execUnitEnable (tag handle : Nat) (s : State) : Res := serve s 0x13 tag fun m => m.enableCmd tag handle true

/-- UNIT_DISABLE. -/
def execUnitDisable (tag handle : Nat) (s : State) : Res := serve s 0x14 tag fun m => m.enableCmd tag handle false

/-- The flush in progress has ended (13 R437). -/
def Mach.flushEnded (m : Mach) : Bool := m.rcd.flushing.all fun (x : Nat × Nat × Nat) => decide (x.2.2 ≤ 10 * m.ts)

/-- No call is left to answer (01 R32): in the frame after the disable of a car that stood, the clearing of
that frame leaves none. -/
def Mach.noCallLeft (m : Mach) : Bool :=
  !m.sched.exitReq && !m.sched.exitF3 && (m.sched.calls == [] || (m.cellAt 1).since + 1 == m.time.frame)

/-- The car's stopping has completed (01 R32): stationary, every side CLOSED, no call left. -/
def Mach.carStopped (m : Mach) : Bool := m.stationary && m.allSidesClosed && m.noCallLeft

/-- A unit's stopping has come to its end, as its chapter says (01 R32; 06 R186; 10 R333; 11 R362;
12 R393; 13 R437). -/
def Mach.stopEnded (m : Mach) (h : Nat) : Bool :=
  if h == 1 then m.carStopped
  else if h == 2 || h == 3 then
    let d := m.doors.get (abOf (h - 2))
    d.refV == 0 && d.v == 0 && d.state != 5 && !d.reversing
  else if isChannel h then !bit m.field.rb (h - 0x0100) || m.passedMs (m.cellAt h).since 10
  else if h == 0x0300 then m.meter.winHalfs == 0
  else if h == 0x0400 then m.flushEnded
  else true

/-- UNIT_STOPPING_COMPLETE (01 R33): a stopping unit enters OFF. It is OFF for one frame where an
enable is pending, which the next tick takes up. -/
def execUnitStoppingComplete (handle : Nat) (s : State) : Res :=
  onWhen s (s.now.exists handle && s.now.ownState handle == some .stopping && s.now.stopEnded handle) fun m => m.unitOff handle

/-- Units at a tick (01 R30, R32, R33): those that were STARTING for a frame are ON, a pending enable of
a unit that is OFF starts it, a disabled landing and a unit disabled in FAULT enter OFF, and a car that
has stopped is OFF. -/
def Mach.unitTick (m : Mach) : Mach :=
  let due := m.units.filter fun (c : UnitCell) => (c.handle == 1 || isLanding c.handle || c.handle == 0x0400) && c.own == .starting
      && decide (c.since < m.time.frame)
  let m1 := m.each due fun m c =>
    let m' := m.cell c.handle fun c => { c with own := .on, since := m.time.frame }
    if c.handle == 0x0400 && m'.rcd.own == .starting then { m' with rcd.own := .on } else m'
  let m2 := m1.each (m1.units.filter fun (c : UnitCell) => c.offAfter && m1.ownState c.handle != some .fault) fun m c =>
    (m.unitOff c.handle).cell c.handle fun c => { c with offAfter := false, pend := false }
  let m3 := m2.each (m2.units.filter fun (c : UnitCell) => c.pend && m2.ownState c.handle == some .off) fun m c => m.unitStart c.handle
  if m3.ownState 1 == some .stopping && m3.carStopped then m3.unitOff 1 else m3

/-- The outcome of a pending enable of a unit, once it is settled: it started, a fault came, or a
disable cancelled it (01 R33; notes/assumptions/12.md). -/
def Mach.enableOutcome (m : Mach) (u : Nat) : Option Nat :=
  if (m.cellAt u).pend then none
  else match m.ownState u with
    | some .starting => some stOK
    | some .on => some stOK
    | some .fault => some stUNIT_FAULT
    | _ => some stWRONG_MODE

/-- Pending enables that have been settled post their COMPLETED event (14 R455). -/
def Mach.enableTick (m : Mach) : Mach :=
  { m with enables := [] }.each m.enables fun x (r : EnableRun) =>
    let bad := r.left.filterMap fun u => match m.enableOutcome u with
      | some st => if st == stOK then none else some st
      | none => none
    let st := if r.status == stOK then bad.headD stOK else r.status
    let left := r.left.filter fun u => (m.enableOutcome u).isNone
    if left == [] then x.completed 0x13 r.tag st r.handle 0
    else { x with enables := x.enables ++ [({ r with left := left, status := st } : EnableRun)] }

/-! Groups (01 R22 to R24). -/

/-- GROUP_DEFINE is refused (01 R22, R23, R24). -/
def Mach.groupBad (m : Mach) (h : Nat) (kids : List Nat) : Bool :=
  let held := m.groups.find? fun (g : GroupDef) => g.handle == h
  let own := match held with
    | some g => groupRecords g.kids.length
    | none => 0
  if !(decide (0x2000 ≤ h) && decide (h ≤ 0x2FFF)) then true
  else if kids == [] then m.groups.any fun (g : GroupDef) => g.handle != h && g.kids.contains h && held.isSome
  else
    kids.any (fun k => k == 0 || !m.exists k) || kids.eraseDups.length != kids.length
      || kids.any (fun k => k == h || (m.descendants k).contains h)
      || decide (m.groupFree + own < groupRecords kids.length)
      || (held.isNone && decide (4096 ≤ m.unitHandles.length))

/-- The module as the newest definitions make it: those stored in this frame count already. -/
def Mach.newGroups (m : Mach) : Mach := { m with groups := m.groupsNext.getD m.groups }

/-- GROUP_DEFINE (01 R22 to R24): the definition is stored in the MRAM, and is in force from the next
frame. -/
def Mach.groupDefine (m : Mach) (h : Nat) (kids : List Nat) : Mach × Nat × List Nat :=
  if 64 < kids.length then refuse m stBAD_LENGTH
  else if m.newGroups.groupBad h kids then refuse m stBAD_PARAM
  else
    let l := m.newGroups.groups
    ok { m.storeGroup h kids with
      groupsNext := some (if kids == [] then l.filter fun (g : GroupDef) => g.handle != h else groupPut l ⟨h, kids⟩) }

/-- GROUP_DEFINE. -/
def execGroupDefine (tag handle : Nat) (kids : List Nat) (s : State) : Res :=
  serve s 0x15 tag fun m => m.groupDefine handle kids

end Sys2Proof.Machine
end

