-- ==== Sys2Proof/Machine/Frame.lean ====
section
/-!
DEFINITION. FRAME_TICK (02 R36 to R41): what the tick of a frame and the work of that frame do, in the
order of the phases of R41: writes and bits that come into force at the tick, the motion engine, the
input freeze, the estimates, the application's work, the safety evaluation, and what is recorded.
-/
namespace Sys2Proof.Machine

open Sys2Proof

/-- The module runs frames: powered, and no finished state save waits for the converters to turn off. -/
def Mach.ticks (m : Mach) : Bool := m.powered && !m.power.saveDone

/-- The frame count goes on, or the first tick is issued (02 R36). -/
def Mach.nextFrame (m : Mach) : Mach :=
  let m1 := { m with bus.sent := [] }
  if m1.time.running then { m1 with time.frame := m1.time.frame + 1 } else m1.firstTick

/-- What the memory ECC finds on the paths of this frame (01 R15, R18, R19), and the frames on the buses at its tick. -/
def Mach.takeEcc (m : Mach) (inp : FrameIn) : Mach :=
  { m with
    bus.onBus := inp.onBus
    time.planEcc := inp.planEcc
    time.spEcc := inp.spEcc
    time.doorEcc := inp.doorEcc
    time.recEcc := inp.recEcc }.each
      ([(6, inp.planEcc), (6, inp.spEcc), (8, inp.doorEcc.a), (8, inp.doorEcc.b), (15, inp.recEcc), (5, inp.polls.a.ecc),
        (5, inp.polls.b.ecc), (5, inp.encEcc), (5, inp.accEcc),
        (4, inp.deltaEcc), (4, inp.chunkEcc)] ++ inp.sram.map fun k => (k, Ecc.single))
      fun m (x : Nat × Ecc) => m.eccSeen x.1 x.2

/-- User groups defined in the frame before come into force (01 R24). -/
def Mach.groupTick (m : Mach) : Mach :=
  { m with
    groups := m.groupsNext.getD m.groups
    groupsNext := none }

/-- A wall-clock offset accepted in the frame before comes into force (02 R39). -/
def Mach.wallTick (m : Mach) : Mach :=
  match m.time.wallNext with
  | some o =>
    { m with
      time.wallOffset := o
      time.wallValid := true
      time.wallNext := none }
  | none => m

/-- Writes accepted in the frame before, and what follows from them (00 R12; 05 R130; 11 R342; 12 R395;
14 R470). `old` is the module before the tick. -/
def Mach.writesTick (m old : Mach) : Mach :=
  let kept := old.deferred.any fun (d : Deferred) => d.handle == 0 && d.id == pHOST_KEEPALIVE
  ((((m.applyDeferred).schedModeCheck old).busWritten old).meterUnitCheck old).wallTick.takePosted.hostFrame kept

/-- A logout takes effect, and the lockout time runs (08 R257, R258). -/
def Mach.cabTick (m : Mach) : Mach :=
  let m1 := if m.cab.logoutReq then m.endSession 1 else m
  { m1 with cab.lockout := m1.cab.lockout - 1 }.abortCommit

/-- The triad's bits come into force; a ramp request that begins asks for the emergency ramp (04 R109;
07 R194). -/
def Mach.bitsTick (m : Mach) : Mach :=
  let m1 := m.takeBits
  let m2 := if m1.safe.ramp && !m1.eng.rampWas then m1.stopReq .ramp else m1
  { m2 with eng.rampWas := m2.safe.ramp }

/-- A frame in which the cores freeze and evaluate: every one, in DOZE and PARK one in 4 or 16 (07 R242;
15 R486). -/
def Mach.safetyNow (m : Mach) : Bool := !m.longFrame || m.safetyFrameNow

/-- What happens at the tick itself. -/
def Mach.tickPhase (m old : Mach) : Mach :=
  let m1 := (m.nextFrame.sleepTick.groupTick.writesTick old).cabTick.unitTick.enableTick
  let m2 := if m1.safetyNow then m1.takeRequests else m1
  ((m2.bitsTick.engineCycle !(m2.prt m2.drvPort).sleep).engineTick.assemble).busTick.fieldTick

/-- The input freeze and what comes into force at it (02 R41, R48; 08 R264; 13 R434; 14 R461). -/
def Mach.freezePhase (m : Mach) (inp : FrameIn) : Mach :=
  let m1 := m.pairFrame inp
  let m2 := if m1.safetyNow then m1.freeze.takeObjects.takeLocks else m1
  ((m2.commitFreeze.clearFreeze.takeCommands.fieldSamples inp).channelFrame.linkSecond).triadFrame inp

/-- The estimates: the processors compare what the cores published in the frame before, then every
estimate takes the captures of this frame (03 R61 to R82). -/
def Mach.positionPhase (m : Mach) (inp : FrameIn) : Mach :=
  ((m.compareFrame.positionFrame inp).postMail).positionEnds

/-- The first frame of a new holder (09 R289): a copy state more than four frames old gives it the call table of
that state, and it plans afresh. -/
def Mach.firstWork (m : Mach) : Mach :=
  if !m.pair.fresh then m
  else
    let m1 := { m with pair.fresh := false }
    if decide (m.time.frame - m.pair.copyFrame ≤ 4) then m1
    else { m1.bumpEpoch with
      sched.calls := m.pair.copyCalls
      sched.target := noLanding
      sched.cand := none
      sched.replan := true }

/-- The delta of the frame carries the call table (09 R286). -/
def Mach.copyTable (m : Mach) : Mach :=
  if m.pair.deltaOk && !m.pair.takeover then { m with pair.copyCalls := m.sched.calls } else m

/-- Work of the tether holder (02 R46): none in PARK, and in ballast hold none of it is delivered; the epochs
of the spool are compared in every frame (02 R58). `p0` is the published position of the frame before. -/
def Mach.holderWork (m : Mach) (inp : FrameIn) (p0 : Int) : Mach :=
  if m.power.state == 3 || m.time.ballast then m.discardSpool
  else (((m.firstWork.relevelPlan.learnHazards inp.limitSw).learnFrame p0).homeFrame p0).serviceFrame.stationFrame.schedFrame inp.specDone |>.copyTable

/-- What the self-checks of the frame raise (09 R299; 12 R413; 16 R511). -/
def Mach.selfChecks (m : Mach) (c : SelfIn) : Mach :=
  let m1 := if c.voter then m.raise 0x0500 0x16 5 else m
  let m2 := if c.gating then m1.raise 0x0500 0x17 5 else m1
  let m3 := if c.secure then m2.raise 0 0xE0 2 else m2
  (m3.meterCheck c.meter).proofFound c.proof

/-- The work of the frame. -/
def Mach.computePhase (m : Mach) (inp : FrameIn) (p0 : Int) : Mach :=
  let m0 := (((m.selfChecks inp.checks).engineChecks inp).engineFrame.doorTick .a).doorTick .b
  let m1 := if m0.safetyNow then m0.switchRuns else m0
  let m2 := m1.holderWork inp p0
  if m2.safetyNow then m2.safetyFrame else m2

/-! User drawers (13 R422). -/

/-- The value a user drawer takes: unsigned values above 0x7FFF_FFFF count as that. -/
def Mach.userValue (m : Mach) (h id : Nat) : Option Int :=
  match m.carries h id with
  | some r => some (min 0x7FFFFFFF (clamp (typeLo r) (typeHi r) ((m.readVal m h id).headD 0)))
  | none => none

/-- A user drawer, k from 0: it samples its source once per period. -/
def Mach.userDrawer (m : Mach) (k : Nat) : Mach :=
  let src := m.natAt 0x0400 (pUSER_SOURCE_11 + k)
  let last := nth m.rcd.userAt k 0
  if src == 0 || !m.passedMs last (m.natAt 0x0400 (pUSER_PERIOD_11 + k)) then m
  else
    let m1 := { m with rcd.userAt := updAt m.rcd.userAt k fun _ => m.time.frame }
    match m1.userValue (src / 65536) (src % 65536) with
    | some v => (m1.hist (11 + k) 0 (3 + k) v).extreme (11 + k) 0 v
    | none => m1

/-- What is recorded and sent in the frame. `old` is the module before the tick, `before` as it stood a
frame earlier. -/
def Mach.recordPhase (m old before : Mach) (inp : FrameIn) : Mach :=
  let m1 := ((m.powerFrame inp.vin inp.power inp.temp).meterFrame.recorderFrame old).snapshotFrame old.stationary
  let m2 := [0, 1, 2, 3].foldl Mach.userDrawer m1
  ((m2.latchFrame old before).profileFrame.startFrame).writeDigests inp

/-- One frame. `before` is the module at the end of the frame before the last. -/
def Mach.frame (m before : Mach) (inp : FrameIn) : Mach :=
  (((((m.takeEcc inp).tickPhase m).freezePhase inp).positionPhase inp).computePhase inp m.fpos).recordPhase m before inp

/-- The read-only copies of the cabinet are refreshed in the frame in which the values take effect (08 R252, R264
step 4): `n` is the module after the freeze. -/
def Mach.refreshed (m n : Mach) : Mach :=
  if n.cab.gen == m.cab.gen then m
  else { m with
    params := withCabCells m.params (cabCells n.params)
    cab.gen := n.cab.gen
    cab.used := n.cab.used }

/-- FRAME_TICK (02 R36 to R41): the frame before delivers its outputs, and the next runs. Reads served in it see the
module as it stood at the end of the one before (01 R28), but for cabinet values that have just come into force. -/
def Mach.runFrame (m before : Mach) (inp : FrameIn) : Mach × Mach :=
  let n := m.frame before inp
  (n, m.refreshed n)

/-- After a finished state save the field controller goes on alone, without down-frames (15 R475). -/
def Mach.fieldAlone (m : Mach) : Mach := { m with time.frame := m.time.frame + 1 }.fieldTick

/-- FRAME_TICK. -/
def execFrameTick (inp : FrameIn) (s : State) : Res :=
  .next (if s.now.ticks then
      let r := s.now.deliver.runFrame s.shown inp
      { s with now := r.1, shown := r.2 }
    else if s.now.power.saveDone then { s with now := s.now.fieldAlone }
    else s)

end Sys2Proof.Machine
end

