-- ==== Sys2Proof/Machine/Dispatch.lean ====
section
/-!
DEFINITION. The meaning of each command: one arm per constructor of Instr.
-/
namespace Sys2Proof.Machine

open Sys2Proof

def exec (i : Instr) (s : State) : Host.Outcome State Fault Refusal :=
  match i with
  | .frameTick inp => Sys2Proof.Machine.execFrameTick inp s
  | .coreDiscord ap => Sys2Proof.Machine.execCoreDiscord ap s
  | .apEstDiscord ap => Sys2Proof.Machine.execApEstDiscord ap s
  | .tapeReaderLost r => Sys2Proof.Machine.execTapeReaderLost r s
  | .tapeReaderReinstated r => Sys2Proof.Machine.execTapeReaderReinstated r s
  | .tapePairDiscord => Sys2Proof.Machine.execTapePairDiscord s
  | .encFault cause => Sys2Proof.Machine.execEncFault cause s
  | .accFault cause => Sys2Proof.Machine.execAccFault cause s
  | .tractionSlip => Sys2Proof.Machine.execTractionSlip s
  | .learnRun tag => Sys2Proof.Machine.execLearnRun tag s
  | .learnRunComplete => Sys2Proof.Machine.execLearnRunComplete s
  | .home tag dir => Sys2Proof.Machine.execHome tag dir s
  | .homeComplete => Sys2Proof.Machine.execHomeComplete s
  | .positionRecovery p => Sys2Proof.Machine.execPositionRecovery p s
  | .recoveryTimeout p => Sys2Proof.Machine.execRecoveryTimeout p s
  | .engineStopEnd => Sys2Proof.Machine.execEngineStopEnd s
  | .drvStartTimeout => Sys2Proof.Machine.execDrvStartTimeout s
  | .planEnd => Sys2Proof.Machine.execPlanEnd s
  | .levelSettleEnd => Sys2Proof.Machine.execLevelSettleEnd s
  | .relevelStart => Sys2Proof.Machine.execRelevelStart s
  | .relevelTimeout => Sys2Proof.Machine.execRelevelTimeout s
  | .driveFeedback msg rx => Sys2Proof.Machine.execDriveFeedback msg rx s
  | .drvFbTimeout => Sys2Proof.Machine.execDrvFbTimeout s
  | .trackVel => Sys2Proof.Machine.execTrackVel s
  | .callAdd tag landing kind sides => Sys2Proof.Machine.execCallAdd tag landing kind sides s
  | .callCancel tag landing kind sides => Sys2Proof.Machine.execCallCancel tag landing kind sides s
  | .runTo tag landing sides => Sys2Proof.Machine.execRunTo tag landing sides s
  | .stopAtLanding tag => Sys2Proof.Machine.execStopAtLanding tag s
  | .stopImmediate tag => Sys2Proof.Machine.execStopImmediate tag s
  | .stopEmergencyRamp tag => Sys2Proof.Machine.execStopEmergencyRamp tag s
  | .groupAssign port msg => Sys2Proof.Machine.execGroupAssign port msg s
  | .groupWithdraw port msg => Sys2Proof.Machine.execGroupWithdraw port msg s
  | .groupHb port msg => Sys2Proof.Machine.execGroupHb port msg s
  | .groupLost => Sys2Proof.Machine.execGroupLost s
  | .parkDelayExpired => Sys2Proof.Machine.execParkDelayExpired s
  | .schedStall => Sys2Proof.Machine.execSchedStall s
  | .panelCallAdd port msg => Sys2Proof.Machine.execPanelCallAdd port msg s
  | .panelCallCancel port msg => Sys2Proof.Machine.execPanelCallCancel port msg s
  | .panelDoorOpen port msg => Sys2Proof.Machine.execPanelDoorOpen port msg s
  | .panelDoorClose port msg => Sys2Proof.Machine.execPanelDoorClose port msg s
  | .hallBtn port ident msg => Sys2Proof.Machine.execHallBtn port ident msg s
  | .indRefresh => Sys2Proof.Machine.execIndRefresh s
  | .doorCurrentLoopUpdate side inp => Sys2Proof.Machine.execDoorCurrentLoopUpdate side inp s
  | .bridgeTrip side cause => Sys2Proof.Machine.execBridgeTrip side cause s
  | .keBoundExceeded side => Sys2Proof.Machine.execKeBoundExceeded side s
  | .obstructionDetected side => Sys2Proof.Machine.execObstructionDetected side s
  | .finalApproachTimeout side => Sys2Proof.Machine.execFinalApproachTimeout side s
  | .doorTimeLimit side => Sys2Proof.Machine.execDoorTimeLimit side s
  | .doorOpen tag sides => Sys2Proof.Machine.execDoorOpen tag sides s
  | .doorClose tag sides => Sys2Proof.Machine.execDoorClose tag sides s
  | .doorHold tag sides => Sys2Proof.Machine.execDoorHold tag sides s
  | .doorNudge tag sides => Sys2Proof.Machine.execDoorNudge tag sides s
  | .doorLearn tag sides => Sys2Proof.Machine.execDoorLearn tag sides s
  | .doorLearnComplete side inp => Sys2Proof.Machine.execDoorLearnComplete side inp s
  | .dwellEnd side => Sys2Proof.Machine.execDwellEnd side s
  | .holdTimeout side => Sys2Proof.Machine.execHoldTimeout side s
  | .nudgeAutoStart side => Sys2Proof.Machine.execNudgeAutoStart side s
  | .doorBallastTimeout side => Sys2Proof.Machine.execDoorBallastTimeout side s
  | .doorStoppingComplete side => Sys2Proof.Machine.execDoorStoppingComplete side s
  | .currentOffsetCheck side u w => Sys2Proof.Machine.execCurrentOffsetCheck side u w s
  | .doorRecheck => Sys2Proof.Machine.execDoorRecheck s
  | .discrepancyTimeout core handle => Sys2Proof.Machine.execDiscrepancyTimeout core handle s
  | .resetEdge core => Sys2Proof.Machine.execResetEdge core s
  | .resetStuck core => Sys2Proof.Machine.execResetStuck core s
  | .lock port ident msg => Sys2Proof.Machine.execLock port ident msg s
  | .lockMsgTimeout landing => Sys2Proof.Machine.execLockMsgTimeout landing s
  | .lockSourceDisagree side => Sys2Proof.Machine.execLockSourceDisagree side s
  | .landingDoorAway => Sys2Proof.Machine.execLandingDoorAway s
  | .inspStopTimeout => Sys2Proof.Machine.execInspStopTimeout s
  | .contactorPullTimeout core group => Sys2Proof.Machine.execContactorPullTimeout core group s
  | .contactorDropTimeout core group => Sys2Proof.Machine.execContactorDropTimeout core group s
  | .brakeOpenTimeout core => Sys2Proof.Machine.execBrakeOpenTimeout core s
  | .brakeCloseTimeout core => Sys2Proof.Machine.execBrakeCloseTimeout core s
  | .tslSwitch core handle => Sys2Proof.Machine.execTslSwitch core handle s
  | .proofTest tag core => Sys2Proof.Machine.execProofTest tag core s
  | .proofAutoStart => Sys2Proof.Machine.execProofAutoStart s
  | .proofTestEnd => Sys2Proof.Machine.execProofTestEnd s
  | .proofRejoin => Sys2Proof.Machine.execProofRejoin s
  | .proofFailed => Sys2Proof.Machine.execProofFailed s
  | .proofOverdue core => Sys2Proof.Machine.execProofOverdue core s
  | .readmissionStart core => Sys2Proof.Machine.execReadmissionStart core s
  | .duplexExpired => Sys2Proof.Machine.execDuplexExpired s
  | .takeover => Sys2Proof.Machine.execTakeover s
  | .pairNoHolder => Sys2Proof.Machine.execPairNoHolder s
  | .snapshotComplete => Sys2Proof.Machine.execSnapshotComplete s
  | .standbyInSync => Sys2Proof.Machine.execStandbyInSync s
  | .apResetRelease ap => Sys2Proof.Machine.execApResetRelease ap s
  | .switchOver tag => Sys2Proof.Machine.execSwitchOver tag s
  | .switchBack tag => Sys2Proof.Machine.execSwitchBack tag s
  | .dualTxEnd => Sys2Proof.Machine.execDualTxEnd s
  | .clockGateEnd counts => Sys2Proof.Machine.execClockGateEnd counts s
  | .frameTickLost core => Sys2Proof.Machine.execFrameTickLost core s
  | .downFrame lt err => Sys2Proof.Machine.execDownFrame lt err s
  | .upFrame lt err => Sys2Proof.Machine.execUpFrame lt err s
  | .linkTimeout => Sys2Proof.Machine.execLinkTimeout s
  | .linkErrorRate up => Sys2Proof.Machine.execLinkErrorRate up s
  | .fieldConfigMismatch => Sys2Proof.Machine.execFieldConfigMismatch s
  | .supplyThreshold dom s1 s2 => Sys2Proof.Machine.execSupplyThreshold dom s1 s2 s
  | .domainWaitRearm dom => Sys2Proof.Machine.execDomainWaitRearm dom s
  | .inputDebounced ch level samples => Sys2Proof.Machine.execInputDebounced ch level samples s
  | .wireBreak ch samples => Sys2Proof.Machine.execWireBreak ch samples s
  | .testPulseEnd inp => Sys2Proof.Machine.execTestPulseEnd inp s
  | .outputLimit ch cause => Sys2Proof.Machine.execOutputLimit ch cause s
  | .outputRetry ch => Sys2Proof.Machine.execOutputRetry ch s
  | .groupOverload group ma us => Sys2Proof.Machine.execGroupOverload group ma us s
  | .shortToSupply ch ticks => Sys2Proof.Machine.execShortToSupply ch ticks s
  | .channelStoppingEnd ch => Sys2Proof.Machine.execChannelStoppingEnd ch s
  | .chConfig tag ch entries => Sys2Proof.Machine.execChConfig tag ch entries s
  | .chRead tag first count => Sys2Proof.Machine.execChRead tag first count s
  | .chWrite tag mask vals => Sys2Proof.Machine.execChWrite tag mask vals s
  | .groupRearm tag target => Sys2Proof.Machine.execGroupRearm tag target s
  | .benchSet tag ch on val => Sys2Proof.Machine.execBenchSet tag ch on val s
  | .benchEnd => Sys2Proof.Machine.execBenchEnd s
  | .busFrameReceived port frame => Sys2Proof.Machine.execBusFrameReceived port frame s
  | .busFrameSent port obj res => Sys2Proof.Machine.execBusFrameSent port obj res s
  | .ttWindowStart port cell => Sys2Proof.Machine.execTtWindowStart port cell s
  | .ttMissed port obj => Sys2Proof.Machine.execTtMissed port obj s
  | .timeReferenceReceived port frame => Sys2Proof.Machine.execTimeReferenceReceived port frame s
  | .timeSlaveLost port => Sys2Proof.Machine.execTimeSlaveLost port s
  | .busOffRecovered port runs => Sys2Proof.Machine.execBusOffRecovered port runs s
  | .transmitDominantTimeout port us => Sys2Proof.Machine.execTransmitDominantTimeout port us s
  | .bitTimingApply port => Sys2Proof.Machine.execBitTimingApply port s
  | .busWake port => Sys2Proof.Machine.execBusWake port s
  | .portStoppingEnd port sending => Sys2Proof.Machine.execPortStoppingEnd port sending s
  | .busConfig tag port flags entries => Sys2Proof.Machine.execBusConfig tag port flags entries s
  | .objBind tag port obj kind fmt ident fflags => Sys2Proof.Machine.execObjBind tag port obj kind fmt ident fflags s
  | .objUnbind tag port obj => Sys2Proof.Machine.execObjUnbind tag port obj s
  | .objRead tag port obj => Sys2Proof.Machine.execObjRead tag port obj s
  | .objSend tag port obj data => Sys2Proof.Machine.execObjSend tag port obj data s
  | .objCancel tag port obj sof => Sys2Proof.Machine.execObjCancel tag port obj sof s
  | .schedLoad tag port cells => Sys2Proof.Machine.execSchedLoad tag port cells s
  | .busSleep tag port flags => Sys2Proof.Machine.execBusSleep tag port flags s
  | .busWakeCommand tag port flags => Sys2Proof.Machine.execBusWakeCommand tag port flags s
  | .meterSample raw => Sys2Proof.Machine.execMeterSample raw s
  | .halfCycleValue inp => Sys2Proof.Machine.execHalfCycleValue inp s
  | .aggregationWindowEnd => Sys2Proof.Machine.execAggregationWindowEnd s
  | .freqWindowEnd => Sys2Proof.Machine.execFreqWindowEnd s
  | .hourRecord => Sys2Proof.Machine.execHourRecord s
  | .energySave => Sys2Proof.Machine.execEnergySave s
  | .offsetTracking means => Sys2Proof.Machine.execOffsetTracking means s
  | .calMeasure tag phase windows => Sys2Proof.Machine.execCalMeasure tag phase windows s
  | .calMeasureEnd => Sys2Proof.Machine.execCalMeasureEnd s
  | .calApply tag uref iref pref qref => Sys2Proof.Machine.execCalApply tag uref iref pref qref s
  | .meterConfig tag entries => Sys2Proof.Machine.execMeterConfig tag entries s
  | .meterRead tag => Sys2Proof.Machine.execMeterRead tag s
  | .energyRead tag => Sys2Proof.Machine.execEnergyRead tag s
  | .recordFlush bad => Sys2Proof.Machine.execRecordFlush bad s
  | .scrub addr flips => Sys2Proof.Machine.execScrub addr flips s
  | .cursorSet tag drawer index => Sys2Proof.Machine.execCursorSet tag drawer index s
  | .windowRead tag bad => Sys2Proof.Machine.execWindowRead tag bad s
  | .windowCopyRetry bad => Sys2Proof.Machine.execWindowCopyRetry bad s
  | .drawerInfo tag drawer => Sys2Proof.Machine.execDrawerInfo tag drawer s
  | .drawerClear tag drawer => Sys2Proof.Machine.execDrawerClear tag drawer s
  | .cabLogin tag slot pwd => Sys2Proof.Machine.execCabLogin tag slot pwd s
  | .loginVerified agree => Sys2Proof.Machine.execLoginVerified agree s
  | .cabLockoutEnd => Sys2Proof.Machine.execCabLockoutEnd s
  | .lockoutStateWrite => Sys2Proof.Machine.execLockoutStateWrite s
  | .cabLogout tag => Sys2Proof.Machine.execCabLogout tag s
  | .sessionExpired => Sys2Proof.Machine.execSessionExpired s
  | .cabStage tag entries => Sys2Proof.Machine.execCabStage tag entries s
  | .cabDiscard tag => Sys2Proof.Machine.execCabDiscard tag s
  | .cabCommit tag => Sys2Proof.Machine.execCabCommit tag s
  | .commitVerdicts delivered => Sys2Proof.Machine.execCommitVerdicts delivered s
  | .commitPoint => Sys2Proof.Machine.execCommitPoint s
  | .commitComplete => Sys2Proof.Machine.execCommitComplete s
  | .cabPassword tag slot pwd => Sys2Proof.Machine.execCabPassword tag slot pwd s
  | .passwordWritten agree => Sys2Proof.Machine.execPasswordWritten agree s
  | .cabLogRead tag first count => Sys2Proof.Machine.execCabLogRead tag first count s
  | .attest tag nonce => Sys2Proof.Machine.execAttest tag nonce s
  | .attestComplete => Sys2Proof.Machine.execAttestComplete s
  | .certGet tag index => Sys2Proof.Machine.execCertGet tag index s
  | .fwBegin tag kind len => Sys2Proof.Machine.execFwBegin tag kind len s
  | .fwChunk tag offset data => Sys2Proof.Machine.execFwChunk tag offset data s
  | .fwChunkWritten => Sys2Proof.Machine.execFwChunkWritten s
  | .fwCommit tag => Sys2Proof.Machine.execFwCommit tag s
  | .fwVerified => Sys2Proof.Machine.execFwVerified s
  | .fwTransferTimeout => Sys2Proof.Machine.execFwTransferTimeout s
  | .bootVerified target cores => Sys2Proof.Machine.execBootVerified target cores s
  | .pairStatus tag => Sys2Proof.Machine.execPairStatus tag s
  | .nop tag => Sys2Proof.Machine.execNop tag s
  | .ident tag => Sys2Proof.Machine.execIdent tag s
  | .status tag => Sys2Proof.Machine.execStatus tag s
  | .resetPort tag => Sys2Proof.Machine.execResetPort tag s
  | .resetModule tag => Sys2Proof.Machine.execResetModule tag s
  | .evtRead tag ack flags max => Sys2Proof.Machine.execEvtRead tag ack flags max s
  | .timeSet tag wall ref => Sys2Proof.Machine.execTimeSet tag wall ref s
  | .budgetSet tag policy mix => Sys2Proof.Machine.execBudgetSet tag policy mix s
  | .unitList tag first max => Sys2Proof.Machine.execUnitList tag first max s
  | .unitGet tag handle ids => Sys2Proof.Machine.execUnitGet tag handle ids s
  | .unitSet tag handle entries => Sys2Proof.Machine.execUnitSet tag handle entries s
  | .unitEnable tag handle => Sys2Proof.Machine.execUnitEnable tag handle s
  | .unitDisable tag handle => Sys2Proof.Machine.execUnitDisable tag handle s
  | .unitStoppingComplete handle => Sys2Proof.Machine.execUnitStoppingComplete handle s
  | .groupDefine tag handle kids => Sys2Proof.Machine.execGroupDefine tag handle kids s
  | .sleepPolicy tag entries => Sys2Proof.Machine.execSleepPolicy tag entries s
  | .powerRead tag => Sys2Proof.Machine.execPowerRead tag s
  | .hostTransaction mosi clocks => Sys2Proof.Machine.execHostTransaction mosi clocks s
  | .hostStall mosi idleUs => Sys2Proof.Machine.execHostStall mosi idleUs s
  | .replyReady eccFails => Sys2Proof.Machine.execReplyReady eccFails s
  | .keepaliveLost => Sys2Proof.Machine.execKeepaliveLost s
  | .resetN us => Sys2Proof.Machine.execResetN us s
  | .vinGood vin ms => Sys2Proof.Machine.execVinGood vin ms s
  | .powerFailWarning vin => Sys2Proof.Machine.execPowerFailWarning vin s
  | .stateSaveComplete us => Sys2Proof.Machine.execStateSaveComplete us s
  | .convertersOff vin => Sys2Proof.Machine.execConvertersOff vin s
  | .vinLow vin ms => Sys2Proof.Machine.execVinLow vin ms s
  | .vinHigh vin => Sys2Proof.Machine.execVinHigh vin s
  | .vinOvervolt vin ms => Sys2Proof.Machine.execVinOvervolt vin ms s
  | .restartAfterSave vin ms => Sys2Proof.Machine.execRestartAfterSave vin ms s
  | .scheduledWake => Sys2Proof.Machine.execScheduledWake s
  | .wake src => Sys2Proof.Machine.execWake src s
  | .startupStepComplete => Sys2Proof.Machine.execStartupStepComplete s
  | .startupDeadline => Sys2Proof.Machine.execStartupDeadline s
  | .tetherGrantFallback => Sys2Proof.Machine.execTetherGrantFallback s
  | .resetNRelease => Sys2Proof.Machine.execResetNRelease s
  | .busReceiveError port inc => Sys2Proof.Machine.execBusReceiveError port inc s
  | .elevenRecessiveBits port => Sys2Proof.Machine.execElevenRecessiveBits port s
  | .sensorSupplyOff out ms => Sys2Proof.Machine.execSensorSupplyOff out ms s
  | .sensorSupplyOn out => Sys2Proof.Machine.execSensorSupplyOn out s
  | .railFault bad => Sys2Proof.Machine.execRailFault bad s
  | .logicTempThreshold temp => Sys2Proof.Machine.execLogicTempThreshold temp s
  | .vinFaultEnd vin ms => Sys2Proof.Machine.execVinFaultEnd vin ms s
  | .transceiverOvertemp port => Sys2Proof.Machine.execTransceiverOvertemp port s

end Sys2Proof.Machine
end

