-- ==== Sys2Proof/Safety.lean ====
section
/-!
DEFINITION. What claims about the block speak of: the completion of a command, the answer of a host
command, the parts of the module a claim leaves unchanged, the packet a host sends, the canonical form of
the MRAM as an invariant of the whole state, and a safe step.
-/
namespace Sys2Proof.Machine

open Sys2Proof

/-- The MRAM of the module is in its canonical form, now and in the view that reads are served from
(01 R28; 13 R435). -/
def State.Inv (s : State) : Prop := Memory.wf s.now.mram = true ∧ Memory.wf s.shown.mram = true

/-- A step is safe when it ends in a next state: the only stop of this model is SCRUB of an address that
does not exist. -/
def safeStep (s : State) : Prop := ∃ t, step s = .next t

/-- The command completes on `s` and leaves the module as `m`; the queue and the view that reads are served
from stay as they are. -/
def Does (c : Instr) (s : State) (m : Mach) : Prop := exec c s = .next { s with now := m }

/-- In this frame the host port serves a command of this opcode (14 R453, R454). -/
def Serves (s : State) (op : Nat) : Prop := s.now.serves? = true ∧ s.now.admits op = true

/-- The command completes with the module `m`, whose reply has this opcode, tag, status and payload
(14 R449). -/
def Answers (c : Instr) (s : State) (op tag status : Nat) (payload : List Nat) (m : Mach) : Prop :=
  Does c s (m.reply op tag status payload)

/-- The parts of the module. -/
inductive Part where
  | time | params | deferred | faults | units | enables | groups | groupsNext | ecc | mram | mramBad | pos | eng | sched | doors | safe | cab | triad | pair | link | field | bus | meter | rcd | host | power | sec | start | free
  deriving DecidableEq, Repr

/-- The two modules agree in this part. -/
def Part.same (p : Part) (m n : Mach) : Prop :=
  match p with
  | .time => m.time = n.time
  | .params => m.params = n.params
  | .deferred => m.deferred = n.deferred
  | .faults => m.faults = n.faults
  | .units => m.units = n.units
  | .enables => m.enables = n.enables
  | .groups => m.groups = n.groups
  | .groupsNext => m.groupsNext = n.groupsNext
  | .ecc => m.ecc = n.ecc
  | .mram => m.mram = n.mram
  | .mramBad => m.mramBad = n.mramBad
  | .pos => m.pos = n.pos
  | .eng => m.eng = n.eng
  | .sched => m.sched = n.sched
  | .doors => m.doors = n.doors
  | .safe => m.safe = n.safe
  | .cab => m.cab = n.cab
  | .triad => m.triad = n.triad
  | .pair => m.pair = n.pair
  | .link => m.link = n.link
  | .field => m.field = n.field
  | .bus => m.bus = n.bus
  | .meter => m.meter = n.meter
  | .rcd => m.rcd = n.rcd
  | .host => m.host = n.host
  | .power => m.power = n.power
  | .sec => m.sec = n.sec
  | .start => m.start = n.start
  | .free => m.free = n.free

/-- The two modules agree in every part outside `l`. -/
def changesOnly (l : List Part) (m n : Mach) : Prop := ∀ p : Part, p ∉ l → p.same m n

/-- The opcode and tag of a row that the host port serves (14 R460); none for every other row. -/
def hostCommand : Instr → Option (Nat × Nat)
  | .frameTick _ => none
  | .coreDiscord _ => none
  | .apEstDiscord _ => none
  | .tapeReaderLost _ => none
  | .tapeReaderReinstated _ => none
  | .tapePairDiscord => none
  | .encFault _ => none
  | .accFault _ => none
  | .tractionSlip => none
  | .learnRun tag => some (0x24, tag)
  | .learnRunComplete => none
  | .home tag _ => some (0x25, tag)
  | .homeComplete => none
  | .positionRecovery _ => none
  | .recoveryTimeout _ => none
  | .engineStopEnd => none
  | .drvStartTimeout => none
  | .planEnd => none
  | .levelSettleEnd => none
  | .relevelStart => none
  | .relevelTimeout => none
  | .driveFeedback _ _ => none
  | .drvFbTimeout => none
  | .trackVel => none
  | .callAdd tag _ _ _ => some (0x20, tag)
  | .callCancel tag _ _ _ => some (0x21, tag)
  | .runTo tag _ _ => some (0x22, tag)
  | .stopAtLanding tag => some (0x23, tag)
  | .stopImmediate tag => some (0x23, tag)
  | .stopEmergencyRamp tag => some (0x23, tag)
  | .groupAssign _ _ => none
  | .groupWithdraw _ _ => none
  | .groupHb _ _ => none
  | .groupLost => none
  | .parkDelayExpired => none
  | .schedStall => none
  | .panelCallAdd _ _ => none
  | .panelCallCancel _ _ => none
  | .panelDoorOpen _ _ => none
  | .panelDoorClose _ _ => none
  | .hallBtn _ _ _ => none
  | .indRefresh => none
  | .doorCurrentLoopUpdate _ _ => none
  | .bridgeTrip _ _ => none
  | .keBoundExceeded _ => none
  | .obstructionDetected _ => none
  | .finalApproachTimeout _ => none
  | .doorTimeLimit _ => none
  | .doorOpen tag _ => some (0x30, tag)
  | .doorClose tag _ => some (0x31, tag)
  | .doorHold tag _ => some (0x32, tag)
  | .doorNudge tag _ => some (0x33, tag)
  | .doorLearn tag _ => some (0x34, tag)
  | .doorLearnComplete _ _ => none
  | .dwellEnd _ => none
  | .holdTimeout _ => none
  | .nudgeAutoStart _ => none
  | .doorBallastTimeout _ => none
  | .doorStoppingComplete _ => none
  | .currentOffsetCheck _ _ _ => none
  | .doorRecheck => none
  | .discrepancyTimeout _ _ => none
  | .resetEdge _ => none
  | .resetStuck _ => none
  | .lock _ _ _ => none
  | .lockMsgTimeout _ => none
  | .lockSourceDisagree _ => none
  | .landingDoorAway => none
  | .inspStopTimeout => none
  | .contactorPullTimeout _ _ => none
  | .contactorDropTimeout _ _ => none
  | .brakeOpenTimeout _ => none
  | .brakeCloseTimeout _ => none
  | .tslSwitch _ _ => none
  | .proofTest tag _ => some (0xA3, tag)
  | .proofAutoStart => none
  | .proofTestEnd => none
  | .proofRejoin => none
  | .proofFailed => none
  | .proofOverdue _ => none
  | .readmissionStart _ => none
  | .duplexExpired => none
  | .takeover => none
  | .pairNoHolder => none
  | .snapshotComplete => none
  | .standbyInSync => none
  | .apResetRelease _ => none
  | .switchOver tag => some (0xA1, tag)
  | .switchBack tag => some (0xA2, tag)
  | .dualTxEnd => none
  | .clockGateEnd _ => none
  | .frameTickLost _ => none
  | .downFrame _ _ => none
  | .upFrame _ _ => none
  | .linkTimeout => none
  | .linkErrorRate _ => none
  | .fieldConfigMismatch => none
  | .supplyThreshold _ _ _ => none
  | .domainWaitRearm _ => none
  | .inputDebounced _ _ _ => none
  | .wireBreak _ _ => none
  | .testPulseEnd _ => none
  | .outputLimit _ _ => none
  | .outputRetry _ => none
  | .groupOverload _ _ _ => none
  | .shortToSupply _ _ => none
  | .channelStoppingEnd _ => none
  | .chConfig tag _ _ => some (0x40, tag)
  | .chRead tag _ _ => some (0x41, tag)
  | .chWrite tag _ _ => some (0x42, tag)
  | .groupRearm tag _ => some (0x43, tag)
  | .benchSet tag _ _ _ => some (0x44, tag)
  | .benchEnd => none
  | .busFrameReceived _ _ => none
  | .busFrameSent _ _ _ => none
  | .ttWindowStart _ _ => none
  | .ttMissed _ _ => none
  | .timeReferenceReceived _ _ => none
  | .timeSlaveLost _ => none
  | .busOffRecovered _ _ => none
  | .transmitDominantTimeout _ _ => none
  | .bitTimingApply _ => none
  | .busWake _ => none
  | .portStoppingEnd _ _ => none
  | .busConfig tag _ _ _ => some (0x50, tag)
  | .objBind tag _ _ _ _ _ _ => some (0x51, tag)
  | .objUnbind tag _ _ => some (0x51, tag)
  | .objRead tag _ _ => some (0x51, tag)
  | .objSend tag _ _ _ => some (0x52, tag)
  | .objCancel tag _ _ _ => some (0x53, tag)
  | .schedLoad tag _ _ => some (0x54, tag)
  | .busSleep tag _ _ => some (0x55, tag)
  | .busWakeCommand tag _ _ => some (0x55, tag)
  | .meterSample _ => none
  | .halfCycleValue _ => none
  | .aggregationWindowEnd => none
  | .freqWindowEnd => none
  | .hourRecord => none
  | .energySave => none
  | .offsetTracking _ => none
  | .calMeasure tag _ _ => some (0x63, tag)
  | .calMeasureEnd => none
  | .calApply tag _ _ _ _ => some (0x63, tag)
  | .meterConfig tag _ => some (0x60, tag)
  | .meterRead tag => some (0x61, tag)
  | .energyRead tag => some (0x62, tag)
  | .recordFlush _ => none
  | .scrub _ _ => none
  | .cursorSet tag _ _ => some (0x70, tag)
  | .windowRead tag _ => some (0x71, tag)
  | .windowCopyRetry _ => none
  | .drawerInfo tag _ => some (0x72, tag)
  | .drawerClear tag _ => some (0x73, tag)
  | .cabLogin tag _ _ => some (0x80, tag)
  | .loginVerified _ => none
  | .cabLockoutEnd => none
  | .lockoutStateWrite => none
  | .cabLogout tag => some (0x81, tag)
  | .sessionExpired => none
  | .cabStage tag _ => some (0x82, tag)
  | .cabDiscard tag => some (0x84, tag)
  | .cabCommit tag => some (0x83, tag)
  | .commitVerdicts _ => none
  | .commitPoint => none
  | .commitComplete => none
  | .cabPassword tag _ _ => some (0x86, tag)
  | .passwordWritten _ => none
  | .cabLogRead tag _ _ => some (0x85, tag)
  | .attest tag _ => some (0x90, tag)
  | .attestComplete => none
  | .certGet tag _ => some (0x91, tag)
  | .fwBegin tag _ _ => some (0x92, tag)
  | .fwChunk tag _ _ => some (0x93, tag)
  | .fwChunkWritten => none
  | .fwCommit tag => some (0x94, tag)
  | .fwVerified => none
  | .fwTransferTimeout => none
  | .bootVerified _ _ => none
  | .pairStatus tag => some (0xA0, tag)
  | .nop tag => some (0x00, tag)
  | .ident tag => some (0x01, tag)
  | .status tag => some (0x02, tag)
  | .resetPort tag => some (0x03, tag)
  | .resetModule tag => some (0x03, tag)
  | .evtRead tag _ _ _ => some (0x04, tag)
  | .timeSet tag _ _ => some (0x05, tag)
  | .budgetSet tag _ _ => some (0x06, tag)
  | .unitList tag _ _ => some (0x10, tag)
  | .unitGet tag _ _ => some (0x11, tag)
  | .unitSet tag _ _ => some (0x12, tag)
  | .unitEnable tag _ => some (0x13, tag)
  | .unitDisable tag _ => some (0x14, tag)
  | .unitStoppingComplete _ => none
  | .groupDefine tag _ _ => some (0x15, tag)
  | .sleepPolicy tag _ => some (0xB0, tag)
  | .powerRead tag => some (0xB1, tag)
  | .hostTransaction _ _ => none
  | .hostStall _ _ => none
  | .replyReady _ => none
  | .keepaliveLost => none
  | .resetN _ => none
  | .vinGood _ _ => none
  | .powerFailWarning _ => none
  | .stateSaveComplete _ => none
  | .convertersOff _ => none
  | .vinLow _ _ => none
  | .vinHigh _ => none
  | .vinOvervolt _ _ => none
  | .restartAfterSave _ _ => none
  | .scheduledWake => none
  | .wake _ => none
  | .startupStepComplete => none
  | .startupDeadline => none
  | .tetherGrantFallback => none
  | .resetNRelease => none
  | .busReceiveError _ _ => none
  | .elevenRecessiveBits _ => none
  | .sensorSupplyOff _ _ => none
  | .sensorSupplyOn _ => none
  | .railFault _ => none
  | .logicTempThreshold _ => none
  | .vinFaultEnd _ _ => none
  | .transceiverOvertemp _ => none

/-- The packet of a command as a host sends it: SYNC, opcode, tag, FLAGS, LEN, payload and CRC-32C
(14 R448). -/
def hostPacket (op tag flags : Nat) (p : List Nat) : List Nat :=
  let b := [0xA5, op, tag, flags] ++ le 2 p.length ++ p
  b ++ le 4 (crc32c b)

end Sys2Proof.Machine
end

