-- ==== Sys2Proof/Certificates/Slice0/Obligations.lean ====
section
/-!
DEFINITION. The statements of this model, each of them about every state and every operand that meets its
hypotheses. `Does c s m`: the command c completes on s and leaves the module as m. `Answers c s op tag st p m`:
it completes with the module m and prepares the reply with this opcode, tag, status and payload.
`Serves s op`: the port serves a command of this opcode in this frame.
-/

open Sys2Proof Sys2Proof.Machine

/-- A step runs the command at the front of the queue, and idles without one.
For every command c and state s, the step of s with c at the front of its queue is exec of c on s with the
queue's rest. (The queue of waiting commands is the model's own, notes/assumptions/1.md.) With no command
waiting a step changes nothing: time passes by FRAME_TICK alone (the model's choice, notes/assumptions/1.md). -/
def Obligations.StepRunsFrontOfQueue : Prop :=
  (∀ (s : State) (c : Instr) (rest : List Instr),
     s.pending = c :: rest → step s = exec c { s with pending := rest })
  ∧ (∀ s : State, s.pending = [] → step s = .next s)

/-- No command touches the queue, and only FRAME_TICK renews the view that reads are served from.
Whatever command runs, when it answers a next state the queue is as it was; the view that reads are served
from (the state at the end of the frame before) is as it was too, unless the command is FRAME_TICK, after
which it is either as it was or the module at the end of the frame before with that frame's outputs delivered,
showing the cabinet's values where they have just come into force. -/
def Obligations.QueueAndViewKept : Prop :=
  ∀ (c : Instr) (s t : State), exec c s = .next t →
    t.pending = s.pending ∧ (t.shown = s.shown ∨ ((∃ inp, c = .frameTick inp) ∧ t.shown = s.now.deliver.refreshed t.now))

/-- Every command completes on every state, SCRUB of an absent word apart.
On every state and for every operand exec answers a next state, except SCRUB of an address that is not a word
of the 4 MiB MRAM, which ends in the fault noSuchAddress; nothing is refused. -/
def Obligations.OnlyScrubStops : Prop :=
  ∀ (c : Instr) (s : State),
    (∃ t, exec c s = .next t) ∨
    (∃ addr flips, c = .scrub addr flips ∧ (0x400000 ≤ addr ∨ addr % 8 ≠ 0) ∧ exec c s = .fault .noSuchAddress)

/-- The state at reset, and the canonical form of its MRAM.
At reset no command waits, the module is unpowered and waits for VIN good, no frame has been run, no fault is
in force, nothing is listed in the MRAM, the event queue is empty and no reply is held; the view that reads
are served from is that same module. (Reset values that the manual does not give are the model's,
notes/assumptions/2.md.) The invariant of the MRAM (rising addresses inside 4 MiB, no cell equal to the blank
byte, which is the model's choice of notes/assumptions/4.md) holds of the reset state. -/
def Obligations.ResetIsUnpowered : Prop :=
  (State.reset.pending = [] ∧ State.reset.shown = State.reset.now
     ∧ State.reset.now.power.on = false ∧ State.reset.now.start.waiting = true ∧ State.reset.now.start.ready = false
     ∧ State.reset.now.time.frame = 0 ∧ State.reset.now.time.running = false
     ∧ State.reset.now.faults = [] ∧ State.reset.now.mram = []
     ∧ State.reset.now.host.queue = [] ∧ State.reset.now.host.held = none
     ∧ State.reset.now.host.serving = false)
  ∧ (State.reset.Inv)

/-- Every step keeps the MRAM in its canonical form.
For every state whose MRAM, and the MRAM of the view that reads are served from, is in canonical form (rising
addresses inside 4 MiB, no listed cell equal to the blank byte), and whatever command is at the front of its
queue, a step that answers a next state keeps that form. Equal memories are therefore equal data after any
run. -/
def Obligations.StepKeepsInvariant : Prop :=
  ∀ s t : State, s.Inv → step s = .next t → t.Inv

/-- An MRAM byte reads as last written, and every other byte as before.
For a canonical memory and bytes written inside the 4 MiB of the MRAM, each of their addresses reads the byte
written to it and every other address reads as before the write; the canonical form holds after it. -/
def Obligations.MramReadAfterWrite : Prop :=
  ∀ (l : List (Nat × BitVec 8)) (a : Nat) (bs : List Nat), Memory.wf l = true → a + bs.length ≤ 0x400000 →
    Memory.wf (Memory.writeBytes l a bs) = true ∧
    ∀ x, Memory.read (Memory.writeBytes l a bs) x
      = if a ≤ x ∧ x < a + bs.length then BitVec.ofNat 8 (bs.getD (x - a) 0) else Memory.read l x

/-- A record written is read back with its payload and sequence number.
On a canonical MRAM, a record of 52 payload bytes written inside it (mark cleared, then bytes 0 to 59, then
the mark 0xC3A5_5A3C, each CRC over address, payload and sequence number) reads back with that payload and
sequence number, and every byte outside its 64 reads as before. CRC-32C values fit 32 bits. -/
def Obligations.RecordRoundTrip : Prop :=
  ∀ (m : Mach) (a seq : Nat) (p : List Nat), Memory.wf m.mram = true → a + 64 ≤ 0x400000 →
    p.length = 52 → (∀ b ∈ p, b < 256) → seq < 2 ^ 32 →
    (m.writeRecord a p seq).readRecord a = some (p, seq) ∧
    ∀ x, (x < a ∨ a + 64 ≤ x) → Memory.read (m.writeRecord a p seq).mram x = Memory.read m.mram x

/-- Frame count, boot count, rollback counter and credentials change only by their own commands.
The frame count (unwrapped) is left as it is by every command other than FRAME_TICK, RESET_N,
RESTART_AFTER_SAVE, and the loss of supply in CONVERTERS_OFF and STATE_SAVE_COMPLETE; FRAME_TICK leaves it or
advances it by one. The boot count is left as it is by every command other than the three that begin a start
of the module (VIN_GOOD, RESET_N_RELEASE, RESTART_AFTER_SAVE); those leave it or advance it by one, modulo
2^32. The rollback counter of the secure element is left as it is by every command other than
STARTUP_STEP_COMPLETE (READY) and BOOT_VERIFIED (the end of an installation), and those never lower it. The
credential records of the four slots are left as they are by every command other than PASSWORD_WRITTEN and the
commands through which step 4 of start-up reads the state blocks (STARTUP_STEP_COMPLETE, FRAME_TICK and
COMMIT_COMPLETE, by which start-up resumes). -/
def Obligations.CountersChangeOnlyByTheirEvents : Prop :=
  (∀ (c : Instr) (s t : State), exec c s = .next t →
     t.now.time.frame = s.now.time.frame
     ∨ (∃ inp, c = .frameTick inp ∧ t.now.time.frame = s.now.time.frame + 1)
     ∨ (∃ us, c = .resetN us) ∨ (∃ v ms, c = .restartAfterSave v ms)
     ∨ (∃ v, c = .convertersOff v) ∨ (∃ us, c = .stateSaveComplete us))
  ∧ (∀ (c : Instr) (s t : State), exec c s = .next t →
     t.now.sec.boots = s.now.sec.boots
     ∨ ((∃ v ms, c = .vinGood v ms) ∨ c = .resetNRelease ∨ (∃ v ms, c = .restartAfterSave v ms))
       ∧ t.now.sec.boots = (s.now.sec.boots + 1) % 2 ^ 32)
  ∧ (∀ (c : Instr) (s t : State), exec c s = .next t →
     t.now.sec.rollback = s.now.sec.rollback
     ∨ (c = .startupStepComplete ∨ ∃ tg cores, c = .bootVerified tg cores) ∧ s.now.sec.rollback ≤ t.now.sec.rollback)
  ∧ (∀ (c : Instr) (s t : State), exec c s = .next t →
     t.now.cab.creds = s.now.cab.creds ∨ (∃ a, c = .passwordWritten a)
     ∨ c = .startupStepComplete ∨ c = .commitComplete ∨ (∃ inp, c = .frameTick inp))

/-- Raising a fault holds it in force, and ending it ends it alone.
Raising a fault that is not in force puts it in force with its class at this frame, keeps every fault that was
in force, posts a FAULT event with its class, unit, code and first context, and makes the reaction class at
least its own; it changes nothing outside the faults, the unit cells, the scheduler, the motion engine, the
host port, the recorder and the benches of the link. Raising one already in force changes nothing. Ending a
fault takes it out of force and leaves every other fault as it was, posting a FAULT_ENDED event where EVT_MASK
enables it; it changes nothing but the faults and the host port, and nothing at all when the fault is not in
force. -/
def Obligations.FaultsRaiseAndEnd : Prop :=
  (∀ (m : Mach) (unit code cls c1 c2 : Nat),
     (m.inForce unit code = true → m.raise unit code cls c1 c2 = m) ∧
     (m.inForce unit code = false →
       let n := m.raise unit code cls c1 c2
       (⟨unit, code, cls, m.time.frame, 0⟩ : FaultRec) ∈ n.faults
       ∧ (∀ f ∈ m.faults, f ∈ n.faults)
       ∧ (∃ e ∈ n.host.posted, e.kind = 1 ∧ e.detail = cls ∧ e.unit = unit ∧ e.code = code ∧ e.data = c1 % 2 ^ 32)
       ∧ max m.topClass (cls + 1) ≤ n.topClass
       ∧ changesOnly [.faults, .units, .sched, .eng, .host, .rcd, .link] m n))
  ∧ (∀ (m : Mach) (unit code : Nat),
     (m.inForce unit code = false → m.endFault unit code = m) ∧
     ((m.endFault unit code).inForce unit code = false)
     ∧ (∀ u c, (u ≠ unit ∨ c ≠ code) → (m.endFault unit code).inForce u c = m.inForce u c)
     ∧ changesOnly [.faults, .host] m (m.endFault unit code))

/-- Events are posted by kind, and a command prepares one reply with its flags.
Posting an event of kind FAULT, COMPLETED or OVERFLOW, or of a kind whose bit of EVT_MASK is set, appends an
entry with its kind, detail, unit, code, data and the low 32 bits of the timestamp to the events of this
frame; a kind that is not enabled posts nothing; nothing else changes. COMPLETED carries the final status, and
the opcode and tag of its command. The reply of a command carries its opcode, tag, status and payload with the
flags and the event count of the module as it then stands; it is prepared in this frame, HBSY is high, the
packet taken for service is done with, and HOST_PACKETS counts it where its status is 0x00 or 0x01; nothing
outside the host port changes. RFLAGS bit 0 is set while the reply before was lost, bit 1 while the event
queue holds an OVERFLOW entry, bit 2 before READY, and no higher bit is set by it. -/
def Obligations.EventsAndRepliesPrepared : Prop :=
  (∀ (m : Mach) (kind detail unit code data : Nat),
     ((kind = 1 ∨ kind = 3 ∨ kind = 0xC ∨ bit (m.nat pEVT_MASK) kind = true) →
       m.post kind detail unit code data
         = { m with host.posted := m.host.posted ++ [⟨0, kind, detail, unit, code, data % 2 ^ 32, m.ts % 2 ^ 32⟩] })
     ∧ (kind ≠ 1 → kind ≠ 3 → kind ≠ 0xC → bit (m.nat pEVT_MASK) kind = false → m.post kind detail unit code data = m)
     ∧ (∀ op tag status, m.completed op tag status unit data
         = { m with host.posted := m.host.posted ++ [⟨0, 3, status, unit, op + 256 * tag, data % 2 ^ 32, m.ts % 2 ^ 32⟩] }))
  ∧ (∀ (m : Mach) (op tag st : Nat) (p : List Nat),
     (m.reply op tag st p).host.prep = some ⟨op, tag, st, m.rflags, min 255 m.host.queue.length, p⟩
     ∧ (m.reply op tag st p).host.prepAt = m.time.frame ∧ (m.reply op tag st p).host.hbsy = true
     ∧ (m.reply op tag st p).host.taken = none
     ∧ (m.reply op tag st p).host.packets = (if st ≤ 1 then sat32 m.host.packets else m.host.packets)
     ∧ changesOnly [.host] m (m.reply op tag st p))
  ∧ (∀ m : Mach, bit m.rflags 0 = m.host.prevLost ∧ bit m.rflags 1 = m.host.queue.any (fun e => e.kind == 0xC)
     ∧ bit m.rflags 2 = !m.start.ready ∧ m.rflags < 8)

/-- An event entry is laid out in 16 bytes.
An entry whose fields fit their types is sent as 16 bytes: EVSEQ in bytes 0 and 1, KIND in byte 2, DETAIL in
byte 3, UNIT in bytes 4 and 5, CODE in bytes 6 and 7, DATA in bytes 8 to 11 and TIME in bytes 12 to 15, each
least significant byte first. TIME is the low 32 bits that posting stored, which is below 2^32. -/
def Obligations.EventEntryBytes : Prop :=
  ∀ e : EvtRec, e.seq < 2 ^ 16 → e.kind < 2 ^ 8 → e.detail < 2 ^ 8 → e.unit < 2 ^ 16 → e.code < 2 ^ 16
    → e.data < 2 ^ 32 → e.time < 2 ^ 32 →
    let b := evtBytes e
    b.length = 16 ∧ leAt b 0 2 = e.seq ∧ nth b 2 0 = e.kind ∧ nth b 3 0 = e.detail ∧ leAt b 4 2 = e.unit
    ∧ leAt b 6 2 = e.code ∧ leAt b 8 4 = e.data ∧ leAt b 12 4 = e.time ∧ ∀ x ∈ b, x < 256

/-- Every host command served is answered once, with its own opcode and tag.
In a frame that serves the port, a host command that is admitted completes and prepares exactly one reply,
which carries its opcode and tag; a WINDOW_READ whose first copy attempt fails is the exception, whose window
stays pending instead. -/
def Obligations.HostCommandAnswered : Prop :=
  ∀ (c : Instr) (s : State) (op tag : Nat), hostCommand c = some (op, tag) →
    s.now.serves? = true → s.now.admits op = true →
    ∃ t, exec c s = .next t ∧
      ((∃ st fl n p, t.now.host.prep = some ⟨op, tag, st, fl, n, p⟩) ∨ (op = 0x71 ∧ t.now.rcd.win.isSome = true))
      ∧ t.now.host.hbsy = true ∧ t.now.host.taken = none

/-- A host command outside service has no effect.
Outside a serving frame (the port not yet up, the module in PARK or in a state save, or a frame of ballast
hold) a host command changes nothing; in a serving frame before READY an opcode that is not served early is
answered 0x22 WRONG_MODE with an empty payload, and the command has no other effect. (A command's arrival is
the model's evidence, notes/assumptions/3.md.) -/
def Obligations.HostCommandOutsideService : Prop :=
  ∀ (c : Instr) (s : State) (op tag : Nat), hostCommand c = some (op, tag) →
    (s.now.serves? = false → exec c s = .next s) ∧
    (s.now.serves? = true → s.now.admits op = false → Answers c s op tag 0x22 [] s.now)

/-- A well-formed packet is judged as the command it carries.
A packet of an opcode of R460 with FLAGS zero, its tag, the length of its payload, the payload and its
CRC-32C, each field least significant byte first, is judged as that opcode, tag and payload, whatever filler
follows it, when the payload fits the layout of the opcode; where it does not, it is refused 0x11; with an
opcode that R460 does not hold 0x12, with FLAGS not zero 0x13. With a double-bit error in its buffer it is
refused 0x10. -/
def Obligations.PacketRoundTrip : Prop :=
  ∀ (op tag flags : Nat) (ecc : Ecc) (p f : List Nat), op < 256 → tag < 256 → flags < 256 → p.length ≤ 4096 → (∀ x ∈ p, x < 256) →
    (ecc = .double → judge ecc (hostPacket op tag flags p ++ f) = .refused op tag 0x10) ∧ (ecc ≠ .double →
    (flags = 0 → opcodeKnown op = true → layoutOk op p = true → judge ecc (hostPacket op tag flags p ++ f) = .packet op tag p)
    ∧ (flags = 0 → opcodeKnown op = true → layoutOk op p = false → judge ecc (hostPacket op tag flags p ++ f) = .refused op tag 0x11)
    ∧ (flags = 0 → opcodeKnown op = false → judge ecc (hostPacket op tag flags p ++ f) = .refused op tag 0x12)
    ∧ (flags ≠ 0 → judge ecc (hostPacket op tag flags p ++ f) = .refused op tag 0x13))

/-- Transactions are judged, replies released, and a lost keep-alive reported.
HOST_TRANSACTION with clocks or bytes: the first after a stall ends the stall and is to be answered 0x14.
Otherwise, with HBSY high, it is ignored and counted, 0xC3 on MISO. With HBSY low a packet that passes the
checks is taken for service, or, with a STOP mode or RESET kind that has no meaning, is to be answered 0x13;
one that fails a check is to be answered with its refusal; either raises HBSY. Bytes that are no packet take
nothing. MISO begins with 0x5A where a reply is held, else 0x3C. HOST_STALL, 2 ms without an edge inside a
packet with HBSY low: counted, stalled, HBSY high. REPLY_READY, at its time, a single-bit error in its memory
counted: the prepared reply becomes the held one, HBSY falling outside PARK and a state save that is not that
of RESET. Read back without an error it is counted, and 0xB3 ends at 1000 in a row; with one failed read-back
the count begins anew; with two it is held as 0x23 without payload and 0xB3 F1 is raised. KEEPALIVE_LOST, the
timer on and run out: it stops, 0xB1 is raised with F3 in mode HOST and F1 in the others, event 13 is posted,
and the session ends with cause 2. -/
def Obligations.TransactionsRepliesAndKeepalive : Prop :=
  ((∀ (s : State) (b : List Nat) (n : Nat) (ecc : Ecc), (n ≠ 0 ∨ b ≠ []) → s.now.host.stalled = false → s.now.host.hbsy = true →
       Does (.hostTransaction ⟨b, ecc⟩ n) s { s.now with host.miso := 0xC3, host.ignored := sat32 s.now.host.ignored })
   ∧ (∀ (s : State) (b : List Nat) (n : Nat) (ecc : Ecc), (n ≠ 0 ∨ b ≠ []) → s.now.host.stalled = true →
       Does (.hostTransaction ⟨b, ecc⟩ n) s ((({ s.now with host.stalled := false } : Mach).heldAfter n true).refusePacket
         s.now.host.stallHdr.1 s.now.host.stallHdr.2 0x14))
   ∧ (∀ (s : State) (b : List Nat) (n op tag : Nat) (ecc : Ecc) (p : List Nat), (n ≠ 0 ∨ b ≠ []) → s.now.host.stalled = false →
       s.now.host.hbsy = false → judge ecc b = .packet op tag p →
       ∃ t, exec (.hostTransaction ⟨b, ecc⟩ n) s = .next t
         ∧ t.now.host.hbsy = true ∧ t.now.host.takenAt = s.now.time.frame ∧ t.now.host.packets = s.now.host.packets
         ∧ t.now.host.miso = (if s.now.host.held.isSome then 0x5A else 0x3C)
         ∧ (noSuchKind op p = false → t.now.host.taken = some ⟨op, tag, p⟩ ∧ t.now.host.refused = s.now.host.refused)
         ∧ (noSuchKind op p = true → t.now.host.taken = s.now.host.taken ∧ t.now.host.refused = some (op, tag, 0x13)))
   ∧ (∀ (s : State) (b : List Nat) (n op tag st : Nat) (ecc : Ecc), (n ≠ 0 ∨ b ≠ []) → s.now.host.stalled = false →
       s.now.host.hbsy = false → judge ecc b = .refused op tag st →
       ∃ t, exec (.hostTransaction ⟨b, ecc⟩ n) s = .next t ∧ t.now.host.refused = some (op, tag, st) ∧ t.now.host.hbsy = true
         ∧ t.now.host.taken = s.now.host.taken)
   ∧ (∀ (s : State) (b : List Nat) (n : Nat) (ecc : Ecc), (n ≠ 0 ∨ b ≠ []) → s.now.host.stalled = false → s.now.host.hbsy = false →
       judge ecc b = .nothing →
       ∃ t, exec (.hostTransaction ⟨b, ecc⟩ n) s = .next t ∧ t.now.host.hbsy = false ∧ t.now.host.taken = s.now.host.taken
         ∧ t.now.host.refused = s.now.host.refused)
   ∧ (∀ (s : State) (b : List Nat) (us : Nat), 2000 ≤ us → packetOpen b = true → s.now.host.hbsy = false → s.now.host.stalled = false →
       Does (.hostStall b us) s { s.now with
         host.miso := if s.now.host.held.isSome then 0x5A else 0x3C
         host.stalls := sat32 s.now.host.stalls
         host.stalled := true
         host.stallHdr := (nth b 1 0xFF, nth b 2 0)
         host.hbsy := true }))
  ∧ ((∀ (s : State) (r : Reply), s.now.host.prep = some r → s.now.host.prepAt + b2n s.now.host.prepLate ≤ s.now.time.frame →
       let busy := s.now.power.state == 3 || (s.now.power.save.isSome && s.now.power.saveKind != 2)
       (∀ e, Does (.replyReady ⟨0, e⟩) s (({ s.now.eccSeen 13 e with
         host.held := some r
         host.prep := none
         host.hbsy := busy
         host.okReplies := min 1000 (s.now.host.okReplies + 1) } : Mach).endIf 0 0xB3 (min 1000 (s.now.host.okReplies + 1) == 1000)))
       ∧ (∀ e, Does (.replyReady ⟨1, e⟩) s (({ s.now.eccSeen 13 e with
         host.held := some r
         host.prep := none
         host.hbsy := busy
         host.okReplies := 0 } : Mach).endIf 0 0xB3 false))
       ∧ (∀ (n : Nat) (e : Ecc), 2 ≤ n → Does (.replyReady ⟨n, e⟩) s (({ s.now.eccSeen 13 e with
         host.held := some { r with status := 0x23, payload := [], rflags := r.rflags ||| 8 }
         host.prep := none
         host.hbsy := busy
         host.okReplies := 0 } : Mach).raise 0 0xB3 1)))
   ∧ (∀ s : State, s.now.host.keepOn = true → s.now.host.keepLeft = 0 →
       Does .keepaliveLost s (((({ s.now with host.keepOn := false } : Mach).raise 0 0xB1 (if s.now.nat pSCHED_MODE = 0 then 3 else 1)).post
         0xD 1 0 0 (s.now.nat pHOST_KEEPALIVE)).endSession 2)))

/-- NOP, IDENT, STATUS, RESET PORT, EVT_READ, TIME_SET and BUDGET_SET.
NOP: 0x00, nothing done. IDENT: 0x00, a payload ending in the boot count, nothing changed. STATUS: the status
words of the module, frame count and timestamp of this frame, start-up step, power state, reaction class and
the events queued; nothing changed. RESET of kind PORT: 0x00, the held reply dropped and the port's counters
cleared. EVT_READ of none or more than 64: 0x13; else the acknowledged entries removed where asked, and the
number left and the first of them. TIME_SET: 0x00, the hour closed short and WALL minus REF kept for the next
tick. BUDGET_SET with a policy above 2 or a mix above 100: 0x13; else 0x00, both parameters deferred. -/
def Obligations.PlainHostCommandsAnswered : Prop :=
  (∀ (s : State) (tag : Nat), Serves s 0x00 → Answers (.nop tag) s 0x00 tag 0x00 [] s.now)
  ∧ (∀ (s : State) (tag : Nat), Serves s 0x01 → ∃ p, Answers (.ident tag) s 0x01 tag 0x00 p s.now
      ∧ p.drop (p.length - 4) = le 4 s.shown.sec.boots)
  ∧ (∀ (s : State) (tag : Nat), Serves s 0x02 → Answers (.status tag) s 0x02 tag 0x00
      (le 4 (s.shown.statusWord 0) ++ le 4 (s.now.time.frame % 2 ^ 32) ++ le 8 (250 * s.now.time.frame)
        ++ [s.shown.start.step, s.shown.power.state] ++ le 4 (s.shown.statusWord 1) ++ [s.shown.reactionClass]
        ++ le 2 s.shown.host.queue.length) s.now)
  ∧ (∀ (s : State) (tag : Nat), Serves s 0x03 → Answers (.resetPort tag) s 0x03 tag 0x00 [] { s.now with
      host.held := none
      host.packets := 0
      host.badCrc := 0
      host.truncated := 0
      host.stalls := 0
      host.ignored := 0
      host.replyLost := 0 })
  ∧ (∀ (s : State) (tag ack f n : Nat), Serves s 0x04 →
      ((n < 1 ∨ 64 < n) → Answers (.evtRead tag ack f n) s 0x04 tag 0x13 [] s.now)
      ∧ (1 ≤ n → n ≤ 64 →
        let q := if bit f 0 then s.now.host.queue.filter fun (e : EvtRec) => newer 16 e.seq ack else s.now.host.queue
        Answers (.evtRead tag ack f n) s 0x04 tag 0x00 (le 2 q.length ++ [(q.take n).length] ++ (q.take n).flatMap evtBytes)
          { s.now with host.queue := q }))
  ∧ (∀ (s : State) (tag wall ref : Nat), Serves s 0x05 → Answers (.timeSet tag wall ref) s 0x05 tag 0x00 []
      { s.now.closeHour true s.now.time.wallValid with time.wallNext := some ((wall : Int) - (ref : Int)) })
  ∧ (∀ (s : State) (tag pol mix : Nat), Serves s 0x06 →
      ((2 < pol ∨ 100 < mix) → Answers (.budgetSet tag pol mix) s 0x06 tag 0x13 [] s.now)
      ∧ (pol ≤ 2 → mix ≤ 100 → Answers (.budgetSet tag pol mix) s 0x06 tag 0x00 [] { s.now with deferred := s.now.deferred
        ++ [⟨0, pBUDGET_POLICY, [(pol : Int)], false, (0x06, tag)⟩, ⟨0, pBUDGET_MIX_SPOOL, [(mix : Int)], false, (0x06, tag)⟩] }))

/-- A value written to a parameter reads back as it was sent.
For every row of the parameter tables and every value that its type holds, the bytes of UNIT_GET for it are
decoded by UNIT_SET as that value. -/
def Obligations.ParameterValueRoundTrip : Prop :=
  ∀ (r : PRow) (v : List Int), v.length = r.count → (∀ x ∈ v, typeLo r ≤ x ∧ x ≤ typeHi r) → r ∈ allRows →
    decodeVal r (encodeVal r v) = some v

/-- UNIT_LIST and UNIT_GET read the state before the frame, UNIT_SET writes all entries or none.
UNIT_LIST of none or more than 255 entries: 0x13; else 0x00 with the units from a handle on in their order,
their status words and the next handle, 0xFFFF where there is none. UNIT_GET of no or more than 64 IDs: 0x11;
of a unit that does not exist: 0x30; else 0x00 with the status word and the entries. Both change nothing, and
read the module as it stood at the end of the frame before. UNIT_SET of no or more than 64 entries: 0x11; of a
unit that does not exist: 0x30. On a unit other than the meter and the channels, entries without the status
word that all pass their checks: 0x00, each with its status, and all deferred; with one refused: nothing
written, and the status is a refusal. -/
def Obligations.UnitReadsAndWritesAnswered : Prop :=
  ((∀ (s : State) (tag f n : Nat), Serves s 0x10 →
       ((n < 1 ∨ 255 < n) → Answers (.unitList tag f n) s 0x10 tag 0x13 [] s.now)
       ∧ (1 ≤ n → n ≤ 255 →
         let l := s.shown.unitHandles.filter fun h => decide (f ≤ h)
         Answers (.unitList tag f n) s 0x10 tag 0x00 ([(l.take n).length] ++ le 2 ((l.drop n).headD 0xFFFF)
           ++ (l.take n).flatMap fun h => le 2 h ++ le 4 (s.shown.statusWord h)) s.now))
   ∧ (∀ (s : State) (tag h : Nat) (ids : List Nat), Serves s 0x11 →
       ((ids = [] ∨ 64 < ids.length) → Answers (.unitGet tag h ids) s 0x11 tag 0x11 [] s.now)
       ∧ (ids ≠ [] → ids.length ≤ 64 → s.shown.exists h = false → Answers (.unitGet tag h ids) s 0x11 tag 0x30 [] s.now)
       ∧ (ids ≠ [] → ids.length ≤ 64 → s.shown.exists h = true →
         Answers (.unitGet tag h ids) s 0x11 tag 0x00 (le 2 h ++ le 4 (s.shown.statusWord h) ++ [ids.length]
           ++ s.shown.getEntries s.now h 7 ids) s.now)))
  ∧ (∀ (s : State) (tag h : Nat) (es : List SetEntry), Serves s 0x12 →
     ((es = [] ∨ 64 < es.length) → Answers (.unitSet tag h es) s 0x12 tag 0x11 [] s.now)
     ∧ (es ≠ [] → es.length ≤ 64 → s.now.exists h = false → Answers (.unitSet tag h es) s 0x12 tag 0x30 [] s.now)
     ∧ (es ≠ [] → es.length ≤ 64 → s.now.exists h = true → h ≠ 0x0300 → (h < 0x0100 ∨ 0x013F < h) → (∀ e ∈ es, e.id ≠ idSTATUS_WORD) →
       ((∀ e ∈ es, s.now.setStatus h e = 0 ∧ s.now.busEntry h es e = 0) →
         Answers (.unitSet tag h es) s 0x12 tag 0x00 (es.flatMap fun e => le 2 e.id ++ [0]) (s.now.defer (0x12, tag) h es))
       ∧ ((∃ e ∈ es, s.now.setStatus h e ≠ 0 ∨ s.now.busEntry h es e ≠ 0) → ∃ st p, st ≠ 0 ∧ Answers (.unitSet tag h es) s 0x12 tag st p s.now)))

/-- UNIT_ENABLE, UNIT_DISABLE and GROUP_DEFINE.
For the units 0x0000, 0x0500, 0x0600 and every one from 0x0700 to 0x07FF that exists, UNIT_ENABLE and
UNIT_DISABLE are answered 0x20 DENIED in every state, and change nothing. UNIT_ENABLE, UNIT_DISABLE of a unit
that does not exist: 0x30. Of one that is no group, by its own state: a refusal changes nothing; 0x00 acts on
the unit; 0x01 also keeps the command waiting. The reply counts the one unit reached and lists it unless its
status is 0x00. UNIT_STOPPING_COMPLETE of a stopping unit whose stopping has ended: it is switched off.
GROUP_DEFINE, judged by the newest definitions: 0x11 for more than 64 children. 0x13 for a handle outside
0x2000 to 0x2FFF, a child that does not exist, is 0x0000, the group itself or an ancestor, or is named twice,
no room in the group area, a new group with 4096 units present, or a deletion of a group that another one
names. Else 0x00, the definition stored in the MRAM, and from the next frame on the group is held with its
children, or is gone with none. -/
def Obligations.UnitEnableAndGroupsAnswered : Prop :=
  (∀ (s : State) (tag h : Nat), (h = 0 ∨ h = 0x0500 ∨ h = 0x0600 ∨ (0x0700 ≤ h ∧ h ≤ 0x07FF)) → s.now.exists h = true →
     (Serves s 0x13 → ∃ p, Answers (.unitEnable tag h) s 0x13 tag 0x20 p s.now)
     ∧ (Serves s 0x14 → ∃ p, Answers (.unitDisable tag h) s 0x14 tag 0x20 p s.now))
  ∧ ((∀ (s : State) (tag h : Nat), s.now.exists h = false →
       (Serves s 0x13 → Answers (.unitEnable tag h) s 0x13 tag 0x30 [] s.now)
       ∧ (Serves s 0x14 → Answers (.unitDisable tag h) s 0x14 tag 0x30 [] s.now))
   ∧ (∀ (s : State) (tag h op : Nat) (on : Bool) (cmd : Instr), s.now.exists h = true → h < 0x2000 → Serves s op →
       ((op = 0x13 ∧ on = true ∧ cmd = .unitEnable tag h) ∨ (op = 0x14 ∧ on = false ∧ cmd = .unitDisable tag h)) →
       let st := s.now.enableStatus h on
       (1 < st → Answers cmd s op tag st (le 2 1 ++ le 2 1 ++ le 2 h ++ [st]) s.now)
       ∧ (st = 0 → Answers cmd s op tag 0x00 (le 2 1 ++ le 2 0) (s.now.unitAct h on))
       ∧ (st = 1 → Answers cmd s op tag 0x01 (le 2 1 ++ le 2 1 ++ le 2 h ++ [1])
         { s.now.unitAct h on with enables := (s.now.unitAct h on).enables ++ [⟨tag, h, [h], 0⟩] }))
   ∧ (∀ (s : State) (h : Nat), s.now.exists h = true → s.now.ownState h = some .stopping → s.now.stopEnded h = true →
       Does (.unitStoppingComplete h) s (s.now.unitOff h)))
  ∧ ((∀ (s : State) (tag h : Nat) (ks : List Nat), Serves s 0x15 →
       let n := s.now.newGroups
       let held := n.groups.find? fun (g : GroupDef) => g.handle == h
       let own := match held with
         | some g => groupRecords g.kids.length
         | none => 0
       (64 < ks.length → Answers (.groupDefine tag h ks) s 0x15 tag 0x11 [] s.now)
       ∧ (ks.length ≤ 64 → (h < 0x2000 ∨ 0x2FFF < h) → Answers (.groupDefine tag h ks) s 0x15 tag 0x13 [] s.now)
       ∧ (ks.length ≤ 64 → (∃ k ∈ ks, k = 0 ∨ n.exists k = false ∨ k = h ∨ (n.descendants k).contains h = true) →
         Answers (.groupDefine tag h ks) s 0x15 tag 0x13 [] s.now)
       ∧ (ks.length ≤ 64 → ks.eraseDups.length ≠ ks.length → Answers (.groupDefine tag h ks) s 0x15 tag 0x13 [] s.now)
       ∧ (ks.length ≤ 64 → ks ≠ [] → n.groupFree + own < groupRecords ks.length → Answers (.groupDefine tag h ks) s 0x15 tag 0x13 [] s.now)
       ∧ (ks.length ≤ 64 → ks ≠ [] → held = none → 4096 ≤ n.unitHandles.length → Answers (.groupDefine tag h ks) s 0x15 tag 0x13 [] s.now)
       ∧ (ks.length ≤ 64 → ks ≠ [] → 0x2000 ≤ h → h ≤ 0x2FFF →
         (∀ k ∈ ks, k ≠ 0 ∧ n.exists k = true ∧ k ≠ h ∧ (n.descendants k).contains h = false) → ks.eraseDups.length = ks.length →
         groupRecords ks.length ≤ n.groupFree + own → (held = none → n.unitHandles.length < 4096) →
         Answers (.groupDefine tag h ks) s 0x15 tag 0x00 [] { s.now.storeGroup h ks with
           groupsNext := some (groupPut n.groups ⟨h, ks⟩) })
       ∧ (ks = [] → held ≠ none → (∃ g ∈ n.groups, g.handle ≠ h ∧ h ∈ g.kids) →
         Answers (.groupDefine tag h ks) s 0x15 tag 0x13 [] s.now)
       ∧ (ks = [] → 0x2000 ≤ h → h ≤ 0x2FFF → (held = none ∨ ∀ g ∈ n.groups, g.handle ≠ h → h ∉ g.kids) →
         Answers (.groupDefine tag h ks) s 0x15 tag 0x00 [] { s.now.storeGroup h ks with
           groupsNext := some (n.groups.filter fun (g : GroupDef) => g.handle != h) }))
   ∧ (∀ m : Mach, m.groupTick.groups = m.groupsNext.getD m.groups ∧ m.groupTick.groupsNext = none))

/-- A frame tick runs one frame, and reads are served from the state before it.
FRAME_TICK in a module that ticks runs one frame from the state that the frame before delivers, and the view
that reads are served from becomes that state, with the cabinet's copies refreshed where the frame put a new
configuration into effect; after a finished save the field controller goes on alone; in any other case it
changes nothing. A module ticks while it is powered and no finished state save holds it. A frame is its phases
in order: the evidence of the memory check, the tick, the input freeze, the estimates, the frame work, and
what is recorded. The timestamp of a frame is 250 us times its count, and the next frame's count is one more. -/
def Obligations.FrameTickRuns : Prop :=
  (∀ (s : State) (inp : FrameIn),
      let m := s.now.deliver
      let n := m.frame s.shown inp
      (s.now.ticks = true → exec (.frameTick inp) s = .next { s with now := n, shown := m.refreshed n })
      ∧ (s.now.ticks = false → s.now.power.saveDone = true → exec (.frameTick inp) s = .next { s with now := s.now.fieldAlone })
      ∧ (s.now.ticks = false → s.now.power.saveDone = false → exec (.frameTick inp) s = .next s)
      ∧ (s.now.ticks = true ↔ (s.now.powered = true ∧ s.now.power.saveDone = false)))
  ∧ (∀ (m before : Mach) (inp : FrameIn), m.frame before inp =
      (((((m.takeEcc inp).tickPhase m).freezePhase inp).positionPhase inp).computePhase inp m.fpos).recordPhase m before inp)
  ∧ (∀ m n : Mach, (n.cab.gen = m.cab.gen → m.refreshed n = m)
      ∧ (n.cab.gen ≠ m.cab.gen → m.refreshed n = { m with
        params := withCabCells m.params (cabCells n.params), cab.gen := n.cab.gen, cab.used := n.cab.used }))
  ∧ (∀ m : Mach, m.fieldAlone.time.frame = m.time.frame + 1)
  ∧ (∀ m : Mach, m.ts = 250 * m.time.frame ∧ (m.time.running = true → m.nextFrame.time.frame = m.time.frame + 1
      ∧ m.nextFrame.ts = m.ts + 250))

/-- The position events raise their faults and mark what is lost.
Each event of the position estimator completes where its condition holds, with exactly this effect.
CORE_DISCORD: the verdict the cores read at the freeze and act on names a core, which gets 0x38 (F2 under
degraded policy 1, else F3) and its stop bit, or is three-way discord, which raises 0x39 F5. AP_EST_DISCORD:
four discordant frames of a processor's own estimate raise 0x3A F2. TAPE_READER_LOST: the estimate has lost a
reader in use; 0x30 or 0x31 F2 while the other is in use, else, unless 0x32 is in force, 0x32 F3, the end of a
learning run and of HOME, and 0x37 F4 where the encoder is lost too. TAPE_READER_REINSTATED: a reader not lost
with 400 good polls ends its fault. TAPE_PAIR_DISCORD: 16 frames raise 0x33 F3. ENC_FAULT: an amplitude (sine-
cosine encoder, eight samples), a count rate above 10 MHz or both channels changing within 25 ns (incremental
encoder) marks the encoder lost to every processor and raises 0x34 F3, and 0x37 F4 where no reader is in use.
ACC_FAULT: two stale frames, or a mean off by more than 0.50 m/s2 in an initialised estimate, raise 0x35 with
F2 up to 8.00 m/s and F3 above; with MOUNT CABINET it does nothing. TRACTION_SLIP: a voting core has counted
the frames of SLIP_TIME; 0x36 F4 is raised, and nothing else changes (each processor's filter left the encoder
out from its own comparison on). -/
def Obligations.PositionFaultEventsComplete : Prop :=
  (∀ (s : State) (ap : Sys2Proof.Ab) (c : CoreId), s.now.agreedVerdict = .core c → s.now.pos.read.get ap = .core c →
      Does (.coreDiscord ap) s { s.now.raise 1 0x38 (if s.now.nat pTRIAD_DEGRADED_POLICY = 1 then 2 else 3) with
        triad.stopVec := s.now.triad.stopVec.set c true })
  ∧ (∀ (s : State) (ap : Sys2Proof.Ab), s.now.agreedVerdict = .threeWay → s.now.pos.read.get ap = .threeWay →
      Does (.coreDiscord ap) s (s.now.raise 1 0x39 5))
  ∧ (∀ (s : State) (ap : Sys2Proof.Ab), 4 ≤ (s.now.pos.discord.get ap).own → Does (.apEstDiscord ap) s (s.now.raise 1 0x3A 2))
  ∧ (∀ (s : State) (r : Sys2Proof.Ab), r ∈ s.now.readersUsed → (s.now.est.readers.get r).lost = true →
      (s.now.tapeInUse = true → Does (.tapeReaderLost r) s (s.now.raise 1 (if r = .a then 0x30 else 0x31) 2))
      ∧ (s.now.tapeInUse = false → s.now.inForce 1 0x32 = false →
        let m1 := (s.now.raise 1 0x32 3).quitLearn.endHome
        Does (.tapeReaderLost r) s (if m1.tapeInUse = false ∧ m1.est.encLost = true then m1.raise 1 0x37 4 else m1)))
  ∧ (∀ (s : State) (r : Sys2Proof.Ab), (s.now.est.readers.get r).lost = false → 400 ≤ (s.now.est.readers.get r).goodRun →
      Does (.tapeReaderReinstated r) s (s.now.endFault 1 (if r = .a then 0x30 else 0x31)))
  ∧ (∀ s : State, 16 ≤ s.now.pos.pairRun → Does .tapePairDiscord s (s.now.raise 1 0x33 3))
  ∧ (∀ (s : State) (c : EncCause),
      ((∃ n, c = .amplitude n ∧ s.now.nat pENC_TYPE = 1 ∧ 8 ≤ n)
        ∨ (∃ hz, c = .rate hz ∧ s.now.nat pENC_TYPE = 2 ∧ 10000000 < hz)
        ∨ (∃ ns, c = .both ns ∧ s.now.nat pENC_TYPE = 2 ∧ ns ≤ 25)) →
      let m0 : Mach := { s.now with pos.est := s.now.pos.est.map fun _ e => { e with encLost := true, encGood := 0 } }
      let m1 := m0.raise 1 0x34 3
      Does (.encFault c) s (if m1.tapeInUse = false ∧ m1.est.encLost = true then m1.raise 1 0x37 4 else m1))
  ∧ (∀ s : State, 2 ≤ s.now.pos.accStale → s.now.mountCabinet = false →
      Does (.accFault .stale) s (s.now.raise 1 0x35 (if s.now.vRated ≤ 8000000 then 2 else 3)))
  ∧ (∀ s : State, s.now.est.inited = true → s.now.est.meanOff = true → s.now.mountCabinet = false →
      Does (.accFault .mean) s (s.now.raise 1 0x35 (if s.now.vRated ≤ 8000000 then 2 else 3)))
  ∧ (∀ (s : State) (c : AccCause), s.now.mountCabinet = true → exec (.accFault c) s = .next s)
  ∧ (∀ (s : State) (c : CoreId), c ∈ s.now.voters → 0 < (s.now.pos.est.get c.proc).slipRun →
      4 * s.now.nat pSLIP_TIME ≤ (s.now.pos.est.get c.proc).slipRun →
      Does .tractionSlip s (s.now.raise 1 0x36 4))

/-- Position recovery, learning and homing.
While a processor recovers (its own start, in step 5 or 6, has reached it) and has not initialised its
estimate, POSITION_RECOVERY initialises it: after 64 qualifying frames from the mean of the tape positions
collected in nm, rounded half away from zero to a whole um, or from its snapshot where it reads no tape.
RECOVERY_TIMEOUT, 1400 ms after the start in step 5, initialises it as disagreeing at the newest tape reading,
where there is one. In each case the estimate is initialised afterwards. A run may begin when the car stands
still, neither inspection nor evacuation is on, a reader is in use, the quality is not POS_QUALITY 0 and no
barring reaction is in force. With a session and no run under way LEARN_RUN then begins pass 1 and ends 0x3B
and 0x3D; HOME begins its travel in the direction of its operand and ends 0x3B; both answer PENDING. LEARN_RUN
answers 0x20 without a session; HOME answers 0x13 for a direction above 1; both answer 0x22 where a run may
not begin and 0x02 during a run. LEARN_RUN_COMPLETE, with pass 3 over: where the zones of both passes are
complete, each zone has 40 to 400 mm and midpoints within 5 mm, adjacent sills are at least 500 mm and the
terminals at most 1000 m apart, and the results fit the staged set of 2048 entries, they are staged,
LEARN_STATE is 4 and the command completes with 0x00; in every other case 0x3D is raised with F1, LEARN_STATE
is 5 and it completes with 0x31. HOME_COMPLETE, with the run stopped at its landing: a midpoint within
HOME_TOL confirms the position of every processor (unless 0x3E is in force), makes the home run due, ends
0x3F, and 0x32 where a reader is in use, and completes with 0x00; beyond HOME_TOL no position is confirmed,
0x3E is raised with F3 and it completes with 0x31. -/
def Obligations.PositionRecoveryLearnAndHome : Prop :=
  ((∀ (s : State) (p : ProcId), s.now.recovers p = true → (s.now.pos.est.get p).inited = false →
       s.now.readsTape (s.now.pos.est.get p) = true → 64 ≤ (s.now.pos.est.get p).recRun →
       Does (.positionRecovery p) s (s.now.recoverAt p
         (some (halfAway (s.now.pos.est.get p).recSum (1000 * (s.now.pos.est.get p).recRun))) false))
   ∧ (∀ (s : State) (p : ProcId), s.now.recovers p = true → (s.now.pos.est.get p).inited = false →
       s.now.readsTape (s.now.pos.est.get p) = false →
       Does (.positionRecovery p) s (s.now.recoverAt p none false))
   ∧ (∀ (s : State) (p : ProcId), s.now.start.step = 5 → s.now.recovers p = true → (s.now.pos.est.get p).inited = false →
       1400000 ≤ s.now.start.usBase + 250 * (s.now.time.frame : Int) - s.now.start.dlBase →
       Does (.recoveryTimeout p) s (s.now.recoverAt p (s.now.newestTape (s.now.pos.est.get p)) true))
   ∧ (∀ (m : Mach) (p : ProcId) (tape : Option Int) (late : Bool), ((m.recoverAt p tape late).pos.est.get p).inited = true))
  ∧ ((∀ (s : State) (tag : Nat), Serves s 0x24 →
       (s.now.session = false → Answers (.learnRun tag) s 0x24 tag 0x20 [] s.now)
       ∧ (s.now.session = true → s.now.learnMay = false → Answers (.learnRun tag) s 0x24 tag 0x22 [] s.now)
       ∧ (s.now.session = true → s.now.still = true → s.now.inspection = false → s.now.evacuation = false →
         s.now.tapeInUse = true → 1 ≤ s.now.quality → s.now.learnFaultsOk = true →
         (s.now.learning = true → Answers (.learnRun tag) s 0x24 tag 0x02 [] s.now)
         ∧ (s.now.learning = false →
           let m1 : Mach := { s.now with pos.learn := { LearnState.reset with active := true, state := 1, tag := tag } }
           Answers (.learnRun tag) s 0x24 tag 0x01 [] ((m1.endFault 1 0x3B).endFault 1 0x3D))))
   ∧ (∀ (s : State) (tag dir : Nat), Serves s 0x25 →
       (1 < dir → Answers (.home tag dir) s 0x25 tag 0x13 [] s.now)
       ∧ (dir ≤ 1 → s.now.learnMay = false → Answers (.home tag dir) s 0x25 tag 0x22 [] s.now)
       ∧ (dir ≤ 1 → s.now.still = true → s.now.inspection = false → s.now.evacuation = false →
         s.now.tapeInUse = true → 1 ≤ s.now.quality → s.now.learnFaultsOk = true →
         (s.now.learning = true → Answers (.home tag dir) s 0x25 tag 0x02 [] s.now)
         ∧ (s.now.learning = false →
           let m1 : Mach := { s.now with pos.home := { HomeState.reset with active := true, up := decide (dir = 1), tag := tag } }
           Answers (.home tag dir) s 0x25 tag 0x01 [] (m1.endFault 1 0x3B))))
   ∧ (∀ s : State, s.now.passOver = true → s.now.pos.learn.state = 3 →
       let good (zs : List Learned) : Prop :=
         (∀ z ∈ zs, 40000 ≤ z.high - z.low ∧ z.high - z.low ≤ 400000 ∧ (z.up - z.down).natAbs ≤ 5000)
         ∧ spacedOk (zs.map s.now.learnedSill) = true
         ∧ (zs.map s.now.learnedSill).getLastD 0 - (zs.map s.now.learnedSill).headD 0 ≤ 1000000000
         ∧ ((s.now.learnEntries zs).foldl stagePut s.now.cab.staged).length ≤ 2048
       (∀ zs, s.now.learnedZones = some zs → good zs →
         Does .learnRunComplete s (({ s.now with
           cab.staged := (s.now.learnEntries zs).foldl stagePut s.now.cab.staged
           pos.learn := { LearnState.reset with state := 4, tag := s.now.pos.learn.tag } } : Mach).completed
             0x24 s.now.pos.learn.tag 0x00 1 4))
       ∧ ((∀ zs, s.now.learnedZones = some zs → ¬ good zs) →
         Does .learnRunComplete s ((({ s.now with
           pos.learn := { LearnState.reset with state := 5, tag := s.now.pos.learn.tag } } : Mach).raise 1 0x3D 1).completed
             0x24 s.now.pos.learn.tag 0x31 1 5)))
   ∧ (∀ s : State, s.now.pos.home.active = true → s.now.pos.home.returning = true → s.now.engineFree = true →
       let h := s.now.pos.home
       let ref := s.now.land h.landing (if h.up then pDZ_MID_UP else pDZ_MID_DOWN)
       let m0 : Mach := { s.now with pos.home := HomeState.reset }
       let m1 : Mach := if s.now.inForce 1 0x3E then m0 else
         { m0 with pos.est := m0.pos.est.map fun _ e => { e with confirmed := true }, sched.homeDue := true }.endFault 1 0x3F
       let bad : Mach := { m0 with pos.est := m0.pos.est.map fun _ e => { e with confirmed := false } }
       ((h.mid - ref).natAbs ≤ s.now.nat pHOME_TOL →
         Does .homeComplete s ((if m1.tapeInUse then m1.endFault 1 0x32 else m1).completed 0x25 h.tag 0x00 1 0))
       ∧ (s.now.nat pHOME_TOL < (h.mid - ref).natAbs → Does .homeComplete s ((bad.raise 1 0x3E 3).completed 0x25 h.tag 0x31 1 0))))

/-- The events of the motion engine take effect where their conditions hold.
ENGINE_STOP_END: a stop under way whose velocity is zero clears the brake request and waits for the brake.
DRV_START_TIMEOUT: with a plan pending from rest for DRV_START_TIME the plan and the brake request are dropped
and 0x46 F3 raised. PLAN_END: with an executing plan at its end and no stop, settle, closing brake or pending
start, MODE becomes 3 LEVEL and the settle begins. RELEVEL_START: RELEVEL_ENABLE set, the car stationary on a
closed brake in mode IDLE, doors in use, quality FULL, no stop, no request and the level error outside
RELEVEL_START for RELEVEL_DELAY: bridging is requested. RELEVEL_TIMEOUT: with the request standing, bridging
not granted after two frames or 3000 ms passed, the request ends and 0x48 F3 is raised; a plan not yet begun
is cancelled where there is a planner. DRV_FB_TIMEOUT: with setpoints running and DRV_FB_TIMEOUT cycles missed
0x41 F5 in motion, 0x42 F3 at rest. TRACK_VEL: a velocity error for TRACK_TIME raises 0x43 F4. DRIVE_FEEDBACK:
a message of 32 bytes with a good safety CRC, the drive's source, a newer sequence number than the one held
(if one is), a timestamp at most 2000 us before its reception, and an echo within two of the last setpoint (if
one was sent) becomes the feedback held and marks the cycle as answered; with a plan pending from rest and
DRV_STATE 2 it asks for the brake. DRV_STATE 4 raises 0x45 with the drive's code, F5 in motion and F3 at rest.
(The fields of the feedback are SEQ, DRV_STATE, flags, motor velocity, torque, DC voltage and code, in this
order.) A message that fails a check (feedbackOk false) changes nothing. -/
def Obligations.EngineEventsComplete : Prop :=
  ((∀ s : State, s.now.eng.stop.isSome = true → s.now.eng.kin.v = 0 → s.now.eng.closing = false →
       Does .engineStopEnd s { s.now with eng.brakeReq := false, eng.closing := true })
   ∧ (∀ s : State, s.now.eng.pendRest = true → 4 * s.now.nat pDRV_START_TIME ≤ s.now.time.frame - s.now.eng.pendSince →
       Does .drvStartTimeout s (({ s.now with
         eng.pend := none, eng.pendRest := false, eng.brakeReq := false, eng.closing := s.now.eng.mode != 0 } : Mach).raise 1 0x46 3))
   ∧ (∀ (s : State) (r : RunningPlan), s.now.eng.exec = some r → r.ended = true → s.now.eng.stop = none →
       s.now.eng.settleSince = none → s.now.eng.closing = false → s.now.eng.pendRest = false →
       Does .planEnd s { s.now with eng.mode := 3, eng.settleSince := some s.now.time.frame })
   ∧ (∀ s : State, s.now.flag pRELEVEL_ENABLE = true → s.now.stationary = true → s.now.brakeClosed = true →
       s.now.doorsInUse = true → 2 ≤ s.now.quality → s.now.eng.relReq = false → s.now.eng.mode = 0 → s.now.eng.stop = none →
       4 * s.now.nat pRELEVEL_DELAY ≤ s.now.eng.relRun →
       Does .relevelStart s { s.now with eng.relReq := true, eng.relSince := s.now.time.frame, eng.relMoving := false })
   ∧ (∀ s : State, s.now.eng.relReq = true →
       ((s.now.eng.relSince + 2 ≤ s.now.time.frame ∧ s.now.safe.grant = false) ∨ 12000 ≤ s.now.time.frame - s.now.eng.relSince) →
       let m1 := ({ s.now with eng.relReq := false } : Mach).raise 1 0x48 3
       ((m1.eng.pendRest = false ∨ m1.planner = false) → Does .relevelTimeout s m1)
       ∧ (m1.eng.pendRest = true → m1.planner = true →
         Does .relevelTimeout s { m1.cancelPlan with eng.closing := m1.eng.mode != 0 }))
   ∧ (∀ s : State, s.now.eng.spOn = true → s.now.nat pDRV_FB_TIMEOUT ≤ s.now.eng.fbMiss →
       (1000 ≤ s.now.fvel.natAbs → Does .drvFbTimeout s (s.now.raise 1 0x41 5))
       ∧ (s.now.fvel.natAbs < 1000 → Does .drvFbTimeout s (s.now.raise 1 0x42 3)))
   ∧ (∀ s : State, 4 * s.now.nat pTRACK_TIME ≤ s.now.eng.trackRun → Does .trackVel s (s.now.raise 1 0x43 4)))
  ∧ ((∀ (s : State) (msg : List Nat) (rx : Nat),
       msg.length = 32 → leAt msg 28 4 = crcSafety (le 4 (s.now.nat pDRV_FB_ID) ++ msg.take 28) →
       leAt msg 2 1 = s.now.nat pDRV_FB_SRC →
       (s.now.eng.fbSeen = true → newer 16 (leAt msg 0 2) s.now.eng.fb.seq = true) →
       leAt msg 8 8 ≤ rx → rx ≤ leAt msg 8 8 + 2000 →
       (s.now.eng.spSent = true → (s.now.eng.spSeq + 131071 - leAt msg 4 2) % 65536 ≤ 2) →
       let fb : Feedback := ⟨leAt msg 0 2, leAt msg 3 1, leAt msg 6 2, leSAt msg 16 4, leSAt msg 20 2, leAt msg 22 2, leAt msg 24 4⟩
       let m1 : Mach := { s.now with
         eng.fb := fb
         eng.fbSeen := true
         eng.fbThisCycle := true
         eng.brakeReq := s.now.eng.brakeReq || (s.now.eng.pendRest && fb.state == 2) }
       (fb.state ≠ 4 → Does (.driveFeedback msg rx) s m1)
       ∧ (fb.state = 4 → Does (.driveFeedback msg rx) s (m1.raise 1 0x45 (if 1000 ≤ s.now.fvel.natAbs then 5 else 3) fb.code 0)))
   ∧ (∀ (s : State) (msg : List Nat) (rx : Nat), s.now.feedbackOk msg rx = false → exec (.driveFeedback msg rx) s = .next s))

/-- The settle ends in a correction or the end of the run.
LEVEL_SETTLE_END, with LEVEL_SETTLE passed since the settle began. With no mean of the level error, or after a
plan of kind 3 or 4, the run ends: the brake request is cleared and the brake awaited (that kinds 3 and 4 take
no mean is the model's choice, notes/assumptions/51.md). A mean within LEVEL_TOL, or outside it with
LEVEL_RETRIES corrections used or after a plan of kind 2, is taken and the run ends. A mean outside LEVEL_TOL
after a plan of kind 0, 1, 5 or 6 with corrections left waits while there is no planner; else a LEVEL_CORR
plan from rest to the position less the mean is loaded, the mean taken and the correction counted, or, where
the engine refuses the plan, the mean is taken and the run ends. -/
def Obligations.LevelSettleEnds : Prop :=
  (∀ (s : State) (f : Nat), s.now.eng.settleSince = some f → 4 * s.now.nat pLEVEL_SETTLE ≤ s.now.time.frame - f →
      let fin (m : Mach) : Mach := { m with eng.brakeReq := false, eng.closing := true, eng.settleSince := none }
      let kind := match s.now.eng.exec with | some r => r.plan.kind | none => 0
      ((kind = 3 ∨ kind = 4 ∨ s.now.levelMean = none) → Does .levelSettleEnd s (fin s.now))
      ∧ (∀ x : Int, kind ≠ 3 → kind ≠ 4 → s.now.levelMean = some x →
        ((x.natAbs ≤ s.now.nat pLEVEL_TOL ∨ s.now.nat pLEVEL_RETRIES ≤ s.now.eng.retries ∨ kind = 2) →
          Does .levelSettleEnd s (fin (s.now.takeMean x true)))
        ∧ ((kind = 0 ∨ kind = 1 ∨ kind = 5 ∨ kind = 6) → s.now.nat pLEVEL_TOL < x.natAbs → s.now.eng.retries < s.now.nat pLEVEL_RETRIES →
          (s.now.planner = false → Does .levelSettleEnd s s.now)
          ∧ (s.now.planner = true →
            let r := ({ s.now with eng.settleSince := none } : Mach).planFromRest 1 (unitOf s.now.eng.kin.p - x)
            (r.2 = true → Does .levelSettleEnd s (({ r.1 with eng.retries := r.1.eng.retries + 1 } : Mach).takeMean x false))
            ∧ (r.2 = false → Does .levelSettleEnd s (fin (r.1.takeMean x true)))))))

/-- CALL_ADD, CALL_CANCEL, STOP and the timed events of the scheduler.
CALL_ADD is answered by the first applicable row: landing not below N_LANDINGS 0x30; a side mask of 0, above 3
or naming a side not served, or a call type above 2, 0x13; hall up at the top landing or hall down at landing
0 0x13; in mode HOST, for a hall call in mode GROUP, out of service, in inspection or evacuation, or with the
landing off 0x22; with CAR_CALL_EN or HALL_CALL_EN 0 0x20; otherwise 0x00, and the change waits for the next
freeze as the last in order of receipt. CALL_CANCEL is checked by the first three rows alone. A refused
command changes nothing. (A call type above 2 is the model's reading, refused with the side mask.) STOP of
modes 1 and 2 is answered 0x00 OK and, from READY on, asks the engine for the immediate normal stop or the
emergency ramp at the next tick, the higher of several prevailing; STOP at a landing sets SCHED_HOLD and asks
for the exit plan, or ends a learning run. PARK_DELAY_EXPIRED: with PARK_LANDING a landing in use whose unit
is ON and where the car does not stand, the car ready for a run, no stop and no call, and PARK_DELAY s passed
in idleness, a run from rest to PARK_LANDING is committed in the direction of that landing. SCHED_STALL: a run
that has been due for SCHED_STALL_TIME raises 0x4A F3; with no such run, a quality that alone has held a run
up for SCHED_STALL_TIME raises 0x4E F1. GROUP_LOST: in mode GROUP, outside PARK, GROUP_HB_TIMEOUT without a
heartbeat raises 0x4C F1. The delivery of a frame that has decided, where a reaction raised since asks for the
exit plan and there is a planner, makes the exit plan in place of that decision. -/
def Obligations.CallAndSchedulerCommandsComplete : Prop :=
  ((∀ (s : State) (tag l k sides : Nat), Serves s 0x20 →
       (s.now.nLandings ≤ l → Answers (.callAdd tag l k sides) s 0x20 tag 0x30 [] s.now)
       ∧ (l < s.now.nLandings →
         ((sides = 0 ∨ 3 < sides ∨ 2 < k ∨ sides &&& s.now.sidesServed l ≠ sides) → Answers (.callAdd tag l k sides) s 0x20 tag 0x13 [] s.now)
         ∧ (s.now.badHall l k = true → Answers (.callAdd tag l k sides) s 0x20 tag 0x13 [] s.now)
         ∧ (1 ≤ sides → sides ≤ 3 → k ≤ 2 → sides &&& s.now.sidesServed l = sides → s.now.badHall l k = false →
           ((s.now.nat pSCHED_MODE = 0 ∨ (k ≠ 0 ∧ s.now.nat pSCHED_MODE = 2) ∨ s.now.sched.inService = false
               ∨ s.now.inspection = true ∨ s.now.evacuation = true ∨ s.now.landingOn l = false) →
             Answers (.callAdd tag l k sides) s 0x20 tag 0x22 [] s.now)
           ∧ (s.now.nat pSCHED_MODE ≠ 0 → (k ≠ 0 → s.now.nat pSCHED_MODE ≠ 2) → s.now.sched.inService = true →
               s.now.inspection = false → s.now.evacuation = false → s.now.landingOn l = true →
             (s.now.land l (if k = 0 then pCAR_CALL_EN else pHALL_CALL_EN) = 0 → Answers (.callAdd tag l k sides) s 0x20 tag 0x20 [] s.now)
             ∧ (s.now.land l (if k = 0 then pCAR_CALL_EN else pHALL_CALL_EN) ≠ 0 →
               Answers (.callAdd tag l k sides) s 0x20 tag 0x00 []
                 { s.now with sched.changes := s.now.sched.changes ++ [⟨2, true, l, k, sides, none, false⟩] })))))
   ∧ (∀ (s : State) (tag l k sides : Nat), Serves s 0x21 →
       (s.now.nLandings ≤ l → Answers (.callCancel tag l k sides) s 0x21 tag 0x30 [] s.now)
       ∧ (l < s.now.nLandings →
         ((sides = 0 ∨ 3 < sides ∨ 2 < k ∨ sides &&& s.now.sidesServed l ≠ sides ∨ s.now.badHall l k = true) →
           Answers (.callCancel tag l k sides) s 0x21 tag 0x13 [] s.now)
         ∧ (1 ≤ sides → sides ≤ 3 → k ≤ 2 → sides &&& s.now.sidesServed l = sides → s.now.badHall l k = false →
           Answers (.callCancel tag l k sides) s 0x21 tag 0x00 []
             { s.now with sched.changes := s.now.sched.changes ++ [⟨2, false, l, k, sides, none, false⟩] }))))
  ∧ ((∀ (s : State) (tag : Nat), Serves s 0x23 → s.now.start.ready = true →
       Answers (.stopImmediate tag) s 0x23 tag 0x00 [] (s.now.stopReq .immediate)
       ∧ Answers (.stopEmergencyRamp tag) s 0x23 tag 0x00 [] (s.now.stopReq .ramp))
   ∧ (∀ (s : State) (tag : Nat), Serves s 0x23 → s.now.start.ready = false →
       Answers (.stopImmediate tag) s 0x23 tag 0x00 [] s.now ∧ Answers (.stopEmergencyRamp tag) s 0x23 tag 0x00 [] s.now)
   ∧ (∀ (s : State) (tag : Nat), Serves s 0x23 →
       let m1 := s.now.putI 0 pSCHED_HOLD 1
       (m1.pos.learn.active = false → Answers (.stopAtLanding tag) s 0x23 tag 0x00 [] { m1 with sched.exitReq := true })
       ∧ (m1.pos.learn.active = true → Answers (.stopAtLanding tag) s 0x23 tag 0x00 [] m1.endLearn))
   ∧ (∀ (m : Mach) (k : StopKind), (m.stopReq k).eng.stopReq = joinStop m.eng.stopReq k
       ∧ changesOnly [.eng] m (m.stopReq k)))
  ∧ ((∀ s : State, let p := s.now.nat pPARK_LANDING
       p ≠ 0xFFFF → p < s.now.nLandings → s.now.landingOn p = true → s.now.curLanding ≠ some p → s.now.readyForRun = true →
       s.now.sched.stops = [] → s.now.sched.calls = [] →
       4000 * s.now.nat pPARK_DELAY ≤ s.now.time.frame - s.now.sched.idleSince →
       Does .parkDelayExpired s { s.now.commitRest p (if s.now.refLanding < p then 1 else 2) false with sched.parkRun := true })
   ∧ (∀ s : State, s.now.sched.runDue = true → 4 * s.now.nat pSCHED_STALL_TIME ≤ s.now.time.frame - s.now.sched.dueSince →
       Does .schedStall s (s.now.raise 1 0x4A 3))
   ∧ (∀ s : State, s.now.sched.runDue = false → s.now.sched.lowDue = true →
       4 * s.now.nat pSCHED_STALL_TIME ≤ s.now.time.frame - s.now.sched.lowSince → Does .schedStall s (s.now.raise 1 0x4E 1))
   ∧ (∀ s : State, s.now.nat pSCHED_MODE = 2 → s.now.power.state ≠ 3 →
       4 * s.now.nat pGROUP_HB_TIMEOUT ≤ s.now.time.frame - s.now.sched.hbLast → Does .groupLost s (s.now.raise 1 0x4C 1))
   ∧ (∀ m : Mach, (m.sched.decided = true → m.sched.exitReq = true → m.planner = true → m.deliver = m.exitPlan)
       ∧ ((m.sched.decided = false ∨ m.sched.exitReq = false ∨ m.planner = false) → m.deliver = m)))

/-- RUN_TO is answered by the first applicable row, and a refused one changes nothing.
In any mode other than HOST RUN_TO is refused 0x22; else with a landing not below N_LANDINGS 0x30; else with a
side that the landing does not serve 0x13; else out of service, in inspection or evacuation mode, or with the
landing unit not ON, 0x22; a refusal changes nothing. Otherwise it is answered 0x00 and replaces any earlier
RUN_TO: target and sides are held, the premise epoch advances, and the running plan is to be replaced. -/
def Obligations.RunToAnswered : Prop :=
  ∀ (s : State) (tag l sides : Nat), Serves s 0x22 →
    (s.now.nat pSCHED_MODE ≠ 0 → Answers (.runTo tag l sides) s 0x22 tag 0x22 [] s.now)
    ∧ (s.now.nat pSCHED_MODE = 0 →
      (s.now.nLandings ≤ l → Answers (.runTo tag l sides) s 0x22 tag 0x30 [] s.now)
      ∧ (l < s.now.nLandings →
        ((3 < sides ∨ sides &&& s.now.sidesServed l ≠ sides) → Answers (.runTo tag l sides) s 0x22 tag 0x13 [] s.now)
        ∧ (sides ≤ 3 → sides &&& s.now.sidesServed l = sides →
          ((s.now.sched.inService = false ∨ s.now.inspection = true ∨ s.now.evacuation = true ∨ s.now.landingOn l = false) →
            Answers (.runTo tag l sides) s 0x22 tag 0x22 [] s.now)
          ∧ (s.now.sched.inService = true → s.now.inspection = false → s.now.evacuation = false → s.now.landingOn l = true →
            Answers (.runTo tag l sides) s 0x22 tag 0x00 [] { s.now with
              sched.runTo := some (l, sides)
              sched.epoch := (s.now.sched.epoch + 1) % 2 ^ 32
              sched.replan := true }))))

/-- A door command is answered from the statuses of the sides it names, and waits for the tick.
DOOR_OPEN, DOOR_CLOSE, DOOR_HOLD, DOOR_NUDGE and DOOR_LEARN with a side mask of 0 or above 3 are refused 0x13
and change nothing. Otherwise the payload gives the status of side A and of side B, 0xFF for one not named.
For one side its status is the reply; for both the reply is the refusal of side A if it refused, else that of
side B if it refused, else 0x01 when one is 0x01, else 0x00. Each side named takes the command as doorAccept
says, side A first. A side that accepts a command (status 0x00 or 0x01) adds it to those it takes at the next
tick, 1 open, 2 close, 3 hold, 4 nudge, or 16 more than its tag for a learning cycle, and changes nothing
else; a side that refuses one changes nothing, except that a refused DOOR_OPEN may note its landing as met
unlearned and raise 0x5A F1. -/
def Obligations.DoorCommandsAnswered : Prop :=
  (∀ (s : State) (tag sides : Nat) (op c : Nat) (cmd : Instr),
     ((op, c, cmd) = (0x30, 1, .doorOpen tag sides) ∨ (op, c, cmd) = (0x31, 2, .doorClose tag sides)
       ∨ (op, c, cmd) = (0x32, 3, .doorHold tag sides) ∨ (op, c, cmd) = (0x33, 4, .doorNudge tag sides)
       ∨ (op, c, cmd) = (0x34, 5, .doorLearn tag sides)) → Serves s op →
     let sa := s.now.doorStatus .a c
     let sb := s.now.doorStatus .b c
     ((sides = 0 ∨ 3 < sides) → Answers cmd s op tag 0x13 [] s.now)
     ∧ (sides = 1 → Answers cmd s op tag sa [sa, 0xFF] (s.now.doorAccept .a c tag))
     ∧ (sides = 2 → Answers cmd s op tag sb [0xFF, sb] (s.now.doorAccept .b c tag))
     ∧ (sides = 3 → Answers cmd s op tag
         (if 1 < sa then sa else if 1 < sb then sb else if sa = 1 ∨ sb = 1 then 1 else 0) [sa, sb]
         ((s.now.doorAccept .a c tag).doorAccept .b c tag)))
  ∧ (∀ (m : Mach) (side : Sys2Proof.Ab) (c tag : Nat),
     (m.doorStatus side c ≤ 1 →
       m.doorAccept side c tag = m.side side fun d => { d with cmds := d.cmds ++ [if c = 5 then 16 + tag else c] })
     ∧ (1 < m.doorStatus side c → m.doorAccept side c tag = m
       ∨ (c = 1 ∧ m.doorAccept side c tag = (m.side side fun d => { d with
           unlearned := if d.unlearned.contains m.doorLanding then d.unlearned else d.unlearned ++ [m.doorLanding] }).raise
             (sideHandle side) 0x5A 1)))

/-- What a door engine's own events do.
DOOR_CURRENT_LOOP_UPDATE: the bridge's conditions, what is measured, the monitors, the learning strokes, the
search for the open end, the loop, thrust and duties, in this order, and a reversal where a reopen demand asks
for one. BRIDGE_TRIP: a phase current beyond the trip raises 0x50 F3, a bus below 20.0 V 0x51 F3, above 66.0 V
0x52 F3, the loss of integrity 0x5F F5, and the withdrawn run permit no fault; in each case all gates go off.
KE_BOUND_EXCEEDED, after 16 updates and once per excess: it is counted, posted as a DOOR event and raises 0x55
F2; within OBST_MASK the door reverses, elsewhere it is braked, and ballast hold ends. CURRENT_OFFSET_CHECK,
with the gates off for 10 ms: offsets within 3 % of full scale are taken and end 0x53, others raise it with
F3. DOOR_BALLAST_TIMEOUT: two frames without a setpoint bring the door to rest. DOOR_STOPPING_COMPLETE: a
stopping side at rest that is not reopening fails a learning cycle in progress and enters OFF with its gates
off, in STOPPED where a stroke was cut short. -/
def Obligations.DoorMotorEventsComplete : Prop :=
  (∀ (s : State) (side : Sys2Proof.Ab) (inp : DoorIn),
      let m1 := ((s.now.bridgeUpdate side inp).doorSense side inp).doorMonitors side (s.now.feedback side inp).viol
      let m2 := (((m1.learnUpdate side).seekUpdate side).runLoop side).drivePwm side
      Does (.doorCurrentLoopUpdate side inp) s (if m1.reopenNow side then (m2.doorEvent side 2).reverse side false else m2))
  ∧ (∀ (s : State) (side : Sys2Proof.Ab),
      let off (p : Bool) : Mach := s.now.side side fun d => { d.gatesOff s.now.time.frame with permitOff := d.permitOff || (p && d.gates) }
      (∀ u w : Int, s.now.currentTrips side (u, w) = true →
        Does (.bridgeTrip side (.current u w)) s ((off false).raise (sideHandle side) 0x50 3))
      ∧ (∀ v : Nat, v < 200 → Does (.bridgeTrip side (.bus v)) s ((off false).raise (sideHandle side) 0x51 3))
      ∧ (∀ v : Nat, 660 < v → Does (.bridgeTrip side (.bus v)) s ((off false).raise (sideHandle side) 0x52 3))
      ∧ Does (.bridgeTrip side .integrity) s ((off false).raise (sideHandle side) 0x5F 5)
      ∧ ((s.now.doors.get side).runPermit = false → Does (.bridgeTrip side .permit) s (off true)))
  ∧ (∀ (s : State) (side : Sys2Proof.Ab), 16 ≤ (s.now.doors.get side).keRun → (s.now.doors.get side).keRaised = false →
      let m1 := ((s.now.side side fun d => { d with keCount := sat32 d.keCount, keRaised := true }).doorEvent side 3).raise
        (sideHandle side) 0x55 2
      ((s.now.doors.get side).x ≤ (s.now.door side pOBST_MASK : Int) → Does (.keBoundExceeded side) s (m1.reverse side false))
      ∧ ((s.now.door side pOBST_MASK : Int) < (s.now.doors.get side).x →
        Does (.keBoundExceeded side) s (m1.side side fun d => { d with keBrake := true, held := false, refV := d.v, refX := d.x })))
  ∧ (∀ (s : State) (side : Sys2Proof.Ab) (u w : Int), (s.now.doors.get side).gates = false →
      40 ≤ s.now.time.frame - (s.now.doors.get side).gatesOffSince →
      (u.natAbs * 100 ≤ 3 * 2048 → w.natAbs * 100 ≤ 3 * 2048 → Does (.currentOffsetCheck side u w) s
        ((s.now.side side fun d => { d with offU := u, offW := w, offOk := true }).endFault (sideHandle side) 0x53))
      ∧ ((3 * 2048 < u.natAbs * 100 ∨ 3 * 2048 < w.natAbs * 100) → Does (.currentOffsetCheck side u w) s
        ((s.now.side side fun d => { d with offOk := false }).raise (sideHandle side) 0x53 3)))
  ∧ (∀ (s : State) (side : Sys2Proof.Ab), 2 ≤ (s.now.doors.get side).spMiss →
      Does (.doorBallastTimeout side) s (s.now.side side fun d => { d with ballastStop := true }))
  ∧ (∀ (s : State) (side : Sys2Proof.Ab), (s.now.doors.get side).own = .stopping → (s.now.doors.get side).refV = 0 →
      (s.now.doors.get side).v = 0 → (s.now.doors.get side).state ≠ 5 → (s.now.doors.get side).reversing = false →
      let m1 := if (s.now.doors.get side).state = 8 then s.now.learnFail side else s.now
      Does (.doorStoppingComplete side) s (m1.side side fun d => { d.gatesOff s.now.time.frame with
        own := .off, stopPend := false, dwellFrom := none, holdFrom := none, stroke := none
        state := if d.state == 2 || d.state == 8 || d.closes then 6 else d.state }))

/-- The thrust an update commands lies within the clamps.
Where the duties are not held in ballast, the thrust an update leaves commanded is the one demanded, clamped:
towards closed by F_MAX less what holds the door towards closed there, and never above what the current limit
gives; towards open never above that limit; both limits are not negative. (With no current landing the closer
map is that of landing 0, notes/assumptions/52.md.) -/
def Obligations.DoorThrustClamped : Prop :=
  ∀ (m : Mach) (side : Sys2Proof.Ab),
    let d := m.doors.get side
    let c := ((m.drivePwm side).doors.get side).cmd
    d.held = false →
      c = m.clampThrust side d.x (m.thrustWish side)
      ∧ -(max 0 ((m.door side pF_MAX * 10 : Nat) - m.closerShare side d.x)) ≤ c
      ∧ -(m.thrustMax side) ≤ c ∧ c ≤ m.thrustMax side
      ∧ 0 ≤ m.thrustMax side ∧ 0 ≤ m.closeClamp side d.x

/-- What ends a dwell, a hold, a stroke or a learning cycle.
OBSTRUCTION_DETECTED (OBST_TIME of 16 updates per ms), FINAL_APPROACH_TIMEOUT (1000 ms in the masked zone) and
DOOR_TIME_LIMIT of a closing side count as an obstruction: the side reverses, OBST_COUNT and OBST_CONSEC count
one. DOOR_TIME_LIMIT in OPENING or REOPENING leads to STOPPED and raises 0x57 F2; of a referencing stroke
raises 0x5C F3. DWELL_END: an open side that is ON, not held, without a reopen demand, its dwell elapsed,
starts to close. HOLD_TIMEOUT: a side that is ON, held for HOLD_MAX s, raises 0x5B F1 and starts to close, or,
with a reopen demand, defers that. NUDGE_AUTO_START: with NUDGE_MODE 2 and the conditions of R184 (nudgeOk) an
OPEN side that is ON starts nudging. A start to close waits while re-levelling is in progress; one that would
nudge before a further NUDGE_HOLD is deferred; else, without forced nudging, DOOR_STATE is 4, or 7 for
nudging, and its stroke begins. DOOR_RECHECK, at a period that is not 0 and has passed: every CLOSED side
applies its closing hold, and the clock of the re-checks starts again. DOOR_LEARN_COMPLETE after stroke 6:
figures that pass every check are stored as the model of the side at the landing where it was learned, and the
cycle is over; figures that fail one store nothing and the cycle fails, the side CLOSED at x = 0 either way.
Figures pass exactly when each of the four thrust curves has 16 points, the widths are within 5 mm of each
other and their mean from 200 to 3000 mm, the mass is from 20 to 800 kg and within 10 % of that of the braking
phases, the Coulomb friction is from 0 to 100 N, the viscous friction from 0 to 5000 and the residual at most
10 N in the units of R152, and each point of the closer map is from 0 to 80 % of F_MAX. -/
def Obligations.DoorStrokesAndLearningEnd : Prop :=
  ((∀ (s : State) (side : Sys2Proof.Ab), (s.now.doors.get side).closes = true → 16 * s.now.door side pOBST_TIME ≤ (s.now.doors.get side).obstRun →
       Does (.obstructionDetected side) s (s.now.obstruct side))
   ∧ (∀ (s : State) (side : Sys2Proof.Ab) (f : Nat), (s.now.doors.get side).closes = true → (s.now.doors.get side).maskSince = some f →
       4000 ≤ s.now.time.frame - f → Does (.finalApproachTimeout side) s (s.now.obstruct side))
   ∧ (∀ (s : State) (side : Sys2Proof.Ab) (f : Nat), (s.now.doors.get side).stroke = some f →
       4 * s.now.door side pDOOR_TIME_LIMIT ≤ s.now.time.frame - f →
       ((s.now.doors.get side).closes = true → Does (.doorTimeLimit side) s (s.now.obstruct side))
       ∧ ((s.now.doors.get side).closes = false → ((s.now.doors.get side).state = 2 ∨ (s.now.doors.get side).state = 5) →
         Does (.doorTimeLimit side) s
           ((s.now.side side fun d => { d with state := 6, stroke := none, refV := 0, reversing := false }).raise (sideHandle side) 0x57 2)))
   ∧ (∀ (s : State) (side : Sys2Proof.Ab) (f : Nat), (s.now.doors.get side).refFrom = some f →
       4 * s.now.door side pDOOR_TIME_LIMIT ≤ s.now.time.frame - f →
       (s.now.doors.get side).state = 0 → (s.now.doors.get side).closes = false →
       Does (.doorTimeLimit side) s ((s.now.side side fun d => { d with refFrom := none }).raise (sideHandle side) 0x5C 3))
   ∧ (∀ (s : State) (side : Sys2Proof.Ab) (f : Nat), (s.now.doors.get side).dwellFrom = some f → (s.now.doors.get side).state = 3 →
       (s.now.doors.get side).holdFrom = none → (s.now.doors.get side).reopenReq = false →
       f + (s.now.doors.get side).dwellLen ≤ s.now.time.frame → s.now.ownState (sideHandle side) = some .on →
       Does (.dwellEnd side) s (s.now.startClose side false))
   ∧ (∀ (s : State) (side : Sys2Proof.Ab) (f : Nat), (s.now.doors.get side).holdFrom = some f →
       4000 * s.now.door side pHOLD_MAX ≤ s.now.time.frame - f → s.now.ownState (sideHandle side) = some .on →
       let m1 := s.now.raise (sideHandle side) 0x5B 1
       ((s.now.doors.get side).reopenReq = false → Does (.holdTimeout side) s (m1.startClose side false))
       ∧ ((s.now.doors.get side).reopenReq = true →
         Does (.holdTimeout side) s (m1.side side fun d => { d with holdFrom := none, deferred := true })))
   ∧ (∀ (s : State) (side : Sys2Proof.Ab), s.now.nudgeOk side = true → (s.now.doors.get side).state = 3 → s.now.door side pNUDGE_MODE = 2 →
       s.now.ownState (sideHandle side) = some .on →
       Does (.nudgeAutoStart side) s (s.now.startClose side true))
   ∧ (∀ s : State, s.now.nat pDOOR_RECHECK_PERIOD ≠ 0 →
       4000 * s.now.nat pDOOR_RECHECK_PERIOD ≤ s.now.time.frame - s.now.power.recheckAt →
       Does .doorRecheck s { s.now with
         power.recheckAt := s.now.time.frame
         doors := s.now.doors.map fun _ d => if d.state == 1 then { d with recheck := true } else d })
   ∧ (∀ (m : Mach) (side : Sys2Proof.Ab), let d := (m.obstruct side).doors.get side
       d.state = 5 ∧ d.reversing = true ∧ d.obstCount = sat32 (m.doors.get side).obstCount
       ∧ d.obstConsec = min 255 ((m.doors.get side).obstConsec + 1))
   ∧ (∀ (m : Mach) (side : Sys2Proof.Ab) (nudge : Bool),
       (m.relevels = true → (m.startClose side nudge).doors = m.doors)
       ∧ (m.relevels = false → (nudge = true ∨ ((m.doors.get side).forceNudge = true ∧ m.door side pNUDGE_MODE ≠ 0)) → m.nudgeBarred side = true →
         (m.doors.get side).forceNudge = false ∨ m.door side pNUDGE_MODE ≠ 0 →
         m.startClose side nudge = m.side side fun d => { d with dwellFrom := none, holdFrom := none, deferred := true })
       ∧ (m.relevels = false → (m.doors.get side).forceNudge = false → (nudge = false ∨ m.nudgeBarred side = false) →
         ((m.startClose side nudge).doors.get side).state = (if nudge then 7 else 4)
         ∧ ((m.startClose side nudge).doors.get side).stroke = some m.time.frame)))
  ∧ ((∀ (s : State) (side : Sys2Proof.Ab) (inp : DoorLearnIn), (s.now.doors.get side).state = 8 → (s.now.doors.get side).learnStroke = 7 →
       (s.now.learnFigures side inp = false → Does (.doorLearnComplete side inp) s
         ((s.now.side side fun d => { d with state := 1, x := 0, xFrac := 0, refX := 0, refV := 0, closedRun := 4 }).learnFail side))
       ∧ (s.now.learnFigures side inp = true →
         Does (.doorLearnComplete side inp) s ((s.now.storeModel side inp).learnDone side)))
   ∧ (∀ (m : Mach) (side : Sys2Proof.Ab) (inp : DoorLearnIn),
       ((m.learnDone side).doors.get side).state = 1 ∧ ((m.learnDone side).doors.get side).x = 0
       ∧ (m.learnFigures side inp = true ↔
         inp.open05.length = 16 ∧ inp.close05.length = 16 ∧ inp.open10.length = 16 ∧ inp.close10.length = 16
         ∧ ((inp.width1 : Int) - inp.width2).natAbs ≤ 5000 ∧ 200000 ≤ learnWidth inp ∧ learnWidth inp ≤ 3000000
         ∧ 200 ≤ learnMass inp ∧ learnMass inp ≤ 8000
         ∧ 10 * ((learnMass inp - phaseMass inp inp.dec).natAbs : Int) ≤ max (learnMass inp) (phaseMass inp inp.dec)
         ∧ 0 ≤ learnFricC inp ∧ learnFricC inp ≤ 1000 ∧ 0 ≤ learnFricV inp ∧ learnFricV inp ≤ 5000
         ∧ (∀ x ∈ learnCloser inp, 0 ≤ x ∧ x ≤ ((m.door side pF_MAX * 8 : Nat) : Int)) ∧ inp.residual.natAbs ≤ 100)))

/-- A safety function's timed fault is held by the core that judges it.
DISCREPANCY_TIMEOUT, with a measurement of a pair of the block open past its time: the core closes the pair's
expired measurements, marks the pair and holds 0x6A (a door protective device) or 0x61. CONTACTOR_PULL_TIMEOUT
and CONTACTOR_DROP_TIMEOUT, with the block of the group enabled and a contactor of it waiting past its time:
0x6C held and the group barred, or 0x6B held, and the late contactor waits no more. BRAKE_OPEN_TIMEOUT and
BRAKE_CLOSE_TIMEOUT, with the brake waiting past its time: 0x6D held and the brake groups barred, or 0x6E
held. TSL_SWITCH: a terminal speed limit switch that disagreed in four evaluations, or chatters, holds 0x78.
LOCK_SOURCE_DISAGREE: sources of a side's locks that have disagreed for LOCK_DISAGREE_TIME hold 0x67 in every
core. The outputs are judged again in the same frame in each case. -/
def Obligations.BlockTimeoutsPutBlocksInFault : Prop :=
  (∀ (s : State) (c : CoreId) (h : Nat) (p : PairState), h ∈ s.now.blocks → p ∈ (s.now.safe.cores.get c).pairs → p.handle = h →
      p.meas.any (s.now.expired h) = true →
      Does (.discrepancyTimeout c h) s (s.now.core c fun k =>
        ({ k with pairs := k.pairs.map (s.now.expirePair h) } : CoreState).hold h
          (if blockKind h == some .dpd then 0x6A else 0x61) s.now.ts).judged)
  ∧ (∀ (s : State) (c : CoreId) (g : Nat), s.now.blockOn (0x0740 + g) = true →
      (s.now.contactorLate c g true ((s.now.safe.cores.get c).group g).cs.a = true
        ∨ s.now.contactorLate c g true ((s.now.safe.cores.get c).group g).cs.b = true) →
      Does (.contactorPullTimeout c g) s (s.now.core c fun k =>
        (k.onGroup g fun x => { x with
          bar := true
          cs := x.cs.map fun _ y => if s.now.contactorLate c g true y then { y with wait := false } else y }).hold (0x0740 + g) 0x6C s.now.ts).judged)
  ∧ (∀ (s : State) (c : CoreId) (g : Nat), s.now.blockOn (0x0740 + g) = true →
      (s.now.contactorLate c g false ((s.now.safe.cores.get c).group g).cs.a = true
        ∨ s.now.contactorLate c g false ((s.now.safe.cores.get c).group g).cs.b = true) →
      Does (.contactorDropTimeout c g) s (s.now.core c fun k =>
        (k.onGroup g fun x => { x with
          cs := x.cs.map fun _ y => if s.now.contactorLate c g false y then { y with wait := false } else y }).hold (0x0740 + g) 0x6B s.now.ts).judged)
  ∧ (∀ (s : State) (c : CoreId), (s.now.safe.cores.get c).brakeWait = true → (s.now.safe.cores.get c).brakeOn = some true →
      s.now.brakeDue (s.now.safe.cores.get c) ≤ s.now.link.frLt →
      Does (.brakeOpenTimeout c) s
        (s.now.core c fun k => s.now.barBrakes (({ k with brakeWait := false } : CoreState).hold 0x0750 0x6D s.now.ts)).judged)
  ∧ (∀ (s : State) (c : CoreId), (s.now.safe.cores.get c).brakeWait = true → (s.now.safe.cores.get c).brakeOn = some false →
      s.now.brakeDue (s.now.safe.cores.get c) ≤ s.now.link.frLt →
      Does (.brakeCloseTimeout c) s
        (s.now.core c fun k => ({ k with brakeWait := false } : CoreState).hold 0x0750 0x6E s.now.ts).judged)
  ∧ (∀ (s : State) (c : CoreId) (h : Nat), blockKind h = some .tsl → s.now.blockOn h = true →
      (4 ≤ aGet (s.now.safe.cores.get c).tslRun h 0 ∨ s.now.chatters h = true) →
      Does (.tslSwitch c h) s (s.now.core c fun k => k.hold h 0x78 s.now.ts).judged)
  ∧ (∀ (s : State) (side : Sys2Proof.Ab) (f : Nat), s.now.safe.disagree.get side = some f →
      4 * s.now.nat pLOCK_DISAGREE_TIME ≤ s.now.time.frame - f →
      Does (.lockSourceDisagree side) s
        (s.now.each coreIds fun m c => m.core c fun k => k.hold (0x0712 + side.idx) 0x67 m.ts).judged)

/-- Lock messages that stay out, the reset input, and the entry of inspection mode.
LOCK_MSG_TIMEOUT, with a lock source other than WIRED and a landing in use whose last lock message is older
than the watchdog time and not yet timed out: the landing loses bit 4 of its bits, is marked timed out, and
the enabled landing door interlock of each side it serves holds 0x66 in every core. LANDING_DOOR_AWAY, with a
landing's side found open away from the car for 1000 ms: the landing door interlock of each side with such a
landing in use holds 0x65 in every core. The outputs are judged again in the same frame. RESET_EDGE, with a
valid reset edge in a core: the edge is used up at this frame, every block of the core is reset as far as its
conditions allow (resetOne), the reset faults of other chapters end once two cores have acted on the edge
(resetOthers), and the outputs are judged again. RESET_STUCK, with the reset input of a core active for 480
001 link ticks: 0x62 F1. INSP_STOP_TIMEOUT, with the run kept at the entry of inspection mode in a core whose
INSP_STOP_TIME is over: that run ends in every core whose time is over, and the outputs are judged again. -/
def Obligations.LockResetAndInspectionEvents : Prop :=
  ((∀ (s : State) (l : Nat), s.now.nat pLOCK_SOURCE ≠ 0 → l < s.now.nLandings → (s.now.lockOf l).timedOut = false →
       s.now.lockWd < s.now.time.frame - (s.now.lockOf l).atF →
       let m1 := s.now.setLock { s.now.lockOf l with bits := setBit (s.now.lockOf l).bits 4 false, timedOut := true, good := 0 }
       Does (.lockMsgTimeout l) s (m1.each coreIds fun m c => m.core c fun k =>
         [Sys2Proof.Ab.a, .b].foldl (fun k x => k.holdIf (m.serves l x && m.blockOn (0x0712 + x.idx)) (0x0712 + x.idx) 0x66 m.ts) k).judged)
   ∧ (∀ (s : State) (q : Nat × Nat), q ∈ s.now.safe.away → 4000 ≤ s.now.time.frame - q.2 →
       let door (x : Sys2Proof.Ab) : Bool := s.now.landings.any fun l => s.now.awayLate (2 * l + x.idx)
       Does .landingDoorAway s (s.now.each coreIds fun n c => n.core c fun k =>
         [Sys2Proof.Ab.a, .b].foldl (fun k x => k.holdIf (door x) (0x0712 + x.idx) 0x65 n.ts) k).judged))
  ∧ ((∀ (s : State) (c : CoreId), (s.now.safe.cores.get c).rstEdge.isSome = true →
       Does (.resetEdge c) s ((s.now.setCore c (s.now.blocks.foldl (s.now.resetOne c)
         { s.now.safe.cores.get c with rstEdge := none, edgeAt := some s.now.time.frame })).syncSafety.resetOthers).judged)
   ∧ (∀ (s : State) (c : CoreId), (s.now.safe.cores.get c).rstActive = true →
       (s.now.safe.cores.get c).rstSince + 480001 ≤ s.now.link.frLt → Does (.resetStuck c) s (s.now.raise 1 0x62 1))
   ∧ (∀ (s : State) (c : CoreId), (s.now.safe.cores.get c).inspEntryRun = true →
       4 * s.now.nat pINSP_STOP_TIME ≤ s.now.time.frame - (s.now.safe.cores.get c).inspSince →
       Does .inspStopTimeout s (s.now.each coreIds fun m c => m.core c fun k =>
         if m.passedMs k.inspSince (m.nat pINSP_STOP_TIME) then { k with inspEntryRun := false, entryOver := k.running } else k).judged))

/-- The fault codes map to block states.
A block of a core with any of the codes 0x61, 0x66, 0x67, 0x6A to 0x6F and 0x78 in force is FAULTED (4); else
with any of 0x60, 0x63, 0x64, 0x70 to 0x77 and 0x79 it is TRIPPED (3); the codes 0x62 and 0x65 leave FB_STATE
as it is without them, and set WARNING of the block while in force with their class. -/
def Obligations.BlockStateFollowsCodes : Prop :=
  ∀ b : BlockRec,
    let faulted (c : Nat) : Prop := c = 0x61 ∨ c = 0x66 ∨ c = 0x67 ∨ (0x6A ≤ c ∧ c ≤ 0x6F) ∨ c = 0x78
    let trip (c : Nat) : Prop := c = 0x60 ∨ c = 0x63 ∨ c = 0x64 ∨ (0x70 ≤ c ∧ c ≤ 0x77) ∨ c = 0x79
    ((∃ c ∈ b.codes, faulted c) → fbState b = 4)
    ∧ ((∀ c ∈ b.codes, ¬ faulted c) → (∃ c ∈ b.codes, trip c) → fbState b = 3)
    ∧ fbState b = fbState { b with codes := b.codes.filter fun c => c != 0x62 && c != 0x65 }
    ∧ (∀ (m : Mach) (f : FaultRec), f ∈ m.faults → f.unit = b.handle → (f.code = 0x62 ∨ f.code = 0x65) →
        f.cls = blockClass f.unit f.code → m.ownWarning b.handle = true)

/-- Login, sessions, the lockout, and the staging of a configuration.
CAB_LOGIN is refused 0x21 during a lockout and 0x02 with a session or a login pending, else answered 0x01 and
verified. LOGIN_VERIFIED, with a login pending: where the slot is below 4 and set at the end of the frame
before, the password has its form, every core that votes agrees and the hash is that slot's, the session of
that slot opens with its first staged set (empty, or the newest copy's values with no configuration in force),
the failures are 0, recorded, and it completes with 0x00; else the failures count one, up to 255, recorded in
both state blocks, from the fifth on the lockout runs 10 min, doubled for each further one up to the twelfth
and 1440 min beyond, with 0xE8 F1 and a CABINET event, and it completes with 0x20. CAB_LOGOUT: 0x00; an open
session ends at the next tick. SESSION_EXPIRED: 900 s after it opened. The end of a session discards the
staged set, ends every bench and a learning run, and posts the cause. CAB_LOCKOUT_END, with no lockout time
left and 0xE8 in force: 0xE8 ends, and both state blocks record it. LOCKOUT_STATE_WRITE, once per second of a
lockout: the failures and the whole seconds left, rounded up, are recorded in both state blocks. CAB_STAGE
without a session is refused 0x20, during a commit 0x02, with an entry refused 0x13 or a result above 2048
staged entries 0x13, with an entry of a unit that does not exist and none of those 0x30; else every entry is
staged in turn and the reply counts the staged set. CAB_DISCARD without a session is refused 0x20, during a
commit 0x02, else it empties the set. CAB_LOG_READ of none or more than 15 entries is refused 0x13; else, from
the first entry named or the oldest still held, the number asked for or as many as there are: where each
passes its sequence and mark checks, the reply gives the head, the overwrites, whether entries were lost, how
many follow, and their 256 bytes each; where one fails, 0x23. A refusal, and CAB_LOG_READ, change nothing. -/
def Obligations.LoginStagingAndLockout : Prop :=
  ((∀ (s : State) (tag slot : Nat) (p : List Nat), Serves s 0x80 →
       (0 < s.now.cab.lockout → Answers (.cabLogin tag slot p) s 0x80 tag 0x21 [] s.now)
       ∧ (s.now.cab.lockout = 0 → (s.now.session = true ∨ s.now.cab.login.isSome = true) →
         Answers (.cabLogin tag slot p) s 0x80 tag 0x02 [] s.now)
       ∧ (s.now.cab.lockout = 0 → s.now.session = false → s.now.cab.login = none →
         Answers (.cabLogin tag slot p) s 0x80 tag 0x01 [] { s.now with cab.login := some ⟨slot, p, tag, s.now.time.frame⟩ }))
   ∧ (∀ (s : State) (r : LoginRun) (agree : Three Bool), s.now.cab.login = some r →
       let good := r.slot < 4 ∧ s.shown.slotSet r.slot = true ∧ passwordOk r.pwd = true ∧ s.now.coresIn.all agree.get = true
         ∧ passwordHash (s.shown.cred r.slot).salt r.slot r.pwd = (s.shown.cred r.slot).hash
       (good → Does (.loginVerified agree) s (({ s.now with
         cab.login := none
         cab.session := some r.slot
         cab.staged := s.now.firstStaged
         cab.sessAt := s.now.time.frame
         cab.fails := 0
         cab.locked := ⟨(0, (s.now.cab.lockout + 3999) / 4000), (0, (s.now.cab.lockout + 3999) / 4000)⟩ } : Mach).completed 0x80 r.tag 0x00 0 r.slot))
       ∧ (¬ good →
         let n := min 255 (s.now.cab.fails + 1)
         let d := if n < 5 then 0 else if n ≤ 12 then 10 * 2 ^ (n - 5) else 1440
         let m1 : Mach := { s.now with cab.login := none, cab.fails := n, cab.lockout := 240000 * d, cab.locked := ⟨(n, 60 * d), (n, 60 * d)⟩ }
         (d = 0 → Does (.loginVerified agree) s (m1.completed 0x80 r.tag 0x20 0 r.slot))
         ∧ (0 < d → Does (.loginVerified agree) s (((m1.raise 0 0xE8 1).post 7 2 0 0 (60 * d)).completed 0x80 r.tag 0x20 0 r.slot))))
   ∧ (∀ (s : State) (tag : Nat), Serves s 0x81 →
       Answers (.cabLogout tag) s 0x81 tag 0x00 [] { s.now with cab.logoutReq := s.now.session })
   ∧ (∀ s : State, s.now.session = true → 3600000 ≤ s.now.time.frame - s.now.cab.sessAt → Does .sessionExpired s (s.now.endSession 0))
   ∧ (∀ (m : Mach) (cause : Nat), m.session = true →
       m.endSession cause = (({ m with cab.session := none, cab.logoutReq := false, cab.staged := [] } : Mach).endBenches.endLearn).post 7 1 0 cause 0))
  ∧ ((∀ s : State, s.now.cab.lockout = 0 → s.now.inForce 0 0xE8 = true →
       Does .cabLockoutEnd s (({ s.now with cab.locked := ⟨(s.now.cab.fails, 0), (s.now.cab.fails, 0)⟩ } : Mach).endFault 0 0xE8))
   ∧ (∀ s : State, 0 < s.now.cab.lockout → (s.now.cab.lockout + 3999) / 4000 < s.now.lockSaved.2 →
       let k := (s.now.cab.fails, (s.now.cab.lockout + 3999) / 4000)
       Does .lockoutStateWrite s { s.now with cab.locked := ⟨k, k⟩ }))
  ∧ ((∀ (s : State) (tag : Nat) (es : List StageEntry), Serves s 0x82 →
       let new := (es.map stagedOf).foldl stagePut s.now.cab.staged
       (s.now.session = false → Answers (.cabStage tag es) s 0x82 tag 0x20 [] s.now)
       ∧ (s.now.session = true → s.now.cab.commit.isSome = true → Answers (.cabStage tag es) s 0x82 tag 0x02 [] s.now)
       ∧ (s.now.session = true → s.now.cab.commit = none →
         (((∃ e ∈ es, s.now.stageStatus e = 0x13) ∨ 2048 < new.length) → Answers (.cabStage tag es) s 0x82 tag 0x13 [] s.now)
         ∧ ((∀ e ∈ es, s.now.stageStatus e ≠ 0x13) → new.length ≤ 2048 → (∃ e ∈ es, s.now.stageStatus e = 0x30) →
           Answers (.cabStage tag es) s 0x82 tag 0x30 [] s.now)
         ∧ ((∀ e ∈ es, s.now.stageStatus e = 0) → new.length ≤ 2048 →
           Answers (.cabStage tag es) s 0x82 tag 0x00 (le 2 new.length) { s.now with cab.staged := new })))
   ∧ (∀ (s : State) (tag : Nat), Serves s 0x84 →
       (s.now.session = false → Answers (.cabDiscard tag) s 0x84 tag 0x20 [] s.now)
       ∧ (s.now.session = true → s.now.cab.commit.isSome = true → Answers (.cabDiscard tag) s 0x84 tag 0x02 [] s.now)
       ∧ (s.now.session = true → s.now.cab.commit = none → Answers (.cabDiscard tag) s 0x84 tag 0x00 [] { s.now with cab.staged := [] }))
   ∧ (∀ (s : State) (tag first n : Nat), Serves s 0x85 →
       ((n < 1 ∨ 15 < n) → Answers (.cabLogRead tag first n) s 0x85 tag 0x13 [] s.now)
       ∧ (1 ≤ n → n ≤ 15 →
         let a := max first s.now.logOldest
         let k := min n (s.now.cab.head + 1 - a)
         ((∀ i, i < k → s.now.logGood (a + i) = true) →
           Answers (.cabLogRead tag first n) s 0x85 tag 0x00 (le 4 s.now.cab.head ++ le 4 s.now.cab.overwrites
             ++ [b2n (decide (first < s.now.logOldest) && decide (1 ≤ first)), k]
             ++ (List.range k).flatMap fun i => s.now.peek (logAddr (a + i)) 256) s.now)
         ∧ ((∃ i, i < k ∧ s.now.logGood (a + i) = false) → Answers (.cabLogRead tag first n) s 0x85 tag 0x23 [] s.now))))

/-- The staged set stays ascending, with one value for each unit and parameter.
Staging an entry in a set that is strictly ascending by unit and parameter keeps it so, makes the entry a
member, keeps every entry of another unit or parameter, and adds nothing else. -/
def Obligations.StagedSetHoldsOneValueEach : Prop :=
  ∀ (l : List Staged) (e : Staged),
    let below (a b : Staged) : Prop := a.handle < b.handle ∨ (a.handle = b.handle ∧ a.id < b.id)
    l.Pairwise below →
    (stagePut l e).Pairwise below ∧ e ∈ stagePut l e
    ∧ (∀ x ∈ l, (x.handle ≠ e.handle ∨ x.id ≠ e.id) → x ∈ stagePut l e)
    ∧ (∀ x ∈ stagePut l e, x = e ∨ (x ∈ l ∧ (x.handle ≠ e.handle ∨ x.id ≠ e.id)))

/-- A password is changed when every core computes the same value.
CAB_PASSWORD is refused 0x02 while another runs, or with the status that its rows give (passwordStatus), else
answered 0x01 and computed. PASSWORD_WRITTEN, with one running: where every core that votes agrees, the record
of its slot becomes in both state blocks a fresh salt and the hash of the password, or cleared for an empty
one, the change is logged (kind 1, or 2 for a cleared one) and it completes with 0x00; the records of the
other slots stay. Where they do not all agree nothing is written, and it completes with 0x20. (The salt is the
secure element's random value, a free value of the model, notes/assumptions/9.md; the completion status of a
disagreement is notes/assumptions/12.md.) -/
def Obligations.PasswordChangeCompletes : Prop :=
  (∀ (s : State) (tag slot : Nat) (p : List Nat), Serves s 0x86 →
      (s.now.cab.pwd.isSome = true → Answers (.cabPassword tag slot p) s 0x86 tag 0x02 [] s.now)
      ∧ (s.now.cab.pwd = none → s.now.passwordStatus slot p ≠ 0x01 → Answers (.cabPassword tag slot p) s 0x86 tag (s.now.passwordStatus slot p) [] s.now)
      ∧ (s.now.cab.pwd = none → s.now.passwordStatus slot p = 0x01 → Answers (.cabPassword tag slot p) s 0x86 tag 0x01 []
        { s.now with cab.pwd := some ⟨slot, p, tag, s.now.time.frame, s.now.cab.session.getD 0⟩ }))
  ∧ (∀ (s : State) (r : PwdRun) (agree : Three Bool), s.now.cab.pwd = some r → s.now.coresIn.all agree.get = true →
      let d := ({ s.now with cab.pwd := none } : Mach).drawSalt
      let c : Cred := if r.pwd = [] then Cred.reset else ⟨d.2, passwordHash d.2 r.slot r.pwd⟩
      Does (.passwordWritten agree) s (((d.1.writeBlocks (updAt s.now.creds r.slot fun _ => c) s.now.lockSaved).logEvent
        (if r.pwd = [] then 2 else 1) r.bySlot r.slot).completed 0x86 r.tag 0x00 0 0))
  ∧ (∀ (s : State) (r : PwdRun) (agree : Three Bool), s.now.cab.pwd = some r → s.now.coresIn.all agree.get = true → r.slot < 4 →
      s.now.creds.length = 4 →
      ∃ t, exec (.passwordWritten agree) s = .next t ∧ t.now.cab.pwd = none
        ∧ ∀ x : Sys2Proof.Ab, (r.pwd = [] → nth (t.now.cab.creds.get x) r.slot Cred.reset = Cred.reset)
          ∧ (r.pwd ≠ [] → nth (t.now.cab.creds.get x) r.slot Cred.reset
              = ⟨s.now.drawSalt.2, passwordHash s.now.drawSalt.2 r.slot r.pwd⟩)
          ∧ (∀ k, k < 4 → k ≠ r.slot → nth (t.now.cab.creds.get x) k Cred.reset = nth s.now.creds k Cred.reset)
          ∧ t.now.cab.locked.get x = s.now.lockSaved)
  ∧ (∀ (s : State) (r : PwdRun) (agree : Three Bool), s.now.cab.pwd = some r → s.now.coresIn.all agree.get = false →
      Does (.passwordWritten agree) s (({ s.now with cab.pwd := none } : Mach).completed 0x86 r.tag 0x20 0 0))

/-- CAB_COMMIT is accepted only in a session, at a standstill, outside a proof test.
With no commit running, CAB_COMMIT is answered 0x01 PENDING and begins, frozen with the staged set as its
entries, exactly while a session is open, the staged set is not empty, the conditions of R12 hold, no run is
in progress and no core is in its proof test. Without a session or anything staged it is refused 0x20, else
outside R12 or in a run 0x22, else during a proof test 0x02; in a session with a commit running 0x02. A
refused one changes nothing. -/
def Obligations.CommitAcceptedOnlyWhenAllowed : Prop :=
  (∀ (s : State) (tag : Nat), Serves s 0x83 → s.now.cab.commit.isSome = true → s.now.cab.session.isSome = true →
    Answers (.cabCommit tag) s 0x83 tag 0x02 [] s.now)
  ∧ ∀ (s : State) (tag : Nat), Serves s 0x83 → s.now.cab.commit = none →
    ((s.now.cab.session = none ∨ s.now.cab.staged = []) → Answers (.cabCommit tag) s 0x83 tag 0x20 [] s.now)
    ∧ (∀ slot, s.now.cab.session = some slot → s.now.cab.staged ≠ [] →
      ((s.now.still = false ∨ s.now.inRun = true) → Answers (.cabCommit tag) s 0x83 tag 0x22 [] s.now)
      ∧ (s.now.still = true → s.now.inRun = false →
        (s.now.triad.proof.isSome = true → Answers (.cabCommit tag) s 0x83 tag 0x02 [] s.now)
        ∧ (s.now.triad.proof = none → Answers (.cabCommit tag) s 0x83 tag 0x01 [] { s.now with
          cab.commit := some { CommitRun.reset with
            atF := s.now.time.frame, tag := tag, slot := slot, entries := s.now.cab.staged } })))

/-- A commit is judged by the cores, reaches its point and completes.
COMMIT_VERDICTS of a commit accepted: a car that moves or a run aborts it; verdicts not delivered by every
core that votes, or later than 50 ms, raise 0xDB F3 and end it with 0x20; a configuration that fails a check
ends it with 0x13 and names the entry; one that changes nothing empties the staged set and ends it with 0x00;
any other writes the first copy without its mark, with the next generation, and logs each changed value.
COMMIT_POINT: a car that moves or a run aborts the commit; else the first copy is marked valid, and the
channel records that the values change are queued for the field side. COMMIT_COMPLETE, once the values are in
force: the other copy is written and marked, the staged set is empty, 0xD9 and 0xDA end, the command completes
with 0x00 and the generation, and a start-up that waited for it goes on. An abort marks the log entries of the
commit ABORTED, puts nothing in force and ends it with 0x22. -/
def Obligations.CommitRunsToItsPoint : Prop :=
  (∀ (s : State) (r : CommitRun) (d : Three Bool), s.now.cab.commit = some r → r.phase = 0 →
      let vals := s.now.cabResult r.entries
      let bad := (s.now.withCab vals).failing
      let m1 := s.now.endFault 0 0xDB
      (s.now.commitAborts = true → Does (.commitVerdicts d) s s.now.abortCommit)
      ∧ (s.now.commitAborts = false →
        ((s.now.coresIn.all d.get = false ∨ 200 < s.now.time.frame - r.atF) →
          Does (.commitVerdicts d) s ((s.now.raise 0 0xDB 3).endCommit r 0x20 0))
        ∧ (s.now.coresIn.all d.get = true → s.now.time.frame - r.atF ≤ 200 →
          (bad ≠ [] → Does (.commitVerdicts d) s (({ m1 with
            cab.rejUnit := (rejected r.entries bad).1
            cab.rejId := (rejected r.entries bad).2 } : Mach).endCommit r 0x13
              ((rejected r.entries bad).1 + 65536 * (rejected r.entries bad).2)))
          ∧ (bad = [] → vals = cabCells s.now.params →
            Does (.commitVerdicts d) s (({ m1 with cab.staged := [] } : Mach).endCommit r 0x00 s.now.cab.gen))
          ∧ (bad = [] → vals ≠ cabCells s.now.params →
            let f := s.now.firstCopy s.now.nextGen
            let ch := r.entries.filter fun (e : Staged) => e.val != s.now.valAt e.handle e.id
            let r1 : CommitRun := { r with phase := 1, gen := s.now.nextGen, first := f, vals := vals, logFrom := s.now.cab.head + 1, logN := ch.length }
            Does (.commitVerdicts d) s ((({ m1 with cab.commit := some r1 } : Mach).writeCopy f false s.now.nextGen vals).logChanges r1 ch) ∧
            ∃ t, exec (.commitVerdicts d) s = .next t ∧ t.now.cab.copies.get f = ⟨false, s.now.nextGen, vals⟩
              ∧ t.now.cab.copies.get f.other = s.now.cab.copies.get f.other
              ∧ (∃ r1, t.now.cab.commit = some r1 ∧ r1.phase = 1 ∧ r1.gen = s.now.nextGen ∧ r1.vals = vals)))))
  ∧ (∀ (s : State) (r : CommitRun), s.now.cab.commit = some r → r.phase = 1 →
      (s.now.commitAborts = true → Does .commitPoint s s.now.abortCommit)
      ∧ (s.now.commitAborts = false → Does .commitPoint s (({ s.now with
        cab.copies := s.now.cab.copies.upd r.first fun (c : CabCopy) => { c with mark := true }
        cab.commit := some { r with phase := 2, atF := s.now.time.frame } } : Mach).sendChanged s.now)))
  ∧ (∀ (s : State) (r : CommitRun), s.now.cab.commit = some r → r.phase = 3 →
      Does .commitComplete s ((((({ s.now with cab.staged := [] } : Mach).writeCopy r.first.other true r.gen r.vals).endFault 0 0xD9).endFault 0 0xDA
        |>.endCommit r 0x00 r.gen).startResume))
  ∧ (∀ (m : Mach) (r : CommitRun), m.cab.commit = some r → m.commitAborts = true →
      m.abortCommit = ({ m.commitLog r 1 with cab.commit := none } : Mach).completed 0x83 r.tag 0x22 0 0)

/-- Proof tests start, run and end.
PROOF_TEST of a core above 2 other than 0xFF is refused 0x13; with an excluded core or a lost triad 0x22; with
a test, a login, a commit or a password computation running 0x02; else it is answered 0x01 and the test
begins, 0xFF naming the core that passed longest ago. PROOF_AUTO_START (PROOF_AUTO, READY, RUN or IDLE, no
run, no side closing or nudging, nothing that bars a test, the interval of the core due first passed) and
READMISSION_START (READMIT_MODE 1, the core the only one excluded, no triad lost, no test, its cause ended,
fewer than three exclusions that count) begin the core's test. PROOF_OVERDUE, beyond the interval and 60 min,
raises 0x14 F3; DUPLEX_EXPIRED, with an excluded core under policy 1, the triad not lost and no duplex time
left, 0x12 F3. The start of a test changes nothing but the triad's record of it, and forgets any failed test.
PROOF_TEST_END, 161 frames after the frame that accepted the test: a core none of whose tests has failed
begins its rejoin, with its stop bit and concordance count cleared, its estimate taken anew and its blocks
evaluated; one with a failed test fails. PROOF_REJOIN, with both conditions of the rejoin met: the pass is
dated, posted and completes with 0x00, 0x13 ends unless it is another core's, 0x14 ends where every core has
passed in time, and the test is over; on a re-admission the core's cause, 0x10 and 0x12 end, and it is taken
back into the vote. PROOF_FAILED, 400 frames after the rejoin began without it: the core fails. A failure
raises 0x13 F1, completes with 0x31, ends the test and proposes the exclusion with cause 0x13, or, on a re-
admission, counts as an exclusion. -/
def Obligations.ProofTestsStartAndRun : Prop :=
  ((∀ (s : State) (tag core : Nat), Serves s 0xA3 → core ≠ 0xFF → 3 ≤ core → Answers (.proofTest tag core) s 0xA3 tag 0x13 [] s.now)
   ∧ (∀ (s : State) (tag core : Nat), Serves s 0xA3 → (core < 3 ∨ core = 0xFF) →
       let c := if core = 0xFF then s.now.dueFirst else coreOfNat core
       ((s.now.anyExcluded = true ∨ s.now.triad.lost = true) → Answers (.proofTest tag core) s 0xA3 tag 0x22 [] s.now)
       ∧ (s.now.anyExcluded = false → s.now.triad.lost = false →
         ((s.now.triad.proof.isSome = true ∨ s.now.cab.login.isSome = true ∨ s.now.cab.commit.isSome = true ∨ s.now.cab.pwd.isSome = true) →
           Answers (.proofTest tag core) s 0xA3 tag 0x02 [] s.now)
         ∧ (s.now.triad.proof = none → s.now.cab.login = none → s.now.cab.commit = none → s.now.cab.pwd = none →
           Answers (.proofTest tag core) s 0xA3 tag 0x01 [] (s.now.proofStart c (some tag) false))))
   ∧ (∀ s : State, s.now.flag pPROOF_AUTO = true → s.now.start.ready = true → s.now.power.state ≤ 1 →
       s.now.nat pPROOF_INTERVAL * 3600000000 ≤ s.now.sincePass s.now.dueFirst → s.now.proofStatus s.now.dueFirst = 0x01 →
       s.now.inRun = false → (∀ d : Sys2Proof.Ab, (s.now.doors.get d).state ≠ 4 ∧ (s.now.doors.get d).state ≠ 7) →
       Does .proofAutoStart s (s.now.proofStart s.now.dueFirst none false))
   ∧ (∀ (s : State) (c : CoreId) (checked : Bool), s.now.nat pREADMIT_MODE = 1 → s.now.triad.excluded.get c = true →
       s.now.triad.excluded.count = 1 → s.now.triad.lost = false → s.now.triad.proof = none → s.now.causeEnded c checked = true →
       s.now.exclusions c < 3 → Does (.readmissionStart ⟨c, checked⟩) s (s.now.proofStart c none true))
   ∧ (∀ (s : State) (c : CoreId), s.now.nat pPROOF_INTERVAL * 3600000000 + 3600000000 < s.now.ts - s.now.triad.proofLast.get c →
       Does (.proofOverdue c) s (s.now.raise 0x0500 0x14 3))
   ∧ (∀ s : State, s.now.nat pTRIAD_DEGRADED_POLICY = 1 → s.now.anyExcluded = true → s.now.triad.lost = false →
       s.now.triad.duplexLeft = 0 →
       Does .duplexExpired s (s.now.raise 0x0500 0x12 3)))
  ∧ ((∀ (m : Mach) (c : CoreId) (tag : Option Nat) (re : Bool),
       (m.proofStart c tag re).triad.proof = some c ∧ (m.proofStart c tag re).triad.proofAt = m.time.frame
       ∧ (m.proofStart c tag re).triad.proofTag = tag ∧ (m.proofStart c tag re).triad.readmit = re
       ∧ (m.proofStart c tag re).triad.proofBad = false
       ∧ changesOnly [.triad] m (m.proofStart c tag re))
   ∧ (∀ (s : State) (c : CoreId), s.now.triad.proof = some c → s.now.triad.proofOut = true →
       s.now.triad.proofAt + 161 ≤ s.now.time.frame →
       (s.now.triad.proofBad = true → Does .proofTestEnd s (s.now.proofFails c))
       ∧ (s.now.triad.proofBad = false → Does .proofTestEnd s ((({ s.now with
         triad.proofOut := false
         triad.rejoinAt := s.now.time.frame
         triad.rejoinRun := 0
         triad.stopVec := s.now.triad.stopVec.set c false
         pos.discord := s.now.pos.discord.map fun _ (d : DiscordState) => { d with concord := d.concord.set c 0 } } : Mach).rejoinEst c).evaluateKept c)))
   ∧ (∀ (s : State) (c : CoreId), s.now.triad.proof = some c → s.now.triad.rejoinAt ≠ 0 → 16 ≤ s.now.triad.rejoinRun →
       4 ≤ (s.now.pos.discord.get s.now.apOf).concord.get c →
       let m1 := (({ s.now with triad.proofLast := s.now.triad.proofLast.set c s.now.ts } : Mach).post 8 1 0x0500 c.idx 0).proofDone 0x00
       let m2 := m1.endIf 0x0500 0x13 (s.now.triad.causes.all fun x => x.1 == c.idx || x.2 != 0x13)
       let m3 := m2.endIf 0x0500 0x14 m2.provedInTime
       (s.now.triad.readmit = false → Does .proofRejoin s m3.proofOver)
       ∧ (s.now.triad.readmit = true → Does .proofRejoin s (({ m3.endCause c with
           triad.excluded := m3.triad.excluded.set c false
           field.exclMask := m3.triad.excluded.set c false
           triad.causes := m3.triad.causes.filter fun (x : Nat × Nat) => x.1 != c.idx
           triad.readmits := sat32 m3.triad.readmits
           triad.duplexLeft := if m3.nat pTRIAD_DEGRADED_POLICY == 1 then hF (m3.nat pTRIAD_DEGRADED_LIMIT) else m3.triad.duplexLeft } : Mach).post
             8 4 0x0500 c.idx 0).proofOver))
   ∧ (∀ (s : State) (c : CoreId), s.now.triad.proof = some c → s.now.triad.rejoinAt ≠ 0 →
       (s.now.triad.rejoinRun < 16 ∨ (s.now.pos.discord.get s.now.apOf).concord.get c < 4) →
       s.now.triad.rejoinAt + 400 ≤ s.now.time.frame → Does .proofFailed s (s.now.proofFails c))
   ∧ (∀ (m : Mach) (c : CoreId), let m1 := ((m.raise 0x0500 0x13 1).proofDone 0x31).proofOver
       (m.triad.readmit = true → m.proofFails c = { m1 with triad.exclTimes := m1.triad.exclTimes ++ [(c.idx, m1.time.frame)] })
       ∧ (m.triad.readmit = false → m.proofFails c = { m1 with
         triad.propose := m1.triad.propose.set c true
         triad.causes := (m1.triad.causes.filter fun (x : Nat × Nat) => x.1 != c.idx) ++ [(c.idx, 0x13)] })))

/-- The clock monitors judge at the end of a gate, and a core that misses its tick says so.
CLOCK_GATE_END judges the counts, and the clocks that have lost lock, of a gate: every monitor's runs and
deviations, each single monitor, then the three SAFE domains, a domain without lock counting nothing; a SYS
PLL out of lock raises 0x08 F5. The domains raise nothing when fine, 0x08 F5 when all read alike wrong, 0x0A
F5 for any other pattern, also where 0x0A is in force with a lesser class; for one core alone that is not
excluded, 0x0A (F2 under degraded policy 1, else F3) and a proposed exclusion; one that is excluded adds
nothing. FRAME_TICK_LOST: the core stops latching vectors and 0x0F F5 is raised. -/
def Obligations.ClockEventsComplete : Prop :=
  (∀ (s : State) (counts unlocked : List Nat),
      let r := s.now.clockRuns counts unlocked
      let m1 : Mach := { r.each r.clockFaults fun m x => m.judgeClock counts unlocked x with time.gateSpans := false }
      let m2 := if 0 ∈ unlocked then m1.raise 0 0x08 5 else m1
      let n (k : Nat) : Nat := if k ∈ unlocked then 0 else nth counts k 0
      (safePattern (n 3) (n 4) (n 5) = .fine → Does (.clockGateEnd ⟨counts, unlocked⟩) s m2)
      ∧ (safePattern (n 3) (n 4) (n 5) = .sys → Does (.clockGateEnd ⟨counts, unlocked⟩) s (m2.raise 0 0x08 5))
      ∧ (safePattern (n 3) (n 4) (n 5) = .other → Does (.clockGateEnd ⟨counts, unlocked⟩) s (m2.raiseWorse 0x0500 0x0A 5))
      ∧ (∀ c, safePattern (n 3) (n 4) (n 5) = .one c →
        (m2.triad.excluded.get c = true → Does (.clockGateEnd ⟨counts, unlocked⟩) s m2)
        ∧ (m2.triad.excluded.get c = false → Does (.clockGateEnd ⟨counts, unlocked⟩) s { m2.raise 0x0500 0x0A
            (if m2.nat pTRIAD_DEGRADED_POLICY = 1 then 2 else 3) with
          triad.propose := m2.triad.propose.set c true
          triad.causes := (m2.triad.causes.filter fun (x : Nat × Nat) => x.1 != c.idx) ++ [(c.idx, 0x0A)] })))
  ∧ (∀ (s : State) (c : CoreId), Does (.frameTickLost c) s
      { s.now.raise 0 0x0F 5 with time.ticksMissed := s.now.time.ticksMissed.set c true })

/-- The events of the application pair, SWITCH_OVER, SWITCH_BACK and PAIR_STATUS.
TAKEOVER, in the first frame that a new holder delivers: the change is counted and posted, the ballast frames
and the age of the copy are noted, dual transmission runs for 64 frames and 0x21 ends; a copy older than four
frames raises 0x25 F4. PAIR_NO_HOLDER, from READY on and outside PARK, three frames without a holder: 0x24 F4.
SNAPSHOT_COMPLETE, with eight chunks: the copy state is that of the snapshot's frame; a standby that is
syncing or in sync and whose copy differed (by the deltas, the snapshot or its lack) returns to SYNCING with
the copy, its position that of the holder where it had none. STANDBY_IN_SYNC: a SYNCING processor with the
snapshot, 64 clean frames, the same version and no integrity fault becomes STANDBY, and 0x20, 0x22, 0x23 and
0x3A end. AP_RESET_RELEASE, its 1 ms over: the reset is released; a processor that was OFF for a reload is
BOOTING, and 0x20 F2 is raised if it has been STANDBY. DUAL_TX_END, its periods over: dual transmission ends.
During a proof test SWITCH_OVER and SWITCH_BACK are refused 0x02. SWITCH_BACK with the preferred processor
holding the tether is answered 0x00 and changes nothing. Where the processor to switch to, the other than the
holder (the preferred one without a holder) or the preferred one, is not STANDBY, a switch is refused 0x22;
else it is answered 0x00 and the tether is to be passed to it. PAIR_STATUS reports the triad, the roles, the
holder and the counters of the frame before, and the preferred processor, and changes nothing. -/
def Obligations.PairEventsAndSwitchCommands : Prop :=
  ((∀ s : State, s.now.pair.takeover = true → s.now.pair.holder.isSome = true → s.now.time.ballast = false →
       let t := s.now.time.frame
       let m1 : Mach := { s.now with
         pair.takeover := false
         pair.switches := sat32 s.now.pair.switches
         pair.ballast := satAdd 32 s.now.pair.ballast (t - s.now.pair.lastDelivered - 1)
         pair.age := min 255 (t - s.now.pair.copyFrame)
         pair.copyFrame := t
         pair.lastDelivered := t
         pair.deltaOk := true
         pair.deltaGap := 0
         pair.dualUntil := some (t + 64) }
       let m2 := (m1.post 8 2 0x0600 (if s.now.pair.holder = some .a then 1 else 2) 0).endFault 0x0600 0x21
       (t - s.now.pair.copyFrame ≤ 4 → Does .takeover s m2)
       ∧ (4 < t - s.now.pair.copyFrame → Does .takeover s (m2.raise 0x0600 0x25 4)))
   ∧ (∀ s : State, s.now.start.ready = true → s.now.power.state ≠ 3 → s.now.pair.holder = none → 3 ≤ s.now.pair.noHolder →
       Does .pairNoHolder s (s.now.raise 0x0600 0x24 4))
   ∧ (∀ (s : State) (f : Nat) (h : Sys2Proof.Ab), s.now.pair.snapFor = some f → s.now.pair.holder = some h → s.now.pair.snapChunks = 8 →
       let m1 : Mach := { s.now with
         pair.snapFor := none
         pair.snapChunks := 0
         pair.snapEq := true
         pair.snapFrame := f % 2 ^ 32
         pair.deltaOk := true
         pair.deltaGap := 0
         pair.copyFrame := s.now.time.frame }
       let eq := s.now.pair.deltaOk && s.now.pair.snapEq && (s.now.ap h.other).gotSnapshot
       let r := (s.now.ap h.other).role
       let m2 := (m1.unsync h.other).onAp h.other fun x => { x with gotSnapshot := true, cleanRun := 0 }
       ((eq = true ∨ r = 0 ∨ r = 1 ∨ r = 5) → Does .snapshotComplete s m1)
       ∧ (eq = false → r ≠ 0 → r ≠ 1 → r ≠ 5 →
         ((m2.pos.est.get h.other.proc).inited = true → Does .snapshotComplete s m2)
         ∧ ((m2.pos.est.get h.other.proc).inited = false →
           Does .snapshotComplete s { m2 with pos.est := m2.pos.est.set h.other.proc (m2.pos.est.get h.proc) })))
   ∧ (∀ (s : State) (h : Sys2Proof.Ab), s.now.pair.holder = some h → (s.now.ap h.other).role = 2 → (s.now.ap h.other).gotSnapshot = true →
       64 ≤ (s.now.ap h.other).cleanRun → (s.now.ap h.other).compat = (s.now.ap h).compat → (s.now.ap h.other).integrity = false →
       Does .standbyInSync s (((((s.now.onAp h.other fun x => { x with role := 3, everStandby := true }).endFault 0x0600 0x20).endFault
         0x0600 0x22).endFault 0x0600 0x23).endFault 1 0x3A))
   ∧ (∀ (s : State) (a : Sys2Proof.Ab) (f : Nat), (s.now.ap a).resetUntil = some f → f ≤ s.now.time.frame →
       let m1 := s.now.onAp a fun x => { x with resetUntil := none }
       let m2 := m1.onAp a fun x => { x with role := 1 }
       ((s.now.ap a).role ≠ 0 → Does (.apResetRelease a) s m1)
       ∧ ((s.now.ap a).role = 0 → (s.now.ap a).everStandby = false → Does (.apResetRelease a) s m2)
       ∧ ((s.now.ap a).role = 0 → (s.now.ap a).everStandby = true → Does (.apResetRelease a) s (m2.raise 0x0600 0x20 2)))
   ∧ (∀ (s : State) (f : Nat), s.now.pair.dualStart = true → 64 ≤ s.now.pair.standbyRun → s.now.pair.dualUntil = some f →
       Does .dualTxEnd s { s.now with
         pair.dualStart := false
         pair.dualUntil := if f ≤ s.now.time.frame then none else some f })
   ∧ (∀ (s : State) (f : Nat), s.now.pair.dualStart = false → s.now.pair.dualUntil = some f → f ≤ s.now.time.frame →
       Does .dualTxEnd s { s.now with pair.dualUntil := none }))
  ∧ ((∀ (s : State) (tag : Nat), Serves s 0xA1 →
       let to1 := match s.now.pair.holder with
         | some h => h.other
         | none => s.now.preferred
       (s.now.triad.proof.isSome = true → Answers (.switchOver tag) s 0xA1 tag 0x02 [] s.now)
       ∧ (s.now.triad.proof = none → (s.now.ap to1).role ≠ 3 → Answers (.switchOver tag) s 0xA1 tag 0x22 [] s.now)
       ∧ (s.now.triad.proof = none → (s.now.ap to1).role = 3 →
         Answers (.switchOver tag) s 0xA1 tag 0x00 [] { s.now with pair.passTo := some (to1, 0) }))
   ∧ (∀ (s : State) (tag : Nat), Serves s 0xA2 →
       let p := s.now.preferred
       (s.now.triad.proof.isSome = true → Answers (.switchBack tag) s 0xA2 tag 0x02 [] s.now)
       ∧ (s.now.triad.proof = none → s.now.pair.holder = some p → Answers (.switchBack tag) s 0xA2 tag 0x00 [] s.now)
       ∧ (s.now.triad.proof = none → s.now.pair.holder ≠ some p → (s.now.ap p).role ≠ 3 →
         Answers (.switchBack tag) s 0xA2 tag 0x22 [] s.now)
       ∧ (s.now.triad.proof = none → s.now.pair.holder ≠ some p → (s.now.ap p).role = 3 →
         Answers (.switchBack tag) s 0xA2 tag 0x00 [] { s.now with pair.passTo := some (p, 0) }))
   ∧ (∀ (s : State) (tag : Nat), Serves s 0xA0 → Answers (.pairStatus tag) s 0xA0 tag 0x00
       ([s.shown.triadMode,
         b2n (s.shown.triad.excluded.get .a) + b2n (s.shown.triad.excluded.get .b) * 2 + b2n (s.shown.triad.excluded.get .c) * 4,
         (match s.shown.triad.proof with
           | some c => c.idx + 1
           | none => 0),
         (s.shown.ap .a).role, (s.shown.ap .b).role, s.shown.holderN, s.now.nat pPAIR_PREFERRED, b2n s.shown.dualTx]
         ++ le 4 s.shown.duplexLeftS ++ le 4 s.shown.pair.switches ++ le 4 s.shown.pair.snapFrame) s.now))

/-- Link frames, their loss, and the supplies of the field domains.
DOWN_FRAME of a link tick below 40, until a state save is complete: the frame is sent, its configuration
record leaving the queue; at tick 31 the cores latch their header words; with the field side booted, at tick 4
a named pulse starts, a tick of the channels marked shorted passes, then the frame is withheld and lost where
its source words have a double-bit error, else taken where its bits as received pass the checks, else
discarded and lost; the vote closes at its tick. UP_FRAME, until then too: the frame is taken where its bits
as received pass and its buffer shows no double-bit error, else it is lost. After the save both do nothing. A
single-bit error is corrected and counted in subsystem 10. A frame taken sets the inputs, readbacks, its link
tick and the run of good frames, and changes nothing but the link. LINK_ERROR_RATE, more than 160 frames of a
lane lost within the second of link ticks that ends now: 0x92 F1. FIELD_CONFIG_MISMATCH, 64 frames: 0x96 F5.
LINK_TIMEOUT, with the field side booted and no valid frame for the timeout: the outputs go to their safe
states, the time-out is marked and counted, and 0x90 F5 is reported. SUPPLY_THRESHOLD, with the field side
booted: two samples of a domain's supply give its next state, its codes, its VF and, where it was LOW or
worse, the link tick of that, and the fallback supply of the field logic is in use exactly while both supplies
lie below 9.0 V; on fallback every channel is switched off, else, in a state that switches outputs off, the
channels of the domain are. DOMAIN_WAIT_REARM: a domain in SAG_OFF, MISSING or OVER_OFF whose supply has been
in range for 100 ms waits for its re-arm. -/
def Obligations.LinkAndSupplyEvents : Prop :=
  ((∀ (s : State) (lt err : Nat) (ecc : Ecc), lt < 40 → s.now.power.saveDone = false →
       let h := if lt = 31 then s.now.latchHeads else s.now
       let x := h.downBits lt err
       let m0 : Mach := { h.ctlSent lt with link.lt := lt }
       let m1 := (if lt = 4 then m0.pulseStart else m0).each (bitsOf s.now.field.short) Mach.shortTick
       (s.now.field.booted = false → Does (.downFrame lt ⟨err, ecc⟩) s (m0.eccSeen 10 ecc))
       ∧ (s.now.field.booted = true →
         (ecc = .double → Does (.downFrame lt ⟨err, ecc⟩) s (m1.withheldDown.voteOver lt))
         ∧ (ecc ≠ .double → m1.downGood lt x = true → Does (.downFrame lt ⟨err, ecc⟩) s (((m1.takeDown lt x).voteOver lt).eccSeen 10 ecc))
         ∧ (ecc ≠ .double → m1.downGood lt x = false → Does (.downFrame lt ⟨err, ecc⟩) s ((m1.lostDown.voteOver lt).eccSeen 10 ecc))))
   ∧ (∀ (s : State) (lt err : Nat) (ecc : Ecc), lt < 40 → s.now.power.saveDone = false →
       let x := s.now.upBits lt err
       (ecc ≠ .double → s.now.upGoodNow lt x = true → Does (.upFrame lt ⟨err, ecc⟩) s ((s.now.takeUp lt x).eccSeen 10 ecc))
       ∧ ((ecc = .double ∨ s.now.upGoodNow lt x = false) → Does (.upFrame lt ⟨err, ecc⟩) s ((s.now.lostUp lt).eccSeen 10 ecc)))
   ∧ (∀ (s : State) (lt : Nat) (w : Kept Nat), s.now.power.saveDone = true →
       exec (.downFrame lt w) s = .next s ∧ exec (.upFrame lt w) s = .next s)
   ∧ (∀ (m : Mach) (lt x : Nat), (m.takeUp lt x).link.upIn = field x 223 160 ∧ (m.takeUp lt x).link.upRb = field x 159 96
       ∧ (m.takeUp lt x).link.upAt = some (40 * m.time.frame + lt) ∧ (m.takeUp lt x).link.upGood = m.link.upGood + 1
       ∧ changesOnly [.link] m (m.takeUp lt x))
   ∧ (∀ s : State,
       (160 < (s.now.link.upLost.filter fun t => s.now.ltNow < t + 160000).length → Does (.linkErrorRate true) s (s.now.raise 0 0x92 1))
       ∧ (160 < (s.now.link.dnLost.filter fun t => s.now.ltNow < t + 160000).length → Does (.linkErrorRate false) s (s.now.raise 0 0x92 1)))
   ∧ (∀ s : State, 64 ≤ s.now.link.digBad → Does .fieldConfigMismatch s (s.now.raise 0 0x96 5))
   ∧ (∀ s : State, s.now.field.booted = true → s.now.field.timeout = false →
       linkTicks s.now.field.tmo ≤ s.now.ltNow - s.now.field.lastValid →
       let m1 := s.now.safeStates
       Does .linkTimeout s (({ m1 with
         field.timeout := true
         field.recover := 0
         field.sawSync := false
         link.timeouts := sat32 s.now.link.timeouts } : Mach).report 0 0x90 5)))
  ∧ ((∀ (s : State) (d : Sys2Proof.Ab) (s1 s2 : Nat), s.now.field.booted = true →
       let r := s.now.field.domains.get d
       let st := domainNext r s1 s2
       let m1 := ({ s.now with field.domains := s.now.field.domains.set d { r with
         state := st, sampled := true, codes := domainCodes r st s1 s2,
         heldTo := if domHolds r.state then s.now.ltNow else r.heldTo } } : Mach).vfSample d s2
       let fb := decide (m1.field.domains.a.vf < 900) && decide (m1.field.domains.b.vf < 900)
       let m2 : Mach := { m1 with field.fallback := fb }
       (fb = true → Does (.supplyThreshold d s1 s2) s (m2.allOff (List.range 64)))
       ∧ (fb = false → domOutOff st = true → Does (.supplyThreshold d s1 s2) s (m2.allOff (domainChannels d)))
       ∧ (fb = false → domOutOff st = false → Does (.supplyThreshold d s1 s2) s m2))
   ∧ (∀ (s : State) (d : Sys2Proof.Ab) (f : Nat), domInOff (s.now.field.domains.get d).state = true →
       (s.now.field.domains.get d).okSince = some f → 400 ≤ s.now.time.frame - f →
       Does (.domainWaitRearm d) s
         { s.now with field.domains := s.now.field.domains.set d { s.now.field.domains.get d with state := 6, heldTo := s.now.ltNow } }))

/-- Inputs are debounced, outputs protected and tested.
INPUT_DEBOUNCED of a channel whose inputs are evaluated, with samples that read as the last one: a wire break
may end; in the undefined band the channel is marked undefined; else the mark is cleared, and a level other
than its IN bit for CH_DEBOUNCE samples, at least one, becomes its IN bit, recorded and counted. A reading is
on from 15 V in mode 1, 2 mA in mode 3, else 11 V, off to 1.6 mA in mode 3, else 5 V; below 0.35 mA in mode 3
it is the input safe level. WIRE_BREAK of a line-monitored input (mode 3) reads at the input safe level; from
1600 samples on since its domain was last LOW or worse (wireCount) it is marked and reported 0x80 F2.
OUTPUT_LIMIT: an output whose driver is on, pulsed or not, in current limit for 5 ms, or at 165 C, is switched
off, marked and reported 0x81 or 0x82, F4 for a safety output, F2 else. OUTPUT_RETRY, after CH_RETRY_DELAY and
with the die below 145 C: the channel is driven again as wanted. GROUP_OVERLOAD, above 4.0 A for 1 s or 6.0 A
for 10 ms: every output of the group goes off, the group is marked, and each of its channels reports 0x8B, F5
in groups 0 and 1 and F3 in the others. SHORT_TO_SUPPLY of an output with its driver off: readback clear
clears its bit; readback set sets it, and for 320 link ticks, neither shorted nor crossed before, marks it and
reports 0x83, F5 for a safety output and F2 else. CHANNEL_STOPPING_END: a stopping channel, readback clear or
after 10 ms, is OFF. TEST_PULSE_END, with a pulse in progress: the pulse is over; an output follows it whose
RB did and whose driver is as at its start, on or off. One discarded meanwhile is named in the reserve slot
and shows result 3; any other is judged, the inputs on at its start are checked, and its result shown. With no
output following, one that read back high fails with result 2, is marked and reported 0x85; one that read back
low passes with result 1, its failure mark cleared, its time noted. With outputs following, all are marked
crossed and reported 0x84. -/
def Obligations.InputAndOutputEvents : Prop :=
  ((∀ (s : State) (c reading n unbroken : Nat), s.now.evaluates c = true → n ≠ 0 → s.now.readBand c reading = none →
       let m1 := s.now.wireEnds c unbroken
       Does (.inputDebounced c ⟨reading, unbroken⟩ n) s { m1 with field.undef := setBit m1.field.undef c true })
   ∧ (∀ (s : State) (c reading n unbroken : Nat) (level : Bool), s.now.evaluates c = true → n ≠ 0 → s.now.readBand c reading = some level →
       let m0 := s.now.wireEnds c unbroken
       let m1 : Mach := { m0 with field.undef := setBit m0.field.undef c false }
       ((bit m1.field.inBits c = level ∨ n < max 1 (m1.fDebounce c)) → Does (.inputDebounced c ⟨reading, unbroken⟩ n) s m1)
       ∧ (bit m1.field.inBits c ≠ level → max 1 (m1.fDebounce c) ≤ n → Does (.inputDebounced c ⟨reading, unbroken⟩ n) s
         { m1.count 9 1 c with
           field.inBits := setBit m1.field.inBits c level
           field.trans := aSet m1.field.trans c (sat32 (aGet m1.field.trans c 0)) }))
   ∧ (∀ (m : Mach) (c x : Nat),
       let at1 (on off : Nat) : Option Bool := if on ≤ x then some true else if x ≤ off then some false else none
       (m.fMode c = 1 → m.readBand c x = at1 15000 5000)
       ∧ (m.fMode c = 3 → m.readBand c x = if x < 350 then some (m.fInSafe c) else at1 2000 1600)
       ∧ (m.fMode c ≠ 1 → m.fMode c ≠ 3 → m.readBand c x = at1 11000 5000))
   ∧ (∀ (s : State) (c n : Nat), s.now.evaluates c = true → s.now.fMode c = 3 → n ≠ 0 →
       let m1 := s.now.debounced c (some (s.now.fInSafe c)) n
       (1600 ≤ s.now.wireCount c n → bit s.now.field.wire c = false →
         Does (.wireBreak c n) s (({ m1 with field.wire := setBit m1.field.wire c true } : Mach).report (0x0100 + c) 0x80 2))
       ∧ ((s.now.wireCount c n < 1600 ∨ bit s.now.field.wire c = true) → Does (.wireBreak c n) s m1))
   ∧ (∀ (m : Mach) (c n : Nat), m.wireCount c n = if domHolds (m.domState c) then 0
       else min n (m.ltNow - (m.field.domains.get (domainOf c)).heldTo))
   ∧ (∀ (m : Mach) (c n : Nat),
       (bit m.field.wire c = true → 1600 ≤ m.wireCount c n →
         m.wireEnds c n = ({ m with field.wire := setBit m.field.wire c false } : Mach).reportEnd (0x0100 + c) 0x80)
       ∧ ((bit m.field.wire c = false ∨ m.wireCount c n < 1600) → m.wireEnds c n = m)))
  ∧ ((∀ (s : State) (c us : Nat), c < 64 → outputMode (s.now.fMode c) = true → bit s.now.field.driver c = true → 5000 ≤ us →
       let m1 := s.now.limitOff c
       Does (.outputLimit c (.current us)) s
         (({ m1 with field.limit := setBit m1.field.limit c true } : Mach).report (0x0100 + c) 0x81 (s.now.outClass c 4)))
   ∧ (∀ (s : State) (c : Nat) (t : Int), c < 64 → outputMode (s.now.fMode c) = true → bit s.now.field.driver c = true → 1650 ≤ t →
       let m1 := s.now.limitOff c
       Does (.outputLimit c (.temp t)) s (({ m1 with
         field.overtemp := setBit m1.field.overtemp c true
         field.temp := aSet m1.field.temp c t } : Mach).report (0x0100 + c) 0x82 (s.now.outClass c 4)))
   ∧ (∀ (s : State) (c : Nat), bit s.now.field.retry c = true → aGet s.now.field.retryAt c 0 ≤ s.now.time.frame →
       aGet s.now.field.temp c 0 < 1450 →
       Does (.outputRetry c) s (({ s.now with
         field.retry := setBit s.now.field.retry c false
         field.retryAt := aDel s.now.field.retryAt c } : Mach).driveAll [c]))
   ∧ (∀ (s : State) (g ma us : Nat), g < 8 → bit s.now.field.groupsOff g = false →
       ((4000 < ma ∧ 1000000 ≤ us) ∨ (6000 < ma ∧ 10000 ≤ us)) →
       Does (.groupOverload g ma us) s
         ((({ s.now with field.groupsOff := setBit s.now.field.groupsOff g true } : Mach).allOff (groupChannels g)).each
           (groupChannels g) fun m c => m.report (chHandle c) 0x8B (if g ≤ 1 then 5 else 3)))
   ∧ (∀ (s : State) (c n : Nat), c < 64 → outputMode (s.now.fMode c) = true → bit s.now.field.driver c = false →
       (n = 0 → Does (.shortToSupply c n) s { s.now with field.rb := setBit s.now.field.rb c false })
       ∧ (n ≠ 0 → (n < 320 ∨ bit s.now.field.short c = true ∨ bit s.now.field.cross c = true) →
         Does (.shortToSupply c n) s { s.now with field.rb := setBit s.now.field.rb c true })
       ∧ (320 ≤ n → bit s.now.field.short c = false → bit s.now.field.cross c = false →
         Does (.shortToSupply c n) s (({ s.now with
           field.rb := setBit s.now.field.rb c true
           field.short := setBit s.now.field.short c true } : Mach).report (0x0100 + c) 0x83 (s.now.outClass c 5))))
   ∧ (∀ (s : State) (c : Nat), c < 64 → (s.now.cellAt (0x0100 + c)).own = .stopping →
       (bit s.now.field.rb c = false ∨ 40 ≤ s.now.time.frame - (s.now.cellAt (0x0100 + c)).since) →
       Does (.channelStoppingEnd c) s (s.now.cell (0x0100 + c) fun x => { x with own := .off, since := s.now.time.frame })))
  ∧ ((∀ (s : State) (p : PulseRun) (inp : PulseIn), s.now.field.pulse = some p → p.discarded = true →
       Does (.testPulseEnd inp) s { s.now with
         field.pulse := none
         field.xcPartner := none
         field.reserve := setBit s.now.field.reserve p.ch true
         field.tpResult := some (p.ch, 3) })
   ∧ (∀ (s : State) (p : PulseRun) (inp : PulseIn), s.now.field.pulse = some p → p.discarded = false →
       let m0 : Mach := { s.now with field.pulse := none, field.xcPartner := none }
       let r := m0.judgePulse p.ch p.drv inp
       Does (.testPulseEnd inp) s { r.1.checkInputs p.ch p.ins inp with field.tpResult := some (p.ch, r.2) })
   ∧ (∀ (m : Mach) (c drv : Nat) (inp : PulseIn), m.crossed c drv inp.followers = [] → inp.rb = true →
       m.judgePulse c drv inp = (({ m with field.pulseFail := setBit m.field.pulseFail c true } : Mach).report (0x0100 + c) 0x85 (m.outClass c 5), 2))
   ∧ (∀ (m : Mach) (c drv : Nat) (inp : PulseIn), m.crossed c drv inp.followers = [] → inp.rb = false → (m.judgePulse c drv inp).2 = 1
       ∧ (m.inForce (0x0100 + c) 0x84 = false → (m.pulsePassed c).inForce (0x0100 + c) 0x84 = false → (m.judgePulse c drv inp).1 = m.pulsePassed c))
   ∧ (∀ (m : Mach) (c drv : Nat) (inp : PulseIn), m.crossed c drv inp.followers ≠ [] →
       (m.judgePulse c drv inp).1 = (if inp.rb then m else m.pulsePassed c).pulseCrossed c (m.crossed c drv inp.followers))
   ∧ (∀ (m : Mach) (c drv d : Nat) (fs : List Nat), d ∈ m.crossed c drv fs ↔
       (d ∈ fs ∧ d ≠ c ∧ d < 64 ∧ outputMode (m.fMode d) = true ∧ bit m.field.driver d = bit drv d))
   ∧ (∀ (m : Mach) (c : Nat), let m1 : Mach := { m with
         field.pulseFail := setBit m.field.pulseFail c false
         field.lastTp := aSet m.field.lastTp c m.ts }
       m.pulsePassed c = if bit m.field.pulseFail c then m1.reportEnd (0x0100 + c) 0x85 else m1))

/-- BENCH_SET gives an order or is refused, and BENCH_END ends every bench.
BENCH_SET with a channel above 63 or a flag above 1 is refused 0x13; else, the first row deciding, without a
session 0x20, outside inspection mode 0x22, and for a channel in OUT_SAFE, OUT_PULSE or DISABLED, or one that
R240 refuses, 0x20. Every other BENCH_SET is answered 0x00 and nothing of the channel changes yet: its order
(on or off, with the value given, or the normal level of a channel that a block names, the session's slot and
this frame) replaces the channel's order or bench held before, and is sent to the field side until it is
received; an order replaced before it took effect is logged. An order received takes effect at the SYNC: BENCH
and the value of the channel follow it, and its entry of kind BENCH, with the slot of the session, is appended
to the change log. BENCH_END, with a bench or order held and inspection mode or the session over or an F5 in
force: every bench that is on is given the order to end. (0x13 for a channel that does not exist, and how long
an order is sent, are the model's choices, notes/assumptions/15.md and 33.md.) -/
def Obligations.BenchCommandsAnswered : Prop :=
  (∀ (s : State) (tag ch b v : Nat), Serves s 0x44 → (64 ≤ ch ∨ 2 ≤ b ∨ 2 ≤ v) → Answers (.benchSet tag ch b v) s 0x44 tag 0x13 [] s.now)
  ∧ (∀ (s : State) (tag ch b v : Nat), Serves s 0x44 → ch < 64 → b < 2 → v < 2 →
      (s.now.cab.session = none → Answers (.benchSet tag ch b v) s 0x44 tag 0x20 [] s.now)
      ∧ (∀ slot, s.now.cab.session = some slot →
        (s.now.inspection = false → Answers (.benchSet tag ch b v) s 0x44 tag 0x22 [] s.now)
        ∧ (s.now.inspection = true →
          ((s.now.chan ch pCH_MODE = 6 ∨ s.now.chan ch pCH_MODE = 7 ∨ s.now.chan ch pCH_MODE = 0 ∨ s.now.benchDenied ch = true) →
            Answers (.benchSet tag ch b v) s 0x44 tag 0x20 [] s.now)
          ∧ (s.now.chan ch pCH_MODE ≠ 6 → s.now.chan ch pCH_MODE ≠ 7 → s.now.chan ch pCH_MODE ≠ 0 → s.now.benchDenied ch = false →
            let w := if s.now.chNamed ch then s.now.normalLevel ch else decide (v = 1)
            Answers (.benchSet tag ch b v) s 0x44 tag 0x00 []
              (s.now.benchOrder ⟨ch, w, slot, s.now.time.frame, decide (b = 1), true⟩)))))
  ∧ (∀ (m : Mach) (o : BenchRec),
      let old := m.link.benches.filter fun (x : BenchRec) => x.ch == o.ch && x.due
      (m.benchOrder o).link.benches = (m.link.benches.filter fun (x : BenchRec) => x.ch != o.ch) ++ [o]
      ∧ (old = [] → changesOnly [.link] m (m.benchOrder o))
      ∧ (m.benchOrder o).cab.head = m.cab.head + old.length
      ∧ (m.benchOrder o).field = m.field)
  ∧ (∀ (m : Mach) (c : Nat) (on v : Bool),
      let n := m.benchApply (c, on, v)
      n.field.bench = setBit m.field.bench c on
      ∧ n.field.benchVal = (if on then setBit m.field.benchVal c v else m.field.benchVal)
      ∧ n.cab.head = m.cab.head + (m.link.benches.filter fun (x : BenchRec) => x.ch == c && x.due).length)
  ∧ (∀ s : State, s.now.link.benches ≠ [] → (s.now.inspection = false ∨ s.now.cab.session = none ∨ s.now.f5 = true) →
      Does .benchEnd s { s.now with link.benches := s.now.link.benches.map fun (x : BenchRec) =>
        if x.on then { x with on := false, due := true, atF := s.now.time.frame } else x })

/-- CH_CONFIG, CH_READ and CH_WRITE are answered.
CH_CONFIG of a channel above 63 is refused 0x30, of none or more than 64 entries 0x11; where every entry
passes its checks it is answered 0x00, each entry with its status, all of them take effect together at the
next tick and the channel's configuration record is sent; where one is refused, nothing changes, and the
status is that of the first refused. CH_READ of no channel, or beyond channel 63, is refused 0x13, else it
replies with the inputs and readbacks as received, and status and current of each channel, of the frame
before. CH_WRITE of a channel that is not in OUT_HS or OUT_PULSE, or is named by a block, or is the reset
channel, is refused 0x13 and changes nothing; else its bits wait, over those of an earlier one, for the holder
to take them at the next freeze. -/
def Obligations.ChannelCommandsAnswered : Prop :=
  (∀ (s : State) (tag ch : Nat) (es : List SetEntry), Serves s 0x40 → 64 ≤ ch → Answers (.chConfig tag ch es) s 0x40 tag 0x30 [] s.now)
  ∧ (∀ (s : State) (tag ch : Nat) (es : List SetEntry), Serves s 0x40 → ch < 64 →
      ((es = [] ∨ 64 < es.length) → Answers (.chConfig tag ch es) s 0x40 tag 0x11 [] s.now)
      ∧ (es ≠ [] → es.length ≤ 64 → (∀ e ∈ es, s.now.setStatus (0x0100 + ch) e = 0) →
        Answers (.chConfig tag ch es) s 0x40 tag 0x00 (es.flatMap fun e => le 2 e.id ++ [0])
          ((s.now.defer (0x40, tag) (0x0100 + ch) es).queueCfg [ch]))
      ∧ (es ≠ [] → es.length ≤ 64 → ∀ a e b, es = a ++ e :: b → (∀ x ∈ a, s.now.setStatus (0x0100 + ch) x = 0) →
        s.now.setStatus (0x0100 + ch) e ≠ 0 →
        Answers (.chConfig tag ch es) s 0x40 tag (s.now.setStatus (0x0100 + ch) e)
          (es.flatMap fun x => le 2 x.id ++ [s.now.setStatus (0x0100 + ch) x]) s.now))
  ∧ (∀ (s : State) (tag f n : Nat), Serves s 0x41 → (n = 0 ∨ 64 ≤ f ∨ 64 < f + n) → Answers (.chRead tag f n) s 0x41 tag 0x13 [] s.now)
  ∧ (∀ (s : State) (tag f n : Nat), Serves s 0x41 → 1 ≤ n → f + n ≤ 64 →
      Answers (.chRead tag f n) s 0x41 tag 0x00 (le 8 s.shown.link.upIn ++ le 8 s.shown.link.upRb
        ++ ((List.range n).flatMap fun k => le 2 (s.shown.statusOf (f + k)) ++ le 2 (aGet s.shown.field.current (f + k) 0))) s.now)
  ∧ (∀ (s : State) (tag mask vals : Nat), Serves s 0x42 →
      (∃ c ∈ bitsOf mask, (s.now.chan c pCH_MODE ≠ 5 ∧ s.now.chan c pCH_MODE ≠ 7) ∨ s.now.chNamed c = true ∨ s.now.nat pRESET_CH = c) →
      Answers (.chWrite tag mask vals) s 0x42 tag 0x13 [] s.now)
  ∧ (∀ (s : State) (tag mask vals : Nat), Serves s 0x42 →
      (∀ c ∈ bitsOf mask, (s.now.chan c pCH_MODE = 5 ∨ s.now.chan c pCH_MODE = 7) ∧ s.now.chNamed c = false ∧ s.now.nat pRESET_CH ≠ c) →
      Answers (.chWrite tag mask vals) s 0x42 tag 0x00 [] { s.now with link.cmdNext := some (((s.now.link.cmdNext.getD (0, 0)).1 ||| mask),
        ((s.now.link.cmdNext.getD (0, 0)).2 &&& (2 ^ 64 - 1 - mask)) ||| (vals &&& mask)) })

/-- GROUP_REARM is answered by the state of its target.
GROUP_REARM of a domain (target 0x10 or 0x11) in WAIT_REARM, and of a group (0 to 7) switched off under R324
while its domain is NORMAL, LOW or HIGH, is answered 0x00, and its re-arm is sent to the field side and
applied at the SYNC after. A domain in NORMAL, LOW or HIGH, and a group that is not switched off, are answered
0x00 with no change; a domain in SAG_OFF, MISSING or OVER_OFF, and a group switched off while its domain is in
one of those or in WAIT_REARM, are refused 0x22; a target of 8 to 15 or above 0x11 is refused 0x13. Applied,
the re-arm puts a domain that waits for it in NORMAL with no supply fault left, and takes a group's mark off
where its domain has its outputs. -/
def Obligations.GroupRearmAnswered : Prop :=
  (∀ (s : State) (tag g : Nat), Serves s 0x43 →
      let dom := s.now.field.domains.get (if g = 0x10 then .a else .b)
      let taken : Mach := { s.now with link.rearm := s.now.link.rearm ++ [(g, s.now.time.frame)] }
      ((g = 0x10 ∨ g = 0x11) →
        (dom.state = 6 → Answers (.groupRearm tag g) s 0x43 tag 0x00 [] taken)
        ∧ ((dom.state = 2 ∨ dom.state = 3 ∨ dom.state = 5) → Answers (.groupRearm tag g) s 0x43 tag 0x22 [] s.now)
        ∧ (dom.state ≠ 6 → dom.state ≠ 2 → dom.state ≠ 3 → dom.state ≠ 5 → Answers (.groupRearm tag g) s 0x43 tag 0x00 [] s.now))
      ∧ (g ≠ 0x10 → g ≠ 0x11 → 8 ≤ g → Answers (.groupRearm tag g) s 0x43 tag 0x13 [] s.now)
      ∧ (g < 8 → bit s.now.field.groupsOff g = false → Answers (.groupRearm tag g) s 0x43 tag 0x00 [] s.now)
      ∧ (g < 8 → bit s.now.field.groupsOff g = true → domOutOff (s.now.domState (8 * g)) = true →
        Answers (.groupRearm tag g) s 0x43 tag 0x22 [] s.now)
      ∧ (g < 8 → bit s.now.field.groupsOff g = true → domOutOff (s.now.domState (8 * g)) = false →
        Answers (.groupRearm tag g) s 0x43 tag 0x00 [] taken))
  ∧ (∀ st, domOutOff st = true ↔ (st = 2 ∨ st = 3 ∨ st = 5 ∨ st = 6))
  ∧ (∀ (m : Mach) (d : Sys2Proof.Ab), (m.field.domains.get d).state = 6 →
      m.rearm (0x10 + d.idx) = { m with field.domains := m.field.domains.set d { m.field.domains.get d with state := 0, codes := [] } })
  ∧ (∀ (m : Mach) (g : Nat), g < 8 → bit m.field.groupsOff g = true → domOutOff (m.domState (8 * g)) = false →
      (m.rearm g).field.groupsOff = setBit m.field.groupsOff g false)

/-- Bus frames received and sent, time-triggered cells and the time reference.
BUS_FRAME_RECEIVED, on a port that takes part: the port has heard a frame. A remote frame, or one that no
object receives, changes nothing more; one for a host's object is stored in it; a profile message out of form
changes nothing more, one with a bad safety CRC is counted, one whose SEQ is not newer changes nothing more,
any other is stored. BUS_FRAME_SENT, of a TX object with a frame that it may attempt: a lost arbitration
clears its clash count; a frame sent is put away; a transmit error raises the transmit counter. The first bit
error after the identifier counts a clash; the second in a row suspends the object, counts it and raises 0xA4
F2. The 16th attempt without acknowledge, the port having a listener so far, leaves it without one, posts
event 6 and raises 0xA2 F2. In each of these but a frame sent the attempt has not been sent. In PARK no
attempt begins but a time reference's. TT_WINDOW_START, in its frame on a port that takes requests, in PARK
for the time reference alone: the object of the cell, if not suspended, is requested with its data. TT_MISSED:
its request is taken away, counted missed, and 0xA5 F1 is raised. TIME_REFERENCE_RECEIVED on a slave port: a
reference out of form, or with a SEQ that is not newer, changes nothing more than that a frame was heard, one
with a bad CRC is counted; any other gives the cycle, and is good if it is the first or comes 0.995 to 1.005
ms after the last, else one bad reference for each cycle since; the 16th good one in a row ends a suspension
and 0xA6. TIME_SLAVE_LOST of a slave port that is not suspended, with 4 bad references in a row or none for 4
ms: it is suspended and raises 0xA6 F2. SCHED_LOAD of other than 256 cells, of a port above 1 or with a claim
that does not fit: 0x13; else 0x00, the matrix waiting. -/
def Obligations.BusFramesAndTimeTriggered : Prop :=
  ((∀ (s : State) (p : Sys2Proof.Ab) (f : CanFrame), (s.now.prt p).takesPart = true →
       let m1 := (s.now.heard p).recDown p
       ((f.rtr = true ∨ m1.rxObj p f.ext f.ident = none) → Does (.busFrameReceived p f) s m1)
       ∧ (∀ o, f.rtr = false → m1.rxObj p f.ext f.ident = some o → m1.hostObj p o.num = true → Does (.busFrameReceived p f) s (m1.storeFrame p o f))
       ∧ (∀ o g, f.rtr = false → m1.rxObj p f.ext f.ident = some o → m1.hostObj p o.num = false → m1.rxMsg p f.ext f.ident = some g →
         (g.formOk f.data = false → Does (.busFrameReceived p f) s m1)
         ∧ (g.formOk f.data = true → g.safety = true → safetyOk f.ident f.data = false → Does (.busFrameReceived p f) s (m1.busCrcErr p))
         ∧ (g.formOk f.data = true → (g.safety = true → safetyOk f.ident f.data = true) → m1.rxNewer p g o f.data = false →
           Does (.busFrameReceived p f) s m1)
         ∧ (g.formOk f.data = true → (g.safety = true → safetyOk f.ident f.data = true) → m1.rxNewer p g o f.data = true →
           Does (.busFrameReceived p f) s (m1.storeFrame p o f))))
   ∧ (∀ (s : State) (p : Sys2Proof.Ab) (n sof inc : Nat) (o : ObjRec), s.now.objAt p n = some o → (s.now.prt p).sends o = true → o.kind ≠ 1 →
       o.pend.isSome = true → o.susp = false → s.now.attempts p o sof = true →
       let m1 := s.now.txError p inc
       let m2 := m1.notSent p { o with clash := 0, noAck := o.noAck + 1 }
       Does (.busFrameSent p n ⟨sof, .sent⟩) s (s.now.frameSent p o sof)
       ∧ Does (.busFrameSent p n ⟨sof, .lostArb⟩) s (s.now.notSent p { o with clash := 0 })
       ∧ Does (.busFrameSent p n ⟨sof, .error inc⟩) s (m1.notSent p { o with clash := 0, noAck := 0 })
       ∧ (o.clash = 0 → Does (.busFrameSent p n ⟨sof, .clash inc⟩) s (m1.notSent p { o with clash := 1, noAck := 0 }))
       ∧ (o.clash = 1 → Does (.busFrameSent p n ⟨sof, .clash inc⟩) s
         (((m1.notSent p { o with clash := 2, noAck := 0, susp := true }).onPort p fun x =>
           { x with clashes := sat32 x.clashes }).raise (0x0200 + p.idx) 0xA4 2))
       ∧ ((o.noAck < 15 ∨ (s.now.prt p).noListener = true) → Does (.busFrameSent p n ⟨sof, .noAck inc⟩) s m2)
       ∧ (15 ≤ o.noAck → (s.now.prt p).noListener = false → Does (.busFrameSent p n ⟨sof, .noAck inc⟩) s
         (((m2.onPort p fun x => { x with noListener := true }).post 5 6 (0x0200 + p.idx) n 0).raise (0x0200 + p.idx) 0xA2 2)))
   ∧ (∀ (m : Mach) (p : Sys2Proof.Ab) (o : ObjRec) (sof : Nat),
       ((m.power.state ≠ 3 ∨ (m.profAt p o.num = some .timeRef ∧ m.hostObj p o.num = false)) → (o.kind = 3 → m.attempts p o sof = true)
         ∧ (o.kind ≠ 3 → m.attempts p o sof = (m.mayStart p o sof && !((m.prt p).noListener && o.tried))))
       ∧ (m.power.state = 3 → ¬ (m.profAt p o.num = some .timeRef ∧ m.hostObj p o.num = false) →
         25000 * m.power.stateAt ≤ sof → m.attempts p o sof = false)))
  ∧ ((∀ (s : State) (p : Sys2Proof.Ab) (cell n : Nat) (o : ObjRec), s.now.cellObj p cell = some n → s.now.objAt p n = some o →
       s.now.cellNow p cell = true → (s.now.prt p).requests = true →
       (s.now.power.state ≠ 3 ∨ (s.now.profAt p n = some .timeRef ∧ s.now.hostObj p n = false)) → o.kind = 3 → o.susp = false →
       Does (.ttWindowStart p cell) s (s.now.setObj p (o.request (s.now.ttData p o) 1 s.now.time.frame)))
   ∧ (∀ (s : State) (p : Sys2Proof.Ab) (n : Nat) (o : ObjRec), s.now.objAt p n = some o → o.kind = 3 → o.pend.isSome = true →
       Does (.ttMissed p n) s ((((s.now.setObj p { o with pend := none }).onPort p fun x => { x with
         ttMissed := sat32 x.ttMissed
         ttLate := if x.ttLate.contains n then x.ttLate else x.ttLate ++ [n] }).busCount p 10 1).raise (0x0200 + p.idx) 0xA5 1))
   ∧ (∀ (s : State) (p : Sys2Proof.Ab) (f : CanFrame), (s.now.prt p).takesPart = true → s.now.master p = false → f.ext = false →
       f.ident = s.now.nat pTIME_REF_ID →
       let m1 := (s.now.heard p).recDown p
       (Msg.timeRef.formOk f.data = false → Does (.timeReferenceReceived p f) s m1)
       ∧ (Msg.timeRef.formOk f.data = true → safetyOk f.ident f.data = false → Does (.timeReferenceReceived p f) s (m1.busCrcErr p))
       ∧ (Msg.timeRef.formOk f.data = true → safetyOk f.ident f.data = true →
         m1.seqNewer p f.ident (nth f.data 2 0) (leAt f.data 0 2) = false → Does (.timeReferenceReceived p f) s m1)
       ∧ (∀ good : Bool, Msg.timeRef.formOk f.data = true → safetyOk f.ident f.data = true →
         m1.seqNewer p f.ident (nth f.data 2 0) (leAt f.data 0 2) = true →
         (good = true ↔ ∀ t, (s.now.prt p).refLast = some t → t + 99500 ≤ f.time ∧ f.time ≤ t + 100500) →
         let m3 := (m1.seqAccept p f.ident (nth f.data 2 0) (leAt f.data 0 2)).onPort p fun x => { x with
           refLast := some f.time, cycle := nth f.data 4 0 % 16, refBad := if good then 0 else x.refBad + max 1 ((f.time - (s.now.prt p).refLast.getD 0 + 50000) / 100000)
           refGood := if good then x.refGood + 1 else 0 }
         (((m3.prt p).ttSusp = false ∨ (m3.prt p).refGood < 16) → Does (.timeReferenceReceived p f) s m3)
         ∧ ((m3.prt p).ttSusp = true → 16 ≤ (m3.prt p).refGood →
           Does (.timeReferenceReceived p f) s ((m3.onPort p fun x => { x with ttSusp := false }).endFault (0x0200 + p.idx) 0xA6))))
   ∧ (∀ (s : State) (p : Sys2Proof.Ab), s.now.master p = false → (s.now.prt p).ttSusp = false →
       (4 ≤ (s.now.prt p).refBad ∨ (∃ t, (s.now.prt p).refLast = some t ∧ t + 400500 ≤ 100 * (s.now.ts + 250))
         ∨ ((s.now.prt p).refLast = none ∧ 4000 ≤ s.now.ts)) →
       Does (.timeSlaveLost p) s ((s.now.onPort p fun x => { x with ttSusp := true, refGood := 0 }).raise (0x0200 + p.idx) 0xA6 2))
   ∧ (∀ (s : State) (tag port : Nat) (cells : List Nat), Serves s 0x54 → (2 ≤ port ∨ cells.length ≠ 256) →
       Answers (.schedLoad tag port cells) s 0x54 tag 0x13 [] s.now)
   ∧ (∀ (s : State) (tag port : Nat) (cells : List Nat), Serves s 0x54 → port < 2 → cells.length = 256 →
       ((claimsOf 0 cells).all (s.now.claimOk (abOf port) (claimsOf 0 cells)) = true →
         Answers (.schedLoad tag port cells) s 0x54 tag 0x00 []
           (s.now.onPort (abOf port) fun x => { x with matrixNext := some (claimsOf 0 cells), matrixAt := s.now.time.frame }))
       ∧ ((claimsOf 0 cells).all (s.now.claimOk (abOf port) (claimsOf 0 cells)) = false →
         Answers (.schedLoad tag port cells) s 0x54 tag 0x13 [] s.now)))

/-- The events of a port.
BIT_TIMING_APPLY: the waiting bit timing is taken, and the port then waits for 11 recessive bits.
ELEVEN_RECESSIVE_BITS: it waits no more, and a STARTING port is ON. BUS_RECEIVE_ERROR, of a port that takes
part: REC rises by the amount given. BUS_OFF_RECOVERED, while recovering, from 128 occurrences on: bus-off
ends with both counters 0, event 5 is posted, 0xA3 ends, and a port to be switched off is OFF.
TRANSMIT_DOMINANT_TIMEOUT of 4 ms and TRANSCEIVER_OVERTEMP are a transceiver fault. PORT_STOPPING_END: a
stopping port is OFF once no frame is in progress or 2 ms have passed. BUS_WAKE of a sleeping port by a cause
of its WAKE_MODE (0: dominant for 5 us; 1: its wake-up frame, or more than 31 frame errors): it wakes, and
event 8 is posted. -/
def Obligations.PortEventsComplete : Prop :=
  (∀ (s : State) (p : Sys2Proof.Ab), (s.now.prt p).timingPend = true →
      Does (.bitTimingApply p) s (s.now.onPort p fun x => { x with timing := none, timingPend := false, wakeAt := some s.now.time.frame }))
  ∧ (∀ (s : State) (p : Sys2Proof.Ab), Does (.elevenRecessiveBits p) s
      (s.now.onPort p fun x => { x with wakeAt := none, own := if x.own == .starting then .on else x.own }))
  ∧ (∀ (s : State) (p : Sys2Proof.Ab) (inc : Nat), (s.now.prt p).takesPart = true →
      Does (.busReceiveError p inc) s (s.now.setCounters p (s.now.prt p).tecC ((s.now.prt p).recC + inc)))
  ∧ (∀ (s : State) (p : Sys2Proof.Ab) (n : Nat), (s.now.prt p).off = true → (s.now.prt p).recovering = true → 128 ≤ n →
      (s.now.cellAt (0x0200 + p.idx)).offAfter = false →
      Does (.busOffRecovered p n) s ((((s.now.setCounters p 0 0).onPort p fun x =>
        { x with off := false, recovering := false, own := x.own }).post 5 5 (0x0200 + p.idx) 0 0).endFault (0x0200 + p.idx) 0xA3))
  ∧ (∀ (s : State) (p : Sys2Proof.Ab) (us : Nat), 4000 ≤ us → Does (.transmitDominantTimeout p us) s (s.now.transceiverFault p))
  ∧ (∀ (s : State) (p : Sys2Proof.Ab), Does (.transceiverOvertemp p) s (s.now.transceiverFault p))
  ∧ (∀ (s : State) (p : Sys2Proof.Ab) (sending : Bool), (s.now.prt p).own = .stopping →
      (sending = false ∨ 8 ≤ s.now.time.frame - (s.now.prt p).stopAt) →
      Does (.portStoppingEnd p sending) s (s.now.onPort p fun x => { x with own := .off }))
  ∧ (∀ (s : State) (p : Sys2Proof.Ab) (c : WakeCause), (s.now.prt p).sleep = true → s.now.wakes p c = true →
      Does (.busWake ⟨p, c⟩) s ((s.now.portWake p).post 5 8 (0x0200 + p.idx) 0 0))
  ∧ (∀ (s : State) (p : Sys2Proof.Ab) (n : Nat), (s.now.prt p).off = true → (s.now.prt p).recovering = true → 128 ≤ n →
      (s.now.cellAt (0x0200 + p.idx)).offAfter = true →
      Does (.busOffRecovered p n) s (((((s.now.setCounters p 0 0).onPort p fun x =>
        { x with off := false, recovering := false, own := .off }).cell (0x0200 + p.idx) fun c => { c with offAfter := false }).post 5 5
          (0x0200 + p.idx) 0 0).endFault (0x0200 + p.idx) 0xA3))
  ∧ (∀ (m : Mach) (p : Sys2Proof.Ab) (f : CanFrame) (n : Nat),
      (m.wakes p (.dominant n) = true ↔ (m.port p pWAKE_MODE = 0 ∧ 5000 ≤ n))
      ∧ (m.wakes p (.frame f) = true ↔ (m.port p pWAKE_MODE = 1 ∧ m.wakeFrame p f = true))
      ∧ (m.wakes p (.errors n) = true ↔ (m.port p pWAKE_MODE = 1 ∧ 31 < n)))

/-- The commands of the shaft bus.
A port above 1 or an object above 511: 0x13 from OBJ_BIND, OBJ_UNBIND, OBJ_READ, OBJ_SEND and OBJ_CANCEL, as
from all but OBJ_CANCEL for an object the profile holds. OBJ_BIND of a known kind, format, flags and an
identifier of its format that no other object uses: 0x00, a fresh object; one in use: 0x13. OBJ_UNBIND: 0x00,
the object taken away. OBJ_READ: the object, an RX object then being taken, or 0x13 where none is bound.
OBJ_SEND of a CAN FD length: 0x00, the frame requested; 0x22 where no object is bound or it is not a TX object
or suspended; more than 8 bytes for a classical one: 0x13. OBJ_CANCEL replies 0 where the request is
withdrawn, 1 where its frame is on the bus, 2 where there is none. BUS_SLEEP with the sleep flag is answered
0x22 and changes nothing for the lock port while LOCK_SOURCE is NODES or BOTH, and for the port of the drive
messages unless the conditions of STILL hold. BUS_SLEEP and its wake of a port above 1, or with both or
neither flag: 0x13; the wake with the sleep flag and the reverse are not those rows and are 0x13 too. With the
sleep flag alone, where nothing forbids it, 0x00: the port goes to sleep; with the wake flag alone, 0x00: it
wakes. BUS_CONFIG of a port above 1: 0x30; otherwise its entries are judged and answered as UNIT_SET would,
and with the recovery flag a port in bus-off under manual recovery begins it too. -/
def Obligations.BusCommandsAnswered : Prop :=
  ((∀ (s : State) (tag port obj k fm id ff : Nat) (d : List Nat) (b : Bool), (2 ≤ port ∨ 512 ≤ obj) →
       (Serves s 0x51 → Answers (.objBind tag port obj k fm id ff) s 0x51 tag 0x13 [] s.now
         ∧ Answers (.objUnbind tag port obj) s 0x51 tag 0x13 [] s.now ∧ Answers (.objRead tag port obj) s 0x51 tag 0x13 [] s.now)
       ∧ (Serves s 0x52 → Answers (.objSend tag port obj d) s 0x52 tag 0x13 [] s.now)
       ∧ (Serves s 0x53 → Answers (.objCancel tag port obj b) s 0x53 tag 0x13 [] s.now))
   ∧ (∀ (s : State) (tag port obj k fm id ff : Nat) (d : List Nat), port < 2 → obj < 512 → s.now.profHeld (abOf port) obj = true →
       (Serves s 0x51 → Answers (.objBind tag port obj k fm id ff) s 0x51 tag 0x13 [] s.now
         ∧ Answers (.objUnbind tag port obj) s 0x51 tag 0x13 [] s.now ∧ Answers (.objRead tag port obj) s 0x51 tag 0x13 [] s.now)
       ∧ (Serves s 0x52 → Answers (.objSend tag port obj d) s 0x52 tag 0x13 [] s.now))
   ∧ (∀ (s : State) (tag port obj k fm id ff : Nat), Serves s 0x51 → s.now.identUsed (abOf port) obj (fm == 1) id = true →
       Answers (.objBind tag port obj k fm id ff) s 0x51 tag 0x13 [] s.now)
   ∧ (∀ (s : State) (tag port obj k fm id ff : Nat), Serves s 0x51 → port < 2 → obj < 512 → 1 ≤ k → k ≤ 3 → fm ≤ 1 → ff ≤ 3 →
       identOk fm id = true → s.now.profHeld (abOf port) obj = false → s.now.identUsed (abOf port) obj (fm == 1) id = false →
       let m1 := s.now.onPort (abOf port) fun x => { x with objs := putObj x.objs { ObjRec.reset with num := obj, kind := k, ext := fm == 1, ident := id, fflags := ff } }
       Answers (.objBind tag port obj k fm id ff) s 0x51 tag 0x00 []
         (m1.endIf (0x0200 + (abOf port).idx) 0xA4 (!(m1.prt (abOf port)).clashed)))
   ∧ (∀ (s : State) (tag port obj : Nat), Serves s 0x51 → port < 2 → obj < 512 → s.now.profHeld (abOf port) obj = false →
       let m1 := s.now.onPort (abOf port) fun x => { x with objs := x.objs.filter fun (o : ObjRec) => o.num != obj }
       Answers (.objUnbind tag port obj) s 0x51 tag 0x00 []
         (m1.endIf (0x0200 + (abOf port).idx) 0xA4 (!(m1.prt (abOf port)).clashed)))
   ∧ (∀ (s : State) (tag port obj : Nat) (o : ObjRec), Serves s 0x51 → port < 2 → obj < 512 → s.now.profHeld (abOf port) obj = false →
       s.now.objAt (abOf port) obj = some o →
       Answers (.objRead tag port obj) s 0x51 tag 0x00 (objReply o)
         (if o.kind = 1 then s.now.setObj (abOf port) { o with taken := true, lost := false } else s.now))
   ∧ (∀ (s : State) (tag port obj : Nat), Serves s 0x51 → s.now.objAt (abOf port) obj = none →
       Answers (.objRead tag port obj) s 0x51 tag 0x13 [] s.now)
   ∧ (∀ (s : State) (tag port obj : Nat) (d : List Nat), Serves s 0x52 → port < 2 → obj < 512 → fdLength d.length = true →
       s.now.profHeld (abOf port) obj = false →
       (s.now.objAt (abOf port) obj = none → Answers (.objSend tag port obj d) s 0x52 tag 0x22 [] s.now)
       ∧ (∀ o, s.now.objAt (abOf port) obj = some o → (o.kind ≠ 2 ∨ o.susp = true) → Answers (.objSend tag port obj d) s 0x52 tag 0x22 [] s.now)
       ∧ (∀ o, s.now.objAt (abOf port) obj = some o → o.kind = 2 → o.susp = false → (bit o.fflags 0 = true ∨ d.length ≤ 8) →
         Answers (.objSend tag port obj d) s 0x52 tag 0x00 [] (s.now.setObj (abOf port) (o.request d 1 s.now.time.frame)))
       ∧ (∀ o, s.now.objAt (abOf port) obj = some o → o.kind = 2 → o.susp = false → bit o.fflags 0 = false → 8 < d.length →
         Answers (.objSend tag port obj d) s 0x52 tag 0x13 [] s.now))
   ∧ (∀ (s : State) (tag port obj : Nat) (b : Bool), Serves s 0x53 → port < 2 → obj < 512 →
       (s.now.objAt (abOf port) obj = none → Answers (.objCancel tag port obj b) s 0x53 tag 0x00 [2] s.now)
       ∧ (∀ o, s.now.objAt (abOf port) obj = some o →
         (o.queued.isSome = true → Answers (.objCancel tag port obj b) s 0x53 tag 0x00 [0] (s.now.setObj (abOf port) { o with queued := none }))
         ∧ (o.queued = none → o.pend.isSome = true → o.cancelled = true → Answers (.objCancel tag port obj b) s 0x53 tag 0x00 [1] s.now)
         ∧ (o.queued = none → o.pend = none → Answers (.objCancel tag port obj b) s 0x53 tag 0x00 [2] s.now)
         ∧ (o.queued = none → o.pend.isSome = true → o.cancelled = false → b = true →
           Answers (.objCancel tag port obj b) s 0x53 tag 0x00 [1] (s.now.setObj (abOf port) { o with cancelled := true }))
         ∧ (o.queued = none → o.pend.isSome = true → o.cancelled = false → b = false →
           Answers (.objCancel tag port obj b) s 0x53 tag 0x00 [0] (s.now.setObj (abOf port) { o with pend := none, copies := 1 })))))
  ∧ (∀ (s : State) (tag port : Nat) (w : Option Nat), Serves s 0x55 → port < 2 →
     ((abOf port = abOf (s.now.nat pLOCK_PORT) ∧ (s.now.nat pLOCK_SOURCE = 1 ∨ s.now.nat pLOCK_SOURCE = 2))
       ∨ (abOf port = abOf (s.now.nat pDRV_PORT) ∧ s.now.still = false)) →
     Answers (.busSleep tag port ⟨1, w⟩) s 0x55 tag 0x22 [] s.now)
  ∧ ((∀ (s : State) (tag port f : Nat) (w : Option Nat), Serves s 0x55 →
       ((2 ≤ port ∨ bit f 0 = false ∨ bit f 1 = true) → Answers (.busSleep tag port ⟨f, w⟩) s 0x55 tag 0x13 [] s.now)
       ∧ ((2 ≤ port ∨ bit f 1 = false ∨ bit f 0 = true) → Answers (.busWakeCommand tag port f) s 0x55 tag 0x13 [] s.now))
   ∧ (∀ (s : State) (tag port f : Nat) (w : Option Nat), Serves s 0x55 → port < 2 → bit f 0 = true → bit f 1 = false →
       s.now.sleepRefused (abOf port) = false → Answers (.busSleep tag port ⟨f, w⟩) s 0x55 tag 0x00 [] (s.now.portSleep (abOf port) w))
   ∧ (∀ (s : State) (tag port f : Nat), Serves s 0x55 → port < 2 → bit f 0 = false → bit f 1 = true →
       Answers (.busWakeCommand tag port f) s 0x55 tag 0x00 [] (s.now.portWake (abOf port)))
   ∧ (∀ (s : State) (tag port f : Nat) (es : List SetEntry), Serves s 0x50 → 2 ≤ port →
       Answers (.busConfig tag port f es) s 0x50 tag 0x30 [] s.now)
   ∧ (∀ (s : State) (tag port f : Nat) (es : List SetEntry), Serves s 0x50 → port < 2 →
       let r := s.now.setEntries (0x50, tag) (0x0200 + port) es fun m h e => m.busEntry h es e
       ((r.2.1 ≠ 0 ∨ bit f 0 = false ∨ (s.now.prt (abOf port)).off = false ∨ s.now.port (abOf port) pBUS_OFF_RECOVERY ≠ 1) → Answers (.busConfig tag port f es) s 0x50 tag r.2.1 r.2.2 r.1)
       ∧ (r.2.1 = 0 → bit f 0 = true → (s.now.prt (abOf port)).off = true → s.now.port (abOf port) pBUS_OFF_RECOVERY = 1 →
         Answers (.busConfig tag port f es) s 0x50 tag r.2.1 r.2.2 (r.1.onPort (abOf port) fun x => { x with recovering := true }))))

/-- The profile messages of the locks, the group controller, the car panel and the landings.
On a port that takes part: LOCK in form on the lock port, its buffer without a double-bit error: one with a
bad CRC is counted, one that names landings or a node it may not is counted invalid, any other is kept for the
next freeze; a single-bit error is corrected and counted; with a double-bit error the message is not received.
At the freeze each kept message gives the bits of its landings where its CRC is good, it is newer, and not
older than 10 ms nor of the future; else its landings' runs of good messages restart, if the CRC is good.
GROUP_ASSIGN and GROUP_WITHDRAW of the group controller: the GROUP_CMD is carried out. GROUP_HB of it: the
timeout restarts, and if 0x4C stood, it ends and the calls kept meanwhile are reported. HALL_BTN: each pressed
button of the landing is taken in turn. IND_REFRESH, once due, outside ballast hold and PARK: all indications
are sent again. GROUP_CMD: a withdrawal of a hall call queues its removal for the next freeze; an assignment
of a hall call that the module takes is answered 0, queued and ends 0x4D; one out of range is answered 1 and
raises 0x4D F1; one not possible now is answered 2. PANEL_CALL_ADD, PANEL_CALL_CANCEL: the call is queued when
CALL_ADD or CALL_CANCEL would accept it, else counted refused. PANEL_DOOR_OPEN, PANEL_DOOR_CLOSE: the door
command, counted refused where it is. -/
def Obligations.ProfileMessagesAct : Prop :=
  ((∀ (s : State) (p : Sys2Proof.Ab) (id : Nat) (b : List Nat) (ecc : Ecc), abOf (s.now.nat pLOCK_PORT) = p → (s.now.prt p).takesPart = true → (Msg.lock 0).formOk b = true →
       (ecc = .double → Does (.lock p id ⟨b, ecc⟩) s (s.now.eccSeen 12 ecc))
       ∧ (ecc ≠ .double → safetyOk id b = false → Does (.lock p id ⟨b, ecc⟩) s ((s.now.busCrcErr p).eccSeen 12 ecc))
       ∧ (ecc ≠ .double → safetyOk id b = true → s.now.lockBad id b = true →
         Does (.lock p id ⟨b, ecc⟩) s (({ s.now with bus.lockInvalid := sat32 s.now.bus.lockInvalid } : Mach).eccSeen 12 ecc))
       ∧ (ecc ≠ .double → safetyOk id b = true → s.now.lockBad id b = false →
         Does (.lock p id ⟨b, ecc⟩) s (({ s.now with safe.lockBox := s.now.safe.lockBox ++ [(id, b)] } : Mach).eccSeen 12 ecc)))
   ∧ (∀ m : Mach, m.takeLocks = ({ m with safe.lockBox := [] } : Mach).each m.safe.lockBox fun m x => m.useLock x.1 x.2)
   ∧ (∀ (m : Mach) (id : Nat) (b : List Nat),
       let t := extend32 m.ts (leAt b 12 4)
       let valid := m.msgTaken (abOf (m.nat pLOCK_PORT)) (.lock 0) id b = true ∧ (m.ts : Int) - 10000 ≤ t ∧ t ≤ (m.ts : Int)
       (safetyOk id b = false → m.useLock id b = m)
       ∧ (safetyOk id b = true → valid → m.useLock id b =
         (m.msgAccept (abOf (m.nat pLOCK_PORT)) id b).each (List.range (nth b 6 0)) fun m k =>
           m.takeLock (leAt b 4 2 + k) (field (leAt b 8 4) (4 * k + 3) (4 * k)))
       ∧ (safetyOk id b = true → ¬ valid → m.useLock id b =
         m.each (List.range (nth b 6 0)) fun m k => m.setLock { m.lockOf (leAt b 4 2 + k) with good := 0 }))
   ∧ (∀ (s : State) (p : Sys2Proof.Ab) (b : List Nat), s.now.groupTaken p b = true →
       (nth b 4 0 ≠ 2 → Does (.groupAssign p b) s (s.now.groupCmd p b)) ∧ (nth b 4 0 = 2 → Does (.groupWithdraw p b) s (s.now.groupCmd p b)))
   ∧ (∀ (s : State) (p : Sys2Proof.Ab) (b : List Nat), abOf (s.now.nat pGROUP_PORT) = p → (s.now.prt p).takesPart = true →
       s.now.msgTaken p .groupHb (s.now.msgIdent .groupHb) b = true → nth b 2 0 = s.now.nat pGROUP_SRC →
       let m1 : Mach := { s.now.msgAccept p (s.now.msgIdent .groupHb) b with sched.hbLast := s.now.time.frame }
       (m1.inForce 1 0x4C = false → Does (.groupHb p b) s m1)
       ∧ (m1.inForce 1 0x4C = true → Does (.groupHb p b) s
         ((m1.each (m1.sched.calls.filter fun (c : CallRec) => c.fallback) fun m (c : CallRec) =>
           m.groupRes 6 (callByte c.kind (1 + c.side.idx)) c.landing 0).endFault 1 0x4C)))
   ∧ (∀ (s : State) (p : Sys2Proof.Ab) (id : Nat) (b : List Nat), abOf (s.now.nat pFIXTURE_PORT) = p → (s.now.prt p).takesPart = true → leAt b 6 2 < s.now.nLandings →
       id = s.now.nat pHALL_ID_BASE + leAt b 6 2 → s.now.msgTaken p (.hallBtn 0) id b = true →
       Does (.hallBtn p id b) s ((s.now.msgAccept p id b).each ((List.range 4).filter fun k => bit (nth b 4 0) k) fun m k =>
         m.hallPress p (leAt b 6 2) k))
   ∧ (∀ s : State, s.now.time.ballast = false → s.now.power.state ≠ 3 → 4 * s.now.nat pIND_REFRESH ≤ s.now.time.frame - s.now.bus.indAt →
       Does .indRefresh s { s.now.indications true with bus.indAt := s.now.time.frame }))
  ∧ ((∀ (m : Mach) (p : Sys2Proof.Ab) (b : List Nat), (nth b 4 0 = 2) → (field (nth b 5 0) 1 0 = 1 ∨ field (nth b 5 0) 1 0 = 2) →
       m.groupCmd p b = (m.msgAccept p (m.msgIdent .groupCmd) b).queueCall
         ⟨p.idx, false, leAt b 6 2, field (nth b 5 0) 1 0, field (nth b 5 0) 3 2, some (leAt b 8 2), false⟩)
   ∧ (∀ (m : Mach) (p : Sys2Proof.Ab) (b : List Nat), nth b 4 0 = 1 → (field (nth b 5 0) 1 0 = 1 ∨ field (nth b 5 0) 1 0 = 2) →
       let d := field (nth b 5 0) 1 0
       let sd := field (nth b 5 0) 3 2
       let l := leAt b 6 2
       let m1 := m.msgAccept p (m.msgIdent .groupCmd) b
       (m1.assignResult l d sd = 0 → m.groupCmd p b =
         ((m1.groupRes 0 (nth b 5 0) l (leAt b 8 2)).queueCall ⟨p.idx, true, l, d, sd, none, false⟩).endFault 1 0x4D)
       ∧ (m1.assignResult l d sd = 1 → m.groupCmd p b = (m1.groupRes 1 (nth b 5 0) l (leAt b 8 2)).raise 1 0x4D 1)
       ∧ (m1.assignResult l d sd = 2 → m.groupCmd p b = m1.groupRes 2 (nth b 5 0) l (leAt b 8 2)))
   ∧ (∀ (s : State) (p : Sys2Proof.Ab) (b : List Nat), s.now.panelTaken p b 1 = true →
       let st := s.now.callStatus (leAt b 6 2) 0 (field (nth b 5 0) 1 0)
       let m1 := s.now.msgAccept p (s.now.msgIdent .panelBtn) b
       (st = 0 → Does (.panelCallAdd p b) s (m1.queueCall ⟨p.idx, true, leAt b 6 2, 0, field (nth b 5 0) 1 0, none, false⟩))
       ∧ (st ≠ 0 → Does (.panelCallAdd p b) s m1.panelRefuse))
   ∧ (∀ (s : State) (p : Sys2Proof.Ab) (b : List Nat), s.now.panelTaken p b 2 = true →
       let st := s.now.callForm (leAt b 6 2) 0 (field (nth b 5 0) 1 0)
       let m1 := s.now.msgAccept p (s.now.msgIdent .panelBtn) b
       (st = 0 → Does (.panelCallCancel p b) s (m1.queueCall ⟨p.idx, false, leAt b 6 2, 0, field (nth b 5 0) 1 0, none, false⟩))
       ∧ (st ≠ 0 → Does (.panelCallCancel p b) s m1.panelRefuse))
   ∧ (∀ (s : State) (p : Sys2Proof.Ab) (b : List Nat) (c : Nat) (cmd : Instr), s.now.panelTaken p b (c + 2) = true →
       ((c = 1 ∧ cmd = .panelDoorOpen p b) ∨ (c = 2 ∧ cmd = .panelDoorClose p b)) →
       let r := (s.now.msgAccept p (s.now.msgIdent .panelBtn) b).doorCmd c 0 (field (nth b 5 0) 1 0)
       (r.2.1 ≤ 1 → Does cmd s r.1) ∧ (1 < r.2.1 → Does cmd s r.1.panelRefuse)))

/-- A 32-bit time stamp is extended to the nearest 64-bit timestamp.
The extension of a 32-bit time stamp at a freeze has the low 32 bits of the stamp, and lies from 2^31 µs
before the freeze up to 2^31 µs after it; it is the only such value but where both ends are reached. -/
def Obligations.TimestampExtension : Prop :=
  ∀ (now x : Nat), x < 2 ^ 32 →
    (extend32 now x) % (2 ^ 32 : Int) = x ∧ (now : Int) - 2 ^ 31 ≤ extend32 now x ∧ extend32 now x ≤ (now : Int) + 2 ^ 31
    ∧ (∀ y : Int, y % (2 ^ 32 : Int) = x → (now : Int) - 2 ^ 31 < y → y < (now : Int) + 2 ^ 31 → y = extend32 now x)

/-- Samples, half cycles, windows, hours, saves and offsets of the meter.
METER_SAMPLE: the corrected sample of the seven channels enters the 960 samples kept; a channel at full scale
in this sample and the one before puts 0xC1 in force and marks the overrange. HALF_CYCLE_VALUE at a crossing:
with valid frequency the values of the period up to it are counted in the window, published and judged for
supply events; the crossing is noted; a rising one closes a period of this half-cycle and the one before; at a
falling one, a valid frequency is lost with the reference below 10 % of U_DECL. Without a crossing, and
without valid frequency, the values of a nominal half-cycle that ends in this frame are taken so.
AGGREGATION_WINDOW_END, with valid frequency after its half-cycles, without it at each 200 ms not yet taken:
the values of the window are published with its end, and its sums, half-cycles and full-scale mark begin anew.
FREQ_WINDOW_END at a multiple of 10 s: FREQ is that of the periods counted, 0 without valid frequency, and the
count begins anew. HOUR_RECORD, when due: the hour is closed, and the next begins at this timestamp with no
running energy. ENERGY_SAVE, at each multiple of ENERGY_SAVE_PERIOD: a PERIODIC set is saved and 0xC6 ends. A
save writes the eight records of the set, with the next sequence number, into the slot that does not hold the
newest complete one. OFFSET_TRACKING, once a second: each offset estimate moves by 1/16 of its channel's mean,
rounded half away from zero; one above 0.5 % of full scale raises 0xC3 F1, which ends with all at most 0.4 %. -/
def Obligations.MeterEventsComplete : Prop :=
  ((∀ (s : State) (raw : List Int), Does (.meterSample raw) s (s.now.meterSample raw)
       ∧ ((s.now.meterSample raw).meter.samples.head? = some (s.now.corrected raw).2 ∧ (s.now.meterSample raw).meter.samples.length ≤ 960))
   ∧ (∀ (m : Mach) (raw : List Int) (k : Nat), k < 7 → fullScale (nth raw k 0) = true → 1 ≤ nth m.meter.fullRun k 0 →
       (m.meterSample raw).meter.overrange = true ∧ (m.meterSample raw).inForce 0x0300 0xC1 = true)
   ∧ (∀ (s : State) (inp : HalfIn), inp.cross = true →
       let t := s.now.ts + inp.off
       let us := s.now.halfValues (s.now.meter.lastHalf + inp.dur)
       let m0 := if s.now.meter.freqValid then s.now.halfValued us t else s.now
       let m1 : Mach := { m0 with meter.crossAt := t, meter.lastHalf := inp.dur }
       (inp.rising = true → Does (.halfCycleValue inp) s (m1.periodEnd (s.now.meter.lastHalf + inp.dur) (nth us 0 0)))
       ∧ (inp.rising = false → m1.meter.freqValid = true → 10 * nth us 0 0 < s.now.met pU_DECL →
         Does (.halfCycleValue inp) s m1.freqLost)
       ∧ (inp.rising = false → (m1.meter.freqValid = false ∨ s.now.met pU_DECL ≤ 10 * nth us 0 0) →
         Does (.halfCycleValue inp) s m1))
   ∧ (∀ (s : State) (inp : HalfIn), inp.cross = false →
       (∀ t, s.now.nominalHalf = some t → Does (.halfCycleValue inp) s (s.now.halfValued (s.now.halfValues s.now.nominalPeriod) t))
       ∧ (s.now.nominalHalf = none → exec (.halfCycleValue inp) s = .next s))
   ∧ (∀ (m : Mach) (us : List Nat) (t : Nat),
       m.halfValued us t = (({ m with meter.winHalfs := m.meter.winHalfs + 1 } : Mach).publishHalf us).supplyEvents us t)
   ∧ (∀ s : State, s.now.meter.freqValid = true → s.now.windowHalfs ≤ s.now.meter.winHalfs →
       ∃ t, exec .aggregationWindowEnd s = .next t ∧ t.now.meter.win = s.now.windowValues ∧ t.now.meter.winEnd = s.now.meter.crossAt
         ∧ t.now.meter.winHalfs = 0 ∧ t.now.meter.winSum = List.replicate 17 0 ∧ t.now.meter.winFull = false)
   ∧ (∀ s : State, s.now.meter.freqValid = false → s.now.time.frame % 800 = 0 → s.now.meter.winEnd ≠ s.now.ts →
       ∃ t, exec .aggregationWindowEnd s = .next t ∧ t.now.meter.win = s.now.windowValues ∧ t.now.meter.winEnd = s.now.ts
         ∧ t.now.meter.winHalfs = 0 ∧ t.now.meter.winSum = List.replicate 17 0 ∧ t.now.meter.winFull = false)
   ∧ (∀ s : State, s.now.time.frame % 40000 = 0 → ∃ t, exec .freqWindowEnd s = .next t
       ∧ t.now.meter.freq = (if s.now.meter.freqValid then freqOf s.now.meter.perN s.now.meter.perSum else 0)
       ∧ t.now.meter.perN = 0 ∧ t.now.meter.perSum = 0))
  ∧ ((∀ s : State, s.now.hourDue = true → Does .hourRecord s (s.now.closeHour false s.now.time.wallValid)
       ∧ (s.now.closeHour false s.now.time.wallValid).meter.hourFrom = s.now.ts
       ∧ (s.now.closeHour false s.now.time.wallValid).meter.hourRun = [0, 0])
   ∧ (∀ s : State, s.now.ts ≠ 0 → s.now.ts % (s.now.met pENERGY_SAVE_PERIOD * 1000000) = 0 →
       Does .energySave s ((s.now.saveMeter 0).endFault 0x0300 0xC6))
   ∧ (∀ (m : Mach) (k : Nat),
       let slot := match m.newestSet with
         | some x => x.1.other
         | none => Sys2Proof.Ab.a
       let seq := (m.meter.setSeq + 1) % 2 ^ 32
       let m1 := m.each (List.range 8) fun m i => m.writeRecord (setAddr slot i) (m.setPayload k seq i) seq
       m.saveMeter k = { m1 with meter.setSeq := seq, meter.lastSave := m.ts })
   ∧ (∀ (s : State) (means : List Int), s.now.time.frame % 4000 = 0 →
       let o := (List.range 7).map fun k => nth s.now.meter.offsets k 0 + halfAway (nth means k 0) 16
       let m1 : Mach := { s.now with meter.offsets := o }
       ((∃ x ∈ o, 41943 < x.natAbs) → Does (.offsetTracking means) s (m1.raise 0x0300 0xC3 1))
       ∧ ((∀ x ∈ o, x.natAbs ≤ 33554) → Does (.offsetTracking means) s (m1.endFault 0x0300 0xC3))
       ∧ ((∀ x ∈ o, x.natAbs ≤ 41943) → (∃ x ∈ o, 33554 < x.natAbs) → Does (.offsetTracking means) s m1)))

/-- The commands of the meter.
CAL_START MEASURE: 0x02 while one runs; 0x13 for a phase not in use or windows other than 5 to 300; 0x22
unless the frequency is valid and the meter ON; else 0x01, and the measurement waits. CAL_MEASURE_END, after
its windows: the result is kept, event 2 posted and the command completed. CAL_START APPLY: 0x22 unless so or
without a result; else 0x01, the result used up; where no coefficients come out it has failed, else they wait
for the next window and 0xC4 ends. METER_CONFIG of entries that UNIT_SET takes: 0x00 and they are deferred
where the resulting configuration is allowed, or 0x13 and nothing changes where not and an entry is one that
it ties. METER_READ: the last window's end and values. ENERGY_READ: 56 bytes that begin with the timestamp;
only meter, faults and host records change. -/
def Obligations.MeterCommandsAnswered : Prop :=
  (∀ (s : State) (tag ph n : Nat), Serves s 0x63 →
      (s.now.meter.meas.isSome = true → Answers (.calMeasure tag ph n) s 0x63 tag 0x02 [] s.now)
      ∧ (s.now.meter.meas = none → (ph = 0 ∨ s.now.phasesUsed.contains (ph - 1) = false ∨ n < 5 ∨ 300 < n) →
        Answers (.calMeasure tag ph n) s 0x63 tag 0x13 [] s.now)
      ∧ (s.now.meter.meas = none → ph ≠ 0 → s.now.phasesUsed.contains (ph - 1) = true → 5 ≤ n → n ≤ 300 →
        (s.now.calState? = false → Answers (.calMeasure tag ph n) s 0x63 tag 0x22 [] s.now)
        ∧ (s.now.calState? = true → Answers (.calMeasure tag ph n) s 0x63 tag 0x01 [] { s.now with
          meter.meas := some { CalMeas.reset with phase := ph, left := n, tag := tag }
          meter.calState := 1 })))
  ∧ (∀ (s : State) (c : CalMeas), s.now.meter.meas = some c → c.started = true → c.left ≤ c.n →
      Does .calMeasureEnd s ((({ s.now with meter.meas := none, meter.calRes := some c, meter.calState := 2 } : Mach).post
        0xA 2 0x0300 c.phase c.left).completed 0x63 c.tag 0x00 0x0300 0))
  ∧ (∀ (s : State) (tag u i : Nat) (p q : Int), Serves s 0x63 → (s.now.calState? = false ∨ s.now.meter.calRes = none) →
      Answers (.calApply tag u i p q) s 0x63 tag 0x22 [] s.now)
  ∧ (∀ (s : State) (tag u i : Nat) (p q : Int) (c : CalMeas), Serves s 0x63 → s.now.calState? = true → s.now.meter.calRes = some c →
      let m1 : Mach := { s.now with meter.calRes := none, free := s.now.free + 2 }
      (s.now.coefficients c u i p q = none → Answers (.calApply tag u i p q) s 0x63 tag 0x01 [] (m1.calFailed tag))
      ∧ (∀ gu gi ph, s.now.coefficients c u i p q = some (gu, gi, ph) →
        Answers (.calApply tag u i p q) s 0x63 tag 0x01 [] (({ m1 with
          meter.calTag := tag
          meter.calNext := some (updAt (updAt s.now.meter.gains (c.phase - 1) fun _ => gu) (c.phase - 1 + 3) fun _ => gi,
            updAt s.now.meter.phases (c.phase - 1) fun _ => ph) } : Mach).endFault 0x0300 0xC4)))
  ∧ (∀ (s : State) (tag : Nat) (es : List SetEntry), Serves s 0x60 → (es = [] ∨ 64 < es.length) →
      Answers (.meterConfig tag es) s 0x60 tag 0x11 [] s.now)
  ∧ (∀ (s : State) (tag : Nat) (es : List SetEntry), Serves s 0x60 → es ≠ [] → es.length ≤ 64 →
      (∀ e ∈ es, s.now.setStatus 0x0300 e = 0) →
      (meterCfgOk (s.now.meterCfgWith es) = true →
        Answers (.meterConfig tag es) s 0x60 tag 0x00 (es.flatMap fun e => le 2 e.id ++ [0]) (s.now.meterDefer (0x60, tag) es))
      ∧ (meterCfgOk (s.now.meterCfgWith es) = false → (∃ e ∈ es, tied e.id = true) →
        ∃ p, Answers (.meterConfig tag es) s 0x60 tag 0x13 p s.now))
  ∧ (∀ (s : State) (tag : Nat), Serves s 0x61 →
      Answers (.meterRead tag) s 0x61 tag 0x00 (le 8 s.shown.meter.winEnd ++ windowBytes s.shown.meter.win) s.now)
  ∧ (∀ (s : State) (tag : Nat), Serves s 0x62 → ∃ p m1, Answers (.energyRead tag) s 0x62 tag 0x00 p m1 ∧ p.length = 56
      ∧ p.take 8 = le 8 s.now.ts ∧ m1.meter.restored = false ∧ changesOnly [.meter, .faults, .host] s.now m1)

/-- A flush writes the waiting entries, a scrub counts what it found.
RECORD_FLUSH at a multiple of the flush period while the recorder records, not yet done in the frame: the
drawers are flushed, the flush is counted and its time noted. The flush of a drawer that has something to
write takes its waiting entries from the queue, where no write fails, and leaves every other drawer's. SCRUB
of an address that is not a word of the MRAM stops with the fault noSuchAddress. Otherwise a word without a
flipped bit counts nothing, one flipped bit is counted as corrected, more, or a word already bad, are counted
as uncorrectable with the address noted and the word marked bad and 0xD2 F1 raised; the pass goes on with the
next word, and after the last word the next pass begins, 0xD2 ending where this pass met no bad word. -/
def Obligations.FlushAndScrubRun : Prop :=
  ((∀ (s : State) (bad : List Nat), s.now.flushDue = true →
     ∃ t, exec (.recordFlush bad) s = .next t ∧ t.now = s.now.flush bad
       ∧ t.now.rcd.lastFlush = s.now.ts ∧ t.now.rcd.flushes = sat32 s.now.rcd.flushes)
   ∧ (∀ (m : Mach) (d : Nat), m.dueRecords d ≠ 0 →
       (m.flushDrawer [] d).rcd.queue = m.rcd.queue.filter fun (e : RingEntry) => e.drawer != d))
  ∧ ((∀ (s : State) (a f : Nat), (0x400000 ≤ a ∨ a % 8 ≠ 0) → exec (.scrub a f) s = .fault .noSuchAddress)
   ∧ (∀ (s : State) (a f : Nat), a < 0x400000 → a % 8 = 0 →
       let bad := 2 ≤ f ∨ a ∈ s.now.mramBad
       let m1 : Mach := if f = 0 ∧ ¬ bad then s.now
         else if ¬ bad then { s.now with rcd.scrubFix := sat32 s.now.rcd.scrubFix }
         else ({ s.now with
           mramBad := if a ∈ s.now.mramBad then s.now.mramBad else s.now.mramBad ++ [a]
           rcd.scrubBad := sat32 s.now.rcd.scrubBad
           rcd.scrubAddr := a
           rcd.passBad := true } : Mach).raise 0x0400 0xD2 1
       (a + 8 ≠ 0x400000 → Does (.scrub a f) s { m1 with rcd.scrubPos := a / 8 + 1 })
       ∧ (a + 8 = 0x400000 → Does (.scrub a f) s { m1.endIf 0x0400 0xD2 (!m1.rcd.passBad) with
         rcd.scrubPos := 0
         rcd.passBad := false
         rcd.passFrom := s.now.time.frame })))

/-- CURSOR_SET, DRAWER_INFO, DRAWER_CLEAR and WINDOW_READ.
CURSOR_SET beyond drawer 15 or record 3071: 0x13; else 0x00 and the cursor stands there. DRAWER_INFO beyond
drawer 15: 0x13; else the drawer's state, changing nothing. DRAWER_CLEAR: 0x13 beyond drawer 15, 0x20 without
a session, 0x13 for drawer 15, 0x02 while a clear runs; else 0x01, counted with wall clock and boot count and
logged, and the clear waits. WINDOW_READ while start-up does not yet take it: 0x22. Where it is taken and its
first copy succeeds: 0x00 with the window; where that fails, the window stays pending with HBSY high.
WINDOW_COPY_RETRY: an attempt that succeeds is answered 0x00, late; a fourth that fails 0x23, late; an earlier
one that fails is counted. -/
def Obligations.RecorderCommandsAnswered : Prop :=
  ((∀ (s : State) (tag d i : Nat), Serves s 0x70 →
       ((15 < d ∨ 3071 < i) → Answers (.cursorSet tag d i) s 0x70 tag 0x13 [] s.now)
       ∧ (d ≤ 15 → i ≤ 3071 → Answers (.cursorSet tag d i) s 0x70 tag 0x00 [] { s.now with rcd.curDrawer := d, rcd.curIndex := i }))
   ∧ (∀ (s : State) (tag d : Nat), Serves s 0x72 →
       (15 < d → Answers (.drawerInfo tag d) s 0x72 tag 0x13 [] s.now)
       ∧ (d ≤ 15 → Answers (.drawerInfo tag d) s 0x72 tag 0x00
         (le 4 (s.now.drawerAt d).gen ++ le 2 d ++ (s.now.drawerAt d).meta (s.now.drawerAt d).gen ++ le 2 (fixedRecords d)
           ++ [(ringsOf d).length] ++ (ringsOf d).flatMap fun (r : Nat × Nat) => le 2 r.1 ++ le 2 r.2) s.now))
   ∧ (∀ (s : State) (tag d : Nat), Serves s 0x73 →
       (15 < d → Answers (.drawerClear tag d) s 0x73 tag 0x13 [] s.now)
       ∧ (d ≤ 15 → s.now.cab.session = none → Answers (.drawerClear tag d) s 0x73 tag 0x20 [] s.now)
       ∧ (∀ slot, d ≤ 15 → s.now.cab.session = some slot →
         (d = 15 → Answers (.drawerClear tag d) s 0x73 tag 0x13 [] s.now)
         ∧ (d < 15 → (∃ x ∈ s.now.rcd.drawers, x.clearing ≠ 0) → Answers (.drawerClear tag d) s 0x73 tag 0x02 [] s.now)
         ∧ (d < 15 → (∀ x ∈ s.now.rcd.drawers, x.clearing = 0) → Answers (.drawerClear tag d) s 0x73 tag 0x01 []
           ((s.now.onDrawer d fun x => { x with
             clears := sat32 x.clears
             clearWall := s.now.wall
             clearBoot := s.now.sec.boots
             clearing := 1
             clearTag := tag }).logEvent 5 slot d)))))
  ∧ ((∀ (s : State) (tag : Nat) (bad : List Nat), s.now.serves? = true → s.now.admits 0x71 = false →
       Does (.windowRead tag bad) s (s.now.reply 0x71 tag 0x22 []))
   ∧ (∀ (s : State) (tag : Nat) (bad : List Nat), Serves s 0x71 →
       (∀ m1 p f, s.now.copyAttempt (2500 * s.now.time.frame + 2125) bad [] = (some (m1, p), f) →
         Answers (.windowRead tag bad) s 0x71 tag 0x00 p m1)
       ∧ (∀ f, s.now.copyAttempt (2500 * s.now.time.frame + 2125) bad [] = (none, f) →
         Does (.windowRead tag bad) s { s.now with
           rcd.win := some ⟨tag, 1, s.now.time.frame, f⟩
           host.taken := none
           host.hbsy := true }))
   ∧ (∀ (s : State) (w : WinRun) (bad : List Nat), s.now.rcd.win = some w →
       (∀ m1 p f, s.now.copyAttempt (2500 * w.atF + 2125 + 250 * w.attempts) bad w.badIdx = (some (m1, p), f) →
         Does (.windowCopyRetry bad) s (m1.lateReply w.tag w.atF 0x00 p))
       ∧ (∀ f, s.now.copyAttempt (2500 * w.atF + 2125 + 250 * w.attempts) bad w.badIdx = (none, f) →
         (3 ≤ w.attempts → Does (.windowCopyRetry bad) s (({ s.now with rcd.win := none } : Mach).lateReply w.tag w.atF 0x23 []))
         ∧ (w.attempts < 3 → Does (.windowCopyRetry bad) s { s.now with rcd.win := some { w with attempts := w.attempts + 1, badIdx := f } }))))

/-- An entry that finds 256 waiting is dropped, counted and reported.
While the recorder records, an entry that reaches a ring while fewer than 256 are held joins them, and at most
256 are then held. One arriving while 256 are held is dropped: the queue stays as it was, RING_DROPPED or
RING2_DROPPED of its ring and QUEUE_DROPPED are incremented, staying at their tops, and 0xD4 is in force.
Statistics of the fixed areas are counted in SRAM all the same, whatever the queue holds. -/
def Obligations.RingQueueHolds256 : Prop :=
  ∀ (m : Mach) (d : Nat) (second : Bool) (p : List Nat), m.recording = true → m.time.recEcc ≠ .double → d < m.rcd.drawers.length →
    (m.rcd.queue.length < 256 → (m.ringRecord d second p).rcd.queue.length ≤ 256
      ∧ ∃ e ∈ (m.ringRecord d second p).rcd.queue, e.drawer = d ∧ e.second = second)
    ∧ (m.rcd.queue.length = 256 →
      let n := m.ringRecord d second p
      n.rcd.queue = m.rcd.queue ∧ m.rcd.qDropped ≤ n.rcd.qDropped
      ∧ (m.rcd.qDropped < 2 ^ 32 - 1 → m.rcd.qDropped < n.rcd.qDropped)
      ∧ (second = false → (n.drawerAt d).ring.dropped ≥ sat32 (m.drawerAt d).ring.dropped)
      ∧ (second = true → (n.drawerAt d).ring2.dropped ≥ sat32 (m.drawerAt d).ring2.dropped)
      ∧ n.inForce 0x0400 0xD4 = true)
    ∧ (∀ item k : Nat, (m.count d item k).rcd.queue = m.rcd.queue ∧ (m.count d item k).drawerAt d = ({ m with rcd.queue := [] }.count d item k).drawerAt d)

/-- An extreme item keeps the least and the greatest value with their first times.
In a drawer's items, ascending by EXT_ID, noting a value in an item that holds some keeps the least and the
greatest of it and what was held: a value below the least, or above the greatest, takes its place with its own
timestamp, and a value equal to the extreme, or between them, changes neither it nor its time. In an item that
holds none the value is both, at its timestamp. Every other item stays, and the order is kept. An item that
holds none reads MIN 0x7FFF_FFFF, MAX 0x8000_0000 and both times 0. -/
def Obligations.ExtremeKeepsLeastAndGreatest : Prop :=
  (∀ (l : List ExtRec) (id : Nat) (v : Int) (t : Nat), l.Pairwise (fun a b => a.id < b.id) →
    (extAdd l id v t).Pairwise (fun a b => a.id < b.id)
    ∧ (∀ e ∈ l, e.id = id → (⟨id, min e.min v, max e.max v, if v < e.min then t else e.tMin, if e.max < v then t else e.tMax⟩ : ExtRec)
        ∈ extAdd l id v t)
    ∧ ((∀ e ∈ l, e.id ≠ id) → (⟨id, v, v, t, t⟩ : ExtRec) ∈ extAdd l id v t)
    ∧ (∀ e ∈ l, e.id ≠ id → e ∈ extAdd l id v t))
  ∧ (∀ (x : DrawerState) (id : Nat), (∀ e ∈ x.exts, e.id ≠ id) →
      extItem x id = [0xFF, 0xFF, 0xFF, 0x7F] ++ [0, 0, 0, 0x80] ++ le 8 0 ++ le 8 0)

/-- What VIN, the reset input, the state save, rails and temperature do to the module.
VIN_GOOD, 34.0 V for 10 ms in a waiting module: start-up begins, unless RESET_N holds it. POWER_FAIL_WARNING
below 33.0 V in a powered module without a save, or in the save of RESET: 0x01 F5 and a state save.
CONVERTERS_OFF below 24.0 V, or below 32.0 V outside a running save: the module turns off. VIN_LOW, 33.0 V to
36.0 V for 100 ms: 0x04 F1. VIN_HIGH above 75.0 V: 0x02 F1. VIN_OVERVOLT above 100.0 V, or above 75.0 V for
100 ms, 0x05 not yet in force: 0x05 F5, and a save, or one that a warning began counts as its own.
VIN_FAULT_END, 1 s: 0x04 ends from 36.0 V up, 0x02 to 75.0 V. RESTART_AFTER_SAVE, the save done: with VIN from
34.0 V to 75.0 V for 10 ms, 1 s after an overvoltage, or after RESET with its reply delivered or after 100 ms,
the module restarts and start-up begins. A restart logs the end of every bench, keeps the MRAM, groups,
rollback, boots, copies and state blocks, and ends every fault. RESET_N low for 10 us: the module restarts and
waits for its rise. RESET_N_RELEASE: a module that has its supply begins its start-up, another waits for it.
RESET of kind MODULE: 0x22 where the conditions of STILL do not hold or in a run; else 0x00, and a state save
begins. Beginning a save notes its frame and kind, freezes the recorder, holds HBSY high, drops the reply in
preparation and records failures and lockout time. STATE_SAVE_COMPLETE of a save in progress: after an
overvoltage it is done and the converters are off; after a warning with VIN below 32.0 V the module has turned
off, waiting without a fault; otherwise it is done, its duration and the lockout time noted, 0x03 ended, and
the door gates off. In a powered module: RAIL_FAULT of two bad samples: 0x06 F5, which may block the start-up.
LOGIC_TEMP_THRESHOLD at 105.0 C, 120.0 C on the extended part: 0x07 F3; 10 K below: it ends; between: nothing.
SENSOR_SUPPLY_OFF after 10 ms in current limit: the supply turns off, with supply 0 the encoder is lost.
SENSOR_SUPPLY_ON 1 s later: on again. -/
def Obligations.SupplyResetAndSaveEvents : Prop :=
  ((∀ (s : State) (v ms : Nat), 3400 ≤ v → 10 ≤ ms → s.now.start.waiting = true →
       (s.now.power.resetHeld = false → Does (.vinGood v ms) s s.now.begin)
       ∧ (s.now.power.resetHeld = true → Does (.vinGood v ms) s { s.now with power.on := true }))
   ∧ (∀ (s : State) (v : Nat), v < 3300 → s.now.powered = true → s.now.power.saveDone = false →
       (s.now.power.save = none ∨ s.now.power.saveKind = 2) →
       Does (.powerFailWarning v) s ((({ s.now with power.vin := v } : Mach).raise 0 0x01 5).beginSave 0))
   ∧ (∀ (s : State) (v : Nat), (s.now.power.on = true ∨ s.now.power.saveDone = true) →
       (v < 2400 ∨ (v < 3200 ∧ (s.now.power.save = none ∨ s.now.power.saveDone = true))) → Does (.convertersOff v) s s.now.turnOff)
   ∧ (∀ (s : State) (v ms : Nat), s.now.powered = true → 3300 ≤ v → v < 3600 → 100 ≤ ms → Does (.vinLow v ms) s (s.now.raise 0 0x04 1))
   ∧ (∀ (s : State) (v : Nat), s.now.powered = true → 7500 < v → Does (.vinHigh v) s (s.now.raise 0 0x02 1))
   ∧ (∀ (s : State) (v ms : Nat), s.now.powered = true → (10000 < v ∨ (7500 < v ∧ 100 ≤ ms)) → s.now.inForce 0 0x05 = false →
       (s.now.power.save = none ∨ (s.now.power.saveKind = 2 ∧ s.now.power.saveDone = false)) →
       Does (.vinOvervolt v ms) s ((s.now.raise 0 0x05 5).beginSave 1))
   ∧ (∀ (s : State) (v ms : Nat), s.now.powered = true → (10000 < v ∨ (7500 < v ∧ 100 ≤ ms)) → s.now.inForce 0 0x05 = false →
       s.now.power.save.isSome = true → (s.now.power.saveKind ≠ 2 ∨ s.now.power.saveDone = true) →
       Does (.vinOvervolt v ms) s { s.now.raise 0 0x05 5 with
         power.saveKind := 1
         power.on := s.now.power.on && !s.now.power.saveDone })
   ∧ (∀ (s : State) (v ms : Nat), s.now.powered = true → 1000 ≤ ms →
       Does (.vinFaultEnd v ms) s ((s.now.endIf 0 0x04 (decide (3600 ≤ v))).endIf 0 0x02 (decide (v ≤ 7500))))
   ∧ (∀ (s : State) (v ms : Nat), s.now.power.saveDone = true →
       ((s.now.power.saveKind ≠ 2 ∧ 3400 ≤ v ∧ v ≤ 7500 ∧ (if s.now.power.saveKind = 1 then 1000 else 10) ≤ ms)
         ∨ (s.now.power.saveKind = 2 ∧ (s.now.host.resetGo = true ∨ 100 ≤ ms))) →
       Does (.restartAfterSave v ms) s s.now.restart.begin)
   ∧ (∀ m : Mach, m.restart.mram = m.benchesLost.mram ∧ m.restart.sec.rollback = m.sec.rollback ∧ m.restart.sec.boots = m.sec.boots
       ∧ m.restart.cab.copies = m.cab.copies ∧ m.restart.cab.creds = m.cab.creds ∧ m.restart.cab.locked = m.cab.locked
       ∧ m.benchesLost.cab.head = m.cab.head + (m.link.benches.filter fun (x : BenchRec) => x.due || x.on).length
       ∧ m.restart.groups = m.benchesLost.readGroups
       ∧ m.restart.faults = [] ∧ m.restart.start.waiting = true ∧ m.restart.time.frame = 0))
  ∧ ((∀ (s : State) (us : Nat), 10 ≤ us → Does (.resetN us) s { s.now.restart with
       power.on := s.now.power.on
       power.resetHeld := true })
   ∧ (∀ s : State, s.now.power.resetHeld = true →
       let m1 : Mach := { s.now with power.resetHeld := false }
       (s.now.power.on = true → Does .resetNRelease s m1.begin) ∧ (s.now.power.on = false → Does .resetNRelease s m1))
   ∧ (∀ (s : State) (tag : Nat), Serves s 0x03 →
       ((s.now.still = false ∨ s.now.inRun = true) → Answers (.resetModule tag) s 0x03 tag 0x22 [] s.now)
       ∧ (s.now.still = true → s.now.inRun = false →
         Answers (.resetModule tag) s 0x03 tag 0x00 [] { s.now.beginSave 2 with host.resetReq := some s.now.time.frame })))
  ∧ ((∀ (m : Mach) (k : Nat), (m.beginSave k).power.save = some m.time.frame ∧ (m.beginSave k).power.saveKind = k
       ∧ (m.beginSave k).power.saveDone = false ∧ (m.beginSave k).rcd.frozen = true ∧ (m.beginSave k).host.hbsy = true
       ∧ (m.beginSave k).host.prep = none
       ∧ ∀ x : Sys2Proof.Ab, ((m.beginSave k).cab.locked.get x) = (m.cab.fails, (m.cab.lockout + 3999) / 4000))
   ∧ (∀ (s : State) (us : Nat), s.now.power.save.isSome = true → s.now.power.saveDone = false →
       (s.now.power.saveKind = 2 ∨ (s.now.power.saveKind = 0 ∧ 3200 ≤ s.now.power.vin) →
         ∃ t, exec (.stateSaveComplete us) s = .next t ∧ t.now.power.saveDone = true ∧ t.now.power.saveDur = us
           ∧ (∀ x : Sys2Proof.Ab, (t.now.cab.locked.get x) = (s.now.cab.fails, (s.now.cab.lockout + 3999) / 4000)) ∧ t.now.inForce 0 0x03 = false
           ∧ t.now.doors = s.now.doors.map fun _ d => d.gatesOff s.now.time.frame)
       ∧ (s.now.power.saveKind = 1 → ∃ t, exec (.stateSaveComplete us) s = .next t ∧ t.now.power.on = false
           ∧ t.now.power.saveDone = true)
       ∧ (s.now.power.saveKind = 0 → s.now.power.vin < 3200 → ∃ t, exec (.stateSaveComplete us) s = .next t
           ∧ t.now.start.waiting = true ∧ t.now.faults = [])))
  ∧ ((∀ (s : State) (n : Nat), s.now.powered = true → 2 ≤ n →
       Does (.railFault n) s (({ s.now with power.railBad := true } : Mach).raise 0 0x06 5).startBlocks)
   ∧ (∀ (s : State) (t : Int), s.now.powered = true →
       let lim : Int := if Config.partX then 1200 else 1050
       (lim ≤ t → Does (.logicTempThreshold t) s (s.now.raise 0 0x07 3))
       ∧ (t < lim - 100 → Does (.logicTempThreshold t) s (s.now.endFault 0 0x07))
       ∧ (lim - 100 ≤ t → t < lim → Does (.logicTempThreshold t) s s.now))
   ∧ (∀ (s : State) (o ms : Nat), s.now.powered = true → o < 3 → 10 ≤ ms → (nth s.now.power.sup o (true, 0)).1 = true →
       let m1 : Mach := { s.now with power.sup := updAt s.now.power.sup o fun _ => (false, s.now.time.frame) }
       (o = 0 → Does (.sensorSupplyOff o ms) s m1.encoderLost) ∧ (o ≠ 0 → Does (.sensorSupplyOff o ms) s m1))
   ∧ (∀ (s : State) (o : Nat), s.now.powered = true → (nth s.now.power.sup o (true, 0)).1 = false →
       4000 ≤ s.now.time.frame - (nth s.now.power.sup o (true, 0)).2 →
       Does (.sensorSupplyOn o) s { s.now with power.sup := updAt s.now.power.sup o fun _ => (true, s.now.time.frame) }))

/-- Attestation, firmware transfer, and the verification of images.
ATTEST for the nonce of the report held: 0x00 with that report; with another one under way and none held:
0x02; else 0x01, a report of the state read in that frame being under way. ATTEST_COMPLETE: the report under
way with its signature is held for its nonce, counted, and completes with 0x00. CERT_GET of a certificate
above 2: 0x13, else 0x00 with at most 4096 bytes. (Certificates and signatures are opaque,
notes/assumptions/9.md.) FW_BEGIN: 0x20 without a session, 0x02 during an installation, 0x13 for a kind above
2 or a length not of an image of that kind, 0x22 for an application image whose target is in FAULT; else 0x00,
a transfer of that length open and the other slot of its target emptied. FW_CHUNK: 0x22 with no transfer open,
0x02 while the store writes; the next bytes that fit: 0x00, taken; a repetition of bytes taken: 0x00; any
other: 0x13. FW_COMMIT: 0x20 without a session; 0x13 without a whole image; 0x22, of a kernel or field image
or an application image not COMPAT with the holder's or not reloadable, with the car in service, not at rest
or in a run; else 0x01, to be verified. FW_CHUNK_WRITTEN: the store is free. FW_TRANSFER_TIMEOUT, after 30
min: it is over. FW_VERIFIED: an image that fails verification ends its transfer, raises 0xE9 F1 and completes
with its status; a kernel or field image that passes is selected, ends 0xE9, completes 0x00 and begins the
save of its restart; an application image whose processor holds the tether completes 0x02, one not reloadable
0x22, else it is selected and its processor reloaded. BOOT_VERIFIED of the cores: their digests are posted;
with two alike each other core is judged for exclusion; else 0xE5 F5, with 0xE1 in the class of 0x10 where one
did not boot, or with fewer than two 0xE1 F5. Of the field controller: it runs its image and is booted, or
raises 0xE3 F5. Of an application processor: it runs its image, is booted, and its role is SYNCING while a
holder is there, BOOTING else; or it is in FAULT with 0xE2 F2. -/
def Obligations.AttestationFirmwareAndBoot : Prop :=
  ((∀ (s : State) (tag : Nat) (nonce : List Nat), Serves s 0x90 →
       let begun : Mach := { s.now with
         sec.report := none
         sec.attest := some ⟨nonce, s.now.attestBody s.shown nonce, tag, s.now.time.frame⟩ }
       (∀ b, s.now.sec.report = some (nonce, b) → Answers (.attest tag nonce) s 0x90 tag 0x00 b s.now)
       ∧ (∀ n b, s.now.sec.report = some (n, b) → n ≠ nonce → Answers (.attest tag nonce) s 0x90 tag 0x01 [] begun)
       ∧ (s.now.sec.report = none → s.now.sec.attest.isSome = true → Answers (.attest tag nonce) s 0x90 tag 0x02 [] s.now)
       ∧ (s.now.sec.report = none → s.now.sec.attest = none → Answers (.attest tag nonce) s 0x90 tag 0x01 [] begun))
   ∧ (∀ (s : State) (r : AttestRun), s.now.sec.attest = some r → Does .attestComplete s (({ s.now with
       sec.attest := none
       sec.report := some (r.nonce, r.body ++ signatureOf r.body)
       sec.attests := sat32 s.now.sec.attests } : Mach).completed 0x90 r.tag 0x00 0 0))
   ∧ (∀ (s : State) (tag i : Nat), Serves s 0x91 →
       (2 < i → Answers (.certGet tag i) s 0x91 tag 0x13 [] s.now)
       ∧ (i ≤ 2 → ∃ p, p.length ≤ 4096 ∧ Answers (.certGet tag i) s 0x91 tag 0x00 p s.now)))
  ∧ ((∀ (s : State) (tag k n : Nat), Serves s 0x92 →
       (s.now.session = false → Answers (.fwBegin tag k n) s 0x92 tag 0x20 [] s.now)
       ∧ (s.now.session = true → s.now.installing = true → Answers (.fwBegin tag k n) s 0x92 tag 0x02 [] s.now)
       ∧ (s.now.session = true → s.now.installing = false → (2 < k ∨ n < 1281 ∨ 1280 + bodyMax k < n) →
         Answers (.fwBegin tag k n) s 0x92 tag 0x13 [] s.now)
       ∧ (s.now.session = true → s.now.installing = false → k = 1 → 1281 ≤ n → n ≤ 1280 + bodyMax k →
         (s.now.ap s.now.apOf.other).role = 5 → Answers (.fwBegin tag k n) s 0x92 tag 0x22 [] s.now)
       ∧ (s.now.session = true → s.now.installing = false → k ≤ 2 → 1281 ≤ n → n ≤ 1280 + bodyMax k →
         (k = 1 → (s.now.ap s.now.apOf.other).role ≠ 5) →
         let t := if k = 0 then 0 else if k = 2 then 3 else 1 + s.now.apOf.other.idx
         Answers (.fwBegin tag k n) s 0x92 tag 0x00 [] { s.now.fwDrop.setSlot t (1 - s.now.selected t) ⟨false, [], false⟩ with
           sec.fw := some { FwRun.reset with kind := k, target := t, len := n, last := s.now.time.frame }
           sec.fwState := 1
           sec.fwKind := k
           sec.fwCount := 0 }))
   ∧ (∀ (s : State) (tag o : Nat) (d : List Nat), Serves s 0x93 →
       (s.now.sec.fw = none → Answers (.fwChunk tag o d) s 0x93 tag 0x22 [] s.now)
       ∧ (∀ w, s.now.sec.fw = some w →
         (w.phase ≠ 1 → Answers (.fwChunk tag o d) s 0x93 tag 0x22 [] s.now)
         ∧ (w.phase = 1 → w.writing = true → Answers (.fwChunk tag o d) s 0x93 tag 0x02 [] s.now)
         ∧ (w.phase = 1 → w.writing = false →
           (o = w.data.length → w.data.length + d.length ≤ w.len → Answers (.fwChunk tag o d) s 0x93 tag 0x00 [] { s.now with
             sec.fw := some { w with data := w.data ++ d, writing := true, last := s.now.time.frame }
             sec.fwCount := w.data.length + d.length })
           ∧ (o < w.data.length → (w.data.drop o).take d.length = d → Answers (.fwChunk tag o d) s 0x93 tag 0x00 [] s.now)
           ∧ (¬ (o = w.data.length ∧ w.data.length + d.length ≤ w.len) → ¬ (o < w.data.length ∧ (w.data.drop o).take d.length = d) →
             Answers (.fwChunk tag o d) s 0x93 tag 0x13 [] s.now))))
   ∧ (∀ (s : State) (tag : Nat), Serves s 0x94 →
       (s.now.session = false → Answers (.fwCommit tag) s 0x94 tag 0x20 [] s.now)
       ∧ (s.now.session = true → s.now.sec.fw = none → Answers (.fwCommit tag) s 0x94 tag 0x13 [] s.now)
       ∧ (∀ w, s.now.session = true → s.now.sec.fw = some w →
         ((w.phase ≠ 1 ∨ w.data.length ≠ w.len) → Answers (.fwCommit tag) s 0x94 tag 0x13 [] s.now)
         ∧ (w.phase = 1 → w.data.length = w.len →
           ((w.kind ≠ 1 ∨ hdrCompat w.data ≠ s.now.holderCompat ∨ s.now.reloadable w.target = false) →
             (s.now.sched.inService = true ∨ s.now.still = false ∨ s.now.inRun = true) → Answers (.fwCommit tag) s 0x94 tag 0x22 [] s.now)
           ∧ ((w.kind = 1 ∧ hdrCompat w.data = s.now.holderCompat ∧ s.now.reloadable w.target = true)
               ∨ (s.now.sched.inService = false ∧ s.now.still = true ∧ s.now.inRun = false) →
             Answers (.fwCommit tag) s 0x94 tag 0x01 [] { s.now with sec.fw := some { w with phase := 2, tag := tag }, sec.fwState := 2 }))))
   ∧ (∀ (s : State) (w : FwRun), s.now.sec.fw = some w → w.writing = true →
       Does .fwChunkWritten s { s.now with sec.fw := some { w with writing := false } })
   ∧ (∀ (s : State) (w : FwRun), s.now.sec.fw = some w → w.phase = 1 → 7200000 ≤ s.now.time.frame - w.last →
       Does .fwTransferTimeout s { s.now with sec.fw := none, sec.fwState := 0 }))
  ∧ ((∀ (s : State) (w : FwRun), s.now.sec.fw = some w → w.phase = 2 → w.writing = false →
       let st := s.now.imageStatus w.target w.data
       Does .fwVerified s
         (if st ≠ 0 then (({ s.now with sec.fw := none, sec.fwState := 4 } : Mach).raise 0 0xE9 1).completed 0x94 w.tag st 0 0
         else if w.kind ≠ 1 then
           ((({ s.now.selectImage w with sec.fw := none, sec.fwState := 3 } : Mach).endFault 0 0xE9).completed 0x94 w.tag 0x00 0 0).beginSave 2
         else if s.now.pair.holder = some (abOf (w.target - 1)) then
           ({ s.now with sec.fw := none, sec.fwState := 0 } : Mach).completed 0x94 w.tag 0x02 0 0
         else if s.now.reloadable w.target = false ∧ s.now.fwQuiet = false then
           ({ s.now with sec.fw := none, sec.fwState := 0 } : Mach).completed 0x94 w.tag 0x22 0 0
         else
           { (s.now.selectImage w).apReload (abOf (w.target - 1)) with sec.fw := some { w with phase := 3 }, sec.fwState := 3 }))
   ∧ (∀ (s : State) (cores : Three CoreBoot), s.now.booting 0 = true →
       let d := cores.map fun c e => s.now.postedDigest c e
       let m1 : Mach := { s.now with sec.coreDigest := d, triad.mails := d.map fun _ (o : Option (List Nat)) => o.isSome }
       Does (.bootVerified 0 cores) s
         (match majority d with
         | some x =>
           ((match s.now.bootSlot 0 with
             | some slot => m1.runSlot 0 slot
             | none => m1).each coreIds fun m c => m.bootExclude x c).startBlocks
         | none => (if m1.triad.mails.count < 2 then m1.bootFault 0x0500 0xE1 5 else (if m1.triad.mails.count = 2 then m1.bootFault 0x0500 0xE1 m1.triadClass else m1).bootFault 0 0xE5 5).startBlocks))
   ∧ (∀ (s : State) (cores : Three CoreBoot), s.now.booting 3 = true →
       (∀ slot, s.now.bootSlot 3 = some slot →
         Does (.bootVerified 3 cores) s ({ s.now.runSlot 3 slot with field.booted := true } : Mach).startBlocks)
       ∧ (s.now.bootSlot 3 = none → Does (.bootVerified 3 cores) s (s.now.bootFault 0 0xE3 5).startBlocks))
   ∧ (∀ (s : State) (cores : Three CoreBoot) (t slot : Nat), (t = 1 ∨ t = 2) → s.now.booting t = true →
       s.now.bootSlot (1 + (abOf (t - 1)).idx) = some slot →
       let m1 := s.now.runSlot (1 + (abOf (t - 1)).idx) slot
       Does (.bootVerified t cores) s ((m1.onAp (abOf (t - 1)) fun x => { x with
         booted := true
         compat := hdrCompat (nth m1.sec.run (1 + (abOf (t - 1)).idx) RunImage.reset).hdr
         role := if s.now.pair.holder.isSome then 2 else 1 }).apInstalled (1 + (abOf (t - 1)).idx)))
   ∧ (∀ (s : State) (cores : Three CoreBoot) (t : Nat), (t = 1 ∨ t = 2) → s.now.booting t = true →
       s.now.bootSlot (1 + (abOf (t - 1)).idx) = none →
       Does (.bootVerified t cores) s ((s.now.onAp (abOf (t - 1)) fun x => { x with role := 5 }).bootFault 0x0600 0xE2 2)))

/-- Wakes, the commands of the sleep controller, and the steps of start-up.
WAKE of a module that can wake, by a source that wakes it: its code is noted and the wake begun, RUN following
after 1 frame from IDLE, 8 from DOZE and 240 from PARK, with fast frames from the end of the safety frame in
progress. The sources: 2 a line of movement or eight samples off by 0.3 m/s2 (not with MOUNT CABINET), 3 the
host, 4 a bus, 5 a channel of an input mode, 6 a block not ARMED, 7 a fault. SCHEDULED_WAKE, the known event
no longer fitting the state: a wake of source 1. SLEEP_POLICY: 0x00 and all entries deferred, or another
status and none where one is refused or not of the sleep policy. POWER_READ: 0x00, changing nothing.
STARTUP_STEP_COMPLETE of a step that is done with no fault blocking it: the next step begins; entering step 4
reads the cabinet and what is saved and sends the channel configuration; after step 5, READY: step 6.
STARTUP_DEADLINE in steps 1 to 5, before the first tick or at 20, 300, 400, 700 and 1500 ms: the step blocks,
but step 5 without either processor booted raises 0x24 F4. TETHER_GRANT_FALLBACK, the tether to be granted,
1000 ms after the start, the preferred processor not qualified and the other one qualified: the other one
holds the tether. -/
def Obligations.SleepAndStartupComplete : Prop :=
  ((∀ (s : State) (src : WakeSource), s.now.canWake = true → s.now.wakesModule src = true →
       Does (.wake src) s { s.now with
         power.wakeSrc := wakeCode src
         power.waking := some (s.now.time.frame + (if s.now.power.state = 3 then 240 else if s.now.power.state = 2 then 8 else 1))
         power.fastFrom := some ((s.now.time.frame / s.now.safetySpan + 1) * s.now.safetySpan) })
   ∧ (∀ (m : Mach) (lines ch h u c : Nat) (acc : List Int) (p : Sys2Proof.Ab),
       wakeCode (.movement lines acc) = 2 ∧ wakeCode .hostSelect = 3 ∧ wakeCode (.bus p) = 4 ∧ wakeCode (.input ch) = 5
       ∧ wakeCode (.block h) = 6 ∧ wakeCode (.fault u c) = 7
       ∧ (m.wakesModule (.movement lines acc) = true ↔ (1 ≤ lines ∨ (m.mountCabinet = false ∧ 8 ≤ acc.length
         ∧ ∀ x ∈ acc.take 8, 300000 < mag (x - m.est.gCal))))
       ∧ m.wakesModule .hostSelect = true
       ∧ (m.wakesModule (.bus p) = true ↔ (m.prt p).sleep = false)
       ∧ (m.wakesModule (.input ch) = true ↔ ch < 64 ∧ inputMode (m.fMode ch) = true)
       ∧ (m.wakesModule (.block h) = true ↔ (0x0700 ≤ h ∧ h ≤ 0x07FF ∧ m.exists h = true ∧ (m.blockReport h).1 ≠ 1))
       ∧ (m.wakesModule (.fault u c) = true ↔ ∃ f ∈ m.faults, f.unit = u ∧ f.code = c ∧ 1 ≤ f.cls))
   ∧ (∀ s : State, s.now.canWake = true → s.now.fits s.now.power.state s.now.nextKnown = false →
       Does .scheduledWake s (s.now.wakeUp 1))
   ∧ (∀ (s : State) (tag : Nat) (es : List SetEntry), Serves s 0xB0 →
       ((es = [] ∨ 64 < es.length) → Answers (.sleepPolicy tag es) s 0xB0 tag 0x11 [] s.now)
       ∧ (es ≠ [] → es.length ≤ 64 → (∀ e ∈ es, s.now.setStatus 0 e = 0 ∧ pSLEEP_MAX_STATE ≤ e.id ∧ e.id ≤ pDOOR_RECHECK_PERIOD) → s.now.exists 0 = true →
         Answers (.sleepPolicy tag es) s 0xB0 tag 0x00 (es.flatMap fun e => le 2 e.id ++ [0]) (s.now.defer (0xB0, tag) 0 es))
       ∧ (es ≠ [] → es.length ≤ 64 → (∃ e ∈ es, s.now.setStatus 0 e ≠ 0 ∨ e.id < pSLEEP_MAX_STATE ∨ pDOOR_RECHECK_PERIOD < e.id) → s.now.exists 0 = true →
         ∃ st p, st ≠ 0 ∧ Answers (.sleepPolicy tag es) s 0xB0 tag st p s.now))
   ∧ (∀ (s : State) (tag : Nat), Serves s 0xB1 → ∃ p, Answers (.powerRead tag) s 0xB1 tag 0x00 p s.now))
  ∧ ((∀ s : State, s.now.powered = true → s.now.stepDone = true → s.now.stepBlocked = false →
       let next (k : Nat) : Mach := { s.now with start.step := k, start.blockedAt := none, start.block := 0 }
       (s.now.start.step = 5 → Does .startupStepComplete s s.now.becomeReady)
       ∧ (s.now.start.step = 3 → Does .startupStepComplete s (next 4).stepFour.startBlocks)
       ∧ (s.now.start.step ≠ 5 → s.now.start.step ≠ 3 → Does .startupStepComplete s (next (s.now.start.step + 1)).startBlocks))
   ∧ (∀ m : Mach, m.stepFour = m.readCabinet.readSaved.sendConfig)
   ∧ (∀ m : Mach, m.becomeReady.start.step = 6 ∧ m.becomeReady.start.ready = true)
   ∧ (∀ s : State, s.now.powered = true → 1 ≤ s.now.start.step → s.now.start.step ≤ 5 →
       (s.now.time.running = false ∨ ((1000 * stepDeadline s.now.start.step : Nat) : Int) ≤ s.now.elapsedUs) →
       ((s.now.start.step = 5 ∧ s.now.pair.aps.a.booted = false ∧ s.now.pair.aps.b.booted = false) →
         Does .startupDeadline s (s.now.raise 0x0600 0x24 4).startBlocks)
       ∧ ((s.now.start.step ≠ 5 ∨ s.now.pair.aps.a.booted = true ∨ s.now.pair.aps.b.booted = true) →
         Does .startupDeadline s (s.now.blockStart 0)))
   ∧ (stepDeadline 1 = 20 ∧ stepDeadline 2 = 300 ∧ stepDeadline 3 = 400 ∧ stepDeadline 4 = 700 ∧ stepDeadline 5 = 1500)
   ∧ (∀ s : State, s.now.granting = true → 1000000 ≤ s.now.elapsedUs → s.now.qualifies s.now.preferred = false →
       s.now.qualifies s.now.preferred.other = true → Does .tetherGrantFallback s (s.now.grantTether s.now.preferred.other))
   ∧ (∀ (m : Mach) (a : Sys2Proof.Ab), (m.grantTether a).pair.holder = some a ∧ (m.grantTether a).pair.noHolder = 0))
end

