-- ==== Sys2Proof/Laws/KeepOperands.lean ====
section
/-!
SUPPORT. What the operations of Machine/Operands.lean leave alone of the MRAM, the frame count, the rollback
counter, the boot count and the credentials of the cabinet, and that they keep the canonical form of the MRAM.
-/
namespace Sys2Proof.Laws

open Sys2Proof Sys2Proof.Machine

set_option linter.all false
set_option linter.unreachableTactic false
set_option linter.unusedTactic false
theorem keeps_put (m : Mach) (h : Nat) (id : Nat) (v : List Int) :
    (Mach.put m h id v).mram = m.mram
    ∧ (Mach.put m h id v).time.frame = m.time.frame
    ∧ (Mach.put m h id v).sec.rollback = m.sec.rollback
    ∧ (Mach.put m h id v).sec.boots = m.sec.boots
    ∧ (Mach.put m h id v).cab.creds = m.cab.creds := by
  exact ⟨rfl, rfl, rfl, rfl, rfl⟩

theorem keeps_putI (m : Mach) (h : Nat) (id : Nat) (v : Int) :
    (Mach.putI m h id v).mram = m.mram
    ∧ (Mach.putI m h id v).time.frame = m.time.frame
    ∧ (Mach.putI m h id v).sec.rollback = m.sec.rollback
    ∧ (Mach.putI m h id v).sec.boots = m.sec.boots
    ∧ (Mach.putI m h id v).cab.creds = m.cab.creds := by
  exact ⟨rfl, rfl, rfl, rfl, rfl⟩

end Sys2Proof.Laws
end

