-- ==== Sys2Proof/Laws/Memory.lean ====
section
/-!
SUPPORT. The MRAM: what a read answers after a write, and that every operation on it keeps the canonical
form.
-/
namespace Sys2Proof.Laws

open Sys2Proof Sys2Proof.Machine

/-- A list that is well formed from an address is well formed from every lower one. -/
theorem wfFrom_mono (l : List (Nat × BitVec 8)) (lo lo' : Nat) (h : lo' ≤ lo) (w : Memory.wfFrom lo l = true) :
    Memory.wfFrom lo' l = true := by
  cases l with
  | nil => rfl
  | cons c r =>
    obtain ⟨k, b⟩ := c
    simp only [Memory.wfFrom, Bool.and_eq_true, decide_eq_true_eq] at w ⊢
    exact ⟨⟨⟨Nat.le_trans h w.1.1.1, w.1.1.2⟩, w.1.2⟩, w.2⟩

/-- A write keeps the canonical form from any bound not above the address. -/
theorem wfFrom_write (l : List (Nat × BitVec 8)) (lo a : Nat) (b : BitVec 8) (h : lo ≤ a)
    (w : Memory.wfFrom lo l = true) : Memory.wfFrom lo (Memory.write l a b) = true := by
  induction l generalizing lo with
  | nil =>
    unfold Memory.write
    repeat' split
    all_goals simp_all [Memory.wfFrom]
  | cons c r ih =>
    obtain ⟨k, d⟩ := c
    have w0 := w
    simp only [Memory.wfFrom, Bool.and_eq_true, decide_eq_true_eq] at w
    obtain ⟨⟨⟨w1, w2⟩, w3⟩, w4⟩ := w
    unfold Memory.write
    split
    · exact w0
    · rename_i hs
      dsimp only
      split
      · rename_i hk
        split
        · exact w0
        · rename_i hb
          simp only [Memory.wfFrom, Bool.and_eq_true, decide_eq_true_eq]
          exact ⟨⟨⟨h, by omega⟩, by simpa [bne] using hb⟩, ⟨⟨by omega, w2⟩, w3⟩, w4⟩
      · rename_i hk
        split
        · rename_i he
          have he : a = k := by simpa using he
          split
          · exact wfFrom_mono r _ _ (by omega) w4
          · rename_i hb
            simp only [Memory.wfFrom, Bool.and_eq_true, decide_eq_true_eq]
            exact ⟨⟨⟨h, by omega⟩, by simpa [bne] using hb⟩, he ▸ w4⟩
        · rename_i he
          have he : a ≠ k := by simpa using he
          simp only [Memory.wfFrom, Bool.and_eq_true, decide_eq_true_eq]
          exact ⟨⟨⟨w1, w2⟩, w3⟩, ih (k + 1) (by omega) w4⟩

/-- A write keeps the canonical form. -/
theorem wf_write (l : List (Nat × BitVec 8)) (a : Nat) (b : BitVec 8) (w : Memory.wf l = true) :
    Memory.wf (Memory.write l a b) = true := wfFrom_write l 0 a b (Nat.zero_le a) w

/-- Writing consecutive bytes keeps the canonical form. -/
theorem wf_writeBytes (bs : List Nat) (l : List (Nat × BitVec 8)) (a : Nat) (w : Memory.wf l = true) :
    Memory.wf (Memory.writeBytes l a bs) = true := by
  induction bs generalizing l a with
  | nil => exact w
  | cons b bs ih => exact ih _ _ (wf_write l a _ w)

/-- Below its first address a well-formed list reads blank. -/
theorem read_below (l : List (Nat × BitVec 8)) (lo a : Nat) (h : a < lo) (w : Memory.wfFrom lo l = true) :
    Memory.read l a = mramBlank := by
  induction l generalizing lo with
  | nil => rfl
  | cons c r ih =>
    obtain ⟨k, d⟩ := c
    simp only [Memory.wfFrom, Bool.and_eq_true, decide_eq_true_eq] at w
    have hk : (k == a) = false := by simp; omega
    simp only [Memory.read, hk]
    exact ih (k + 1) (by omega) w.2

/-- What any address reads as after a write. -/
theorem read_write (l : List (Nat × BitVec 8)) (lo a : Nat) (b : BitVec 8) (h : lo ≤ a) (hs : a < mramSize)
    (w : Memory.wfFrom lo l = true) (x : Nat) :
    Memory.read (Memory.write l a b) x = if x = a then b else Memory.read l x := by
  induction l generalizing lo with
  | nil =>
    unfold Memory.write
    rw [if_neg (by omega)]
    dsimp only
    split
    · rename_i hb
      have hb : b = mramBlank := by simpa using hb
      subst hb
      split <;> rfl
    · simp only [Memory.read, beq_iff_eq, eq_comm (a := a)]
  | cons c r ih =>
    obtain ⟨k, d⟩ := c
    have w0 := w
    simp only [Memory.wfFrom, Bool.and_eq_true, decide_eq_true_eq] at w
    obtain ⟨⟨⟨w1, w2⟩, w3⟩, w4⟩ := w
    unfold Memory.write
    rw [if_neg (by omega)]
    dsimp only
    split
    · rename_i hk
      split
      · rename_i hb
        have hb : b = mramBlank := by simpa using hb
        subst hb
        split
        · rename_i hx
          subst hx
          have : (k == x) = false := by simp; omega
          simp only [Memory.read, this]
          exact read_below r (k + 1) x (by omega) w4
        · rfl
      · simp only [Memory.read, beq_iff_eq, eq_comm (a := a)]
    · split
      · rename_i hk he
        have he : a = k := by simpa using he
        subst he
        split
        · rename_i hb
          have hb : b = mramBlank := by simpa using hb
          subst hb
          split
          · rename_i hx
            subst hx
            exact read_below r (x + 1) x (by omega) w4
          · rename_i hx
            have : (a == x) = false := by simp; omega
            simp only [Memory.read, this]
            rfl
        · simp only [Memory.read, beq_iff_eq, eq_comm (a := a)]
          split <;> rfl
      · rename_i hk he
        have he : a ≠ k := by simpa using he
        simp only [Memory.read]
        split
        · rename_i hx
          have hx : k = x := by simpa using hx
          rw [if_neg (by omega)]
        · exact ih (k + 1) (by omega) w4

/-- What any address reads as after writing consecutive bytes inside the MRAM. -/
theorem read_writeBytes (bs : List Nat) (l : List (Nat × BitVec 8)) (a : Nat) (w : Memory.wf l = true)
    (hs : a + bs.length ≤ mramSize) (x : Nat) :
    Memory.read (Memory.writeBytes l a bs) x
      = if a ≤ x ∧ x < a + bs.length then BitVec.ofNat 8 (bs.getD (x - a) 0) else Memory.read l x := by
  induction bs generalizing l a with
  | nil =>
    rw [if_neg (by simp only [List.length_nil]; omega)]
    rfl
  | cons b bs ih =>
    simp only [List.length_cons] at hs ⊢
    simp only [Memory.writeBytes]
    rw [ih _ _ (wf_write l a _ w) (by omega), read_write l 0 a _ (by omega) (by omega) w x]
    by_cases hx : x = a
    · subst hx
      rw [if_neg (by omega), if_pos rfl, if_pos (by omega)]
      simp
    · by_cases h1 : a + 1 ≤ x ∧ x < a + 1 + bs.length
      · rw [if_pos h1, if_pos (by omega)]
        obtain ⟨k, hk⟩ : ∃ k, x - a = k + 1 := ⟨x - a - 1, by omega⟩
        have hk' : x - (a + 1) = k := by omega
        simp [hk, hk']
      · rw [if_neg h1, if_neg hx, if_neg (by omega)]

end Sys2Proof.Laws
end

