-- ==== Sys2Proof/Laws/KeepOps.lean ====
section
/-!
SUPPORT. What the operations of Machine/Ops.lean leave alone of the MRAM, the frame count, the rollback
counter, the boot count and the credentials of the cabinet, and that they keep the canonical form of the MRAM.
-/
namespace Sys2Proof.Laws

open Sys2Proof Sys2Proof.Machine

set_option linter.all false
set_option linter.unreachableTactic false
set_option linter.unusedTactic false
theorem ite_mram (c : Prop) [Decidable c] (a b : Mach) : (if c then a else b).mram = if c then a.mram else b.mram := by
  split <;> rfl

theorem when_mram (m : Mach) (c : Bool) (f : Mach → Mach) :
    (m.when c f).mram = if c then (f m).mram else m.mram := by
  unfold Mach.when; split <;> rfl

theorem foldl_mram {α : Type} (l : List α) (f : Mach → α → Mach) (h : ∀ m x, (f m x).mram = m.mram) (m : Mach) :
    (l.foldl f m).mram = m.mram := by
  induction l generalizing m with
  | nil => rfl
  | cons x r ih => rw [List.foldl_cons, ih, h]

theorem each_mram {α : Type} (m : Mach) (l : List α) (f : Mach → α → Mach) (h : ∀ m x, (f m x).mram = m.mram) :
    (m.each l f).mram = m.mram := foldl_mram l f h m

theorem ite_time_frame (c : Prop) [Decidable c] (a b : Mach) : (if c then a else b).time.frame = if c then a.time.frame else b.time.frame := by
  split <;> rfl

theorem when_time_frame (m : Mach) (c : Bool) (f : Mach → Mach) :
    (m.when c f).time.frame = if c then (f m).time.frame else m.time.frame := by
  unfold Mach.when; split <;> rfl

theorem foldl_time_frame {α : Type} (l : List α) (f : Mach → α → Mach) (h : ∀ m x, (f m x).time.frame = m.time.frame) (m : Mach) :
    (l.foldl f m).time.frame = m.time.frame := by
  induction l generalizing m with
  | nil => rfl
  | cons x r ih => rw [List.foldl_cons, ih, h]

theorem each_time_frame {α : Type} (m : Mach) (l : List α) (f : Mach → α → Mach) (h : ∀ m x, (f m x).time.frame = m.time.frame) :
    (m.each l f).time.frame = m.time.frame := foldl_time_frame l f h m

theorem ite_sec_rollback (c : Prop) [Decidable c] (a b : Mach) : (if c then a else b).sec.rollback = if c then a.sec.rollback else b.sec.rollback := by
  split <;> rfl

theorem when_sec_rollback (m : Mach) (c : Bool) (f : Mach → Mach) :
    (m.when c f).sec.rollback = if c then (f m).sec.rollback else m.sec.rollback := by
  unfold Mach.when; split <;> rfl

theorem foldl_sec_rollback {α : Type} (l : List α) (f : Mach → α → Mach) (h : ∀ m x, (f m x).sec.rollback = m.sec.rollback) (m : Mach) :
    (l.foldl f m).sec.rollback = m.sec.rollback := by
  induction l generalizing m with
  | nil => rfl
  | cons x r ih => rw [List.foldl_cons, ih, h]

theorem each_sec_rollback {α : Type} (m : Mach) (l : List α) (f : Mach → α → Mach) (h : ∀ m x, (f m x).sec.rollback = m.sec.rollback) :
    (m.each l f).sec.rollback = m.sec.rollback := foldl_sec_rollback l f h m

theorem ite_sec_boots (c : Prop) [Decidable c] (a b : Mach) : (if c then a else b).sec.boots = if c then a.sec.boots else b.sec.boots := by
  split <;> rfl

theorem when_sec_boots (m : Mach) (c : Bool) (f : Mach → Mach) :
    (m.when c f).sec.boots = if c then (f m).sec.boots else m.sec.boots := by
  unfold Mach.when; split <;> rfl

theorem foldl_sec_boots {α : Type} (l : List α) (f : Mach → α → Mach) (h : ∀ m x, (f m x).sec.boots = m.sec.boots) (m : Mach) :
    (l.foldl f m).sec.boots = m.sec.boots := by
  induction l generalizing m with
  | nil => rfl
  | cons x r ih => rw [List.foldl_cons, ih, h]

theorem each_sec_boots {α : Type} (m : Mach) (l : List α) (f : Mach → α → Mach) (h : ∀ m x, (f m x).sec.boots = m.sec.boots) :
    (m.each l f).sec.boots = m.sec.boots := foldl_sec_boots l f h m

theorem ite_cab_creds (c : Prop) [Decidable c] (a b : Mach) : (if c then a else b).cab.creds = if c then a.cab.creds else b.cab.creds := by
  split <;> rfl

theorem when_cab_creds (m : Mach) (c : Bool) (f : Mach → Mach) :
    (m.when c f).cab.creds = if c then (f m).cab.creds else m.cab.creds := by
  unfold Mach.when; split <;> rfl

theorem foldl_cab_creds {α : Type} (l : List α) (f : Mach → α → Mach) (h : ∀ m x, (f m x).cab.creds = m.cab.creds) (m : Mach) :
    (l.foldl f m).cab.creds = m.cab.creds := by
  induction l generalizing m with
  | nil => rfl
  | cons x r ih => rw [List.foldl_cons, ih, h]

theorem each_cab_creds {α : Type} (m : Mach) (l : List α) (f : Mach → α → Mach) (h : ∀ m x, (f m x).cab.creds = m.cab.creds) :
    (m.each l f).cab.creds = m.cab.creds := foldl_cab_creds l f h m

theorem ite_fst {α β : Type} (c : Prop) [Decidable c] (a b : α × β) :
    (if c then a else b).1 = if c then a.1 else b.1 := by
  split <;> rfl

theorem ite_snd {α β : Type} (c : Prop) [Decidable c] (a b : α × β) :
    (if c then a else b).2 = if c then a.2 else b.2 := by
  split <;> rfl

theorem wf_ite (c : Prop) [Decidable c] (a b : List (Nat × BitVec 8)) (ha : Memory.wf a = true) (hb : Memory.wf b = true) :
    Memory.wf (if c then a else b) = true := by
  split
  · exact ha
  · exact hb

theorem wf_foldl {α : Type} (l : List α) (f : Mach → α → Mach)
    (h : ∀ m x, Memory.wf m.mram = true → Memory.wf (f m x).mram = true) (m : Mach) (w : Memory.wf m.mram = true) :
    Memory.wf (l.foldl f m).mram = true := by
  induction l generalizing m with
  | nil => exact w
  | cons x r ih => exact ih _ (h m x w)

theorem wf_each {α : Type} (m : Mach) (l : List α) (f : Mach → α → Mach)
    (h : ∀ m x, Memory.wf m.mram = true → Memory.wf (f m x).mram = true) (w : Memory.wf m.mram = true) :
    Memory.wf (m.each l f).mram = true := wf_foldl l f h m w

theorem keeps_eccSeen (m : Mach) (sub : Nat) (e : Ecc) :
    (Mach.eccSeen m sub e).mram = m.mram
    ∧ (Mach.eccSeen m sub e).time.frame = m.time.frame
    ∧ (Mach.eccSeen m sub e).sec.rollback = m.sec.rollback
    ∧ (Mach.eccSeen m sub e).sec.boots = m.sec.boots
    ∧ (Mach.eccSeen m sub e).cab.creds = m.cab.creds := by
  unfold Mach.eccSeen; try dsimp only
  simp only [↓ite_mram, ↓ite_time_frame, ↓ite_sec_rollback, ↓ite_sec_boots, ↓ite_cab_creds, ↓ite_fst, ite_self, implies_true, and_self]

theorem keeps_written (m : Mach) (a : Nat) (n : Nat) :
    (Mach.written m a n).mram = m.mram
    ∧ (Mach.written m a n).time.frame = m.time.frame
    ∧ (Mach.written m a n).sec.rollback = m.sec.rollback
    ∧ (Mach.written m a n).sec.boots = m.sec.boots
    ∧ (Mach.written m a n).cab.creds = m.cab.creds := by
  unfold Mach.written
  exact ⟨by with_reducible rfl, by with_reducible rfl, by with_reducible rfl, by with_reducible rfl, by with_reducible rfl⟩

theorem keeps_poke (m : Mach) (a : Nat) (bs : List Nat) :
    (Mach.poke m a bs).time.frame = m.time.frame
    ∧ (Mach.poke m a bs).sec.rollback = m.sec.rollback
    ∧ (Mach.poke m a bs).sec.boots = m.sec.boots
    ∧ (Mach.poke m a bs).cab.creds = m.cab.creds := by
  unfold Mach.poke
  exact ⟨by with_reducible rfl, by with_reducible rfl, by with_reducible rfl, by with_reducible rfl⟩

theorem wf_poke (m : Mach) (a : Nat) (bs : List Nat) (hw : Memory.wf m.mram = true) :
    Memory.wf (Mach.poke m a bs).mram = true := by
  exact wf_writeBytes _ _ _ hw

theorem keeps_writeRecord (m : Mach) (a : Nat) (p : List Nat) (seq : Nat) :
    (Mach.writeRecord m a p seq).time.frame = m.time.frame
    ∧ (Mach.writeRecord m a p seq).sec.rollback = m.sec.rollback
    ∧ (Mach.writeRecord m a p seq).sec.boots = m.sec.boots
    ∧ (Mach.writeRecord m a p seq).cab.creds = m.cab.creds := by
  unfold Mach.writeRecord; try dsimp only
  simp only [↓keeps_poke, ↓ite_time_frame, ↓ite_sec_rollback, ↓ite_sec_boots, ↓ite_cab_creds, ↓ite_fst, ite_self, implies_true, and_self]

theorem wf_writeRecord (m : Mach) (a : Nat) (p : List Nat) (seq : Nat) (hw : Memory.wf m.mram = true) :
    Memory.wf (Mach.writeRecord m a p seq).mram = true := by
  unfold Mach.writeRecord; try dsimp only
  all_goals repeat' first | with_reducible exact hw | with_reducible exact w | with_reducible apply wf_poke | with_reducible apply wf_ite | simp only [↓when_mram, ↓ite_mram, ↓ite_fst] | split | dsimp only

theorem keeps_voidRecord (m : Mach) (a : Nat) :
    (Mach.voidRecord m a).time.frame = m.time.frame
    ∧ (Mach.voidRecord m a).sec.rollback = m.sec.rollback
    ∧ (Mach.voidRecord m a).sec.boots = m.sec.boots
    ∧ (Mach.voidRecord m a).cab.creds = m.cab.creds := by
  unfold Mach.voidRecord; try dsimp only
  simp only [↓keeps_poke, ↓ite_time_frame, ↓ite_sec_rollback, ↓ite_sec_boots, ↓ite_cab_creds, ↓ite_fst, ite_self, implies_true, and_self]

theorem wf_voidRecord (m : Mach) (a : Nat) (hw : Memory.wf m.mram = true) :
    Memory.wf (Mach.voidRecord m a).mram = true := by
  unfold Mach.voidRecord; try dsimp only
  all_goals repeat' first | with_reducible exact hw | with_reducible exact w | with_reducible apply wf_poke | with_reducible apply wf_ite | simp only [↓when_mram, ↓ite_mram, ↓ite_fst] | split | dsimp only

theorem keeps_drawerSet (m : Mach) (d : Nat) (recs : List Nat) (f : DrawerState → DrawerState) :
    (Mach.drawerSet m d recs f).mram = m.mram
    ∧ (Mach.drawerSet m d recs f).time.frame = m.time.frame
    ∧ (Mach.drawerSet m d recs f).sec.rollback = m.sec.rollback
    ∧ (Mach.drawerSet m d recs f).sec.boots = m.sec.boots
    ∧ (Mach.drawerSet m d recs f).cab.creds = m.cab.creds := by
  unfold Mach.drawerSet
  exact ⟨by with_reducible rfl, by with_reducible rfl, by with_reducible rfl, by with_reducible rfl, by with_reducible rfl⟩

theorem keeps_drawer (m : Mach) (d : Nat) (recs : List Nat) (f : DrawerState → DrawerState) :
    (Mach.drawer m d recs f).mram = m.mram
    ∧ (Mach.drawer m d recs f).time.frame = m.time.frame
    ∧ (Mach.drawer m d recs f).sec.rollback = m.sec.rollback
    ∧ (Mach.drawer m d recs f).sec.boots = m.sec.boots
    ∧ (Mach.drawer m d recs f).cab.creds = m.cab.creds := by
  unfold Mach.drawer; try dsimp only
  simp only [↓keeps_drawerSet, ↓ite_mram, ↓ite_time_frame, ↓ite_sec_rollback, ↓ite_sec_boots, ↓ite_cab_creds, ↓ite_fst, ite_self, implies_true, and_self]

theorem keeps_countN (m : Mach) (d : Nat) (arr : Nat) (idx : Nat) (n : Nat) :
    (Mach.countN m d arr idx n).mram = m.mram
    ∧ (Mach.countN m d arr idx n).time.frame = m.time.frame
    ∧ (Mach.countN m d arr idx n).sec.rollback = m.sec.rollback
    ∧ (Mach.countN m d arr idx n).sec.boots = m.sec.boots
    ∧ (Mach.countN m d arr idx n).cab.creds = m.cab.creds := by
  unfold Mach.countN; try dsimp only
  simp only [↓keeps_drawer, ↓ite_mram, ↓ite_time_frame, ↓ite_sec_rollback, ↓ite_sec_boots, ↓ite_cab_creds, ↓ite_fst, ite_self, implies_true, and_self]

theorem keeps_count (m : Mach) (d : Nat) (arr : Nat) (idx : Nat) :
    (Mach.count m d arr idx).mram = m.mram
    ∧ (Mach.count m d arr idx).time.frame = m.time.frame
    ∧ (Mach.count m d arr idx).sec.rollback = m.sec.rollback
    ∧ (Mach.count m d arr idx).sec.boots = m.sec.boots
    ∧ (Mach.count m d arr idx).cab.creds = m.cab.creds := by
  unfold Mach.count; try dsimp only
  simp only [↓keeps_countN, ↓ite_mram, ↓ite_time_frame, ↓ite_sec_rollback, ↓ite_sec_boots, ↓ite_cab_creds, ↓ite_fst, ite_self, implies_true, and_self]

theorem keeps_extreme (m : Mach) (d : Nat) (id : Nat) (v : Int) :
    (Mach.extreme m d id v).mram = m.mram
    ∧ (Mach.extreme m d id v).time.frame = m.time.frame
    ∧ (Mach.extreme m d id v).sec.rollback = m.sec.rollback
    ∧ (Mach.extreme m d id v).sec.boots = m.sec.boots
    ∧ (Mach.extreme m d id v).cab.creds = m.cab.creds := by
  unfold Mach.extreme; try dsimp only
  simp only [↓keeps_drawer, ↓ite_mram, ↓ite_time_frame, ↓ite_sec_rollback, ↓ite_sec_boots, ↓ite_cab_creds, ↓ite_fst, ite_self, implies_true, and_self]

theorem keeps_hist (m : Mach) (d : Nat) (h : Nat) (type : Nat) (v : Int) :
    (Mach.hist m d h type v).mram = m.mram
    ∧ (Mach.hist m d h type v).time.frame = m.time.frame
    ∧ (Mach.hist m d h type v).sec.rollback = m.sec.rollback
    ∧ (Mach.hist m d h type v).sec.boots = m.sec.boots
    ∧ (Mach.hist m d h type v).cab.creds = m.cab.creds := by
  unfold Mach.hist; try dsimp only
  simp only [↓keeps_drawer, ↓ite_mram, ↓ite_time_frame, ↓ite_sec_rollback, ↓ite_sec_boots, ↓ite_cab_creds, ↓ite_fst, ite_self, implies_true, and_self]

theorem keeps_ringPush (m : Mach) (d : Nat) (second : Bool) (payload : List Nat) :
    (Mach.ringPush m d second payload).mram = m.mram
    ∧ (Mach.ringPush m d second payload).time.frame = m.time.frame
    ∧ (Mach.ringPush m d second payload).sec.rollback = m.sec.rollback
    ∧ (Mach.ringPush m d second payload).sec.boots = m.sec.boots
    ∧ (Mach.ringPush m d second payload).cab.creds = m.cab.creds := by
  unfold Mach.ringPush; try dsimp only
  simp only [↓ite_mram, ↓ite_time_frame, ↓ite_sec_rollback, ↓ite_sec_boots, ↓ite_cab_creds, ↓ite_fst, ite_self, implies_true, and_self]

theorem keeps_post (m : Mach) (kind : Nat) (detail : Nat) (unit : Nat) (code : Nat) (data : Nat) :
    (Mach.post m kind detail unit code data).mram = m.mram
    ∧ (Mach.post m kind detail unit code data).time.frame = m.time.frame
    ∧ (Mach.post m kind detail unit code data).sec.rollback = m.sec.rollback
    ∧ (Mach.post m kind detail unit code data).sec.boots = m.sec.boots
    ∧ (Mach.post m kind detail unit code data).cab.creds = m.cab.creds := by
  unfold Mach.post; try dsimp only
  simp only [↓ite_mram, ↓ite_time_frame, ↓ite_sec_rollback, ↓ite_sec_boots, ↓ite_cab_creds, ↓ite_fst, ite_self, implies_true, and_self]

theorem keeps_completed (m : Mach) (op : Nat) (tag : Nat) (status : Nat) (unit : Nat) (data : Nat) :
    (Mach.completed m op tag status unit data).mram = m.mram
    ∧ (Mach.completed m op tag status unit data).time.frame = m.time.frame
    ∧ (Mach.completed m op tag status unit data).sec.rollback = m.sec.rollback
    ∧ (Mach.completed m op tag status unit data).sec.boots = m.sec.boots
    ∧ (Mach.completed m op tag status unit data).cab.creds = m.cab.creds := by
  unfold Mach.completed; try dsimp only
  simp only [↓keeps_post, ↓ite_mram, ↓ite_time_frame, ↓ite_sec_rollback, ↓ite_sec_boots, ↓ite_cab_creds, ↓ite_fst, ite_self, implies_true, and_self]

theorem keeps_stopReq (m : Mach) (k : StopKind) :
    (Mach.stopReq m k).mram = m.mram
    ∧ (Mach.stopReq m k).time.frame = m.time.frame
    ∧ (Mach.stopReq m k).sec.rollback = m.sec.rollback
    ∧ (Mach.stopReq m k).sec.boots = m.sec.boots
    ∧ (Mach.stopReq m k).cab.creds = m.cab.creds := by
  unfold Mach.stopReq
  exact ⟨by with_reducible rfl, by with_reducible rfl, by with_reducible rfl, by with_reducible rfl, by with_reducible rfl⟩

theorem keeps_endBenches (m : Mach) :
    (Mach.endBenches m).mram = m.mram
    ∧ (Mach.endBenches m).time.frame = m.time.frame
    ∧ (Mach.endBenches m).sec.rollback = m.sec.rollback
    ∧ (Mach.endBenches m).sec.boots = m.sec.boots
    ∧ (Mach.endBenches m).cab.creds = m.cab.creds := by
  unfold Mach.endBenches
  exact ⟨by with_reducible rfl, by with_reducible rfl, by with_reducible rfl, by with_reducible rfl, by with_reducible rfl⟩

theorem keeps_dropExit (m : Mach) :
    (Mach.dropExit m).mram = m.mram
    ∧ (Mach.dropExit m).time.frame = m.time.frame
    ∧ (Mach.dropExit m).sec.rollback = m.sec.rollback
    ∧ (Mach.dropExit m).sec.boots = m.sec.boots
    ∧ (Mach.dropExit m).cab.creds = m.cab.creds := by
  unfold Mach.dropExit
  exact ⟨by with_reducible rfl, by with_reducible rfl, by with_reducible rfl, by with_reducible rfl, by with_reducible rfl⟩

theorem keeps_react (m : Mach) (cls : Nat) :
    (Mach.react m cls).mram = m.mram
    ∧ (Mach.react m cls).time.frame = m.time.frame
    ∧ (Mach.react m cls).sec.rollback = m.sec.rollback
    ∧ (Mach.react m cls).sec.boots = m.sec.boots
    ∧ (Mach.react m cls).cab.creds = m.cab.creds := by
  unfold Mach.react; try dsimp only
  simp only [↓keeps_dropExit, ↓keeps_endBenches, ↓keeps_stopReq, ↓ite_mram, ↓ite_time_frame, ↓ite_sec_rollback, ↓ite_sec_boots, ↓ite_cab_creds, ↓ite_fst, ite_self, implies_true, and_self]

theorem keeps_cell (m : Mach) (h : Nat) (f : UnitCell → UnitCell) :
    (Mach.cell m h f).mram = m.mram
    ∧ (Mach.cell m h f).time.frame = m.time.frame
    ∧ (Mach.cell m h f).sec.rollback = m.sec.rollback
    ∧ (Mach.cell m h f).sec.boots = m.sec.boots
    ∧ (Mach.cell m h f).cab.creds = m.cab.creds := by
  unfold Mach.cell
  exact ⟨by with_reducible rfl, by with_reducible rfl, by with_reducible rfl, by with_reducible rfl, by with_reducible rfl⟩

theorem keeps_recordRaise (m : Mach) (unit : Nat) (code : Nat) (cls : Nat) (c1 : Nat) (c2 : Nat) :
    (Mach.recordRaise m unit code cls c1 c2).mram = m.mram
    ∧ (Mach.recordRaise m unit code cls c1 c2).time.frame = m.time.frame
    ∧ (Mach.recordRaise m unit code cls c1 c2).sec.rollback = m.sec.rollback
    ∧ (Mach.recordRaise m unit code cls c1 c2).sec.boots = m.sec.boots
    ∧ (Mach.recordRaise m unit code cls c1 c2).cab.creds = m.cab.creds := by
  unfold Mach.recordRaise; try dsimp only
  simp only [↓keeps_count, ↓keeps_post, ↓keeps_ringPush, ↓ite_mram, ↓ite_time_frame, ↓ite_sec_rollback, ↓ite_sec_boots, ↓ite_cab_creds, ↓ite_fst, ite_self, implies_true, and_self]

theorem keeps_entersFault (m : Mach) (unit : Nat) :
    (Mach.entersFault m unit).mram = m.mram
    ∧ (Mach.entersFault m unit).time.frame = m.time.frame
    ∧ (Mach.entersFault m unit).sec.rollback = m.sec.rollback
    ∧ (Mach.entersFault m unit).sec.boots = m.sec.boots
    ∧ (Mach.entersFault m unit).cab.creds = m.cab.creds := by
  unfold Mach.entersFault; try dsimp only
  simp only [↓keeps_cell, ↓ite_mram, ↓ite_time_frame, ↓ite_sec_rollback, ↓ite_sec_boots, ↓ite_cab_creds, ↓ite_fst, ite_self, implies_true, and_self]

theorem keeps_holdFault (m : Mach) (unit : Nat) (code : Nat) (cls : Nat) :
    (Mach.holdFault m unit code cls).mram = m.mram
    ∧ (Mach.holdFault m unit code cls).time.frame = m.time.frame
    ∧ (Mach.holdFault m unit code cls).sec.rollback = m.sec.rollback
    ∧ (Mach.holdFault m unit code cls).sec.boots = m.sec.boots
    ∧ (Mach.holdFault m unit code cls).cab.creds = m.cab.creds := by
  unfold Mach.holdFault; try dsimp only
  simp only [↓keeps_entersFault, ↓keeps_react, ↓ite_mram, ↓ite_time_frame, ↓ite_sec_rollback, ↓ite_sec_boots, ↓ite_cab_creds, ↓ite_fst, ite_self, implies_true, and_self]

theorem keeps_dropNoted (m : Mach) (full : Bool) :
    (Mach.dropNoted m full).mram = m.mram
    ∧ (Mach.dropNoted m full).time.frame = m.time.frame
    ∧ (Mach.dropNoted m full).sec.rollback = m.sec.rollback
    ∧ (Mach.dropNoted m full).sec.boots = m.sec.boots
    ∧ (Mach.dropNoted m full).cab.creds = m.cab.creds := by
  unfold Mach.dropNoted; try dsimp only
  simp only [↓keeps_holdFault, ↓keeps_recordRaise, ↓ite_mram, ↓ite_time_frame, ↓ite_sec_rollback, ↓ite_sec_boots, ↓ite_cab_creds, ↓ite_fst, ite_self, implies_true, and_self]

theorem keeps_raise (m : Mach) (unit : Nat) (code : Nat) (cls : Nat) (c1 : Nat) (c2 : Nat) :
    (Mach.raise m unit code cls c1 c2).mram = m.mram
    ∧ (Mach.raise m unit code cls c1 c2).time.frame = m.time.frame
    ∧ (Mach.raise m unit code cls c1 c2).sec.rollback = m.sec.rollback
    ∧ (Mach.raise m unit code cls c1 c2).sec.boots = m.sec.boots
    ∧ (Mach.raise m unit code cls c1 c2).cab.creds = m.cab.creds := by
  unfold Mach.raise; try dsimp only
  simp only [↓keeps_dropNoted, ↓keeps_holdFault, ↓keeps_recordRaise, ↓ite_mram, ↓ite_time_frame, ↓ite_sec_rollback, ↓ite_sec_boots, ↓ite_cab_creds, ↓ite_fst, ite_self, implies_true, and_self]

theorem keeps_raiseWorse (m : Mach) (unit : Nat) (code : Nat) (cls : Nat) :
    (Mach.raiseWorse m unit code cls).mram = m.mram
    ∧ (Mach.raiseWorse m unit code cls).time.frame = m.time.frame
    ∧ (Mach.raiseWorse m unit code cls).sec.rollback = m.sec.rollback
    ∧ (Mach.raiseWorse m unit code cls).sec.boots = m.sec.boots
    ∧ (Mach.raiseWorse m unit code cls).cab.creds = m.cab.creds := by
  unfold Mach.raiseWorse; try dsimp only
  simp only [↓keeps_dropNoted, ↓keeps_holdFault, ↓keeps_raise, ↓keeps_recordRaise, ↓ite_mram, ↓ite_time_frame, ↓ite_sec_rollback, ↓ite_sec_boots, ↓ite_cab_creds, ↓ite_fst, ite_self, implies_true, and_self]

theorem keeps_ringRecord (m : Mach) (d : Nat) (second : Bool) (payload : List Nat) :
    (Mach.ringRecord m d second payload).mram = m.mram
    ∧ (Mach.ringRecord m d second payload).time.frame = m.time.frame
    ∧ (Mach.ringRecord m d second payload).sec.rollback = m.sec.rollback
    ∧ (Mach.ringRecord m d second payload).sec.boots = m.sec.boots
    ∧ (Mach.ringRecord m d second payload).cab.creds = m.cab.creds := by
  unfold Mach.ringRecord; try dsimp only
  simp only [↓keeps_dropNoted, ↓keeps_ringPush, ↓ite_mram, ↓ite_time_frame, ↓ite_sec_rollback, ↓ite_sec_boots, ↓ite_cab_creds, ↓ite_fst, ite_self, implies_true, and_self]

theorem keeps_raiseMomentary (m : Mach) (unit : Nat) (code : Nat) (cls : Nat) (c1 : Nat) (c2 : Nat) :
    (Mach.raiseMomentary m unit code cls c1 c2).mram = m.mram
    ∧ (Mach.raiseMomentary m unit code cls c1 c2).time.frame = m.time.frame
    ∧ (Mach.raiseMomentary m unit code cls c1 c2).sec.rollback = m.sec.rollback
    ∧ (Mach.raiseMomentary m unit code cls c1 c2).sec.boots = m.sec.boots
    ∧ (Mach.raiseMomentary m unit code cls c1 c2).cab.creds = m.cab.creds := by
  unfold Mach.raiseMomentary; try dsimp only
  simp only [↓keeps_dropNoted, ↓keeps_recordRaise, ↓ite_mram, ↓ite_time_frame, ↓ite_sec_rollback, ↓ite_sec_boots, ↓ite_cab_creds, ↓ite_fst, ite_self, implies_true, and_self]

theorem keeps_endFault (m : Mach) (unit : Nat) (code : Nat) :
    (Mach.endFault m unit code).mram = m.mram
    ∧ (Mach.endFault m unit code).time.frame = m.time.frame
    ∧ (Mach.endFault m unit code).sec.rollback = m.sec.rollback
    ∧ (Mach.endFault m unit code).sec.boots = m.sec.boots
    ∧ (Mach.endFault m unit code).cab.creds = m.cab.creds := by
  unfold Mach.endFault; try dsimp only
  simp only [↓keeps_post, ↓ite_mram, ↓ite_time_frame, ↓ite_sec_rollback, ↓ite_sec_boots, ↓ite_cab_creds, ↓ite_fst, ite_self, implies_true, and_self]

theorem keeps_endCode (m : Mach) (code : Nat) :
    (Mach.endCode m code).mram = m.mram
    ∧ (Mach.endCode m code).time.frame = m.time.frame
    ∧ (Mach.endCode m code).sec.rollback = m.sec.rollback
    ∧ (Mach.endCode m code).sec.boots = m.sec.boots
    ∧ (Mach.endCode m code).cab.creds = m.cab.creds := by
  unfold Mach.endCode; try dsimp only
  simp only [↓keeps_endFault, ↓ite_mram, ↓each_mram, ↓ite_time_frame, ↓each_time_frame, ↓ite_sec_rollback, ↓each_sec_rollback, ↓ite_sec_boots, ↓each_sec_boots, ↓ite_cab_creds, ↓each_cab_creds, ↓ite_fst, ite_self, implies_true, and_self]

theorem keeps_evidence (m : Mach) (unit : Nat) (code : Nat) (good : Bool) :
    (Mach.evidence m unit code good).mram = m.mram
    ∧ (Mach.evidence m unit code good).time.frame = m.time.frame
    ∧ (Mach.evidence m unit code good).sec.rollback = m.sec.rollback
    ∧ (Mach.evidence m unit code good).sec.boots = m.sec.boots
    ∧ (Mach.evidence m unit code good).cab.creds = m.cab.creds := by
  unfold Mach.evidence
  exact ⟨by with_reducible rfl, by with_reducible rfl, by with_reducible rfl, by with_reducible rfl, by with_reducible rfl⟩

theorem keeps_endAfter (m : Mach) (unit : Nat) (code : Nat) (n : Nat) (good : Bool) :
    (Mach.endAfter m unit code n good).mram = m.mram
    ∧ (Mach.endAfter m unit code n good).time.frame = m.time.frame
    ∧ (Mach.endAfter m unit code n good).sec.rollback = m.sec.rollback
    ∧ (Mach.endAfter m unit code n good).sec.boots = m.sec.boots
    ∧ (Mach.endAfter m unit code n good).cab.creds = m.cab.creds := by
  unfold Mach.endAfter; try dsimp only
  simp only [↓keeps_endFault, ↓keeps_evidence, ↓ite_mram, ↓ite_time_frame, ↓ite_sec_rollback, ↓ite_sec_boots, ↓ite_cab_creds, ↓ite_fst, ite_self, implies_true, and_self]

theorem keeps_endIf (m : Mach) (unit : Nat) (code : Nat) (c : Bool) :
    (Mach.endIf m unit code c).mram = m.mram
    ∧ (Mach.endIf m unit code c).time.frame = m.time.frame
    ∧ (Mach.endIf m unit code c).sec.rollback = m.sec.rollback
    ∧ (Mach.endIf m unit code c).sec.boots = m.sec.boots
    ∧ (Mach.endIf m unit code c).cab.creds = m.cab.creds := by
  unfold Mach.endIf; try dsimp only
  simp only [↓keeps_endFault, ↓ite_mram, ↓ite_time_frame, ↓ite_sec_rollback, ↓ite_sec_boots, ↓ite_cab_creds, ↓ite_fst, ite_self, implies_true, and_self]

end Sys2Proof.Laws
end

