-- ==== Sys2Proof/Laws/KeepFlags.lean ====
section
/-!
SUPPORT. What the operations of Machine/Flags.lean leave alone of the MRAM, the frame count, the rollback
counter, the boot count and the credentials of the cabinet, and that they keep the canonical form of the MRAM.
-/
namespace Sys2Proof.Laws

open Sys2Proof Sys2Proof.Machine

set_option linter.all false
set_option linter.unreachableTactic false
set_option linter.unusedTactic false
theorem keeps_clearLatched (m : Mach) (h : Nat) :
    (Mach.clearLatched m h).mram = m.mram
    ∧ (Mach.clearLatched m h).time.frame = m.time.frame
    ∧ (Mach.clearLatched m h).sec.rollback = m.sec.rollback
    ∧ (Mach.clearLatched m h).sec.boots = m.sec.boots
    ∧ (Mach.clearLatched m h).cab.creds = m.cab.creds := by
  unfold Mach.clearLatched; try dsimp only
  simp only [↓keeps_cell, ↓ite_mram, ↓each_mram, ↓ite_time_frame, ↓each_time_frame, ↓ite_sec_rollback, ↓each_sec_rollback, ↓ite_sec_boots, ↓each_sec_boots, ↓ite_cab_creds, ↓each_cab_creds, ↓ite_fst, ite_self, implies_true, and_self]

end Sys2Proof.Laws
end

