-- ==== Sys2Proof/Laws/KeepServe.lean ====
section
/-!
SUPPORT. What the operations of Machine/Serve.lean leave alone of the MRAM, the frame count, the rollback
counter, the boot count and the credentials of the cabinet, and that they keep the canonical form of the MRAM.
-/
namespace Sys2Proof.Laws

open Sys2Proof Sys2Proof.Machine

set_option linter.all false
set_option linter.unreachableTactic false
set_option linter.unusedTactic false
theorem keeps_reply (m : Mach) (op : Nat) (tag : Nat) (status : Nat) (payload : List Nat) :
    (Mach.reply m op tag status payload).mram = m.mram
    ∧ (Mach.reply m op tag status payload).time.frame = m.time.frame
    ∧ (Mach.reply m op tag status payload).sec.rollback = m.sec.rollback
    ∧ (Mach.reply m op tag status payload).sec.boots = m.sec.boots
    ∧ (Mach.reply m op tag status payload).cab.creds = m.cab.creds := by
  unfold Mach.reply
  exact ⟨by with_reducible rfl, by with_reducible rfl, by with_reducible rfl, by with_reducible rfl, by with_reducible rfl⟩

theorem keeps_refuse (m : Mach) (status : Nat) :
    (refuse m status).1.mram = m.mram
    ∧ (refuse m status).1.time.frame = m.time.frame
    ∧ (refuse m status).1.sec.rollback = m.sec.rollback
    ∧ (refuse m status).1.sec.boots = m.sec.boots
    ∧ (refuse m status).1.cab.creds = m.cab.creds := by
  unfold refuse
  exact ⟨by with_reducible rfl, by with_reducible rfl, by with_reducible rfl, by with_reducible rfl, by with_reducible rfl⟩

theorem keeps_ok (m : Mach) :
    (ok m).1.mram = m.mram
    ∧ (ok m).1.time.frame = m.time.frame
    ∧ (ok m).1.sec.rollback = m.sec.rollback
    ∧ (ok m).1.sec.boots = m.sec.boots
    ∧ (ok m).1.cab.creds = m.cab.creds := by
  unfold ok
  exact ⟨by with_reducible rfl, by with_reducible rfl, by with_reducible rfl, by with_reducible rfl, by with_reducible rfl⟩

theorem keeps_pending (m : Mach) :
    (pending m).1.mram = m.mram
    ∧ (pending m).1.time.frame = m.time.frame
    ∧ (pending m).1.sec.rollback = m.sec.rollback
    ∧ (pending m).1.sec.boots = m.sec.boots
    ∧ (pending m).1.cab.creds = m.cab.creds := by
  unfold pending
  exact ⟨by with_reducible rfl, by with_reducible rfl, by with_reducible rfl, by with_reducible rfl, by with_reducible rfl⟩

theorem keeps_defer (m : Mach) (cmd : Nat × Nat) (h : Nat) (es : List SetEntry) :
    (Mach.defer m cmd h es).mram = m.mram
    ∧ (Mach.defer m cmd h es).time.frame = m.time.frame
    ∧ (Mach.defer m cmd h es).sec.rollback = m.sec.rollback
    ∧ (Mach.defer m cmd h es).sec.boots = m.sec.boots
    ∧ (Mach.defer m cmd h es).cab.creds = m.cab.creds := by
  unfold Mach.defer; try dsimp only
  refine ⟨?_, ?_, ?_, ?_, ?_⟩ <;>
  (first | refine each_mram _ _ _ fun m x => ?_ | refine each_time_frame _ _ _ fun m x => ?_ | refine each_sec_rollback _ _ _ fun m x => ?_ | refine each_sec_boots _ _ _ fun m x => ?_ | refine each_cab_creds _ _ _ fun m x => ?_) <;> (repeat' split) <;>
  first | with_reducible rfl | (simp only [↓ite_mram, ↓each_mram, ↓ite_time_frame, ↓each_time_frame, ↓ite_sec_rollback, ↓each_sec_rollback, ↓ite_sec_boots, ↓each_sec_boots, ↓ite_cab_creds, ↓each_cab_creds, ↓ite_fst, ite_self, implies_true, and_self]; done)

theorem keeps_setEntries (m : Mach) (cmd : Nat × Nat) (h : Nat) (es : List SetEntry) (extra : Mach → Nat → SetEntry → Nat) :
    (Mach.setEntries m cmd h es extra).1.mram = m.mram
    ∧ (Mach.setEntries m cmd h es extra).1.time.frame = m.time.frame
    ∧ (Mach.setEntries m cmd h es extra).1.sec.rollback = m.sec.rollback
    ∧ (Mach.setEntries m cmd h es extra).1.sec.boots = m.sec.boots
    ∧ (Mach.setEntries m cmd h es extra).1.cab.creds = m.cab.creds := by
  unfold Mach.setEntries; try dsimp only
  simp only [↓keeps_defer, ↓keeps_refuse, ↓ite_mram, ↓ite_time_frame, ↓ite_sec_rollback, ↓ite_sec_boots, ↓ite_cab_creds, ↓ite_fst, ite_self, implies_true, and_self]

theorem keeps_refuseStill (m : Mach) (cmd : Nat × Nat) :
    (Mach.refuseStill m cmd).mram = m.mram
    ∧ (Mach.refuseStill m cmd).time.frame = m.time.frame
    ∧ (Mach.refuseStill m cmd).sec.rollback = m.sec.rollback
    ∧ (Mach.refuseStill m cmd).sec.boots = m.sec.boots
    ∧ (Mach.refuseStill m cmd).cab.creds = m.cab.creds := by
  unfold Mach.refuseStill
  exact ⟨by with_reducible rfl, by with_reducible rfl, by with_reducible rfl, by with_reducible rfl, by with_reducible rfl⟩

theorem keeps_stillCheck (m : Mach) :
    (Mach.stillCheck m).mram = m.mram
    ∧ (Mach.stillCheck m).time.frame = m.time.frame
    ∧ (Mach.stillCheck m).sec.rollback = m.sec.rollback
    ∧ (Mach.stillCheck m).sec.boots = m.sec.boots
    ∧ (Mach.stillCheck m).cab.creds = m.cab.creds := by
  unfold Mach.stillCheck; try dsimp only
  simp only [↓keeps_refuseStill, ↓ite_mram, ↓each_mram, ↓ite_time_frame, ↓each_time_frame, ↓ite_sec_rollback, ↓each_sec_rollback, ↓ite_sec_boots, ↓each_sec_boots, ↓ite_cab_creds, ↓each_cab_creds, ↓ite_fst, ite_self, implies_true, and_self]

theorem keeps_applyDeferred (m : Mach) :
    (Mach.applyDeferred m).mram = m.mram
    ∧ (Mach.applyDeferred m).time.frame = m.time.frame
    ∧ (Mach.applyDeferred m).sec.rollback = m.sec.rollback
    ∧ (Mach.applyDeferred m).sec.boots = m.sec.boots
    ∧ (Mach.applyDeferred m).cab.creds = m.cab.creds := by
  unfold Mach.applyDeferred; try dsimp only
  simp only [↓keeps_put, ↓keeps_stillCheck, ↓ite_mram, ↓each_mram, ↓ite_time_frame, ↓each_time_frame, ↓ite_sec_rollback, ↓each_sec_rollback, ↓ite_sec_boots, ↓each_sec_boots, ↓ite_cab_creds, ↓each_cab_creds, ↓ite_fst, ite_self, implies_true, and_self]

theorem keeps_quitLearn (m : Mach) :
    (Mach.quitLearn m).mram = m.mram
    ∧ (Mach.quitLearn m).time.frame = m.time.frame
    ∧ (Mach.quitLearn m).sec.rollback = m.sec.rollback
    ∧ (Mach.quitLearn m).sec.boots = m.sec.boots
    ∧ (Mach.quitLearn m).cab.creds = m.cab.creds := by
  unfold Mach.quitLearn; try dsimp only
  simp only [↓keeps_completed, ↓ite_mram, ↓ite_time_frame, ↓ite_sec_rollback, ↓ite_sec_boots, ↓ite_cab_creds, ↓ite_fst, ite_self, implies_true, and_self]

theorem keeps_endLearn (m : Mach) :
    (Mach.endLearn m).mram = m.mram
    ∧ (Mach.endLearn m).time.frame = m.time.frame
    ∧ (Mach.endLearn m).sec.rollback = m.sec.rollback
    ∧ (Mach.endLearn m).sec.boots = m.sec.boots
    ∧ (Mach.endLearn m).cab.creds = m.cab.creds := by
  unfold Mach.endLearn; try dsimp only
  simp only [↓keeps_quitLearn, ↓keeps_stopReq, ↓ite_mram, ↓ite_time_frame, ↓ite_sec_rollback, ↓ite_sec_boots, ↓ite_cab_creds, ↓ite_fst, ite_self, implies_true, and_self]

theorem keeps_endHome (m : Mach) :
    (Mach.endHome m).mram = m.mram
    ∧ (Mach.endHome m).time.frame = m.time.frame
    ∧ (Mach.endHome m).sec.rollback = m.sec.rollback
    ∧ (Mach.endHome m).sec.boots = m.sec.boots
    ∧ (Mach.endHome m).cab.creds = m.cab.creds := by
  unfold Mach.endHome; try dsimp only
  simp only [↓keeps_completed, ↓ite_mram, ↓ite_time_frame, ↓ite_sec_rollback, ↓ite_sec_boots, ↓ite_cab_creds, ↓ite_fst, ite_self, implies_true, and_self]

end Sys2Proof.Laws
end

