-- ==== Sys2Proof/Laws/KeepMeter.lean ====
section
/-!
SUPPORT. What the operations of Machine/Meter.lean leave alone of the MRAM, the frame count, the rollback
counter, the boot count and the credentials of the cabinet, and that they keep the canonical form of the MRAM.
-/
namespace Sys2Proof.Laws

open Sys2Proof Sys2Proof.Machine

set_option linter.all false
set_option linter.unreachableTactic false
set_option linter.unusedTactic false
theorem keeps_accumulate (m : Mach) (v : Averages) :
    (Mach.accumulate m v).mram = m.mram
    ∧ (Mach.accumulate m v).time.frame = m.time.frame
    ∧ (Mach.accumulate m v).sec.rollback = m.sec.rollback
    ∧ (Mach.accumulate m v).sec.boots = m.sec.boots
    ∧ (Mach.accumulate m v).cab.creds = m.cab.creds := by
  unfold Mach.accumulate; try dsimp only
  simp only [↓ite_mram, ↓ite_time_frame, ↓ite_sec_rollback, ↓ite_sec_boots, ↓ite_cab_creds, ↓ite_fst, ite_self, implies_true, and_self]

theorem keeps_corrected (m : Mach) (raw : List Int) :
    (Mach.corrected m raw).1.mram = m.mram
    ∧ (Mach.corrected m raw).1.time.frame = m.time.frame
    ∧ (Mach.corrected m raw).1.sec.rollback = m.sec.rollback
    ∧ (Mach.corrected m raw).1.sec.boots = m.sec.boots
    ∧ (Mach.corrected m raw).1.cab.creds = m.cab.creds := by
  unfold Mach.corrected; try dsimp only
  simp only [↓ite_mram, ↓ite_time_frame, ↓ite_sec_rollback, ↓ite_sec_boots, ↓ite_cab_creds, ↓ite_fst, ite_self, implies_true, and_self]

theorem keeps_meterSample (m : Mach) (raw : List Int) :
    (Mach.meterSample m raw).mram = m.mram
    ∧ (Mach.meterSample m raw).time.frame = m.time.frame
    ∧ (Mach.meterSample m raw).sec.rollback = m.sec.rollback
    ∧ (Mach.meterSample m raw).sec.boots = m.sec.boots
    ∧ (Mach.meterSample m raw).cab.creds = m.cab.creds := by
  unfold Mach.meterSample; try dsimp only
  simp only [↓keeps_accumulate, ↓keeps_corrected, ↓keeps_raise, ↓ite_mram, ↓ite_time_frame, ↓ite_sec_rollback, ↓ite_sec_boots, ↓ite_cab_creds, ↓ite_fst, ite_self, implies_true, and_self]

theorem keeps_windowAnew (m : Mach) :
    (Mach.windowAnew m).mram = m.mram
    ∧ (Mach.windowAnew m).time.frame = m.time.frame
    ∧ (Mach.windowAnew m).sec.rollback = m.sec.rollback
    ∧ (Mach.windowAnew m).sec.boots = m.sec.boots
    ∧ (Mach.windowAnew m).cab.creds = m.cab.creds := by
  unfold Mach.windowAnew
  exact ⟨by with_reducible rfl, by with_reducible rfl, by with_reducible rfl, by with_reducible rfl, by with_reducible rfl⟩

theorem keeps_freqLost (m : Mach) :
    (Mach.freqLost m).mram = m.mram
    ∧ (Mach.freqLost m).time.frame = m.time.frame
    ∧ (Mach.freqLost m).sec.rollback = m.sec.rollback
    ∧ (Mach.freqLost m).sec.boots = m.sec.boots
    ∧ (Mach.freqLost m).cab.creds = m.cab.creds := by
  unfold Mach.freqLost; try dsimp only
  simp only [↓keeps_raise, ↓keeps_windowAnew, ↓ite_mram, ↓ite_time_frame, ↓ite_sec_rollback, ↓ite_sec_boots, ↓ite_cab_creds, ↓ite_fst, ite_self, implies_true, and_self]

theorem keeps_periodEnd (m : Mach) (per : Nat) (u1 : Nat) :
    (Mach.periodEnd m per u1).mram = m.mram
    ∧ (Mach.periodEnd m per u1).time.frame = m.time.frame
    ∧ (Mach.periodEnd m per u1).sec.rollback = m.sec.rollback
    ∧ (Mach.periodEnd m per u1).sec.boots = m.sec.boots
    ∧ (Mach.periodEnd m per u1).cab.creds = m.cab.creds := by
  unfold Mach.periodEnd; try dsimp only
  simp only [↓keeps_endIf, ↓keeps_freqLost, ↓keeps_windowAnew, ↓ite_mram, ↓ite_time_frame, ↓ite_sec_rollback, ↓ite_sec_boots, ↓ite_cab_creds, ↓ite_fst, ite_self, implies_true, and_self]

theorem keeps_freqWindowEnd (m : Mach) :
    (Mach.freqWindowEnd m).mram = m.mram
    ∧ (Mach.freqWindowEnd m).time.frame = m.time.frame
    ∧ (Mach.freqWindowEnd m).sec.rollback = m.sec.rollback
    ∧ (Mach.freqWindowEnd m).sec.boots = m.sec.boots
    ∧ (Mach.freqWindowEnd m).cab.creds = m.cab.creds := by
  unfold Mach.freqWindowEnd; try dsimp only
  simp only [↓keeps_extreme, ↓ite_mram, ↓ite_time_frame, ↓ite_sec_rollback, ↓ite_sec_boots, ↓ite_cab_creds, ↓ite_fst, ite_self, implies_true, and_self]

theorem keeps_fileEvent (m : Mach) (e : SupplyEvt) (truncated : Bool) :
    (Mach.fileEvent m e truncated).mram = m.mram
    ∧ (Mach.fileEvent m e truncated).time.frame = m.time.frame
    ∧ (Mach.fileEvent m e truncated).sec.rollback = m.sec.rollback
    ∧ (Mach.fileEvent m e truncated).sec.boots = m.sec.boots
    ∧ (Mach.fileEvent m e truncated).cab.creds = m.cab.creds := by
  unfold Mach.fileEvent; try dsimp only
  simp only [↓keeps_post, ↓keeps_ringRecord, ↓ite_mram, ↓ite_time_frame, ↓ite_sec_rollback, ↓ite_sec_boots, ↓ite_cab_creds, ↓ite_fst, ite_self, implies_true, and_self]

theorem keeps_dropEvt (m : Mach) (kind : Nat) :
    (Mach.dropEvt m kind).mram = m.mram
    ∧ (Mach.dropEvt m kind).time.frame = m.time.frame
    ∧ (Mach.dropEvt m kind).sec.rollback = m.sec.rollback
    ∧ (Mach.dropEvt m kind).sec.boots = m.sec.boots
    ∧ (Mach.dropEvt m kind).cab.creds = m.cab.creds := by
  unfold Mach.dropEvt
  exact ⟨by with_reducible rfl, by with_reducible rfl, by with_reducible rfl, by with_reducible rfl, by with_reducible rfl⟩

theorem keeps_keepEvt (m : Mach) (e : SupplyEvt) :
    (Mach.keepEvt m e).mram = m.mram
    ∧ (Mach.keepEvt m e).time.frame = m.time.frame
    ∧ (Mach.keepEvt m e).sec.rollback = m.sec.rollback
    ∧ (Mach.keepEvt m e).sec.boots = m.sec.boots
    ∧ (Mach.keepEvt m e).cab.creds = m.cab.creds := by
  unfold Mach.keepEvt; try dsimp only
  simp only [↓keeps_dropEvt, ↓ite_mram, ↓ite_time_frame, ↓ite_sec_rollback, ↓ite_sec_boots, ↓ite_cab_creds, ↓ite_fst, ite_self, implies_true, and_self]

theorem keeps_judgeEvt (m : Mach) (kind : Nat) (starts : Bool) (ends : Bool) (mask : Nat) (mg : Nat) (t : Nat) :
    (Mach.judgeEvt m kind starts ends mask mg t).mram = m.mram
    ∧ (Mach.judgeEvt m kind starts ends mask mg t).time.frame = m.time.frame
    ∧ (Mach.judgeEvt m kind starts ends mask mg t).sec.rollback = m.sec.rollback
    ∧ (Mach.judgeEvt m kind starts ends mask mg t).sec.boots = m.sec.boots
    ∧ (Mach.judgeEvt m kind starts ends mask mg t).cab.creds = m.cab.creds := by
  unfold Mach.judgeEvt; try dsimp only
  refine ⟨?_, ?_, ?_, ?_, ?_⟩ <;>
  (repeat' split) <;>
  first | with_reducible rfl | (simp only [↓keeps_dropEvt, ↓keeps_fileEvent, ↓keeps_keepEvt, ↓ite_mram, ↓ite_time_frame, ↓ite_sec_rollback, ↓ite_sec_boots, ↓ite_cab_creds, ↓ite_fst, ite_self, implies_true, and_self]; done)

theorem keeps_supplyEvents (m : Mach) (us : List Nat) (t : Nat) :
    (Mach.supplyEvents m us t).mram = m.mram
    ∧ (Mach.supplyEvents m us t).time.frame = m.time.frame
    ∧ (Mach.supplyEvents m us t).sec.rollback = m.sec.rollback
    ∧ (Mach.supplyEvents m us t).sec.boots = m.sec.boots
    ∧ (Mach.supplyEvents m us t).cab.creds = m.cab.creds := by
  unfold Mach.supplyEvents; try dsimp only
  simp only [↓keeps_dropEvt, ↓keeps_judgeEvt, ↓ite_mram, ↓ite_time_frame, ↓ite_sec_rollback, ↓ite_sec_boots, ↓ite_cab_creds, ↓ite_fst, ite_self, implies_true, and_self]

theorem keeps_publishHalf (m : Mach) (us : List Nat) :
    (Mach.publishHalf m us).mram = m.mram
    ∧ (Mach.publishHalf m us).time.frame = m.time.frame
    ∧ (Mach.publishHalf m us).sec.rollback = m.sec.rollback
    ∧ (Mach.publishHalf m us).sec.boots = m.sec.boots
    ∧ (Mach.publishHalf m us).cab.creds = m.cab.creds := by
  unfold Mach.publishHalf; try dsimp only
  simp only [↓keeps_extreme, ↓ite_mram, ↓each_mram, ↓ite_time_frame, ↓each_time_frame, ↓ite_sec_rollback, ↓each_sec_rollback, ↓ite_sec_boots, ↓each_sec_boots, ↓ite_cab_creds, ↓each_cab_creds, ↓ite_fst, ite_self, implies_true, and_self]

theorem keeps_halfValued (m : Mach) (us : List Nat) (t : Nat) :
    (Mach.halfValued m us t).mram = m.mram
    ∧ (Mach.halfValued m us t).time.frame = m.time.frame
    ∧ (Mach.halfValued m us t).sec.rollback = m.sec.rollback
    ∧ (Mach.halfValued m us t).sec.boots = m.sec.boots
    ∧ (Mach.halfValued m us t).cab.creds = m.cab.creds := by
  unfold Mach.halfValued; try dsimp only
  simp only [↓keeps_publishHalf, ↓keeps_supplyEvents, ↓ite_mram, ↓ite_time_frame, ↓ite_sec_rollback, ↓ite_sec_boots, ↓ite_cab_creds, ↓ite_fst, ite_self, implies_true, and_self]

theorem keeps_zeroCross (m : Mach) (inp : HalfIn) (u1 : Nat) :
    (Mach.zeroCross m inp u1).mram = m.mram
    ∧ (Mach.zeroCross m inp u1).time.frame = m.time.frame
    ∧ (Mach.zeroCross m inp u1).sec.rollback = m.sec.rollback
    ∧ (Mach.zeroCross m inp u1).sec.boots = m.sec.boots
    ∧ (Mach.zeroCross m inp u1).cab.creds = m.cab.creds := by
  unfold Mach.zeroCross; try dsimp only
  simp only [↓keeps_freqLost, ↓keeps_periodEnd, ↓ite_mram, ↓ite_time_frame, ↓ite_sec_rollback, ↓ite_sec_boots, ↓ite_cab_creds, ↓ite_fst, ite_self, implies_true, and_self]

theorem keeps_halfCycle (m : Mach) (inp : HalfIn) :
    (Mach.halfCycle m inp).mram = m.mram
    ∧ (Mach.halfCycle m inp).time.frame = m.time.frame
    ∧ (Mach.halfCycle m inp).sec.rollback = m.sec.rollback
    ∧ (Mach.halfCycle m inp).sec.boots = m.sec.boots
    ∧ (Mach.halfCycle m inp).cab.creds = m.cab.creds := by
  unfold Mach.halfCycle; try dsimp only
  simp only [↓keeps_halfValued, ↓keeps_zeroCross, ↓ite_mram, ↓ite_time_frame, ↓ite_sec_rollback, ↓ite_sec_boots, ↓ite_cab_creds, ↓ite_fst, ite_self, implies_true, and_self]

theorem keeps_truncateEvents (m : Mach) :
    (Mach.truncateEvents m).mram = m.mram
    ∧ (Mach.truncateEvents m).time.frame = m.time.frame
    ∧ (Mach.truncateEvents m).sec.rollback = m.sec.rollback
    ∧ (Mach.truncateEvents m).sec.boots = m.sec.boots
    ∧ (Mach.truncateEvents m).cab.creds = m.cab.creds := by
  unfold Mach.truncateEvents; try dsimp only
  simp only [↓keeps_fileEvent, ↓ite_mram, ↓each_mram, ↓ite_time_frame, ↓each_time_frame, ↓ite_sec_rollback, ↓each_sec_rollback, ↓ite_sec_boots, ↓each_sec_boots, ↓ite_cab_creds, ↓each_cab_creds, ↓ite_fst, ite_self, implies_true, and_self]

theorem keeps_measureWindow (m : Mach) :
    (Mach.measureWindow m).mram = m.mram
    ∧ (Mach.measureWindow m).time.frame = m.time.frame
    ∧ (Mach.measureWindow m).sec.rollback = m.sec.rollback
    ∧ (Mach.measureWindow m).sec.boots = m.sec.boots
    ∧ (Mach.measureWindow m).cab.creds = m.cab.creds := by
  unfold Mach.measureWindow; try dsimp only
  refine ⟨?_, ?_, ?_, ?_, ?_⟩ <;>
  (repeat' split) <;>
  first | with_reducible rfl | (simp only [↓keeps_post, ↓ite_mram, ↓ite_time_frame, ↓ite_sec_rollback, ↓ite_sec_boots, ↓ite_cab_creds, ↓ite_fst, ite_self, implies_true, and_self]; done)

theorem keeps_storeCalibration (m : Mach) :
    (Mach.storeCalibration m).time.frame = m.time.frame
    ∧ (Mach.storeCalibration m).sec.rollback = m.sec.rollback
    ∧ (Mach.storeCalibration m).sec.boots = m.sec.boots
    ∧ (Mach.storeCalibration m).cab.creds = m.cab.creds := by
  unfold Mach.storeCalibration; try dsimp only
  simp only [↓keeps_writeRecord, ↓ite_time_frame, ↓ite_sec_rollback, ↓ite_sec_boots, ↓ite_cab_creds, ↓ite_fst, ite_self, implies_true, and_self]

theorem wf_storeCalibration (m : Mach) (hw : Memory.wf m.mram = true) :
    Memory.wf (Mach.storeCalibration m).mram = true := by
  unfold Mach.storeCalibration; try dsimp only
  all_goals repeat' first | with_reducible exact hw | with_reducible exact w | with_reducible apply wf_writeRecord | with_reducible apply wf_ite | simp only [↓when_mram, ↓ite_mram, ↓ite_fst] | split | dsimp only

theorem keeps_loadCalibration (m : Mach) :
    (Mach.loadCalibration m).mram = m.mram
    ∧ (Mach.loadCalibration m).time.frame = m.time.frame
    ∧ (Mach.loadCalibration m).sec.rollback = m.sec.rollback
    ∧ (Mach.loadCalibration m).sec.boots = m.sec.boots
    ∧ (Mach.loadCalibration m).cab.creds = m.cab.creds := by
  unfold Mach.loadCalibration; try dsimp only
  refine ⟨?_, ?_, ?_, ?_, ?_⟩ <;>
  (repeat' split) <;>
  first | with_reducible rfl | (simp only [↓ite_mram, ↓ite_time_frame, ↓ite_sec_rollback, ↓ite_sec_boots, ↓ite_cab_creds, ↓ite_fst, ite_self, implies_true, and_self]; done)

theorem keeps_takeCoefficients (m : Mach) :
    (Mach.takeCoefficients m).time.frame = m.time.frame
    ∧ (Mach.takeCoefficients m).sec.rollback = m.sec.rollback
    ∧ (Mach.takeCoefficients m).sec.boots = m.sec.boots
    ∧ (Mach.takeCoefficients m).cab.creds = m.cab.creds := by
  unfold Mach.takeCoefficients; try dsimp only
  refine ⟨?_, ?_, ?_, ?_⟩ <;>
  (repeat' split) <;>
  first | with_reducible rfl | (simp only [↓keeps_completed, ↓keeps_storeCalibration, ↓ite_time_frame, ↓ite_sec_rollback, ↓ite_sec_boots, ↓ite_cab_creds, ↓ite_fst, ite_self, implies_true, and_self]; done)

theorem wf_takeCoefficients (m : Mach) (hw : Memory.wf m.mram = true) :
    Memory.wf (Mach.takeCoefficients m).mram = true := by
  unfold Mach.takeCoefficients; try dsimp only
  all_goals repeat' first | with_reducible exact hw | with_reducible exact w | with_reducible apply wf_storeCalibration | with_reducible apply wf_ite | simp only [↓keeps_completed, ↓when_mram, ↓ite_mram, ↓ite_fst] | split | dsimp only

theorem keeps_takeMeterCfg (m : Mach) :
    (Mach.takeMeterCfg m).mram = m.mram
    ∧ (Mach.takeMeterCfg m).time.frame = m.time.frame
    ∧ (Mach.takeMeterCfg m).sec.rollback = m.sec.rollback
    ∧ (Mach.takeMeterCfg m).sec.boots = m.sec.boots
    ∧ (Mach.takeMeterCfg m).cab.creds = m.cab.creds := by
  unfold Mach.takeMeterCfg; try dsimp only
  simp only [↓keeps_put, ↓ite_mram, ↓each_mram, ↓ite_time_frame, ↓each_time_frame, ↓ite_sec_rollback, ↓each_sec_rollback, ↓ite_sec_boots, ↓each_sec_boots, ↓ite_cab_creds, ↓each_cab_creds, ↓ite_fst, ite_self, implies_true, and_self]

theorem keeps_windowEnd (m : Mach) :
    (Mach.windowEnd m).time.frame = m.time.frame
    ∧ (Mach.windowEnd m).sec.rollback = m.sec.rollback
    ∧ (Mach.windowEnd m).sec.boots = m.sec.boots
    ∧ (Mach.windowEnd m).cab.creds = m.cab.creds := by
  unfold Mach.windowEnd; try dsimp only
  simp only [↓keeps_endFault, ↓keeps_measureWindow, ↓keeps_takeCoefficients, ↓keeps_takeMeterCfg, ↓ite_time_frame, ↓ite_sec_rollback, ↓ite_sec_boots, ↓ite_cab_creds, ↓ite_fst, ite_self, implies_true, and_self]

theorem wf_windowEnd (m : Mach) (hw : Memory.wf m.mram = true) :
    Memory.wf (Mach.windowEnd m).mram = true := by
  unfold Mach.windowEnd; try dsimp only
  all_goals repeat' first | with_reducible exact hw | with_reducible exact w | with_reducible apply wf_takeCoefficients | with_reducible apply wf_ite | simp only [↓keeps_endFault, ↓keeps_measureWindow, ↓keeps_takeMeterCfg, ↓when_mram, ↓ite_mram, ↓ite_fst] | split | dsimp only

theorem keeps_meterCheck (m : Mach) (bad : Bool) :
    (Mach.meterCheck m bad).mram = m.mram
    ∧ (Mach.meterCheck m bad).time.frame = m.time.frame
    ∧ (Mach.meterCheck m bad).sec.rollback = m.sec.rollback
    ∧ (Mach.meterCheck m bad).sec.boots = m.sec.boots
    ∧ (Mach.meterCheck m bad).cab.creds = m.cab.creds := by
  unfold Mach.meterCheck; try dsimp only
  simp only [↓keeps_endAfter, ↓keeps_raise, ↓ite_mram, ↓ite_time_frame, ↓ite_sec_rollback, ↓ite_sec_boots, ↓ite_cab_creds, ↓ite_fst, ite_self, implies_true, and_self]

theorem keeps_meterFrame (m : Mach) :
    (Mach.meterFrame m).mram = m.mram
    ∧ (Mach.meterFrame m).time.frame = m.time.frame
    ∧ (Mach.meterFrame m).sec.rollback = m.sec.rollback
    ∧ (Mach.meterFrame m).sec.boots = m.sec.boots
    ∧ (Mach.meterFrame m).cab.creds = m.cab.creds := by
  unfold Mach.meterFrame; try dsimp only
  simp only [↓keeps_freqLost, ↓ite_mram, ↓ite_time_frame, ↓ite_sec_rollback, ↓ite_sec_boots, ↓ite_cab_creds, ↓ite_fst, ite_self, implies_true, and_self]

theorem keeps_meterUnitCheck (m : Mach) (old : Mach) :
    (Mach.meterUnitCheck m old).mram = m.mram
    ∧ (Mach.meterUnitCheck m old).time.frame = m.time.frame
    ∧ (Mach.meterUnitCheck m old).sec.rollback = m.sec.rollback
    ∧ (Mach.meterUnitCheck m old).sec.boots = m.sec.boots
    ∧ (Mach.meterUnitCheck m old).cab.creds = m.cab.creds := by
  unfold Mach.meterUnitCheck; try dsimp only
  simp only [↓ite_mram, ↓ite_time_frame, ↓ite_sec_rollback, ↓ite_sec_boots, ↓ite_cab_creds, ↓ite_fst, ite_self, implies_true, and_self]

theorem keeps_meterOff (m : Mach) :
    (Mach.meterOff m).mram = m.mram
    ∧ (Mach.meterOff m).time.frame = m.time.frame
    ∧ (Mach.meterOff m).sec.rollback = m.sec.rollback
    ∧ (Mach.meterOff m).sec.boots = m.sec.boots
    ∧ (Mach.meterOff m).cab.creds = m.cab.creds := by
  unfold Mach.meterOff; try dsimp only
  simp only [↓ite_mram, ↓ite_time_frame, ↓ite_sec_rollback, ↓ite_sec_boots, ↓ite_cab_creds, ↓ite_fst, ite_self, implies_true, and_self]

theorem keeps_meterOn (m : Mach) :
    (Mach.meterOn m).mram = m.mram
    ∧ (Mach.meterOn m).time.frame = m.time.frame
    ∧ (Mach.meterOn m).sec.rollback = m.sec.rollback
    ∧ (Mach.meterOn m).sec.boots = m.sec.boots
    ∧ (Mach.meterOn m).cab.creds = m.cab.creds := by
  unfold Mach.meterOn; try dsimp only
  simp only [↓ite_mram, ↓ite_time_frame, ↓ite_sec_rollback, ↓ite_sec_boots, ↓ite_cab_creds, ↓ite_fst, ite_self, implies_true, and_self]

theorem keeps_tripStart (m : Mach) (t : Nat) :
    (Mach.tripStart m t).mram = m.mram
    ∧ (Mach.tripStart m t).time.frame = m.time.frame
    ∧ (Mach.tripStart m t).sec.rollback = m.sec.rollback
    ∧ (Mach.tripStart m t).sec.boots = m.sec.boots
    ∧ (Mach.tripStart m t).cab.creds = m.cab.creds := by
  unfold Mach.tripStart
  exact ⟨by with_reducible rfl, by with_reducible rfl, by with_reducible rfl, by with_reducible rfl, by with_reducible rfl⟩

theorem keeps_fileTrip (m : Mach) (t : TripRec) (stop : Nat) (land : Nat) (es : List Nat) (incomplete : Bool) :
    (Mach.fileTrip m t stop land es incomplete).mram = m.mram
    ∧ (Mach.fileTrip m t stop land es incomplete).time.frame = m.time.frame
    ∧ (Mach.fileTrip m t stop land es incomplete).sec.rollback = m.sec.rollback
    ∧ (Mach.fileTrip m t stop land es incomplete).sec.boots = m.sec.boots
    ∧ (Mach.fileTrip m t stop land es incomplete).cab.creds = m.cab.creds := by
  unfold Mach.fileTrip; try dsimp only
  simp only [↓keeps_ringRecord, ↓ite_mram, ↓ite_time_frame, ↓ite_sec_rollback, ↓ite_sec_boots, ↓ite_cab_creds, ↓ite_fst, ite_self, implies_true, and_self]

theorem keeps_tripEnd (m : Mach) (t : Nat) :
    (Mach.tripEnd m t).mram = m.mram
    ∧ (Mach.tripEnd m t).time.frame = m.time.frame
    ∧ (Mach.tripEnd m t).sec.rollback = m.sec.rollback
    ∧ (Mach.tripEnd m t).sec.boots = m.sec.boots
    ∧ (Mach.tripEnd m t).cab.creds = m.cab.creds := by
  unfold Mach.tripEnd; try dsimp only
  refine ⟨?_, ?_, ?_, ?_, ?_⟩ <;>
  (repeat' split) <;>
  first | with_reducible rfl | (simp only [↓keeps_fileTrip, ↓ite_mram, ↓ite_time_frame, ↓ite_sec_rollback, ↓ite_sec_boots, ↓ite_cab_creds, ↓ite_fst, ite_self, implies_true, and_self]; done)

theorem keeps_closeHour (m : Mach) (short : Bool) (aligned : Bool) :
    (Mach.closeHour m short aligned).mram = m.mram
    ∧ (Mach.closeHour m short aligned).time.frame = m.time.frame
    ∧ (Mach.closeHour m short aligned).sec.rollback = m.sec.rollback
    ∧ (Mach.closeHour m short aligned).sec.boots = m.sec.boots
    ∧ (Mach.closeHour m short aligned).cab.creds = m.cab.creds := by
  unfold Mach.closeHour; try dsimp only
  simp only [↓keeps_ringRecord, ↓ite_mram, ↓ite_time_frame, ↓ite_sec_rollback, ↓ite_sec_boots, ↓ite_cab_creds, ↓ite_fst, ite_self, implies_true, and_self]

theorem keeps_saveMeter (m : Mach) (kind : Nat) :
    (Mach.saveMeter m kind).time.frame = m.time.frame
    ∧ (Mach.saveMeter m kind).sec.rollback = m.sec.rollback
    ∧ (Mach.saveMeter m kind).sec.boots = m.sec.boots
    ∧ (Mach.saveMeter m kind).cab.creds = m.cab.creds := by
  unfold Mach.saveMeter; try dsimp only
  simp only [↓keeps_writeRecord, ↓ite_time_frame, ↓each_time_frame, ↓ite_sec_rollback, ↓each_sec_rollback, ↓ite_sec_boots, ↓each_sec_boots, ↓ite_cab_creds, ↓each_cab_creds, ↓ite_fst, ite_self, implies_true, and_self]

theorem wf_saveMeter (m : Mach) (kind : Nat) (hw : Memory.wf m.mram = true) :
    Memory.wf (Mach.saveMeter m kind).mram = true := by
  unfold Mach.saveMeter; try dsimp only
  all_goals repeat' first | with_reducible exact hw | with_reducible exact w | with_reducible apply wf_writeRecord | with_reducible apply wf_ite | with_reducible refine wf_each _ _ _ (fun m x w => ?_) ?_ | simp only [↓when_mram, ↓ite_mram, ↓ite_fst] | split | dsimp only

theorem keeps_meterPowerFail (m : Mach) :
    (Mach.meterPowerFail m).time.frame = m.time.frame
    ∧ (Mach.meterPowerFail m).sec.rollback = m.sec.rollback
    ∧ (Mach.meterPowerFail m).sec.boots = m.sec.boots
    ∧ (Mach.meterPowerFail m).cab.creds = m.cab.creds := by
  unfold Mach.meterPowerFail; try dsimp only
  simp only [↓keeps_saveMeter, ↓keeps_truncateEvents, ↓keeps_writeRecord, ↓ite_time_frame, ↓ite_sec_rollback, ↓ite_sec_boots, ↓ite_cab_creds, ↓ite_fst, ite_self, implies_true, and_self]

theorem wf_meterPowerFail (m : Mach) (hw : Memory.wf m.mram = true) :
    Memory.wf (Mach.meterPowerFail m).mram = true := by
  unfold Mach.meterPowerFail; try dsimp only
  all_goals repeat' first | with_reducible exact hw | with_reducible exact w | with_reducible apply wf_saveMeter | with_reducible apply wf_writeRecord | with_reducible apply wf_ite | simp only [↓keeps_truncateEvents, ↓when_mram, ↓ite_mram, ↓ite_fst] | split | dsimp only

theorem keeps_takeSet (m : Mach) (ps : List (List Nat)) (seq : Nat) :
    (Mach.takeSet m ps seq).mram = m.mram
    ∧ (Mach.takeSet m ps seq).time.frame = m.time.frame
    ∧ (Mach.takeSet m ps seq).sec.rollback = m.sec.rollback
    ∧ (Mach.takeSet m ps seq).sec.boots = m.sec.boots
    ∧ (Mach.takeSet m ps seq).cab.creds = m.cab.creds := by
  unfold Mach.takeSet
  exact ⟨by with_reducible rfl, by with_reducible rfl, by with_reducible rfl, by with_reducible rfl, by with_reducible rfl⟩

theorem keeps_markRestored (m : Mach) :
    (Mach.markRestored m).mram = m.mram
    ∧ (Mach.markRestored m).time.frame = m.time.frame
    ∧ (Mach.markRestored m).sec.rollback = m.sec.rollback
    ∧ (Mach.markRestored m).sec.boots = m.sec.boots
    ∧ (Mach.markRestored m).cab.creds = m.cab.creds := by
  unfold Mach.markRestored
  exact ⟨by with_reducible rfl, by with_reducible rfl, by with_reducible rfl, by with_reducible rfl, by with_reducible rfl⟩

theorem keeps_closeSavedTrip (m : Mach) (r : List Nat) (warned : Nat) :
    (Mach.closeSavedTrip m r warned).mram = m.mram
    ∧ (Mach.closeSavedTrip m r warned).time.frame = m.time.frame
    ∧ (Mach.closeSavedTrip m r warned).sec.rollback = m.sec.rollback
    ∧ (Mach.closeSavedTrip m r warned).sec.boots = m.sec.boots
    ∧ (Mach.closeSavedTrip m r warned).cab.creds = m.cab.creds := by
  unfold Mach.closeSavedTrip; try dsimp only
  simp only [↓keeps_fileTrip, ↓ite_mram, ↓ite_time_frame, ↓ite_sec_rollback, ↓ite_sec_boots, ↓ite_cab_creds, ↓ite_fst, ite_self, implies_true, and_self]

theorem keeps_meterLost (m : Mach) (ms : Nat) (code : Nat) :
    (Mach.meterLost m ms code).mram = m.mram
    ∧ (Mach.meterLost m ms code).time.frame = m.time.frame
    ∧ (Mach.meterLost m ms code).sec.rollback = m.sec.rollback
    ∧ (Mach.meterLost m ms code).sec.boots = m.sec.boots
    ∧ (Mach.meterLost m ms code).cab.creds = m.cab.creds := by
  unfold Mach.meterLost; try dsimp only
  simp only [↓keeps_markRestored, ↓keeps_raise, ↓ite_mram, ↓ite_time_frame, ↓ite_sec_rollback, ↓ite_sec_boots, ↓ite_cab_creds, ↓ite_fst, ite_self, implies_true, and_self]

theorem keeps_restoreMeter (m : Mach) :
    (Mach.restoreMeter m).mram = m.mram
    ∧ (Mach.restoreMeter m).time.frame = m.time.frame
    ∧ (Mach.restoreMeter m).sec.rollback = m.sec.rollback
    ∧ (Mach.restoreMeter m).sec.boots = m.sec.boots
    ∧ (Mach.restoreMeter m).cab.creds = m.cab.creds := by
  unfold Mach.restoreMeter; try dsimp only
  refine ⟨?_, ?_, ?_, ?_, ?_⟩ <;>
  (repeat' split) <;>
  first | with_reducible rfl | (simp only [↓keeps_closeSavedTrip, ↓keeps_loadCalibration, ↓keeps_meterLost, ↓keeps_takeSet, ↓ite_mram, ↓ite_time_frame, ↓ite_sec_rollback, ↓ite_sec_boots, ↓ite_cab_creds, ↓ite_fst, ite_self, implies_true, and_self]; done)

theorem keeps_calMeasure (m : Mach) (tag : Nat) (phase : Nat) (windows : Nat) :
    (Mach.calMeasure m tag phase windows).1.mram = m.mram
    ∧ (Mach.calMeasure m tag phase windows).1.time.frame = m.time.frame
    ∧ (Mach.calMeasure m tag phase windows).1.sec.rollback = m.sec.rollback
    ∧ (Mach.calMeasure m tag phase windows).1.sec.boots = m.sec.boots
    ∧ (Mach.calMeasure m tag phase windows).1.cab.creds = m.cab.creds := by
  unfold Mach.calMeasure; try dsimp only
  simp only [↓keeps_pending, ↓keeps_refuse, ↓ite_mram, ↓ite_time_frame, ↓ite_sec_rollback, ↓ite_sec_boots, ↓ite_cab_creds, ↓ite_fst, ite_self, implies_true, and_self]

theorem keeps_calFailed (m : Mach) (tag : Nat) :
    (Mach.calFailed m tag).mram = m.mram
    ∧ (Mach.calFailed m tag).time.frame = m.time.frame
    ∧ (Mach.calFailed m tag).sec.rollback = m.sec.rollback
    ∧ (Mach.calFailed m tag).sec.boots = m.sec.boots
    ∧ (Mach.calFailed m tag).cab.creds = m.cab.creds := by
  unfold Mach.calFailed; try dsimp only
  simp only [↓keeps_completed, ↓keeps_raise, ↓ite_mram, ↓ite_time_frame, ↓ite_sec_rollback, ↓ite_sec_boots, ↓ite_cab_creds, ↓ite_fst, ite_self, implies_true, and_self]

theorem keeps_calApply (m : Mach) (tag : Nat) (uref : Nat) (iref : Nat) (pref : Int) (qref : Int) :
    (Mach.calApply m tag uref iref pref qref).1.mram = m.mram
    ∧ (Mach.calApply m tag uref iref pref qref).1.time.frame = m.time.frame
    ∧ (Mach.calApply m tag uref iref pref qref).1.sec.rollback = m.sec.rollback
    ∧ (Mach.calApply m tag uref iref pref qref).1.sec.boots = m.sec.boots
    ∧ (Mach.calApply m tag uref iref pref qref).1.cab.creds = m.cab.creds := by
  unfold Mach.calApply; try dsimp only
  refine ⟨?_, ?_, ?_, ?_, ?_⟩ <;>
  (repeat' split) <;>
  first | with_reducible rfl | (simp only [↓keeps_calFailed, ↓keeps_endFault, ↓keeps_pending, ↓keeps_refuse, ↓ite_mram, ↓ite_time_frame, ↓ite_sec_rollback, ↓ite_sec_boots, ↓ite_cab_creds, ↓ite_fst, ite_self, implies_true, and_self]; done)

theorem keeps_meterDeferOne (cmd : Nat × Nat) (m : Mach) (e : SetEntry) :
    (Mach.meterDeferOne cmd m e).mram = m.mram
    ∧ (Mach.meterDeferOne cmd m e).time.frame = m.time.frame
    ∧ (Mach.meterDeferOne cmd m e).sec.rollback = m.sec.rollback
    ∧ (Mach.meterDeferOne cmd m e).sec.boots = m.sec.boots
    ∧ (Mach.meterDeferOne cmd m e).cab.creds = m.cab.creds := by
  unfold Mach.meterDeferOne; try dsimp only
  refine ⟨?_, ?_, ?_, ?_, ?_⟩ <;>
  (repeat' split) <;>
  first | with_reducible rfl | (simp only [↓keeps_defer, ↓ite_mram, ↓ite_time_frame, ↓ite_sec_rollback, ↓ite_sec_boots, ↓ite_cab_creds, ↓ite_fst, ite_self, implies_true, and_self]; done)

theorem keeps_meterDefer (m : Mach) (cmd : Nat × Nat) (es : List SetEntry) :
    (Mach.meterDefer m cmd es).mram = m.mram
    ∧ (Mach.meterDefer m cmd es).time.frame = m.time.frame
    ∧ (Mach.meterDefer m cmd es).sec.rollback = m.sec.rollback
    ∧ (Mach.meterDefer m cmd es).sec.boots = m.sec.boots
    ∧ (Mach.meterDefer m cmd es).cab.creds = m.cab.creds := by
  unfold Mach.meterDefer; try dsimp only
  refine ⟨?_, ?_, ?_, ?_, ?_⟩ <;>
  (repeat' split) <;>
  first | with_reducible rfl | (simp only [↓keeps_calFailed, ↓keeps_meterDeferOne, ↓ite_mram, ↓each_mram, ↓ite_time_frame, ↓each_time_frame, ↓ite_sec_rollback, ↓each_sec_rollback, ↓ite_sec_boots, ↓each_sec_boots, ↓ite_cab_creds, ↓each_cab_creds, ↓ite_fst, ite_self, implies_true, and_self]; done)

theorem keeps_meterWrite (m : Mach) (cmd : Nat × Nat) (es : List SetEntry) :
    (Mach.meterWrite m cmd es).1.mram = m.mram
    ∧ (Mach.meterWrite m cmd es).1.time.frame = m.time.frame
    ∧ (Mach.meterWrite m cmd es).1.sec.rollback = m.sec.rollback
    ∧ (Mach.meterWrite m cmd es).1.sec.boots = m.sec.boots
    ∧ (Mach.meterWrite m cmd es).1.cab.creds = m.cab.creds := by
  unfold Mach.meterWrite; try dsimp only
  simp only [↓keeps_meterDefer, ↓keeps_refuse, ↓ite_mram, ↓ite_time_frame, ↓ite_sec_rollback, ↓ite_sec_boots, ↓ite_cab_creds, ↓ite_fst, ite_self, implies_true, and_self]

theorem keeps_energyRead (m : Mach) (shown : Mach) :
    (Mach.energyRead m shown).1.mram = m.mram
    ∧ (Mach.energyRead m shown).1.time.frame = m.time.frame
    ∧ (Mach.energyRead m shown).1.sec.rollback = m.sec.rollback
    ∧ (Mach.energyRead m shown).1.sec.boots = m.sec.boots
    ∧ (Mach.energyRead m shown).1.cab.creds = m.cab.creds := by
  unfold Mach.energyRead; try dsimp only
  simp only [↓keeps_endFault, ↓ite_mram, ↓ite_time_frame, ↓ite_sec_rollback, ↓ite_sec_boots, ↓ite_cab_creds, ↓ite_fst, ite_self, implies_true, and_self]

end Sys2Proof.Laws
end

