-- ==== Sys2Proof/Laws/KeepEngine.lean ====
section
/-!
SUPPORT. What the operations of Machine/Engine.lean leave alone of the MRAM, the frame count, the rollback
counter, the boot count and the credentials of the cabinet, and that they keep the canonical form of the MRAM.
-/
namespace Sys2Proof.Laws

open Sys2Proof Sys2Proof.Machine

set_option linter.all false
set_option linter.unreachableTactic false
set_option linter.unusedTactic false
theorem keeps_loadPlan (m : Mach) (pl : Plan) (fromRest : Bool) (f3 : Bool) :
    (Mach.loadPlan m pl fromRest f3).1.mram = m.mram
    ∧ (Mach.loadPlan m pl fromRest f3).1.time.frame = m.time.frame
    ∧ (Mach.loadPlan m pl fromRest f3).1.sec.rollback = m.sec.rollback
    ∧ (Mach.loadPlan m pl fromRest f3).1.sec.boots = m.sec.boots
    ∧ (Mach.loadPlan m pl fromRest f3).1.cab.creds = m.cab.creds := by
  unfold Mach.loadPlan; try dsimp only
  simp only [↓keeps_endFault, ↓keeps_raise, ↓ite_mram, ↓ite_time_frame, ↓ite_sec_rollback, ↓ite_sec_boots, ↓ite_cab_creds, ↓ite_fst, ite_self, implies_true, and_self]

theorem keeps_cancelPlan (m : Mach) :
    (Mach.cancelPlan m).mram = m.mram
    ∧ (Mach.cancelPlan m).time.frame = m.time.frame
    ∧ (Mach.cancelPlan m).sec.rollback = m.sec.rollback
    ∧ (Mach.cancelPlan m).sec.boots = m.sec.boots
    ∧ (Mach.cancelPlan m).cab.creds = m.cab.creds := by
  unfold Mach.cancelPlan; try dsimp only
  simp only [↓ite_mram, ↓ite_time_frame, ↓ite_sec_rollback, ↓ite_sec_boots, ↓ite_cab_creds, ↓ite_fst, ite_self, implies_true, and_self]

theorem keeps_planFromRest (m : Mach) (kind : Nat) (target : Int) :
    (Mach.planFromRest m kind target).1.mram = m.mram
    ∧ (Mach.planFromRest m kind target).1.time.frame = m.time.frame
    ∧ (Mach.planFromRest m kind target).1.sec.rollback = m.sec.rollback
    ∧ (Mach.planFromRest m kind target).1.sec.boots = m.sec.boots
    ∧ (Mach.planFromRest m kind target).1.cab.creds = m.cab.creds := by
  unfold Mach.planFromRest; try dsimp only
  simp only [↓keeps_loadPlan, ↓ite_mram, ↓ite_time_frame, ↓ite_sec_rollback, ↓ite_sec_boots, ↓ite_cab_creds, ↓ite_fst, ite_self, implies_true, and_self]

theorem keeps_beginStop (m : Mach) (kind : StopKind) :
    (Mach.beginStop m kind).mram = m.mram
    ∧ (Mach.beginStop m kind).time.frame = m.time.frame
    ∧ (Mach.beginStop m kind).sec.rollback = m.sec.rollback
    ∧ (Mach.beginStop m kind).sec.boots = m.sec.boots
    ∧ (Mach.beginStop m kind).cab.creds = m.cab.creds := by
  unfold Mach.beginStop
  exact ⟨by with_reducible rfl, by with_reducible rfl, by with_reducible rfl, by with_reducible rfl, by with_reducible rfl⟩

theorem keeps_startPlan (m : Mach) (t0 : Nat) :
    (Mach.startPlan m t0).mram = m.mram
    ∧ (Mach.startPlan m t0).time.frame = m.time.frame
    ∧ (Mach.startPlan m t0).sec.rollback = m.sec.rollback
    ∧ (Mach.startPlan m t0).sec.boots = m.sec.boots
    ∧ (Mach.startPlan m t0).cab.creds = m.cab.creds := by
  unfold Mach.startPlan; try dsimp only
  refine ⟨?_, ?_, ?_, ?_, ?_⟩ <;>
  (repeat' split) <;>
  first | with_reducible rfl | (simp only [↓ite_mram, ↓ite_time_frame, ↓ite_sec_rollback, ↓ite_sec_boots, ↓ite_cab_creds, ↓ite_fst, ite_self, implies_true, and_self]; done)

theorem keeps_engineTick (m : Mach) :
    (Mach.engineTick m).mram = m.mram
    ∧ (Mach.engineTick m).time.frame = m.time.frame
    ∧ (Mach.engineTick m).sec.rollback = m.sec.rollback
    ∧ (Mach.engineTick m).sec.boots = m.sec.boots
    ∧ (Mach.engineTick m).cab.creds = m.cab.creds := by
  unfold Mach.engineTick; try dsimp only
  refine ⟨?_, ?_, ?_, ?_, ?_⟩ <;>
  (repeat' split) <;>
  first | with_reducible rfl | (simp only [↓keeps_beginStop, ↓keeps_startPlan, ↓ite_mram, ↓ite_time_frame, ↓ite_sec_rollback, ↓ite_sec_boots, ↓ite_cab_creds, ↓ite_fst, ite_self, implies_true, and_self]; done)

theorem keeps_assemblyTurns (m : Mach) :
    (Mach.assemblyTurns m).mram = m.mram
    ∧ (Mach.assemblyTurns m).time.frame = m.time.frame
    ∧ (Mach.assemblyTurns m).sec.rollback = m.sec.rollback
    ∧ (Mach.assemblyTurns m).sec.boots = m.sec.boots
    ∧ (Mach.assemblyTurns m).cab.creds = m.cab.creds := by
  unfold Mach.assemblyTurns; try dsimp only
  simp only [↓keeps_endFault, ↓keeps_startPlan, ↓ite_mram, ↓ite_time_frame, ↓ite_sec_rollback, ↓ite_sec_boots, ↓ite_cab_creds, ↓ite_fst, ite_self, implies_true, and_self]

theorem keeps_assemble (m : Mach) :
    (Mach.assemble m).mram = m.mram
    ∧ (Mach.assemble m).time.frame = m.time.frame
    ∧ (Mach.assemble m).sec.rollback = m.sec.rollback
    ∧ (Mach.assemble m).sec.boots = m.sec.boots
    ∧ (Mach.assemble m).cab.creds = m.cab.creds := by
  unfold Mach.assemble; try dsimp only
  simp only [↓keeps_assemblyTurns, ↓ite_mram, ↓ite_time_frame, ↓ite_sec_rollback, ↓ite_sec_boots, ↓ite_cab_creds, ↓ite_fst, ite_self, implies_true, and_self]

theorem keeps_engineCycle (m : Mach) (portAwake : Bool) :
    (Mach.engineCycle m portAwake).mram = m.mram
    ∧ (Mach.engineCycle m portAwake).time.frame = m.time.frame
    ∧ (Mach.engineCycle m portAwake).sec.rollback = m.sec.rollback
    ∧ (Mach.engineCycle m portAwake).sec.boots = m.sec.boots
    ∧ (Mach.engineCycle m portAwake).cab.creds = m.cab.creds := by
  unfold Mach.engineCycle; try dsimp only
  simp only [↓keeps_endIf, ↓ite_mram, ↓ite_time_frame, ↓ite_sec_rollback, ↓ite_sec_boots, ↓ite_cab_creds, ↓ite_fst, ite_self, implies_true, and_self]

theorem keeps_engineFrame (m : Mach) :
    (Mach.engineFrame m).mram = m.mram
    ∧ (Mach.engineFrame m).time.frame = m.time.frame
    ∧ (Mach.engineFrame m).sec.rollback = m.sec.rollback
    ∧ (Mach.engineFrame m).sec.boots = m.sec.boots
    ∧ (Mach.engineFrame m).cab.creds = m.cab.creds := by
  unfold Mach.engineFrame; try dsimp only
  simp only [↓keeps_endIf, ↓keeps_raise, ↓ite_mram, ↓ite_time_frame, ↓ite_sec_rollback, ↓ite_sec_boots, ↓ite_cab_creds, ↓ite_fst, ite_self, implies_true, and_self]

theorem keeps_engineChecks (m : Mach) (i : FrameIn) :
    (Mach.engineChecks m i).mram = m.mram
    ∧ (Mach.engineChecks m i).time.frame = m.time.frame
    ∧ (Mach.engineChecks m i).sec.rollback = m.sec.rollback
    ∧ (Mach.engineChecks m i).sec.boots = m.sec.boots
    ∧ (Mach.engineChecks m i).cab.creds = m.cab.creds := by
  unfold Mach.engineChecks; try dsimp only
  simp only [↓keeps_raise, ↓ite_mram, ↓ite_time_frame, ↓ite_sec_rollback, ↓ite_sec_boots, ↓ite_cab_creds, ↓ite_fst, ite_self, implies_true, and_self]

theorem keeps_takeMean (m : Mach) (x : Int) (last : Bool) :
    (Mach.takeMean m x last).mram = m.mram
    ∧ (Mach.takeMean m x last).time.frame = m.time.frame
    ∧ (Mach.takeMean m x last).sec.rollback = m.sec.rollback
    ∧ (Mach.takeMean m x last).sec.boots = m.sec.boots
    ∧ (Mach.takeMean m x last).cab.creds = m.cab.creds := by
  unfold Mach.takeMean; try dsimp only
  refine ⟨?_, ?_, ?_, ?_, ?_⟩ <;>
  (repeat' split) <;>
  first | with_reducible rfl | (simp only [↓keeps_endFault, ↓keeps_extreme, ↓keeps_hist, ↓keeps_raise, ↓ite_mram, ↓ite_time_frame, ↓ite_sec_rollback, ↓ite_sec_boots, ↓ite_cab_creds, ↓ite_fst, ite_self, implies_true, and_self]; done)

theorem keeps_endRun (m : Mach) :
    (Mach.endRun m).mram = m.mram
    ∧ (Mach.endRun m).time.frame = m.time.frame
    ∧ (Mach.endRun m).sec.rollback = m.sec.rollback
    ∧ (Mach.endRun m).sec.boots = m.sec.boots
    ∧ (Mach.endRun m).cab.creds = m.cab.creds := by
  unfold Mach.endRun
  exact ⟨by with_reducible rfl, by with_reducible rfl, by with_reducible rfl, by with_reducible rfl, by with_reducible rfl⟩

theorem keeps_levelCorr (m : Mach) (x : Int) :
    (Mach.levelCorr m x).mram = m.mram
    ∧ (Mach.levelCorr m x).time.frame = m.time.frame
    ∧ (Mach.levelCorr m x).sec.rollback = m.sec.rollback
    ∧ (Mach.levelCorr m x).sec.boots = m.sec.boots
    ∧ (Mach.levelCorr m x).cab.creds = m.cab.creds := by
  unfold Mach.levelCorr; try dsimp only
  simp only [↓keeps_endRun, ↓keeps_planFromRest, ↓keeps_takeMean, ↓ite_mram, ↓ite_time_frame, ↓ite_sec_rollback, ↓ite_sec_boots, ↓ite_cab_creds, ↓ite_fst, ite_self, implies_true, and_self]

theorem keeps_relevelPlan (m : Mach) :
    (Mach.relevelPlan m).mram = m.mram
    ∧ (Mach.relevelPlan m).time.frame = m.time.frame
    ∧ (Mach.relevelPlan m).sec.rollback = m.sec.rollback
    ∧ (Mach.relevelPlan m).sec.boots = m.sec.boots
    ∧ (Mach.relevelPlan m).cab.creds = m.cab.creds := by
  unfold Mach.relevelPlan; try dsimp only
  simp only [↓keeps_planFromRest, ↓ite_mram, ↓ite_time_frame, ↓ite_sec_rollback, ↓ite_sec_boots, ↓ite_cab_creds, ↓ite_fst, ite_self, implies_true, and_self]

end Sys2Proof.Laws
end

