-- ==== Sys2Proof/Laws/KeepSched.lean ====
section
/-!
SUPPORT. What the operations of Machine/Sched.lean leave alone of the MRAM, the frame count, the rollback
counter, the boot count and the credentials of the cabinet, and that they keep the canonical form of the MRAM.
-/
namespace Sys2Proof.Laws

open Sys2Proof Sys2Proof.Machine

set_option linter.all false
set_option linter.unreachableTactic false
set_option linter.unusedTactic false
theorem keeps_bumpEpoch (m : Mach) :
    (Mach.bumpEpoch m).mram = m.mram
    ∧ (Mach.bumpEpoch m).time.frame = m.time.frame
    ∧ (Mach.bumpEpoch m).sec.rollback = m.sec.rollback
    ∧ (Mach.bumpEpoch m).sec.boots = m.sec.boots
    ∧ (Mach.bumpEpoch m).cab.creds = m.cab.creds := by
  unfold Mach.bumpEpoch
  exact ⟨by with_reducible rfl, by with_reducible rfl, by with_reducible rfl, by with_reducible rfl, by with_reducible rfl⟩

theorem keeps_queueCall (m : Mach) (c : CallChange) :
    (Mach.queueCall m c).mram = m.mram
    ∧ (Mach.queueCall m c).time.frame = m.time.frame
    ∧ (Mach.queueCall m c).sec.rollback = m.sec.rollback
    ∧ (Mach.queueCall m c).sec.boots = m.sec.boots
    ∧ (Mach.queueCall m c).cab.creds = m.cab.creds := by
  unfold Mach.queueCall
  exact ⟨by with_reducible rfl, by with_reducible rfl, by with_reducible rfl, by with_reducible rfl, by with_reducible rfl⟩

theorem keeps_changeCall (m : Mach) (c : CallChange) (s : Ab) :
    (Mach.changeCall m c s).mram = m.mram
    ∧ (Mach.changeCall m c s).time.frame = m.time.frame
    ∧ (Mach.changeCall m c s).sec.rollback = m.sec.rollback
    ∧ (Mach.changeCall m c s).sec.boots = m.sec.boots
    ∧ (Mach.changeCall m c s).cab.creds = m.cab.creds := by
  unfold Mach.changeCall; try dsimp only
  simp only [↓ite_mram, ↓ite_time_frame, ↓ite_sec_rollback, ↓ite_sec_boots, ↓ite_cab_creds, ↓ite_fst, ite_self, implies_true, and_self]

theorem keeps_groupRes (m : Mach) (result : Nat) (call : Nat) (landing : Nat) (ref : Nat) :
    (Mach.groupRes m result call landing ref).mram = m.mram
    ∧ (Mach.groupRes m result call landing ref).time.frame = m.time.frame
    ∧ (Mach.groupRes m result call landing ref).sec.rollback = m.sec.rollback
    ∧ (Mach.groupRes m result call landing ref).sec.boots = m.sec.boots
    ∧ (Mach.groupRes m result call landing ref).cab.creds = m.cab.creds := by
  unfold Mach.groupRes
  exact ⟨by with_reducible rfl, by with_reducible rfl, by with_reducible rfl, by with_reducible rfl, by with_reducible rfl⟩

theorem keeps_dwellFor (m : Mach) (s : Ab) (hall : Bool) :
    (Mach.dwellFor m s hall).mram = m.mram
    ∧ (Mach.dwellFor m s hall).time.frame = m.time.frame
    ∧ (Mach.dwellFor m s hall).sec.rollback = m.sec.rollback
    ∧ (Mach.dwellFor m s hall).sec.boots = m.sec.boots
    ∧ (Mach.dwellFor m s hall).cab.creds = m.cab.creds := by
  unfold Mach.dwellFor; try dsimp only
  refine ⟨?_, ?_, ?_, ?_, ?_⟩ <;>
  (repeat' split) <;>
  first | with_reducible rfl | (simp only [↓ite_mram, ↓ite_time_frame, ↓ite_sec_rollback, ↓ite_sec_boots, ↓ite_cab_creds, ↓ite_fst, ite_self, implies_true, and_self]; done)

theorem keeps_serveSide (m : Mach) (l : Nat) (s : Ab) :
    (Mach.serveSide m l s).mram = m.mram
    ∧ (Mach.serveSide m l s).time.frame = m.time.frame
    ∧ (Mach.serveSide m l s).sec.rollback = m.sec.rollback
    ∧ (Mach.serveSide m l s).sec.boots = m.sec.boots
    ∧ (Mach.serveSide m l s).cab.creds = m.cab.creds := by
  unfold Mach.serveSide
  exact ⟨by with_reducible rfl, by with_reducible rfl, by with_reducible rfl, by with_reducible rfl, by with_reducible rfl⟩

theorem keeps_applyChange (m : Mach) (c : CallChange) :
    (Mach.applyChange m c).mram = m.mram
    ∧ (Mach.applyChange m c).time.frame = m.time.frame
    ∧ (Mach.applyChange m c).sec.rollback = m.sec.rollback
    ∧ (Mach.applyChange m c).sec.boots = m.sec.boots
    ∧ (Mach.applyChange m c).cab.creds = m.cab.creds := by
  unfold Mach.applyChange; try dsimp only
  simp only [↓keeps_changeCall, ↓keeps_dwellFor, ↓keeps_serveSide, ↓ite_mram, ↓each_mram, ↓ite_time_frame, ↓each_time_frame, ↓ite_sec_rollback, ↓each_sec_rollback, ↓ite_sec_boots, ↓each_sec_boots, ↓ite_cab_creds, ↓each_cab_creds, ↓ite_fst, ite_self, implies_true, and_self]

theorem keeps_noteCommit (m : Mach) (l : Nat) (d : Nat) (hit : Bool) (advance : Bool) :
    (Mach.noteCommit m l d hit advance).mram = m.mram
    ∧ (Mach.noteCommit m l d hit advance).time.frame = m.time.frame
    ∧ (Mach.noteCommit m l d hit advance).sec.rollback = m.sec.rollback
    ∧ (Mach.noteCommit m l d hit advance).sec.boots = m.sec.boots
    ∧ (Mach.noteCommit m l d hit advance).cab.creds = m.cab.creds := by
  unfold Mach.noteCommit
  exact ⟨by with_reducible rfl, by with_reducible rfl, by with_reducible rfl, by with_reducible rfl, by with_reducible rfl⟩

theorem keeps_setCand (m : Mach) (p : Plan) (l : Nat) :
    (Mach.setCand m p l).mram = m.mram
    ∧ (Mach.setCand m p l).time.frame = m.time.frame
    ∧ (Mach.setCand m p l).sec.rollback = m.sec.rollback
    ∧ (Mach.setCand m p l).sec.boots = m.sec.boots
    ∧ (Mach.setCand m p l).cab.creds = m.cab.creds := by
  unfold Mach.setCand
  exact ⟨by with_reducible rfl, by with_reducible rfl, by with_reducible rfl, by with_reducible rfl, by with_reducible rfl⟩

theorem keeps_restSlot (m : Mach) (l : Nat) :
    (Mach.restSlot m l).mram = m.mram
    ∧ (Mach.restSlot m l).time.frame = m.time.frame
    ∧ (Mach.restSlot m l).sec.rollback = m.sec.rollback
    ∧ (Mach.restSlot m l).sec.boots = m.sec.boots
    ∧ (Mach.restSlot m l).cab.creds = m.cab.creds := by
  unfold Mach.restSlot; try dsimp only
  refine ⟨?_, ?_, ?_, ?_, ?_⟩ <;>
  (repeat' split) <;>
  first | with_reducible rfl | (simp only [↓keeps_raise, ↓keeps_setCand, ↓ite_mram, ↓ite_time_frame, ↓ite_sec_rollback, ↓ite_sec_boots, ↓ite_cab_creds, ↓ite_fst, ite_self, implies_true, and_self]; done)

theorem keeps_exitSlot (m : Mach) :
    (Mach.exitSlot m).mram = m.mram
    ∧ (Mach.exitSlot m).time.frame = m.time.frame
    ∧ (Mach.exitSlot m).sec.rollback = m.sec.rollback
    ∧ (Mach.exitSlot m).sec.boots = m.sec.boots
    ∧ (Mach.exitSlot m).cab.creds = m.cab.creds := by
  unfold Mach.exitSlot; try dsimp only
  simp only [↓keeps_setCand, ↓ite_mram, ↓ite_time_frame, ↓ite_sec_rollback, ↓ite_sec_boots, ↓ite_cab_creds, ↓ite_fst, ite_self, implies_true, and_self]

theorem keeps_commitRest (m : Mach) (l : Nat) (d : Nat) (advance : Bool) :
    (Mach.commitRest m l d advance).mram = m.mram
    ∧ (Mach.commitRest m l d advance).time.frame = m.time.frame
    ∧ (Mach.commitRest m l d advance).sec.rollback = m.sec.rollback
    ∧ (Mach.commitRest m l d advance).sec.boots = m.sec.boots
    ∧ (Mach.commitRest m l d advance).cab.creds = m.cab.creds := by
  unfold Mach.commitRest; try dsimp only
  simp only [↓keeps_endFault, ↓keeps_loadPlan, ↓keeps_noteCommit, ↓ite_mram, ↓ite_time_frame, ↓ite_sec_rollback, ↓ite_sec_boots, ↓ite_cab_creds, ↓ite_fst, ite_self, implies_true, and_self]

theorem keeps_commitMoving (m : Mach) (l : Nat) (d : Nat) (f3 : Bool) :
    (Mach.commitMoving m l d f3).mram = m.mram
    ∧ (Mach.commitMoving m l d f3).time.frame = m.time.frame
    ∧ (Mach.commitMoving m l d f3).sec.rollback = m.sec.rollback
    ∧ (Mach.commitMoving m l d f3).sec.boots = m.sec.boots
    ∧ (Mach.commitMoving m l d f3).cab.creds = m.cab.creds := by
  unfold Mach.commitMoving; try dsimp only
  refine ⟨?_, ?_, ?_, ?_, ?_⟩ <;>
  (repeat' split) <;>
  first | with_reducible rfl | (simp only [↓keeps_loadPlan, ↓keeps_noteCommit, ↓ite_mram, ↓ite_time_frame, ↓ite_sec_rollback, ↓ite_sec_boots, ↓ite_cab_creds, ↓ite_fst, ite_self, implies_true, and_self]; done)

theorem keeps_commitExit (m : Mach) (l : Nat) (f3 : Bool) :
    (Mach.commitExit m l f3).mram = m.mram
    ∧ (Mach.commitExit m l f3).time.frame = m.time.frame
    ∧ (Mach.commitExit m l f3).sec.rollback = m.sec.rollback
    ∧ (Mach.commitExit m l f3).sec.boots = m.sec.boots
    ∧ (Mach.commitExit m l f3).cab.creds = m.cab.creds := by
  unfold Mach.commitExit; try dsimp only
  simp only [↓keeps_commitMoving, ↓ite_mram, ↓ite_time_frame, ↓ite_sec_rollback, ↓ite_sec_boots, ↓ite_cab_creds, ↓ite_fst, ite_self, implies_true, and_self]

theorem keeps_discardSpool (m : Mach) :
    (Mach.discardSpool m).mram = m.mram
    ∧ (Mach.discardSpool m).time.frame = m.time.frame
    ∧ (Mach.discardSpool m).sec.rollback = m.sec.rollback
    ∧ (Mach.discardSpool m).sec.boots = m.sec.boots
    ∧ (Mach.discardSpool m).cab.creds = m.cab.creds := by
  unfold Mach.discardSpool
  exact ⟨by with_reducible rfl, by with_reducible rfl, by with_reducible rfl, by with_reducible rfl, by with_reducible rfl⟩

theorem keeps_reslot (m : Mach) :
    (Mach.reslot m).mram = m.mram
    ∧ (Mach.reslot m).time.frame = m.time.frame
    ∧ (Mach.reslot m).sec.rollback = m.sec.rollback
    ∧ (Mach.reslot m).sec.boots = m.sec.boots
    ∧ (Mach.reslot m).cab.creds = m.cab.creds := by
  unfold Mach.reslot
  exact ⟨by with_reducible rfl, by with_reducible rfl, by with_reducible rfl, by with_reducible rfl, by with_reducible rfl⟩

theorem keeps_specBegin (m : Mach) :
    (Mach.specBegin m).mram = m.mram
    ∧ (Mach.specBegin m).time.frame = m.time.frame
    ∧ (Mach.specBegin m).sec.rollback = m.sec.rollback
    ∧ (Mach.specBegin m).sec.boots = m.sec.boots
    ∧ (Mach.specBegin m).cab.creds = m.cab.creds := by
  unfold Mach.specBegin; try dsimp only
  refine ⟨?_, ?_, ?_, ?_, ?_⟩ <;>
  (repeat' split) <;>
  first | with_reducible rfl | (simp only [↓ite_mram, ↓ite_time_frame, ↓ite_sec_rollback, ↓ite_sec_boots, ↓ite_cab_creds, ↓ite_fst, ite_self, implies_true, and_self]; done)

theorem keeps_speculate (n : Nat) (m : Mach) :
    (Mach.speculate n m).mram = m.mram
    ∧ (Mach.speculate n m).time.frame = m.time.frame
    ∧ (Mach.speculate n m).sec.rollback = m.sec.rollback
    ∧ (Mach.speculate n m).sec.boots = m.sec.boots
    ∧ (Mach.speculate n m).cab.creds = m.cab.creds := by
  induction n generalizing m with
  | zero => exact keeps_specBegin m
  | succ n ih =>
    have h := keeps_specBegin m
    have k := ih { m.specBegin with sched.spool := m.specBegin.sched.spool.map fun e => { e with ready := e.ready || decide (e.slot < m.specBegin.spoolDepth) } }
    exact ⟨k.1.trans h.1, k.2.1.trans h.2.1, k.2.2.1.trans h.2.2.1, k.2.2.2.1.trans h.2.2.2.1, k.2.2.2.2.trans h.2.2.2.2⟩

theorem keeps_applyChanges (m : Mach) :
    (Mach.applyChanges m).mram = m.mram
    ∧ (Mach.applyChanges m).time.frame = m.time.frame
    ∧ (Mach.applyChanges m).sec.rollback = m.sec.rollback
    ∧ (Mach.applyChanges m).sec.boots = m.sec.boots
    ∧ (Mach.applyChanges m).cab.creds = m.cab.creds := by
  unfold Mach.applyChanges; try dsimp only
  simp only [↓keeps_applyChange, ↓keeps_bumpEpoch, ↓ite_mram, ↓each_mram, ↓ite_time_frame, ↓each_time_frame, ↓ite_sec_rollback, ↓each_sec_rollback, ↓ite_sec_boots, ↓each_sec_boots, ↓ite_cab_creds, ↓each_cab_creds, ↓ite_fst, ite_self, implies_true, and_self]

theorem keeps_replanMoving (m : Mach) :
    (Mach.replanMoving m).mram = m.mram
    ∧ (Mach.replanMoving m).time.frame = m.time.frame
    ∧ (Mach.replanMoving m).sec.rollback = m.sec.rollback
    ∧ (Mach.replanMoving m).sec.boots = m.sec.boots
    ∧ (Mach.replanMoving m).cab.creds = m.cab.creds := by
  unfold Mach.replanMoving; try dsimp only
  refine ⟨?_, ?_, ?_, ?_, ?_⟩ <;>
  (repeat' split) <;>
  first | with_reducible rfl | (simp only [↓keeps_commitExit, ↓keeps_commitMoving, ↓ite_mram, ↓ite_time_frame, ↓ite_sec_rollback, ↓ite_sec_boots, ↓ite_cab_creds, ↓ite_fst, ite_self, implies_true, and_self]; done)

theorem keeps_replanWaiting (m : Mach) :
    (Mach.replanWaiting m).mram = m.mram
    ∧ (Mach.replanWaiting m).time.frame = m.time.frame
    ∧ (Mach.replanWaiting m).sec.rollback = m.sec.rollback
    ∧ (Mach.replanWaiting m).sec.boots = m.sec.boots
    ∧ (Mach.replanWaiting m).cab.creds = m.cab.creds := by
  unfold Mach.replanWaiting; try dsimp only
  refine ⟨?_, ?_, ?_, ?_, ?_⟩ <;>
  (repeat' split) <;>
  first | with_reducible rfl | (simp only [↓keeps_commitRest, ↓ite_mram, ↓ite_time_frame, ↓ite_sec_rollback, ↓ite_sec_boots, ↓ite_cab_creds, ↓ite_fst, ite_self, implies_true, and_self]; done)

theorem keeps_exitSearch (m : Mach) :
    (Mach.exitSearch m).mram = m.mram
    ∧ (Mach.exitSearch m).time.frame = m.time.frame
    ∧ (Mach.exitSearch m).sec.rollback = m.sec.rollback
    ∧ (Mach.exitSearch m).sec.boots = m.sec.boots
    ∧ (Mach.exitSearch m).cab.creds = m.cab.creds := by
  unfold Mach.exitSearch; try dsimp only
  simp only [↓keeps_commitExit, ↓keeps_endHome, ↓keeps_quitLearn, ↓ite_mram, ↓ite_time_frame, ↓ite_sec_rollback, ↓ite_sec_boots, ↓ite_cab_creds, ↓ite_fst, ite_self, implies_true, and_self]

theorem keeps_exitPlan (m : Mach) :
    (Mach.exitPlan m).mram = m.mram
    ∧ (Mach.exitPlan m).time.frame = m.time.frame
    ∧ (Mach.exitPlan m).sec.rollback = m.sec.rollback
    ∧ (Mach.exitPlan m).sec.boots = m.sec.boots
    ∧ (Mach.exitPlan m).cab.creds = m.cab.creds := by
  unfold Mach.exitPlan; try dsimp only
  simp only [↓keeps_bumpEpoch, ↓keeps_cancelPlan, ↓keeps_commitExit, ↓keeps_exitSearch, ↓ite_mram, ↓ite_time_frame, ↓ite_sec_rollback, ↓ite_sec_boots, ↓ite_cab_creds, ↓ite_fst, ite_self, implies_true, and_self]

theorem keeps_deliver (m : Mach) :
    (Mach.deliver m).mram = m.mram
    ∧ (Mach.deliver m).time.frame = m.time.frame
    ∧ (Mach.deliver m).sec.rollback = m.sec.rollback
    ∧ (Mach.deliver m).sec.boots = m.sec.boots
    ∧ (Mach.deliver m).cab.creds = m.cab.creds := by
  unfold Mach.deliver; try dsimp only
  simp only [↓keeps_exitPlan, ↓ite_mram, ↓ite_time_frame, ↓ite_sec_rollback, ↓ite_sec_boots, ↓ite_cab_creds, ↓ite_fst, ite_self, implies_true, and_self]

theorem keeps_runToHere (m : Mach) (l : Nat) :
    (Mach.runToHere m l).mram = m.mram
    ∧ (Mach.runToHere m l).time.frame = m.time.frame
    ∧ (Mach.runToHere m l).sec.rollback = m.sec.rollback
    ∧ (Mach.runToHere m l).sec.boots = m.sec.boots
    ∧ (Mach.runToHere m l).cab.creds = m.cab.creds := by
  unfold Mach.runToHere; try dsimp only
  refine ⟨?_, ?_, ?_, ?_, ?_⟩ <;>
  (repeat' split) <;>
  first | with_reducible rfl | (simp only [↓keeps_serveSide, ↓ite_mram, ↓each_mram, ↓foldl_mram, ↓ite_time_frame, ↓each_time_frame, ↓foldl_time_frame, ↓ite_sec_rollback, ↓each_sec_rollback, ↓foldl_sec_rollback, ↓ite_sec_boots, ↓each_sec_boots, ↓foldl_sec_boots, ↓ite_cab_creds, ↓each_cab_creds, ↓foldl_cab_creds, ↓ite_fst, ite_self, implies_true, and_self]; done)

theorem keeps_openRequests (m0 : Mach) :
    (Mach.openRequests m0).mram = m0.mram
    ∧ (Mach.openRequests m0).time.frame = m0.time.frame
    ∧ (Mach.openRequests m0).sec.rollback = m0.sec.rollback
    ∧ (Mach.openRequests m0).sec.boots = m0.sec.boots
    ∧ (Mach.openRequests m0).cab.creds = m0.cab.creds := by
  unfold Mach.openRequests; try dsimp only
  refine ⟨?_, ?_, ?_, ?_, ?_⟩ <;>
  (repeat' split) <;>
  first | with_reducible rfl | (simp only [↓keeps_runToHere, ↓ite_mram, ↓ite_time_frame, ↓ite_sec_rollback, ↓ite_sec_boots, ↓ite_cab_creds, ↓ite_fst, ite_self, implies_true, and_self]; done)

theorem keeps_answerCalls (m : Mach) (l : Nat) (s : Ab) :
    (Mach.answerCalls m l s).mram = m.mram
    ∧ (Mach.answerCalls m l s).time.frame = m.time.frame
    ∧ (Mach.answerCalls m l s).sec.rollback = m.sec.rollback
    ∧ (Mach.answerCalls m l s).sec.boots = m.sec.boots
    ∧ (Mach.answerCalls m l s).cab.creds = m.cab.creds := by
  unfold Mach.answerCalls
  exact ⟨by with_reducible rfl, by with_reducible rfl, by with_reducible rfl, by with_reducible rfl, by with_reducible rfl⟩

theorem keeps_selfCalls (m : Mach) (l : Nat) :
    (Mach.selfCalls m l).mram = m.mram
    ∧ (Mach.selfCalls m l).time.frame = m.time.frame
    ∧ (Mach.selfCalls m l).sec.rollback = m.sec.rollback
    ∧ (Mach.selfCalls m l).sec.boots = m.sec.boots
    ∧ (Mach.selfCalls m l).cab.creds = m.cab.creds := by
  unfold Mach.selfCalls; try dsimp only
  simp only [↓keeps_applyChange, ↓keeps_bumpEpoch, ↓ite_mram, ↓ite_time_frame, ↓ite_sec_rollback, ↓ite_sec_boots, ↓ite_cab_creds, ↓ite_fst, ite_self, implies_true, and_self]

theorem keeps_clearCalls (m : Mach) :
    (Mach.clearCalls m).mram = m.mram
    ∧ (Mach.clearCalls m).time.frame = m.time.frame
    ∧ (Mach.clearCalls m).sec.rollback = m.sec.rollback
    ∧ (Mach.clearCalls m).sec.boots = m.sec.boots
    ∧ (Mach.clearCalls m).cab.creds = m.cab.creds := by
  unfold Mach.clearCalls; try dsimp only
  simp only [↓keeps_bumpEpoch, ↓keeps_groupRes, ↓ite_mram, ↓each_mram, ↓ite_time_frame, ↓each_time_frame, ↓ite_sec_rollback, ↓each_sec_rollback, ↓ite_sec_boots, ↓each_sec_boots, ↓ite_cab_creds, ↓each_cab_creds, ↓ite_fst, ite_self, implies_true, and_self]

theorem keeps_schedModeCheck (m : Mach) (old : Mach) :
    (Mach.schedModeCheck m old).mram = m.mram
    ∧ (Mach.schedModeCheck m old).time.frame = m.time.frame
    ∧ (Mach.schedModeCheck m old).sec.rollback = m.sec.rollback
    ∧ (Mach.schedModeCheck m old).sec.boots = m.sec.boots
    ∧ (Mach.schedModeCheck m old).cab.creds = m.cab.creds := by
  unfold Mach.schedModeCheck; try dsimp only
  simp only [↓keeps_bumpEpoch, ↓ite_mram, ↓ite_time_frame, ↓ite_sec_rollback, ↓ite_sec_boots, ↓ite_cab_creds, ↓ite_fst, ite_self, implies_true, and_self]

theorem keeps_serviceFrame (m : Mach) :
    (Mach.serviceFrame m).mram = m.mram
    ∧ (Mach.serviceFrame m).time.frame = m.time.frame
    ∧ (Mach.serviceFrame m).sec.rollback = m.sec.rollback
    ∧ (Mach.serviceFrame m).sec.boots = m.sec.boots
    ∧ (Mach.serviceFrame m).cab.creds = m.cab.creds := by
  unfold Mach.serviceFrame; try dsimp only
  simp only [↓keeps_clearCalls, ↓keeps_selfCalls, ↓ite_mram, ↓ite_time_frame, ↓ite_sec_rollback, ↓ite_sec_boots, ↓ite_cab_creds, ↓ite_fst, ite_self, implies_true, and_self]

theorem keeps_exitStop (m : Mach) :
    (Mach.exitStop m).mram = m.mram
    ∧ (Mach.exitStop m).time.frame = m.time.frame
    ∧ (Mach.exitStop m).sec.rollback = m.sec.rollback
    ∧ (Mach.exitStop m).sec.boots = m.sec.boots
    ∧ (Mach.exitStop m).cab.creds = m.cab.creds := by
  unfold Mach.exitStop; try dsimp only
  refine ⟨?_, ?_, ?_, ?_, ?_⟩ <;>
  (repeat' split) <;>
  first | with_reducible rfl | (simp only [↓keeps_selfCalls, ↓ite_mram, ↓ite_time_frame, ↓ite_sec_rollback, ↓ite_sec_boots, ↓ite_cab_creds, ↓ite_fst, ite_self, implies_true, and_self]; done)

theorem keeps_homingReturn (m : Mach) :
    (Mach.homingReturn m).mram = m.mram
    ∧ (Mach.homingReturn m).time.frame = m.time.frame
    ∧ (Mach.homingReturn m).sec.rollback = m.sec.rollback
    ∧ (Mach.homingReturn m).sec.boots = m.sec.boots
    ∧ (Mach.homingReturn m).cab.creds = m.cab.creds := by
  unfold Mach.homingReturn; try dsimp only
  simp only [↓keeps_commitRest, ↓ite_mram, ↓ite_time_frame, ↓ite_sec_rollback, ↓ite_sec_boots, ↓ite_cab_creds, ↓ite_fst, ite_self, implies_true, and_self]

theorem keeps_schedTimers (m : Mach) :
    (Mach.schedTimers m).mram = m.mram
    ∧ (Mach.schedTimers m).time.frame = m.time.frame
    ∧ (Mach.schedTimers m).sec.rollback = m.sec.rollback
    ∧ (Mach.schedTimers m).sec.boots = m.sec.boots
    ∧ (Mach.schedTimers m).cab.creds = m.cab.creds := by
  unfold Mach.schedTimers; try dsimp only
  simp only [↓keeps_endIf, ↓ite_mram, ↓ite_time_frame, ↓ite_sec_rollback, ↓ite_sec_boots, ↓ite_cab_creds, ↓ite_fst, ite_self, implies_true, and_self]

theorem keeps_slotZero (m : Mach) :
    (Mach.slotZero m).mram = m.mram
    ∧ (Mach.slotZero m).time.frame = m.time.frame
    ∧ (Mach.slotZero m).sec.rollback = m.sec.rollback
    ∧ (Mach.slotZero m).sec.boots = m.sec.boots
    ∧ (Mach.slotZero m).cab.creds = m.cab.creds := by
  unfold Mach.slotZero; try dsimp only
  refine ⟨?_, ?_, ?_, ?_, ?_⟩ <;>
  (repeat' split) <;>
  first | with_reducible rfl | (simp only [↓keeps_exitSlot, ↓keeps_restSlot, ↓ite_mram, ↓ite_time_frame, ↓ite_sec_rollback, ↓ite_sec_boots, ↓ite_cab_creds, ↓ite_fst, ite_self, implies_true, and_self]; done)

theorem keeps_schedChoice (m : Mach) :
    (Mach.schedChoice m).mram = m.mram
    ∧ (Mach.schedChoice m).time.frame = m.time.frame
    ∧ (Mach.schedChoice m).sec.rollback = m.sec.rollback
    ∧ (Mach.schedChoice m).sec.boots = m.sec.boots
    ∧ (Mach.schedChoice m).cab.creds = m.cab.creds := by
  unfold Mach.schedChoice; try dsimp only
  refine ⟨?_, ?_, ?_, ?_, ?_⟩ <;>
  (repeat' split) <;>
  first | with_reducible rfl | (simp only [↓keeps_commitRest, ↓keeps_exitPlan, ↓keeps_homingReturn, ↓keeps_replanMoving, ↓keeps_replanWaiting, ↓ite_mram, ↓ite_time_frame, ↓ite_sec_rollback, ↓ite_sec_boots, ↓ite_cab_creds, ↓ite_fst, ite_self, implies_true, and_self]; done)

theorem keeps_schedFrame (m : Mach) (specDone : Nat) :
    (Mach.schedFrame m specDone).mram = m.mram
    ∧ (Mach.schedFrame m specDone).time.frame = m.time.frame
    ∧ (Mach.schedFrame m specDone).sec.rollback = m.sec.rollback
    ∧ (Mach.schedFrame m specDone).sec.boots = m.sec.boots
    ∧ (Mach.schedFrame m specDone).cab.creds = m.cab.creds := by
  unfold Mach.schedFrame; try dsimp only
  simp only [↓keeps_applyChanges, ↓keeps_bumpEpoch, ↓keeps_discardSpool, ↓keeps_exitStop, ↓keeps_groupRes, ↓keeps_openRequests, ↓keeps_reslot, ↓keeps_schedChoice, ↓keeps_schedTimers, ↓keeps_slotZero, ↓keeps_speculate, ↓ite_mram, ↓each_mram, ↓ite_time_frame, ↓each_time_frame, ↓ite_sec_rollback, ↓each_sec_rollback, ↓ite_sec_boots, ↓each_sec_boots, ↓ite_cab_creds, ↓each_cab_creds, ↓ite_fst, ite_self, implies_true, and_self]

end Sys2Proof.Laws
end

