-- ==== Sys2Proof/Laws/KeepDoor.lean ====
section
/-!
SUPPORT. What the operations of Machine/Door.lean leave alone of the MRAM, the frame count, the rollback
counter, the boot count and the credentials of the cabinet, and that they keep the canonical form of the MRAM.
-/
namespace Sys2Proof.Laws

open Sys2Proof Sys2Proof.Machine

set_option linter.all false
set_option linter.unreachableTactic false
set_option linter.unusedTactic false
theorem keeps_side (m : Mach) (s : Ab) (f : DoorState → DoorState) :
    (Mach.side m s f).mram = m.mram
    ∧ (Mach.side m s f).time.frame = m.time.frame
    ∧ (Mach.side m s f).sec.rollback = m.sec.rollback
    ∧ (Mach.side m s f).sec.boots = m.sec.boots
    ∧ (Mach.side m s f).cab.creds = m.cab.creds := by
  unfold Mach.side
  exact ⟨by with_reducible rfl, by with_reducible rfl, by with_reducible rfl, by with_reducible rfl, by with_reducible rfl⟩

theorem keeps_doorEvent (m : Mach) (s : Ab) (detail : Nat) :
    (Mach.doorEvent m s detail).mram = m.mram
    ∧ (Mach.doorEvent m s detail).time.frame = m.time.frame
    ∧ (Mach.doorEvent m s detail).sec.rollback = m.sec.rollback
    ∧ (Mach.doorEvent m s detail).sec.boots = m.sec.boots
    ∧ (Mach.doorEvent m s detail).cab.creds = m.cab.creds := by
  unfold Mach.doorEvent; try dsimp only
  simp only [↓keeps_post, ↓ite_mram, ↓ite_time_frame, ↓ite_sec_rollback, ↓ite_sec_boots, ↓ite_cab_creds, ↓ite_fst, ite_self, implies_true, and_self]

theorem keeps_learnFail (m : Mach) (s : Ab) :
    (Mach.learnFail m s).mram = m.mram
    ∧ (Mach.learnFail m s).time.frame = m.time.frame
    ∧ (Mach.learnFail m s).sec.rollback = m.sec.rollback
    ∧ (Mach.learnFail m s).sec.boots = m.sec.boots
    ∧ (Mach.learnFail m s).cab.creds = m.cab.creds := by
  unfold Mach.learnFail; try dsimp only
  refine ⟨?_, ?_, ?_, ?_, ?_⟩ <;>
  (repeat' split) <;>
  first | with_reducible rfl | (simp only [↓keeps_completed, ↓keeps_raise, ↓keeps_side, ↓ite_mram, ↓ite_time_frame, ↓ite_sec_rollback, ↓ite_sec_boots, ↓ite_cab_creds, ↓ite_fst, ite_self, implies_true, and_self]; done)

theorem keeps_reverse (m : Mach) (s : Ab) (hold : Bool) :
    (Mach.reverse m s hold).mram = m.mram
    ∧ (Mach.reverse m s hold).time.frame = m.time.frame
    ∧ (Mach.reverse m s hold).sec.rollback = m.sec.rollback
    ∧ (Mach.reverse m s hold).sec.boots = m.sec.boots
    ∧ (Mach.reverse m s hold).cab.creds = m.cab.creds := by
  unfold Mach.reverse; try dsimp only
  simp only [↓keeps_endFault, ↓keeps_learnFail, ↓keeps_side, ↓ite_mram, ↓ite_time_frame, ↓ite_sec_rollback, ↓ite_sec_boots, ↓ite_cab_creds, ↓ite_fst, ite_self, implies_true, and_self]

theorem keeps_obstruct (m : Mach) (s : Ab) :
    (Mach.obstruct m s).mram = m.mram
    ∧ (Mach.obstruct m s).time.frame = m.time.frame
    ∧ (Mach.obstruct m s).sec.rollback = m.sec.rollback
    ∧ (Mach.obstruct m s).sec.boots = m.sec.boots
    ∧ (Mach.obstruct m s).cab.creds = m.cab.creds := by
  unfold Mach.obstruct; try dsimp only
  simp only [↓keeps_doorEvent, ↓keeps_raise, ↓keeps_reverse, ↓keeps_side, ↓ite_mram, ↓ite_time_frame, ↓ite_sec_rollback, ↓ite_sec_boots, ↓ite_cab_creds, ↓ite_fst, ite_self, implies_true, and_self]

theorem keeps_startClose (m : Mach) (s : Ab) (nudge : Bool) :
    (Mach.startClose m s nudge).mram = m.mram
    ∧ (Mach.startClose m s nudge).time.frame = m.time.frame
    ∧ (Mach.startClose m s nudge).sec.rollback = m.sec.rollback
    ∧ (Mach.startClose m s nudge).sec.boots = m.sec.boots
    ∧ (Mach.startClose m s nudge).cab.creds = m.cab.creds := by
  unfold Mach.startClose; try dsimp only
  simp only [↓keeps_side, ↓ite_mram, ↓ite_time_frame, ↓ite_sec_rollback, ↓ite_sec_boots, ↓ite_cab_creds, ↓ite_fst, ite_self, implies_true, and_self]

theorem keeps_startLearn (m : Mach) (s : Ab) (tag : Nat) :
    (Mach.startLearn m s tag).mram = m.mram
    ∧ (Mach.startLearn m s tag).time.frame = m.time.frame
    ∧ (Mach.startLearn m s tag).sec.rollback = m.sec.rollback
    ∧ (Mach.startLearn m s tag).sec.boots = m.sec.boots
    ∧ (Mach.startLearn m s tag).cab.creds = m.cab.creds := by
  unfold Mach.startLearn; try dsimp only
  simp only [↓keeps_side, ↓ite_mram, ↓ite_time_frame, ↓ite_sec_rollback, ↓ite_sec_boots, ↓ite_cab_creds, ↓ite_fst, ite_self, implies_true, and_self]

theorem keeps_notLearned (m : Mach) (s : Ab) :
    (Mach.notLearned m s).mram = m.mram
    ∧ (Mach.notLearned m s).time.frame = m.time.frame
    ∧ (Mach.notLearned m s).sec.rollback = m.sec.rollback
    ∧ (Mach.notLearned m s).sec.boots = m.sec.boots
    ∧ (Mach.notLearned m s).cab.creds = m.cab.creds := by
  unfold Mach.notLearned; try dsimp only
  simp only [↓keeps_raise, ↓keeps_side, ↓ite_mram, ↓ite_time_frame, ↓ite_sec_rollback, ↓ite_sec_boots, ↓ite_cab_creds, ↓ite_fst, ite_self, implies_true, and_self]

theorem keeps_startOpen (m : Mach) (s : Ab) :
    (Mach.startOpen m s).mram = m.mram
    ∧ (Mach.startOpen m s).time.frame = m.time.frame
    ∧ (Mach.startOpen m s).sec.rollback = m.sec.rollback
    ∧ (Mach.startOpen m s).sec.boots = m.sec.boots
    ∧ (Mach.startOpen m s).cab.creds = m.cab.creds := by
  unfold Mach.startOpen; try dsimp only
  simp only [↓keeps_notLearned, ↓keeps_reverse, ↓keeps_side, ↓keeps_startLearn, ↓ite_mram, ↓ite_time_frame, ↓ite_sec_rollback, ↓ite_sec_boots, ↓ite_cab_creds, ↓ite_fst, ite_self, implies_true, and_self]

theorem keeps_dropDeferred (m : Mach) (s : Ab) :
    (Mach.dropDeferred m s).mram = m.mram
    ∧ (Mach.dropDeferred m s).time.frame = m.time.frame
    ∧ (Mach.dropDeferred m s).sec.rollback = m.sec.rollback
    ∧ (Mach.dropDeferred m s).sec.boots = m.sec.boots
    ∧ (Mach.dropDeferred m s).cab.creds = m.cab.creds := by
  unfold Mach.dropDeferred; try dsimp only
  simp only [↓keeps_side, ↓ite_mram, ↓ite_time_frame, ↓ite_sec_rollback, ↓ite_sec_boots, ↓ite_cab_creds, ↓ite_fst, ite_self, implies_true, and_self]

theorem keeps_openingBegun (m : Mach) (s : Ab) (was : Nat) :
    (Mach.openingBegun m s was).mram = m.mram
    ∧ (Mach.openingBegun m s was).time.frame = m.time.frame
    ∧ (Mach.openingBegun m s was).sec.rollback = m.sec.rollback
    ∧ (Mach.openingBegun m s was).sec.boots = m.sec.boots
    ∧ (Mach.openingBegun m s was).cab.creds = m.cab.creds := by
  unfold Mach.openingBegun; try dsimp only
  refine ⟨?_, ?_, ?_, ?_, ?_⟩ <;>
  (repeat' split) <;>
  first | with_reducible rfl | (simp only [↓keeps_answerCalls, ↓keeps_hist, ↓ite_mram, ↓ite_time_frame, ↓ite_sec_rollback, ↓ite_sec_boots, ↓ite_cab_creds, ↓ite_fst, ite_self, implies_true, and_self]; done)

theorem keeps_doorCommand (m : Mach) (s : Ab) (c : Nat) :
    (Mach.doorCommand m s c).mram = m.mram
    ∧ (Mach.doorCommand m s c).time.frame = m.time.frame
    ∧ (Mach.doorCommand m s c).sec.rollback = m.sec.rollback
    ∧ (Mach.doorCommand m s c).sec.boots = m.sec.boots
    ∧ (Mach.doorCommand m s c).cab.creds = m.cab.creds := by
  unfold Mach.doorCommand; try dsimp only
  refine ⟨?_, ?_, ?_, ?_, ?_⟩ <;>
  (repeat' split) <;>
  first | with_reducible rfl | (simp only [↓keeps_dropDeferred, ↓keeps_reverse, ↓keeps_side, ↓keeps_startClose, ↓keeps_startOpen, ↓ite_mram, ↓ite_time_frame, ↓ite_sec_rollback, ↓ite_sec_boots, ↓ite_cab_creds, ↓ite_fst, ite_self, implies_true, and_self]; done)

theorem keeps_doorAccept (m : Mach) (s : Ab) (c : Nat) (tag : Nat) :
    (Mach.doorAccept m s c tag).mram = m.mram
    ∧ (Mach.doorAccept m s c tag).time.frame = m.time.frame
    ∧ (Mach.doorAccept m s c tag).sec.rollback = m.sec.rollback
    ∧ (Mach.doorAccept m s c tag).sec.boots = m.sec.boots
    ∧ (Mach.doorAccept m s c tag).cab.creds = m.cab.creds := by
  unfold Mach.doorAccept; try dsimp only
  simp only [↓keeps_notLearned, ↓keeps_side, ↓ite_mram, ↓ite_time_frame, ↓ite_sec_rollback, ↓ite_sec_boots, ↓ite_cab_creds, ↓ite_fst, ite_self, implies_true, and_self]

theorem keeps_doorCmd (m : Mach) (c : Nat) (tag : Nat) (sides : Nat) :
    (Mach.doorCmd m c tag sides).1.mram = m.mram
    ∧ (Mach.doorCmd m c tag sides).1.time.frame = m.time.frame
    ∧ (Mach.doorCmd m c tag sides).1.sec.rollback = m.sec.rollback
    ∧ (Mach.doorCmd m c tag sides).1.sec.boots = m.sec.boots
    ∧ (Mach.doorCmd m c tag sides).1.cab.creds = m.cab.creds := by
  unfold Mach.doorCmd; try dsimp only
  simp only [↓keeps_doorAccept, ↓keeps_refuse, ↓ite_mram, ↓each_mram, ↓ite_time_frame, ↓each_time_frame, ↓ite_sec_rollback, ↓each_sec_rollback, ↓ite_sec_boots, ↓each_sec_boots, ↓ite_cab_creds, ↓each_cab_creds, ↓ite_fst, ite_self, implies_true, and_self]

theorem keeps_runLoop (m : Mach) (s : Ab) :
    (Mach.runLoop m s).mram = m.mram
    ∧ (Mach.runLoop m s).time.frame = m.time.frame
    ∧ (Mach.runLoop m s).sec.rollback = m.sec.rollback
    ∧ (Mach.runLoop m s).sec.boots = m.sec.boots
    ∧ (Mach.runLoop m s).cab.creds = m.cab.creds := by
  unfold Mach.runLoop; try dsimp only
  simp only [↓keeps_side, ↓ite_mram, ↓ite_time_frame, ↓ite_sec_rollback, ↓ite_sec_boots, ↓ite_cab_creds, ↓ite_fst, ite_self, implies_true, and_self]

theorem keeps_drivePwm (m : Mach) (s : Ab) :
    (Mach.drivePwm m s).mram = m.mram
    ∧ (Mach.drivePwm m s).time.frame = m.time.frame
    ∧ (Mach.drivePwm m s).sec.rollback = m.sec.rollback
    ∧ (Mach.drivePwm m s).sec.boots = m.sec.boots
    ∧ (Mach.drivePwm m s).cab.creds = m.cab.creds := by
  unfold Mach.drivePwm; try dsimp only
  simp only [↓keeps_side, ↓ite_mram, ↓ite_time_frame, ↓ite_sec_rollback, ↓ite_sec_boots, ↓ite_cab_creds, ↓ite_fst, ite_self, implies_true, and_self]

theorem keeps_learnUpdate (m : Mach) (s : Ab) :
    (Mach.learnUpdate m s).mram = m.mram
    ∧ (Mach.learnUpdate m s).time.frame = m.time.frame
    ∧ (Mach.learnUpdate m s).sec.rollback = m.sec.rollback
    ∧ (Mach.learnUpdate m s).sec.boots = m.sec.boots
    ∧ (Mach.learnUpdate m s).cab.creds = m.cab.creds := by
  unfold Mach.learnUpdate; try dsimp only
  simp only [↓keeps_reverse, ↓keeps_side, ↓ite_mram, ↓ite_time_frame, ↓ite_sec_rollback, ↓ite_sec_boots, ↓ite_cab_creds, ↓ite_fst, ite_self, implies_true, and_self]

theorem keeps_seekUpdate (m : Mach) (s : Ab) :
    (Mach.seekUpdate m s).mram = m.mram
    ∧ (Mach.seekUpdate m s).time.frame = m.time.frame
    ∧ (Mach.seekUpdate m s).sec.rollback = m.sec.rollback
    ∧ (Mach.seekUpdate m s).sec.boots = m.sec.boots
    ∧ (Mach.seekUpdate m s).cab.creds = m.cab.creds := by
  unfold Mach.seekUpdate; try dsimp only
  simp only [↓keeps_side, ↓ite_mram, ↓ite_time_frame, ↓ite_sec_rollback, ↓ite_sec_boots, ↓ite_cab_creds, ↓ite_fst, ite_self, implies_true, and_self]

theorem keeps_doorSense (m : Mach) (s : Ab) (i : DoorIn) :
    (Mach.doorSense m s i).mram = m.mram
    ∧ (Mach.doorSense m s i).time.frame = m.time.frame
    ∧ (Mach.doorSense m s i).sec.rollback = m.sec.rollback
    ∧ (Mach.doorSense m s i).sec.boots = m.sec.boots
    ∧ (Mach.doorSense m s i).cab.creds = m.cab.creds := by
  unfold Mach.doorSense; try dsimp only
  simp only [↓keeps_side, ↓ite_mram, ↓ite_time_frame, ↓ite_sec_rollback, ↓ite_sec_boots, ↓ite_cab_creds, ↓ite_fst, ite_self, implies_true, and_self]

theorem keeps_bridgeOff (m : Mach) (s : Ab) (code : Nat) (cls : Nat) :
    (Mach.bridgeOff m s code cls).mram = m.mram
    ∧ (Mach.bridgeOff m s code cls).time.frame = m.time.frame
    ∧ (Mach.bridgeOff m s code cls).sec.rollback = m.sec.rollback
    ∧ (Mach.bridgeOff m s code cls).sec.boots = m.sec.boots
    ∧ (Mach.bridgeOff m s code cls).cab.creds = m.cab.creds := by
  unfold Mach.bridgeOff; try dsimp only
  simp only [↓keeps_raise, ↓keeps_side, ↓ite_mram, ↓ite_time_frame, ↓ite_sec_rollback, ↓ite_sec_boots, ↓ite_cab_creds, ↓ite_fst, ite_self, implies_true, and_self]

theorem keeps_bridgeUpdate (m : Mach) (s : Ab) (i : DoorIn) :
    (Mach.bridgeUpdate m s i).mram = m.mram
    ∧ (Mach.bridgeUpdate m s i).time.frame = m.time.frame
    ∧ (Mach.bridgeUpdate m s i).sec.rollback = m.sec.rollback
    ∧ (Mach.bridgeUpdate m s i).sec.boots = m.sec.boots
    ∧ (Mach.bridgeUpdate m s i).cab.creds = m.cab.creds := by
  unfold Mach.bridgeUpdate; try dsimp only
  simp only [↓keeps_bridgeOff, ↓keeps_side, ↓ite_mram, ↓ite_time_frame, ↓ite_sec_rollback, ↓ite_sec_boots, ↓ite_cab_creds, ↓ite_fst, ite_self, implies_true, and_self]

theorem keeps_doorMonitors (m : Mach) (s : Ab) (viol : Bool) :
    (Mach.doorMonitors m s viol).mram = m.mram
    ∧ (Mach.doorMonitors m s viol).time.frame = m.time.frame
    ∧ (Mach.doorMonitors m s viol).sec.rollback = m.sec.rollback
    ∧ (Mach.doorMonitors m s viol).sec.boots = m.sec.boots
    ∧ (Mach.doorMonitors m s viol).cab.creds = m.cab.creds := by
  unfold Mach.doorMonitors; try dsimp only
  simp only [↓keeps_endFault, ↓keeps_raise, ↓ite_mram, ↓ite_time_frame, ↓ite_sec_rollback, ↓ite_sec_boots, ↓ite_cab_creds, ↓ite_fst, ite_self, implies_true, and_self]

theorem keeps_loopUpdate (m : Mach) (s : Ab) (i : DoorIn) :
    (Mach.loopUpdate m s i).mram = m.mram
    ∧ (Mach.loopUpdate m s i).time.frame = m.time.frame
    ∧ (Mach.loopUpdate m s i).sec.rollback = m.sec.rollback
    ∧ (Mach.loopUpdate m s i).sec.boots = m.sec.boots
    ∧ (Mach.loopUpdate m s i).cab.creds = m.cab.creds := by
  unfold Mach.loopUpdate; try dsimp only
  simp only [↓keeps_bridgeUpdate, ↓keeps_doorEvent, ↓keeps_doorMonitors, ↓keeps_doorSense, ↓keeps_drivePwm, ↓keeps_learnUpdate, ↓keeps_reverse, ↓keeps_runLoop, ↓keeps_seekUpdate, ↓ite_mram, ↓ite_time_frame, ↓ite_sec_rollback, ↓ite_sec_boots, ↓ite_cab_creds, ↓ite_fst, ite_self, implies_true, and_self]

theorem keeps_doorOff (m : Mach) (s : Ab) :
    (Mach.doorOff m s).mram = m.mram
    ∧ (Mach.doorOff m s).time.frame = m.time.frame
    ∧ (Mach.doorOff m s).sec.rollback = m.sec.rollback
    ∧ (Mach.doorOff m s).sec.boots = m.sec.boots
    ∧ (Mach.doorOff m s).cab.creds = m.cab.creds := by
  unfold Mach.doorOff; try dsimp only
  simp only [↓keeps_learnFail, ↓keeps_side, ↓ite_mram, ↓ite_time_frame, ↓ite_sec_rollback, ↓ite_sec_boots, ↓ite_cab_creds, ↓ite_fst, ite_self, implies_true, and_self]

theorem keeps_storeModel (m : Mach) (s : Ab) (i : DoorLearnIn) :
    (Mach.storeModel m s i).mram = m.mram
    ∧ (Mach.storeModel m s i).time.frame = m.time.frame
    ∧ (Mach.storeModel m s i).sec.rollback = m.sec.rollback
    ∧ (Mach.storeModel m s i).sec.boots = m.sec.boots
    ∧ (Mach.storeModel m s i).cab.creds = m.cab.creds := by
  unfold Mach.storeModel; try dsimp only
  simp only [↓keeps_put, ↓ite_mram, ↓ite_time_frame, ↓ite_sec_rollback, ↓ite_sec_boots, ↓ite_cab_creds, ↓ite_fst, ite_self, implies_true, and_self]

theorem keeps_learnDone (m : Mach) (s : Ab) :
    (Mach.learnDone m s).mram = m.mram
    ∧ (Mach.learnDone m s).time.frame = m.time.frame
    ∧ (Mach.learnDone m s).sec.rollback = m.sec.rollback
    ∧ (Mach.learnDone m s).sec.boots = m.sec.boots
    ∧ (Mach.learnDone m s).cab.creds = m.cab.creds := by
  unfold Mach.learnDone; try dsimp only
  simp only [↓keeps_completed, ↓keeps_endFault, ↓keeps_endIf, ↓keeps_side, ↓ite_mram, ↓ite_time_frame, ↓ite_sec_rollback, ↓ite_sec_boots, ↓ite_cab_creds, ↓ite_fst, ite_self, implies_true, and_self]

theorem keeps_takeSp (m : Mach) (s : Ab) :
    (Mach.takeSp m s).mram = m.mram
    ∧ (Mach.takeSp m s).time.frame = m.time.frame
    ∧ (Mach.takeSp m s).sec.rollback = m.sec.rollback
    ∧ (Mach.takeSp m s).sec.boots = m.sec.boots
    ∧ (Mach.takeSp m s).cab.creds = m.cab.creds := by
  unfold Mach.takeSp; try dsimp only
  simp only [↓keeps_side, ↓ite_mram, ↓ite_time_frame, ↓ite_sec_rollback, ↓ite_sec_boots, ↓ite_cab_creds, ↓ite_fst, ite_self, implies_true, and_self]

theorem keeps_giveSp (m : Mach) (s : Ab) :
    (Mach.giveSp m s).mram = m.mram
    ∧ (Mach.giveSp m s).time.frame = m.time.frame
    ∧ (Mach.giveSp m s).sec.rollback = m.sec.rollback
    ∧ (Mach.giveSp m s).sec.boots = m.sec.boots
    ∧ (Mach.giveSp m s).cab.creds = m.cab.creds := by
  unfold Mach.giveSp; try dsimp only
  simp only [↓keeps_side, ↓ite_mram, ↓ite_time_frame, ↓ite_sec_rollback, ↓ite_sec_boots, ↓ite_cab_creds, ↓ite_fst, ite_self, implies_true, and_self]

theorem keeps_doorProfile (m : Mach) (s : Ab) :
    (Mach.doorProfile m s).mram = m.mram
    ∧ (Mach.doorProfile m s).time.frame = m.time.frame
    ∧ (Mach.doorProfile m s).sec.rollback = m.sec.rollback
    ∧ (Mach.doorProfile m s).sec.boots = m.sec.boots
    ∧ (Mach.doorProfile m s).cab.creds = m.cab.creds := by
  unfold Mach.doorProfile; try dsimp only
  simp only [↓keeps_side, ↓ite_mram, ↓ite_time_frame, ↓ite_sec_rollback, ↓ite_sec_boots, ↓ite_cab_creds, ↓ite_fst, ite_self, implies_true, and_self]

theorem keeps_adaptFriction (m : Mach) (s : Ab) :
    (Mach.adaptFriction m s).mram = m.mram
    ∧ (Mach.adaptFriction m s).time.frame = m.time.frame
    ∧ (Mach.adaptFriction m s).sec.rollback = m.sec.rollback
    ∧ (Mach.adaptFriction m s).sec.boots = m.sec.boots
    ∧ (Mach.adaptFriction m s).cab.creds = m.cab.creds := by
  unfold Mach.adaptFriction; try dsimp only
  simp only [↓keeps_put, ↓keeps_raise, ↓keeps_side, ↓ite_mram, ↓ite_time_frame, ↓ite_sec_rollback, ↓ite_sec_boots, ↓ite_cab_creds, ↓ite_fst, ite_self, implies_true, and_self]

theorem keeps_doorTime (m : Mach) (s : Ab) (type : Nat) :
    (Mach.doorTime m s type).mram = m.mram
    ∧ (Mach.doorTime m s type).time.frame = m.time.frame
    ∧ (Mach.doorTime m s type).sec.rollback = m.sec.rollback
    ∧ (Mach.doorTime m s type).sec.boots = m.sec.boots
    ∧ (Mach.doorTime m s type).cab.creds = m.cab.creds := by
  unfold Mach.doorTime; try dsimp only
  refine ⟨?_, ?_, ?_, ?_, ?_⟩ <;>
  (repeat' split) <;>
  first | with_reducible rfl | (simp only [↓keeps_extreme, ↓keeps_hist, ↓ite_mram, ↓ite_time_frame, ↓ite_sec_rollback, ↓ite_sec_boots, ↓ite_cab_creds, ↓ite_fst, ite_self, implies_true, and_self]; done)

theorem keeps_becomeClosed (m : Mach) (s : Ab) :
    (Mach.becomeClosed m s).mram = m.mram
    ∧ (Mach.becomeClosed m s).time.frame = m.time.frame
    ∧ (Mach.becomeClosed m s).sec.rollback = m.sec.rollback
    ∧ (Mach.becomeClosed m s).sec.boots = m.sec.boots
    ∧ (Mach.becomeClosed m s).cab.creds = m.cab.creds := by
  unfold Mach.becomeClosed; try dsimp only
  simp only [↓keeps_adaptFriction, ↓keeps_doorTime, ↓keeps_endFault, ↓keeps_endIf, ↓keeps_hist, ↓keeps_put, ↓keeps_side, ↓ite_mram, ↓ite_time_frame, ↓ite_sec_rollback, ↓ite_sec_boots, ↓ite_cab_creds, ↓ite_fst, ite_self, implies_true, and_self]

theorem keeps_becomeOpen (m : Mach) (s : Ab) :
    (Mach.becomeOpen m s).mram = m.mram
    ∧ (Mach.becomeOpen m s).time.frame = m.time.frame
    ∧ (Mach.becomeOpen m s).sec.rollback = m.sec.rollback
    ∧ (Mach.becomeOpen m s).sec.boots = m.sec.boots
    ∧ (Mach.becomeOpen m s).cab.creds = m.cab.creds := by
  unfold Mach.becomeOpen; try dsimp only
  simp only [↓keeps_doorTime, ↓keeps_endFault, ↓keeps_side, ↓keeps_startClose, ↓ite_mram, ↓ite_time_frame, ↓ite_sec_rollback, ↓ite_sec_boots, ↓ite_cab_creds, ↓ite_fst, ite_self, implies_true, and_self]

theorem keeps_doorStarting (m : Mach) (s : Ab) :
    (Mach.doorStarting m s).mram = m.mram
    ∧ (Mach.doorStarting m s).time.frame = m.time.frame
    ∧ (Mach.doorStarting m s).sec.rollback = m.sec.rollback
    ∧ (Mach.doorStarting m s).sec.boots = m.sec.boots
    ∧ (Mach.doorStarting m s).cab.creds = m.cab.creds := by
  unfold Mach.doorStarting; try dsimp only
  simp only [↓keeps_becomeClosed, ↓keeps_side, ↓ite_mram, ↓ite_time_frame, ↓ite_sec_rollback, ↓ite_sec_boots, ↓ite_cab_creds, ↓ite_fst, ite_self, implies_true, and_self]

theorem keeps_doorRestart (m : Mach) (s : Ab) :
    (Mach.doorRestart m s).mram = m.mram
    ∧ (Mach.doorRestart m s).time.frame = m.time.frame
    ∧ (Mach.doorRestart m s).sec.rollback = m.sec.rollback
    ∧ (Mach.doorRestart m s).sec.boots = m.sec.boots
    ∧ (Mach.doorRestart m s).cab.creds = m.cab.creds := by
  unfold Mach.doorRestart; try dsimp only
  simp only [↓keeps_learnFail, ↓keeps_side, ↓ite_mram, ↓ite_time_frame, ↓ite_sec_rollback, ↓ite_sec_boots, ↓ite_cab_creds, ↓ite_fst, ite_self, implies_true, and_self]

theorem keeps_doorBits (m : Mach) (s : Ab) :
    (Mach.doorBits m s).mram = m.mram
    ∧ (Mach.doorBits m s).time.frame = m.time.frame
    ∧ (Mach.doorBits m s).sec.rollback = m.sec.rollback
    ∧ (Mach.doorBits m s).sec.boots = m.sec.boots
    ∧ (Mach.doorBits m s).cab.creds = m.cab.creds := by
  unfold Mach.doorBits; try dsimp only
  simp only [↓keeps_side, ↓ite_mram, ↓ite_time_frame, ↓ite_sec_rollback, ↓ite_sec_boots, ↓ite_cab_creds, ↓ite_fst, ite_self, implies_true, and_self]

theorem keeps_doorFaulted (m : Mach) (s : Ab) :
    (Mach.doorFaulted m s).mram = m.mram
    ∧ (Mach.doorFaulted m s).time.frame = m.time.frame
    ∧ (Mach.doorFaulted m s).sec.rollback = m.sec.rollback
    ∧ (Mach.doorFaulted m s).sec.boots = m.sec.boots
    ∧ (Mach.doorFaulted m s).cab.creds = m.cab.creds := by
  unfold Mach.doorFaulted; try dsimp only
  simp only [↓keeps_side, ↓ite_mram, ↓ite_time_frame, ↓ite_sec_rollback, ↓ite_sec_boots, ↓ite_cab_creds, ↓ite_fst, ite_self, implies_true, and_self]

theorem keeps_doorGates (m : Mach) (s : Ab) :
    (Mach.doorGates m s).mram = m.mram
    ∧ (Mach.doorGates m s).time.frame = m.time.frame
    ∧ (Mach.doorGates m s).sec.rollback = m.sec.rollback
    ∧ (Mach.doorGates m s).sec.boots = m.sec.boots
    ∧ (Mach.doorGates m s).cab.creds = m.cab.creds := by
  unfold Mach.doorGates; try dsimp only
  simp only [↓keeps_doorFaulted, ↓keeps_doorRestart, ↓keeps_side, ↓ite_mram, ↓ite_time_frame, ↓ite_sec_rollback, ↓ite_sec_boots, ↓ite_cab_creds, ↓ite_fst, ite_self, implies_true, and_self]

theorem keeps_doorEnds (m : Mach) (s : Ab) :
    (Mach.doorEnds m s).mram = m.mram
    ∧ (Mach.doorEnds m s).time.frame = m.time.frame
    ∧ (Mach.doorEnds m s).sec.rollback = m.sec.rollback
    ∧ (Mach.doorEnds m s).sec.boots = m.sec.boots
    ∧ (Mach.doorEnds m s).cab.creds = m.cab.creds := by
  unfold Mach.doorEnds; try dsimp only
  simp only [↓keeps_endIf, ↓keeps_side, ↓ite_mram, ↓ite_time_frame, ↓ite_sec_rollback, ↓ite_sec_boots, ↓ite_cab_creds, ↓ite_fst, ite_self, implies_true, and_self]

theorem keeps_doorDemand (m : Mach) (s : Ab) (was : Bool) :
    (Mach.doorDemand m s was).mram = m.mram
    ∧ (Mach.doorDemand m s was).time.frame = m.time.frame
    ∧ (Mach.doorDemand m s was).sec.rollback = m.sec.rollback
    ∧ (Mach.doorDemand m s was).sec.boots = m.sec.boots
    ∧ (Mach.doorDemand m s was).cab.creds = m.cab.creds := by
  unfold Mach.doorDemand; try dsimp only
  simp only [↓keeps_side, ↓keeps_startClose, ↓ite_mram, ↓ite_time_frame, ↓ite_sec_rollback, ↓ite_sec_boots, ↓ite_cab_creds, ↓ite_fst, ite_self, implies_true, and_self]

theorem keeps_doorCommands (m : Mach) (s : Ab) (l : List Nat) :
    (Mach.doorCommands m s l).mram = m.mram
    ∧ (Mach.doorCommands m s l).time.frame = m.time.frame
    ∧ (Mach.doorCommands m s l).sec.rollback = m.sec.rollback
    ∧ (Mach.doorCommands m s l).sec.boots = m.sec.boots
    ∧ (Mach.doorCommands m s l).cab.creds = m.cab.creds := by
  unfold Mach.doorCommands; try dsimp only
  simp only [↓keeps_doorCommand, ↓keeps_startLearn, ↓ite_mram, ↓each_mram, ↓ite_time_frame, ↓each_time_frame, ↓ite_sec_rollback, ↓each_sec_rollback, ↓ite_sec_boots, ↓each_sec_boots, ↓ite_cab_creds, ↓each_cab_creds, ↓ite_fst, ite_self, implies_true, and_self]

theorem keeps_doorCalls (m : Mach) (s : Ab) :
    (Mach.doorCalls m s).mram = m.mram
    ∧ (Mach.doorCalls m s).time.frame = m.time.frame
    ∧ (Mach.doorCalls m s).sec.rollback = m.sec.rollback
    ∧ (Mach.doorCalls m s).sec.boots = m.sec.boots
    ∧ (Mach.doorCalls m s).cab.creds = m.cab.creds := by
  unfold Mach.doorCalls; try dsimp only
  simp only [↓keeps_doorCommand, ↓keeps_startOpen, ↓ite_mram, ↓ite_time_frame, ↓ite_sec_rollback, ↓ite_sec_boots, ↓ite_cab_creds, ↓ite_fst, ite_self, implies_true, and_self]

theorem keeps_doorCount (m : Mach) (s : Ab) :
    (Mach.doorCount m s).mram = m.mram
    ∧ (Mach.doorCount m s).time.frame = m.time.frame
    ∧ (Mach.doorCount m s).sec.rollback = m.sec.rollback
    ∧ (Mach.doorCount m s).sec.boots = m.sec.boots
    ∧ (Mach.doorCount m s).cab.creds = m.cab.creds := by
  unfold Mach.doorCount; try dsimp only
  simp only [↓keeps_side, ↓ite_mram, ↓ite_time_frame, ↓ite_sec_rollback, ↓ite_sec_boots, ↓ite_cab_creds, ↓ite_fst, ite_self, implies_true, and_self]

theorem keeps_learnPermit (m : Mach) (s : Ab) :
    (Mach.learnPermit m s).mram = m.mram
    ∧ (Mach.learnPermit m s).time.frame = m.time.frame
    ∧ (Mach.learnPermit m s).sec.rollback = m.sec.rollback
    ∧ (Mach.learnPermit m s).sec.boots = m.sec.boots
    ∧ (Mach.learnPermit m s).cab.creds = m.cab.creds := by
  unfold Mach.learnPermit; try dsimp only
  simp only [↓keeps_learnFail, ↓keeps_side, ↓ite_mram, ↓ite_time_frame, ↓ite_sec_rollback, ↓ite_sec_boots, ↓ite_cab_creds, ↓ite_fst, ite_self, implies_true, and_self]

theorem keeps_strokeEnds (m : Mach) (s : Ab) :
    (Mach.strokeEnds m s).mram = m.mram
    ∧ (Mach.strokeEnds m s).time.frame = m.time.frame
    ∧ (Mach.strokeEnds m s).sec.rollback = m.sec.rollback
    ∧ (Mach.strokeEnds m s).sec.boots = m.sec.boots
    ∧ (Mach.strokeEnds m s).cab.creds = m.cab.creds := by
  unfold Mach.strokeEnds; try dsimp only
  simp only [↓keeps_becomeClosed, ↓keeps_becomeOpen, ↓keeps_side, ↓ite_mram, ↓ite_time_frame, ↓ite_sec_rollback, ↓ite_sec_boots, ↓ite_cab_creds, ↓ite_fst, ite_self, implies_true, and_self]

theorem keeps_doorTick (m : Mach) (s : Ab) :
    (Mach.doorTick m s).mram = m.mram
    ∧ (Mach.doorTick m s).time.frame = m.time.frame
    ∧ (Mach.doorTick m s).sec.rollback = m.sec.rollback
    ∧ (Mach.doorTick m s).sec.boots = m.sec.boots
    ∧ (Mach.doorTick m s).cab.creds = m.cab.creds := by
  unfold Mach.doorTick; try dsimp only
  simp only [↓keeps_doorBits, ↓keeps_doorCalls, ↓keeps_doorCommands, ↓keeps_doorCount, ↓keeps_doorDemand, ↓keeps_doorEnds, ↓keeps_doorGates, ↓keeps_doorProfile, ↓keeps_doorStarting, ↓keeps_giveSp, ↓keeps_learnPermit, ↓keeps_openingBegun, ↓keeps_strokeEnds, ↓keeps_takeSp, ↓ite_mram, ↓ite_time_frame, ↓ite_sec_rollback, ↓ite_sec_boots, ↓ite_cab_creds, ↓ite_fst, ite_self, implies_true, and_self]

end Sys2Proof.Laws
end

