-- ==== Sys2Proof/Laws/KeepLearn.lean ====
section
/-!
SUPPORT. What the operations of Machine/Learn.lean leave alone of the MRAM, the frame count, the rollback
counter, the boot count and the credentials of the cabinet, and that they keep the canonical form of the MRAM.
-/
namespace Sys2Proof.Laws

open Sys2Proof Sys2Proof.Machine

set_option linter.all false
set_option linter.unreachableTactic false
set_option linter.unusedTactic false
theorem keeps_brakePlan (m : Mach) (kind : Nat) :
    (Mach.brakePlan m kind).1.mram = m.mram
    ∧ (Mach.brakePlan m kind).1.time.frame = m.time.frame
    ∧ (Mach.brakePlan m kind).1.sec.rollback = m.sec.rollback
    ∧ (Mach.brakePlan m kind).1.sec.boots = m.sec.boots
    ∧ (Mach.brakePlan m kind).1.cab.creds = m.cab.creds := by
  unfold Mach.brakePlan; try dsimp only
  simp only [↓keeps_loadPlan, ↓ite_mram, ↓ite_time_frame, ↓ite_sec_rollback, ↓ite_sec_boots, ↓ite_cab_creds, ↓ite_fst, ite_self, implies_true, and_self]

theorem keeps_longPlan (m : Mach) (kind : Nat) (t : Int) (fromRest : Bool) :
    (Mach.longPlan m kind t fromRest).1.mram = m.mram
    ∧ (Mach.longPlan m kind t fromRest).1.time.frame = m.time.frame
    ∧ (Mach.longPlan m kind t fromRest).1.sec.rollback = m.sec.rollback
    ∧ (Mach.longPlan m kind t fromRest).1.sec.boots = m.sec.boots
    ∧ (Mach.longPlan m kind t fromRest).1.cab.creds = m.cab.creds := by
  unfold Mach.longPlan; try dsimp only
  refine ⟨?_, ?_, ?_, ?_, ?_⟩ <;>
  (repeat' split) <;>
  first | with_reducible rfl | (simp only [↓keeps_loadPlan, ↓ite_mram, ↓ite_time_frame, ↓ite_sec_rollback, ↓ite_sec_boots, ↓ite_cab_creds, ↓ite_fst, ite_self, implies_true, and_self]; done)

theorem keeps_learnFrame (m : Mach) (prevP : Int) :
    (Mach.learnFrame m prevP).mram = m.mram
    ∧ (Mach.learnFrame m prevP).time.frame = m.time.frame
    ∧ (Mach.learnFrame m prevP).sec.rollback = m.sec.rollback
    ∧ (Mach.learnFrame m prevP).sec.boots = m.sec.boots
    ∧ (Mach.learnFrame m prevP).cab.creds = m.cab.creds := by
  unfold Mach.learnFrame; try dsimp only
  simp only [↓keeps_brakePlan, ↓keeps_endLearn, ↓keeps_longPlan, ↓ite_mram, ↓ite_time_frame, ↓ite_sec_rollback, ↓ite_sec_boots, ↓ite_cab_creds, ↓ite_fst, ite_self, implies_true, and_self]

theorem keeps_homePlan (m : Mach) :
    (Mach.homePlan m).mram = m.mram
    ∧ (Mach.homePlan m).time.frame = m.time.frame
    ∧ (Mach.homePlan m).sec.rollback = m.sec.rollback
    ∧ (Mach.homePlan m).sec.boots = m.sec.boots
    ∧ (Mach.homePlan m).cab.creds = m.cab.creds := by
  unfold Mach.homePlan; try dsimp only
  simp only [↓keeps_endHome, ↓keeps_longPlan, ↓ite_mram, ↓ite_time_frame, ↓ite_sec_rollback, ↓ite_sec_boots, ↓ite_cab_creds, ↓ite_fst, ite_self, implies_true, and_self]

theorem keeps_homeBrake (m : Mach) :
    (Mach.homeBrake m).mram = m.mram
    ∧ (Mach.homeBrake m).time.frame = m.time.frame
    ∧ (Mach.homeBrake m).sec.rollback = m.sec.rollback
    ∧ (Mach.homeBrake m).sec.boots = m.sec.boots
    ∧ (Mach.homeBrake m).cab.creds = m.cab.creds := by
  unfold Mach.homeBrake; try dsimp only
  simp only [↓keeps_brakePlan, ↓ite_mram, ↓ite_time_frame, ↓ite_sec_rollback, ↓ite_sec_boots, ↓ite_cab_creds, ↓ite_fst, ite_self, implies_true, and_self]

theorem keeps_homeReturn (m : Mach) (z : Int × Int) :
    (Mach.homeReturn m z).mram = m.mram
    ∧ (Mach.homeReturn m z).time.frame = m.time.frame
    ∧ (Mach.homeReturn m z).sec.rollback = m.sec.rollback
    ∧ (Mach.homeReturn m z).sec.boots = m.sec.boots
    ∧ (Mach.homeReturn m z).cab.creds = m.cab.creds := by
  unfold Mach.homeReturn; try dsimp only
  simp only [↓keeps_loadPlan, ↓ite_mram, ↓foldl_mram, ↓ite_time_frame, ↓foldl_time_frame, ↓ite_sec_rollback, ↓foldl_sec_rollback, ↓ite_sec_boots, ↓foldl_sec_boots, ↓ite_cab_creds, ↓foldl_cab_creds, ↓ite_fst, ite_self, implies_true, and_self]

theorem keeps_homeOn (m : Mach) :
    (Mach.homeOn m).mram = m.mram
    ∧ (Mach.homeOn m).time.frame = m.time.frame
    ∧ (Mach.homeOn m).sec.rollback = m.sec.rollback
    ∧ (Mach.homeOn m).sec.boots = m.sec.boots
    ∧ (Mach.homeOn m).cab.creds = m.cab.creds := by
  unfold Mach.homeOn; try dsimp only
  refine ⟨?_, ?_, ?_, ?_, ?_⟩ <;>
  (repeat' split) <;>
  first | with_reducible rfl | (simp only [↓keeps_endHome, ↓keeps_homeBrake, ↓keeps_homeReturn, ↓keeps_longPlan, ↓ite_mram, ↓ite_time_frame, ↓ite_sec_rollback, ↓ite_sec_boots, ↓ite_cab_creds, ↓ite_fst, ite_self, implies_true, and_self]; done)

theorem keeps_homeFrame (m : Mach) (prevP : Int) :
    (Mach.homeFrame m prevP).mram = m.mram
    ∧ (Mach.homeFrame m prevP).time.frame = m.time.frame
    ∧ (Mach.homeFrame m prevP).sec.rollback = m.sec.rollback
    ∧ (Mach.homeFrame m prevP).sec.boots = m.sec.boots
    ∧ (Mach.homeFrame m prevP).cab.creds = m.cab.creds := by
  unfold Mach.homeFrame; try dsimp only
  simp only [↓keeps_endHome, ↓keeps_homeOn, ↓keeps_homePlan, ↓ite_mram, ↓ite_time_frame, ↓ite_sec_rollback, ↓ite_sec_boots, ↓ite_cab_creds, ↓ite_fst, ite_self, implies_true, and_self]

theorem keeps_confirm (m : Mach) :
    (Mach.confirm m).mram = m.mram
    ∧ (Mach.confirm m).time.frame = m.time.frame
    ∧ (Mach.confirm m).sec.rollback = m.sec.rollback
    ∧ (Mach.confirm m).sec.boots = m.sec.boots
    ∧ (Mach.confirm m).cab.creds = m.cab.creds := by
  unfold Mach.confirm; try dsimp only
  simp only [↓keeps_endFault, ↓ite_mram, ↓ite_time_frame, ↓ite_sec_rollback, ↓ite_sec_boots, ↓ite_cab_creds, ↓ite_fst, ite_self, implies_true, and_self]

theorem keeps_stationPlan (m : Mach) (kind : Nat) (dir : Nat) (fromRest : Bool) :
    (Mach.stationPlan m kind dir fromRest).mram = m.mram
    ∧ (Mach.stationPlan m kind dir fromRest).time.frame = m.time.frame
    ∧ (Mach.stationPlan m kind dir fromRest).sec.rollback = m.sec.rollback
    ∧ (Mach.stationPlan m kind dir fromRest).sec.boots = m.sec.boots
    ∧ (Mach.stationPlan m kind dir fromRest).cab.creds = m.cab.creds := by
  unfold Mach.stationPlan; try dsimp only
  refine ⟨?_, ?_, ?_, ?_, ?_⟩ <;>
  (repeat' split) <;>
  first | with_reducible rfl | (simp only [↓keeps_longPlan, ↓ite_mram, ↓ite_time_frame, ↓ite_sec_rollback, ↓ite_sec_boots, ↓ite_cab_creds, ↓ite_fst, ite_self, implies_true, and_self]; done)

theorem keeps_stationFrame (m : Mach) :
    (Mach.stationFrame m).mram = m.mram
    ∧ (Mach.stationFrame m).time.frame = m.time.frame
    ∧ (Mach.stationFrame m).sec.rollback = m.sec.rollback
    ∧ (Mach.stationFrame m).sec.boots = m.sec.boots
    ∧ (Mach.stationFrame m).cab.creds = m.cab.creds := by
  unfold Mach.stationFrame; try dsimp only
  refine ⟨?_, ?_, ?_, ?_, ?_⟩ <;>
  (repeat' split) <;>
  first | with_reducible rfl | (simp only [↓keeps_cancelPlan, ↓keeps_stationPlan, ↓keeps_stopReq, ↓ite_mram, ↓ite_time_frame, ↓ite_sec_rollback, ↓ite_sec_boots, ↓ite_cab_creds, ↓ite_fst, ite_self, implies_true, and_self]; done)

theorem keeps_switchRuns (m : Mach) :
    (Mach.switchRuns m).mram = m.mram
    ∧ (Mach.switchRuns m).time.frame = m.time.frame
    ∧ (Mach.switchRuns m).sec.rollback = m.sec.rollback
    ∧ (Mach.switchRuns m).sec.boots = m.sec.boots
    ∧ (Mach.switchRuns m).cab.creds = m.cab.creds := by
  unfold Mach.switchRuns; try dsimp only
  simp only [↓ite_mram, ↓each_mram, ↓ite_time_frame, ↓each_time_frame, ↓ite_sec_rollback, ↓each_sec_rollback, ↓ite_sec_boots, ↓each_sec_boots, ↓ite_cab_creds, ↓each_cab_creds, ↓ite_fst, ite_self, implies_true, and_self]

theorem keeps_learnHazards (m : Mach) (limit : Bool) :
    (Mach.learnHazards m limit).mram = m.mram
    ∧ (Mach.learnHazards m limit).time.frame = m.time.frame
    ∧ (Mach.learnHazards m limit).sec.rollback = m.sec.rollback
    ∧ (Mach.learnHazards m limit).sec.boots = m.sec.boots
    ∧ (Mach.learnHazards m limit).cab.creds = m.cab.creds := by
  unfold Mach.learnHazards; try dsimp only
  simp only [↓keeps_raise, ↓ite_mram, ↓ite_time_frame, ↓ite_sec_rollback, ↓ite_sec_boots, ↓ite_cab_creds, ↓ite_fst, ite_self, implies_true, and_self]

end Sys2Proof.Laws
end

