-- ==== Sys2Proof/Laws/KeepSafetyFn.lean ====
section
/-!
SUPPORT. What the operations of Machine/SafetyFn.lean leave alone of the MRAM, the frame count, the rollback
counter, the boot count and the credentials of the cabinet, and that they keep the canonical form of the MRAM.
-/
namespace Sys2Proof.Laws

open Sys2Proof Sys2Proof.Machine

set_option linter.all false
set_option linter.unreachableTactic false
set_option linter.unusedTactic false
theorem keeps_core (m : Mach) (c : CoreId) (f : CoreState → CoreState) :
    (Mach.core m c f).mram = m.mram
    ∧ (Mach.core m c f).time.frame = m.time.frame
    ∧ (Mach.core m c f).sec.rollback = m.sec.rollback
    ∧ (Mach.core m c f).sec.boots = m.sec.boots
    ∧ (Mach.core m c f).cab.creds = m.cab.creds := by
  unfold Mach.core
  exact ⟨by with_reducible rfl, by with_reducible rfl, by with_reducible rfl, by with_reducible rfl, by with_reducible rfl⟩

theorem keeps_syncSafety (m : Mach) :
    (Mach.syncSafety m).mram = m.mram
    ∧ (Mach.syncSafety m).time.frame = m.time.frame
    ∧ (Mach.syncSafety m).sec.rollback = m.sec.rollback
    ∧ (Mach.syncSafety m).sec.boots = m.sec.boots
    ∧ (Mach.syncSafety m).cab.creds = m.cab.creds := by
  unfold Mach.syncSafety; try dsimp only
  simp only [↓keeps_endFault, ↓keeps_raise, ↓ite_mram, ↓each_mram, ↓ite_time_frame, ↓each_time_frame, ↓ite_sec_rollback, ↓each_sec_rollback, ↓ite_sec_boots, ↓each_sec_boots, ↓ite_cab_creds, ↓each_cab_creds, ↓ite_fst, ite_self, implies_true, and_self]

theorem keeps_setCore (m : Mach) (c : CoreId) (k : CoreState) :
    (Mach.setCore m c k).mram = m.mram
    ∧ (Mach.setCore m c k).time.frame = m.time.frame
    ∧ (Mach.setCore m c k).sec.rollback = m.sec.rollback
    ∧ (Mach.setCore m c k).sec.boots = m.sec.boots
    ∧ (Mach.setCore m c k).cab.creds = m.cab.creds := by
  unfold Mach.setCore
  exact ⟨by with_reducible rfl, by with_reducible rfl, by with_reducible rfl, by with_reducible rfl, by with_reducible rfl⟩

theorem keeps_outputs (m : Mach) :
    (Mach.outputs m).mram = m.mram
    ∧ (Mach.outputs m).time.frame = m.time.frame
    ∧ (Mach.outputs m).sec.rollback = m.sec.rollback
    ∧ (Mach.outputs m).sec.boots = m.sec.boots
    ∧ (Mach.outputs m).cab.creds = m.cab.creds := by
  unfold Mach.outputs; try dsimp only
  simp only [↓keeps_setCore, ↓keeps_syncSafety, ↓ite_mram, ↓each_mram, ↓ite_time_frame, ↓each_time_frame, ↓ite_sec_rollback, ↓each_sec_rollback, ↓ite_sec_boots, ↓each_sec_boots, ↓ite_cab_creds, ↓each_cab_creds, ↓ite_fst, ite_self, implies_true, and_self]

theorem keeps_judged (m : Mach) :
    (Mach.judged m).mram = m.mram
    ∧ (Mach.judged m).time.frame = m.time.frame
    ∧ (Mach.judged m).sec.rollback = m.sec.rollback
    ∧ (Mach.judged m).sec.boots = m.sec.boots
    ∧ (Mach.judged m).cab.creds = m.cab.creds := by
  unfold Mach.judged; try dsimp only
  simp only [↓keeps_outputs, ↓keeps_syncSafety, ↓ite_mram, ↓ite_time_frame, ↓ite_sec_rollback, ↓ite_sec_boots, ↓ite_cab_creds, ↓ite_fst, ite_self, implies_true, and_self]

theorem keeps_takeRequests (m : Mach) :
    (Mach.takeRequests m).mram = m.mram
    ∧ (Mach.takeRequests m).time.frame = m.time.frame
    ∧ (Mach.takeRequests m).sec.rollback = m.sec.rollback
    ∧ (Mach.takeRequests m).sec.boots = m.sec.boots
    ∧ (Mach.takeRequests m).cab.creds = m.cab.creds := by
  unfold Mach.takeRequests; try dsimp only
  simp only [↓ite_mram, ↓ite_time_frame, ↓ite_sec_rollback, ↓ite_sec_boots, ↓ite_cab_creds, ↓ite_fst, ite_self, implies_true, and_self]

theorem keeps_lockClocks (m : Mach) :
    (Mach.lockClocks m).mram = m.mram
    ∧ (Mach.lockClocks m).time.frame = m.time.frame
    ∧ (Mach.lockClocks m).sec.rollback = m.sec.rollback
    ∧ (Mach.lockClocks m).sec.boots = m.sec.boots
    ∧ (Mach.lockClocks m).cab.creds = m.cab.creds := by
  unfold Mach.lockClocks; try dsimp only
  simp only [↓ite_mram, ↓ite_time_frame, ↓ite_sec_rollback, ↓ite_sec_boots, ↓ite_cab_creds, ↓ite_fst, ite_self, implies_true, and_self]

theorem keeps_safetyFrame (m : Mach) :
    (Mach.safetyFrame m).mram = m.mram
    ∧ (Mach.safetyFrame m).time.frame = m.time.frame
    ∧ (Mach.safetyFrame m).sec.rollback = m.sec.rollback
    ∧ (Mach.safetyFrame m).sec.boots = m.sec.boots
    ∧ (Mach.safetyFrame m).cab.creds = m.cab.creds := by
  unfold Mach.safetyFrame; try dsimp only
  simp only [↓keeps_endFault, ↓keeps_judged, ↓keeps_lockClocks, ↓keeps_setCore, ↓ite_mram, ↓each_mram, ↓ite_time_frame, ↓each_time_frame, ↓ite_sec_rollback, ↓each_sec_rollback, ↓ite_sec_boots, ↓each_sec_boots, ↓ite_cab_creds, ↓each_cab_creds, ↓ite_fst, ite_self, implies_true, and_self]

theorem keeps_takeBits (m0 : Mach) :
    (Mach.takeBits m0).mram = m0.mram
    ∧ (Mach.takeBits m0).time.frame = m0.time.frame
    ∧ (Mach.takeBits m0).sec.rollback = m0.sec.rollback
    ∧ (Mach.takeBits m0).sec.boots = m0.sec.boots
    ∧ (Mach.takeBits m0).cab.creds = m0.cab.creds := by
  unfold Mach.takeBits
  exact ⟨by with_reducible rfl, by with_reducible rfl, by with_reducible rfl, by with_reducible rfl, by with_reducible rfl⟩

theorem keeps_voted (m : Mach) (bits : Nat) (lt : Nat) :
    (Mach.voted m bits lt).mram = m.mram
    ∧ (Mach.voted m bits lt).time.frame = m.time.frame
    ∧ (Mach.voted m bits lt).sec.rollback = m.sec.rollback
    ∧ (Mach.voted m bits lt).sec.boots = m.sec.boots
    ∧ (Mach.voted m bits lt).cab.creds = m.cab.creds := by
  unfold Mach.voted; try dsimp only
  simp only [↓keeps_setCore, ↓keeps_syncSafety, ↓ite_mram, ↓each_mram, ↓ite_time_frame, ↓each_time_frame, ↓ite_sec_rollback, ↓each_sec_rollback, ↓ite_sec_boots, ↓each_sec_boots, ↓ite_cab_creds, ↓each_cab_creds, ↓ite_fst, ite_self, implies_true, and_self]

theorem keeps_resetOthers (m : Mach) :
    (Mach.resetOthers m).mram = m.mram
    ∧ (Mach.resetOthers m).time.frame = m.time.frame
    ∧ (Mach.resetOthers m).sec.rollback = m.sec.rollback
    ∧ (Mach.resetOthers m).sec.boots = m.sec.boots
    ∧ (Mach.resetOthers m).cab.creds = m.cab.creds := by
  unfold Mach.resetOthers; try dsimp only
  simp only [↓keeps_endIf, ↓ite_mram, ↓ite_time_frame, ↓ite_sec_rollback, ↓ite_sec_boots, ↓ite_cab_creds, ↓ite_fst, ite_self, implies_true, and_self]

theorem keeps_setLock (m : Mach) (r : LockRec) :
    (Mach.setLock m r).mram = m.mram
    ∧ (Mach.setLock m r).time.frame = m.time.frame
    ∧ (Mach.setLock m r).sec.rollback = m.sec.rollback
    ∧ (Mach.setLock m r).sec.boots = m.sec.boots
    ∧ (Mach.setLock m r).cab.creds = m.cab.creds := by
  unfold Mach.setLock
  exact ⟨by with_reducible rfl, by with_reducible rfl, by with_reducible rfl, by with_reducible rfl, by with_reducible rfl⟩

end Sys2Proof.Laws
end

