-- ==== Sys2Proof/Laws/KeepCabinet.lean ====
section
/-!
SUPPORT. What the operations of Machine/Cabinet.lean leave alone of the MRAM, the frame count, the rollback
counter, the boot count and the credentials of the cabinet, and that they keep the canonical form of the MRAM.
-/
namespace Sys2Proof.Laws

open Sys2Proof Sys2Proof.Machine

set_option linter.all false
set_option linter.unreachableTactic false
set_option linter.unusedTactic false
theorem keeps_logAppend (m : Mach) (f : LogFields) (old : Option (List Nat)) (new : Option (List Nat)) :
    (Mach.logAppend m f old new).time.frame = m.time.frame
    ∧ (Mach.logAppend m f old new).sec.rollback = m.sec.rollback
    ∧ (Mach.logAppend m f old new).sec.boots = m.sec.boots
    ∧ (Mach.logAppend m f old new).cab.creds = m.cab.creds := by
  unfold Mach.logAppend; try dsimp only
  simp only [↓keeps_poke, ↓ite_time_frame, ↓ite_sec_rollback, ↓ite_sec_boots, ↓ite_cab_creds, ↓ite_fst, ite_self, implies_true, and_self]

theorem wf_logAppend (m : Mach) (f : LogFields) (old : Option (List Nat)) (new : Option (List Nat)) (hw : Memory.wf m.mram = true) :
    Memory.wf (Mach.logAppend m f old new).mram = true := by
  unfold Mach.logAppend; try dsimp only
  all_goals repeat' first | with_reducible exact hw | with_reducible exact w | with_reducible apply wf_poke | with_reducible apply wf_ite | simp only [↓when_mram, ↓ite_mram, ↓ite_fst] | split | dsimp only

theorem keeps_logStatus (m : Mach) (seq : Nat) (st : Nat) :
    (Mach.logStatus m seq st).time.frame = m.time.frame
    ∧ (Mach.logStatus m seq st).sec.rollback = m.sec.rollback
    ∧ (Mach.logStatus m seq st).sec.boots = m.sec.boots
    ∧ (Mach.logStatus m seq st).cab.creds = m.cab.creds := by
  unfold Mach.logStatus; try dsimp only
  simp only [↓keeps_poke, ↓ite_time_frame, ↓ite_sec_rollback, ↓ite_sec_boots, ↓ite_cab_creds, ↓ite_fst, ite_self, implies_true, and_self]

theorem wf_logStatus (m : Mach) (seq : Nat) (st : Nat) (hw : Memory.wf m.mram = true) :
    Memory.wf (Mach.logStatus m seq st).mram = true := by
  unfold Mach.logStatus; try dsimp only
  all_goals repeat' first | with_reducible exact hw | with_reducible exact w | with_reducible apply wf_poke | with_reducible apply wf_ite | simp only [↓when_mram, ↓ite_mram, ↓ite_fst] | split | dsimp only

theorem keeps_logEvent (m : Mach) (kind : Nat) (slot : Nat) (unit : Nat) :
    (Mach.logEvent m kind slot unit).time.frame = m.time.frame
    ∧ (Mach.logEvent m kind slot unit).sec.rollback = m.sec.rollback
    ∧ (Mach.logEvent m kind slot unit).sec.boots = m.sec.boots
    ∧ (Mach.logEvent m kind slot unit).cab.creds = m.cab.creds := by
  unfold Mach.logEvent; try dsimp only
  simp only [↓keeps_logAppend, ↓ite_time_frame, ↓ite_sec_rollback, ↓ite_sec_boots, ↓ite_cab_creds, ↓ite_fst, ite_self, implies_true, and_self]

theorem wf_logEvent (m : Mach) (kind : Nat) (slot : Nat) (unit : Nat) (hw : Memory.wf m.mram = true) :
    Memory.wf (Mach.logEvent m kind slot unit).mram = true := by
  unfold Mach.logEvent; try dsimp only
  all_goals repeat' first | with_reducible exact hw | with_reducible exact w | with_reducible apply wf_logAppend | with_reducible apply wf_ite | simp only [↓when_mram, ↓ite_mram, ↓ite_fst] | split | dsimp only

theorem keeps_writeBlocks (m : Mach) (l : List Cred) (k : Nat × Nat) :
    (Mach.writeBlocks m l k).mram = m.mram
    ∧ (Mach.writeBlocks m l k).time.frame = m.time.frame
    ∧ (Mach.writeBlocks m l k).sec.rollback = m.sec.rollback
    ∧ (Mach.writeBlocks m l k).sec.boots = m.sec.boots := by
  unfold Mach.writeBlocks; try dsimp only
  simp only [↓keeps_written, ↓ite_mram, ↓ite_time_frame, ↓ite_sec_rollback, ↓ite_sec_boots, ↓ite_fst, ite_self, implies_true, and_self]

theorem keeps_saveLock (m : Mach) (fails : Nat) (left : Nat) :
    (Mach.saveLock m fails left).mram = m.mram
    ∧ (Mach.saveLock m fails left).time.frame = m.time.frame
    ∧ (Mach.saveLock m fails left).sec.rollback = m.sec.rollback
    ∧ (Mach.saveLock m fails left).sec.boots = m.sec.boots
    ∧ (Mach.saveLock m fails left).cab.creds = m.cab.creds := by
  unfold Mach.saveLock
  exact ⟨by with_reducible rfl, by with_reducible rfl, by with_reducible rfl, by with_reducible rfl, by with_reducible rfl⟩

theorem keeps_writeCopy (m : Mach) (x : Ab) (mark : Bool) (gen : Nat) (vals : List ParamCell) :
    (Mach.writeCopy m x mark gen vals).mram = m.mram
    ∧ (Mach.writeCopy m x mark gen vals).time.frame = m.time.frame
    ∧ (Mach.writeCopy m x mark gen vals).sec.rollback = m.sec.rollback
    ∧ (Mach.writeCopy m x mark gen vals).sec.boots = m.sec.boots
    ∧ (Mach.writeCopy m x mark gen vals).cab.creds = m.cab.creds := by
  unfold Mach.writeCopy; try dsimp only
  simp only [↓keeps_written, ↓ite_mram, ↓ite_time_frame, ↓ite_sec_rollback, ↓ite_sec_boots, ↓ite_cab_creds, ↓ite_fst, ite_self, implies_true, and_self]

theorem keeps_drawSalt (m : Mach) :
    (Mach.drawSalt m).1.mram = m.mram
    ∧ (Mach.drawSalt m).1.time.frame = m.time.frame
    ∧ (Mach.drawSalt m).1.sec.rollback = m.sec.rollback
    ∧ (Mach.drawSalt m).1.sec.boots = m.sec.boots
    ∧ (Mach.drawSalt m).1.cab.creds = m.cab.creds := by
  unfold Mach.drawSalt
  exact ⟨by with_reducible rfl, by with_reducible rfl, by with_reducible rfl, by with_reducible rfl, by with_reducible rfl⟩

theorem keeps_loginFailed (m : Mach) (tag : Nat) (slot : Nat) :
    (Mach.loginFailed m tag slot).mram = m.mram
    ∧ (Mach.loginFailed m tag slot).time.frame = m.time.frame
    ∧ (Mach.loginFailed m tag slot).sec.rollback = m.sec.rollback
    ∧ (Mach.loginFailed m tag slot).sec.boots = m.sec.boots
    ∧ (Mach.loginFailed m tag slot).cab.creds = m.cab.creds := by
  unfold Mach.loginFailed; try dsimp only
  simp only [↓keeps_completed, ↓keeps_post, ↓keeps_raise, ↓keeps_saveLock, ↓ite_mram, ↓ite_time_frame, ↓ite_sec_rollback, ↓ite_sec_boots, ↓ite_cab_creds, ↓ite_fst, ite_self, implies_true, and_self]

theorem keeps_endSession (m : Mach) (cause : Nat) :
    (Mach.endSession m cause).mram = m.mram
    ∧ (Mach.endSession m cause).time.frame = m.time.frame
    ∧ (Mach.endSession m cause).sec.rollback = m.sec.rollback
    ∧ (Mach.endSession m cause).sec.boots = m.sec.boots
    ∧ (Mach.endSession m cause).cab.creds = m.cab.creds := by
  unfold Mach.endSession; try dsimp only
  simp only [↓keeps_endBenches, ↓keeps_endLearn, ↓keeps_post, ↓ite_mram, ↓ite_time_frame, ↓ite_sec_rollback, ↓ite_sec_boots, ↓ite_cab_creds, ↓ite_fst, ite_self, implies_true, and_self]

end Sys2Proof.Laws
end

