-- ==== Sys2Proof/Laws/KeepChannels.lean ====
section
/-!
SUPPORT. What the operations of Machine/Channels.lean leave alone of the MRAM, the frame count, the rollback
counter, the boot count and the credentials of the cabinet, and that they keep the canonical form of the MRAM.
-/
namespace Sys2Proof.Laws

open Sys2Proof Sys2Proof.Machine

set_option linter.all false
set_option linter.unreachableTactic false
set_option linter.unusedTactic false
theorem keeps_queueCfg (m : Mach) (l : List Nat) :
    (Mach.queueCfg m l).mram = m.mram
    ∧ (Mach.queueCfg m l).time.frame = m.time.frame
    ∧ (Mach.queueCfg m l).sec.rollback = m.sec.rollback
    ∧ (Mach.queueCfg m l).sec.boots = m.sec.boots
    ∧ (Mach.queueCfg m l).cab.creds = m.cab.creds := by
  unfold Mach.queueCfg
  exact ⟨by with_reducible rfl, by with_reducible rfl, by with_reducible rfl, by with_reducible rfl, by with_reducible rfl⟩

theorem keeps_queueAllCfg (m : Mach) :
    (Mach.queueAllCfg m).mram = m.mram
    ∧ (Mach.queueAllCfg m).time.frame = m.time.frame
    ∧ (Mach.queueAllCfg m).sec.rollback = m.sec.rollback
    ∧ (Mach.queueAllCfg m).sec.boots = m.sec.boots
    ∧ (Mach.queueAllCfg m).cab.creds = m.cab.creds := by
  unfold Mach.queueAllCfg; try dsimp only
  simp only [↓keeps_queueCfg, ↓ite_mram, ↓ite_time_frame, ↓ite_sec_rollback, ↓ite_sec_boots, ↓ite_cab_creds, ↓ite_fst, ite_self, implies_true, and_self]

theorem keeps_report (m : Mach) (unit : Nat) (code : Nat) (cls : Nat) :
    (Mach.report m unit code cls).mram = m.mram
    ∧ (Mach.report m unit code cls).time.frame = m.time.frame
    ∧ (Mach.report m unit code cls).sec.rollback = m.sec.rollback
    ∧ (Mach.report m unit code cls).sec.boots = m.sec.boots
    ∧ (Mach.report m unit code cls).cab.creds = m.cab.creds := by
  unfold Mach.report
  exact ⟨by with_reducible rfl, by with_reducible rfl, by with_reducible rfl, by with_reducible rfl, by with_reducible rfl⟩

theorem keeps_reportEnd (m : Mach) (unit : Nat) (code : Nat) :
    (Mach.reportEnd m unit code).mram = m.mram
    ∧ (Mach.reportEnd m unit code).time.frame = m.time.frame
    ∧ (Mach.reportEnd m unit code).sec.rollback = m.sec.rollback
    ∧ (Mach.reportEnd m unit code).sec.boots = m.sec.boots
    ∧ (Mach.reportEnd m unit code).cab.creds = m.cab.creds := by
  unfold Mach.reportEnd
  exact ⟨by with_reducible rfl, by with_reducible rfl, by with_reducible rfl, by with_reducible rfl, by with_reducible rfl⟩

theorem keeps_takeReports (m : Mach) :
    (Mach.takeReports m).mram = m.mram
    ∧ (Mach.takeReports m).time.frame = m.time.frame
    ∧ (Mach.takeReports m).sec.rollback = m.sec.rollback
    ∧ (Mach.takeReports m).sec.boots = m.sec.boots
    ∧ (Mach.takeReports m).cab.creds = m.cab.creds := by
  unfold Mach.takeReports; try dsimp only
  simp only [↓keeps_endFault, ↓keeps_raise, ↓ite_mram, ↓each_mram, ↓ite_time_frame, ↓each_time_frame, ↓ite_sec_rollback, ↓each_sec_rollback, ↓ite_sec_boots, ↓each_sec_boots, ↓ite_cab_creds, ↓each_cab_creds, ↓ite_fst, ite_self, implies_true, and_self]

theorem keeps_holdAt (m : Mach) (code : Nat) (cls : Nat) :
    (Mach.holdAt m code cls).mram = m.mram
    ∧ (Mach.holdAt m code cls).time.frame = m.time.frame
    ∧ (Mach.holdAt m code cls).sec.rollback = m.sec.rollback
    ∧ (Mach.holdAt m code cls).sec.boots = m.sec.boots
    ∧ (Mach.holdAt m code cls).cab.creds = m.cab.creds := by
  unfold Mach.holdAt; try dsimp only
  simp only [↓keeps_raise, ↓ite_mram, ↓ite_time_frame, ↓ite_sec_rollback, ↓ite_sec_boots, ↓ite_cab_creds, ↓ite_fst, ite_self, implies_true, and_self]

theorem keeps_takeSupplies (m : Mach) :
    (Mach.takeSupplies m).mram = m.mram
    ∧ (Mach.takeSupplies m).time.frame = m.time.frame
    ∧ (Mach.takeSupplies m).sec.rollback = m.sec.rollback
    ∧ (Mach.takeSupplies m).sec.boots = m.sec.boots
    ∧ (Mach.takeSupplies m).cab.creds = m.cab.creds := by
  unfold Mach.takeSupplies; try dsimp only
  simp only [↓keeps_endFault, ↓keeps_endIf, ↓keeps_holdAt, ↓keeps_raise, ↓ite_mram, ↓each_mram, ↓ite_time_frame, ↓each_time_frame, ↓ite_sec_rollback, ↓each_sec_rollback, ↓ite_sec_boots, ↓each_sec_boots, ↓ite_cab_creds, ↓each_cab_creds, ↓ite_fst, ite_self, implies_true, and_self]

theorem keeps_drive (m : Mach) (c : Nat) (on : Bool) :
    (Mach.drive m c on).mram = m.mram
    ∧ (Mach.drive m c on).time.frame = m.time.frame
    ∧ (Mach.drive m c on).sec.rollback = m.sec.rollback
    ∧ (Mach.drive m c on).sec.boots = m.sec.boots
    ∧ (Mach.drive m c on).cab.creds = m.cab.creds := by
  unfold Mach.drive; try dsimp only
  simp only [↓keeps_count, ↓ite_mram, ↓ite_time_frame, ↓ite_sec_rollback, ↓ite_sec_boots, ↓ite_cab_creds, ↓ite_fst, ite_self, implies_true, and_self]

theorem keeps_driveAll (m : Mach) (l : List Nat) :
    (Mach.driveAll m l).mram = m.mram
    ∧ (Mach.driveAll m l).time.frame = m.time.frame
    ∧ (Mach.driveAll m l).sec.rollback = m.sec.rollback
    ∧ (Mach.driveAll m l).sec.boots = m.sec.boots
    ∧ (Mach.driveAll m l).cab.creds = m.cab.creds := by
  unfold Mach.driveAll; try dsimp only
  simp only [↓keeps_drive, ↓ite_mram, ↓each_mram, ↓ite_time_frame, ↓each_time_frame, ↓ite_sec_rollback, ↓each_sec_rollback, ↓ite_sec_boots, ↓each_sec_boots, ↓ite_cab_creds, ↓each_cab_creds, ↓ite_fst, ite_self, implies_true, and_self]

theorem keeps_allOff (m : Mach) (l : List Nat) :
    (Mach.allOff m l).mram = m.mram
    ∧ (Mach.allOff m l).time.frame = m.time.frame
    ∧ (Mach.allOff m l).sec.rollback = m.sec.rollback
    ∧ (Mach.allOff m l).sec.boots = m.sec.boots
    ∧ (Mach.allOff m l).cab.creds = m.cab.creds := by
  unfold Mach.allOff; try dsimp only
  simp only [↓keeps_drive, ↓ite_mram, ↓each_mram, ↓ite_time_frame, ↓each_time_frame, ↓ite_sec_rollback, ↓each_sec_rollback, ↓ite_sec_boots, ↓each_sec_boots, ↓ite_cab_creds, ↓each_cab_creds, ↓ite_fst, ite_self, implies_true, and_self]

theorem keeps_driveSafe (m : Mach) (c : Nat) :
    (Mach.driveSafe m c).mram = m.mram
    ∧ (Mach.driveSafe m c).time.frame = m.time.frame
    ∧ (Mach.driveSafe m c).sec.rollback = m.sec.rollback
    ∧ (Mach.driveSafe m c).sec.boots = m.sec.boots
    ∧ (Mach.driveSafe m c).cab.creds = m.cab.creds := by
  unfold Mach.driveSafe; try dsimp only
  simp only [↓keeps_drive, ↓ite_mram, ↓ite_time_frame, ↓ite_sec_rollback, ↓ite_sec_boots, ↓ite_cab_creds, ↓ite_fst, ite_self, implies_true, and_self]

theorem keeps_safeStates (m : Mach) :
    (Mach.safeStates m).mram = m.mram
    ∧ (Mach.safeStates m).time.frame = m.time.frame
    ∧ (Mach.safeStates m).sec.rollback = m.sec.rollback
    ∧ (Mach.safeStates m).sec.boots = m.sec.boots
    ∧ (Mach.safeStates m).cab.creds = m.cab.creds := by
  unfold Mach.safeStates; try dsimp only
  simp only [↓keeps_driveSafe, ↓ite_mram, ↓each_mram, ↓ite_time_frame, ↓each_time_frame, ↓ite_sec_rollback, ↓each_sec_rollback, ↓ite_sec_boots, ↓each_sec_boots, ↓ite_cab_creds, ↓each_cab_creds, ↓ite_fst, ite_self, implies_true, and_self]

theorem keeps_vfSample (m : Mach) (d : Ab) (v : Nat) :
    (Mach.vfSample m d v).mram = m.mram
    ∧ (Mach.vfSample m d v).time.frame = m.time.frame
    ∧ (Mach.vfSample m d v).sec.rollback = m.sec.rollback
    ∧ (Mach.vfSample m d v).sec.boots = m.sec.boots
    ∧ (Mach.vfSample m d v).cab.creds = m.cab.creds := by
  unfold Mach.vfSample
  exact ⟨by with_reducible rfl, by with_reducible rfl, by with_reducible rfl, by with_reducible rfl, by with_reducible rfl⟩

theorem keeps_supplyThreshold (m : Mach) (d : Ab) (s1 : Nat) (s2 : Nat) :
    (Mach.supplyThreshold m d s1 s2).mram = m.mram
    ∧ (Mach.supplyThreshold m d s1 s2).time.frame = m.time.frame
    ∧ (Mach.supplyThreshold m d s1 s2).sec.rollback = m.sec.rollback
    ∧ (Mach.supplyThreshold m d s1 s2).sec.boots = m.sec.boots
    ∧ (Mach.supplyThreshold m d s1 s2).cab.creds = m.cab.creds := by
  unfold Mach.supplyThreshold; try dsimp only
  simp only [↓keeps_allOff, ↓keeps_vfSample, ↓ite_mram, ↓ite_time_frame, ↓ite_sec_rollback, ↓ite_sec_boots, ↓ite_cab_creds, ↓ite_fst, ite_self, implies_true, and_self]

theorem keeps_rearm (m : Mach) (target : Nat) :
    (Mach.rearm m target).mram = m.mram
    ∧ (Mach.rearm m target).time.frame = m.time.frame
    ∧ (Mach.rearm m target).sec.rollback = m.sec.rollback
    ∧ (Mach.rearm m target).sec.boots = m.sec.boots
    ∧ (Mach.rearm m target).cab.creds = m.cab.creds := by
  unfold Mach.rearm; try dsimp only
  simp only [↓keeps_reportEnd, ↓ite_mram, ↓each_mram, ↓ite_time_frame, ↓each_time_frame, ↓ite_sec_rollback, ↓each_sec_rollback, ↓ite_sec_boots, ↓each_sec_boots, ↓ite_cab_creds, ↓each_cab_creds, ↓ite_fst, ite_self, implies_true, and_self]

theorem keeps_wireEnds (m : Mach) (c : Nat) (samples : Nat) :
    (Mach.wireEnds m c samples).mram = m.mram
    ∧ (Mach.wireEnds m c samples).time.frame = m.time.frame
    ∧ (Mach.wireEnds m c samples).sec.rollback = m.sec.rollback
    ∧ (Mach.wireEnds m c samples).sec.boots = m.sec.boots
    ∧ (Mach.wireEnds m c samples).cab.creds = m.cab.creds := by
  unfold Mach.wireEnds; try dsimp only
  simp only [↓keeps_reportEnd, ↓ite_mram, ↓ite_time_frame, ↓ite_sec_rollback, ↓ite_sec_boots, ↓ite_cab_creds, ↓ite_fst, ite_self, implies_true, and_self]

theorem keeps_debounced (m : Mach) (c : Nat) (level : Option Bool) (samples : Nat) :
    (Mach.debounced m c level samples).mram = m.mram
    ∧ (Mach.debounced m c level samples).time.frame = m.time.frame
    ∧ (Mach.debounced m c level samples).sec.rollback = m.sec.rollback
    ∧ (Mach.debounced m c level samples).sec.boots = m.sec.boots
    ∧ (Mach.debounced m c level samples).cab.creds = m.cab.creds := by
  unfold Mach.debounced; try dsimp only
  refine ⟨?_, ?_, ?_, ?_, ?_⟩ <;>
  (repeat' split) <;>
  first | with_reducible rfl | (simp only [↓keeps_count, ↓ite_mram, ↓ite_time_frame, ↓ite_sec_rollback, ↓ite_sec_boots, ↓ite_cab_creds, ↓ite_fst, ite_self, implies_true, and_self]; done)

theorem keeps_wireBreak (m : Mach) (c : Nat) (samples : Nat) :
    (Mach.wireBreak m c samples).mram = m.mram
    ∧ (Mach.wireBreak m c samples).time.frame = m.time.frame
    ∧ (Mach.wireBreak m c samples).sec.rollback = m.sec.rollback
    ∧ (Mach.wireBreak m c samples).sec.boots = m.sec.boots
    ∧ (Mach.wireBreak m c samples).cab.creds = m.cab.creds := by
  unfold Mach.wireBreak; try dsimp only
  simp only [↓keeps_debounced, ↓keeps_report, ↓ite_mram, ↓ite_time_frame, ↓ite_sec_rollback, ↓ite_sec_boots, ↓ite_cab_creds, ↓ite_fst, ite_self, implies_true, and_self]

theorem keeps_limitOff (m : Mach) (c : Nat) :
    (Mach.limitOff m c).mram = m.mram
    ∧ (Mach.limitOff m c).time.frame = m.time.frame
    ∧ (Mach.limitOff m c).sec.rollback = m.sec.rollback
    ∧ (Mach.limitOff m c).sec.boots = m.sec.boots
    ∧ (Mach.limitOff m c).cab.creds = m.cab.creds := by
  unfold Mach.limitOff; try dsimp only
  simp only [↓keeps_drive, ↓ite_mram, ↓ite_time_frame, ↓ite_sec_rollback, ↓ite_sec_boots, ↓ite_cab_creds, ↓ite_fst, ite_self, implies_true, and_self]

theorem keeps_readBack (m : Mach) (c : Nat) (mv : Nat) :
    (Mach.readBack m c mv).mram = m.mram
    ∧ (Mach.readBack m c mv).time.frame = m.time.frame
    ∧ (Mach.readBack m c mv).sec.rollback = m.sec.rollback
    ∧ (Mach.readBack m c mv).sec.boots = m.sec.boots
    ∧ (Mach.readBack m c mv).cab.creds = m.cab.creds := by
  unfold Mach.readBack; try dsimp only
  simp only [↓ite_mram, ↓ite_time_frame, ↓ite_sec_rollback, ↓ite_sec_boots, ↓ite_cab_creds, ↓ite_fst, ite_self, implies_true, and_self]

theorem keeps_shortOver (m : Mach) (c : Nat) :
    (Mach.shortOver m c).mram = m.mram
    ∧ (Mach.shortOver m c).time.frame = m.time.frame
    ∧ (Mach.shortOver m c).sec.rollback = m.sec.rollback
    ∧ (Mach.shortOver m c).sec.boots = m.sec.boots
    ∧ (Mach.shortOver m c).cab.creds = m.cab.creds := by
  unfold Mach.shortOver; try dsimp only
  simp only [↓keeps_reportEnd, ↓ite_mram, ↓ite_time_frame, ↓ite_sec_rollback, ↓ite_sec_boots, ↓ite_cab_creds, ↓ite_fst, ite_self, implies_true, and_self]

theorem keeps_shortTick (m : Mach) (c : Nat) :
    (Mach.shortTick m c).mram = m.mram
    ∧ (Mach.shortTick m c).time.frame = m.time.frame
    ∧ (Mach.shortTick m c).sec.rollback = m.sec.rollback
    ∧ (Mach.shortTick m c).sec.boots = m.sec.boots
    ∧ (Mach.shortTick m c).cab.creds = m.cab.creds := by
  unfold Mach.shortTick; try dsimp only
  simp only [↓keeps_shortOver, ↓ite_mram, ↓ite_time_frame, ↓ite_sec_rollback, ↓ite_sec_boots, ↓ite_cab_creds, ↓ite_fst, ite_self, implies_true, and_self]

theorem keeps_pulseStart (m : Mach) :
    (Mach.pulseStart m).mram = m.mram
    ∧ (Mach.pulseStart m).time.frame = m.time.frame
    ∧ (Mach.pulseStart m).sec.rollback = m.sec.rollback
    ∧ (Mach.pulseStart m).sec.boots = m.sec.boots
    ∧ (Mach.pulseStart m).cab.creds = m.cab.creds := by
  unfold Mach.pulseStart; try dsimp only
  refine ⟨?_, ?_, ?_, ?_, ?_⟩ <;>
  (repeat' split) <;>
  first | with_reducible rfl | (simp only [↓ite_mram, ↓ite_time_frame, ↓ite_sec_rollback, ↓ite_sec_boots, ↓ite_cab_creds, ↓ite_fst, ite_self, implies_true, and_self]; done)

theorem keeps_uncross (m : Mach) (c : Nat) (code : Nat) :
    (Mach.uncross m c code).mram = m.mram
    ∧ (Mach.uncross m c code).time.frame = m.time.frame
    ∧ (Mach.uncross m c code).sec.rollback = m.sec.rollback
    ∧ (Mach.uncross m c code).sec.boots = m.sec.boots
    ∧ (Mach.uncross m c code).cab.creds = m.cab.creds := by
  unfold Mach.uncross; try dsimp only
  simp only [↓keeps_reportEnd, ↓ite_mram, ↓ite_time_frame, ↓ite_sec_rollback, ↓ite_sec_boots, ↓ite_cab_creds, ↓ite_fst, ite_self, implies_true, and_self]

theorem keeps_markCross (m : Mach) (c : Nat) :
    (Mach.markCross m c).mram = m.mram
    ∧ (Mach.markCross m c).time.frame = m.time.frame
    ∧ (Mach.markCross m c).sec.rollback = m.sec.rollback
    ∧ (Mach.markCross m c).sec.boots = m.sec.boots
    ∧ (Mach.markCross m c).cab.creds = m.cab.creds := by
  unfold Mach.markCross; try dsimp only
  simp only [↓keeps_reportEnd, ↓ite_mram, ↓ite_time_frame, ↓ite_sec_rollback, ↓ite_sec_boots, ↓ite_cab_creds, ↓ite_fst, ite_self, implies_true, and_self]

theorem keeps_checkInputs (m : Mach) (c : Nat) (ins : Nat) (inp : PulseIn) :
    (Mach.checkInputs m c ins inp).mram = m.mram
    ∧ (Mach.checkInputs m c ins inp).time.frame = m.time.frame
    ∧ (Mach.checkInputs m c ins inp).sec.rollback = m.sec.rollback
    ∧ (Mach.checkInputs m c ins inp).sec.boots = m.sec.boots
    ∧ (Mach.checkInputs m c ins inp).cab.creds = m.cab.creds := by
  unfold Mach.checkInputs; try dsimp only
  simp only [↓keeps_markCross, ↓keeps_report, ↓keeps_reportEnd, ↓keeps_uncross, ↓ite_mram, ↓each_mram, ↓ite_time_frame, ↓each_time_frame, ↓ite_sec_rollback, ↓each_sec_rollback, ↓ite_sec_boots, ↓each_sec_boots, ↓ite_cab_creds, ↓each_cab_creds, ↓ite_fst, ite_self, implies_true, and_self]

theorem keeps_pulsePassed (m : Mach) (c : Nat) :
    (Mach.pulsePassed m c).mram = m.mram
    ∧ (Mach.pulsePassed m c).time.frame = m.time.frame
    ∧ (Mach.pulsePassed m c).sec.rollback = m.sec.rollback
    ∧ (Mach.pulsePassed m c).sec.boots = m.sec.boots
    ∧ (Mach.pulsePassed m c).cab.creds = m.cab.creds := by
  unfold Mach.pulsePassed; try dsimp only
  simp only [↓keeps_reportEnd, ↓ite_mram, ↓ite_time_frame, ↓ite_sec_rollback, ↓ite_sec_boots, ↓ite_cab_creds, ↓ite_fst, ite_self, implies_true, and_self]

theorem keeps_pulseCrossed (m : Mach) (c : Nat) (ds : List Nat) :
    (Mach.pulseCrossed m c ds).mram = m.mram
    ∧ (Mach.pulseCrossed m c ds).time.frame = m.time.frame
    ∧ (Mach.pulseCrossed m c ds).sec.rollback = m.sec.rollback
    ∧ (Mach.pulseCrossed m c ds).sec.boots = m.sec.boots
    ∧ (Mach.pulseCrossed m c ds).cab.creds = m.cab.creds := by
  unfold Mach.pulseCrossed; try dsimp only
  simp only [↓keeps_markCross, ↓keeps_report, ↓ite_mram, ↓each_mram, ↓ite_time_frame, ↓each_time_frame, ↓ite_sec_rollback, ↓each_sec_rollback, ↓ite_sec_boots, ↓each_sec_boots, ↓ite_cab_creds, ↓each_cab_creds, ↓ite_fst, ite_self, implies_true, and_self]

theorem keeps_judgePulse (m : Mach) (c : Nat) (drv : Nat) (inp : PulseIn) :
    (Mach.judgePulse m c drv inp).1.mram = m.mram
    ∧ (Mach.judgePulse m c drv inp).1.time.frame = m.time.frame
    ∧ (Mach.judgePulse m c drv inp).1.sec.rollback = m.sec.rollback
    ∧ (Mach.judgePulse m c drv inp).1.sec.boots = m.sec.boots
    ∧ (Mach.judgePulse m c drv inp).1.cab.creds = m.cab.creds := by
  unfold Mach.judgePulse; try dsimp only
  simp only [↓keeps_pulseCrossed, ↓keeps_pulsePassed, ↓keeps_report, ↓keeps_uncross, ↓ite_mram, ↓ite_time_frame, ↓ite_sec_rollback, ↓ite_sec_boots, ↓ite_cab_creds, ↓ite_fst, ite_self, implies_true, and_self]

theorem keeps_channelFrame (m : Mach) :
    (Mach.channelFrame m).mram = m.mram
    ∧ (Mach.channelFrame m).time.frame = m.time.frame
    ∧ (Mach.channelFrame m).sec.rollback = m.sec.rollback
    ∧ (Mach.channelFrame m).sec.boots = m.sec.boots
    ∧ (Mach.channelFrame m).cab.creds = m.cab.creds := by
  unfold Mach.channelFrame; try dsimp only
  simp only [↓keeps_cell, ↓keeps_reportEnd, ↓ite_mram, ↓each_mram, ↓ite_time_frame, ↓each_time_frame, ↓ite_sec_rollback, ↓each_sec_rollback, ↓ite_sec_boots, ↓each_sec_boots, ↓ite_cab_creds, ↓each_cab_creds, ↓ite_fst, ite_self, implies_true, and_self]

theorem keeps_fieldSamples (m : Mach) (inp : FrameIn) :
    (Mach.fieldSamples m inp).mram = m.mram
    ∧ (Mach.fieldSamples m inp).time.frame = m.time.frame
    ∧ (Mach.fieldSamples m inp).sec.rollback = m.sec.rollback
    ∧ (Mach.fieldSamples m inp).sec.boots = m.sec.boots
    ∧ (Mach.fieldSamples m inp).cab.creds = m.cab.creds := by
  unfold Mach.fieldSamples; try dsimp only
  simp only [↓keeps_extreme, ↓keeps_readBack, ↓keeps_vfSample, ↓ite_mram, ↓each_mram, ↓ite_time_frame, ↓each_time_frame, ↓ite_sec_rollback, ↓each_sec_rollback, ↓ite_sec_boots, ↓each_sec_boots, ↓ite_cab_creds, ↓each_cab_creds, ↓ite_fst, ite_self, implies_true, and_self]

theorem keeps_chOff (m : Mach) (c : Nat) :
    (Mach.chOff m c).mram = m.mram
    ∧ (Mach.chOff m c).time.frame = m.time.frame
    ∧ (Mach.chOff m c).sec.rollback = m.sec.rollback
    ∧ (Mach.chOff m c).sec.boots = m.sec.boots
    ∧ (Mach.chOff m c).cab.creds = m.cab.creds := by
  unfold Mach.chOff; try dsimp only
  simp only [↓keeps_cell, ↓keeps_drive, ↓ite_mram, ↓ite_time_frame, ↓ite_sec_rollback, ↓ite_sec_boots, ↓ite_cab_creds, ↓ite_fst, ite_self, implies_true, and_self]

theorem keeps_chOn (m : Mach) (c : Nat) :
    (Mach.chOn m c).mram = m.mram
    ∧ (Mach.chOn m c).time.frame = m.time.frame
    ∧ (Mach.chOn m c).sec.rollback = m.sec.rollback
    ∧ (Mach.chOn m c).sec.boots = m.sec.boots
    ∧ (Mach.chOn m c).cab.creds = m.cab.creds := by
  unfold Mach.chOn; try dsimp only
  simp only [↓keeps_cell, ↓ite_mram, ↓ite_time_frame, ↓ite_sec_rollback, ↓ite_sec_boots, ↓ite_cab_creds, ↓ite_fst, ite_self, implies_true, and_self]

theorem keeps_benchOrder (m : Mach) (b : BenchRec) :
    (Mach.benchOrder m b).time.frame = m.time.frame
    ∧ (Mach.benchOrder m b).sec.rollback = m.sec.rollback
    ∧ (Mach.benchOrder m b).sec.boots = m.sec.boots
    ∧ (Mach.benchOrder m b).cab.creds = m.cab.creds := by
  unfold Mach.benchOrder; try dsimp only
  simp only [↓keeps_logEvent, ↓ite_time_frame, ↓each_time_frame, ↓ite_sec_rollback, ↓each_sec_rollback, ↓ite_sec_boots, ↓each_sec_boots, ↓ite_cab_creds, ↓each_cab_creds, ↓ite_fst, ite_self, implies_true, and_self]

theorem wf_benchOrder (m : Mach) (b : BenchRec) (hw : Memory.wf m.mram = true) :
    Memory.wf (Mach.benchOrder m b).mram = true := by
  unfold Mach.benchOrder; try dsimp only
  all_goals repeat' first | with_reducible exact hw | with_reducible exact w | with_reducible apply wf_logEvent | with_reducible apply wf_ite | with_reducible refine wf_each _ _ _ (fun m x w => ?_) ?_ | simp only [↓when_mram, ↓ite_mram, ↓ite_fst] | split | dsimp only

theorem keeps_benchSet (m : Mach) (ch : Nat) (on : Nat) (val : Nat) :
    (Mach.benchSet m ch on val).1.time.frame = m.time.frame
    ∧ (Mach.benchSet m ch on val).1.sec.rollback = m.sec.rollback
    ∧ (Mach.benchSet m ch on val).1.sec.boots = m.sec.boots
    ∧ (Mach.benchSet m ch on val).1.cab.creds = m.cab.creds := by
  unfold Mach.benchSet; try dsimp only
  refine ⟨?_, ?_, ?_, ?_⟩ <;>
  (repeat' split) <;>
  first | with_reducible rfl | (simp only [↓keeps_benchOrder, ↓keeps_ok, ↓keeps_refuse, ↓ite_time_frame, ↓ite_sec_rollback, ↓ite_sec_boots, ↓ite_cab_creds, ↓ite_fst, ite_self, implies_true, and_self]; done)

theorem wf_benchSet (m : Mach) (ch : Nat) (on : Nat) (val : Nat) (hw : Memory.wf m.mram = true) :
    Memory.wf (Mach.benchSet m ch on val).1.mram = true := by
  unfold Mach.benchSet; try dsimp only
  all_goals repeat' first | with_reducible exact hw | with_reducible exact w | with_reducible apply wf_benchOrder | with_reducible apply wf_ite | simp only [↓keeps_ok, ↓keeps_refuse, ↓when_mram, ↓ite_mram, ↓ite_fst] | split | dsimp only

theorem keeps_benchApply (m : Mach) (x : Nat × Bool × Bool) :
    (Mach.benchApply m x).time.frame = m.time.frame
    ∧ (Mach.benchApply m x).sec.rollback = m.sec.rollback
    ∧ (Mach.benchApply m x).sec.boots = m.sec.boots
    ∧ (Mach.benchApply m x).cab.creds = m.cab.creds := by
  unfold Mach.benchApply; try dsimp only
  simp only [↓keeps_logEvent, ↓ite_time_frame, ↓each_time_frame, ↓ite_sec_rollback, ↓each_sec_rollback, ↓ite_sec_boots, ↓each_sec_boots, ↓ite_cab_creds, ↓each_cab_creds, ↓ite_fst, ite_self, implies_true, and_self]

theorem wf_benchApply (m : Mach) (x : Nat × Bool × Bool) (hw : Memory.wf m.mram = true) :
    Memory.wf (Mach.benchApply m x).mram = true := by
  unfold Mach.benchApply; try dsimp only
  all_goals repeat' first | with_reducible exact hw | with_reducible exact w | with_reducible apply wf_logEvent | with_reducible apply wf_ite | with_reducible refine wf_each _ _ _ (fun m x w => ?_) ?_ | simp only [↓when_mram, ↓ite_mram, ↓ite_fst] | split | dsimp only

theorem keeps_benchSync (m : Mach) :
    (Mach.benchSync m).time.frame = m.time.frame
    ∧ (Mach.benchSync m).sec.rollback = m.sec.rollback
    ∧ (Mach.benchSync m).sec.boots = m.sec.boots
    ∧ (Mach.benchSync m).cab.creds = m.cab.creds := by
  unfold Mach.benchSync; try dsimp only
  simp only [↓keeps_benchApply, ↓keeps_driveAll, ↓ite_time_frame, ↓each_time_frame, ↓ite_sec_rollback, ↓each_sec_rollback, ↓ite_sec_boots, ↓each_sec_boots, ↓ite_cab_creds, ↓each_cab_creds, ↓ite_fst, ite_self, implies_true, and_self]

theorem wf_benchSync (m : Mach) (hw : Memory.wf m.mram = true) :
    Memory.wf (Mach.benchSync m).mram = true := by
  unfold Mach.benchSync; try dsimp only
  all_goals repeat' first | with_reducible exact hw | with_reducible exact w | with_reducible apply wf_benchApply | with_reducible apply wf_ite | with_reducible refine wf_each _ _ _ (fun m x w => ?_) ?_ | simp only [↓keeps_driveAll, ↓when_mram, ↓ite_mram, ↓ite_fst] | split | dsimp only

theorem keeps_benchesLost (m : Mach) :
    (Mach.benchesLost m).time.frame = m.time.frame
    ∧ (Mach.benchesLost m).sec.rollback = m.sec.rollback
    ∧ (Mach.benchesLost m).sec.boots = m.sec.boots
    ∧ (Mach.benchesLost m).cab.creds = m.cab.creds := by
  unfold Mach.benchesLost; try dsimp only
  simp only [↓keeps_logEvent, ↓ite_time_frame, ↓each_time_frame, ↓ite_sec_rollback, ↓each_sec_rollback, ↓ite_sec_boots, ↓each_sec_boots, ↓ite_cab_creds, ↓each_cab_creds, ↓ite_fst, ite_self, implies_true, and_self]

theorem wf_benchesLost (m : Mach) (hw : Memory.wf m.mram = true) :
    Memory.wf (Mach.benchesLost m).mram = true := by
  unfold Mach.benchesLost; try dsimp only
  all_goals repeat' first | with_reducible exact hw | with_reducible exact w | with_reducible apply wf_logEvent | with_reducible apply wf_ite | with_reducible refine wf_each _ _ _ (fun m x w => ?_) ?_ | simp only [↓when_mram, ↓ite_mram, ↓ite_fst] | split | dsimp only

theorem keeps_chConfig (m : Mach) (tag : Nat) (ch : Nat) (es : List SetEntry) :
    (Mach.chConfig m tag ch es).1.mram = m.mram
    ∧ (Mach.chConfig m tag ch es).1.time.frame = m.time.frame
    ∧ (Mach.chConfig m tag ch es).1.sec.rollback = m.sec.rollback
    ∧ (Mach.chConfig m tag ch es).1.sec.boots = m.sec.boots
    ∧ (Mach.chConfig m tag ch es).1.cab.creds = m.cab.creds := by
  unfold Mach.chConfig; try dsimp only
  simp only [↓keeps_queueCfg, ↓keeps_setEntries, ↓keeps_refuse, ↓ite_mram, ↓ite_time_frame, ↓ite_sec_rollback, ↓ite_sec_boots, ↓ite_cab_creds, ↓ite_fst, ite_self, implies_true, and_self]

theorem keeps_chWrite (m : Mach) (mask : Nat) (vals : Nat) :
    (Mach.chWrite m mask vals).1.mram = m.mram
    ∧ (Mach.chWrite m mask vals).1.time.frame = m.time.frame
    ∧ (Mach.chWrite m mask vals).1.sec.rollback = m.sec.rollback
    ∧ (Mach.chWrite m mask vals).1.sec.boots = m.sec.boots
    ∧ (Mach.chWrite m mask vals).1.cab.creds = m.cab.creds := by
  unfold Mach.chWrite; try dsimp only
  simp only [↓keeps_ok, ↓keeps_refuse, ↓ite_mram, ↓ite_time_frame, ↓ite_sec_rollback, ↓ite_sec_boots, ↓ite_cab_creds, ↓ite_fst, ite_self, implies_true, and_self]

theorem keeps_takeCommands (m : Mach) :
    (Mach.takeCommands m).mram = m.mram
    ∧ (Mach.takeCommands m).time.frame = m.time.frame
    ∧ (Mach.takeCommands m).sec.rollback = m.sec.rollback
    ∧ (Mach.takeCommands m).sec.boots = m.sec.boots
    ∧ (Mach.takeCommands m).cab.creds = m.cab.creds := by
  unfold Mach.takeCommands; try dsimp only
  refine ⟨?_, ?_, ?_, ?_, ?_⟩ <;>
  (repeat' split) <;>
  first | with_reducible rfl | (simp only [↓ite_mram, ↓ite_time_frame, ↓ite_sec_rollback, ↓ite_sec_boots, ↓ite_cab_creds, ↓ite_fst, ite_self, implies_true, and_self]; done)

theorem keeps_groupRearm (m : Mach) (target : Nat) :
    (Mach.groupRearm m target).1.mram = m.mram
    ∧ (Mach.groupRearm m target).1.time.frame = m.time.frame
    ∧ (Mach.groupRearm m target).1.sec.rollback = m.sec.rollback
    ∧ (Mach.groupRearm m target).1.sec.boots = m.sec.boots
    ∧ (Mach.groupRearm m target).1.cab.creds = m.cab.creds := by
  unfold Mach.groupRearm; try dsimp only
  simp only [↓keeps_ok, ↓keeps_refuse, ↓ite_mram, ↓ite_time_frame, ↓ite_sec_rollback, ↓ite_sec_boots, ↓ite_cab_creds, ↓ite_fst, ite_self, implies_true, and_self]

theorem keeps_rearmSync (m : Mach) :
    (Mach.rearmSync m).mram = m.mram
    ∧ (Mach.rearmSync m).time.frame = m.time.frame
    ∧ (Mach.rearmSync m).sec.rollback = m.sec.rollback
    ∧ (Mach.rearmSync m).sec.boots = m.sec.boots
    ∧ (Mach.rearmSync m).cab.creds = m.cab.creds := by
  unfold Mach.rearmSync; try dsimp only
  simp only [↓keeps_rearm, ↓ite_mram, ↓each_mram, ↓ite_time_frame, ↓each_time_frame, ↓ite_sec_rollback, ↓each_sec_rollback, ↓ite_sec_boots, ↓each_sec_boots, ↓ite_cab_creds, ↓each_cab_creds, ↓ite_fst, ite_self, implies_true, and_self]

end Sys2Proof.Laws
end

