-- ==== Sys2Proof/Laws/KeepPosition.lean ====
section
/-!
SUPPORT. What the operations of Machine/Position.lean leave alone of the MRAM, the frame count, the rollback
counter, the boot count and the credentials of the cabinet, and that they keep the canonical form of the MRAM.
-/
namespace Sys2Proof.Laws

open Sys2Proof Sys2Proof.Machine

set_option linter.all false
set_option linter.unreachableTactic false
set_option linter.unusedTactic false
theorem keeps_writeSnapshot (m : Mach) (p : ProcId) :
    (Mach.writeSnapshot m p).time.frame = m.time.frame
    ∧ (Mach.writeSnapshot m p).sec.rollback = m.sec.rollback
    ∧ (Mach.writeSnapshot m p).sec.boots = m.sec.boots
    ∧ (Mach.writeSnapshot m p).cab.creds = m.cab.creds := by
  unfold Mach.writeSnapshot; try dsimp only
  simp only [↓keeps_writeRecord, ↓ite_time_frame, ↓ite_sec_rollback, ↓ite_sec_boots, ↓ite_cab_creds, ↓ite_fst, ite_self, implies_true, and_self]

theorem wf_writeSnapshot (m : Mach) (p : ProcId) (hw : Memory.wf m.mram = true) :
    Memory.wf (Mach.writeSnapshot m p).mram = true := by
  unfold Mach.writeSnapshot; try dsimp only
  all_goals repeat' first | with_reducible exact hw | with_reducible exact w | with_reducible apply wf_writeRecord | with_reducible apply wf_ite | simp only [↓when_mram, ↓ite_mram, ↓ite_fst] | split | dsimp only

theorem keeps_writeSnapshots (m : Mach) :
    (Mach.writeSnapshots m).time.frame = m.time.frame
    ∧ (Mach.writeSnapshots m).sec.rollback = m.sec.rollback
    ∧ (Mach.writeSnapshots m).sec.boots = m.sec.boots
    ∧ (Mach.writeSnapshots m).cab.creds = m.cab.creds := by
  unfold Mach.writeSnapshots; try dsimp only
  simp only [↓keeps_writeSnapshot, ↓ite_time_frame, ↓each_time_frame, ↓ite_sec_rollback, ↓each_sec_rollback, ↓ite_sec_boots, ↓each_sec_boots, ↓ite_cab_creds, ↓each_cab_creds, ↓ite_fst, ite_self, implies_true, and_self]

theorem wf_writeSnapshots (m : Mach) (hw : Memory.wf m.mram = true) :
    Memory.wf (Mach.writeSnapshots m).mram = true := by
  unfold Mach.writeSnapshots; try dsimp only
  all_goals repeat' first | with_reducible exact hw | with_reducible exact w | with_reducible apply wf_writeSnapshot | with_reducible apply wf_ite | with_reducible refine wf_each _ _ _ (fun m x w => ?_) ?_ | simp only [↓when_mram, ↓ite_mram, ↓ite_fst] | split | dsimp only

theorem keeps_snapshotFrame (m : Mach) (was : Bool) :
    (Mach.snapshotFrame m was).time.frame = m.time.frame
    ∧ (Mach.snapshotFrame m was).sec.rollback = m.sec.rollback
    ∧ (Mach.snapshotFrame m was).sec.boots = m.sec.boots
    ∧ (Mach.snapshotFrame m was).cab.creds = m.cab.creds := by
  unfold Mach.snapshotFrame; try dsimp only
  simp only [↓keeps_writeSnapshots, ↓ite_time_frame, ↓ite_sec_rollback, ↓ite_sec_boots, ↓ite_cab_creds, ↓ite_fst, ite_self, implies_true, and_self]

theorem wf_snapshotFrame (m : Mach) (was : Bool) (hw : Memory.wf m.mram = true) :
    Memory.wf (Mach.snapshotFrame m was).mram = true := by
  unfold Mach.snapshotFrame; try dsimp only
  all_goals repeat' first | with_reducible exact hw | with_reducible exact w | with_reducible apply wf_writeSnapshots | with_reducible apply wf_ite | simp only [↓when_mram, ↓ite_mram, ↓ite_fst] | split | dsimp only

theorem keeps_setEst (m : Mach) (p : ProcId) (e : EstState) :
    (Mach.setEst m p e).mram = m.mram
    ∧ (Mach.setEst m p e).time.frame = m.time.frame
    ∧ (Mach.setEst m p e).sec.rollback = m.sec.rollback
    ∧ (Mach.setEst m p e).sec.boots = m.sec.boots
    ∧ (Mach.setEst m p e).cab.creds = m.cab.creds := by
  unfold Mach.setEst
  exact ⟨by with_reducible rfl, by with_reducible rfl, by with_reducible rfl, by with_reducible rfl, by with_reducible rfl⟩

theorem keeps_snapFound (m : Mach) (p : ProcId) (snap : Option (List Nat × Nat)) :
    (Mach.snapFound m p snap).mram = m.mram
    ∧ (Mach.snapFound m p snap).time.frame = m.time.frame
    ∧ (Mach.snapFound m p snap).sec.rollback = m.sec.rollback
    ∧ (Mach.snapFound m p snap).sec.boots = m.sec.boots
    ∧ (Mach.snapFound m p snap).cab.creds = m.cab.creds := by
  unfold Mach.snapFound; try dsimp only
  refine ⟨?_, ?_, ?_, ?_, ?_⟩ <;>
  (repeat' split) <;>
  first | with_reducible rfl | (simp only [↓ite_mram, ↓ite_time_frame, ↓ite_sec_rollback, ↓ite_sec_boots, ↓ite_cab_creds, ↓ite_fst, ite_self, implies_true, and_self]; done)

theorem keeps_recoverAt (m : Mach) (p : ProcId) (tape : Option Int) (timeout : Bool) :
    (Mach.recoverAt m p tape timeout).mram = m.mram
    ∧ (Mach.recoverAt m p tape timeout).time.frame = m.time.frame
    ∧ (Mach.recoverAt m p tape timeout).sec.rollback = m.sec.rollback
    ∧ (Mach.recoverAt m p tape timeout).sec.boots = m.sec.boots
    ∧ (Mach.recoverAt m p tape timeout).cab.creds = m.cab.creds := by
  unfold Mach.recoverAt; try dsimp only
  simp only [↓keeps_raise, ↓keeps_setEst, ↓keeps_snapFound, ↓ite_mram, ↓ite_time_frame, ↓ite_sec_rollback, ↓ite_sec_boots, ↓ite_cab_creds, ↓ite_fst, ite_self, implies_true, and_self]

theorem keeps_takeAcc (m : Mach) (s : AccSample) (ecc : Ecc) :
    (Mach.takeAcc m s ecc).1.mram = m.mram
    ∧ (Mach.takeAcc m s ecc).1.time.frame = m.time.frame
    ∧ (Mach.takeAcc m s ecc).1.sec.rollback = m.sec.rollback
    ∧ (Mach.takeAcc m s ecc).1.sec.boots = m.sec.boots
    ∧ (Mach.takeAcc m s ecc).1.cab.creds = m.cab.creds := by
  unfold Mach.takeAcc
  exact ⟨by with_reducible rfl, by with_reducible rfl, by with_reducible rfl, by with_reducible rfl, by with_reducible rfl⟩

theorem keeps_fuse (m : Mach) (i : FrameIn) (usable : Bool) :
    (Mach.fuse m i usable).mram = m.mram
    ∧ (Mach.fuse m i usable).time.frame = m.time.frame
    ∧ (Mach.fuse m i usable).sec.rollback = m.sec.rollback
    ∧ (Mach.fuse m i usable).sec.boots = m.sec.boots
    ∧ (Mach.fuse m i usable).cab.creds = m.cab.creds := by
  unfold Mach.fuse
  exact ⟨by with_reducible rfl, by with_reducible rfl, by with_reducible rfl, by with_reducible rfl, by with_reducible rfl⟩

theorem keeps_sensorRuns (m : Mach) :
    (Mach.sensorRuns m).mram = m.mram
    ∧ (Mach.sensorRuns m).time.frame = m.time.frame
    ∧ (Mach.sensorRuns m).sec.rollback = m.sec.rollback
    ∧ (Mach.sensorRuns m).sec.boots = m.sec.boots
    ∧ (Mach.sensorRuns m).cab.creds = m.cab.creds := by
  unfold Mach.sensorRuns
  exact ⟨by with_reducible rfl, by with_reducible rfl, by with_reducible rfl, by with_reducible rfl, by with_reducible rfl⟩

theorem keeps_noteStop (m : Mach) (was : Bool) :
    (Mach.noteStop m was).mram = m.mram
    ∧ (Mach.noteStop m was).time.frame = m.time.frame
    ∧ (Mach.noteStop m was).sec.rollback = m.sec.rollback
    ∧ (Mach.noteStop m was).sec.boots = m.sec.boots
    ∧ (Mach.noteStop m was).cab.creds = m.cab.creds := by
  unfold Mach.noteStop
  exact ⟨by with_reducible rfl, by with_reducible rfl, by with_reducible rfl, by with_reducible rfl, by with_reducible rfl⟩

theorem keeps_positionFrame (m : Mach) (i : FrameIn) :
    (Mach.positionFrame m i).mram = m.mram
    ∧ (Mach.positionFrame m i).time.frame = m.time.frame
    ∧ (Mach.positionFrame m i).sec.rollback = m.sec.rollback
    ∧ (Mach.positionFrame m i).sec.boots = m.sec.boots
    ∧ (Mach.positionFrame m i).cab.creds = m.cab.creds := by
  unfold Mach.positionFrame; try dsimp only
  simp only [↓keeps_fuse, ↓keeps_noteStop, ↓keeps_sensorRuns, ↓keeps_takeAcc, ↓ite_mram, ↓ite_time_frame, ↓ite_sec_rollback, ↓ite_sec_boots, ↓ite_cab_creds, ↓ite_fst, ite_self, implies_true, and_self]

theorem keeps_postMail (m : Mach) :
    (Mach.postMail m).mram = m.mram
    ∧ (Mach.postMail m).time.frame = m.time.frame
    ∧ (Mach.postMail m).sec.rollback = m.sec.rollback
    ∧ (Mach.postMail m).sec.boots = m.sec.boots
    ∧ (Mach.postMail m).cab.creds = m.cab.creds := by
  unfold Mach.postMail
  exact ⟨by with_reducible rfl, by with_reducible rfl, by with_reducible rfl, by with_reducible rfl, by with_reducible rfl⟩

theorem keeps_compareFrame (m : Mach) :
    (Mach.compareFrame m).mram = m.mram
    ∧ (Mach.compareFrame m).time.frame = m.time.frame
    ∧ (Mach.compareFrame m).sec.rollback = m.sec.rollback
    ∧ (Mach.compareFrame m).sec.boots = m.sec.boots
    ∧ (Mach.compareFrame m).cab.creds = m.cab.creds := by
  unfold Mach.compareFrame
  exact ⟨by with_reducible rfl, by with_reducible rfl, by with_reducible rfl, by with_reducible rfl, by with_reducible rfl⟩

theorem keeps_positionEnds (m : Mach) :
    (Mach.positionEnds m).mram = m.mram
    ∧ (Mach.positionEnds m).time.frame = m.time.frame
    ∧ (Mach.positionEnds m).sec.rollback = m.sec.rollback
    ∧ (Mach.positionEnds m).sec.boots = m.sec.boots
    ∧ (Mach.positionEnds m).cab.creds = m.cab.creds := by
  unfold Mach.positionEnds; try dsimp only
  simp only [↓keeps_endIf, ↓ite_mram, ↓ite_time_frame, ↓ite_sec_rollback, ↓ite_sec_boots, ↓ite_cab_creds, ↓ite_fst, ite_self, implies_true, and_self]

theorem keeps_bothLost (m : Mach) :
    (Mach.bothLost m).mram = m.mram
    ∧ (Mach.bothLost m).time.frame = m.time.frame
    ∧ (Mach.bothLost m).sec.rollback = m.sec.rollback
    ∧ (Mach.bothLost m).sec.boots = m.sec.boots
    ∧ (Mach.bothLost m).cab.creds = m.cab.creds := by
  unfold Mach.bothLost; try dsimp only
  simp only [↓keeps_raise, ↓ite_mram, ↓ite_time_frame, ↓ite_sec_rollback, ↓ite_sec_boots, ↓ite_cab_creds, ↓ite_fst, ite_self, implies_true, and_self]

theorem keeps_allReadersLost (m : Mach) :
    (Mach.allReadersLost m).mram = m.mram
    ∧ (Mach.allReadersLost m).time.frame = m.time.frame
    ∧ (Mach.allReadersLost m).sec.rollback = m.sec.rollback
    ∧ (Mach.allReadersLost m).sec.boots = m.sec.boots
    ∧ (Mach.allReadersLost m).cab.creds = m.cab.creds := by
  unfold Mach.allReadersLost; try dsimp only
  simp only [↓keeps_bothLost, ↓keeps_endHome, ↓keeps_quitLearn, ↓keeps_raise, ↓ite_mram, ↓ite_time_frame, ↓ite_sec_rollback, ↓ite_sec_boots, ↓ite_cab_creds, ↓ite_fst, ite_self, implies_true, and_self]

theorem keeps_loseEncoder (m : Mach) :
    (Mach.loseEncoder m).mram = m.mram
    ∧ (Mach.loseEncoder m).time.frame = m.time.frame
    ∧ (Mach.loseEncoder m).sec.rollback = m.sec.rollback
    ∧ (Mach.loseEncoder m).sec.boots = m.sec.boots
    ∧ (Mach.loseEncoder m).cab.creds = m.cab.creds := by
  unfold Mach.loseEncoder
  exact ⟨by with_reducible rfl, by with_reducible rfl, by with_reducible rfl, by with_reducible rfl, by with_reducible rfl⟩

theorem keeps_encoderLost (m : Mach) :
    (Mach.encoderLost m).mram = m.mram
    ∧ (Mach.encoderLost m).time.frame = m.time.frame
    ∧ (Mach.encoderLost m).sec.rollback = m.sec.rollback
    ∧ (Mach.encoderLost m).sec.boots = m.sec.boots
    ∧ (Mach.encoderLost m).cab.creds = m.cab.creds := by
  unfold Mach.encoderLost; try dsimp only
  simp only [↓keeps_bothLost, ↓keeps_loseEncoder, ↓keeps_raise, ↓ite_mram, ↓ite_time_frame, ↓ite_sec_rollback, ↓ite_sec_boots, ↓ite_cab_creds, ↓ite_fst, ite_self, implies_true, and_self]

end Sys2Proof.Laws
end

