-- ==== Sys2Proof/Laws/KeepTriad.lean ====
section
/-!
SUPPORT. What the operations of Machine/Triad.lean leave alone of the MRAM, the frame count, the rollback
counter, the boot count and the credentials of the cabinet, and that they keep the canonical form of the MRAM.
-/
namespace Sys2Proof.Laws

open Sys2Proof Sys2Proof.Machine

set_option linter.all false
set_option linter.unreachableTactic false
set_option linter.unusedTactic false
theorem keeps_loseTriad (m : Mach) :
    (Mach.loseTriad m).mram = m.mram
    ∧ (Mach.loseTriad m).time.frame = m.time.frame
    ∧ (Mach.loseTriad m).sec.rollback = m.sec.rollback
    ∧ (Mach.loseTriad m).sec.boots = m.sec.boots
    ∧ (Mach.loseTriad m).cab.creds = m.cab.creds := by
  unfold Mach.loseTriad; try dsimp only
  simp only [↓keeps_raise, ↓ite_mram, ↓ite_time_frame, ↓ite_sec_rollback, ↓ite_sec_boots, ↓ite_cab_creds, ↓ite_fst, ite_self, implies_true, and_self]

theorem keeps_exclude (m : Mach) (c : CoreId) (cause : Nat) :
    (Mach.exclude m c cause).mram = m.mram
    ∧ (Mach.exclude m c cause).time.frame = m.time.frame
    ∧ (Mach.exclude m c cause).sec.rollback = m.sec.rollback
    ∧ (Mach.exclude m c cause).sec.boots = m.sec.boots
    ∧ (Mach.exclude m c cause).cab.creds = m.cab.creds := by
  unfold Mach.exclude; try dsimp only
  simp only [↓keeps_post, ↓keeps_raise, ↓ite_mram, ↓ite_time_frame, ↓ite_sec_rollback, ↓ite_sec_boots, ↓ite_cab_creds, ↓ite_fst, ite_self, implies_true, and_self]

theorem keeps_proofStart (m : Mach) (c : CoreId) (tag : Option Nat) (readmit : Bool) :
    (Mach.proofStart m c tag readmit).mram = m.mram
    ∧ (Mach.proofStart m c tag readmit).time.frame = m.time.frame
    ∧ (Mach.proofStart m c tag readmit).sec.rollback = m.sec.rollback
    ∧ (Mach.proofStart m c tag readmit).sec.boots = m.sec.boots
    ∧ (Mach.proofStart m c tag readmit).cab.creds = m.cab.creds := by
  unfold Mach.proofStart
  exact ⟨by with_reducible rfl, by with_reducible rfl, by with_reducible rfl, by with_reducible rfl, by with_reducible rfl⟩

theorem keeps_rejoinEst (m : Mach) (c : CoreId) :
    (Mach.rejoinEst m c).mram = m.mram
    ∧ (Mach.rejoinEst m c).time.frame = m.time.frame
    ∧ (Mach.rejoinEst m c).sec.rollback = m.sec.rollback
    ∧ (Mach.rejoinEst m c).sec.boots = m.sec.boots
    ∧ (Mach.rejoinEst m c).cab.creds = m.cab.creds := by
  unfold Mach.rejoinEst; try dsimp only
  simp only [↓keeps_setEst, ↓ite_mram, ↓ite_time_frame, ↓ite_sec_rollback, ↓ite_sec_boots, ↓ite_cab_creds, ↓ite_fst, ite_self, implies_true, and_self]

theorem keeps_evaluateKept (m : Mach) (c : CoreId) :
    (Mach.evaluateKept m c).mram = m.mram
    ∧ (Mach.evaluateKept m c).time.frame = m.time.frame
    ∧ (Mach.evaluateKept m c).sec.rollback = m.sec.rollback
    ∧ (Mach.evaluateKept m c).sec.boots = m.sec.boots
    ∧ (Mach.evaluateKept m c).cab.creds = m.cab.creds := by
  unfold Mach.evaluateKept; try dsimp only
  simp only [↓keeps_judged, ↓keeps_setCore, ↓ite_mram, ↓ite_time_frame, ↓ite_sec_rollback, ↓ite_sec_boots, ↓ite_cab_creds, ↓ite_fst, ite_self, implies_true, and_self]

theorem keeps_proofOver (m : Mach) :
    (Mach.proofOver m).mram = m.mram
    ∧ (Mach.proofOver m).time.frame = m.time.frame
    ∧ (Mach.proofOver m).sec.rollback = m.sec.rollback
    ∧ (Mach.proofOver m).sec.boots = m.sec.boots
    ∧ (Mach.proofOver m).cab.creds = m.cab.creds := by
  unfold Mach.proofOver
  exact ⟨by with_reducible rfl, by with_reducible rfl, by with_reducible rfl, by with_reducible rfl, by with_reducible rfl⟩

theorem keeps_proofDone (m : Mach) (status : Nat) :
    (Mach.proofDone m status).mram = m.mram
    ∧ (Mach.proofDone m status).time.frame = m.time.frame
    ∧ (Mach.proofDone m status).sec.rollback = m.sec.rollback
    ∧ (Mach.proofDone m status).sec.boots = m.sec.boots
    ∧ (Mach.proofDone m status).cab.creds = m.cab.creds := by
  unfold Mach.proofDone; try dsimp only
  refine ⟨?_, ?_, ?_, ?_, ?_⟩ <;>
  (repeat' split) <;>
  first | with_reducible rfl | (simp only [↓keeps_completed, ↓ite_mram, ↓ite_time_frame, ↓ite_sec_rollback, ↓ite_sec_boots, ↓ite_cab_creds, ↓ite_fst, ite_self, implies_true, and_self]; done)

theorem keeps_proofFails (m : Mach) (c : CoreId) :
    (Mach.proofFails m c).mram = m.mram
    ∧ (Mach.proofFails m c).time.frame = m.time.frame
    ∧ (Mach.proofFails m c).sec.rollback = m.sec.rollback
    ∧ (Mach.proofFails m c).sec.boots = m.sec.boots
    ∧ (Mach.proofFails m c).cab.creds = m.cab.creds := by
  unfold Mach.proofFails; try dsimp only
  simp only [↓keeps_proofDone, ↓keeps_proofOver, ↓keeps_raise, ↓ite_mram, ↓ite_time_frame, ↓ite_sec_rollback, ↓ite_sec_boots, ↓ite_cab_creds, ↓ite_fst, ite_self, implies_true, and_self]

theorem keeps_rejoins (m : Mach) (c : CoreId) :
    (Mach.rejoins m c).mram = m.mram
    ∧ (Mach.rejoins m c).time.frame = m.time.frame
    ∧ (Mach.rejoins m c).sec.rollback = m.sec.rollback
    ∧ (Mach.rejoins m c).sec.boots = m.sec.boots
    ∧ (Mach.rejoins m c).cab.creds = m.cab.creds := by
  unfold Mach.rejoins; try dsimp only
  simp only [↓keeps_evaluateKept, ↓keeps_rejoinEst, ↓ite_mram, ↓ite_time_frame, ↓ite_sec_rollback, ↓ite_sec_boots, ↓ite_cab_creds, ↓ite_fst, ite_self, implies_true, and_self]

theorem keeps_proofFound (m : Mach) (bad : Bool) :
    (Mach.proofFound m bad).mram = m.mram
    ∧ (Mach.proofFound m bad).time.frame = m.time.frame
    ∧ (Mach.proofFound m bad).sec.rollback = m.sec.rollback
    ∧ (Mach.proofFound m bad).sec.boots = m.sec.boots
    ∧ (Mach.proofFound m bad).cab.creds = m.cab.creds := by
  unfold Mach.proofFound; try dsimp only
  simp only [↓ite_mram, ↓ite_time_frame, ↓ite_sec_rollback, ↓ite_sec_boots, ↓ite_cab_creds, ↓ite_fst, ite_self, implies_true, and_self]

theorem keeps_endCause (m : Mach) (c : CoreId) :
    (Mach.endCause m c).mram = m.mram
    ∧ (Mach.endCause m c).time.frame = m.time.frame
    ∧ (Mach.endCause m c).sec.rollback = m.sec.rollback
    ∧ (Mach.endCause m c).sec.boots = m.sec.boots
    ∧ (Mach.endCause m c).cab.creds = m.cab.creds := by
  unfold Mach.endCause; try dsimp only
  refine ⟨?_, ?_, ?_, ?_, ?_⟩ <;>
  (repeat' split) <;>
  first | with_reducible rfl | (simp only [↓keeps_endCode, ↓keeps_endFault, ↓ite_mram, ↓ite_time_frame, ↓ite_sec_rollback, ↓ite_sec_boots, ↓ite_cab_creds, ↓ite_fst, ite_self, implies_true, and_self]; done)

theorem keeps_triadFrame (m : Mach) (inp : FrameIn) :
    (Mach.triadFrame m inp).mram = m.mram
    ∧ (Mach.triadFrame m inp).time.frame = m.time.frame
    ∧ (Mach.triadFrame m inp).sec.rollback = m.sec.rollback
    ∧ (Mach.triadFrame m inp).sec.boots = m.sec.boots
    ∧ (Mach.triadFrame m inp).cab.creds = m.cab.creds := by
  unfold Mach.triadFrame; try dsimp only
  simp only [↓keeps_endIf, ↓ite_mram, ↓ite_time_frame, ↓ite_sec_rollback, ↓ite_sec_boots, ↓ite_cab_creds, ↓ite_fst, ite_self, implies_true, and_self]

theorem keeps_judgeClock (m : Mach) (counts : List Nat) (unlocked : List Nat) (x : Nat × Nat × Nat × Nat) :
    (Mach.judgeClock m counts unlocked x).mram = m.mram
    ∧ (Mach.judgeClock m counts unlocked x).time.frame = m.time.frame
    ∧ (Mach.judgeClock m counts unlocked x).sec.rollback = m.sec.rollback
    ∧ (Mach.judgeClock m counts unlocked x).sec.boots = m.sec.boots
    ∧ (Mach.judgeClock m counts unlocked x).cab.creds = m.cab.creds := by
  unfold Mach.judgeClock; try dsimp only
  simp only [↓keeps_endIf, ↓keeps_raise, ↓keeps_safeStates, ↓ite_mram, ↓ite_time_frame, ↓ite_sec_rollback, ↓ite_sec_boots, ↓ite_cab_creds, ↓ite_fst, ite_self, implies_true, and_self]

theorem keeps_clockRuns (m : Mach) (counts : List Nat) (unlocked : List Nat) :
    (Mach.clockRuns m counts unlocked).mram = m.mram
    ∧ (Mach.clockRuns m counts unlocked).time.frame = m.time.frame
    ∧ (Mach.clockRuns m counts unlocked).sec.rollback = m.sec.rollback
    ∧ (Mach.clockRuns m counts unlocked).sec.boots = m.sec.boots
    ∧ (Mach.clockRuns m counts unlocked).cab.creds = m.cab.creds := by
  unfold Mach.clockRuns
  exact ⟨by with_reducible rfl, by with_reducible rfl, by with_reducible rfl, by with_reducible rfl, by with_reducible rfl⟩

theorem keeps_clocksJudged (m : Mach) (counts : List Nat) (unlocked : List Nat) :
    (Mach.clocksJudged m counts unlocked).mram = m.mram
    ∧ (Mach.clocksJudged m counts unlocked).time.frame = m.time.frame
    ∧ (Mach.clocksJudged m counts unlocked).sec.rollback = m.sec.rollback
    ∧ (Mach.clocksJudged m counts unlocked).sec.boots = m.sec.boots
    ∧ (Mach.clocksJudged m counts unlocked).cab.creds = m.cab.creds := by
  unfold Mach.clocksJudged; try dsimp only
  simp only [↓keeps_clockRuns, ↓keeps_judgeClock, ↓ite_mram, ↓each_mram, ↓ite_time_frame, ↓each_time_frame, ↓ite_sec_rollback, ↓each_sec_rollback, ↓ite_sec_boots, ↓each_sec_boots, ↓ite_cab_creds, ↓each_cab_creds, ↓ite_fst, ite_self, implies_true, and_self]

theorem keeps_clockGate (m : Mach) (counts : List Nat) (unlocked : List Nat) :
    (Mach.clockGate m counts unlocked).mram = m.mram
    ∧ (Mach.clockGate m counts unlocked).time.frame = m.time.frame
    ∧ (Mach.clockGate m counts unlocked).sec.rollback = m.sec.rollback
    ∧ (Mach.clockGate m counts unlocked).sec.boots = m.sec.boots
    ∧ (Mach.clockGate m counts unlocked).cab.creds = m.cab.creds := by
  unfold Mach.clockGate; try dsimp only
  refine ⟨?_, ?_, ?_, ?_, ?_⟩ <;>
  (repeat' split) <;>
  first | with_reducible rfl | (simp only [↓keeps_clocksJudged, ↓keeps_raise, ↓keeps_raiseWorse, ↓ite_mram, ↓ite_time_frame, ↓ite_sec_rollback, ↓ite_sec_boots, ↓ite_cab_creds, ↓ite_fst, ite_self, implies_true, and_self]; done)

end Sys2Proof.Laws
end

