-- ==== Sys2Proof/Laws/KeepLink.lean ====
section
/-!
SUPPORT. What the operations of Machine/Link.lean leave alone of the MRAM, the frame count, the rollback
counter, the boot count and the credentials of the cabinet, and that they keep the canonical form of the MRAM.
-/
namespace Sys2Proof.Laws

open Sys2Proof Sys2Proof.Machine

set_option linter.all false
set_option linter.unreachableTactic false
set_option linter.unusedTactic false
theorem keeps_latchHeads (m : Mach) :
    (Mach.latchHeads m).mram = m.mram
    ∧ (Mach.latchHeads m).time.frame = m.time.frame
    ∧ (Mach.latchHeads m).sec.rollback = m.sec.rollback
    ∧ (Mach.latchHeads m).sec.boots = m.sec.boots
    ∧ (Mach.latchHeads m).cab.creds = m.cab.creds := by
  unfold Mach.latchHeads
  exact ⟨by with_reducible rfl, by with_reducible rfl, by with_reducible rfl, by with_reducible rfl, by with_reducible rfl⟩

theorem keeps_disagreed (m : Mach) (c : CoreId) :
    (Mach.disagreed m c).mram = m.mram
    ∧ (Mach.disagreed m c).time.frame = m.time.frame
    ∧ (Mach.disagreed m c).sec.rollback = m.sec.rollback
    ∧ (Mach.disagreed m c).sec.boots = m.sec.boots
    ∧ (Mach.disagreed m c).cab.creds = m.cab.creds := by
  unfold Mach.disagreed; try dsimp only
  simp only [↓keeps_count, ↓keeps_raiseMomentary, ↓ite_mram, ↓ite_time_frame, ↓ite_sec_rollback, ↓ite_sec_boots, ↓ite_cab_creds, ↓ite_fst, ite_self, implies_true, and_self]

theorem keeps_voteRuns (m : Mach) (l : List (CoreId × CoreVote)) (bits : Nat) :
    (Mach.voteRuns m l bits).mram = m.mram
    ∧ (Mach.voteRuns m l bits).time.frame = m.time.frame
    ∧ (Mach.voteRuns m l bits).sec.rollback = m.sec.rollback
    ∧ (Mach.voteRuns m l bits).sec.boots = m.sec.boots
    ∧ (Mach.voteRuns m l bits).cab.creds = m.cab.creds := by
  unfold Mach.voteRuns; try dsimp only
  simp only [↓ite_mram, ↓each_mram, ↓ite_time_frame, ↓each_time_frame, ↓ite_sec_rollback, ↓each_sec_rollback, ↓ite_sec_boots, ↓each_sec_boots, ↓ite_cab_creds, ↓each_cab_creds, ↓ite_fst, ite_self, implies_true, and_self]

theorem keeps_ballot (m : Mach) (l : List (CoreId × CoreVote)) :
    (Mach.ballot m l).2.mram = m.mram
    ∧ (Mach.ballot m l).2.time.frame = m.time.frame
    ∧ (Mach.ballot m l).2.sec.rollback = m.sec.rollback
    ∧ (Mach.ballot m l).2.sec.boots = m.sec.boots
    ∧ (Mach.ballot m l).2.cab.creds = m.cab.creds := by
  unfold Mach.ballot; try dsimp only
  refine ⟨?_, ?_, ?_, ?_, ?_⟩ <;>
  (repeat' split) <;>
  first | with_reducible rfl | (simp only [↓keeps_exclude, ↓keeps_loseTriad, ↓keeps_voteRuns, ↓ite_mram, ↓ite_time_frame, ↓ite_sec_rollback, ↓ite_sec_boots, ↓ite_cab_creds, ↓ite_fst, ite_self, implies_true, and_self]; done)

theorem keeps_missedVote (m : Mach) (c : CoreId) :
    (Mach.missedVote m c).mram = m.mram
    ∧ (Mach.missedVote m c).time.frame = m.time.frame
    ∧ (Mach.missedVote m c).sec.rollback = m.sec.rollback
    ∧ (Mach.missedVote m c).sec.boots = m.sec.boots
    ∧ (Mach.missedVote m c).cab.creds = m.cab.creds := by
  unfold Mach.missedVote
  exact ⟨by with_reducible rfl, by with_reducible rfl, by with_reducible rfl, by with_reducible rfl, by with_reducible rfl⟩

theorem keeps_judgeRejoin (m : Mach) (views : List (CoreId × CoreVote)) (bits : Nat) :
    (Mach.judgeRejoin m views bits).mram = m.mram
    ∧ (Mach.judgeRejoin m views bits).time.frame = m.time.frame
    ∧ (Mach.judgeRejoin m views bits).sec.rollback = m.sec.rollback
    ∧ (Mach.judgeRejoin m views bits).sec.boots = m.sec.boots
    ∧ (Mach.judgeRejoin m views bits).cab.creds = m.cab.creds := by
  unfold Mach.judgeRejoin; try dsimp only
  refine ⟨?_, ?_, ?_, ?_, ?_⟩ <;>
  (first | refine each_mram _ _ _ fun m x => ?_ | refine each_time_frame _ _ _ fun m x => ?_ | refine each_sec_rollback _ _ _ fun m x => ?_ | refine each_sec_boots _ _ _ fun m x => ?_ | refine each_cab_creds _ _ _ fun m x => ?_) <;> (repeat' split) <;>
  first | with_reducible rfl | (simp only [↓keeps_proofFound, ↓ite_mram, ↓each_mram, ↓ite_time_frame, ↓each_time_frame, ↓ite_sec_rollback, ↓each_sec_rollback, ↓ite_sec_boots, ↓each_sec_boots, ↓ite_cab_creds, ↓each_cab_creds, ↓ite_fst, ite_self, implies_true, and_self]; done)

theorem keeps_outExcluded (m : Mach) (views : List (CoreId × CoreVote)) :
    (Mach.outExcluded m views).mram = m.mram
    ∧ (Mach.outExcluded m views).time.frame = m.time.frame
    ∧ (Mach.outExcluded m views).sec.rollback = m.sec.rollback
    ∧ (Mach.outExcluded m views).sec.boots = m.sec.boots
    ∧ (Mach.outExcluded m views).cab.creds = m.cab.creds := by
  unfold Mach.outExcluded; try dsimp only
  refine ⟨?_, ?_, ?_, ?_, ?_⟩ <;>
  (repeat' split) <;>
  first | with_reducible rfl | (simp only [↓keeps_exclude, ↓keeps_proofDone, ↓keeps_proofOver, ↓ite_mram, ↓ite_time_frame, ↓ite_sec_rollback, ↓ite_sec_boots, ↓ite_cab_creds, ↓ite_fst, ite_self, implies_true, and_self]; done)

theorem keeps_applyVote (m : Mach) (bits : Nat) :
    (Mach.applyVote m bits).mram = m.mram
    ∧ (Mach.applyVote m bits).time.frame = m.time.frame
    ∧ (Mach.applyVote m bits).sec.rollback = m.sec.rollback
    ∧ (Mach.applyVote m bits).sec.boots = m.sec.boots
    ∧ (Mach.applyVote m bits).cab.creds = m.cab.creds := by
  unfold Mach.applyVote; try dsimp only
  simp only [↓keeps_driveAll, ↓ite_mram, ↓ite_time_frame, ↓ite_sec_rollback, ↓ite_sec_boots, ↓ite_cab_creds, ↓ite_fst, ite_self, implies_true, and_self]

theorem keeps_tripVote (m : Mach) (was : Bool) :
    (Mach.tripVote m was).mram = m.mram
    ∧ (Mach.tripVote m was).time.frame = m.time.frame
    ∧ (Mach.tripVote m was).sec.rollback = m.sec.rollback
    ∧ (Mach.tripVote m was).sec.boots = m.sec.boots
    ∧ (Mach.tripVote m was).cab.creds = m.cab.creds := by
  unfold Mach.tripVote; try dsimp only
  simp only [↓keeps_endFault, ↓keeps_tripEnd, ↓keeps_tripStart, ↓ite_mram, ↓ite_time_frame, ↓ite_sec_rollback, ↓ite_sec_boots, ↓ite_cab_creds, ↓ite_fst, ite_self, implies_true, and_self]

theorem keeps_vote (m : Mach) (x : Nat) (lt : Nat) :
    (Mach.vote m x lt).mram = m.mram
    ∧ (Mach.vote m x lt).time.frame = m.time.frame
    ∧ (Mach.vote m x lt).sec.rollback = m.sec.rollback
    ∧ (Mach.vote m x lt).sec.boots = m.sec.boots
    ∧ (Mach.vote m x lt).cab.creds = m.cab.creds := by
  unfold Mach.vote; try dsimp only
  simp only [↓keeps_applyVote, ↓keeps_ballot, ↓keeps_disagreed, ↓keeps_judgeRejoin, ↓keeps_missedVote, ↓keeps_outExcluded, ↓keeps_tripVote, ↓keeps_voted, ↓ite_mram, ↓each_mram, ↓ite_time_frame, ↓each_time_frame, ↓ite_sec_rollback, ↓each_sec_rollback, ↓ite_sec_boots, ↓each_sec_boots, ↓ite_cab_creds, ↓each_cab_creds, ↓ite_fst, ite_self, implies_true, and_self]

theorem keeps_applyCfg (m : Mach) :
    (Mach.applyCfg m).mram = m.mram
    ∧ (Mach.applyCfg m).time.frame = m.time.frame
    ∧ (Mach.applyCfg m).sec.rollback = m.sec.rollback
    ∧ (Mach.applyCfg m).sec.boots = m.sec.boots
    ∧ (Mach.applyCfg m).cab.creds = m.cab.creds := by
  unfold Mach.applyCfg; try dsimp only
  simp only [↓keeps_drive, ↓ite_mram, ↓each_mram, ↓ite_time_frame, ↓each_time_frame, ↓ite_sec_rollback, ↓each_sec_rollback, ↓ite_sec_boots, ↓each_sec_boots, ↓ite_cab_creds, ↓each_cab_creds, ↓ite_fst, ite_self, implies_true, and_self]

theorem keeps_takeSync (m : Mach) (body : Nat) :
    (Mach.takeSync m body).time.frame = m.time.frame
    ∧ (Mach.takeSync m body).sec.rollback = m.sec.rollback
    ∧ (Mach.takeSync m body).sec.boots = m.sec.boots
    ∧ (Mach.takeSync m body).cab.creds = m.cab.creds := by
  unfold Mach.takeSync; try dsimp only
  simp only [↓keeps_applyCfg, ↓keeps_benchSync, ↓keeps_rearmSync, ↓ite_time_frame, ↓ite_sec_rollback, ↓ite_sec_boots, ↓ite_cab_creds, ↓ite_fst, ite_self, implies_true, and_self]

theorem wf_takeSync (m : Mach) (body : Nat) (hw : Memory.wf m.mram = true) :
    Memory.wf (Mach.takeSync m body).mram = true := by
  unfold Mach.takeSync; try dsimp only
  all_goals repeat' first | with_reducible exact hw | with_reducible exact w | with_reducible apply wf_benchSync | with_reducible apply wf_ite | simp only [↓keeps_applyCfg, ↓keeps_rearmSync, ↓when_mram, ↓ite_mram, ↓ite_fst] | split | dsimp only

theorem keeps_takeCtl (m : Mach) (body : Nat) :
    (Mach.takeCtl m body).mram = m.mram
    ∧ (Mach.takeCtl m body).time.frame = m.time.frame
    ∧ (Mach.takeCtl m body).sec.rollback = m.sec.rollback
    ∧ (Mach.takeCtl m body).sec.boots = m.sec.boots
    ∧ (Mach.takeCtl m body).cab.creds = m.cab.creds := by
  unfold Mach.takeCtl; try dsimp only
  refine ⟨?_, ?_, ?_, ?_, ?_⟩ <;>
  (repeat' split) <;>
  first | with_reducible rfl | (simp only [↓ite_mram, ↓ite_time_frame, ↓ite_sec_rollback, ↓ite_sec_boots, ↓ite_cab_creds, ↓ite_fst, ite_self, implies_true, and_self]; done)

theorem keeps_takeHeads (m : Mach) (x : Nat) :
    (Mach.takeHeads m x).mram = m.mram
    ∧ (Mach.takeHeads m x).time.frame = m.time.frame
    ∧ (Mach.takeHeads m x).sec.rollback = m.sec.rollback
    ∧ (Mach.takeHeads m x).sec.boots = m.sec.boots
    ∧ (Mach.takeHeads m x).cab.creds = m.cab.creds := by
  unfold Mach.takeHeads
  exact ⟨by with_reducible rfl, by with_reducible rfl, by with_reducible rfl, by with_reducible rfl, by with_reducible rfl⟩

theorem keeps_countDown (m : Mach) (lt : Nat) :
    (Mach.countDown m lt).mram = m.mram
    ∧ (Mach.countDown m lt).time.frame = m.time.frame
    ∧ (Mach.countDown m lt).sec.rollback = m.sec.rollback
    ∧ (Mach.countDown m lt).sec.boots = m.sec.boots
    ∧ (Mach.countDown m lt).cab.creds = m.cab.creds := by
  unfold Mach.countDown
  exact ⟨by with_reducible rfl, by with_reducible rfl, by with_reducible rfl, by with_reducible rfl, by with_reducible rfl⟩

theorem keeps_takeDown (m : Mach) (lt : Nat) (x : Nat) :
    (Mach.takeDown m lt x).time.frame = m.time.frame
    ∧ (Mach.takeDown m lt x).sec.rollback = m.sec.rollback
    ∧ (Mach.takeDown m lt x).sec.boots = m.sec.boots
    ∧ (Mach.takeDown m lt x).cab.creds = m.cab.creds := by
  unfold Mach.takeDown; try dsimp only
  refine ⟨?_, ?_, ?_, ?_⟩ <;>
  (repeat' split) <;>
  first | with_reducible rfl | (simp only [↓keeps_countDown, ↓keeps_takeCtl, ↓keeps_takeHeads, ↓keeps_takeSync, ↓keeps_vote, ↓ite_time_frame, ↓ite_sec_rollback, ↓ite_sec_boots, ↓ite_cab_creds, ↓ite_fst, ite_self, implies_true, and_self]; done)

theorem wf_takeDown (m : Mach) (lt : Nat) (x : Nat) (hw : Memory.wf m.mram = true) :
    Memory.wf (Mach.takeDown m lt x).mram = true := by
  unfold Mach.takeDown; try dsimp only
  all_goals repeat' first | with_reducible exact hw | with_reducible exact w | with_reducible apply wf_takeSync | with_reducible apply wf_ite | simp only [↓keeps_countDown, ↓keeps_takeCtl, ↓keeps_takeHeads, ↓keeps_vote, ↓when_mram, ↓ite_mram, ↓ite_fst] | split | dsimp only

theorem keeps_lostDown (m : Mach) :
    (Mach.lostDown m).mram = m.mram
    ∧ (Mach.lostDown m).time.frame = m.time.frame
    ∧ (Mach.lostDown m).sec.rollback = m.sec.rollback
    ∧ (Mach.lostDown m).sec.boots = m.sec.boots
    ∧ (Mach.lostDown m).cab.creds = m.cab.creds := by
  unfold Mach.lostDown
  exact ⟨by with_reducible rfl, by with_reducible rfl, by with_reducible rfl, by with_reducible rfl, by with_reducible rfl⟩

theorem keeps_ctlSent (m : Mach) (lt : Nat) :
    (Mach.ctlSent m lt).mram = m.mram
    ∧ (Mach.ctlSent m lt).time.frame = m.time.frame
    ∧ (Mach.ctlSent m lt).sec.rollback = m.sec.rollback
    ∧ (Mach.ctlSent m lt).sec.boots = m.sec.boots
    ∧ (Mach.ctlSent m lt).cab.creds = m.cab.creds := by
  unfold Mach.ctlSent; try dsimp only
  simp only [↓ite_mram, ↓ite_time_frame, ↓ite_sec_rollback, ↓ite_sec_boots, ↓ite_cab_creds, ↓ite_fst, ite_self, implies_true, and_self]

theorem keeps_downArrives (m : Mach) (lt : Nat) (x : Nat) :
    (Mach.downArrives m lt x).time.frame = m.time.frame
    ∧ (Mach.downArrives m lt x).sec.rollback = m.sec.rollback
    ∧ (Mach.downArrives m lt x).sec.boots = m.sec.boots
    ∧ (Mach.downArrives m lt x).cab.creds = m.cab.creds := by
  unfold Mach.downArrives; try dsimp only
  simp only [↓keeps_lostDown, ↓keeps_takeDown, ↓ite_time_frame, ↓ite_sec_rollback, ↓ite_sec_boots, ↓ite_cab_creds, ↓ite_fst, ite_self, implies_true, and_self]

theorem wf_downArrives (m : Mach) (lt : Nat) (x : Nat) (hw : Memory.wf m.mram = true) :
    Memory.wf (Mach.downArrives m lt x).mram = true := by
  unfold Mach.downArrives; try dsimp only
  all_goals repeat' first | with_reducible exact hw | with_reducible exact w | with_reducible apply wf_takeDown | with_reducible apply wf_ite | simp only [↓keeps_lostDown, ↓when_mram, ↓ite_mram, ↓ite_fst] | split | dsimp only

theorem keeps_voteOver (m : Mach) (lt : Nat) :
    (Mach.voteOver m lt).mram = m.mram
    ∧ (Mach.voteOver m lt).time.frame = m.time.frame
    ∧ (Mach.voteOver m lt).sec.rollback = m.sec.rollback
    ∧ (Mach.voteOver m lt).sec.boots = m.sec.boots
    ∧ (Mach.voteOver m lt).cab.creds = m.cab.creds := by
  unfold Mach.voteOver; try dsimp only
  simp only [↓keeps_missedVote, ↓ite_mram, ↓each_mram, ↓ite_time_frame, ↓each_time_frame, ↓ite_sec_rollback, ↓each_sec_rollback, ↓ite_sec_boots, ↓each_sec_boots, ↓ite_cab_creds, ↓each_cab_creds, ↓ite_fst, ite_self, implies_true, and_self]

theorem keeps_withheldDown (m : Mach) :
    (Mach.withheldDown m).mram = m.mram
    ∧ (Mach.withheldDown m).time.frame = m.time.frame
    ∧ (Mach.withheldDown m).sec.rollback = m.sec.rollback
    ∧ (Mach.withheldDown m).sec.boots = m.sec.boots
    ∧ (Mach.withheldDown m).cab.creds = m.cab.creds := by
  unfold Mach.withheldDown
  exact ⟨by with_reducible rfl, by with_reducible rfl, by with_reducible rfl, by with_reducible rfl, by with_reducible rfl⟩

theorem keeps_downFrame (m : Mach) (lt : Nat) (err : Nat) (ecc : Ecc) :
    (Mach.downFrame m lt err ecc).time.frame = m.time.frame
    ∧ (Mach.downFrame m lt err ecc).sec.rollback = m.sec.rollback
    ∧ (Mach.downFrame m lt err ecc).sec.boots = m.sec.boots
    ∧ (Mach.downFrame m lt err ecc).cab.creds = m.cab.creds := by
  unfold Mach.downFrame; try dsimp only
  simp only [↓keeps_ctlSent, ↓keeps_downArrives, ↓keeps_latchHeads, ↓keeps_pulseStart, ↓keeps_shortTick, ↓keeps_voteOver, ↓keeps_withheldDown, ↓ite_time_frame, ↓each_time_frame, ↓ite_sec_rollback, ↓each_sec_rollback, ↓ite_sec_boots, ↓each_sec_boots, ↓ite_cab_creds, ↓each_cab_creds, ↓ite_fst, ite_self, implies_true, and_self]

theorem wf_downFrame (m : Mach) (lt : Nat) (err : Nat) (ecc : Ecc) (hw : Memory.wf m.mram = true) :
    Memory.wf (Mach.downFrame m lt err ecc).mram = true := by
  unfold Mach.downFrame; try dsimp only
  all_goals repeat' first | with_reducible exact hw | with_reducible exact w | with_reducible apply wf_downArrives | with_reducible apply wf_ite | with_reducible refine wf_each _ _ _ (fun m x w => ?_) ?_ | simp only [↓keeps_ctlSent, ↓keeps_latchHeads, ↓keeps_pulseStart, ↓keeps_shortTick, ↓keeps_voteOver, ↓keeps_withheldDown, ↓when_mram, ↓ite_mram, ↓ite_fst] | split | dsimp only

theorem keeps_takeDiag (m : Mach) (lt : Nat) (d : Nat) :
    (Mach.takeDiag m lt d).mram = m.mram
    ∧ (Mach.takeDiag m lt d).time.frame = m.time.frame
    ∧ (Mach.takeDiag m lt d).sec.rollback = m.sec.rollback
    ∧ (Mach.takeDiag m lt d).sec.boots = m.sec.boots
    ∧ (Mach.takeDiag m lt d).cab.creds = m.cab.creds := by
  unfold Mach.takeDiag; try dsimp only
  simp only [↓ite_mram, ↓ite_time_frame, ↓ite_sec_rollback, ↓ite_sec_boots, ↓ite_cab_creds, ↓ite_fst, ite_self, implies_true, and_self]

theorem keeps_takeUp (m : Mach) (lt : Nat) (x : Nat) :
    (Mach.takeUp m lt x).mram = m.mram
    ∧ (Mach.takeUp m lt x).time.frame = m.time.frame
    ∧ (Mach.takeUp m lt x).sec.rollback = m.sec.rollback
    ∧ (Mach.takeUp m lt x).sec.boots = m.sec.boots
    ∧ (Mach.takeUp m lt x).cab.creds = m.cab.creds := by
  unfold Mach.takeUp; try dsimp only
  simp only [↓keeps_takeDiag, ↓ite_mram, ↓ite_time_frame, ↓ite_sec_rollback, ↓ite_sec_boots, ↓ite_cab_creds, ↓ite_fst, ite_self, implies_true, and_self]

theorem keeps_lostUp (m : Mach) (lt : Nat) :
    (Mach.lostUp m lt).mram = m.mram
    ∧ (Mach.lostUp m lt).time.frame = m.time.frame
    ∧ (Mach.lostUp m lt).sec.rollback = m.sec.rollback
    ∧ (Mach.lostUp m lt).sec.boots = m.sec.boots
    ∧ (Mach.lostUp m lt).cab.creds = m.cab.creds := by
  unfold Mach.lostUp; try dsimp only
  simp only [↓ite_mram, ↓ite_time_frame, ↓ite_sec_rollback, ↓ite_sec_boots, ↓ite_cab_creds, ↓ite_fst, ite_self, implies_true, and_self]

theorem keeps_upFrame (m : Mach) (lt : Nat) (err : Nat) (ecc : Ecc) :
    (Mach.upFrame m lt err ecc).mram = m.mram
    ∧ (Mach.upFrame m lt err ecc).time.frame = m.time.frame
    ∧ (Mach.upFrame m lt err ecc).sec.rollback = m.sec.rollback
    ∧ (Mach.upFrame m lt err ecc).sec.boots = m.sec.boots
    ∧ (Mach.upFrame m lt err ecc).cab.creds = m.cab.creds := by
  unfold Mach.upFrame; try dsimp only
  simp only [↓keeps_lostUp, ↓keeps_takeUp, ↓ite_mram, ↓ite_time_frame, ↓ite_sec_rollback, ↓ite_sec_boots, ↓ite_cab_creds, ↓ite_fst, ite_self, implies_true, and_self]

theorem keeps_fieldTick (m : Mach) :
    (Mach.fieldTick m).mram = m.mram
    ∧ (Mach.fieldTick m).time.frame = m.time.frame
    ∧ (Mach.fieldTick m).sec.rollback = m.sec.rollback
    ∧ (Mach.fieldTick m).sec.boots = m.sec.boots
    ∧ (Mach.fieldTick m).cab.creds = m.cab.creds := by
  unfold Mach.fieldTick
  exact ⟨by with_reducible rfl, by with_reducible rfl, by with_reducible rfl, by with_reducible rfl, by with_reducible rfl⟩

theorem keeps_linkSecond (m : Mach) :
    (Mach.linkSecond m).mram = m.mram
    ∧ (Mach.linkSecond m).time.frame = m.time.frame
    ∧ (Mach.linkSecond m).sec.rollback = m.sec.rollback
    ∧ (Mach.linkSecond m).sec.boots = m.sec.boots
    ∧ (Mach.linkSecond m).cab.creds = m.cab.creds := by
  unfold Mach.linkSecond; try dsimp only
  simp only [↓keeps_endAfter, ↓ite_mram, ↓ite_time_frame, ↓ite_sec_rollback, ↓ite_sec_boots, ↓ite_cab_creds, ↓ite_fst, ite_self, implies_true, and_self]

theorem keeps_compareDigest (m : Mach) :
    (Mach.compareDigest m).mram = m.mram
    ∧ (Mach.compareDigest m).time.frame = m.time.frame
    ∧ (Mach.compareDigest m).sec.rollback = m.sec.rollback
    ∧ (Mach.compareDigest m).sec.boots = m.sec.boots
    ∧ (Mach.compareDigest m).cab.creds = m.cab.creds := by
  unfold Mach.compareDigest; try dsimp only
  simp only [↓keeps_endIf, ↓keeps_queueAllCfg, ↓ite_mram, ↓ite_time_frame, ↓ite_sec_rollback, ↓ite_sec_boots, ↓ite_cab_creds, ↓ite_fst, ite_self, implies_true, and_self]

theorem keeps_freeze (m : Mach) :
    (Mach.freeze m).mram = m.mram
    ∧ (Mach.freeze m).time.frame = m.time.frame
    ∧ (Mach.freeze m).sec.rollback = m.sec.rollback
    ∧ (Mach.freeze m).sec.boots = m.sec.boots
    ∧ (Mach.freeze m).cab.creds = m.cab.creds := by
  unfold Mach.freeze; try dsimp only
  simp only [↓keeps_compareDigest, ↓keeps_raise, ↓keeps_takeReports, ↓keeps_takeSupplies, ↓ite_mram, ↓ite_time_frame, ↓ite_sec_rollback, ↓ite_sec_boots, ↓ite_cab_creds, ↓ite_fst, ite_self, implies_true, and_self]

end Sys2Proof.Laws
end

