-- ==== Sys2Proof/Laws/KeepPair.lean ====
section
/-!
SUPPORT. What the operations of Machine/Pair.lean leave alone of the MRAM, the frame count, the rollback
counter, the boot count and the credentials of the cabinet, and that they keep the canonical form of the MRAM.
-/
namespace Sys2Proof.Laws

open Sys2Proof Sys2Proof.Machine

set_option linter.all false
set_option linter.unreachableTactic false
set_option linter.unusedTactic false
theorem keeps_onAp (m : Mach) (a : Ab) (f : ApState → ApState) :
    (Mach.onAp m a f).mram = m.mram
    ∧ (Mach.onAp m a f).time.frame = m.time.frame
    ∧ (Mach.onAp m a f).sec.rollback = m.sec.rollback
    ∧ (Mach.onAp m a f).sec.boots = m.sec.boots
    ∧ (Mach.onAp m a f).cab.creds = m.cab.creds := by
  unfold Mach.onAp
  exact ⟨by with_reducible rfl, by with_reducible rfl, by with_reducible rfl, by with_reducible rfl, by with_reducible rfl⟩

theorem keeps_unsync (m : Mach) (a : Ab) :
    (Mach.unsync m a).mram = m.mram
    ∧ (Mach.unsync m a).time.frame = m.time.frame
    ∧ (Mach.unsync m a).sec.rollback = m.sec.rollback
    ∧ (Mach.unsync m a).sec.boots = m.sec.boots
    ∧ (Mach.unsync m a).cab.creds = m.cab.creds := by
  unfold Mach.unsync; try dsimp only
  simp only [↓keeps_onAp, ↓keeps_raise, ↓ite_mram, ↓ite_time_frame, ↓ite_sec_rollback, ↓ite_sec_boots, ↓ite_cab_creds, ↓ite_fst, ite_self, implies_true, and_self]

theorem keeps_lostTether (m : Mach) (a : Ab) :
    (Mach.lostTether m a).mram = m.mram
    ∧ (Mach.lostTether m a).time.frame = m.time.frame
    ∧ (Mach.lostTether m a).sec.rollback = m.sec.rollback
    ∧ (Mach.lostTether m a).sec.boots = m.sec.boots
    ∧ (Mach.lostTether m a).cab.creds = m.cab.creds := by
  unfold Mach.lostTether; try dsimp only
  simp only [↓keeps_onAp, ↓keeps_raise, ↓ite_mram, ↓ite_time_frame, ↓ite_sec_rollback, ↓ite_sec_boots, ↓ite_cab_creds, ↓ite_fst, ite_self, implies_true, and_self]

theorem keeps_startResets (m : Mach) :
    (Mach.startResets m).mram = m.mram
    ∧ (Mach.startResets m).time.frame = m.time.frame
    ∧ (Mach.startResets m).sec.rollback = m.sec.rollback
    ∧ (Mach.startResets m).sec.boots = m.sec.boots
    ∧ (Mach.startResets m).cab.creds = m.cab.creds := by
  unfold Mach.startResets
  exact ⟨by with_reducible rfl, by with_reducible rfl, by with_reducible rfl, by with_reducible rfl, by with_reducible rfl⟩

theorem keeps_passTether (m : Mach) (to1 : Ab) (command : Bool) :
    (Mach.passTether m to1 command).mram = m.mram
    ∧ (Mach.passTether m to1 command).time.frame = m.time.frame
    ∧ (Mach.passTether m to1 command).sec.rollback = m.sec.rollback
    ∧ (Mach.passTether m to1 command).sec.boots = m.sec.boots
    ∧ (Mach.passTether m to1 command).cab.creds = m.cab.creds := by
  unfold Mach.passTether; try dsimp only
  refine ⟨?_, ?_, ?_, ?_, ?_⟩ <;>
  (repeat' split) <;>
  first | with_reducible rfl | (simp only [↓keeps_lostTether, ↓keeps_onAp, ↓ite_mram, ↓ite_time_frame, ↓ite_sec_rollback, ↓ite_sec_boots, ↓ite_cab_creds, ↓ite_fst, ite_self, implies_true, and_self]; done)

theorem keeps_noTether (m : Mach) (frames : Nat) :
    (Mach.noTether m frames).mram = m.mram
    ∧ (Mach.noTether m frames).time.frame = m.time.frame
    ∧ (Mach.noTether m frames).sec.rollback = m.sec.rollback
    ∧ (Mach.noTether m frames).sec.boots = m.sec.boots
    ∧ (Mach.noTether m frames).cab.creds = m.cab.creds := by
  unfold Mach.noTether; try dsimp only
  simp only [↓keeps_entersFault, ↓ite_mram, ↓ite_time_frame, ↓ite_sec_rollback, ↓ite_sec_boots, ↓ite_cab_creds, ↓ite_fst, ite_self, implies_true, and_self]

theorem keeps_dropTether (m : Mach) :
    (Mach.dropTether m).mram = m.mram
    ∧ (Mach.dropTether m).time.frame = m.time.frame
    ∧ (Mach.dropTether m).sec.rollback = m.sec.rollback
    ∧ (Mach.dropTether m).sec.boots = m.sec.boots
    ∧ (Mach.dropTether m).cab.creds = m.cab.creds := by
  unfold Mach.dropTether; try dsimp only
  refine ⟨?_, ?_, ?_, ?_, ?_⟩ <;>
  (repeat' split) <;>
  first | with_reducible rfl | (simp only [↓keeps_lostTether, ↓keeps_noTether, ↓ite_mram, ↓ite_time_frame, ↓ite_sec_rollback, ↓ite_sec_boots, ↓ite_cab_creds, ↓ite_fst, ite_self, implies_true, and_self]; done)

theorem keeps_writeSels (m : Mach) (inp : FrameIn) :
    (Mach.writeSels m inp).mram = m.mram
    ∧ (Mach.writeSels m inp).time.frame = m.time.frame
    ∧ (Mach.writeSels m inp).sec.rollback = m.sec.rollback
    ∧ (Mach.writeSels m inp).sec.boots = m.sec.boots
    ∧ (Mach.writeSels m inp).cab.creds = m.cab.creds := by
  unfold Mach.writeSels
  exact ⟨by with_reducible rfl, by with_reducible rfl, by with_reducible rfl, by with_reducible rfl, by with_reducible rfl⟩

theorem keeps_regrant (m : Mach) (a : Ab) :
    (Mach.regrant m a).mram = m.mram
    ∧ (Mach.regrant m a).time.frame = m.time.frame
    ∧ (Mach.regrant m a).sec.rollback = m.sec.rollback
    ∧ (Mach.regrant m a).sec.boots = m.sec.boots
    ∧ (Mach.regrant m a).cab.creds = m.cab.creds := by
  unfold Mach.regrant; try dsimp only
  simp only [↓keeps_onAp, ↓ite_mram, ↓ite_time_frame, ↓ite_sec_rollback, ↓ite_sec_boots, ↓ite_cab_creds, ↓ite_fst, ite_self, implies_true, and_self]

theorem keeps_selection (m0 : Mach) (inp : FrameIn) :
    (Mach.selection m0 inp).mram = m0.mram
    ∧ (Mach.selection m0 inp).time.frame = m0.time.frame
    ∧ (Mach.selection m0 inp).sec.rollback = m0.sec.rollback
    ∧ (Mach.selection m0 inp).sec.boots = m0.sec.boots
    ∧ (Mach.selection m0 inp).cab.creds = m0.cab.creds := by
  unfold Mach.selection; try dsimp only
  refine ⟨?_, ?_, ?_, ?_, ?_⟩ <;>
  (repeat' split) <;>
  first | with_reducible rfl | (simp only [↓keeps_noTether, ↓keeps_onAp, ↓keeps_regrant, ↓keeps_writeSels, ↓ite_mram, ↓ite_time_frame, ↓ite_sec_rollback, ↓ite_sec_boots, ↓ite_cab_creds, ↓ite_fst, ite_self, implies_true, and_self]; done)

theorem keeps_overruns (m : Mach) (inp : FrameIn) :
    (Mach.overruns m inp).mram = m.mram
    ∧ (Mach.overruns m inp).time.frame = m.time.frame
    ∧ (Mach.overruns m inp).sec.rollback = m.sec.rollback
    ∧ (Mach.overruns m inp).sec.boots = m.sec.boots
    ∧ (Mach.overruns m inp).cab.creds = m.cab.creds := by
  unfold Mach.overruns
  exact ⟨by with_reducible rfl, by with_reducible rfl, by with_reducible rfl, by with_reducible rfl, by with_reducible rfl⟩

theorem keeps_noteMarks (m : Mach) (inp : FrameIn) :
    (Mach.noteMarks m inp).mram = m.mram
    ∧ (Mach.noteMarks m inp).time.frame = m.time.frame
    ∧ (Mach.noteMarks m inp).sec.rollback = m.sec.rollback
    ∧ (Mach.noteMarks m inp).sec.boots = m.sec.boots
    ∧ (Mach.noteMarks m inp).cab.creds = m.cab.creds := by
  unfold Mach.noteMarks
  exact ⟨by with_reducible rfl, by with_reducible rfl, by with_reducible rfl, by with_reducible rfl, by with_reducible rfl⟩

theorem keeps_writeDigests (m : Mach) (inp : FrameIn) :
    (Mach.writeDigests m inp).mram = m.mram
    ∧ (Mach.writeDigests m inp).time.frame = m.time.frame
    ∧ (Mach.writeDigests m inp).sec.rollback = m.sec.rollback
    ∧ (Mach.writeDigests m inp).sec.boots = m.sec.boots
    ∧ (Mach.writeDigests m inp).cab.creds = m.cab.creds := by
  unfold Mach.writeDigests
  exact ⟨by with_reducible rfl, by with_reducible rfl, by with_reducible rfl, by with_reducible rfl, by with_reducible rfl⟩

theorem keeps_shadowCompare (m : Mach) :
    (Mach.shadowCompare m).mram = m.mram
    ∧ (Mach.shadowCompare m).time.frame = m.time.frame
    ∧ (Mach.shadowCompare m).sec.rollback = m.sec.rollback
    ∧ (Mach.shadowCompare m).sec.boots = m.sec.boots
    ∧ (Mach.shadowCompare m).cab.creds = m.cab.creds := by
  unfold Mach.shadowCompare; try dsimp only
  refine ⟨?_, ?_, ?_, ?_, ?_⟩ <;>
  (repeat' split) <;>
  first | with_reducible rfl | (simp only [↓keeps_passTether, ↓keeps_raise, ↓keeps_unsync, ↓ite_mram, ↓ite_time_frame, ↓ite_sec_rollback, ↓ite_sec_boots, ↓ite_cab_creds, ↓ite_fst, ite_self, implies_true, and_self]; done)

theorem keeps_passAtFreeze (m : Mach) (inp : FrameIn) :
    (Mach.passAtFreeze m inp).mram = m.mram
    ∧ (Mach.passAtFreeze m inp).time.frame = m.time.frame
    ∧ (Mach.passAtFreeze m inp).sec.rollback = m.sec.rollback
    ∧ (Mach.passAtFreeze m inp).sec.boots = m.sec.boots
    ∧ (Mach.passAtFreeze m inp).cab.creds = m.cab.creds := by
  unfold Mach.passAtFreeze; try dsimp only
  refine ⟨?_, ?_, ?_, ?_, ?_⟩ <;>
  (repeat' split) <;>
  first | with_reducible rfl | (simp only [↓keeps_onAp, ↓keeps_passTether, ↓keeps_raise, ↓ite_mram, ↓ite_time_frame, ↓ite_sec_rollback, ↓ite_sec_boots, ↓ite_cab_creds, ↓ite_fst, ite_self, implies_true, and_self]; done)

theorem keeps_otherFrame (m : Mach) (inp : FrameIn) :
    (Mach.otherFrame m inp).mram = m.mram
    ∧ (Mach.otherFrame m inp).time.frame = m.time.frame
    ∧ (Mach.otherFrame m inp).sec.rollback = m.sec.rollback
    ∧ (Mach.otherFrame m inp).sec.boots = m.sec.boots
    ∧ (Mach.otherFrame m inp).cab.creds = m.cab.creds := by
  unfold Mach.otherFrame; try dsimp only
  refine ⟨?_, ?_, ?_, ?_, ?_⟩ <;>
  (repeat' split) <;>
  first | with_reducible rfl | (simp only [↓keeps_onAp, ↓keeps_raise, ↓keeps_unsync, ↓ite_mram, ↓ite_time_frame, ↓ite_sec_rollback, ↓ite_sec_boots, ↓ite_cab_creds, ↓ite_fst, ite_self, implies_true, and_self]; done)

theorem keeps_handover (m : Mach) (inp : FrameIn) :
    (Mach.handover m inp).mram = m.mram
    ∧ (Mach.handover m inp).time.frame = m.time.frame
    ∧ (Mach.handover m inp).sec.rollback = m.sec.rollback
    ∧ (Mach.handover m inp).sec.boots = m.sec.boots
    ∧ (Mach.handover m inp).cab.creds = m.cab.creds := by
  unfold Mach.handover; try dsimp only
  refine ⟨?_, ?_, ?_, ?_, ?_⟩ <;>
  (repeat' split) <;>
  first | with_reducible rfl | (simp only [↓keeps_dropTether, ↓keeps_passTether, ↓keeps_raise, ↓ite_mram, ↓ite_time_frame, ↓ite_sec_rollback, ↓ite_sec_boots, ↓ite_cab_creds, ↓ite_fst, ite_self, implies_true, and_self]; done)

theorem keeps_copyWrites (m : Mach) (inp : FrameIn) :
    (Mach.copyWrites m inp).mram = m.mram
    ∧ (Mach.copyWrites m inp).time.frame = m.time.frame
    ∧ (Mach.copyWrites m inp).sec.rollback = m.sec.rollback
    ∧ (Mach.copyWrites m inp).sec.boots = m.sec.boots
    ∧ (Mach.copyWrites m inp).cab.creds = m.cab.creds := by
  unfold Mach.copyWrites; try dsimp only
  refine ⟨?_, ?_, ?_, ?_, ?_⟩ <;>
  (repeat' split) <;>
  first | with_reducible rfl | (simp only [↓ite_mram, ↓ite_time_frame, ↓ite_sec_rollback, ↓ite_sec_boots, ↓ite_cab_creds, ↓ite_fst, ite_self, implies_true, and_self]; done)

theorem keeps_cleanFrames (m : Mach) :
    (Mach.cleanFrames m).mram = m.mram
    ∧ (Mach.cleanFrames m).time.frame = m.time.frame
    ∧ (Mach.cleanFrames m).sec.rollback = m.sec.rollback
    ∧ (Mach.cleanFrames m).sec.boots = m.sec.boots
    ∧ (Mach.cleanFrames m).cab.creds = m.cab.creds := by
  unfold Mach.cleanFrames; try dsimp only
  refine ⟨?_, ?_, ?_, ?_, ?_⟩ <;>
  (repeat' split) <;>
  first | with_reducible rfl | (simp only [↓keeps_onAp, ↓ite_mram, ↓ite_time_frame, ↓ite_sec_rollback, ↓ite_sec_boots, ↓ite_cab_creds, ↓ite_fst, ite_self, implies_true, and_self]; done)

theorem keeps_pairFaults (m : Mach) :
    (Mach.pairFaults m).mram = m.mram
    ∧ (Mach.pairFaults m).time.frame = m.time.frame
    ∧ (Mach.pairFaults m).sec.rollback = m.sec.rollback
    ∧ (Mach.pairFaults m).sec.boots = m.sec.boots
    ∧ (Mach.pairFaults m).cab.creds = m.cab.creds := by
  unfold Mach.pairFaults; try dsimp only
  simp only [↓keeps_endFault, ↓keeps_endIf, ↓keeps_raise, ↓ite_mram, ↓ite_time_frame, ↓ite_sec_rollback, ↓ite_sec_boots, ↓ite_cab_creds, ↓ite_fst, ite_self, implies_true, and_self]

theorem keeps_tethPin (m : Mach) :
    (Mach.tethPin m).mram = m.mram
    ∧ (Mach.tethPin m).time.frame = m.time.frame
    ∧ (Mach.tethPin m).sec.rollback = m.sec.rollback
    ∧ (Mach.tethPin m).sec.boots = m.sec.boots
    ∧ (Mach.tethPin m).cab.creds = m.cab.creds := by
  unfold Mach.tethPin
  exact ⟨by with_reducible rfl, by with_reducible rfl, by with_reducible rfl, by with_reducible rfl, by with_reducible rfl⟩

theorem keeps_pairFrame (m : Mach) (inp : FrameIn) :
    (Mach.pairFrame m inp).mram = m.mram
    ∧ (Mach.pairFrame m inp).time.frame = m.time.frame
    ∧ (Mach.pairFrame m inp).sec.rollback = m.sec.rollback
    ∧ (Mach.pairFrame m inp).sec.boots = m.sec.boots
    ∧ (Mach.pairFrame m inp).cab.creds = m.cab.creds := by
  unfold Mach.pairFrame; try dsimp only
  simp only [↓keeps_cleanFrames, ↓keeps_copyWrites, ↓keeps_handover, ↓keeps_noteMarks, ↓keeps_otherFrame, ↓keeps_overruns, ↓keeps_pairFaults, ↓keeps_passAtFreeze, ↓keeps_selection, ↓keeps_shadowCompare, ↓keeps_startResets, ↓keeps_tethPin, ↓ite_mram, ↓ite_time_frame, ↓ite_sec_rollback, ↓ite_sec_boots, ↓ite_cab_creds, ↓ite_fst, ite_self, implies_true, and_self]

theorem keeps_afterReload (m : Mach) (a : Ab) :
    (Mach.afterReload m a).mram = m.mram
    ∧ (Mach.afterReload m a).time.frame = m.time.frame
    ∧ (Mach.afterReload m a).sec.rollback = m.sec.rollback
    ∧ (Mach.afterReload m a).sec.boots = m.sec.boots
    ∧ (Mach.afterReload m a).cab.creds = m.cab.creds := by
  unfold Mach.afterReload; try dsimp only
  simp only [↓keeps_onAp, ↓keeps_raise, ↓ite_mram, ↓ite_time_frame, ↓ite_sec_rollback, ↓ite_sec_boots, ↓ite_cab_creds, ↓ite_fst, ite_self, implies_true, and_self]

theorem keeps_switchTo (m : Mach) (to1 : Ab) (back : Bool) :
    (Mach.switchTo m to1 back).1.mram = m.mram
    ∧ (Mach.switchTo m to1 back).1.time.frame = m.time.frame
    ∧ (Mach.switchTo m to1 back).1.sec.rollback = m.sec.rollback
    ∧ (Mach.switchTo m to1 back).1.sec.boots = m.sec.boots
    ∧ (Mach.switchTo m to1 back).1.cab.creds = m.cab.creds := by
  unfold Mach.switchTo; try dsimp only
  simp only [↓keeps_ok, ↓keeps_refuse, ↓ite_mram, ↓ite_time_frame, ↓ite_sec_rollback, ↓ite_sec_boots, ↓ite_cab_creds, ↓ite_fst, ite_self, implies_true, and_self]

end Sys2Proof.Laws
end

