-- ==== Sys2Proof/Laws/KeepBus.lean ====
section
/-!
SUPPORT. What the operations of Machine/Bus.lean leave alone of the MRAM, the frame count, the rollback
counter, the boot count and the credentials of the cabinet, and that they keep the canonical form of the MRAM.
-/
namespace Sys2Proof.Laws

open Sys2Proof Sys2Proof.Machine

set_option linter.all false
set_option linter.unreachableTactic false
set_option linter.unusedTactic false
theorem keeps_onPort (m : Mach) (p : Ab) (f : PortState → PortState) :
    (Mach.onPort m p f).mram = m.mram
    ∧ (Mach.onPort m p f).time.frame = m.time.frame
    ∧ (Mach.onPort m p f).sec.rollback = m.sec.rollback
    ∧ (Mach.onPort m p f).sec.boots = m.sec.boots
    ∧ (Mach.onPort m p f).cab.creds = m.cab.creds := by
  unfold Mach.onPort
  exact ⟨by with_reducible rfl, by with_reducible rfl, by with_reducible rfl, by with_reducible rfl, by with_reducible rfl⟩

theorem keeps_setObj (m : Mach) (p : Ab) (o : ObjRec) :
    (Mach.setObj m p o).mram = m.mram
    ∧ (Mach.setObj m p o).time.frame = m.time.frame
    ∧ (Mach.setObj m p o).sec.rollback = m.sec.rollback
    ∧ (Mach.setObj m p o).sec.boots = m.sec.boots
    ∧ (Mach.setObj m p o).cab.creds = m.cab.creds := by
  unfold Mach.setObj; try dsimp only
  simp only [↓keeps_onPort, ↓ite_mram, ↓ite_time_frame, ↓ite_sec_rollback, ↓ite_sec_boots, ↓ite_cab_creds, ↓ite_fst, ite_self, implies_true, and_self]

theorem keeps_rebind (m : Mach) (written : List Nat) :
    (Mach.rebind m written).mram = m.mram
    ∧ (Mach.rebind m written).time.frame = m.time.frame
    ∧ (Mach.rebind m written).sec.rollback = m.sec.rollback
    ∧ (Mach.rebind m written).sec.boots = m.sec.boots
    ∧ (Mach.rebind m written).cab.creds = m.cab.creds := by
  unfold Mach.rebind; try dsimp only
  simp only [↓keeps_endIf, ↓keeps_onPort, ↓ite_mram, ↓each_mram, ↓ite_time_frame, ↓each_time_frame, ↓ite_sec_rollback, ↓each_sec_rollback, ↓ite_sec_boots, ↓each_sec_boots, ↓ite_cab_creds, ↓each_cab_creds, ↓ite_fst, ite_self, implies_true, and_self]

theorem keeps_withEntries (m : Mach) (h : Nat) (es : List SetEntry) :
    (Mach.withEntries m h es).mram = m.mram
    ∧ (Mach.withEntries m h es).time.frame = m.time.frame
    ∧ (Mach.withEntries m h es).sec.rollback = m.sec.rollback
    ∧ (Mach.withEntries m h es).sec.boots = m.sec.boots
    ∧ (Mach.withEntries m h es).cab.creds = m.cab.creds := by
  unfold Mach.withEntries; try dsimp only
  refine ⟨?_, ?_, ?_, ?_, ?_⟩ <;>
  (first | refine each_mram _ _ _ fun m x => ?_ | refine each_time_frame _ _ _ fun m x => ?_ | refine each_sec_rollback _ _ _ fun m x => ?_ | refine each_sec_boots _ _ _ fun m x => ?_ | refine each_cab_creds _ _ _ fun m x => ?_) <;> (repeat' split) <;>
  first | with_reducible rfl | (simp only [↓keeps_put, ↓ite_mram, ↓each_mram, ↓foldl_mram, ↓ite_time_frame, ↓each_time_frame, ↓foldl_time_frame, ↓ite_sec_rollback, ↓each_sec_rollback, ↓foldl_sec_rollback, ↓ite_sec_boots, ↓each_sec_boots, ↓foldl_sec_boots, ↓ite_cab_creds, ↓each_cab_creds, ↓foldl_cab_creds, ↓ite_fst, ite_self, implies_true, and_self]; done)

theorem keeps_untimed (m : Mach) :
    (Mach.untimed m).mram = m.mram
    ∧ (Mach.untimed m).time.frame = m.time.frame
    ∧ (Mach.untimed m).sec.rollback = m.sec.rollback
    ∧ (Mach.untimed m).sec.boots = m.sec.boots
    ∧ (Mach.untimed m).cab.creds = m.cab.creds := by
  unfold Mach.untimed; try dsimp only
  simp only [↓keeps_onPort, ↓ite_mram, ↓ite_time_frame, ↓ite_sec_rollback, ↓ite_sec_boots, ↓ite_cab_creds, ↓ite_fst, ite_self, implies_true, and_self]

theorem keeps_busWritten (m : Mach) (old : Mach) :
    (Mach.busWritten m old).mram = m.mram
    ∧ (Mach.busWritten m old).time.frame = m.time.frame
    ∧ (Mach.busWritten m old).sec.rollback = m.sec.rollback
    ∧ (Mach.busWritten m old).sec.boots = m.sec.boots
    ∧ (Mach.busWritten m old).cab.creds = m.cab.creds := by
  unfold Mach.busWritten; try dsimp only
  simp only [↓keeps_onPort, ↓keeps_rebind, ↓ite_mram, ↓each_mram, ↓ite_time_frame, ↓each_time_frame, ↓ite_sec_rollback, ↓each_sec_rollback, ↓ite_sec_boots, ↓each_sec_boots, ↓ite_cab_creds, ↓each_cab_creds, ↓ite_fst, ite_self, implies_true, and_self]

theorem keeps_busCount (m : Mach) (p : Ab) (idx : Nat) (n : Nat) :
    (Mach.busCount m p idx n).mram = m.mram
    ∧ (Mach.busCount m p idx n).time.frame = m.time.frame
    ∧ (Mach.busCount m p idx n).sec.rollback = m.sec.rollback
    ∧ (Mach.busCount m p idx n).sec.boots = m.sec.boots
    ∧ (Mach.busCount m p idx n).cab.creds = m.cab.creds := by
  unfold Mach.busCount; try dsimp only
  simp only [↓keeps_countN, ↓ite_mram, ↓ite_time_frame, ↓ite_sec_rollback, ↓ite_sec_boots, ↓ite_cab_creds, ↓ite_fst, ite_self, implies_true, and_self]

theorem keeps_busLost (m : Mach) (p : Ab) (n : Nat) :
    (Mach.busLost m p n).mram = m.mram
    ∧ (Mach.busLost m p n).time.frame = m.time.frame
    ∧ (Mach.busLost m p n).sec.rollback = m.sec.rollback
    ∧ (Mach.busLost m p n).sec.boots = m.sec.boots
    ∧ (Mach.busLost m p n).cab.creds = m.cab.creds := by
  unfold Mach.busLost; try dsimp only
  simp only [↓keeps_busCount, ↓keeps_onPort, ↓ite_mram, ↓ite_time_frame, ↓ite_sec_rollback, ↓ite_sec_boots, ↓ite_cab_creds, ↓ite_fst, ite_self, implies_true, and_self]

theorem keeps_busCrcErr (m : Mach) (p : Ab) :
    (Mach.busCrcErr m p).mram = m.mram
    ∧ (Mach.busCrcErr m p).time.frame = m.time.frame
    ∧ (Mach.busCrcErr m p).sec.rollback = m.sec.rollback
    ∧ (Mach.busCrcErr m p).sec.boots = m.sec.boots
    ∧ (Mach.busCrcErr m p).cab.creds = m.cab.creds := by
  unfold Mach.busCrcErr; try dsimp only
  simp only [↓keeps_busCount, ↓keeps_onPort, ↓ite_mram, ↓ite_time_frame, ↓ite_sec_rollback, ↓ite_sec_boots, ↓ite_cab_creds, ↓ite_fst, ite_self, implies_true, and_self]

theorem keeps_crossing (m : Mach) (p : Ab) (w : Nat) (old : Nat) (new : Nat) :
    (Mach.crossing m p w old new).mram = m.mram
    ∧ (Mach.crossing m p w old new).time.frame = m.time.frame
    ∧ (Mach.crossing m p w old new).sec.rollback = m.sec.rollback
    ∧ (Mach.crossing m p w old new).sec.boots = m.sec.boots
    ∧ (Mach.crossing m p w old new).cab.creds = m.cab.creds := by
  unfold Mach.crossing; try dsimp only
  simp only [↓keeps_post, ↓ite_mram, ↓ite_time_frame, ↓ite_sec_rollback, ↓ite_sec_boots, ↓ite_cab_creds, ↓ite_fst, ite_self, implies_true, and_self]

theorem keeps_busWarning (m : Mach) (p : Ab) :
    (Mach.busWarning m p).mram = m.mram
    ∧ (Mach.busWarning m p).time.frame = m.time.frame
    ∧ (Mach.busWarning m p).sec.rollback = m.sec.rollback
    ∧ (Mach.busWarning m p).sec.boots = m.sec.boots
    ∧ (Mach.busWarning m p).cab.creds = m.cab.creds := by
  unfold Mach.busWarning; try dsimp only
  simp only [↓keeps_endFault, ↓keeps_raise, ↓ite_mram, ↓ite_time_frame, ↓ite_sec_rollback, ↓ite_sec_boots, ↓ite_cab_creds, ↓ite_fst, ite_self, implies_true, and_self]

theorem keeps_setCounters (m : Mach) (p : Ab) (tec : Nat) (errs : Nat) :
    (Mach.setCounters m p tec errs).mram = m.mram
    ∧ (Mach.setCounters m p tec errs).time.frame = m.time.frame
    ∧ (Mach.setCounters m p tec errs).sec.rollback = m.sec.rollback
    ∧ (Mach.setCounters m p tec errs).sec.boots = m.sec.boots
    ∧ (Mach.setCounters m p tec errs).cab.creds = m.cab.creds := by
  unfold Mach.setCounters; try dsimp only
  simp only [↓keeps_busWarning, ↓keeps_crossing, ↓keeps_endFault, ↓keeps_extreme, ↓keeps_onPort, ↓keeps_post, ↓keeps_raise, ↓ite_mram, ↓ite_time_frame, ↓ite_sec_rollback, ↓ite_sec_boots, ↓ite_cab_creds, ↓ite_fst, ite_self, implies_true, and_self]

theorem keeps_heard (m : Mach) (p : Ab) :
    (Mach.heard m p).mram = m.mram
    ∧ (Mach.heard m p).time.frame = m.time.frame
    ∧ (Mach.heard m p).sec.rollback = m.sec.rollback
    ∧ (Mach.heard m p).sec.boots = m.sec.boots
    ∧ (Mach.heard m p).cab.creds = m.cab.creds := by
  unfold Mach.heard; try dsimp only
  simp only [↓keeps_endFault, ↓keeps_onPort, ↓ite_mram, ↓ite_time_frame, ↓ite_sec_rollback, ↓ite_sec_boots, ↓ite_cab_creds, ↓ite_fst, ite_self, implies_true, and_self]

theorem keeps_transceiverFault (m : Mach) (p : Ab) :
    (Mach.transceiverFault m p).mram = m.mram
    ∧ (Mach.transceiverFault m p).time.frame = m.time.frame
    ∧ (Mach.transceiverFault m p).sec.rollback = m.sec.rollback
    ∧ (Mach.transceiverFault m p).sec.boots = m.sec.boots
    ∧ (Mach.transceiverFault m p).cab.creds = m.cab.creds := by
  unfold Mach.transceiverFault; try dsimp only
  simp only [↓keeps_onPort, ↓keeps_raise, ↓ite_mram, ↓ite_time_frame, ↓ite_sec_rollback, ↓ite_sec_boots, ↓ite_cab_creds, ↓ite_fst, ite_self, implies_true, and_self]

theorem keeps_seqAccept (m : Mach) (p : Ab) (ident : Nat) (src : Nat) (seq : Nat) :
    (Mach.seqAccept m p ident src seq).mram = m.mram
    ∧ (Mach.seqAccept m p ident src seq).time.frame = m.time.frame
    ∧ (Mach.seqAccept m p ident src seq).sec.rollback = m.sec.rollback
    ∧ (Mach.seqAccept m p ident src seq).sec.boots = m.sec.boots
    ∧ (Mach.seqAccept m p ident src seq).cab.creds = m.cab.creds := by
  unfold Mach.seqAccept
  exact ⟨by with_reducible rfl, by with_reducible rfl, by with_reducible rfl, by with_reducible rfl, by with_reducible rfl⟩

theorem keeps_txSeqNext (m : Mach) (p : Ab) (ident : Nat) :
    (Mach.txSeqNext m p ident).mram = m.mram
    ∧ (Mach.txSeqNext m p ident).time.frame = m.time.frame
    ∧ (Mach.txSeqNext m p ident).sec.rollback = m.sec.rollback
    ∧ (Mach.txSeqNext m p ident).sec.boots = m.sec.boots
    ∧ (Mach.txSeqNext m p ident).cab.creds = m.cab.creds := by
  unfold Mach.txSeqNext
  exact ⟨by with_reducible rfl, by with_reducible rfl, by with_reducible rfl, by with_reducible rfl, by with_reducible rfl⟩

theorem keeps_recDown (m : Mach) (p : Ab) :
    (Mach.recDown m p).mram = m.mram
    ∧ (Mach.recDown m p).time.frame = m.time.frame
    ∧ (Mach.recDown m p).sec.rollback = m.sec.rollback
    ∧ (Mach.recDown m p).sec.boots = m.sec.boots
    ∧ (Mach.recDown m p).cab.creds = m.cab.creds := by
  unfold Mach.recDown; try dsimp only
  simp only [↓keeps_setCounters, ↓ite_mram, ↓ite_time_frame, ↓ite_sec_rollback, ↓ite_sec_boots, ↓ite_cab_creds, ↓ite_fst, ite_self, implies_true, and_self]

theorem keeps_storeFrame (m : Mach) (p : Ab) (o : ObjRec) (f : CanFrame) :
    (Mach.storeFrame m p o f).mram = m.mram
    ∧ (Mach.storeFrame m p o f).time.frame = m.time.frame
    ∧ (Mach.storeFrame m p o f).sec.rollback = m.sec.rollback
    ∧ (Mach.storeFrame m p o f).sec.boots = m.sec.boots
    ∧ (Mach.storeFrame m p o f).cab.creds = m.cab.creds := by
  unfold Mach.storeFrame; try dsimp only
  simp only [↓keeps_busLost, ↓keeps_onPort, ↓keeps_setObj, ↓ite_mram, ↓ite_time_frame, ↓ite_sec_rollback, ↓ite_sec_boots, ↓ite_cab_creds, ↓ite_fst, ite_self, implies_true, and_self]

theorem keeps_cancelEvent (m : Mach) (p : Ab) (o : ObjRec) (completed : Bool) :
    (Mach.cancelEvent m p o completed).mram = m.mram
    ∧ (Mach.cancelEvent m p o completed).time.frame = m.time.frame
    ∧ (Mach.cancelEvent m p o completed).sec.rollback = m.sec.rollback
    ∧ (Mach.cancelEvent m p o completed).sec.boots = m.sec.boots
    ∧ (Mach.cancelEvent m p o completed).cab.creds = m.cab.creds := by
  unfold Mach.cancelEvent; try dsimp only
  simp only [↓keeps_post, ↓ite_mram, ↓ite_time_frame, ↓ite_sec_rollback, ↓ite_sec_boots, ↓ite_cab_creds, ↓ite_fst, ite_self, implies_true, and_self]

theorem keeps_notSent (m : Mach) (p : Ab) (o : ObjRec) :
    (Mach.notSent m p o).mram = m.mram
    ∧ (Mach.notSent m p o).time.frame = m.time.frame
    ∧ (Mach.notSent m p o).sec.rollback = m.sec.rollback
    ∧ (Mach.notSent m p o).sec.boots = m.sec.boots
    ∧ (Mach.notSent m p o).cab.creds = m.cab.creds := by
  unfold Mach.notSent; try dsimp only
  simp only [↓keeps_cancelEvent, ↓keeps_setObj, ↓ite_mram, ↓ite_time_frame, ↓ite_sec_rollback, ↓ite_sec_boots, ↓ite_cab_creds, ↓ite_fst, ite_self, implies_true, and_self]

theorem keeps_txError (m : Mach) (p : Ab) (inc : Nat) :
    (Mach.txError m p inc).mram = m.mram
    ∧ (Mach.txError m p inc).time.frame = m.time.frame
    ∧ (Mach.txError m p inc).sec.rollback = m.sec.rollback
    ∧ (Mach.txError m p inc).sec.boots = m.sec.boots
    ∧ (Mach.txError m p inc).cab.creds = m.cab.creds := by
  unfold Mach.txError; try dsimp only
  simp only [↓keeps_setCounters, ↓ite_mram, ↓ite_time_frame, ↓ite_sec_rollback, ↓ite_sec_boots, ↓ite_cab_creds, ↓ite_fst, ite_self, implies_true, and_self]

theorem keeps_ttSent (m : Mach) (p : Ab) (n : Nat) :
    (Mach.ttSent m p n).mram = m.mram
    ∧ (Mach.ttSent m p n).time.frame = m.time.frame
    ∧ (Mach.ttSent m p n).sec.rollback = m.sec.rollback
    ∧ (Mach.ttSent m p n).sec.boots = m.sec.boots
    ∧ (Mach.ttSent m p n).cab.creds = m.cab.creds := by
  unfold Mach.ttSent; try dsimp only
  simp only [↓keeps_endIf, ↓keeps_onPort, ↓ite_mram, ↓ite_time_frame, ↓ite_sec_rollback, ↓ite_sec_boots, ↓ite_cab_creds, ↓ite_fst, ite_self, implies_true, and_self]

theorem keeps_frameSent (m : Mach) (p : Ab) (o : ObjRec) (sof : Nat) :
    (Mach.frameSent m p o sof).mram = m.mram
    ∧ (Mach.frameSent m p o sof).time.frame = m.time.frame
    ∧ (Mach.frameSent m p o sof).sec.rollback = m.sec.rollback
    ∧ (Mach.frameSent m p o sof).sec.boots = m.sec.boots
    ∧ (Mach.frameSent m p o sof).cab.creds = m.cab.creds := by
  unfold Mach.frameSent; try dsimp only
  simp only [↓keeps_cancelEvent, ↓keeps_heard, ↓keeps_onPort, ↓keeps_setCounters, ↓keeps_setObj, ↓keeps_ttSent, ↓ite_mram, ↓ite_time_frame, ↓ite_sec_rollback, ↓ite_sec_boots, ↓ite_cab_creds, ↓ite_fst, ite_self, implies_true, and_self]

theorem keeps_matrixTick (m : Mach) (p : Ab) :
    (Mach.matrixTick m p).mram = m.mram
    ∧ (Mach.matrixTick m p).time.frame = m.time.frame
    ∧ (Mach.matrixTick m p).sec.rollback = m.sec.rollback
    ∧ (Mach.matrixTick m p).sec.boots = m.sec.boots
    ∧ (Mach.matrixTick m p).cab.creds = m.cab.creds := by
  unfold Mach.matrixTick; try dsimp only
  refine ⟨?_, ?_, ?_, ?_, ?_⟩ <;>
  (repeat' split) <;>
  first | with_reducible rfl | (simp only [↓keeps_onPort, ↓ite_mram, ↓ite_time_frame, ↓ite_sec_rollback, ↓ite_sec_boots, ↓ite_cab_creds, ↓ite_fst, ite_self, implies_true, and_self]; done)

theorem keeps_requestRef (m : Mach) (p : Ab) :
    (Mach.requestRef m p).mram = m.mram
    ∧ (Mach.requestRef m p).time.frame = m.time.frame
    ∧ (Mach.requestRef m p).sec.rollback = m.sec.rollback
    ∧ (Mach.requestRef m p).sec.boots = m.sec.boots
    ∧ (Mach.requestRef m p).cab.creds = m.cab.creds := by
  unfold Mach.requestRef; try dsimp only
  simp only [↓keeps_setObj, ↓ite_mram, ↓ite_time_frame, ↓ite_sec_rollback, ↓ite_sec_boots, ↓ite_cab_creds, ↓ite_fst, ite_self, implies_true, and_self]

theorem keeps_timeRefTick (m : Mach) (p : Ab) :
    (Mach.timeRefTick m p).mram = m.mram
    ∧ (Mach.timeRefTick m p).time.frame = m.time.frame
    ∧ (Mach.timeRefTick m p).sec.rollback = m.sec.rollback
    ∧ (Mach.timeRefTick m p).sec.boots = m.sec.boots
    ∧ (Mach.timeRefTick m p).cab.creds = m.cab.creds := by
  unfold Mach.timeRefTick; try dsimp only
  simp only [↓keeps_onPort, ↓keeps_requestRef, ↓ite_mram, ↓ite_time_frame, ↓ite_sec_rollback, ↓ite_sec_boots, ↓ite_cab_creds, ↓ite_fst, ite_self, implies_true, and_self]

theorem keeps_portSleep (m : Mach) (p : Ab) (onBus : Option Nat) :
    (Mach.portSleep m p onBus).mram = m.mram
    ∧ (Mach.portSleep m p onBus).time.frame = m.time.frame
    ∧ (Mach.portSleep m p onBus).sec.rollback = m.sec.rollback
    ∧ (Mach.portSleep m p onBus).sec.boots = m.sec.boots
    ∧ (Mach.portSleep m p onBus).cab.creds = m.cab.creds := by
  unfold Mach.portSleep; try dsimp only
  simp only [↓keeps_busLost, ↓keeps_onPort, ↓ite_mram, ↓ite_time_frame, ↓ite_sec_rollback, ↓ite_sec_boots, ↓ite_cab_creds, ↓ite_fst, ite_self, implies_true, and_self]

theorem keeps_portWake (m : Mach) (p : Ab) :
    (Mach.portWake m p).mram = m.mram
    ∧ (Mach.portWake m p).time.frame = m.time.frame
    ∧ (Mach.portWake m p).sec.rollback = m.sec.rollback
    ∧ (Mach.portWake m p).sec.boots = m.sec.boots
    ∧ (Mach.portWake m p).cab.creds = m.cab.creds := by
  unfold Mach.portWake; try dsimp only
  simp only [↓keeps_onPort, ↓ite_mram, ↓ite_time_frame, ↓ite_sec_rollback, ↓ite_sec_boots, ↓ite_cab_creds, ↓ite_fst, ite_self, implies_true, and_self]

theorem keeps_takeObjects (m : Mach) :
    (Mach.takeObjects m).mram = m.mram
    ∧ (Mach.takeObjects m).time.frame = m.time.frame
    ∧ (Mach.takeObjects m).sec.rollback = m.sec.rollback
    ∧ (Mach.takeObjects m).sec.boots = m.sec.boots
    ∧ (Mach.takeObjects m).cab.creds = m.cab.creds := by
  unfold Mach.takeObjects; try dsimp only
  simp only [↓keeps_onPort, ↓ite_mram, ↓each_mram, ↓ite_time_frame, ↓each_time_frame, ↓ite_sec_rollback, ↓each_sec_rollback, ↓ite_sec_boots, ↓each_sec_boots, ↓ite_cab_creds, ↓each_cab_creds, ↓ite_fst, ite_self, implies_true, and_self]

theorem keeps_trxTick (m : Mach) (p : Ab) :
    (Mach.trxTick m p).mram = m.mram
    ∧ (Mach.trxTick m p).time.frame = m.time.frame
    ∧ (Mach.trxTick m p).sec.rollback = m.sec.rollback
    ∧ (Mach.trxTick m p).sec.boots = m.sec.boots
    ∧ (Mach.trxTick m p).cab.creds = m.cab.creds := by
  unfold Mach.trxTick; try dsimp only
  refine ⟨?_, ?_, ?_, ?_, ?_⟩ <;>
  (repeat' split) <;>
  first | with_reducible rfl | (simp only [↓keeps_endFault, ↓keeps_onPort, ↓ite_mram, ↓ite_time_frame, ↓ite_sec_rollback, ↓ite_sec_boots, ↓ite_cab_creds, ↓ite_fst, ite_self, implies_true, and_self]; done)

theorem keeps_busTick (m : Mach) :
    (Mach.busTick m).mram = m.mram
    ∧ (Mach.busTick m).time.frame = m.time.frame
    ∧ (Mach.busTick m).sec.rollback = m.sec.rollback
    ∧ (Mach.busTick m).sec.boots = m.sec.boots
    ∧ (Mach.busTick m).cab.creds = m.cab.creds := by
  unfold Mach.busTick; try dsimp only
  simp only [↓keeps_busWarning, ↓keeps_matrixTick, ↓keeps_timeRefTick, ↓keeps_trxTick, ↓ite_mram, ↓each_mram, ↓ite_time_frame, ↓each_time_frame, ↓ite_sec_rollback, ↓each_sec_rollback, ↓ite_sec_boots, ↓each_sec_boots, ↓ite_cab_creds, ↓each_cab_creds, ↓ite_fst, ite_self, implies_true, and_self]

theorem keeps_sendMsg (m : Mach) (g : Msg) (body : List Nat) :
    (Mach.sendMsg m g body).mram = m.mram
    ∧ (Mach.sendMsg m g body).time.frame = m.time.frame
    ∧ (Mach.sendMsg m g body).sec.rollback = m.sec.rollback
    ∧ (Mach.sendMsg m g body).sec.boots = m.sec.boots
    ∧ (Mach.sendMsg m g body).cab.creds = m.cab.creds := by
  unfold Mach.sendMsg; try dsimp only
  simp only [↓keeps_setObj, ↓keeps_txSeqNext, ↓ite_mram, ↓ite_time_frame, ↓ite_sec_rollback, ↓ite_sec_boots, ↓ite_cab_creds, ↓ite_fst, ite_self, implies_true, and_self]

end Sys2Proof.Laws
end

