-- ==== Sys2Proof/Laws/KeepProfile.lean ====
section
/-!
SUPPORT. What the operations of Machine/Profile.lean leave alone of the MRAM, the frame count, the rollback
counter, the boot count and the credentials of the cabinet, and that they keep the canonical form of the MRAM.
-/
namespace Sys2Proof.Laws

open Sys2Proof Sys2Proof.Machine

set_option linter.all false
set_option linter.unreachableTactic false
set_option linter.unusedTactic false
theorem keeps_msgAccept (m : Mach) (p : Ab) (ident : Nat) (b : List Nat) :
    (Mach.msgAccept m p ident b).mram = m.mram
    ∧ (Mach.msgAccept m p ident b).time.frame = m.time.frame
    ∧ (Mach.msgAccept m p ident b).sec.rollback = m.sec.rollback
    ∧ (Mach.msgAccept m p ident b).sec.boots = m.sec.boots
    ∧ (Mach.msgAccept m p ident b).cab.creds = m.cab.creds := by
  unfold Mach.msgAccept; try dsimp only
  simp only [↓keeps_seqAccept, ↓ite_mram, ↓ite_time_frame, ↓ite_sec_rollback, ↓ite_sec_boots, ↓ite_cab_creds, ↓ite_fst, ite_self, implies_true, and_self]

theorem keeps_takeLock (m : Mach) (l : Nat) (nibble : Nat) :
    (Mach.takeLock m l nibble).mram = m.mram
    ∧ (Mach.takeLock m l nibble).time.frame = m.time.frame
    ∧ (Mach.takeLock m l nibble).sec.rollback = m.sec.rollback
    ∧ (Mach.takeLock m l nibble).sec.boots = m.sec.boots
    ∧ (Mach.takeLock m l nibble).cab.creds = m.cab.creds := by
  unfold Mach.takeLock; try dsimp only
  simp only [↓keeps_setLock, ↓ite_mram, ↓ite_time_frame, ↓ite_sec_rollback, ↓ite_sec_boots, ↓ite_cab_creds, ↓ite_fst, ite_self, implies_true, and_self]

theorem keeps_lockReceived (m : Mach) (port : Ab) (ident : Nat) (msg : List Nat) (ecc : Ecc) :
    (Mach.lockReceived m port ident msg ecc).mram = m.mram
    ∧ (Mach.lockReceived m port ident msg ecc).time.frame = m.time.frame
    ∧ (Mach.lockReceived m port ident msg ecc).sec.rollback = m.sec.rollback
    ∧ (Mach.lockReceived m port ident msg ecc).sec.boots = m.sec.boots
    ∧ (Mach.lockReceived m port ident msg ecc).cab.creds = m.cab.creds := by
  unfold Mach.lockReceived; try dsimp only
  simp only [↓keeps_busCrcErr, ↓ite_mram, ↓ite_time_frame, ↓ite_sec_rollback, ↓ite_sec_boots, ↓ite_cab_creds, ↓ite_fst, ite_self, implies_true, and_self]

theorem keeps_useLock (m : Mach) (ident : Nat) (msg : List Nat) :
    (Mach.useLock m ident msg).mram = m.mram
    ∧ (Mach.useLock m ident msg).time.frame = m.time.frame
    ∧ (Mach.useLock m ident msg).sec.rollback = m.sec.rollback
    ∧ (Mach.useLock m ident msg).sec.boots = m.sec.boots
    ∧ (Mach.useLock m ident msg).cab.creds = m.cab.creds := by
  unfold Mach.useLock; try dsimp only
  simp only [↓keeps_msgAccept, ↓keeps_setLock, ↓keeps_takeLock, ↓ite_mram, ↓each_mram, ↓ite_time_frame, ↓each_time_frame, ↓ite_sec_rollback, ↓each_sec_rollback, ↓ite_sec_boots, ↓each_sec_boots, ↓ite_cab_creds, ↓each_cab_creds, ↓ite_fst, ite_self, implies_true, and_self]

theorem keeps_takeLocks (m : Mach) :
    (Mach.takeLocks m).mram = m.mram
    ∧ (Mach.takeLocks m).time.frame = m.time.frame
    ∧ (Mach.takeLocks m).sec.rollback = m.sec.rollback
    ∧ (Mach.takeLocks m).sec.boots = m.sec.boots
    ∧ (Mach.takeLocks m).cab.creds = m.cab.creds := by
  unfold Mach.takeLocks; try dsimp only
  simp only [↓keeps_useLock, ↓ite_mram, ↓each_mram, ↓ite_time_frame, ↓each_time_frame, ↓ite_sec_rollback, ↓each_sec_rollback, ↓ite_sec_boots, ↓each_sec_boots, ↓ite_cab_creds, ↓each_cab_creds, ↓ite_fst, ite_self, implies_true, and_self]

theorem keeps_groupCmd (m : Mach) (p : Ab) (b : List Nat) :
    (Mach.groupCmd m p b).mram = m.mram
    ∧ (Mach.groupCmd m p b).time.frame = m.time.frame
    ∧ (Mach.groupCmd m p b).sec.rollback = m.sec.rollback
    ∧ (Mach.groupCmd m p b).sec.boots = m.sec.boots
    ∧ (Mach.groupCmd m p b).cab.creds = m.cab.creds := by
  unfold Mach.groupCmd; try dsimp only
  refine ⟨?_, ?_, ?_, ?_, ?_⟩ <;>
  (repeat' split) <;>
  first | with_reducible rfl | (simp only [↓keeps_endFault, ↓keeps_groupRes, ↓keeps_msgAccept, ↓keeps_queueCall, ↓keeps_raise, ↓ite_mram, ↓ite_time_frame, ↓ite_sec_rollback, ↓ite_sec_boots, ↓ite_cab_creds, ↓ite_fst, ite_self, implies_true, and_self]; done)

theorem keeps_panelRefuse (m : Mach) :
    (Mach.panelRefuse m).mram = m.mram
    ∧ (Mach.panelRefuse m).time.frame = m.time.frame
    ∧ (Mach.panelRefuse m).sec.rollback = m.sec.rollback
    ∧ (Mach.panelRefuse m).sec.boots = m.sec.boots
    ∧ (Mach.panelRefuse m).cab.creds = m.cab.creds := by
  unfold Mach.panelRefuse
  exact ⟨by with_reducible rfl, by with_reducible rfl, by with_reducible rfl, by with_reducible rfl, by with_reducible rfl⟩

theorem keeps_panelCall (m : Mach) (p : Ab) (b : List Nat) (add : Bool) :
    (Mach.panelCall m p b add).mram = m.mram
    ∧ (Mach.panelCall m p b add).time.frame = m.time.frame
    ∧ (Mach.panelCall m p b add).sec.rollback = m.sec.rollback
    ∧ (Mach.panelCall m p b add).sec.boots = m.sec.boots
    ∧ (Mach.panelCall m p b add).cab.creds = m.cab.creds := by
  unfold Mach.panelCall; try dsimp only
  simp only [↓keeps_msgAccept, ↓keeps_panelRefuse, ↓keeps_queueCall, ↓ite_mram, ↓ite_time_frame, ↓ite_sec_rollback, ↓ite_sec_boots, ↓ite_cab_creds, ↓ite_fst, ite_self, implies_true, and_self]

theorem keeps_panelDoor (m : Mach) (p : Ab) (b : List Nat) (c : Nat) :
    (Mach.panelDoor m p b c).mram = m.mram
    ∧ (Mach.panelDoor m p b c).time.frame = m.time.frame
    ∧ (Mach.panelDoor m p b c).sec.rollback = m.sec.rollback
    ∧ (Mach.panelDoor m p b c).sec.boots = m.sec.boots
    ∧ (Mach.panelDoor m p b c).cab.creds = m.cab.creds := by
  unfold Mach.panelDoor; try dsimp only
  simp only [↓keeps_doorCmd, ↓keeps_msgAccept, ↓keeps_panelRefuse, ↓ite_mram, ↓ite_time_frame, ↓ite_sec_rollback, ↓ite_sec_boots, ↓ite_cab_creds, ↓ite_fst, ite_self, implies_true, and_self]

theorem keeps_hallPress (m : Mach) (p : Ab) (l : Nat) (k : Nat) :
    (Mach.hallPress m p l k).mram = m.mram
    ∧ (Mach.hallPress m p l k).time.frame = m.time.frame
    ∧ (Mach.hallPress m p l k).sec.rollback = m.sec.rollback
    ∧ (Mach.hallPress m p l k).sec.boots = m.sec.boots
    ∧ (Mach.hallPress m p l k).cab.creds = m.cab.creds := by
  unfold Mach.hallPress; try dsimp only
  refine ⟨?_, ?_, ?_, ?_, ?_⟩ <;>
  (repeat' split) <;>
  first | with_reducible rfl | (simp only [↓keeps_groupRes, ↓keeps_queueCall, ↓ite_mram, ↓ite_time_frame, ↓ite_sec_rollback, ↓ite_sec_boots, ↓ite_cab_creds, ↓ite_fst, ite_self, implies_true, and_self]; done)

theorem keeps_sendPanelInd (m : Mach) (always : Bool) :
    (Mach.sendPanelInd m always).mram = m.mram
    ∧ (Mach.sendPanelInd m always).time.frame = m.time.frame
    ∧ (Mach.sendPanelInd m always).sec.rollback = m.sec.rollback
    ∧ (Mach.sendPanelInd m always).sec.boots = m.sec.boots
    ∧ (Mach.sendPanelInd m always).cab.creds = m.cab.creds := by
  unfold Mach.sendPanelInd; try dsimp only
  simp only [↓keeps_sendMsg, ↓ite_mram, ↓ite_time_frame, ↓ite_sec_rollback, ↓ite_sec_boots, ↓ite_cab_creds, ↓ite_fst, ite_self, implies_true, and_self]

theorem keeps_sendHallInd (m : Mach) (always : Bool) (k : Nat) :
    (Mach.sendHallInd m always k).mram = m.mram
    ∧ (Mach.sendHallInd m always k).time.frame = m.time.frame
    ∧ (Mach.sendHallInd m always k).sec.rollback = m.sec.rollback
    ∧ (Mach.sendHallInd m always k).sec.boots = m.sec.boots
    ∧ (Mach.sendHallInd m always k).cab.creds = m.cab.creds := by
  unfold Mach.sendHallInd; try dsimp only
  simp only [↓keeps_sendMsg, ↓ite_mram, ↓ite_time_frame, ↓ite_sec_rollback, ↓ite_sec_boots, ↓ite_cab_creds, ↓ite_fst, ite_self, implies_true, and_self]

theorem keeps_indications (m : Mach) (always : Bool) :
    (Mach.indications m always).mram = m.mram
    ∧ (Mach.indications m always).time.frame = m.time.frame
    ∧ (Mach.indications m always).sec.rollback = m.sec.rollback
    ∧ (Mach.indications m always).sec.boots = m.sec.boots
    ∧ (Mach.indications m always).cab.creds = m.cab.creds := by
  unfold Mach.indications; try dsimp only
  simp only [↓keeps_sendHallInd, ↓keeps_sendPanelInd, ↓ite_mram, ↓each_mram, ↓ite_time_frame, ↓each_time_frame, ↓ite_sec_rollback, ↓each_sec_rollback, ↓ite_sec_boots, ↓each_sec_boots, ↓ite_cab_creds, ↓each_cab_creds, ↓ite_fst, ite_self, implies_true, and_self]

theorem keeps_profileFrame (m : Mach) :
    (Mach.profileFrame m).mram = m.mram
    ∧ (Mach.profileFrame m).time.frame = m.time.frame
    ∧ (Mach.profileFrame m).sec.rollback = m.sec.rollback
    ∧ (Mach.profileFrame m).sec.boots = m.sec.boots
    ∧ (Mach.profileFrame m).cab.creds = m.cab.creds := by
  unfold Mach.profileFrame; try dsimp only
  refine ⟨?_, ?_, ?_, ?_, ?_⟩ <;>
  (repeat' split) <;>
  first | with_reducible rfl | (simp only [↓keeps_indications, ↓keeps_sendMsg, ↓ite_mram, ↓ite_time_frame, ↓ite_sec_rollback, ↓ite_sec_boots, ↓ite_cab_creds, ↓ite_fst, ite_self, implies_true, and_self]; done)

end Sys2Proof.Laws
end

