-- ==== Sys2Proof/Laws/KeepCabCommit.lean ====
section
/-!
SUPPORT. What the operations of Machine/CabCommit.lean leave alone of the MRAM, the frame count, the rollback
counter, the boot count and the credentials of the cabinet, and that they keep the canonical form of the MRAM.
-/
namespace Sys2Proof.Laws

open Sys2Proof Sys2Proof.Machine

set_option linter.all false
set_option linter.unreachableTactic false
set_option linter.unusedTactic false
theorem keeps_withCab (m : Mach) (cab : List ParamCell) :
    (Mach.withCab m cab).mram = m.mram
    ∧ (Mach.withCab m cab).time.frame = m.time.frame
    ∧ (Mach.withCab m cab).sec.rollback = m.sec.rollback
    ∧ (Mach.withCab m cab).sec.boots = m.sec.boots
    ∧ (Mach.withCab m cab).cab.creds = m.cab.creds := by
  unfold Mach.withCab
  exact ⟨by with_reducible rfl, by with_reducible rfl, by with_reducible rfl, by with_reducible rfl, by with_reducible rfl⟩

theorem keeps_zeroStats (m : Mach) (d : Nat) (hs : List Nat) (ext : Bool) :
    (Mach.zeroStats m d hs ext).mram = m.mram
    ∧ (Mach.zeroStats m d hs ext).time.frame = m.time.frame
    ∧ (Mach.zeroStats m d hs ext).sec.rollback = m.sec.rollback
    ∧ (Mach.zeroStats m d hs ext).sec.boots = m.sec.boots
    ∧ (Mach.zeroStats m d hs ext).cab.creds = m.cab.creds := by
  unfold Mach.zeroStats; try dsimp only
  simp only [↓keeps_drawerSet, ↓ite_mram, ↓foldl_mram, ↓ite_time_frame, ↓foldl_time_frame, ↓ite_sec_rollback, ↓foldl_sec_rollback, ↓ite_sec_boots, ↓foldl_sec_boots, ↓ite_cab_creds, ↓foldl_cab_creds, ↓ite_fst, ite_self, implies_true, and_self]

theorem keeps_zeroChanged (m : Mach) (ch : List (Nat × Nat)) :
    (Mach.zeroChanged m ch).mram = m.mram
    ∧ (Mach.zeroChanged m ch).time.frame = m.time.frame
    ∧ (Mach.zeroChanged m ch).sec.rollback = m.sec.rollback
    ∧ (Mach.zeroChanged m ch).sec.boots = m.sec.boots
    ∧ (Mach.zeroChanged m ch).cab.creds = m.cab.creds := by
  unfold Mach.zeroChanged; try dsimp only
  simp only [↓keeps_zeroStats, ↓ite_mram, ↓each_mram, ↓ite_time_frame, ↓each_time_frame, ↓ite_sec_rollback, ↓each_sec_rollback, ↓ite_sec_boots, ↓each_sec_boots, ↓ite_cab_creds, ↓each_cab_creds, ↓ite_fst, ite_self, implies_true, and_self]

theorem keeps_sendChanged (m : Mach) (old : Mach) :
    (Mach.sendChanged m old).mram = m.mram
    ∧ (Mach.sendChanged m old).time.frame = m.time.frame
    ∧ (Mach.sendChanged m old).sec.rollback = m.sec.rollback
    ∧ (Mach.sendChanged m old).sec.boots = m.sec.boots
    ∧ (Mach.sendChanged m old).cab.creds = m.cab.creds := by
  unfold Mach.sendChanged; try dsimp only
  simp only [↓keeps_queueCfg, ↓ite_mram, ↓ite_time_frame, ↓ite_sec_rollback, ↓ite_sec_boots, ↓ite_cab_creds, ↓ite_fst, ite_self, implies_true, and_self]

theorem keeps_applyCab (m : Mach) (vals : List ParamCell) :
    (Mach.applyCab m vals).mram = m.mram
    ∧ (Mach.applyCab m vals).time.frame = m.time.frame
    ∧ (Mach.applyCab m vals).sec.rollback = m.sec.rollback
    ∧ (Mach.applyCab m vals).sec.boots = m.sec.boots
    ∧ (Mach.applyCab m vals).cab.creds = m.cab.creds := by
  unfold Mach.applyCab; try dsimp only
  simp only [↓keeps_bumpEpoch, ↓keeps_rebind, ↓keeps_sendChanged, ↓keeps_withCab, ↓keeps_zeroChanged, ↓ite_mram, ↓ite_time_frame, ↓ite_sec_rollback, ↓ite_sec_boots, ↓ite_cab_creds, ↓ite_fst, ite_self, implies_true, and_self]

theorem keeps_endCommit (m : Mach) (r : CommitRun) (status : Nat) (data : Nat) :
    (Mach.endCommit m r status data).mram = m.mram
    ∧ (Mach.endCommit m r status data).time.frame = m.time.frame
    ∧ (Mach.endCommit m r status data).sec.rollback = m.sec.rollback
    ∧ (Mach.endCommit m r status data).sec.boots = m.sec.boots
    ∧ (Mach.endCommit m r status data).cab.creds = m.cab.creds := by
  unfold Mach.endCommit; try dsimp only
  simp only [↓keeps_completed, ↓ite_mram, ↓ite_time_frame, ↓ite_sec_rollback, ↓ite_sec_boots, ↓ite_cab_creds, ↓ite_fst, ite_self, implies_true, and_self]

theorem keeps_commitLog (m : Mach) (r : CommitRun) (status : Nat) :
    (Mach.commitLog m r status).time.frame = m.time.frame
    ∧ (Mach.commitLog m r status).sec.rollback = m.sec.rollback
    ∧ (Mach.commitLog m r status).sec.boots = m.sec.boots
    ∧ (Mach.commitLog m r status).cab.creds = m.cab.creds := by
  unfold Mach.commitLog; try dsimp only
  simp only [↓keeps_logStatus, ↓ite_time_frame, ↓each_time_frame, ↓ite_sec_rollback, ↓each_sec_rollback, ↓ite_sec_boots, ↓each_sec_boots, ↓ite_cab_creds, ↓each_cab_creds, ↓ite_fst, ite_self, implies_true, and_self]

theorem wf_commitLog (m : Mach) (r : CommitRun) (status : Nat) (hw : Memory.wf m.mram = true) :
    Memory.wf (Mach.commitLog m r status).mram = true := by
  unfold Mach.commitLog; try dsimp only
  all_goals repeat' first | with_reducible exact hw | with_reducible exact w | with_reducible apply wf_logStatus | with_reducible apply wf_ite | with_reducible refine wf_each _ _ _ (fun m x w => ?_) ?_ | simp only [↓when_mram, ↓ite_mram, ↓ite_fst] | split | dsimp only

theorem keeps_abortCommit (m : Mach) :
    (Mach.abortCommit m).time.frame = m.time.frame
    ∧ (Mach.abortCommit m).sec.rollback = m.sec.rollback
    ∧ (Mach.abortCommit m).sec.boots = m.sec.boots
    ∧ (Mach.abortCommit m).cab.creds = m.cab.creds := by
  unfold Mach.abortCommit; try dsimp only
  refine ⟨?_, ?_, ?_, ?_⟩ <;>
  (repeat' split) <;>
  first | with_reducible rfl | (simp only [↓keeps_commitLog, ↓keeps_endCommit, ↓ite_time_frame, ↓ite_sec_rollback, ↓ite_sec_boots, ↓ite_cab_creds, ↓ite_fst, ite_self, implies_true, and_self]; done)

theorem wf_abortCommit (m : Mach) (hw : Memory.wf m.mram = true) :
    Memory.wf (Mach.abortCommit m).mram = true := by
  unfold Mach.abortCommit; try dsimp only
  all_goals repeat' first | with_reducible exact hw | with_reducible exact w | with_reducible apply wf_commitLog | with_reducible apply wf_ite | simp only [↓keeps_endCommit, ↓when_mram, ↓ite_mram, ↓ite_fst] | split | dsimp only

theorem keeps_logChange (m : Mach) (r : CommitRun) (count : Nat) (index : Nat) (e : Staged) :
    (Mach.logChange m r count index e).time.frame = m.time.frame
    ∧ (Mach.logChange m r count index e).sec.rollback = m.sec.rollback
    ∧ (Mach.logChange m r count index e).sec.boots = m.sec.boots
    ∧ (Mach.logChange m r count index e).cab.creds = m.cab.creds := by
  unfold Mach.logChange; try dsimp only
  refine ⟨?_, ?_, ?_, ?_⟩ <;>
  (repeat' split) <;>
  first | with_reducible rfl | (simp only [↓keeps_logAppend, ↓ite_time_frame, ↓ite_sec_rollback, ↓ite_sec_boots, ↓ite_cab_creds, ↓ite_fst, ite_self, implies_true, and_self]; done)

theorem wf_logChange (m : Mach) (r : CommitRun) (count : Nat) (index : Nat) (e : Staged) (hw : Memory.wf m.mram = true) :
    Memory.wf (Mach.logChange m r count index e).mram = true := by
  unfold Mach.logChange; try dsimp only
  all_goals repeat' first | with_reducible exact hw | with_reducible exact w | with_reducible apply wf_logAppend | with_reducible apply wf_ite | simp only [↓when_mram, ↓ite_mram, ↓ite_fst] | split | dsimp only

theorem keeps_logChanges (m : Mach) (r : CommitRun) (ch : List Staged) :
    (Mach.logChanges m r ch).time.frame = m.time.frame
    ∧ (Mach.logChanges m r ch).sec.rollback = m.sec.rollback
    ∧ (Mach.logChanges m r ch).sec.boots = m.sec.boots
    ∧ (Mach.logChanges m r ch).cab.creds = m.cab.creds := by
  unfold Mach.logChanges; try dsimp only
  simp only [↓keeps_logChange, ↓ite_time_frame, ↓each_time_frame, ↓ite_sec_rollback, ↓each_sec_rollback, ↓ite_sec_boots, ↓each_sec_boots, ↓ite_cab_creds, ↓each_cab_creds, ↓ite_fst, ite_self, implies_true, and_self]

theorem wf_logChanges (m : Mach) (r : CommitRun) (ch : List Staged) (hw : Memory.wf m.mram = true) :
    Memory.wf (Mach.logChanges m r ch).mram = true := by
  unfold Mach.logChanges; try dsimp only
  all_goals repeat' first | with_reducible exact hw | with_reducible exact w | with_reducible apply wf_logChange | with_reducible apply wf_ite | with_reducible refine wf_each _ _ _ (fun m x w => ?_) ?_ | simp only [↓when_mram, ↓ite_mram, ↓ite_fst] | split | dsimp only

theorem keeps_commitVerdicts (m : Mach) (r : CommitRun) (delivered : Three Bool) :
    (Mach.commitVerdicts m r delivered).time.frame = m.time.frame
    ∧ (Mach.commitVerdicts m r delivered).sec.rollback = m.sec.rollback
    ∧ (Mach.commitVerdicts m r delivered).sec.boots = m.sec.boots
    ∧ (Mach.commitVerdicts m r delivered).cab.creds = m.cab.creds := by
  unfold Mach.commitVerdicts; try dsimp only
  simp only [↓keeps_endCommit, ↓keeps_endFault, ↓keeps_logChanges, ↓keeps_raise, ↓keeps_withCab, ↓keeps_writeCopy, ↓ite_time_frame, ↓ite_sec_rollback, ↓ite_sec_boots, ↓ite_cab_creds, ↓ite_fst, ite_self, implies_true, and_self]

theorem wf_commitVerdicts (m : Mach) (r : CommitRun) (delivered : Three Bool) (hw : Memory.wf m.mram = true) :
    Memory.wf (Mach.commitVerdicts m r delivered).mram = true := by
  unfold Mach.commitVerdicts; try dsimp only
  all_goals repeat' first | with_reducible exact hw | with_reducible exact w | with_reducible apply wf_logChanges | with_reducible apply wf_ite | simp only [↓keeps_endCommit, ↓keeps_endFault, ↓keeps_raise, ↓keeps_withCab, ↓keeps_writeCopy, ↓when_mram, ↓ite_mram, ↓ite_fst] | split | dsimp only

theorem keeps_endMismatch (m : Mach) :
    (Mach.endMismatch m).mram = m.mram
    ∧ (Mach.endMismatch m).time.frame = m.time.frame
    ∧ (Mach.endMismatch m).sec.rollback = m.sec.rollback
    ∧ (Mach.endMismatch m).sec.boots = m.sec.boots
    ∧ (Mach.endMismatch m).cab.creds = m.cab.creds := by
  unfold Mach.endMismatch; try dsimp only
  simp only [↓keeps_endFault, ↓ite_mram, ↓ite_time_frame, ↓ite_sec_rollback, ↓ite_sec_boots, ↓ite_cab_creds, ↓ite_fst, ite_self, implies_true, and_self]

theorem keeps_learnCommitted (m : Mach) (r : CommitRun) :
    (Mach.learnCommitted m r).mram = m.mram
    ∧ (Mach.learnCommitted m r).time.frame = m.time.frame
    ∧ (Mach.learnCommitted m r).sec.rollback = m.sec.rollback
    ∧ (Mach.learnCommitted m r).sec.boots = m.sec.boots
    ∧ (Mach.learnCommitted m r).cab.creds = m.cab.creds := by
  unfold Mach.learnCommitted; try dsimp only
  simp only [↓keeps_endMismatch, ↓ite_mram, ↓ite_time_frame, ↓ite_sec_rollback, ↓ite_sec_boots, ↓ite_cab_creds, ↓ite_fst, ite_self, implies_true, and_self]

theorem keeps_commitFreeze (m : Mach) :
    (Mach.commitFreeze m).time.frame = m.time.frame
    ∧ (Mach.commitFreeze m).sec.rollback = m.sec.rollback
    ∧ (Mach.commitFreeze m).sec.boots = m.sec.boots
    ∧ (Mach.commitFreeze m).cab.creds = m.cab.creds := by
  unfold Mach.commitFreeze; try dsimp only
  refine ⟨?_, ?_, ?_, ?_⟩ <;>
  (repeat' split) <;>
  first | with_reducible rfl | (simp only [↓keeps_applyCab, ↓keeps_commitLog, ↓keeps_learnCommitted, ↓ite_time_frame, ↓ite_sec_rollback, ↓ite_sec_boots, ↓ite_cab_creds, ↓ite_fst, ite_self, implies_true, and_self]; done)

theorem wf_commitFreeze (m : Mach) (hw : Memory.wf m.mram = true) :
    Memory.wf (Mach.commitFreeze m).mram = true := by
  unfold Mach.commitFreeze; try dsimp only
  all_goals repeat' first | with_reducible exact hw | with_reducible exact w | with_reducible apply wf_commitLog | with_reducible apply wf_ite | simp only [↓keeps_applyCab, ↓keeps_learnCommitted, ↓when_mram, ↓ite_mram, ↓ite_fst] | split | dsimp only

theorem keeps_commitComplete (m : Mach) (r : CommitRun) :
    (Mach.commitComplete m r).mram = m.mram
    ∧ (Mach.commitComplete m r).time.frame = m.time.frame
    ∧ (Mach.commitComplete m r).sec.rollback = m.sec.rollback
    ∧ (Mach.commitComplete m r).sec.boots = m.sec.boots
    ∧ (Mach.commitComplete m r).cab.creds = m.cab.creds := by
  unfold Mach.commitComplete; try dsimp only
  simp only [↓keeps_endCommit, ↓keeps_endFault, ↓keeps_writeCopy, ↓ite_mram, ↓ite_time_frame, ↓ite_sec_rollback, ↓ite_sec_boots, ↓ite_cab_creds, ↓ite_fst, ite_self, implies_true, and_self]

end Sys2Proof.Laws
end

