-- ==== Sys2Proof/Laws/KeepGroupStore.lean ====
section
/-!
SUPPORT. What the operations of Machine/GroupStore.lean leave alone of the MRAM, the frame count, the rollback
counter, the boot count and the credentials of the cabinet, and that they keep the canonical form of the MRAM.
-/
namespace Sys2Proof.Laws

open Sys2Proof Sys2Proof.Machine

set_option linter.all false
set_option linter.unreachableTactic false
set_option linter.unusedTactic false
theorem keeps_freeGroup (m : Mach) (h : Nat) :
    (Mach.freeGroup m h).time.frame = m.time.frame
    ∧ (Mach.freeGroup m h).sec.rollback = m.sec.rollback
    ∧ (Mach.freeGroup m h).sec.boots = m.sec.boots
    ∧ (Mach.freeGroup m h).cab.creds = m.cab.creds := by
  unfold Mach.freeGroup; try dsimp only
  simp only [↓keeps_voidRecord, ↓ite_time_frame, ↓each_time_frame, ↓ite_sec_rollback, ↓each_sec_rollback, ↓ite_sec_boots, ↓each_sec_boots, ↓ite_cab_creds, ↓each_cab_creds, ↓ite_fst, ite_self, implies_true, and_self]

theorem wf_freeGroup (m : Mach) (h : Nat) (hw : Memory.wf m.mram = true) :
    Memory.wf (Mach.freeGroup m h).mram = true := by
  unfold Mach.freeGroup; try dsimp only
  all_goals repeat' first | with_reducible exact hw | with_reducible exact w | with_reducible apply wf_voidRecord | with_reducible apply wf_ite | with_reducible refine wf_each _ _ _ (fun m x w => ?_) ?_ | simp only [↓when_mram, ↓ite_mram, ↓ite_fst] | split | dsimp only

theorem keeps_storeGroup (m : Mach) (h : Nat) (kids : List Nat) :
    (Mach.storeGroup m h kids).time.frame = m.time.frame
    ∧ (Mach.storeGroup m h kids).sec.rollback = m.sec.rollback
    ∧ (Mach.storeGroup m h kids).sec.boots = m.sec.boots
    ∧ (Mach.storeGroup m h kids).cab.creds = m.cab.creds := by
  unfold Mach.storeGroup; try dsimp only
  simp only [↓keeps_freeGroup, ↓keeps_writeRecord, ↓ite_time_frame, ↓each_time_frame, ↓ite_sec_rollback, ↓each_sec_rollback, ↓ite_sec_boots, ↓each_sec_boots, ↓ite_cab_creds, ↓each_cab_creds, ↓ite_fst, ite_self, implies_true, and_self]

theorem wf_storeGroup (m : Mach) (h : Nat) (kids : List Nat) (hw : Memory.wf m.mram = true) :
    Memory.wf (Mach.storeGroup m h kids).mram = true := by
  unfold Mach.storeGroup; try dsimp only
  all_goals repeat' first | with_reducible exact hw | with_reducible exact w | with_reducible apply wf_freeGroup | with_reducible apply wf_writeRecord | with_reducible apply wf_ite | with_reducible refine wf_each _ _ _ (fun m x w => ?_) ?_ | simp only [↓when_mram, ↓ite_mram, ↓ite_fst] | split | dsimp only

end Sys2Proof.Laws
end

