-- ==== Sys2Proof/Laws/KeepRecorder.lean ====
section
/-!
SUPPORT. What the operations of Machine/Recorder.lean leave alone of the MRAM, the frame count, the rollback
counter, the boot count and the credentials of the cabinet, and that they keep the canonical form of the MRAM.
-/
namespace Sys2Proof.Laws

open Sys2Proof Sys2Proof.Machine

set_option linter.all false
set_option linter.unreachableTactic false
set_option linter.unusedTactic false
theorem keeps_onDrawer (m : Mach) (d : Nat) (f : DrawerState → DrawerState) :
    (Mach.onDrawer m d f).mram = m.mram
    ∧ (Mach.onDrawer m d f).time.frame = m.time.frame
    ∧ (Mach.onDrawer m d f).sec.rollback = m.sec.rollback
    ∧ (Mach.onDrawer m d f).sec.boots = m.sec.boots
    ∧ (Mach.onDrawer m d f).cab.creds = m.cab.creds := by
  unfold Mach.onDrawer
  exact ⟨by with_reducible rfl, by with_reducible rfl, by with_reducible rfl, by with_reducible rfl, by with_reducible rfl⟩

theorem keeps_forgetFailure (m : Mach) (a : Nat) :
    (Mach.forgetFailure m a).mram = m.mram
    ∧ (Mach.forgetFailure m a).time.frame = m.time.frame
    ∧ (Mach.forgetFailure m a).sec.rollback = m.sec.rollback
    ∧ (Mach.forgetFailure m a).sec.boots = m.sec.boots
    ∧ (Mach.forgetFailure m a).cab.creds = m.cab.creds := by
  unfold Mach.forgetFailure
  exact ⟨by with_reducible rfl, by with_reducible rfl, by with_reducible rfl, by with_reducible rfl, by with_reducible rfl⟩

theorem keeps_rewritten (m : Mach) (a : Nat) :
    (Mach.rewritten m a).mram = m.mram
    ∧ (Mach.rewritten m a).time.frame = m.time.frame
    ∧ (Mach.rewritten m a).sec.rollback = m.sec.rollback
    ∧ (Mach.rewritten m a).sec.boots = m.sec.boots
    ∧ (Mach.rewritten m a).cab.creds = m.cab.creds := by
  unfold Mach.rewritten; try dsimp only
  simp only [↓keeps_endIf, ↓keeps_forgetFailure, ↓ite_mram, ↓ite_time_frame, ↓ite_sec_rollback, ↓ite_sec_boots, ↓ite_cab_creds, ↓ite_fst, ite_self, implies_true, and_self]

theorem keeps_verified (m : Mach) (good : Bool) :
    (Mach.verified m good).mram = m.mram
    ∧ (Mach.verified m good).time.frame = m.time.frame
    ∧ (Mach.verified m good).sec.rollback = m.sec.rollback
    ∧ (Mach.verified m good).sec.boots = m.sec.boots
    ∧ (Mach.verified m good).cab.creds = m.cab.creds := by
  unfold Mach.verified; try dsimp only
  simp only [↓keeps_endIf, ↓keeps_raise, ↓ite_mram, ↓ite_time_frame, ↓ite_sec_rollback, ↓ite_sec_boots, ↓ite_cab_creds, ↓ite_fst, ite_self, implies_true, and_self]

theorem keeps_putRec (m : Mach) (bad : List Nat) (d : Nat) (i : Nat) (payload : List Nat) :
    (Mach.putRec m bad d i payload).time.frame = m.time.frame
    ∧ (Mach.putRec m bad d i payload).sec.rollback = m.sec.rollback
    ∧ (Mach.putRec m bad d i payload).sec.boots = m.sec.boots
    ∧ (Mach.putRec m bad d i payload).cab.creds = m.cab.creds := by
  unfold Mach.putRec; try dsimp only
  simp only [↓keeps_poke, ↓keeps_rewritten, ↓keeps_verified, ↓keeps_writeRecord, ↓ite_time_frame, ↓ite_sec_rollback, ↓ite_sec_boots, ↓ite_cab_creds, ↓ite_fst, ite_self, implies_true, and_self]

theorem wf_putRec (m : Mach) (bad : List Nat) (d : Nat) (i : Nat) (payload : List Nat) (hw : Memory.wf m.mram = true) :
    Memory.wf (Mach.putRec m bad d i payload).mram = true := by
  unfold Mach.putRec; try dsimp only
  all_goals repeat' first | with_reducible exact hw | with_reducible exact w | with_reducible apply wf_poke | with_reducible apply wf_writeRecord | with_reducible apply wf_ite | simp only [↓keeps_rewritten, ↓keeps_verified, ↓when_mram, ↓ite_mram, ↓ite_fst] | split | dsimp only

theorem keeps_putVoid (m : Mach) (bad : List Nat) (d : Nat) (i : Nat) :
    (Mach.putVoid m bad d i).time.frame = m.time.frame
    ∧ (Mach.putVoid m bad d i).sec.rollback = m.sec.rollback
    ∧ (Mach.putVoid m bad d i).sec.boots = m.sec.boots
    ∧ (Mach.putVoid m bad d i).cab.creds = m.cab.creds := by
  unfold Mach.putVoid; try dsimp only
  simp only [↓keeps_rewritten, ↓keeps_verified, ↓keeps_voidRecord, ↓ite_time_frame, ↓ite_sec_rollback, ↓ite_sec_boots, ↓ite_cab_creds, ↓ite_fst, ite_self, implies_true, and_self]

theorem wf_putVoid (m : Mach) (bad : List Nat) (d : Nat) (i : Nat) (hw : Memory.wf m.mram = true) :
    Memory.wf (Mach.putVoid m bad d i).mram = true := by
  unfold Mach.putVoid; try dsimp only
  all_goals repeat' first | with_reducible exact hw | with_reducible exact w | with_reducible apply wf_voidRecord | with_reducible apply wf_ite | simp only [↓keeps_rewritten, ↓keeps_verified, ↓when_mram, ↓ite_mram, ↓ite_fst] | split | dsimp only

theorem keeps_putEntry (m : Mach) (bad : List Nat) (e : RingEntry) :
    (Mach.putEntry m bad e).time.frame = m.time.frame
    ∧ (Mach.putEntry m bad e).sec.rollback = m.sec.rollback
    ∧ (Mach.putEntry m bad e).sec.boots = m.sec.boots
    ∧ (Mach.putEntry m bad e).cab.creds = m.cab.creds := by
  unfold Mach.putEntry; try dsimp only
  refine ⟨?_, ?_, ?_, ?_⟩ <;>
  (repeat' split) <;>
  first | with_reducible rfl | (simp only [↓keeps_onDrawer, ↓keeps_putRec, ↓ite_time_frame, ↓ite_sec_rollback, ↓ite_sec_boots, ↓ite_cab_creds, ↓ite_fst, ite_self, implies_true, and_self]; done)

theorem wf_putEntry (m : Mach) (bad : List Nat) (e : RingEntry) (hw : Memory.wf m.mram = true) :
    Memory.wf (Mach.putEntry m bad e).mram = true := by
  unfold Mach.putEntry; try dsimp only
  all_goals repeat' first | with_reducible exact hw | with_reducible exact w | with_reducible apply wf_putRec | with_reducible apply wf_ite | simp only [↓keeps_onDrawer, ↓when_mram, ↓ite_mram, ↓ite_fst] | split | dsimp only

theorem keeps_clearWritten (m : Mach) (d : Nat) :
    (Mach.clearWritten m d).mram = m.mram
    ∧ (Mach.clearWritten m d).time.frame = m.time.frame
    ∧ (Mach.clearWritten m d).sec.rollback = m.sec.rollback
    ∧ (Mach.clearWritten m d).sec.boots = m.sec.boots
    ∧ (Mach.clearWritten m d).cab.creds = m.cab.creds := by
  unfold Mach.clearWritten; try dsimp only
  simp only [↓keeps_completed, ↓keeps_onDrawer, ↓keeps_post, ↓ite_mram, ↓ite_time_frame, ↓ite_sec_rollback, ↓ite_sec_boots, ↓ite_cab_creds, ↓ite_fst, ite_self, implies_true, and_self]

theorem keeps_flushDrawer (m : Mach) (bad : List Nat) (d : Nat) :
    (Mach.flushDrawer m bad d).time.frame = m.time.frame
    ∧ (Mach.flushDrawer m bad d).sec.rollback = m.sec.rollback
    ∧ (Mach.flushDrawer m bad d).sec.boots = m.sec.boots
    ∧ (Mach.flushDrawer m bad d).cab.creds = m.cab.creds := by
  unfold Mach.flushDrawer; try dsimp only
  simp only [↓keeps_onDrawer, ↓keeps_putEntry, ↓keeps_putRec, ↓keeps_putVoid, ↓ite_time_frame, ↓each_time_frame, ↓ite_sec_rollback, ↓each_sec_rollback, ↓ite_sec_boots, ↓each_sec_boots, ↓ite_cab_creds, ↓each_cab_creds, ↓ite_fst, ite_self, implies_true, and_self]

theorem wf_flushDrawer (m : Mach) (bad : List Nat) (d : Nat) (hw : Memory.wf m.mram = true) :
    Memory.wf (Mach.flushDrawer m bad d).mram = true := by
  unfold Mach.flushDrawer; try dsimp only
  all_goals repeat' first | with_reducible exact hw | with_reducible exact w | with_reducible apply wf_putEntry | with_reducible apply wf_putRec | with_reducible apply wf_putVoid | with_reducible apply wf_ite | with_reducible refine wf_each _ _ _ (fun m x w => ?_) ?_ | simp only [↓keeps_onDrawer, ↓when_mram, ↓ite_mram, ↓ite_fst] | split | dsimp only

theorem keeps_flush (m : Mach) (bad : List Nat) :
    (Mach.flush m bad).time.frame = m.time.frame
    ∧ (Mach.flush m bad).sec.rollback = m.sec.rollback
    ∧ (Mach.flush m bad).sec.boots = m.sec.boots
    ∧ (Mach.flush m bad).cab.creds = m.cab.creds := by
  unfold Mach.flush; try dsimp only
  simp only [↓keeps_clearWritten, ↓keeps_endFault, ↓keeps_flushDrawer, ↓keeps_onDrawer, ↓keeps_putRec, ↓ite_time_frame, ↓each_time_frame, ↓ite_sec_rollback, ↓each_sec_rollback, ↓ite_sec_boots, ↓each_sec_boots, ↓ite_cab_creds, ↓each_cab_creds, ↓ite_fst, ite_self, implies_true, and_self]

theorem wf_flush (m : Mach) (bad : List Nat) (hw : Memory.wf m.mram = true) :
    Memory.wf (Mach.flush m bad).mram = true := by
  unfold Mach.flush; try dsimp only
  all_goals repeat' first | with_reducible exact hw | with_reducible exact w | with_reducible apply wf_flushDrawer | with_reducible apply wf_putRec | with_reducible apply wf_ite | with_reducible refine wf_each _ _ _ (fun m x w => ?_) ?_ | simp only [↓keeps_clearWritten, ↓keeps_endFault, ↓keeps_onDrawer, ↓when_mram, ↓ite_mram, ↓ite_fst] | split | dsimp only

theorem keeps_clearFreeze (m : Mach) :
    (Mach.clearFreeze m).mram = m.mram
    ∧ (Mach.clearFreeze m).time.frame = m.time.frame
    ∧ (Mach.clearFreeze m).sec.rollback = m.sec.rollback
    ∧ (Mach.clearFreeze m).sec.boots = m.sec.boots
    ∧ (Mach.clearFreeze m).cab.creds = m.cab.creds := by
  unfold Mach.clearFreeze; try dsimp only
  simp only [↓keeps_onDrawer, ↓ite_mram, ↓each_mram, ↓ite_time_frame, ↓each_time_frame, ↓ite_sec_rollback, ↓each_sec_rollback, ↓ite_sec_boots, ↓each_sec_boots, ↓ite_cab_creds, ↓each_cab_creds, ↓ite_fst, ite_self, implies_true, and_self]

theorem keeps_corruptFound (m : Mach) (is : List Nat) :
    (Mach.corruptFound m is).mram = m.mram
    ∧ (Mach.corruptFound m is).time.frame = m.time.frame
    ∧ (Mach.corruptFound m is).sec.rollback = m.sec.rollback
    ∧ (Mach.corruptFound m is).sec.boots = m.sec.boots
    ∧ (Mach.corruptFound m is).cab.creds = m.cab.creds := by
  unfold Mach.corruptFound; try dsimp only
  simp only [↓keeps_raise, ↓ite_mram, ↓ite_time_frame, ↓ite_sec_rollback, ↓ite_sec_boots, ↓ite_cab_creds, ↓ite_fst, ite_self, implies_true, and_self]

theorem keeps_lateReply (m : Mach) (tag : Nat) (at_ : Nat) (status : Nat) (payload : List Nat) :
    (Mach.lateReply m tag at_ status payload).mram = m.mram
    ∧ (Mach.lateReply m tag at_ status payload).time.frame = m.time.frame
    ∧ (Mach.lateReply m tag at_ status payload).sec.rollback = m.sec.rollback
    ∧ (Mach.lateReply m tag at_ status payload).sec.boots = m.sec.boots
    ∧ (Mach.lateReply m tag at_ status payload).cab.creds = m.cab.creds := by
  unfold Mach.lateReply; try dsimp only
  simp only [↓keeps_reply, ↓ite_mram, ↓ite_time_frame, ↓ite_sec_rollback, ↓ite_sec_boots, ↓ite_cab_creds, ↓ite_fst, ite_self, implies_true, and_self]

theorem keeps_contactorStats (m : Mach) (old : Mach) :
    (Mach.contactorStats m old).mram = m.mram
    ∧ (Mach.contactorStats m old).time.frame = m.time.frame
    ∧ (Mach.contactorStats m old).sec.rollback = m.sec.rollback
    ∧ (Mach.contactorStats m old).sec.boots = m.sec.boots
    ∧ (Mach.contactorStats m old).cab.creds = m.cab.creds := by
  unfold Mach.contactorStats; try dsimp only
  simp only [↓keeps_count, ↓keeps_extreme, ↓ite_mram, ↓each_mram, ↓ite_time_frame, ↓each_time_frame, ↓ite_sec_rollback, ↓each_sec_rollback, ↓ite_sec_boots, ↓each_sec_boots, ↓ite_cab_creds, ↓each_cab_creds, ↓ite_fst, ite_self, implies_true, and_self]

theorem keeps_recorderFrame (m : Mach) (old : Mach) :
    (Mach.recorderFrame m old).mram = m.mram
    ∧ (Mach.recorderFrame m old).time.frame = m.time.frame
    ∧ (Mach.recorderFrame m old).sec.rollback = m.sec.rollback
    ∧ (Mach.recorderFrame m old).sec.boots = m.sec.boots
    ∧ (Mach.recorderFrame m old).cab.creds = m.cab.creds := by
  unfold Mach.recorderFrame; try dsimp only
  refine ⟨?_, ?_, ?_, ?_, ?_⟩ <;>
  (repeat' split) <;>
  first | with_reducible rfl | (simp only [↓keeps_contactorStats, ↓keeps_count, ↓keeps_endIf, ↓keeps_extreme, ↓ite_mram, ↓ite_time_frame, ↓ite_sec_rollback, ↓ite_sec_boots, ↓ite_cab_creds, ↓ite_fst, ite_self, implies_true, and_self]; done)

theorem keeps_loadMeta (m : Mach) (d : Nat) :
    (Mach.loadMeta m d).mram = m.mram
    ∧ (Mach.loadMeta m d).time.frame = m.time.frame
    ∧ (Mach.loadMeta m d).sec.rollback = m.sec.rollback
    ∧ (Mach.loadMeta m d).sec.boots = m.sec.boots
    ∧ (Mach.loadMeta m d).cab.creds = m.cab.creds := by
  unfold Mach.loadMeta; try dsimp only
  simp only [↓keeps_onDrawer, ↓keeps_raise, ↓ite_mram, ↓ite_time_frame, ↓ite_sec_rollback, ↓ite_sec_boots, ↓ite_cab_creds, ↓ite_fst, ite_self, implies_true, and_self]

theorem keeps_loadFixed (m : Mach) (d : Nat) :
    (Mach.loadFixed m d).mram = m.mram
    ∧ (Mach.loadFixed m d).time.frame = m.time.frame
    ∧ (Mach.loadFixed m d).sec.rollback = m.sec.rollback
    ∧ (Mach.loadFixed m d).sec.boots = m.sec.boots
    ∧ (Mach.loadFixed m d).cab.creds = m.cab.creds := by
  unfold Mach.loadFixed; try dsimp only
  refine ⟨?_, ?_, ?_, ?_, ?_⟩ <;>
  (first | refine each_mram _ _ _ fun m x => ?_ | refine each_time_frame _ _ _ fun m x => ?_ | refine each_sec_rollback _ _ _ fun m x => ?_ | refine each_sec_boots _ _ _ fun m x => ?_ | refine each_cab_creds _ _ _ fun m x => ?_) <;> (repeat' split) <;>
  first | with_reducible rfl | (simp only [↓keeps_onDrawer, ↓keeps_raise, ↓ite_mram, ↓each_mram, ↓ite_time_frame, ↓each_time_frame, ↓ite_sec_rollback, ↓each_sec_rollback, ↓ite_sec_boots, ↓each_sec_boots, ↓ite_cab_creds, ↓each_cab_creds, ↓ite_fst, ite_self, implies_true, and_self]; done)

theorem keeps_loadDrawer (m : Mach) (d : Nat) :
    (Mach.loadDrawer m d).mram = m.mram
    ∧ (Mach.loadDrawer m d).time.frame = m.time.frame
    ∧ (Mach.loadDrawer m d).sec.rollback = m.sec.rollback
    ∧ (Mach.loadDrawer m d).sec.boots = m.sec.boots
    ∧ (Mach.loadDrawer m d).cab.creds = m.cab.creds := by
  unfold Mach.loadDrawer; try dsimp only
  simp only [↓keeps_loadFixed, ↓keeps_loadMeta, ↓ite_mram, ↓ite_time_frame, ↓ite_sec_rollback, ↓ite_sec_boots, ↓ite_cab_creds, ↓ite_fst, ite_self, implies_true, and_self]

theorem keeps_resumeSeq (m : Mach) (n : Nat) :
    (Mach.resumeSeq m n).mram = m.mram
    ∧ (Mach.resumeSeq m n).time.frame = m.time.frame
    ∧ (Mach.resumeSeq m n).sec.rollback = m.sec.rollback
    ∧ (Mach.resumeSeq m n).sec.boots = m.sec.boots
    ∧ (Mach.resumeSeq m n).cab.creds = m.cab.creds := by
  unfold Mach.resumeSeq
  exact ⟨by with_reducible rfl, by with_reducible rfl, by with_reducible rfl, by with_reducible rfl, by with_reducible rfl⟩

theorem keeps_recorderStart (m : Mach) :
    (Mach.recorderStart m).mram = m.mram
    ∧ (Mach.recorderStart m).time.frame = m.time.frame
    ∧ (Mach.recorderStart m).sec.rollback = m.sec.rollback
    ∧ (Mach.recorderStart m).sec.boots = m.sec.boots
    ∧ (Mach.recorderStart m).cab.creds = m.cab.creds := by
  unfold Mach.recorderStart; try dsimp only
  simp only [↓keeps_loadDrawer, ↓keeps_resumeSeq, ↓ite_mram, ↓each_mram, ↓ite_time_frame, ↓each_time_frame, ↓ite_sec_rollback, ↓each_sec_rollback, ↓ite_sec_boots, ↓each_sec_boots, ↓ite_cab_creds, ↓each_cab_creds, ↓ite_fst, ite_self, implies_true, and_self]

end Sys2Proof.Laws
end

