-- ==== Sys2Proof/Laws/KeepHostPort.lean ====
section
/-!
SUPPORT. What the operations of Machine/HostPort.lean leave alone of the MRAM, the frame count, the rollback
counter, the boot count and the credentials of the cabinet, and that they keep the canonical form of the MRAM.
-/
namespace Sys2Proof.Laws

open Sys2Proof Sys2Proof.Machine

set_option linter.all false
set_option linter.unreachableTactic false
set_option linter.unusedTactic false
theorem keeps_keepRestart (m : Mach) :
    (Mach.keepRestart m).mram = m.mram
    ∧ (Mach.keepRestart m).time.frame = m.time.frame
    ∧ (Mach.keepRestart m).sec.rollback = m.sec.rollback
    ∧ (Mach.keepRestart m).sec.boots = m.sec.boots
    ∧ (Mach.keepRestart m).cab.creds = m.cab.creds := by
  unfold Mach.keepRestart
  exact ⟨by with_reducible rfl, by with_reducible rfl, by with_reducible rfl, by with_reducible rfl, by with_reducible rfl⟩

theorem keeps_heldAfter (m : Mach) (clocks : Nat) (newReply : Bool) :
    (Mach.heldAfter m clocks newReply).mram = m.mram
    ∧ (Mach.heldAfter m clocks newReply).time.frame = m.time.frame
    ∧ (Mach.heldAfter m clocks newReply).sec.rollback = m.sec.rollback
    ∧ (Mach.heldAfter m clocks newReply).sec.boots = m.sec.boots
    ∧ (Mach.heldAfter m clocks newReply).cab.creds = m.cab.creds := by
  unfold Mach.heldAfter; try dsimp only
  refine ⟨?_, ?_, ?_, ?_, ?_⟩ <;>
  (repeat' split) <;>
  first | with_reducible rfl | (simp only [↓ite_mram, ↓ite_time_frame, ↓ite_sec_rollback, ↓ite_sec_boots, ↓ite_cab_creds, ↓ite_fst, ite_self, implies_true, and_self]; done)

theorem keeps_linkError (m : Mach) (status : Nat) :
    (Mach.linkError m status).mram = m.mram
    ∧ (Mach.linkError m status).time.frame = m.time.frame
    ∧ (Mach.linkError m status).sec.rollback = m.sec.rollback
    ∧ (Mach.linkError m status).sec.boots = m.sec.boots
    ∧ (Mach.linkError m status).cab.creds = m.cab.creds := by
  unfold Mach.linkError; try dsimp only
  simp only [↓keeps_raise, ↓ite_mram, ↓ite_time_frame, ↓ite_sec_rollback, ↓ite_sec_boots, ↓ite_cab_creds, ↓ite_fst, ite_self, implies_true, and_self]

theorem keeps_refusePacket (m : Mach) (op : Nat) (tag : Nat) (status : Nat) :
    (Mach.refusePacket m op tag status).mram = m.mram
    ∧ (Mach.refusePacket m op tag status).time.frame = m.time.frame
    ∧ (Mach.refusePacket m op tag status).sec.rollback = m.sec.rollback
    ∧ (Mach.refusePacket m op tag status).sec.boots = m.sec.boots
    ∧ (Mach.refusePacket m op tag status).cab.creds = m.cab.creds := by
  unfold Mach.refusePacket; try dsimp only
  simp only [↓ite_mram, ↓ite_time_frame, ↓ite_sec_rollback, ↓ite_sec_boots, ↓ite_cab_creds, ↓ite_fst, ite_self, implies_true, and_self]

theorem keeps_transaction (m : Mach) (b : List Nat) (clocks : Nat) (ecc : Ecc) :
    (Mach.transaction m b clocks ecc).mram = m.mram
    ∧ (Mach.transaction m b clocks ecc).time.frame = m.time.frame
    ∧ (Mach.transaction m b clocks ecc).sec.rollback = m.sec.rollback
    ∧ (Mach.transaction m b clocks ecc).sec.boots = m.sec.boots
    ∧ (Mach.transaction m b clocks ecc).cab.creds = m.cab.creds := by
  unfold Mach.transaction; try dsimp only
  refine ⟨?_, ?_, ?_, ?_, ?_⟩ <;>
  (repeat' split) <;>
  first | with_reducible rfl | (simp only [↓keeps_endFault, ↓keeps_heldAfter, ↓keeps_keepRestart, ↓keeps_refusePacket, ↓ite_mram, ↓ite_time_frame, ↓ite_sec_rollback, ↓ite_sec_boots, ↓ite_cab_creds, ↓ite_fst, ite_self, implies_true, and_self]; done)

theorem keeps_serveRefused (m : Mach) :
    (Mach.serveRefused m).mram = m.mram
    ∧ (Mach.serveRefused m).time.frame = m.time.frame
    ∧ (Mach.serveRefused m).sec.rollback = m.sec.rollback
    ∧ (Mach.serveRefused m).sec.boots = m.sec.boots
    ∧ (Mach.serveRefused m).cab.creds = m.cab.creds := by
  unfold Mach.serveRefused; try dsimp only
  refine ⟨?_, ?_, ?_, ?_, ?_⟩ <;>
  (repeat' split) <;>
  first | with_reducible rfl | (simp only [↓keeps_linkError, ↓keeps_reply, ↓ite_mram, ↓ite_time_frame, ↓ite_sec_rollback, ↓ite_sec_boots, ↓ite_cab_creds, ↓ite_fst, ite_self, implies_true, and_self]; done)

theorem keeps_enqueue (m : Mach) (e : EvtRec) :
    (Mach.enqueue m e).mram = m.mram
    ∧ (Mach.enqueue m e).time.frame = m.time.frame
    ∧ (Mach.enqueue m e).sec.rollback = m.sec.rollback
    ∧ (Mach.enqueue m e).sec.boots = m.sec.boots
    ∧ (Mach.enqueue m e).cab.creds = m.cab.creds := by
  unfold Mach.enqueue; try dsimp only
  simp only [↓keeps_raise, ↓ite_mram, ↓ite_time_frame, ↓ite_sec_rollback, ↓ite_sec_boots, ↓ite_cab_creds, ↓ite_fst, ite_self, implies_true, and_self]

theorem keeps_takePosted (m : Mach) :
    (Mach.takePosted m).mram = m.mram
    ∧ (Mach.takePosted m).time.frame = m.time.frame
    ∧ (Mach.takePosted m).sec.rollback = m.sec.rollback
    ∧ (Mach.takePosted m).sec.boots = m.sec.boots
    ∧ (Mach.takePosted m).cab.creds = m.cab.creds := by
  unfold Mach.takePosted; try dsimp only
  simp only [↓keeps_enqueue, ↓ite_mram, ↓each_mram, ↓ite_time_frame, ↓each_time_frame, ↓ite_sec_rollback, ↓each_sec_rollback, ↓ite_sec_boots, ↓each_sec_boots, ↓ite_cab_creds, ↓each_cab_creds, ↓ite_fst, ite_self, implies_true, and_self]

theorem keeps_hostFrame (m : Mach) (kept : Bool) :
    (Mach.hostFrame m kept).mram = m.mram
    ∧ (Mach.hostFrame m kept).time.frame = m.time.frame
    ∧ (Mach.hostFrame m kept).sec.rollback = m.sec.rollback
    ∧ (Mach.hostFrame m kept).sec.boots = m.sec.boots
    ∧ (Mach.hostFrame m kept).cab.creds = m.cab.creds := by
  unfold Mach.hostFrame; try dsimp only
  simp only [↓keeps_endIf, ↓keeps_keepRestart, ↓keeps_serveRefused, ↓ite_mram, ↓ite_time_frame, ↓ite_sec_rollback, ↓ite_sec_boots, ↓ite_cab_creds, ↓ite_fst, ite_self, implies_true, and_self]

end Sys2Proof.Laws
end

