-- ==== Sys2Proof/Laws/KeepPower.lean ====
section
/-!
SUPPORT. What the operations of Machine/Power.lean leave alone of the MRAM, the frame count, the rollback
counter, the boot count and the credentials of the cabinet, and that they keep the canonical form of the MRAM.
-/
namespace Sys2Proof.Laws

open Sys2Proof Sys2Proof.Machine

set_option linter.all false
set_option linter.unreachableTactic false
set_option linter.unusedTactic false
theorem keeps_restart (m0 : Mach) :
    (Mach.restart m0).sec.rollback = m0.sec.rollback
    ∧ (Mach.restart m0).sec.boots = m0.sec.boots
    ∧ (Mach.restart m0).cab.creds = m0.cab.creds := by
  unfold Mach.restart; try dsimp only
  simp only [↓keeps_benchesLost, ↓ite_sec_rollback, ↓ite_sec_boots, ↓ite_cab_creds, ↓ite_fst, ite_self, implies_true, and_self]

theorem wf_restart (m0 : Mach) (hw : Memory.wf m0.mram = true) :
    Memory.wf (Mach.restart m0).mram = true := by
  unfold Mach.restart; try dsimp only
  all_goals repeat' first | with_reducible exact hw | with_reducible exact w | with_reducible apply wf_benchesLost | with_reducible apply wf_ite | simp only [↓when_mram, ↓ite_mram, ↓ite_fst] | split | dsimp only

theorem keeps_begin (m : Mach) :
    (Mach.begin m).mram = m.mram
    ∧ (Mach.begin m).time.frame = m.time.frame
    ∧ (Mach.begin m).sec.rollback = m.sec.rollback
    ∧ (Mach.begin m).cab.creds = m.cab.creds := by
  unfold Mach.begin; try dsimp only
  simp only [↓keeps_raise, ↓ite_mram, ↓ite_time_frame, ↓ite_sec_rollback, ↓ite_cab_creds, ↓ite_fst, ite_self, implies_true, and_self]

theorem keeps_blockStart (m : Mach) (code : Nat) :
    (Mach.blockStart m code).mram = m.mram
    ∧ (Mach.blockStart m code).time.frame = m.time.frame
    ∧ (Mach.blockStart m code).sec.rollback = m.sec.rollback
    ∧ (Mach.blockStart m code).sec.boots = m.sec.boots
    ∧ (Mach.blockStart m code).cab.creds = m.cab.creds := by
  unfold Mach.blockStart; try dsimp only
  simp only [↓keeps_post, ↓ite_mram, ↓ite_time_frame, ↓ite_sec_rollback, ↓ite_sec_boots, ↓ite_cab_creds, ↓ite_fst, ite_self, implies_true, and_self]

theorem keeps_startBlocks (m : Mach) :
    (Mach.startBlocks m).mram = m.mram
    ∧ (Mach.startBlocks m).time.frame = m.time.frame
    ∧ (Mach.startBlocks m).sec.rollback = m.sec.rollback
    ∧ (Mach.startBlocks m).sec.boots = m.sec.boots
    ∧ (Mach.startBlocks m).cab.creds = m.cab.creds := by
  unfold Mach.startBlocks; try dsimp only
  refine ⟨?_, ?_, ?_, ?_, ?_⟩ <;>
  (repeat' split) <;>
  first | with_reducible rfl | (simp only [↓keeps_blockStart, ↓ite_mram, ↓ite_time_frame, ↓ite_sec_rollback, ↓ite_sec_boots, ↓ite_cab_creds, ↓ite_fst, ite_self, implies_true, and_self]; done)

theorem keeps_writePower (m : Mach) (done : Bool) (us : Nat) :
    (Mach.writePower m done us).time.frame = m.time.frame
    ∧ (Mach.writePower m done us).sec.rollback = m.sec.rollback
    ∧ (Mach.writePower m done us).sec.boots = m.sec.boots
    ∧ (Mach.writePower m done us).cab.creds = m.cab.creds := by
  unfold Mach.writePower; try dsimp only
  simp only [↓keeps_writeRecord, ↓ite_time_frame, ↓ite_sec_rollback, ↓ite_sec_boots, ↓ite_cab_creds, ↓ite_fst, ite_self, implies_true, and_self]

theorem wf_writePower (m : Mach) (done : Bool) (us : Nat) (hw : Memory.wf m.mram = true) :
    Memory.wf (Mach.writePower m done us).mram = true := by
  unfold Mach.writePower; try dsimp only
  all_goals repeat' first | with_reducible exact hw | with_reducible exact w | with_reducible apply wf_writeRecord | with_reducible apply wf_ite | simp only [↓when_mram, ↓ite_mram, ↓ite_fst] | split | dsimp only

theorem keeps_saveCommit (m : Mach) :
    (Mach.saveCommit m).mram = m.mram
    ∧ (Mach.saveCommit m).time.frame = m.time.frame
    ∧ (Mach.saveCommit m).sec.rollback = m.sec.rollback
    ∧ (Mach.saveCommit m).sec.boots = m.sec.boots
    ∧ (Mach.saveCommit m).cab.creds = m.cab.creds := by
  unfold Mach.saveCommit; try dsimp only
  refine ⟨?_, ?_, ?_, ?_, ?_⟩ <;>
  (repeat' split) <;>
  first | with_reducible rfl | (simp only [↓keeps_writeCopy, ↓ite_mram, ↓ite_time_frame, ↓ite_sec_rollback, ↓ite_sec_boots, ↓ite_cab_creds, ↓ite_fst, ite_self, implies_true, and_self]; done)

theorem keeps_beginSave (m : Mach) (kind : Nat) :
    (Mach.beginSave m kind).time.frame = m.time.frame
    ∧ (Mach.beginSave m kind).sec.rollback = m.sec.rollback
    ∧ (Mach.beginSave m kind).sec.boots = m.sec.boots
    ∧ (Mach.beginSave m kind).cab.creds = m.cab.creds := by
  unfold Mach.beginSave; try dsimp only
  simp only [↓keeps_flush, ↓keeps_meterPowerFail, ↓keeps_saveCommit, ↓keeps_saveLock, ↓keeps_writePower, ↓keeps_writeSnapshots, ↓ite_time_frame, ↓ite_sec_rollback, ↓ite_sec_boots, ↓ite_cab_creds, ↓ite_fst, ite_self, implies_true, and_self]

theorem wf_beginSave (m : Mach) (kind : Nat) (hw : Memory.wf m.mram = true) :
    Memory.wf (Mach.beginSave m kind).mram = true := by
  unfold Mach.beginSave; try dsimp only
  all_goals repeat' first | with_reducible exact hw | with_reducible exact w | with_reducible apply wf_flush | with_reducible apply wf_meterPowerFail | with_reducible apply wf_writePower | with_reducible apply wf_writeSnapshots | with_reducible apply wf_ite | simp only [↓keeps_saveCommit, ↓keeps_saveLock, ↓when_mram, ↓ite_mram, ↓ite_fst] | split | dsimp only

theorem keeps_saveFrame (m : Mach) (vin : Nat) :
    (Mach.saveFrame m vin).time.frame = m.time.frame
    ∧ (Mach.saveFrame m vin).sec.rollback = m.sec.rollback
    ∧ (Mach.saveFrame m vin).sec.boots = m.sec.boots
    ∧ (Mach.saveFrame m vin).cab.creds = m.cab.creds := by
  unfold Mach.saveFrame; try dsimp only
  refine ⟨?_, ?_, ?_, ?_⟩ <;>
  (repeat' split) <;>
  first | with_reducible rfl | (simp only [↓keeps_writeSnapshots, ↓ite_time_frame, ↓ite_sec_rollback, ↓ite_sec_boots, ↓ite_cab_creds, ↓ite_fst, ite_self, implies_true, and_self]; done)

theorem wf_saveFrame (m : Mach) (vin : Nat) (hw : Memory.wf m.mram = true) :
    Memory.wf (Mach.saveFrame m vin).mram = true := by
  unfold Mach.saveFrame; try dsimp only
  all_goals repeat' first | with_reducible exact hw | with_reducible exact w | with_reducible apply wf_writeSnapshots | with_reducible apply wf_ite | simp only [↓when_mram, ↓ite_mram, ↓ite_fst] | split | dsimp only

theorem keeps_turnOff (m : Mach) :
    (Mach.turnOff m).sec.rollback = m.sec.rollback
    ∧ (Mach.turnOff m).sec.boots = m.sec.boots
    ∧ (Mach.turnOff m).cab.creds = m.cab.creds := by
  unfold Mach.turnOff; try dsimp only
  simp only [↓keeps_restart, ↓ite_sec_rollback, ↓ite_sec_boots, ↓ite_cab_creds, ↓ite_fst, ite_self, implies_true, and_self]

theorem wf_turnOff (m : Mach) (hw : Memory.wf m.mram = true) :
    Memory.wf (Mach.turnOff m).mram = true := by
  unfold Mach.turnOff; try dsimp only
  all_goals repeat' first | with_reducible exact hw | with_reducible exact w | with_reducible apply wf_restart | with_reducible apply wf_ite | simp only [↓when_mram, ↓ite_mram, ↓ite_fst] | split | dsimp only

theorem keeps_outputsReset (m : Mach) :
    (Mach.outputsReset m).mram = m.mram
    ∧ (Mach.outputsReset m).time.frame = m.time.frame
    ∧ (Mach.outputsReset m).sec.rollback = m.sec.rollback
    ∧ (Mach.outputsReset m).sec.boots = m.sec.boots
    ∧ (Mach.outputsReset m).cab.creds = m.cab.creds := by
  unfold Mach.outputsReset
  exact ⟨by with_reducible rfl, by with_reducible rfl, by with_reducible rfl, by with_reducible rfl, by with_reducible rfl⟩

theorem keeps_overvolt (m : Mach) :
    (Mach.overvolt m).time.frame = m.time.frame
    ∧ (Mach.overvolt m).sec.rollback = m.sec.rollback
    ∧ (Mach.overvolt m).sec.boots = m.sec.boots
    ∧ (Mach.overvolt m).cab.creds = m.cab.creds := by
  unfold Mach.overvolt; try dsimp only
  simp only [↓keeps_beginSave, ↓keeps_raise, ↓ite_time_frame, ↓ite_sec_rollback, ↓ite_sec_boots, ↓ite_cab_creds, ↓ite_fst, ite_self, implies_true, and_self]

theorem wf_overvolt (m : Mach) (hw : Memory.wf m.mram = true) :
    Memory.wf (Mach.overvolt m).mram = true := by
  unfold Mach.overvolt; try dsimp only
  all_goals repeat' first | with_reducible exact hw | with_reducible exact w | with_reducible apply wf_beginSave | with_reducible apply wf_ite | simp only [↓keeps_raise, ↓when_mram, ↓ite_mram, ↓ite_fst] | split | dsimp only

theorem keeps_setPower (m : Mach) (st : Nat) :
    (Mach.setPower m st).mram = m.mram
    ∧ (Mach.setPower m st).time.frame = m.time.frame
    ∧ (Mach.setPower m st).sec.rollback = m.sec.rollback
    ∧ (Mach.setPower m st).sec.boots = m.sec.boots
    ∧ (Mach.setPower m st).cab.creds = m.cab.creds := by
  unfold Mach.setPower; try dsimp only
  simp only [↓keeps_post, ↓ite_mram, ↓ite_time_frame, ↓ite_sec_rollback, ↓ite_sec_boots, ↓ite_cab_creds, ↓ite_fst, ite_self, implies_true, and_self]

theorem keeps_apOff (m : Mach) (a : Ab) :
    (Mach.apOff m a).mram = m.mram
    ∧ (Mach.apOff m a).time.frame = m.time.frame
    ∧ (Mach.apOff m a).sec.rollback = m.sec.rollback
    ∧ (Mach.apOff m a).sec.boots = m.sec.boots
    ∧ (Mach.apOff m a).cab.creds = m.cab.creds := by
  unfold Mach.apOff; try dsimp only
  simp only [↓keeps_onAp, ↓ite_mram, ↓ite_time_frame, ↓ite_sec_rollback, ↓ite_sec_boots, ↓ite_cab_creds, ↓ite_fst, ite_self, implies_true, and_self]

theorem keeps_apBoots (m : Mach) (a : Ab) :
    (Mach.apBoots m a).mram = m.mram
    ∧ (Mach.apBoots m a).time.frame = m.time.frame
    ∧ (Mach.apBoots m a).sec.rollback = m.sec.rollback
    ∧ (Mach.apBoots m a).sec.boots = m.sec.boots
    ∧ (Mach.apBoots m a).cab.creds = m.cab.creds := by
  unfold Mach.apBoots; try dsimp only
  simp only [↓keeps_onAp, ↓keeps_raise, ↓ite_mram, ↓ite_time_frame, ↓ite_sec_rollback, ↓ite_sec_boots, ↓ite_cab_creds, ↓ite_fst, ite_self, implies_true, and_self]

theorem keeps_goDown (m : Mach) (st : Nat) :
    (Mach.goDown m st).mram = m.mram
    ∧ (Mach.goDown m st).time.frame = m.time.frame
    ∧ (Mach.goDown m st).sec.rollback = m.sec.rollback
    ∧ (Mach.goDown m st).sec.boots = m.sec.boots
    ∧ (Mach.goDown m st).cab.creds = m.cab.creds := by
  unfold Mach.goDown; try dsimp only
  simp only [↓keeps_apOff, ↓keeps_portSleep, ↓keeps_setPower, ↓ite_mram, ↓each_mram, ↓ite_time_frame, ↓each_time_frame, ↓ite_sec_rollback, ↓each_sec_rollback, ↓ite_sec_boots, ↓each_sec_boots, ↓ite_cab_creds, ↓each_cab_creds, ↓ite_fst, ite_self, implies_true, and_self]

theorem keeps_goRun (m : Mach) :
    (Mach.goRun m).mram = m.mram
    ∧ (Mach.goRun m).time.frame = m.time.frame
    ∧ (Mach.goRun m).sec.rollback = m.sec.rollback
    ∧ (Mach.goRun m).sec.boots = m.sec.boots
    ∧ (Mach.goRun m).cab.creds = m.cab.creds := by
  unfold Mach.goRun; try dsimp only
  simp only [↓keeps_apBoots, ↓keeps_entersFault, ↓keeps_onAp, ↓keeps_portWake, ↓keeps_setPower, ↓ite_mram, ↓each_mram, ↓ite_time_frame, ↓each_time_frame, ↓ite_sec_rollback, ↓each_sec_rollback, ↓ite_sec_boots, ↓each_sec_boots, ↓ite_cab_creds, ↓each_cab_creds, ↓ite_fst, ite_self, implies_true, and_self]

theorem keeps_sleepTick (m : Mach) :
    (Mach.sleepTick m).mram = m.mram
    ∧ (Mach.sleepTick m).time.frame = m.time.frame
    ∧ (Mach.sleepTick m).sec.rollback = m.sec.rollback
    ∧ (Mach.sleepTick m).sec.boots = m.sec.boots
    ∧ (Mach.sleepTick m).cab.creds = m.cab.creds := by
  unfold Mach.sleepTick; try dsimp only
  refine ⟨?_, ?_, ?_, ?_, ?_⟩ <;>
  (repeat' split) <;>
  first | with_reducible rfl | (simp only [↓keeps_goDown, ↓keeps_goRun, ↓ite_mram, ↓ite_time_frame, ↓ite_sec_rollback, ↓ite_sec_boots, ↓ite_cab_creds, ↓ite_fst, ite_self, implies_true, and_self]; done)

theorem keeps_wakeUp (m : Mach) (src : Nat) :
    (Mach.wakeUp m src).mram = m.mram
    ∧ (Mach.wakeUp m src).time.frame = m.time.frame
    ∧ (Mach.wakeUp m src).sec.rollback = m.sec.rollback
    ∧ (Mach.wakeUp m src).sec.boots = m.sec.boots
    ∧ (Mach.wakeUp m src).cab.creds = m.cab.creds := by
  unfold Mach.wakeUp
  exact ⟨by with_reducible rfl, by with_reducible rfl, by with_reducible rfl, by with_reducible rfl, by with_reducible rfl⟩

theorem keeps_powerFrame (m : Mach) (vin : Nat) (pw : Nat) (temp : Int) :
    (Mach.powerFrame m vin pw temp).time.frame = m.time.frame
    ∧ (Mach.powerFrame m vin pw temp).sec.rollback = m.sec.rollback
    ∧ (Mach.powerFrame m vin pw temp).sec.boots = m.sec.boots
    ∧ (Mach.powerFrame m vin pw temp).cab.creds = m.cab.creds := by
  unfold Mach.powerFrame; try dsimp only
  simp only [↓keeps_saveFrame, ↓ite_time_frame, ↓ite_sec_rollback, ↓ite_sec_boots, ↓ite_cab_creds, ↓ite_fst, ite_self, implies_true, and_self]

theorem wf_powerFrame (m : Mach) (vin : Nat) (pw : Nat) (temp : Int) (hw : Memory.wf m.mram = true) :
    Memory.wf (Mach.powerFrame m vin pw temp).mram = true := by
  unfold Mach.powerFrame; try dsimp only
  all_goals repeat' first | with_reducible exact hw | with_reducible exact w | with_reducible apply wf_saveFrame | with_reducible apply wf_ite | simp only [↓when_mram, ↓ite_mram, ↓ite_fst] | split | dsimp only

end Sys2Proof.Laws
end

