-- ==== Sys2Proof/Laws/KeepSecurity.lean ====
section
/-!
SUPPORT. What the operations of Machine/Security.lean leave alone of the MRAM, the frame count, the rollback
counter, the boot count and the credentials of the cabinet, and that they keep the canonical form of the MRAM.
-/
namespace Sys2Proof.Laws

open Sys2Proof Sys2Proof.Machine

set_option linter.all false
set_option linter.unreachableTactic false
set_option linter.unusedTactic false
theorem keeps_bootFail (m : Mach) :
    (Mach.bootFail m).mram = m.mram
    ∧ (Mach.bootFail m).time.frame = m.time.frame
    ∧ (Mach.bootFail m).sec.rollback = m.sec.rollback
    ∧ (Mach.bootFail m).sec.boots = m.sec.boots
    ∧ (Mach.bootFail m).cab.creds = m.cab.creds := by
  unfold Mach.bootFail; try dsimp only
  simp only [↓ite_mram, ↓ite_time_frame, ↓ite_sec_rollback, ↓ite_sec_boots, ↓ite_cab_creds, ↓ite_fst, ite_self, implies_true, and_self]

theorem keeps_bootFault (m : Mach) (unit : Nat) (code : Nat) (cls : Nat) :
    (Mach.bootFault m unit code cls).mram = m.mram
    ∧ (Mach.bootFault m unit code cls).time.frame = m.time.frame
    ∧ (Mach.bootFault m unit code cls).sec.rollback = m.sec.rollback
    ∧ (Mach.bootFault m unit code cls).sec.boots = m.sec.boots
    ∧ (Mach.bootFault m unit code cls).cab.creds = m.cab.creds := by
  unfold Mach.bootFault; try dsimp only
  simp only [↓keeps_bootFail, ↓keeps_raise, ↓ite_mram, ↓ite_time_frame, ↓ite_sec_rollback, ↓ite_sec_boots, ↓ite_cab_creds, ↓ite_fst, ite_self, implies_true, and_self]

theorem keeps_runSlot (m : Mach) (t : Nat) (slot : Nat) :
    (Mach.runSlot m t slot).mram = m.mram
    ∧ (Mach.runSlot m t slot).time.frame = m.time.frame
    ∧ (Mach.runSlot m t slot).sec.rollback = m.sec.rollback
    ∧ (Mach.runSlot m t slot).sec.boots = m.sec.boots
    ∧ (Mach.runSlot m t slot).cab.creds = m.cab.creds := by
  unfold Mach.runSlot; try dsimp only
  simp only [↓keeps_bootFault, ↓ite_mram, ↓ite_time_frame, ↓ite_sec_rollback, ↓ite_sec_boots, ↓ite_cab_creds, ↓ite_fst, ite_self, implies_true, and_self]

theorem keeps_bootExclude (m : Mach) (x : List Nat) (c : CoreId) :
    (Mach.bootExclude m x c).mram = m.mram
    ∧ (Mach.bootExclude m x c).time.frame = m.time.frame
    ∧ (Mach.bootExclude m x c).sec.rollback = m.sec.rollback
    ∧ (Mach.bootExclude m x c).sec.boots = m.sec.boots
    ∧ (Mach.bootExclude m x c).cab.creds = m.cab.creds := by
  unfold Mach.bootExclude; try dsimp only
  refine ⟨?_, ?_, ?_, ?_, ?_⟩ <;>
  (repeat' split) <;>
  first | with_reducible rfl | (simp only [↓keeps_bootFault, ↓keeps_exclude, ↓ite_mram, ↓ite_time_frame, ↓ite_sec_rollback, ↓ite_sec_boots, ↓ite_cab_creds, ↓ite_fst, ite_self, implies_true, and_self]; done)

theorem keeps_bootKernel (m : Mach) (ev : Three CoreBoot) :
    (Mach.bootKernel m ev).mram = m.mram
    ∧ (Mach.bootKernel m ev).time.frame = m.time.frame
    ∧ (Mach.bootKernel m ev).sec.rollback = m.sec.rollback
    ∧ (Mach.bootKernel m ev).sec.boots = m.sec.boots
    ∧ (Mach.bootKernel m ev).cab.creds = m.cab.creds := by
  unfold Mach.bootKernel; try dsimp only
  refine ⟨?_, ?_, ?_, ?_, ?_⟩ <;>
  (repeat' split) <;>
  first | with_reducible rfl | (simp only [↓keeps_bootExclude, ↓keeps_bootFault, ↓keeps_runSlot, ↓ite_mram, ↓each_mram, ↓ite_time_frame, ↓each_time_frame, ↓ite_sec_rollback, ↓each_sec_rollback, ↓ite_sec_boots, ↓each_sec_boots, ↓ite_cab_creds, ↓each_cab_creds, ↓ite_fst, ite_self, implies_true, and_self]; done)

theorem keeps_fwEnd (m : Mach) (st : Nat) :
    (Mach.fwEnd m st).mram = m.mram
    ∧ (Mach.fwEnd m st).time.frame = m.time.frame
    ∧ (Mach.fwEnd m st).sec.rollback = m.sec.rollback
    ∧ (Mach.fwEnd m st).sec.boots = m.sec.boots
    ∧ (Mach.fwEnd m st).cab.creds = m.cab.creds := by
  unfold Mach.fwEnd
  exact ⟨by with_reducible rfl, by with_reducible rfl, by with_reducible rfl, by with_reducible rfl, by with_reducible rfl⟩

theorem keeps_rollbackAdvance (m : Mach) :
    (Mach.rollbackAdvance m).mram = m.mram
    ∧ (Mach.rollbackAdvance m).time.frame = m.time.frame
    ∧ (Mach.rollbackAdvance m).sec.boots = m.sec.boots
    ∧ (Mach.rollbackAdvance m).cab.creds = m.cab.creds := by
  unfold Mach.rollbackAdvance; try dsimp only
  simp only [↓keeps_raise, ↓ite_mram, ↓ite_time_frame, ↓ite_sec_boots, ↓ite_cab_creds, ↓ite_fst, ite_self, implies_true, and_self]

theorem keeps_apInstalled (m : Mach) (t : Nat) :
    (Mach.apInstalled m t).mram = m.mram
    ∧ (Mach.apInstalled m t).time.frame = m.time.frame
    ∧ (Mach.apInstalled m t).sec.boots = m.sec.boots
    ∧ (Mach.apInstalled m t).cab.creds = m.cab.creds := by
  unfold Mach.apInstalled; try dsimp only
  refine ⟨?_, ?_, ?_, ?_⟩ <;>
  (repeat' split) <;>
  first | with_reducible rfl | (simp only [↓keeps_completed, ↓keeps_endFault, ↓keeps_fwEnd, ↓keeps_rollbackAdvance, ↓ite_mram, ↓ite_time_frame, ↓ite_sec_boots, ↓ite_cab_creds, ↓ite_fst, ite_self, implies_true, and_self]; done)

theorem keeps_bootAp (m : Mach) (a : Ab) :
    (Mach.bootAp m a).mram = m.mram
    ∧ (Mach.bootAp m a).time.frame = m.time.frame
    ∧ (Mach.bootAp m a).sec.boots = m.sec.boots
    ∧ (Mach.bootAp m a).cab.creds = m.cab.creds := by
  unfold Mach.bootAp; try dsimp only
  refine ⟨?_, ?_, ?_, ?_⟩ <;>
  (repeat' split) <;>
  first | with_reducible rfl | (simp only [↓keeps_apInstalled, ↓keeps_bootFault, ↓keeps_onAp, ↓keeps_runSlot, ↓ite_mram, ↓ite_time_frame, ↓ite_sec_boots, ↓ite_cab_creds, ↓ite_fst, ite_self, implies_true, and_self]; done)

theorem keeps_bootField (m : Mach) :
    (Mach.bootField m).mram = m.mram
    ∧ (Mach.bootField m).time.frame = m.time.frame
    ∧ (Mach.bootField m).sec.rollback = m.sec.rollback
    ∧ (Mach.bootField m).sec.boots = m.sec.boots
    ∧ (Mach.bootField m).cab.creds = m.cab.creds := by
  unfold Mach.bootField; try dsimp only
  refine ⟨?_, ?_, ?_, ?_, ?_⟩ <;>
  (repeat' split) <;>
  first | with_reducible rfl | (simp only [↓keeps_bootFault, ↓keeps_runSlot, ↓ite_mram, ↓ite_time_frame, ↓ite_sec_rollback, ↓ite_sec_boots, ↓ite_cab_creds, ↓ite_fst, ite_self, implies_true, and_self]; done)

theorem keeps_setSlot (m : Mach) (t : Nat) (slot : Nat) (r : ImageRec) :
    (Mach.setSlot m t slot r).mram = m.mram
    ∧ (Mach.setSlot m t slot r).time.frame = m.time.frame
    ∧ (Mach.setSlot m t slot r).sec.rollback = m.sec.rollback
    ∧ (Mach.setSlot m t slot r).sec.boots = m.sec.boots
    ∧ (Mach.setSlot m t slot r).cab.creds = m.cab.creds := by
  unfold Mach.setSlot
  exact ⟨by with_reducible rfl, by with_reducible rfl, by with_reducible rfl, by with_reducible rfl, by with_reducible rfl⟩

theorem keeps_fwDrop (m : Mach) :
    (Mach.fwDrop m).mram = m.mram
    ∧ (Mach.fwDrop m).time.frame = m.time.frame
    ∧ (Mach.fwDrop m).sec.rollback = m.sec.rollback
    ∧ (Mach.fwDrop m).sec.boots = m.sec.boots
    ∧ (Mach.fwDrop m).cab.creds = m.cab.creds := by
  unfold Mach.fwDrop; try dsimp only
  refine ⟨?_, ?_, ?_, ?_, ?_⟩ <;>
  (repeat' split) <;>
  first | with_reducible rfl | (simp only [↓keeps_completed, ↓keeps_fwEnd, ↓ite_mram, ↓ite_time_frame, ↓ite_sec_rollback, ↓ite_sec_boots, ↓ite_cab_creds, ↓ite_fst, ite_self, implies_true, and_self]; done)

theorem keeps_selectImage (m : Mach) (w : FwRun) :
    (Mach.selectImage m w).mram = m.mram
    ∧ (Mach.selectImage m w).time.frame = m.time.frame
    ∧ (Mach.selectImage m w).sec.rollback = m.sec.rollback
    ∧ (Mach.selectImage m w).sec.boots = m.sec.boots
    ∧ (Mach.selectImage m w).cab.creds = m.cab.creds := by
  unfold Mach.selectImage; try dsimp only
  simp only [↓keeps_setSlot, ↓ite_mram, ↓ite_time_frame, ↓ite_sec_rollback, ↓ite_sec_boots, ↓ite_cab_creds, ↓ite_fst, ite_self, implies_true, and_self]

theorem keeps_apReload (m : Mach) (a : Ab) :
    (Mach.apReload m a).mram = m.mram
    ∧ (Mach.apReload m a).time.frame = m.time.frame
    ∧ (Mach.apReload m a).sec.rollback = m.sec.rollback
    ∧ (Mach.apReload m a).sec.boots = m.sec.boots
    ∧ (Mach.apReload m a).cab.creds = m.cab.creds := by
  unfold Mach.apReload; try dsimp only
  simp only [↓keeps_onAp, ↓ite_mram, ↓ite_time_frame, ↓ite_sec_rollback, ↓ite_sec_boots, ↓ite_cab_creds, ↓ite_fst, ite_self, implies_true, and_self]

theorem keeps_fwVerified (m : Mach) (w : FwRun) :
    (Mach.fwVerified m w).time.frame = m.time.frame
    ∧ (Mach.fwVerified m w).sec.rollback = m.sec.rollback
    ∧ (Mach.fwVerified m w).sec.boots = m.sec.boots
    ∧ (Mach.fwVerified m w).cab.creds = m.cab.creds := by
  unfold Mach.fwVerified; try dsimp only
  simp only [↓keeps_apReload, ↓keeps_beginSave, ↓keeps_completed, ↓keeps_endFault, ↓keeps_fwEnd, ↓keeps_raise, ↓keeps_selectImage, ↓ite_time_frame, ↓ite_sec_rollback, ↓ite_sec_boots, ↓ite_cab_creds, ↓ite_fst, ite_self, implies_true, and_self]

theorem wf_fwVerified (m : Mach) (w : FwRun) (hw : Memory.wf m.mram = true) :
    Memory.wf (Mach.fwVerified m w).mram = true := by
  unfold Mach.fwVerified; try dsimp only
  all_goals repeat' first | with_reducible exact hw | with_reducible exact w | with_reducible apply wf_beginSave | with_reducible apply wf_ite | simp only [↓keeps_apReload, ↓keeps_completed, ↓keeps_endFault, ↓keeps_fwEnd, ↓keeps_raise, ↓keeps_selectImage, ↓when_mram, ↓ite_mram, ↓ite_fst] | split | dsimp only

end Sys2Proof.Laws
end

