-- ==== Sys2Proof/Laws/KeepStartup.lean ====
section
/-!
SUPPORT. What the operations of Machine/Startup.lean leave alone of the MRAM, the frame count, the rollback
counter, the boot count and the credentials of the cabinet, and that they keep the canonical form of the MRAM.
-/
namespace Sys2Proof.Laws

open Sys2Proof Sys2Proof.Machine

set_option linter.all false
set_option linter.unreachableTactic false
set_option linter.unusedTactic false
theorem keeps_abortPending (m : Mach) (gen : Nat) :
    (Mach.abortPending m gen).time.frame = m.time.frame
    ∧ (Mach.abortPending m gen).sec.rollback = m.sec.rollback
    ∧ (Mach.abortPending m gen).sec.boots = m.sec.boots
    ∧ (Mach.abortPending m gen).cab.creds = m.cab.creds := by
  unfold Mach.abortPending; try dsimp only
  simp only [↓keeps_logStatus, ↓ite_time_frame, ↓each_time_frame, ↓ite_sec_rollback, ↓each_sec_rollback, ↓ite_sec_boots, ↓each_sec_boots, ↓ite_cab_creds, ↓each_cab_creds, ↓ite_fst, ite_self, implies_true, and_self]

theorem wf_abortPending (m : Mach) (gen : Nat) (hw : Memory.wf m.mram = true) :
    Memory.wf (Mach.abortPending m gen).mram = true := by
  unfold Mach.abortPending; try dsimp only
  all_goals repeat' first | with_reducible exact hw | with_reducible exact w | with_reducible apply wf_logStatus | with_reducible apply wf_ite | with_reducible refine wf_each _ _ _ (fun m x w => ?_) ?_ | simp only [↓when_mram, ↓ite_mram, ↓ite_fst] | split | dsimp only

theorem keeps_repairCopy (m : Mach) (c : CabCopy) :
    (Mach.repairCopy m c).time.frame = m.time.frame
    ∧ (Mach.repairCopy m c).sec.rollback = m.sec.rollback
    ∧ (Mach.repairCopy m c).sec.boots = m.sec.boots
    ∧ (Mach.repairCopy m c).cab.creds = m.cab.creds := by
  unfold Mach.repairCopy; try dsimp only
  refine ⟨?_, ?_, ?_, ?_⟩ <;>
  (repeat' split) <;>
  first | with_reducible rfl | (simp only [↓keeps_endFault, ↓keeps_logEvent, ↓keeps_raise, ↓keeps_writeCopy, ↓ite_time_frame, ↓ite_sec_rollback, ↓ite_sec_boots, ↓ite_cab_creds, ↓ite_fst, ite_self, implies_true, and_self]; done)

theorem wf_repairCopy (m : Mach) (c : CabCopy) (hw : Memory.wf m.mram = true) :
    Memory.wf (Mach.repairCopy m c).mram = true := by
  unfold Mach.repairCopy; try dsimp only
  all_goals repeat' first | with_reducible exact hw | with_reducible exact w | with_reducible apply wf_logEvent | with_reducible apply wf_ite | simp only [↓keeps_endFault, ↓keeps_raise, ↓keeps_writeCopy, ↓when_mram, ↓ite_mram, ↓ite_fst] | split | dsimp only

theorem keeps_readCopies (m : Mach) :
    (Mach.readCopies m).time.frame = m.time.frame
    ∧ (Mach.readCopies m).sec.rollback = m.sec.rollback
    ∧ (Mach.readCopies m).sec.boots = m.sec.boots
    ∧ (Mach.readCopies m).cab.creds = m.cab.creds := by
  unfold Mach.readCopies; try dsimp only
  refine ⟨?_, ?_, ?_, ?_⟩ <;>
  (repeat' split) <;>
  first | with_reducible rfl | (simp only [↓keeps_applyCab, ↓keeps_raise, ↓keeps_repairCopy, ↓keeps_withCab, ↓ite_time_frame, ↓ite_sec_rollback, ↓ite_sec_boots, ↓ite_cab_creds, ↓ite_fst, ite_self, implies_true, and_self]; done)

theorem wf_readCopies (m : Mach) (hw : Memory.wf m.mram = true) :
    Memory.wf (Mach.readCopies m).mram = true := by
  unfold Mach.readCopies; try dsimp only
  all_goals repeat' first | with_reducible exact hw | with_reducible exact w | with_reducible apply wf_repairCopy | with_reducible apply wf_ite | simp only [↓keeps_applyCab, ↓keeps_raise, ↓keeps_withCab, ↓when_mram, ↓ite_mram, ↓ite_fst] | split | dsimp only

theorem keeps_readBlocks (m : Mach) :
    (Mach.readBlocks m).mram = m.mram
    ∧ (Mach.readBlocks m).time.frame = m.time.frame
    ∧ (Mach.readBlocks m).sec.rollback = m.sec.rollback
    ∧ (Mach.readBlocks m).sec.boots = m.sec.boots := by
  unfold Mach.readBlocks; try dsimp only
  simp only [↓keeps_raise, ↓keeps_writeBlocks, ↓ite_mram, ↓ite_time_frame, ↓ite_sec_rollback, ↓ite_sec_boots, ↓ite_fst, ite_self, implies_true, and_self]

theorem keeps_makerMirror (m : Mach) :
    (Mach.makerMirror m).mram = m.mram
    ∧ (Mach.makerMirror m).time.frame = m.time.frame
    ∧ (Mach.makerMirror m).sec.rollback = m.sec.rollback
    ∧ (Mach.makerMirror m).sec.boots = m.sec.boots
    ∧ (Mach.makerMirror m).cab.creds = m.cab.creds := by
  unfold Mach.makerMirror; try dsimp only
  simp only [↓keeps_raise, ↓ite_mram, ↓ite_time_frame, ↓ite_sec_rollback, ↓ite_sec_boots, ↓ite_cab_creds, ↓ite_fst, ite_self, implies_true, and_self]

theorem keeps_holdupShort (m : Mach) :
    (Mach.holdupShort m).mram = m.mram
    ∧ (Mach.holdupShort m).time.frame = m.time.frame
    ∧ (Mach.holdupShort m).sec.rollback = m.sec.rollback
    ∧ (Mach.holdupShort m).sec.boots = m.sec.boots
    ∧ (Mach.holdupShort m).cab.creds = m.cab.creds := by
  unfold Mach.holdupShort; try dsimp only
  simp only [↓keeps_raise, ↓ite_mram, ↓ite_time_frame, ↓ite_sec_rollback, ↓ite_sec_boots, ↓ite_cab_creds, ↓ite_fst, ite_self, implies_true, and_self]

theorem keeps_readPower (m : Mach) :
    (Mach.readPower m).mram = m.mram
    ∧ (Mach.readPower m).time.frame = m.time.frame
    ∧ (Mach.readPower m).sec.rollback = m.sec.rollback
    ∧ (Mach.readPower m).sec.boots = m.sec.boots
    ∧ (Mach.readPower m).cab.creds = m.cab.creds := by
  unfold Mach.readPower; try dsimp only
  refine ⟨?_, ?_, ?_, ?_, ?_⟩ <;>
  (repeat' split) <;>
  first | with_reducible rfl | (simp only [↓keeps_holdupShort, ↓ite_mram, ↓ite_time_frame, ↓ite_sec_rollback, ↓ite_sec_boots, ↓ite_cab_creds, ↓ite_fst, ite_self, implies_true, and_self]; done)

theorem keeps_writeLatch (m : Mach) (c : CoreId) :
    (Mach.writeLatch m c).time.frame = m.time.frame
    ∧ (Mach.writeLatch m c).sec.rollback = m.sec.rollback
    ∧ (Mach.writeLatch m c).sec.boots = m.sec.boots
    ∧ (Mach.writeLatch m c).cab.creds = m.cab.creds := by
  unfold Mach.writeLatch; try dsimp only
  simp only [↓keeps_writeRecord, ↓ite_time_frame, ↓ite_sec_rollback, ↓ite_sec_boots, ↓ite_cab_creds, ↓ite_fst, ite_self, implies_true, and_self]

theorem wf_writeLatch (m : Mach) (c : CoreId) (hw : Memory.wf m.mram = true) :
    Memory.wf (Mach.writeLatch m c).mram = true := by
  unfold Mach.writeLatch; try dsimp only
  all_goals repeat' first | with_reducible exact hw | with_reducible exact w | with_reducible apply wf_writeRecord | with_reducible apply wf_ite | simp only [↓when_mram, ↓ite_mram, ↓ite_fst] | split | dsimp only

theorem keeps_latchFrame (m : Mach) (was : Mach) (before : Mach) :
    (Mach.latchFrame m was before).time.frame = m.time.frame
    ∧ (Mach.latchFrame m was before).sec.rollback = m.sec.rollback
    ∧ (Mach.latchFrame m was before).sec.boots = m.sec.boots
    ∧ (Mach.latchFrame m was before).cab.creds = m.cab.creds := by
  unfold Mach.latchFrame; try dsimp only
  simp only [↓keeps_writeLatch, ↓ite_time_frame, ↓each_time_frame, ↓ite_sec_rollback, ↓each_sec_rollback, ↓ite_sec_boots, ↓each_sec_boots, ↓ite_cab_creds, ↓each_cab_creds, ↓ite_fst, ite_self, implies_true, and_self]

theorem wf_latchFrame (m : Mach) (was : Mach) (before : Mach) (hw : Memory.wf m.mram = true) :
    Memory.wf (Mach.latchFrame m was before).mram = true := by
  unfold Mach.latchFrame; try dsimp only
  all_goals repeat' first | with_reducible exact hw | with_reducible exact w | with_reducible apply wf_writeLatch | with_reducible apply wf_ite | with_reducible refine wf_each _ _ _ (fun m x w => ?_) ?_ | simp only [↓when_mram, ↓ite_mram, ↓ite_fst] | split | dsimp only

theorem keeps_restoreTrip (m : Mach) (x : Nat × Nat) :
    (Mach.restoreTrip m x).mram = m.mram
    ∧ (Mach.restoreTrip m x).time.frame = m.time.frame
    ∧ (Mach.restoreTrip m x).sec.rollback = m.sec.rollback
    ∧ (Mach.restoreTrip m x).sec.boots = m.sec.boots
    ∧ (Mach.restoreTrip m x).cab.creds = m.cab.creds := by
  unfold Mach.restoreTrip; try dsimp only
  simp only [↓keeps_raise, ↓ite_mram, ↓ite_time_frame, ↓ite_sec_rollback, ↓ite_sec_boots, ↓ite_cab_creds, ↓ite_fst, ite_self, implies_true, and_self]

theorem keeps_readLatches (m : Mach) :
    (Mach.readLatches m).mram = m.mram
    ∧ (Mach.readLatches m).time.frame = m.time.frame
    ∧ (Mach.readLatches m).sec.rollback = m.sec.rollback
    ∧ (Mach.readLatches m).sec.boots = m.sec.boots
    ∧ (Mach.readLatches m).cab.creds = m.cab.creds := by
  unfold Mach.readLatches; try dsimp only
  simp only [↓keeps_restoreTrip, ↓ite_mram, ↓each_mram, ↓ite_time_frame, ↓each_time_frame, ↓ite_sec_rollback, ↓each_sec_rollback, ↓ite_sec_boots, ↓each_sec_boots, ↓ite_cab_creds, ↓each_cab_creds, ↓ite_fst, ite_self, implies_true, and_self]

theorem keeps_readCabinet (m : Mach) :
    (Mach.readCabinet m).time.frame = m.time.frame
    ∧ (Mach.readCabinet m).sec.rollback = m.sec.rollback
    ∧ (Mach.readCabinet m).sec.boots = m.sec.boots
    ∧ (Mach.readCabinet m).cab.creds = m.cab.creds := by
  unfold Mach.readCabinet; try dsimp only
  simp only [↓keeps_abortPending, ↓keeps_readCopies, ↓ite_time_frame, ↓ite_sec_rollback, ↓ite_sec_boots, ↓ite_cab_creds, ↓ite_fst, ite_self, implies_true, and_self]

theorem wf_readCabinet (m : Mach) (hw : Memory.wf m.mram = true) :
    Memory.wf (Mach.readCabinet m).mram = true := by
  unfold Mach.readCabinet; try dsimp only
  all_goals repeat' first | with_reducible exact hw | with_reducible exact w | with_reducible apply wf_abortPending | with_reducible apply wf_readCopies | with_reducible apply wf_ite | simp only [↓when_mram, ↓ite_mram, ↓ite_fst] | split | dsimp only

theorem keeps_readSaved (m : Mach) :
    (Mach.readSaved m).mram = m.mram
    ∧ (Mach.readSaved m).time.frame = m.time.frame
    ∧ (Mach.readSaved m).sec.rollback = m.sec.rollback
    ∧ (Mach.readSaved m).sec.boots = m.sec.boots := by
  unfold Mach.readSaved; try dsimp only
  simp only [↓keeps_makerMirror, ↓keeps_readBlocks, ↓keeps_readLatches, ↓keeps_readPower, ↓keeps_recorderStart, ↓keeps_restoreMeter, ↓ite_mram, ↓ite_time_frame, ↓ite_sec_rollback, ↓ite_sec_boots, ↓ite_fst, ite_self, implies_true, and_self]

theorem keeps_sendConfig (m : Mach) :
    (Mach.sendConfig m).mram = m.mram
    ∧ (Mach.sendConfig m).time.frame = m.time.frame
    ∧ (Mach.sendConfig m).sec.rollback = m.sec.rollback
    ∧ (Mach.sendConfig m).sec.boots = m.sec.boots
    ∧ (Mach.sendConfig m).cab.creds = m.cab.creds := by
  unfold Mach.sendConfig; try dsimp only
  simp only [↓keeps_queueAllCfg, ↓ite_mram, ↓ite_time_frame, ↓ite_sec_rollback, ↓ite_sec_boots, ↓ite_cab_creds, ↓ite_fst, ite_self, implies_true, and_self]

theorem keeps_stepFour (m : Mach) :
    (Mach.stepFour m).time.frame = m.time.frame
    ∧ (Mach.stepFour m).sec.rollback = m.sec.rollback
    ∧ (Mach.stepFour m).sec.boots = m.sec.boots := by
  unfold Mach.stepFour; try dsimp only
  simp only [↓keeps_readCabinet, ↓keeps_readSaved, ↓keeps_sendConfig, ↓ite_time_frame, ↓ite_sec_rollback, ↓ite_sec_boots, ↓ite_fst, ite_self, implies_true, and_self]

theorem wf_stepFour (m : Mach) (hw : Memory.wf m.mram = true) :
    Memory.wf (Mach.stepFour m).mram = true := by
  unfold Mach.stepFour; try dsimp only
  all_goals repeat' first | with_reducible exact hw | with_reducible exact w | with_reducible apply wf_readCabinet | with_reducible apply wf_ite | simp only [↓keeps_readSaved, ↓keeps_sendConfig, ↓when_mram, ↓ite_mram, ↓ite_fst] | split | dsimp only

theorem keeps_enterStep (m : Mach) (k : Nat) :
    (Mach.enterStep m k).time.frame = m.time.frame
    ∧ (Mach.enterStep m k).sec.rollback = m.sec.rollback
    ∧ (Mach.enterStep m k).sec.boots = m.sec.boots := by
  unfold Mach.enterStep; try dsimp only
  simp only [↓keeps_startBlocks, ↓keeps_stepFour, ↓ite_time_frame, ↓ite_sec_rollback, ↓ite_sec_boots, ↓ite_fst, ite_self, implies_true, and_self]

theorem wf_enterStep (m : Mach) (k : Nat) (hw : Memory.wf m.mram = true) :
    Memory.wf (Mach.enterStep m k).mram = true := by
  unfold Mach.enterStep; try dsimp only
  all_goals repeat' first | with_reducible exact hw | with_reducible exact w | with_reducible apply wf_stepFour | with_reducible apply wf_ite | simp only [↓keeps_startBlocks, ↓when_mram, ↓ite_mram, ↓ite_fst] | split | dsimp only

theorem keeps_becomeReady (m : Mach) :
    (Mach.becomeReady m).mram = m.mram
    ∧ (Mach.becomeReady m).time.frame = m.time.frame
    ∧ (Mach.becomeReady m).sec.boots = m.sec.boots
    ∧ (Mach.becomeReady m).cab.creds = m.cab.creds := by
  unfold Mach.becomeReady; try dsimp only
  simp only [↓keeps_post, ↓keeps_rollbackAdvance, ↓ite_mram, ↓ite_time_frame, ↓ite_sec_boots, ↓ite_cab_creds, ↓ite_fst, ite_self, implies_true, and_self]

theorem keeps_startResume (m : Mach) :
    (Mach.startResume m).time.frame = m.time.frame
    ∧ (Mach.startResume m).sec.rollback = m.sec.rollback
    ∧ (Mach.startResume m).sec.boots = m.sec.boots := by
  unfold Mach.startResume; try dsimp only
  refine ⟨?_, ?_, ?_⟩ <;>
  (repeat' split) <;>
  first | with_reducible rfl | (simp only [↓keeps_enterStep, ↓ite_time_frame, ↓ite_sec_rollback, ↓ite_sec_boots, ↓ite_fst, ite_self, implies_true, and_self]; done)

theorem wf_startResume (m : Mach) (hw : Memory.wf m.mram = true) :
    Memory.wf (Mach.startResume m).mram = true := by
  unfold Mach.startResume; try dsimp only
  all_goals repeat' first | with_reducible exact hw | with_reducible exact w | with_reducible apply wf_enterStep | with_reducible apply wf_ite | simp only [↓when_mram, ↓ite_mram, ↓ite_fst] | split | dsimp only

theorem keeps_grantTether (m : Mach) (a : Ab) :
    (Mach.grantTether m a).mram = m.mram
    ∧ (Mach.grantTether m a).time.frame = m.time.frame
    ∧ (Mach.grantTether m a).sec.rollback = m.sec.rollback
    ∧ (Mach.grantTether m a).sec.boots = m.sec.boots
    ∧ (Mach.grantTether m a).cab.creds = m.cab.creds := by
  unfold Mach.grantTether; try dsimp only
  simp only [↓keeps_endFault, ↓keeps_onAp, ↓ite_mram, ↓ite_time_frame, ↓ite_sec_rollback, ↓ite_sec_boots, ↓ite_cab_creds, ↓ite_fst, ite_self, implies_true, and_self]

theorem keeps_grantFrame (m : Mach) :
    (Mach.grantFrame m).mram = m.mram
    ∧ (Mach.grantFrame m).time.frame = m.time.frame
    ∧ (Mach.grantFrame m).sec.rollback = m.sec.rollback
    ∧ (Mach.grantFrame m).sec.boots = m.sec.boots
    ∧ (Mach.grantFrame m).cab.creds = m.cab.creds := by
  unfold Mach.grantFrame; try dsimp only
  simp only [↓keeps_grantTether, ↓ite_mram, ↓ite_time_frame, ↓ite_sec_rollback, ↓ite_sec_boots, ↓ite_cab_creds, ↓ite_fst, ite_self, implies_true, and_self]

theorem keeps_firstTick (m : Mach) :
    (Mach.firstTick m).mram = m.mram
    ∧ (Mach.firstTick m).time.frame = m.time.frame
    ∧ (Mach.firstTick m).sec.rollback = m.sec.rollback
    ∧ (Mach.firstTick m).sec.boots = m.sec.boots
    ∧ (Mach.firstTick m).cab.creds = m.cab.creds := by
  unfold Mach.firstTick; try dsimp only
  simp only [↓keeps_entersFault, ↓ite_mram, ↓ite_time_frame, ↓ite_sec_rollback, ↓ite_sec_boots, ↓ite_cab_creds, ↓ite_fst, ite_self, implies_true, and_self]

theorem keeps_serveFrom (m : Mach) :
    (Mach.serveFrom m).mram = m.mram
    ∧ (Mach.serveFrom m).time.frame = m.time.frame
    ∧ (Mach.serveFrom m).sec.rollback = m.sec.rollback
    ∧ (Mach.serveFrom m).sec.boots = m.sec.boots
    ∧ (Mach.serveFrom m).cab.creds = m.cab.creds := by
  unfold Mach.serveFrom; try dsimp only
  simp only [↓ite_mram, ↓ite_time_frame, ↓ite_sec_rollback, ↓ite_sec_boots, ↓ite_cab_creds, ↓ite_fst, ite_self, implies_true, and_self]

theorem keeps_startFrame (m : Mach) :
    (Mach.startFrame m).time.frame = m.time.frame
    ∧ (Mach.startFrame m).sec.rollback = m.sec.rollback
    ∧ (Mach.startFrame m).sec.boots = m.sec.boots := by
  unfold Mach.startFrame; try dsimp only
  simp only [↓keeps_grantFrame, ↓keeps_serveFrom, ↓keeps_startBlocks, ↓keeps_startResume, ↓ite_time_frame, ↓ite_sec_rollback, ↓ite_sec_boots, ↓ite_fst, ite_self, implies_true, and_self]

theorem wf_startFrame (m : Mach) (hw : Memory.wf m.mram = true) :
    Memory.wf (Mach.startFrame m).mram = true := by
  unfold Mach.startFrame; try dsimp only
  all_goals repeat' first | with_reducible exact hw | with_reducible exact w | with_reducible apply wf_startResume | with_reducible apply wf_ite | simp only [↓keeps_grantFrame, ↓keeps_serveFrom, ↓keeps_startBlocks, ↓when_mram, ↓ite_mram, ↓ite_fst] | split | dsimp only

end Sys2Proof.Laws
end

