-- ==== Sys2Proof/Laws/KeepUnits.lean ====
section
/-!
SUPPORT. What the operations of Machine/Units.lean leave alone of the MRAM, the frame count, the rollback
counter, the boot count and the credentials of the cabinet, and that they keep the canonical form of the MRAM.
-/
namespace Sys2Proof.Laws

open Sys2Proof Sys2Proof.Machine

set_option linter.all false
set_option linter.unreachableTactic false
set_option linter.unusedTactic false
theorem keeps_unitApply (m : Mach) (tag : Nat) (h : Nat) (es : List SetEntry) :
    (Mach.unitApply m tag h es).mram = m.mram
    ∧ (Mach.unitApply m tag h es).time.frame = m.time.frame
    ∧ (Mach.unitApply m tag h es).sec.rollback = m.sec.rollback
    ∧ (Mach.unitApply m tag h es).sec.boots = m.sec.boots
    ∧ (Mach.unitApply m tag h es).cab.creds = m.cab.creds := by
  unfold Mach.unitApply; try dsimp only
  simp only [↓keeps_defer, ↓keeps_meterDefer, ↓keeps_queueCfg, ↓ite_mram, ↓ite_time_frame, ↓ite_sec_rollback, ↓ite_sec_boots, ↓ite_cab_creds, ↓ite_fst, ite_self, implies_true, and_self]

theorem keeps_unitSet (m : Mach) (tag : Nat) (h : Nat) (es : List SetEntry) :
    (Mach.unitSet m tag h es).1.mram = m.mram
    ∧ (Mach.unitSet m tag h es).1.time.frame = m.time.frame
    ∧ (Mach.unitSet m tag h es).1.sec.rollback = m.sec.rollback
    ∧ (Mach.unitSet m tag h es).1.sec.boots = m.sec.boots
    ∧ (Mach.unitSet m tag h es).1.cab.creds = m.cab.creds := by
  unfold Mach.unitSet; try dsimp only
  simp only [↓keeps_clearLatched, ↓keeps_unitApply, ↓keeps_refuse, ↓ite_mram, ↓ite_time_frame, ↓ite_sec_rollback, ↓ite_sec_boots, ↓ite_cab_creds, ↓ite_fst, ite_self, implies_true, and_self]

theorem keeps_unitStart (m : Mach) (h : Nat) :
    (Mach.unitStart m h).mram = m.mram
    ∧ (Mach.unitStart m h).time.frame = m.time.frame
    ∧ (Mach.unitStart m h).sec.rollback = m.sec.rollback
    ∧ (Mach.unitStart m h).sec.boots = m.sec.boots
    ∧ (Mach.unitStart m h).cab.creds = m.cab.creds := by
  unfold Mach.unitStart; try dsimp only
  refine ⟨?_, ?_, ?_, ?_, ?_⟩ <;>
  (repeat' split) <;>
  first | with_reducible rfl | (simp only [↓keeps_cell, ↓keeps_chOn, ↓keeps_doorRestart, ↓keeps_meterOn, ↓keeps_onPort, ↓ite_mram, ↓ite_time_frame, ↓ite_sec_rollback, ↓ite_sec_boots, ↓ite_cab_creds, ↓ite_fst, ite_self, implies_true, and_self]; done)

theorem keeps_unitOff (m : Mach) (h : Nat) :
    (Mach.unitOff m h).mram = m.mram
    ∧ (Mach.unitOff m h).time.frame = m.time.frame
    ∧ (Mach.unitOff m h).sec.rollback = m.sec.rollback
    ∧ (Mach.unitOff m h).sec.boots = m.sec.boots
    ∧ (Mach.unitOff m h).cab.creds = m.cab.creds := by
  unfold Mach.unitOff; try dsimp only
  refine ⟨?_, ?_, ?_, ?_, ?_⟩ <;>
  (repeat' split) <;>
  first | with_reducible rfl | (simp only [↓keeps_cell, ↓keeps_doorOff, ↓keeps_drive, ↓keeps_onPort, ↓ite_mram, ↓ite_time_frame, ↓ite_sec_rollback, ↓ite_sec_boots, ↓ite_cab_creds, ↓ite_fst, ite_self, implies_true, and_self]; done)

theorem keeps_carOff (m : Mach) :
    (Mach.carOff m).mram = m.mram
    ∧ (Mach.carOff m).time.frame = m.time.frame
    ∧ (Mach.carOff m).sec.rollback = m.sec.rollback
    ∧ (Mach.carOff m).sec.boots = m.sec.boots
    ∧ (Mach.carOff m).cab.creds = m.cab.creds := by
  unfold Mach.carOff; try dsimp only
  simp only [↓keeps_cancelPlan, ↓keeps_cell, ↓ite_mram, ↓ite_time_frame, ↓ite_sec_rollback, ↓ite_sec_boots, ↓ite_cab_creds, ↓ite_fst, ite_self, implies_true, and_self]

theorem keeps_landingOff (m : Mach) (h : Nat) :
    (Mach.landingOff m h).mram = m.mram
    ∧ (Mach.landingOff m h).time.frame = m.time.frame
    ∧ (Mach.landingOff m h).sec.rollback = m.sec.rollback
    ∧ (Mach.landingOff m h).sec.boots = m.sec.boots
    ∧ (Mach.landingOff m h).cab.creds = m.cab.creds := by
  unfold Mach.landingOff; try dsimp only
  simp only [↓keeps_cell, ↓keeps_queueCall, ↓ite_mram, ↓each_mram, ↓ite_time_frame, ↓each_time_frame, ↓ite_sec_rollback, ↓each_sec_rollback, ↓ite_sec_boots, ↓each_sec_boots, ↓ite_cab_creds, ↓each_cab_creds, ↓ite_fst, ite_self, implies_true, and_self]

theorem keeps_unitStop (m : Mach) (h : Nat) :
    (Mach.unitStop m h).mram = m.mram
    ∧ (Mach.unitStop m h).time.frame = m.time.frame
    ∧ (Mach.unitStop m h).sec.rollback = m.sec.rollback
    ∧ (Mach.unitStop m h).sec.boots = m.sec.boots
    ∧ (Mach.unitStop m h).cab.creds = m.cab.creds := by
  unfold Mach.unitStop; try dsimp only
  refine ⟨?_, ?_, ?_, ?_, ?_⟩ <;>
  (repeat' split) <;>
  first | with_reducible rfl | (simp only [↓keeps_carOff, ↓keeps_chOff, ↓keeps_landingOff, ↓keeps_meterOff, ↓keeps_onPort, ↓keeps_side, ↓ite_mram, ↓ite_time_frame, ↓ite_sec_rollback, ↓ite_sec_boots, ↓ite_cab_creds, ↓ite_fst, ite_self, implies_true, and_self]; done)

theorem keeps_unitAct (m : Mach) (h : Nat) (enable : Bool) :
    (Mach.unitAct m h enable).mram = m.mram
    ∧ (Mach.unitAct m h enable).time.frame = m.time.frame
    ∧ (Mach.unitAct m h enable).sec.rollback = m.sec.rollback
    ∧ (Mach.unitAct m h enable).sec.boots = m.sec.boots
    ∧ (Mach.unitAct m h enable).cab.creds = m.cab.creds := by
  unfold Mach.unitAct; try dsimp only
  refine ⟨?_, ?_, ?_, ?_, ?_⟩ <;>
  (repeat' split) <;>
  first | with_reducible rfl | (simp only [↓keeps_cell, ↓keeps_unitStart, ↓keeps_unitStop, ↓ite_mram, ↓ite_time_frame, ↓ite_sec_rollback, ↓ite_sec_boots, ↓ite_cab_creds, ↓ite_fst, ite_self, implies_true, and_self]; done)

theorem keeps_enableCmd (m : Mach) (tag : Nat) (h : Nat) (enable : Bool) :
    (Mach.enableCmd m tag h enable).1.mram = m.mram
    ∧ (Mach.enableCmd m tag h enable).1.time.frame = m.time.frame
    ∧ (Mach.enableCmd m tag h enable).1.sec.rollback = m.sec.rollback
    ∧ (Mach.enableCmd m tag h enable).1.sec.boots = m.sec.boots
    ∧ (Mach.enableCmd m tag h enable).1.cab.creds = m.cab.creds := by
  unfold Mach.enableCmd; try dsimp only
  simp only [↓keeps_unitAct, ↓keeps_refuse, ↓ite_mram, ↓each_mram, ↓ite_time_frame, ↓each_time_frame, ↓ite_sec_rollback, ↓each_sec_rollback, ↓ite_sec_boots, ↓each_sec_boots, ↓ite_cab_creds, ↓each_cab_creds, ↓ite_fst, ite_self, implies_true, and_self]

theorem keeps_unitTick (m : Mach) :
    (Mach.unitTick m).mram = m.mram
    ∧ (Mach.unitTick m).time.frame = m.time.frame
    ∧ (Mach.unitTick m).sec.rollback = m.sec.rollback
    ∧ (Mach.unitTick m).sec.boots = m.sec.boots
    ∧ (Mach.unitTick m).cab.creds = m.cab.creds := by
  unfold Mach.unitTick; try dsimp only
  simp only [↓keeps_cell, ↓keeps_unitOff, ↓keeps_unitStart, ↓ite_mram, ↓each_mram, ↓ite_time_frame, ↓each_time_frame, ↓ite_sec_rollback, ↓each_sec_rollback, ↓ite_sec_boots, ↓each_sec_boots, ↓ite_cab_creds, ↓each_cab_creds, ↓ite_fst, ite_self, implies_true, and_self]

theorem keeps_enableTick (m : Mach) :
    (Mach.enableTick m).mram = m.mram
    ∧ (Mach.enableTick m).time.frame = m.time.frame
    ∧ (Mach.enableTick m).sec.rollback = m.sec.rollback
    ∧ (Mach.enableTick m).sec.boots = m.sec.boots
    ∧ (Mach.enableTick m).cab.creds = m.cab.creds := by
  unfold Mach.enableTick; try dsimp only
  simp only [↓keeps_completed, ↓ite_mram, ↓each_mram, ↓ite_time_frame, ↓each_time_frame, ↓ite_sec_rollback, ↓each_sec_rollback, ↓ite_sec_boots, ↓each_sec_boots, ↓ite_cab_creds, ↓each_cab_creds, ↓ite_fst, ite_self, implies_true, and_self]

theorem keeps_newGroups (m : Mach) :
    (Mach.newGroups m).mram = m.mram
    ∧ (Mach.newGroups m).time.frame = m.time.frame
    ∧ (Mach.newGroups m).sec.rollback = m.sec.rollback
    ∧ (Mach.newGroups m).sec.boots = m.sec.boots
    ∧ (Mach.newGroups m).cab.creds = m.cab.creds := by
  unfold Mach.newGroups
  exact ⟨by with_reducible rfl, by with_reducible rfl, by with_reducible rfl, by with_reducible rfl, by with_reducible rfl⟩

theorem keeps_groupDefine (m : Mach) (h : Nat) (kids : List Nat) :
    (Mach.groupDefine m h kids).1.time.frame = m.time.frame
    ∧ (Mach.groupDefine m h kids).1.sec.rollback = m.sec.rollback
    ∧ (Mach.groupDefine m h kids).1.sec.boots = m.sec.boots
    ∧ (Mach.groupDefine m h kids).1.cab.creds = m.cab.creds := by
  unfold Mach.groupDefine; try dsimp only
  simp only [↓keeps_newGroups, ↓keeps_storeGroup, ↓keeps_ok, ↓keeps_refuse, ↓ite_time_frame, ↓ite_sec_rollback, ↓ite_sec_boots, ↓ite_cab_creds, ↓ite_fst, ite_self, implies_true, and_self]

theorem wf_groupDefine (m : Mach) (h : Nat) (kids : List Nat) (hw : Memory.wf m.mram = true) :
    Memory.wf (Mach.groupDefine m h kids).1.mram = true := by
  unfold Mach.groupDefine; try dsimp only
  all_goals repeat' first | with_reducible exact hw | with_reducible exact w | with_reducible apply wf_storeGroup | with_reducible apply wf_ite | simp only [↓keeps_newGroups, ↓keeps_ok, ↓keeps_refuse, ↓when_mram, ↓ite_mram, ↓ite_fst] | split | dsimp only

end Sys2Proof.Laws
end

