-- ==== Sys2Proof/Laws/KeepFrame.lean ====
section
/-!
SUPPORT. What the operations of Machine/Frame.lean leave alone of the MRAM, the frame count, the rollback
counter, the boot count and the credentials of the cabinet, and that they keep the canonical form of the MRAM.
-/
namespace Sys2Proof.Laws

open Sys2Proof Sys2Proof.Machine

set_option linter.all false
set_option linter.unreachableTactic false
set_option linter.unusedTactic false
theorem keeps_nextFrame (m : Mach) :
    (Mach.nextFrame m).mram = m.mram
    ∧ (Mach.nextFrame m).sec.rollback = m.sec.rollback
    ∧ (Mach.nextFrame m).sec.boots = m.sec.boots
    ∧ (Mach.nextFrame m).cab.creds = m.cab.creds := by
  unfold Mach.nextFrame; try dsimp only
  simp only [↓keeps_firstTick, ↓ite_mram, ↓ite_sec_rollback, ↓ite_sec_boots, ↓ite_cab_creds, ↓ite_fst, ite_self, implies_true, and_self]

theorem keeps_takeEcc (m : Mach) (inp : FrameIn) :
    (Mach.takeEcc m inp).mram = m.mram
    ∧ (Mach.takeEcc m inp).time.frame = m.time.frame
    ∧ (Mach.takeEcc m inp).sec.rollback = m.sec.rollback
    ∧ (Mach.takeEcc m inp).sec.boots = m.sec.boots
    ∧ (Mach.takeEcc m inp).cab.creds = m.cab.creds := by
  unfold Mach.takeEcc; try dsimp only
  simp only [↓keeps_eccSeen, ↓ite_mram, ↓each_mram, ↓ite_time_frame, ↓each_time_frame, ↓ite_sec_rollback, ↓each_sec_rollback, ↓ite_sec_boots, ↓each_sec_boots, ↓ite_cab_creds, ↓each_cab_creds, ↓ite_fst, ite_self, implies_true, and_self]

theorem keeps_groupTick (m : Mach) :
    (Mach.groupTick m).mram = m.mram
    ∧ (Mach.groupTick m).time.frame = m.time.frame
    ∧ (Mach.groupTick m).sec.rollback = m.sec.rollback
    ∧ (Mach.groupTick m).sec.boots = m.sec.boots
    ∧ (Mach.groupTick m).cab.creds = m.cab.creds := by
  unfold Mach.groupTick
  exact ⟨by with_reducible rfl, by with_reducible rfl, by with_reducible rfl, by with_reducible rfl, by with_reducible rfl⟩

theorem keeps_wallTick (m : Mach) :
    (Mach.wallTick m).mram = m.mram
    ∧ (Mach.wallTick m).time.frame = m.time.frame
    ∧ (Mach.wallTick m).sec.rollback = m.sec.rollback
    ∧ (Mach.wallTick m).sec.boots = m.sec.boots
    ∧ (Mach.wallTick m).cab.creds = m.cab.creds := by
  unfold Mach.wallTick; try dsimp only
  refine ⟨?_, ?_, ?_, ?_, ?_⟩ <;>
  (repeat' split) <;>
  first | with_reducible rfl | (simp only [↓ite_mram, ↓ite_time_frame, ↓ite_sec_rollback, ↓ite_sec_boots, ↓ite_cab_creds, ↓ite_fst, ite_self, implies_true, and_self]; done)

theorem keeps_writesTick (m : Mach) (old : Mach) :
    (Mach.writesTick m old).mram = m.mram
    ∧ (Mach.writesTick m old).time.frame = m.time.frame
    ∧ (Mach.writesTick m old).sec.rollback = m.sec.rollback
    ∧ (Mach.writesTick m old).sec.boots = m.sec.boots
    ∧ (Mach.writesTick m old).cab.creds = m.cab.creds := by
  unfold Mach.writesTick; try dsimp only
  simp only [↓keeps_applyDeferred, ↓keeps_busWritten, ↓keeps_hostFrame, ↓keeps_meterUnitCheck, ↓keeps_schedModeCheck, ↓keeps_takePosted, ↓keeps_wallTick, ↓ite_mram, ↓ite_time_frame, ↓ite_sec_rollback, ↓ite_sec_boots, ↓ite_cab_creds, ↓ite_fst, ite_self, implies_true, and_self]

theorem keeps_cabTick (m : Mach) :
    (Mach.cabTick m).time.frame = m.time.frame
    ∧ (Mach.cabTick m).sec.rollback = m.sec.rollback
    ∧ (Mach.cabTick m).sec.boots = m.sec.boots
    ∧ (Mach.cabTick m).cab.creds = m.cab.creds := by
  unfold Mach.cabTick; try dsimp only
  simp only [↓keeps_abortCommit, ↓keeps_endSession, ↓ite_time_frame, ↓ite_sec_rollback, ↓ite_sec_boots, ↓ite_cab_creds, ↓ite_fst, ite_self, implies_true, and_self]

theorem wf_cabTick (m : Mach) (hw : Memory.wf m.mram = true) :
    Memory.wf (Mach.cabTick m).mram = true := by
  unfold Mach.cabTick; try dsimp only
  all_goals repeat' first | with_reducible exact hw | with_reducible exact w | with_reducible apply wf_abortCommit | with_reducible apply wf_ite | simp only [↓keeps_endSession, ↓when_mram, ↓ite_mram, ↓ite_fst] | split | dsimp only

theorem keeps_bitsTick (m : Mach) :
    (Mach.bitsTick m).mram = m.mram
    ∧ (Mach.bitsTick m).time.frame = m.time.frame
    ∧ (Mach.bitsTick m).sec.rollback = m.sec.rollback
    ∧ (Mach.bitsTick m).sec.boots = m.sec.boots
    ∧ (Mach.bitsTick m).cab.creds = m.cab.creds := by
  unfold Mach.bitsTick; try dsimp only
  simp only [↓keeps_stopReq, ↓keeps_takeBits, ↓ite_mram, ↓ite_time_frame, ↓ite_sec_rollback, ↓ite_sec_boots, ↓ite_cab_creds, ↓ite_fst, ite_self, implies_true, and_self]

theorem keeps_tickPhase (m : Mach) (old : Mach) :
    (Mach.tickPhase m old).sec.rollback = m.sec.rollback
    ∧ (Mach.tickPhase m old).sec.boots = m.sec.boots
    ∧ (Mach.tickPhase m old).cab.creds = m.cab.creds := by
  unfold Mach.tickPhase; try dsimp only
  simp only [↓keeps_assemble, ↓keeps_bitsTick, ↓keeps_busTick, ↓keeps_cabTick, ↓keeps_enableTick, ↓keeps_engineCycle, ↓keeps_engineTick, ↓keeps_fieldTick, ↓keeps_groupTick, ↓keeps_nextFrame, ↓keeps_sleepTick, ↓keeps_takeRequests, ↓keeps_unitTick, ↓keeps_writesTick, ↓ite_sec_rollback, ↓ite_sec_boots, ↓ite_cab_creds, ↓ite_fst, ite_self, implies_true, and_self]

theorem wf_tickPhase (m : Mach) (old : Mach) (hw : Memory.wf m.mram = true) :
    Memory.wf (Mach.tickPhase m old).mram = true := by
  unfold Mach.tickPhase; try dsimp only
  all_goals repeat' first | with_reducible exact hw | with_reducible exact w | with_reducible apply wf_cabTick | with_reducible apply wf_ite | simp only [↓keeps_assemble, ↓keeps_bitsTick, ↓keeps_busTick, ↓keeps_enableTick, ↓keeps_engineCycle, ↓keeps_engineTick, ↓keeps_fieldTick, ↓keeps_groupTick, ↓keeps_nextFrame, ↓keeps_sleepTick, ↓keeps_takeRequests, ↓keeps_unitTick, ↓keeps_writesTick, ↓when_mram, ↓ite_mram, ↓ite_fst] | split | dsimp only

theorem keeps_freezePhase (m : Mach) (inp : FrameIn) :
    (Mach.freezePhase m inp).time.frame = m.time.frame
    ∧ (Mach.freezePhase m inp).sec.rollback = m.sec.rollback
    ∧ (Mach.freezePhase m inp).sec.boots = m.sec.boots
    ∧ (Mach.freezePhase m inp).cab.creds = m.cab.creds := by
  unfold Mach.freezePhase; try dsimp only
  simp only [↓keeps_channelFrame, ↓keeps_clearFreeze, ↓keeps_commitFreeze, ↓keeps_fieldSamples, ↓keeps_freeze, ↓keeps_linkSecond, ↓keeps_pairFrame, ↓keeps_takeCommands, ↓keeps_takeLocks, ↓keeps_takeObjects, ↓keeps_triadFrame, ↓ite_time_frame, ↓ite_sec_rollback, ↓ite_sec_boots, ↓ite_cab_creds, ↓ite_fst, ite_self, implies_true, and_self]

theorem wf_freezePhase (m : Mach) (inp : FrameIn) (hw : Memory.wf m.mram = true) :
    Memory.wf (Mach.freezePhase m inp).mram = true := by
  unfold Mach.freezePhase; try dsimp only
  all_goals repeat' first | with_reducible exact hw | with_reducible exact w | with_reducible apply wf_commitFreeze | with_reducible apply wf_ite | simp only [↓keeps_channelFrame, ↓keeps_clearFreeze, ↓keeps_fieldSamples, ↓keeps_freeze, ↓keeps_linkSecond, ↓keeps_pairFrame, ↓keeps_takeCommands, ↓keeps_takeLocks, ↓keeps_takeObjects, ↓keeps_triadFrame, ↓when_mram, ↓ite_mram, ↓ite_fst] | split | dsimp only

theorem keeps_positionPhase (m : Mach) (inp : FrameIn) :
    (Mach.positionPhase m inp).mram = m.mram
    ∧ (Mach.positionPhase m inp).time.frame = m.time.frame
    ∧ (Mach.positionPhase m inp).sec.rollback = m.sec.rollback
    ∧ (Mach.positionPhase m inp).sec.boots = m.sec.boots
    ∧ (Mach.positionPhase m inp).cab.creds = m.cab.creds := by
  unfold Mach.positionPhase; try dsimp only
  simp only [↓keeps_compareFrame, ↓keeps_positionEnds, ↓keeps_positionFrame, ↓keeps_postMail, ↓ite_mram, ↓ite_time_frame, ↓ite_sec_rollback, ↓ite_sec_boots, ↓ite_cab_creds, ↓ite_fst, ite_self, implies_true, and_self]

theorem keeps_firstWork (m : Mach) :
    (Mach.firstWork m).mram = m.mram
    ∧ (Mach.firstWork m).time.frame = m.time.frame
    ∧ (Mach.firstWork m).sec.rollback = m.sec.rollback
    ∧ (Mach.firstWork m).sec.boots = m.sec.boots
    ∧ (Mach.firstWork m).cab.creds = m.cab.creds := by
  unfold Mach.firstWork; try dsimp only
  simp only [↓keeps_bumpEpoch, ↓ite_mram, ↓ite_time_frame, ↓ite_sec_rollback, ↓ite_sec_boots, ↓ite_cab_creds, ↓ite_fst, ite_self, implies_true, and_self]

theorem keeps_copyTable (m : Mach) :
    (Mach.copyTable m).mram = m.mram
    ∧ (Mach.copyTable m).time.frame = m.time.frame
    ∧ (Mach.copyTable m).sec.rollback = m.sec.rollback
    ∧ (Mach.copyTable m).sec.boots = m.sec.boots
    ∧ (Mach.copyTable m).cab.creds = m.cab.creds := by
  unfold Mach.copyTable; try dsimp only
  simp only [↓ite_mram, ↓ite_time_frame, ↓ite_sec_rollback, ↓ite_sec_boots, ↓ite_cab_creds, ↓ite_fst, ite_self, implies_true, and_self]

theorem keeps_holderWork (m : Mach) (inp : FrameIn) (p0 : Int) :
    (Mach.holderWork m inp p0).mram = m.mram
    ∧ (Mach.holderWork m inp p0).time.frame = m.time.frame
    ∧ (Mach.holderWork m inp p0).sec.rollback = m.sec.rollback
    ∧ (Mach.holderWork m inp p0).sec.boots = m.sec.boots
    ∧ (Mach.holderWork m inp p0).cab.creds = m.cab.creds := by
  unfold Mach.holderWork; try dsimp only
  simp only [↓keeps_copyTable, ↓keeps_discardSpool, ↓keeps_firstWork, ↓keeps_homeFrame, ↓keeps_learnFrame, ↓keeps_learnHazards, ↓keeps_relevelPlan, ↓keeps_schedFrame, ↓keeps_serviceFrame, ↓keeps_stationFrame, ↓ite_mram, ↓ite_time_frame, ↓ite_sec_rollback, ↓ite_sec_boots, ↓ite_cab_creds, ↓ite_fst, ite_self, implies_true, and_self]

theorem keeps_selfChecks (m : Mach) (c : SelfIn) :
    (Mach.selfChecks m c).mram = m.mram
    ∧ (Mach.selfChecks m c).time.frame = m.time.frame
    ∧ (Mach.selfChecks m c).sec.rollback = m.sec.rollback
    ∧ (Mach.selfChecks m c).sec.boots = m.sec.boots
    ∧ (Mach.selfChecks m c).cab.creds = m.cab.creds := by
  unfold Mach.selfChecks; try dsimp only
  simp only [↓keeps_meterCheck, ↓keeps_proofFound, ↓keeps_raise, ↓ite_mram, ↓ite_time_frame, ↓ite_sec_rollback, ↓ite_sec_boots, ↓ite_cab_creds, ↓ite_fst, ite_self, implies_true, and_self]

theorem keeps_computePhase (m : Mach) (inp : FrameIn) (p0 : Int) :
    (Mach.computePhase m inp p0).mram = m.mram
    ∧ (Mach.computePhase m inp p0).time.frame = m.time.frame
    ∧ (Mach.computePhase m inp p0).sec.rollback = m.sec.rollback
    ∧ (Mach.computePhase m inp p0).sec.boots = m.sec.boots
    ∧ (Mach.computePhase m inp p0).cab.creds = m.cab.creds := by
  unfold Mach.computePhase; try dsimp only
  simp only [↓keeps_doorTick, ↓keeps_engineChecks, ↓keeps_engineFrame, ↓keeps_holderWork, ↓keeps_safetyFrame, ↓keeps_selfChecks, ↓keeps_switchRuns, ↓ite_mram, ↓ite_time_frame, ↓ite_sec_rollback, ↓ite_sec_boots, ↓ite_cab_creds, ↓ite_fst, ite_self, implies_true, and_self]

theorem keeps_userDrawer (m : Mach) (k : Nat) :
    (Mach.userDrawer m k).mram = m.mram
    ∧ (Mach.userDrawer m k).time.frame = m.time.frame
    ∧ (Mach.userDrawer m k).sec.rollback = m.sec.rollback
    ∧ (Mach.userDrawer m k).sec.boots = m.sec.boots
    ∧ (Mach.userDrawer m k).cab.creds = m.cab.creds := by
  unfold Mach.userDrawer; try dsimp only
  refine ⟨?_, ?_, ?_, ?_, ?_⟩ <;>
  (repeat' split) <;>
  first | with_reducible rfl | (simp only [↓keeps_extreme, ↓keeps_hist, ↓ite_mram, ↓ite_time_frame, ↓ite_sec_rollback, ↓ite_sec_boots, ↓ite_cab_creds, ↓ite_fst, ite_self, implies_true, and_self]; done)

theorem keeps_recordPhase (m : Mach) (old : Mach) (before : Mach) (inp : FrameIn) :
    (Mach.recordPhase m old before inp).time.frame = m.time.frame
    ∧ (Mach.recordPhase m old before inp).sec.rollback = m.sec.rollback
    ∧ (Mach.recordPhase m old before inp).sec.boots = m.sec.boots := by
  unfold Mach.recordPhase; try dsimp only
  simp only [↓keeps_latchFrame, ↓keeps_meterFrame, ↓keeps_powerFrame, ↓keeps_profileFrame, ↓keeps_recorderFrame, ↓keeps_snapshotFrame, ↓keeps_startFrame, ↓keeps_userDrawer, ↓keeps_writeDigests, ↓ite_time_frame, ↓foldl_time_frame, ↓ite_sec_rollback, ↓foldl_sec_rollback, ↓ite_sec_boots, ↓foldl_sec_boots, ↓ite_fst, ite_self, implies_true, and_self]

theorem wf_recordPhase (m : Mach) (old : Mach) (before : Mach) (inp : FrameIn) (hw : Memory.wf m.mram = true) :
    Memory.wf (Mach.recordPhase m old before inp).mram = true := by
  unfold Mach.recordPhase; try dsimp only
  all_goals repeat' first | with_reducible exact hw | with_reducible exact w | with_reducible apply wf_latchFrame | with_reducible apply wf_powerFrame | with_reducible apply wf_snapshotFrame | with_reducible apply wf_startFrame | with_reducible apply wf_ite | with_reducible refine wf_foldl _ _ (fun m x w => ?_) _ ?_ | simp only [↓keeps_meterFrame, ↓keeps_profileFrame, ↓keeps_recorderFrame, ↓keeps_userDrawer, ↓keeps_writeDigests, ↓when_mram, ↓ite_mram, ↓ite_fst] | split | dsimp only

theorem keeps_frame (m : Mach) (before : Mach) (inp : FrameIn) :
    (Mach.frame m before inp).sec.rollback = m.sec.rollback
    ∧ (Mach.frame m before inp).sec.boots = m.sec.boots := by
  unfold Mach.frame; try dsimp only
  simp only [↓keeps_computePhase, ↓keeps_freezePhase, ↓keeps_positionPhase, ↓keeps_recordPhase, ↓keeps_takeEcc, ↓keeps_tickPhase, ↓ite_sec_rollback, ↓ite_sec_boots, ↓ite_fst, ite_self, implies_true, and_self]

theorem wf_frame (m : Mach) (before : Mach) (inp : FrameIn) (hw : Memory.wf m.mram = true) :
    Memory.wf (Mach.frame m before inp).mram = true := by
  unfold Mach.frame; try dsimp only
  all_goals repeat' first | with_reducible exact hw | with_reducible exact w | with_reducible apply wf_freezePhase | with_reducible apply wf_recordPhase | with_reducible apply wf_tickPhase | with_reducible apply wf_ite | simp only [↓keeps_computePhase, ↓keeps_positionPhase, ↓keeps_takeEcc, ↓when_mram, ↓ite_mram, ↓ite_fst] | split | dsimp only

theorem keeps_refreshed (m : Mach) (n : Mach) :
    (Mach.refreshed m n).mram = m.mram
    ∧ (Mach.refreshed m n).time.frame = m.time.frame
    ∧ (Mach.refreshed m n).sec.rollback = m.sec.rollback
    ∧ (Mach.refreshed m n).sec.boots = m.sec.boots
    ∧ (Mach.refreshed m n).cab.creds = m.cab.creds := by
  unfold Mach.refreshed; try dsimp only
  simp only [↓ite_mram, ↓ite_time_frame, ↓ite_sec_rollback, ↓ite_sec_boots, ↓ite_cab_creds, ↓ite_fst, ite_self, implies_true, and_self]

theorem keeps_fieldAlone (m : Mach) :
    (Mach.fieldAlone m).mram = m.mram
    ∧ (Mach.fieldAlone m).sec.rollback = m.sec.rollback
    ∧ (Mach.fieldAlone m).sec.boots = m.sec.boots
    ∧ (Mach.fieldAlone m).cab.creds = m.cab.creds := by
  unfold Mach.fieldAlone; try dsimp only
  simp only [↓keeps_fieldTick, ↓ite_mram, ↓ite_sec_rollback, ↓ite_sec_boots, ↓ite_cab_creds, ↓ite_fst, ite_self, implies_true, and_self]

end Sys2Proof.Laws
end

