-- ==== Sys2Proof/Laws/State.lean ====
section
/-!
SUPPORT. One lemma per field of the machine per update of another field, all true by rfl, so that
no proof has to unfold a record update.
-/
namespace Sys2Proof.Laws

open Sys2Proof Sys2Proof.Machine

@[simp] theorem mach_time_time (m : Mach) (x : TimeState) : ({ m with time := x } : Mach).time = x := rfl
@[simp] theorem mach_time_params (m : Mach) (x : TimeState) : ({ m with time := x } : Mach).params = m.params := rfl
@[simp] theorem mach_time_deferred (m : Mach) (x : TimeState) : ({ m with time := x } : Mach).deferred = m.deferred := rfl
@[simp] theorem mach_time_faults (m : Mach) (x : TimeState) : ({ m with time := x } : Mach).faults = m.faults := rfl
@[simp] theorem mach_time_units (m : Mach) (x : TimeState) : ({ m with time := x } : Mach).units = m.units := rfl
@[simp] theorem mach_time_enables (m : Mach) (x : TimeState) : ({ m with time := x } : Mach).enables = m.enables := rfl
@[simp] theorem mach_time_groups (m : Mach) (x : TimeState) : ({ m with time := x } : Mach).groups = m.groups := rfl
@[simp] theorem mach_time_groupsNext (m : Mach) (x : TimeState) : ({ m with time := x } : Mach).groupsNext = m.groupsNext := rfl
@[simp] theorem mach_time_ecc (m : Mach) (x : TimeState) : ({ m with time := x } : Mach).ecc = m.ecc := rfl
@[simp] theorem mach_time_mram (m : Mach) (x : TimeState) : ({ m with time := x } : Mach).mram = m.mram := rfl
@[simp] theorem mach_time_mramBad (m : Mach) (x : TimeState) : ({ m with time := x } : Mach).mramBad = m.mramBad := rfl
@[simp] theorem mach_time_pos (m : Mach) (x : TimeState) : ({ m with time := x } : Mach).pos = m.pos := rfl
@[simp] theorem mach_time_eng (m : Mach) (x : TimeState) : ({ m with time := x } : Mach).eng = m.eng := rfl
@[simp] theorem mach_time_sched (m : Mach) (x : TimeState) : ({ m with time := x } : Mach).sched = m.sched := rfl
@[simp] theorem mach_time_doors (m : Mach) (x : TimeState) : ({ m with time := x } : Mach).doors = m.doors := rfl
@[simp] theorem mach_time_safe (m : Mach) (x : TimeState) : ({ m with time := x } : Mach).safe = m.safe := rfl
@[simp] theorem mach_time_cab (m : Mach) (x : TimeState) : ({ m with time := x } : Mach).cab = m.cab := rfl
@[simp] theorem mach_time_triad (m : Mach) (x : TimeState) : ({ m with time := x } : Mach).triad = m.triad := rfl
@[simp] theorem mach_time_pair (m : Mach) (x : TimeState) : ({ m with time := x } : Mach).pair = m.pair := rfl
@[simp] theorem mach_time_link (m : Mach) (x : TimeState) : ({ m with time := x } : Mach).link = m.link := rfl
@[simp] theorem mach_time_field (m : Mach) (x : TimeState) : ({ m with time := x } : Mach).field = m.field := rfl
@[simp] theorem mach_time_bus (m : Mach) (x : TimeState) : ({ m with time := x } : Mach).bus = m.bus := rfl
@[simp] theorem mach_time_meter (m : Mach) (x : TimeState) : ({ m with time := x } : Mach).meter = m.meter := rfl
@[simp] theorem mach_time_rcd (m : Mach) (x : TimeState) : ({ m with time := x } : Mach).rcd = m.rcd := rfl
@[simp] theorem mach_time_host (m : Mach) (x : TimeState) : ({ m with time := x } : Mach).host = m.host := rfl
@[simp] theorem mach_time_power (m : Mach) (x : TimeState) : ({ m with time := x } : Mach).power = m.power := rfl
@[simp] theorem mach_time_sec (m : Mach) (x : TimeState) : ({ m with time := x } : Mach).sec = m.sec := rfl
@[simp] theorem mach_time_start (m : Mach) (x : TimeState) : ({ m with time := x } : Mach).start = m.start := rfl
@[simp] theorem mach_time_free (m : Mach) (x : TimeState) : ({ m with time := x } : Mach).free = m.free := rfl
@[simp] theorem mach_params_time (m : Mach) (x : List ParamCell) : ({ m with params := x } : Mach).time = m.time := rfl
@[simp] theorem mach_params_params (m : Mach) (x : List ParamCell) : ({ m with params := x } : Mach).params = x := rfl
@[simp] theorem mach_params_deferred (m : Mach) (x : List ParamCell) : ({ m with params := x } : Mach).deferred = m.deferred := rfl
@[simp] theorem mach_params_faults (m : Mach) (x : List ParamCell) : ({ m with params := x } : Mach).faults = m.faults := rfl
@[simp] theorem mach_params_units (m : Mach) (x : List ParamCell) : ({ m with params := x } : Mach).units = m.units := rfl
@[simp] theorem mach_params_enables (m : Mach) (x : List ParamCell) : ({ m with params := x } : Mach).enables = m.enables := rfl
@[simp] theorem mach_params_groups (m : Mach) (x : List ParamCell) : ({ m with params := x } : Mach).groups = m.groups := rfl
@[simp] theorem mach_params_groupsNext (m : Mach) (x : List ParamCell) : ({ m with params := x } : Mach).groupsNext = m.groupsNext := rfl
@[simp] theorem mach_params_ecc (m : Mach) (x : List ParamCell) : ({ m with params := x } : Mach).ecc = m.ecc := rfl
@[simp] theorem mach_params_mram (m : Mach) (x : List ParamCell) : ({ m with params := x } : Mach).mram = m.mram := rfl
@[simp] theorem mach_params_mramBad (m : Mach) (x : List ParamCell) : ({ m with params := x } : Mach).mramBad = m.mramBad := rfl
@[simp] theorem mach_params_pos (m : Mach) (x : List ParamCell) : ({ m with params := x } : Mach).pos = m.pos := rfl
@[simp] theorem mach_params_eng (m : Mach) (x : List ParamCell) : ({ m with params := x } : Mach).eng = m.eng := rfl
@[simp] theorem mach_params_sched (m : Mach) (x : List ParamCell) : ({ m with params := x } : Mach).sched = m.sched := rfl
@[simp] theorem mach_params_doors (m : Mach) (x : List ParamCell) : ({ m with params := x } : Mach).doors = m.doors := rfl
@[simp] theorem mach_params_safe (m : Mach) (x : List ParamCell) : ({ m with params := x } : Mach).safe = m.safe := rfl
@[simp] theorem mach_params_cab (m : Mach) (x : List ParamCell) : ({ m with params := x } : Mach).cab = m.cab := rfl
@[simp] theorem mach_params_triad (m : Mach) (x : List ParamCell) : ({ m with params := x } : Mach).triad = m.triad := rfl
@[simp] theorem mach_params_pair (m : Mach) (x : List ParamCell) : ({ m with params := x } : Mach).pair = m.pair := rfl
@[simp] theorem mach_params_link (m : Mach) (x : List ParamCell) : ({ m with params := x } : Mach).link = m.link := rfl
@[simp] theorem mach_params_field (m : Mach) (x : List ParamCell) : ({ m with params := x } : Mach).field = m.field := rfl
@[simp] theorem mach_params_bus (m : Mach) (x : List ParamCell) : ({ m with params := x } : Mach).bus = m.bus := rfl
@[simp] theorem mach_params_meter (m : Mach) (x : List ParamCell) : ({ m with params := x } : Mach).meter = m.meter := rfl
@[simp] theorem mach_params_rcd (m : Mach) (x : List ParamCell) : ({ m with params := x } : Mach).rcd = m.rcd := rfl
@[simp] theorem mach_params_host (m : Mach) (x : List ParamCell) : ({ m with params := x } : Mach).host = m.host := rfl
@[simp] theorem mach_params_power (m : Mach) (x : List ParamCell) : ({ m with params := x } : Mach).power = m.power := rfl
@[simp] theorem mach_params_sec (m : Mach) (x : List ParamCell) : ({ m with params := x } : Mach).sec = m.sec := rfl
@[simp] theorem mach_params_start (m : Mach) (x : List ParamCell) : ({ m with params := x } : Mach).start = m.start := rfl
@[simp] theorem mach_params_free (m : Mach) (x : List ParamCell) : ({ m with params := x } : Mach).free = m.free := rfl
@[simp] theorem mach_deferred_time (m : Mach) (x : List Deferred) : ({ m with deferred := x } : Mach).time = m.time := rfl
@[simp] theorem mach_deferred_params (m : Mach) (x : List Deferred) : ({ m with deferred := x } : Mach).params = m.params := rfl
@[simp] theorem mach_deferred_deferred (m : Mach) (x : List Deferred) : ({ m with deferred := x } : Mach).deferred = x := rfl
@[simp] theorem mach_deferred_faults (m : Mach) (x : List Deferred) : ({ m with deferred := x } : Mach).faults = m.faults := rfl
@[simp] theorem mach_deferred_units (m : Mach) (x : List Deferred) : ({ m with deferred := x } : Mach).units = m.units := rfl
@[simp] theorem mach_deferred_enables (m : Mach) (x : List Deferred) : ({ m with deferred := x } : Mach).enables = m.enables := rfl
@[simp] theorem mach_deferred_groups (m : Mach) (x : List Deferred) : ({ m with deferred := x } : Mach).groups = m.groups := rfl
@[simp] theorem mach_deferred_groupsNext (m : Mach) (x : List Deferred) : ({ m with deferred := x } : Mach).groupsNext = m.groupsNext := rfl
@[simp] theorem mach_deferred_ecc (m : Mach) (x : List Deferred) : ({ m with deferred := x } : Mach).ecc = m.ecc := rfl
@[simp] theorem mach_deferred_mram (m : Mach) (x : List Deferred) : ({ m with deferred := x } : Mach).mram = m.mram := rfl
@[simp] theorem mach_deferred_mramBad (m : Mach) (x : List Deferred) : ({ m with deferred := x } : Mach).mramBad = m.mramBad := rfl
@[simp] theorem mach_deferred_pos (m : Mach) (x : List Deferred) : ({ m with deferred := x } : Mach).pos = m.pos := rfl
@[simp] theorem mach_deferred_eng (m : Mach) (x : List Deferred) : ({ m with deferred := x } : Mach).eng = m.eng := rfl
@[simp] theorem mach_deferred_sched (m : Mach) (x : List Deferred) : ({ m with deferred := x } : Mach).sched = m.sched := rfl
@[simp] theorem mach_deferred_doors (m : Mach) (x : List Deferred) : ({ m with deferred := x } : Mach).doors = m.doors := rfl
@[simp] theorem mach_deferred_safe (m : Mach) (x : List Deferred) : ({ m with deferred := x } : Mach).safe = m.safe := rfl
@[simp] theorem mach_deferred_cab (m : Mach) (x : List Deferred) : ({ m with deferred := x } : Mach).cab = m.cab := rfl
@[simp] theorem mach_deferred_triad (m : Mach) (x : List Deferred) : ({ m with deferred := x } : Mach).triad = m.triad := rfl
@[simp] theorem mach_deferred_pair (m : Mach) (x : List Deferred) : ({ m with deferred := x } : Mach).pair = m.pair := rfl
@[simp] theorem mach_deferred_link (m : Mach) (x : List Deferred) : ({ m with deferred := x } : Mach).link = m.link := rfl
@[simp] theorem mach_deferred_field (m : Mach) (x : List Deferred) : ({ m with deferred := x } : Mach).field = m.field := rfl
@[simp] theorem mach_deferred_bus (m : Mach) (x : List Deferred) : ({ m with deferred := x } : Mach).bus = m.bus := rfl
@[simp] theorem mach_deferred_meter (m : Mach) (x : List Deferred) : ({ m with deferred := x } : Mach).meter = m.meter := rfl
@[simp] theorem mach_deferred_rcd (m : Mach) (x : List Deferred) : ({ m with deferred := x } : Mach).rcd = m.rcd := rfl
@[simp] theorem mach_deferred_host (m : Mach) (x : List Deferred) : ({ m with deferred := x } : Mach).host = m.host := rfl
@[simp] theorem mach_deferred_power (m : Mach) (x : List Deferred) : ({ m with deferred := x } : Mach).power = m.power := rfl
@[simp] theorem mach_deferred_sec (m : Mach) (x : List Deferred) : ({ m with deferred := x } : Mach).sec = m.sec := rfl
@[simp] theorem mach_deferred_start (m : Mach) (x : List Deferred) : ({ m with deferred := x } : Mach).start = m.start := rfl
@[simp] theorem mach_deferred_free (m : Mach) (x : List Deferred) : ({ m with deferred := x } : Mach).free = m.free := rfl
@[simp] theorem mach_faults_time (m : Mach) (x : List FaultRec) : ({ m with faults := x } : Mach).time = m.time := rfl
@[simp] theorem mach_faults_params (m : Mach) (x : List FaultRec) : ({ m with faults := x } : Mach).params = m.params := rfl
@[simp] theorem mach_faults_deferred (m : Mach) (x : List FaultRec) : ({ m with faults := x } : Mach).deferred = m.deferred := rfl
@[simp] theorem mach_faults_faults (m : Mach) (x : List FaultRec) : ({ m with faults := x } : Mach).faults = x := rfl
@[simp] theorem mach_faults_units (m : Mach) (x : List FaultRec) : ({ m with faults := x } : Mach).units = m.units := rfl
@[simp] theorem mach_faults_enables (m : Mach) (x : List FaultRec) : ({ m with faults := x } : Mach).enables = m.enables := rfl
@[simp] theorem mach_faults_groups (m : Mach) (x : List FaultRec) : ({ m with faults := x } : Mach).groups = m.groups := rfl
@[simp] theorem mach_faults_groupsNext (m : Mach) (x : List FaultRec) : ({ m with faults := x } : Mach).groupsNext = m.groupsNext := rfl
@[simp] theorem mach_faults_ecc (m : Mach) (x : List FaultRec) : ({ m with faults := x } : Mach).ecc = m.ecc := rfl
@[simp] theorem mach_faults_mram (m : Mach) (x : List FaultRec) : ({ m with faults := x } : Mach).mram = m.mram := rfl
@[simp] theorem mach_faults_mramBad (m : Mach) (x : List FaultRec) : ({ m with faults := x } : Mach).mramBad = m.mramBad := rfl
@[simp] theorem mach_faults_pos (m : Mach) (x : List FaultRec) : ({ m with faults := x } : Mach).pos = m.pos := rfl
@[simp] theorem mach_faults_eng (m : Mach) (x : List FaultRec) : ({ m with faults := x } : Mach).eng = m.eng := rfl
@[simp] theorem mach_faults_sched (m : Mach) (x : List FaultRec) : ({ m with faults := x } : Mach).sched = m.sched := rfl
@[simp] theorem mach_faults_doors (m : Mach) (x : List FaultRec) : ({ m with faults := x } : Mach).doors = m.doors := rfl
@[simp] theorem mach_faults_safe (m : Mach) (x : List FaultRec) : ({ m with faults := x } : Mach).safe = m.safe := rfl
@[simp] theorem mach_faults_cab (m : Mach) (x : List FaultRec) : ({ m with faults := x } : Mach).cab = m.cab := rfl
@[simp] theorem mach_faults_triad (m : Mach) (x : List FaultRec) : ({ m with faults := x } : Mach).triad = m.triad := rfl
@[simp] theorem mach_faults_pair (m : Mach) (x : List FaultRec) : ({ m with faults := x } : Mach).pair = m.pair := rfl
@[simp] theorem mach_faults_link (m : Mach) (x : List FaultRec) : ({ m with faults := x } : Mach).link = m.link := rfl
@[simp] theorem mach_faults_field (m : Mach) (x : List FaultRec) : ({ m with faults := x } : Mach).field = m.field := rfl
@[simp] theorem mach_faults_bus (m : Mach) (x : List FaultRec) : ({ m with faults := x } : Mach).bus = m.bus := rfl
@[simp] theorem mach_faults_meter (m : Mach) (x : List FaultRec) : ({ m with faults := x } : Mach).meter = m.meter := rfl
@[simp] theorem mach_faults_rcd (m : Mach) (x : List FaultRec) : ({ m with faults := x } : Mach).rcd = m.rcd := rfl
@[simp] theorem mach_faults_host (m : Mach) (x : List FaultRec) : ({ m with faults := x } : Mach).host = m.host := rfl
@[simp] theorem mach_faults_power (m : Mach) (x : List FaultRec) : ({ m with faults := x } : Mach).power = m.power := rfl
@[simp] theorem mach_faults_sec (m : Mach) (x : List FaultRec) : ({ m with faults := x } : Mach).sec = m.sec := rfl
@[simp] theorem mach_faults_start (m : Mach) (x : List FaultRec) : ({ m with faults := x } : Mach).start = m.start := rfl
@[simp] theorem mach_faults_free (m : Mach) (x : List FaultRec) : ({ m with faults := x } : Mach).free = m.free := rfl
@[simp] theorem mach_units_time (m : Mach) (x : List UnitCell) : ({ m with units := x } : Mach).time = m.time := rfl
@[simp] theorem mach_units_params (m : Mach) (x : List UnitCell) : ({ m with units := x } : Mach).params = m.params := rfl
@[simp] theorem mach_units_deferred (m : Mach) (x : List UnitCell) : ({ m with units := x } : Mach).deferred = m.deferred := rfl
@[simp] theorem mach_units_faults (m : Mach) (x : List UnitCell) : ({ m with units := x } : Mach).faults = m.faults := rfl
@[simp] theorem mach_units_units (m : Mach) (x : List UnitCell) : ({ m with units := x } : Mach).units = x := rfl
@[simp] theorem mach_units_enables (m : Mach) (x : List UnitCell) : ({ m with units := x } : Mach).enables = m.enables := rfl
@[simp] theorem mach_units_groups (m : Mach) (x : List UnitCell) : ({ m with units := x } : Mach).groups = m.groups := rfl
@[simp] theorem mach_units_groupsNext (m : Mach) (x : List UnitCell) : ({ m with units := x } : Mach).groupsNext = m.groupsNext := rfl
@[simp] theorem mach_units_ecc (m : Mach) (x : List UnitCell) : ({ m with units := x } : Mach).ecc = m.ecc := rfl
@[simp] theorem mach_units_mram (m : Mach) (x : List UnitCell) : ({ m with units := x } : Mach).mram = m.mram := rfl
@[simp] theorem mach_units_mramBad (m : Mach) (x : List UnitCell) : ({ m with units := x } : Mach).mramBad = m.mramBad := rfl
@[simp] theorem mach_units_pos (m : Mach) (x : List UnitCell) : ({ m with units := x } : Mach).pos = m.pos := rfl
@[simp] theorem mach_units_eng (m : Mach) (x : List UnitCell) : ({ m with units := x } : Mach).eng = m.eng := rfl
@[simp] theorem mach_units_sched (m : Mach) (x : List UnitCell) : ({ m with units := x } : Mach).sched = m.sched := rfl
@[simp] theorem mach_units_doors (m : Mach) (x : List UnitCell) : ({ m with units := x } : Mach).doors = m.doors := rfl
@[simp] theorem mach_units_safe (m : Mach) (x : List UnitCell) : ({ m with units := x } : Mach).safe = m.safe := rfl
@[simp] theorem mach_units_cab (m : Mach) (x : List UnitCell) : ({ m with units := x } : Mach).cab = m.cab := rfl
@[simp] theorem mach_units_triad (m : Mach) (x : List UnitCell) : ({ m with units := x } : Mach).triad = m.triad := rfl
@[simp] theorem mach_units_pair (m : Mach) (x : List UnitCell) : ({ m with units := x } : Mach).pair = m.pair := rfl
@[simp] theorem mach_units_link (m : Mach) (x : List UnitCell) : ({ m with units := x } : Mach).link = m.link := rfl
@[simp] theorem mach_units_field (m : Mach) (x : List UnitCell) : ({ m with units := x } : Mach).field = m.field := rfl
@[simp] theorem mach_units_bus (m : Mach) (x : List UnitCell) : ({ m with units := x } : Mach).bus = m.bus := rfl
@[simp] theorem mach_units_meter (m : Mach) (x : List UnitCell) : ({ m with units := x } : Mach).meter = m.meter := rfl
@[simp] theorem mach_units_rcd (m : Mach) (x : List UnitCell) : ({ m with units := x } : Mach).rcd = m.rcd := rfl
@[simp] theorem mach_units_host (m : Mach) (x : List UnitCell) : ({ m with units := x } : Mach).host = m.host := rfl
@[simp] theorem mach_units_power (m : Mach) (x : List UnitCell) : ({ m with units := x } : Mach).power = m.power := rfl
@[simp] theorem mach_units_sec (m : Mach) (x : List UnitCell) : ({ m with units := x } : Mach).sec = m.sec := rfl
@[simp] theorem mach_units_start (m : Mach) (x : List UnitCell) : ({ m with units := x } : Mach).start = m.start := rfl
@[simp] theorem mach_units_free (m : Mach) (x : List UnitCell) : ({ m with units := x } : Mach).free = m.free := rfl
@[simp] theorem mach_enables_time (m : Mach) (x : List EnableRun) : ({ m with enables := x } : Mach).time = m.time := rfl
@[simp] theorem mach_enables_params (m : Mach) (x : List EnableRun) : ({ m with enables := x } : Mach).params = m.params := rfl
@[simp] theorem mach_enables_deferred (m : Mach) (x : List EnableRun) : ({ m with enables := x } : Mach).deferred = m.deferred := rfl
@[simp] theorem mach_enables_faults (m : Mach) (x : List EnableRun) : ({ m with enables := x } : Mach).faults = m.faults := rfl
@[simp] theorem mach_enables_units (m : Mach) (x : List EnableRun) : ({ m with enables := x } : Mach).units = m.units := rfl
@[simp] theorem mach_enables_enables (m : Mach) (x : List EnableRun) : ({ m with enables := x } : Mach).enables = x := rfl
@[simp] theorem mach_enables_groups (m : Mach) (x : List EnableRun) : ({ m with enables := x } : Mach).groups = m.groups := rfl
@[simp] theorem mach_enables_groupsNext (m : Mach) (x : List EnableRun) : ({ m with enables := x } : Mach).groupsNext = m.groupsNext := rfl
@[simp] theorem mach_enables_ecc (m : Mach) (x : List EnableRun) : ({ m with enables := x } : Mach).ecc = m.ecc := rfl
@[simp] theorem mach_enables_mram (m : Mach) (x : List EnableRun) : ({ m with enables := x } : Mach).mram = m.mram := rfl
@[simp] theorem mach_enables_mramBad (m : Mach) (x : List EnableRun) : ({ m with enables := x } : Mach).mramBad = m.mramBad := rfl
@[simp] theorem mach_enables_pos (m : Mach) (x : List EnableRun) : ({ m with enables := x } : Mach).pos = m.pos := rfl
@[simp] theorem mach_enables_eng (m : Mach) (x : List EnableRun) : ({ m with enables := x } : Mach).eng = m.eng := rfl
@[simp] theorem mach_enables_sched (m : Mach) (x : List EnableRun) : ({ m with enables := x } : Mach).sched = m.sched := rfl
@[simp] theorem mach_enables_doors (m : Mach) (x : List EnableRun) : ({ m with enables := x } : Mach).doors = m.doors := rfl
@[simp] theorem mach_enables_safe (m : Mach) (x : List EnableRun) : ({ m with enables := x } : Mach).safe = m.safe := rfl
@[simp] theorem mach_enables_cab (m : Mach) (x : List EnableRun) : ({ m with enables := x } : Mach).cab = m.cab := rfl
@[simp] theorem mach_enables_triad (m : Mach) (x : List EnableRun) : ({ m with enables := x } : Mach).triad = m.triad := rfl
@[simp] theorem mach_enables_pair (m : Mach) (x : List EnableRun) : ({ m with enables := x } : Mach).pair = m.pair := rfl
@[simp] theorem mach_enables_link (m : Mach) (x : List EnableRun) : ({ m with enables := x } : Mach).link = m.link := rfl
@[simp] theorem mach_enables_field (m : Mach) (x : List EnableRun) : ({ m with enables := x } : Mach).field = m.field := rfl
@[simp] theorem mach_enables_bus (m : Mach) (x : List EnableRun) : ({ m with enables := x } : Mach).bus = m.bus := rfl
@[simp] theorem mach_enables_meter (m : Mach) (x : List EnableRun) : ({ m with enables := x } : Mach).meter = m.meter := rfl
@[simp] theorem mach_enables_rcd (m : Mach) (x : List EnableRun) : ({ m with enables := x } : Mach).rcd = m.rcd := rfl
@[simp] theorem mach_enables_host (m : Mach) (x : List EnableRun) : ({ m with enables := x } : Mach).host = m.host := rfl
@[simp] theorem mach_enables_power (m : Mach) (x : List EnableRun) : ({ m with enables := x } : Mach).power = m.power := rfl
@[simp] theorem mach_enables_sec (m : Mach) (x : List EnableRun) : ({ m with enables := x } : Mach).sec = m.sec := rfl
@[simp] theorem mach_enables_start (m : Mach) (x : List EnableRun) : ({ m with enables := x } : Mach).start = m.start := rfl
@[simp] theorem mach_enables_free (m : Mach) (x : List EnableRun) : ({ m with enables := x } : Mach).free = m.free := rfl
@[simp] theorem mach_groups_time (m : Mach) (x : List GroupDef) : ({ m with groups := x } : Mach).time = m.time := rfl
@[simp] theorem mach_groups_params (m : Mach) (x : List GroupDef) : ({ m with groups := x } : Mach).params = m.params := rfl
@[simp] theorem mach_groups_deferred (m : Mach) (x : List GroupDef) : ({ m with groups := x } : Mach).deferred = m.deferred := rfl
@[simp] theorem mach_groups_faults (m : Mach) (x : List GroupDef) : ({ m with groups := x } : Mach).faults = m.faults := rfl
@[simp] theorem mach_groups_units (m : Mach) (x : List GroupDef) : ({ m with groups := x } : Mach).units = m.units := rfl
@[simp] theorem mach_groups_enables (m : Mach) (x : List GroupDef) : ({ m with groups := x } : Mach).enables = m.enables := rfl
@[simp] theorem mach_groups_groups (m : Mach) (x : List GroupDef) : ({ m with groups := x } : Mach).groups = x := rfl
@[simp] theorem mach_groups_groupsNext (m : Mach) (x : List GroupDef) : ({ m with groups := x } : Mach).groupsNext = m.groupsNext := rfl
@[simp] theorem mach_groups_ecc (m : Mach) (x : List GroupDef) : ({ m with groups := x } : Mach).ecc = m.ecc := rfl
@[simp] theorem mach_groups_mram (m : Mach) (x : List GroupDef) : ({ m with groups := x } : Mach).mram = m.mram := rfl
@[simp] theorem mach_groups_mramBad (m : Mach) (x : List GroupDef) : ({ m with groups := x } : Mach).mramBad = m.mramBad := rfl
@[simp] theorem mach_groups_pos (m : Mach) (x : List GroupDef) : ({ m with groups := x } : Mach).pos = m.pos := rfl
@[simp] theorem mach_groups_eng (m : Mach) (x : List GroupDef) : ({ m with groups := x } : Mach).eng = m.eng := rfl
@[simp] theorem mach_groups_sched (m : Mach) (x : List GroupDef) : ({ m with groups := x } : Mach).sched = m.sched := rfl
@[simp] theorem mach_groups_doors (m : Mach) (x : List GroupDef) : ({ m with groups := x } : Mach).doors = m.doors := rfl
@[simp] theorem mach_groups_safe (m : Mach) (x : List GroupDef) : ({ m with groups := x } : Mach).safe = m.safe := rfl
@[simp] theorem mach_groups_cab (m : Mach) (x : List GroupDef) : ({ m with groups := x } : Mach).cab = m.cab := rfl
@[simp] theorem mach_groups_triad (m : Mach) (x : List GroupDef) : ({ m with groups := x } : Mach).triad = m.triad := rfl
@[simp] theorem mach_groups_pair (m : Mach) (x : List GroupDef) : ({ m with groups := x } : Mach).pair = m.pair := rfl
@[simp] theorem mach_groups_link (m : Mach) (x : List GroupDef) : ({ m with groups := x } : Mach).link = m.link := rfl
@[simp] theorem mach_groups_field (m : Mach) (x : List GroupDef) : ({ m with groups := x } : Mach).field = m.field := rfl
@[simp] theorem mach_groups_bus (m : Mach) (x : List GroupDef) : ({ m with groups := x } : Mach).bus = m.bus := rfl
@[simp] theorem mach_groups_meter (m : Mach) (x : List GroupDef) : ({ m with groups := x } : Mach).meter = m.meter := rfl
@[simp] theorem mach_groups_rcd (m : Mach) (x : List GroupDef) : ({ m with groups := x } : Mach).rcd = m.rcd := rfl
@[simp] theorem mach_groups_host (m : Mach) (x : List GroupDef) : ({ m with groups := x } : Mach).host = m.host := rfl
@[simp] theorem mach_groups_power (m : Mach) (x : List GroupDef) : ({ m with groups := x } : Mach).power = m.power := rfl
@[simp] theorem mach_groups_sec (m : Mach) (x : List GroupDef) : ({ m with groups := x } : Mach).sec = m.sec := rfl
@[simp] theorem mach_groups_start (m : Mach) (x : List GroupDef) : ({ m with groups := x } : Mach).start = m.start := rfl
@[simp] theorem mach_groups_free (m : Mach) (x : List GroupDef) : ({ m with groups := x } : Mach).free = m.free := rfl
@[simp] theorem mach_groupsNext_time (m : Mach) (x : Option (List GroupDef)) : ({ m with groupsNext := x } : Mach).time = m.time := rfl
@[simp] theorem mach_groupsNext_params (m : Mach) (x : Option (List GroupDef)) : ({ m with groupsNext := x } : Mach).params = m.params := rfl
@[simp] theorem mach_groupsNext_deferred (m : Mach) (x : Option (List GroupDef)) : ({ m with groupsNext := x } : Mach).deferred = m.deferred := rfl
@[simp] theorem mach_groupsNext_faults (m : Mach) (x : Option (List GroupDef)) : ({ m with groupsNext := x } : Mach).faults = m.faults := rfl
@[simp] theorem mach_groupsNext_units (m : Mach) (x : Option (List GroupDef)) : ({ m with groupsNext := x } : Mach).units = m.units := rfl
@[simp] theorem mach_groupsNext_enables (m : Mach) (x : Option (List GroupDef)) : ({ m with groupsNext := x } : Mach).enables = m.enables := rfl
@[simp] theorem mach_groupsNext_groups (m : Mach) (x : Option (List GroupDef)) : ({ m with groupsNext := x } : Mach).groups = m.groups := rfl
@[simp] theorem mach_groupsNext_groupsNext (m : Mach) (x : Option (List GroupDef)) : ({ m with groupsNext := x } : Mach).groupsNext = x := rfl
@[simp] theorem mach_groupsNext_ecc (m : Mach) (x : Option (List GroupDef)) : ({ m with groupsNext := x } : Mach).ecc = m.ecc := rfl
@[simp] theorem mach_groupsNext_mram (m : Mach) (x : Option (List GroupDef)) : ({ m with groupsNext := x } : Mach).mram = m.mram := rfl
@[simp] theorem mach_groupsNext_mramBad (m : Mach) (x : Option (List GroupDef)) : ({ m with groupsNext := x } : Mach).mramBad = m.mramBad := rfl
@[simp] theorem mach_groupsNext_pos (m : Mach) (x : Option (List GroupDef)) : ({ m with groupsNext := x } : Mach).pos = m.pos := rfl
@[simp] theorem mach_groupsNext_eng (m : Mach) (x : Option (List GroupDef)) : ({ m with groupsNext := x } : Mach).eng = m.eng := rfl
@[simp] theorem mach_groupsNext_sched (m : Mach) (x : Option (List GroupDef)) : ({ m with groupsNext := x } : Mach).sched = m.sched := rfl
@[simp] theorem mach_groupsNext_doors (m : Mach) (x : Option (List GroupDef)) : ({ m with groupsNext := x } : Mach).doors = m.doors := rfl
@[simp] theorem mach_groupsNext_safe (m : Mach) (x : Option (List GroupDef)) : ({ m with groupsNext := x } : Mach).safe = m.safe := rfl
@[simp] theorem mach_groupsNext_cab (m : Mach) (x : Option (List GroupDef)) : ({ m with groupsNext := x } : Mach).cab = m.cab := rfl
@[simp] theorem mach_groupsNext_triad (m : Mach) (x : Option (List GroupDef)) : ({ m with groupsNext := x } : Mach).triad = m.triad := rfl
@[simp] theorem mach_groupsNext_pair (m : Mach) (x : Option (List GroupDef)) : ({ m with groupsNext := x } : Mach).pair = m.pair := rfl
@[simp] theorem mach_groupsNext_link (m : Mach) (x : Option (List GroupDef)) : ({ m with groupsNext := x } : Mach).link = m.link := rfl
@[simp] theorem mach_groupsNext_field (m : Mach) (x : Option (List GroupDef)) : ({ m with groupsNext := x } : Mach).field = m.field := rfl
@[simp] theorem mach_groupsNext_bus (m : Mach) (x : Option (List GroupDef)) : ({ m with groupsNext := x } : Mach).bus = m.bus := rfl
@[simp] theorem mach_groupsNext_meter (m : Mach) (x : Option (List GroupDef)) : ({ m with groupsNext := x } : Mach).meter = m.meter := rfl
@[simp] theorem mach_groupsNext_rcd (m : Mach) (x : Option (List GroupDef)) : ({ m with groupsNext := x } : Mach).rcd = m.rcd := rfl
@[simp] theorem mach_groupsNext_host (m : Mach) (x : Option (List GroupDef)) : ({ m with groupsNext := x } : Mach).host = m.host := rfl
@[simp] theorem mach_groupsNext_power (m : Mach) (x : Option (List GroupDef)) : ({ m with groupsNext := x } : Mach).power = m.power := rfl
@[simp] theorem mach_groupsNext_sec (m : Mach) (x : Option (List GroupDef)) : ({ m with groupsNext := x } : Mach).sec = m.sec := rfl
@[simp] theorem mach_groupsNext_start (m : Mach) (x : Option (List GroupDef)) : ({ m with groupsNext := x } : Mach).start = m.start := rfl
@[simp] theorem mach_groupsNext_free (m : Mach) (x : Option (List GroupDef)) : ({ m with groupsNext := x } : Mach).free = m.free := rfl
@[simp] theorem mach_ecc_time (m : Mach) (x : List (Nat × Nat)) : ({ m with ecc := x } : Mach).time = m.time := rfl
@[simp] theorem mach_ecc_params (m : Mach) (x : List (Nat × Nat)) : ({ m with ecc := x } : Mach).params = m.params := rfl
@[simp] theorem mach_ecc_deferred (m : Mach) (x : List (Nat × Nat)) : ({ m with ecc := x } : Mach).deferred = m.deferred := rfl
@[simp] theorem mach_ecc_faults (m : Mach) (x : List (Nat × Nat)) : ({ m with ecc := x } : Mach).faults = m.faults := rfl
@[simp] theorem mach_ecc_units (m : Mach) (x : List (Nat × Nat)) : ({ m with ecc := x } : Mach).units = m.units := rfl
@[simp] theorem mach_ecc_enables (m : Mach) (x : List (Nat × Nat)) : ({ m with ecc := x } : Mach).enables = m.enables := rfl
@[simp] theorem mach_ecc_groups (m : Mach) (x : List (Nat × Nat)) : ({ m with ecc := x } : Mach).groups = m.groups := rfl
@[simp] theorem mach_ecc_groupsNext (m : Mach) (x : List (Nat × Nat)) : ({ m with ecc := x } : Mach).groupsNext = m.groupsNext := rfl
@[simp] theorem mach_ecc_ecc (m : Mach) (x : List (Nat × Nat)) : ({ m with ecc := x } : Mach).ecc = x := rfl
@[simp] theorem mach_ecc_mram (m : Mach) (x : List (Nat × Nat)) : ({ m with ecc := x } : Mach).mram = m.mram := rfl
@[simp] theorem mach_ecc_mramBad (m : Mach) (x : List (Nat × Nat)) : ({ m with ecc := x } : Mach).mramBad = m.mramBad := rfl
@[simp] theorem mach_ecc_pos (m : Mach) (x : List (Nat × Nat)) : ({ m with ecc := x } : Mach).pos = m.pos := rfl
@[simp] theorem mach_ecc_eng (m : Mach) (x : List (Nat × Nat)) : ({ m with ecc := x } : Mach).eng = m.eng := rfl
@[simp] theorem mach_ecc_sched (m : Mach) (x : List (Nat × Nat)) : ({ m with ecc := x } : Mach).sched = m.sched := rfl
@[simp] theorem mach_ecc_doors (m : Mach) (x : List (Nat × Nat)) : ({ m with ecc := x } : Mach).doors = m.doors := rfl
@[simp] theorem mach_ecc_safe (m : Mach) (x : List (Nat × Nat)) : ({ m with ecc := x } : Mach).safe = m.safe := rfl
@[simp] theorem mach_ecc_cab (m : Mach) (x : List (Nat × Nat)) : ({ m with ecc := x } : Mach).cab = m.cab := rfl
@[simp] theorem mach_ecc_triad (m : Mach) (x : List (Nat × Nat)) : ({ m with ecc := x } : Mach).triad = m.triad := rfl
@[simp] theorem mach_ecc_pair (m : Mach) (x : List (Nat × Nat)) : ({ m with ecc := x } : Mach).pair = m.pair := rfl
@[simp] theorem mach_ecc_link (m : Mach) (x : List (Nat × Nat)) : ({ m with ecc := x } : Mach).link = m.link := rfl
@[simp] theorem mach_ecc_field (m : Mach) (x : List (Nat × Nat)) : ({ m with ecc := x } : Mach).field = m.field := rfl
@[simp] theorem mach_ecc_bus (m : Mach) (x : List (Nat × Nat)) : ({ m with ecc := x } : Mach).bus = m.bus := rfl
@[simp] theorem mach_ecc_meter (m : Mach) (x : List (Nat × Nat)) : ({ m with ecc := x } : Mach).meter = m.meter := rfl
@[simp] theorem mach_ecc_rcd (m : Mach) (x : List (Nat × Nat)) : ({ m with ecc := x } : Mach).rcd = m.rcd := rfl
@[simp] theorem mach_ecc_host (m : Mach) (x : List (Nat × Nat)) : ({ m with ecc := x } : Mach).host = m.host := rfl
@[simp] theorem mach_ecc_power (m : Mach) (x : List (Nat × Nat)) : ({ m with ecc := x } : Mach).power = m.power := rfl
@[simp] theorem mach_ecc_sec (m : Mach) (x : List (Nat × Nat)) : ({ m with ecc := x } : Mach).sec = m.sec := rfl
@[simp] theorem mach_ecc_start (m : Mach) (x : List (Nat × Nat)) : ({ m with ecc := x } : Mach).start = m.start := rfl
@[simp] theorem mach_ecc_free (m : Mach) (x : List (Nat × Nat)) : ({ m with ecc := x } : Mach).free = m.free := rfl
@[simp] theorem mach_mram_time (m : Mach) (x : List (Nat × BitVec 8)) : ({ m with mram := x } : Mach).time = m.time := rfl
@[simp] theorem mach_mram_params (m : Mach) (x : List (Nat × BitVec 8)) : ({ m with mram := x } : Mach).params = m.params := rfl
@[simp] theorem mach_mram_deferred (m : Mach) (x : List (Nat × BitVec 8)) : ({ m with mram := x } : Mach).deferred = m.deferred := rfl
@[simp] theorem mach_mram_faults (m : Mach) (x : List (Nat × BitVec 8)) : ({ m with mram := x } : Mach).faults = m.faults := rfl
@[simp] theorem mach_mram_units (m : Mach) (x : List (Nat × BitVec 8)) : ({ m with mram := x } : Mach).units = m.units := rfl
@[simp] theorem mach_mram_enables (m : Mach) (x : List (Nat × BitVec 8)) : ({ m with mram := x } : Mach).enables = m.enables := rfl
@[simp] theorem mach_mram_groups (m : Mach) (x : List (Nat × BitVec 8)) : ({ m with mram := x } : Mach).groups = m.groups := rfl
@[simp] theorem mach_mram_groupsNext (m : Mach) (x : List (Nat × BitVec 8)) : ({ m with mram := x } : Mach).groupsNext = m.groupsNext := rfl
@[simp] theorem mach_mram_ecc (m : Mach) (x : List (Nat × BitVec 8)) : ({ m with mram := x } : Mach).ecc = m.ecc := rfl
@[simp] theorem mach_mram_mram (m : Mach) (x : List (Nat × BitVec 8)) : ({ m with mram := x } : Mach).mram = x := rfl
@[simp] theorem mach_mram_mramBad (m : Mach) (x : List (Nat × BitVec 8)) : ({ m with mram := x } : Mach).mramBad = m.mramBad := rfl
@[simp] theorem mach_mram_pos (m : Mach) (x : List (Nat × BitVec 8)) : ({ m with mram := x } : Mach).pos = m.pos := rfl
@[simp] theorem mach_mram_eng (m : Mach) (x : List (Nat × BitVec 8)) : ({ m with mram := x } : Mach).eng = m.eng := rfl
@[simp] theorem mach_mram_sched (m : Mach) (x : List (Nat × BitVec 8)) : ({ m with mram := x } : Mach).sched = m.sched := rfl
@[simp] theorem mach_mram_doors (m : Mach) (x : List (Nat × BitVec 8)) : ({ m with mram := x } : Mach).doors = m.doors := rfl
@[simp] theorem mach_mram_safe (m : Mach) (x : List (Nat × BitVec 8)) : ({ m with mram := x } : Mach).safe = m.safe := rfl
@[simp] theorem mach_mram_cab (m : Mach) (x : List (Nat × BitVec 8)) : ({ m with mram := x } : Mach).cab = m.cab := rfl
@[simp] theorem mach_mram_triad (m : Mach) (x : List (Nat × BitVec 8)) : ({ m with mram := x } : Mach).triad = m.triad := rfl
@[simp] theorem mach_mram_pair (m : Mach) (x : List (Nat × BitVec 8)) : ({ m with mram := x } : Mach).pair = m.pair := rfl
@[simp] theorem mach_mram_link (m : Mach) (x : List (Nat × BitVec 8)) : ({ m with mram := x } : Mach).link = m.link := rfl
@[simp] theorem mach_mram_field (m : Mach) (x : List (Nat × BitVec 8)) : ({ m with mram := x } : Mach).field = m.field := rfl
@[simp] theorem mach_mram_bus (m : Mach) (x : List (Nat × BitVec 8)) : ({ m with mram := x } : Mach).bus = m.bus := rfl
@[simp] theorem mach_mram_meter (m : Mach) (x : List (Nat × BitVec 8)) : ({ m with mram := x } : Mach).meter = m.meter := rfl
@[simp] theorem mach_mram_rcd (m : Mach) (x : List (Nat × BitVec 8)) : ({ m with mram := x } : Mach).rcd = m.rcd := rfl
@[simp] theorem mach_mram_host (m : Mach) (x : List (Nat × BitVec 8)) : ({ m with mram := x } : Mach).host = m.host := rfl
@[simp] theorem mach_mram_power (m : Mach) (x : List (Nat × BitVec 8)) : ({ m with mram := x } : Mach).power = m.power := rfl
@[simp] theorem mach_mram_sec (m : Mach) (x : List (Nat × BitVec 8)) : ({ m with mram := x } : Mach).sec = m.sec := rfl
@[simp] theorem mach_mram_start (m : Mach) (x : List (Nat × BitVec 8)) : ({ m with mram := x } : Mach).start = m.start := rfl
@[simp] theorem mach_mram_free (m : Mach) (x : List (Nat × BitVec 8)) : ({ m with mram := x } : Mach).free = m.free := rfl
@[simp] theorem mach_mramBad_time (m : Mach) (x : List Nat) : ({ m with mramBad := x } : Mach).time = m.time := rfl
@[simp] theorem mach_mramBad_params (m : Mach) (x : List Nat) : ({ m with mramBad := x } : Mach).params = m.params := rfl
@[simp] theorem mach_mramBad_deferred (m : Mach) (x : List Nat) : ({ m with mramBad := x } : Mach).deferred = m.deferred := rfl
@[simp] theorem mach_mramBad_faults (m : Mach) (x : List Nat) : ({ m with mramBad := x } : Mach).faults = m.faults := rfl
@[simp] theorem mach_mramBad_units (m : Mach) (x : List Nat) : ({ m with mramBad := x } : Mach).units = m.units := rfl
@[simp] theorem mach_mramBad_enables (m : Mach) (x : List Nat) : ({ m with mramBad := x } : Mach).enables = m.enables := rfl
@[simp] theorem mach_mramBad_groups (m : Mach) (x : List Nat) : ({ m with mramBad := x } : Mach).groups = m.groups := rfl
@[simp] theorem mach_mramBad_groupsNext (m : Mach) (x : List Nat) : ({ m with mramBad := x } : Mach).groupsNext = m.groupsNext := rfl
@[simp] theorem mach_mramBad_ecc (m : Mach) (x : List Nat) : ({ m with mramBad := x } : Mach).ecc = m.ecc := rfl
@[simp] theorem mach_mramBad_mram (m : Mach) (x : List Nat) : ({ m with mramBad := x } : Mach).mram = m.mram := rfl
@[simp] theorem mach_mramBad_mramBad (m : Mach) (x : List Nat) : ({ m with mramBad := x } : Mach).mramBad = x := rfl
@[simp] theorem mach_mramBad_pos (m : Mach) (x : List Nat) : ({ m with mramBad := x } : Mach).pos = m.pos := rfl
@[simp] theorem mach_mramBad_eng (m : Mach) (x : List Nat) : ({ m with mramBad := x } : Mach).eng = m.eng := rfl
@[simp] theorem mach_mramBad_sched (m : Mach) (x : List Nat) : ({ m with mramBad := x } : Mach).sched = m.sched := rfl
@[simp] theorem mach_mramBad_doors (m : Mach) (x : List Nat) : ({ m with mramBad := x } : Mach).doors = m.doors := rfl
@[simp] theorem mach_mramBad_safe (m : Mach) (x : List Nat) : ({ m with mramBad := x } : Mach).safe = m.safe := rfl
@[simp] theorem mach_mramBad_cab (m : Mach) (x : List Nat) : ({ m with mramBad := x } : Mach).cab = m.cab := rfl
@[simp] theorem mach_mramBad_triad (m : Mach) (x : List Nat) : ({ m with mramBad := x } : Mach).triad = m.triad := rfl
@[simp] theorem mach_mramBad_pair (m : Mach) (x : List Nat) : ({ m with mramBad := x } : Mach).pair = m.pair := rfl
@[simp] theorem mach_mramBad_link (m : Mach) (x : List Nat) : ({ m with mramBad := x } : Mach).link = m.link := rfl
@[simp] theorem mach_mramBad_field (m : Mach) (x : List Nat) : ({ m with mramBad := x } : Mach).field = m.field := rfl
@[simp] theorem mach_mramBad_bus (m : Mach) (x : List Nat) : ({ m with mramBad := x } : Mach).bus = m.bus := rfl
@[simp] theorem mach_mramBad_meter (m : Mach) (x : List Nat) : ({ m with mramBad := x } : Mach).meter = m.meter := rfl
@[simp] theorem mach_mramBad_rcd (m : Mach) (x : List Nat) : ({ m with mramBad := x } : Mach).rcd = m.rcd := rfl
@[simp] theorem mach_mramBad_host (m : Mach) (x : List Nat) : ({ m with mramBad := x } : Mach).host = m.host := rfl
@[simp] theorem mach_mramBad_power (m : Mach) (x : List Nat) : ({ m with mramBad := x } : Mach).power = m.power := rfl
@[simp] theorem mach_mramBad_sec (m : Mach) (x : List Nat) : ({ m with mramBad := x } : Mach).sec = m.sec := rfl
@[simp] theorem mach_mramBad_start (m : Mach) (x : List Nat) : ({ m with mramBad := x } : Mach).start = m.start := rfl
@[simp] theorem mach_mramBad_free (m : Mach) (x : List Nat) : ({ m with mramBad := x } : Mach).free = m.free := rfl
@[simp] theorem mach_pos_time (m : Mach) (x : PosState) : ({ m with pos := x } : Mach).time = m.time := rfl
@[simp] theorem mach_pos_params (m : Mach) (x : PosState) : ({ m with pos := x } : Mach).params = m.params := rfl
@[simp] theorem mach_pos_deferred (m : Mach) (x : PosState) : ({ m with pos := x } : Mach).deferred = m.deferred := rfl
@[simp] theorem mach_pos_faults (m : Mach) (x : PosState) : ({ m with pos := x } : Mach).faults = m.faults := rfl
@[simp] theorem mach_pos_units (m : Mach) (x : PosState) : ({ m with pos := x } : Mach).units = m.units := rfl
@[simp] theorem mach_pos_enables (m : Mach) (x : PosState) : ({ m with pos := x } : Mach).enables = m.enables := rfl
@[simp] theorem mach_pos_groups (m : Mach) (x : PosState) : ({ m with pos := x } : Mach).groups = m.groups := rfl
@[simp] theorem mach_pos_groupsNext (m : Mach) (x : PosState) : ({ m with pos := x } : Mach).groupsNext = m.groupsNext := rfl
@[simp] theorem mach_pos_ecc (m : Mach) (x : PosState) : ({ m with pos := x } : Mach).ecc = m.ecc := rfl
@[simp] theorem mach_pos_mram (m : Mach) (x : PosState) : ({ m with pos := x } : Mach).mram = m.mram := rfl
@[simp] theorem mach_pos_mramBad (m : Mach) (x : PosState) : ({ m with pos := x } : Mach).mramBad = m.mramBad := rfl
@[simp] theorem mach_pos_pos (m : Mach) (x : PosState) : ({ m with pos := x } : Mach).pos = x := rfl
@[simp] theorem mach_pos_eng (m : Mach) (x : PosState) : ({ m with pos := x } : Mach).eng = m.eng := rfl
@[simp] theorem mach_pos_sched (m : Mach) (x : PosState) : ({ m with pos := x } : Mach).sched = m.sched := rfl
@[simp] theorem mach_pos_doors (m : Mach) (x : PosState) : ({ m with pos := x } : Mach).doors = m.doors := rfl
@[simp] theorem mach_pos_safe (m : Mach) (x : PosState) : ({ m with pos := x } : Mach).safe = m.safe := rfl
@[simp] theorem mach_pos_cab (m : Mach) (x : PosState) : ({ m with pos := x } : Mach).cab = m.cab := rfl
@[simp] theorem mach_pos_triad (m : Mach) (x : PosState) : ({ m with pos := x } : Mach).triad = m.triad := rfl
@[simp] theorem mach_pos_pair (m : Mach) (x : PosState) : ({ m with pos := x } : Mach).pair = m.pair := rfl
@[simp] theorem mach_pos_link (m : Mach) (x : PosState) : ({ m with pos := x } : Mach).link = m.link := rfl
@[simp] theorem mach_pos_field (m : Mach) (x : PosState) : ({ m with pos := x } : Mach).field = m.field := rfl
@[simp] theorem mach_pos_bus (m : Mach) (x : PosState) : ({ m with pos := x } : Mach).bus = m.bus := rfl
@[simp] theorem mach_pos_meter (m : Mach) (x : PosState) : ({ m with pos := x } : Mach).meter = m.meter := rfl
@[simp] theorem mach_pos_rcd (m : Mach) (x : PosState) : ({ m with pos := x } : Mach).rcd = m.rcd := rfl
@[simp] theorem mach_pos_host (m : Mach) (x : PosState) : ({ m with pos := x } : Mach).host = m.host := rfl
@[simp] theorem mach_pos_power (m : Mach) (x : PosState) : ({ m with pos := x } : Mach).power = m.power := rfl
@[simp] theorem mach_pos_sec (m : Mach) (x : PosState) : ({ m with pos := x } : Mach).sec = m.sec := rfl
@[simp] theorem mach_pos_start (m : Mach) (x : PosState) : ({ m with pos := x } : Mach).start = m.start := rfl
@[simp] theorem mach_pos_free (m : Mach) (x : PosState) : ({ m with pos := x } : Mach).free = m.free := rfl
@[simp] theorem mach_eng_time (m : Mach) (x : EngineState) : ({ m with eng := x } : Mach).time = m.time := rfl
@[simp] theorem mach_eng_params (m : Mach) (x : EngineState) : ({ m with eng := x } : Mach).params = m.params := rfl
@[simp] theorem mach_eng_deferred (m : Mach) (x : EngineState) : ({ m with eng := x } : Mach).deferred = m.deferred := rfl
@[simp] theorem mach_eng_faults (m : Mach) (x : EngineState) : ({ m with eng := x } : Mach).faults = m.faults := rfl
@[simp] theorem mach_eng_units (m : Mach) (x : EngineState) : ({ m with eng := x } : Mach).units = m.units := rfl
@[simp] theorem mach_eng_enables (m : Mach) (x : EngineState) : ({ m with eng := x } : Mach).enables = m.enables := rfl
@[simp] theorem mach_eng_groups (m : Mach) (x : EngineState) : ({ m with eng := x } : Mach).groups = m.groups := rfl
@[simp] theorem mach_eng_groupsNext (m : Mach) (x : EngineState) : ({ m with eng := x } : Mach).groupsNext = m.groupsNext := rfl
@[simp] theorem mach_eng_ecc (m : Mach) (x : EngineState) : ({ m with eng := x } : Mach).ecc = m.ecc := rfl
@[simp] theorem mach_eng_mram (m : Mach) (x : EngineState) : ({ m with eng := x } : Mach).mram = m.mram := rfl
@[simp] theorem mach_eng_mramBad (m : Mach) (x : EngineState) : ({ m with eng := x } : Mach).mramBad = m.mramBad := rfl
@[simp] theorem mach_eng_pos (m : Mach) (x : EngineState) : ({ m with eng := x } : Mach).pos = m.pos := rfl
@[simp] theorem mach_eng_eng (m : Mach) (x : EngineState) : ({ m with eng := x } : Mach).eng = x := rfl
@[simp] theorem mach_eng_sched (m : Mach) (x : EngineState) : ({ m with eng := x } : Mach).sched = m.sched := rfl
@[simp] theorem mach_eng_doors (m : Mach) (x : EngineState) : ({ m with eng := x } : Mach).doors = m.doors := rfl
@[simp] theorem mach_eng_safe (m : Mach) (x : EngineState) : ({ m with eng := x } : Mach).safe = m.safe := rfl
@[simp] theorem mach_eng_cab (m : Mach) (x : EngineState) : ({ m with eng := x } : Mach).cab = m.cab := rfl
@[simp] theorem mach_eng_triad (m : Mach) (x : EngineState) : ({ m with eng := x } : Mach).triad = m.triad := rfl
@[simp] theorem mach_eng_pair (m : Mach) (x : EngineState) : ({ m with eng := x } : Mach).pair = m.pair := rfl
@[simp] theorem mach_eng_link (m : Mach) (x : EngineState) : ({ m with eng := x } : Mach).link = m.link := rfl
@[simp] theorem mach_eng_field (m : Mach) (x : EngineState) : ({ m with eng := x } : Mach).field = m.field := rfl
@[simp] theorem mach_eng_bus (m : Mach) (x : EngineState) : ({ m with eng := x } : Mach).bus = m.bus := rfl
@[simp] theorem mach_eng_meter (m : Mach) (x : EngineState) : ({ m with eng := x } : Mach).meter = m.meter := rfl
@[simp] theorem mach_eng_rcd (m : Mach) (x : EngineState) : ({ m with eng := x } : Mach).rcd = m.rcd := rfl
@[simp] theorem mach_eng_host (m : Mach) (x : EngineState) : ({ m with eng := x } : Mach).host = m.host := rfl
@[simp] theorem mach_eng_power (m : Mach) (x : EngineState) : ({ m with eng := x } : Mach).power = m.power := rfl
@[simp] theorem mach_eng_sec (m : Mach) (x : EngineState) : ({ m with eng := x } : Mach).sec = m.sec := rfl
@[simp] theorem mach_eng_start (m : Mach) (x : EngineState) : ({ m with eng := x } : Mach).start = m.start := rfl
@[simp] theorem mach_eng_free (m : Mach) (x : EngineState) : ({ m with eng := x } : Mach).free = m.free := rfl
@[simp] theorem mach_sched_time (m : Mach) (x : SchedState) : ({ m with sched := x } : Mach).time = m.time := rfl
@[simp] theorem mach_sched_params (m : Mach) (x : SchedState) : ({ m with sched := x } : Mach).params = m.params := rfl
@[simp] theorem mach_sched_deferred (m : Mach) (x : SchedState) : ({ m with sched := x } : Mach).deferred = m.deferred := rfl
@[simp] theorem mach_sched_faults (m : Mach) (x : SchedState) : ({ m with sched := x } : Mach).faults = m.faults := rfl
@[simp] theorem mach_sched_units (m : Mach) (x : SchedState) : ({ m with sched := x } : Mach).units = m.units := rfl
@[simp] theorem mach_sched_enables (m : Mach) (x : SchedState) : ({ m with sched := x } : Mach).enables = m.enables := rfl
@[simp] theorem mach_sched_groups (m : Mach) (x : SchedState) : ({ m with sched := x } : Mach).groups = m.groups := rfl
@[simp] theorem mach_sched_groupsNext (m : Mach) (x : SchedState) : ({ m with sched := x } : Mach).groupsNext = m.groupsNext := rfl
@[simp] theorem mach_sched_ecc (m : Mach) (x : SchedState) : ({ m with sched := x } : Mach).ecc = m.ecc := rfl
@[simp] theorem mach_sched_mram (m : Mach) (x : SchedState) : ({ m with sched := x } : Mach).mram = m.mram := rfl
@[simp] theorem mach_sched_mramBad (m : Mach) (x : SchedState) : ({ m with sched := x } : Mach).mramBad = m.mramBad := rfl
@[simp] theorem mach_sched_pos (m : Mach) (x : SchedState) : ({ m with sched := x } : Mach).pos = m.pos := rfl
@[simp] theorem mach_sched_eng (m : Mach) (x : SchedState) : ({ m with sched := x } : Mach).eng = m.eng := rfl
@[simp] theorem mach_sched_sched (m : Mach) (x : SchedState) : ({ m with sched := x } : Mach).sched = x := rfl
@[simp] theorem mach_sched_doors (m : Mach) (x : SchedState) : ({ m with sched := x } : Mach).doors = m.doors := rfl
@[simp] theorem mach_sched_safe (m : Mach) (x : SchedState) : ({ m with sched := x } : Mach).safe = m.safe := rfl
@[simp] theorem mach_sched_cab (m : Mach) (x : SchedState) : ({ m with sched := x } : Mach).cab = m.cab := rfl
@[simp] theorem mach_sched_triad (m : Mach) (x : SchedState) : ({ m with sched := x } : Mach).triad = m.triad := rfl
@[simp] theorem mach_sched_pair (m : Mach) (x : SchedState) : ({ m with sched := x } : Mach).pair = m.pair := rfl
@[simp] theorem mach_sched_link (m : Mach) (x : SchedState) : ({ m with sched := x } : Mach).link = m.link := rfl
@[simp] theorem mach_sched_field (m : Mach) (x : SchedState) : ({ m with sched := x } : Mach).field = m.field := rfl
@[simp] theorem mach_sched_bus (m : Mach) (x : SchedState) : ({ m with sched := x } : Mach).bus = m.bus := rfl
@[simp] theorem mach_sched_meter (m : Mach) (x : SchedState) : ({ m with sched := x } : Mach).meter = m.meter := rfl
@[simp] theorem mach_sched_rcd (m : Mach) (x : SchedState) : ({ m with sched := x } : Mach).rcd = m.rcd := rfl
@[simp] theorem mach_sched_host (m : Mach) (x : SchedState) : ({ m with sched := x } : Mach).host = m.host := rfl
@[simp] theorem mach_sched_power (m : Mach) (x : SchedState) : ({ m with sched := x } : Mach).power = m.power := rfl
@[simp] theorem mach_sched_sec (m : Mach) (x : SchedState) : ({ m with sched := x } : Mach).sec = m.sec := rfl
@[simp] theorem mach_sched_start (m : Mach) (x : SchedState) : ({ m with sched := x } : Mach).start = m.start := rfl
@[simp] theorem mach_sched_free (m : Mach) (x : SchedState) : ({ m with sched := x } : Mach).free = m.free := rfl
@[simp] theorem mach_doors_time (m : Mach) (x : Two DoorState) : ({ m with doors := x } : Mach).time = m.time := rfl
@[simp] theorem mach_doors_params (m : Mach) (x : Two DoorState) : ({ m with doors := x } : Mach).params = m.params := rfl
@[simp] theorem mach_doors_deferred (m : Mach) (x : Two DoorState) : ({ m with doors := x } : Mach).deferred = m.deferred := rfl
@[simp] theorem mach_doors_faults (m : Mach) (x : Two DoorState) : ({ m with doors := x } : Mach).faults = m.faults := rfl
@[simp] theorem mach_doors_units (m : Mach) (x : Two DoorState) : ({ m with doors := x } : Mach).units = m.units := rfl
@[simp] theorem mach_doors_enables (m : Mach) (x : Two DoorState) : ({ m with doors := x } : Mach).enables = m.enables := rfl
@[simp] theorem mach_doors_groups (m : Mach) (x : Two DoorState) : ({ m with doors := x } : Mach).groups = m.groups := rfl
@[simp] theorem mach_doors_groupsNext (m : Mach) (x : Two DoorState) : ({ m with doors := x } : Mach).groupsNext = m.groupsNext := rfl
@[simp] theorem mach_doors_ecc (m : Mach) (x : Two DoorState) : ({ m with doors := x } : Mach).ecc = m.ecc := rfl
@[simp] theorem mach_doors_mram (m : Mach) (x : Two DoorState) : ({ m with doors := x } : Mach).mram = m.mram := rfl
@[simp] theorem mach_doors_mramBad (m : Mach) (x : Two DoorState) : ({ m with doors := x } : Mach).mramBad = m.mramBad := rfl
@[simp] theorem mach_doors_pos (m : Mach) (x : Two DoorState) : ({ m with doors := x } : Mach).pos = m.pos := rfl
@[simp] theorem mach_doors_eng (m : Mach) (x : Two DoorState) : ({ m with doors := x } : Mach).eng = m.eng := rfl
@[simp] theorem mach_doors_sched (m : Mach) (x : Two DoorState) : ({ m with doors := x } : Mach).sched = m.sched := rfl
@[simp] theorem mach_doors_doors (m : Mach) (x : Two DoorState) : ({ m with doors := x } : Mach).doors = x := rfl
@[simp] theorem mach_doors_safe (m : Mach) (x : Two DoorState) : ({ m with doors := x } : Mach).safe = m.safe := rfl
@[simp] theorem mach_doors_cab (m : Mach) (x : Two DoorState) : ({ m with doors := x } : Mach).cab = m.cab := rfl
@[simp] theorem mach_doors_triad (m : Mach) (x : Two DoorState) : ({ m with doors := x } : Mach).triad = m.triad := rfl
@[simp] theorem mach_doors_pair (m : Mach) (x : Two DoorState) : ({ m with doors := x } : Mach).pair = m.pair := rfl
@[simp] theorem mach_doors_link (m : Mach) (x : Two DoorState) : ({ m with doors := x } : Mach).link = m.link := rfl
@[simp] theorem mach_doors_field (m : Mach) (x : Two DoorState) : ({ m with doors := x } : Mach).field = m.field := rfl
@[simp] theorem mach_doors_bus (m : Mach) (x : Two DoorState) : ({ m with doors := x } : Mach).bus = m.bus := rfl
@[simp] theorem mach_doors_meter (m : Mach) (x : Two DoorState) : ({ m with doors := x } : Mach).meter = m.meter := rfl
@[simp] theorem mach_doors_rcd (m : Mach) (x : Two DoorState) : ({ m with doors := x } : Mach).rcd = m.rcd := rfl
@[simp] theorem mach_doors_host (m : Mach) (x : Two DoorState) : ({ m with doors := x } : Mach).host = m.host := rfl
@[simp] theorem mach_doors_power (m : Mach) (x : Two DoorState) : ({ m with doors := x } : Mach).power = m.power := rfl
@[simp] theorem mach_doors_sec (m : Mach) (x : Two DoorState) : ({ m with doors := x } : Mach).sec = m.sec := rfl
@[simp] theorem mach_doors_start (m : Mach) (x : Two DoorState) : ({ m with doors := x } : Mach).start = m.start := rfl
@[simp] theorem mach_doors_free (m : Mach) (x : Two DoorState) : ({ m with doors := x } : Mach).free = m.free := rfl
@[simp] theorem mach_safe_time (m : Mach) (x : SafetyState) : ({ m with safe := x } : Mach).time = m.time := rfl
@[simp] theorem mach_safe_params (m : Mach) (x : SafetyState) : ({ m with safe := x } : Mach).params = m.params := rfl
@[simp] theorem mach_safe_deferred (m : Mach) (x : SafetyState) : ({ m with safe := x } : Mach).deferred = m.deferred := rfl
@[simp] theorem mach_safe_faults (m : Mach) (x : SafetyState) : ({ m with safe := x } : Mach).faults = m.faults := rfl
@[simp] theorem mach_safe_units (m : Mach) (x : SafetyState) : ({ m with safe := x } : Mach).units = m.units := rfl
@[simp] theorem mach_safe_enables (m : Mach) (x : SafetyState) : ({ m with safe := x } : Mach).enables = m.enables := rfl
@[simp] theorem mach_safe_groups (m : Mach) (x : SafetyState) : ({ m with safe := x } : Mach).groups = m.groups := rfl
@[simp] theorem mach_safe_groupsNext (m : Mach) (x : SafetyState) : ({ m with safe := x } : Mach).groupsNext = m.groupsNext := rfl
@[simp] theorem mach_safe_ecc (m : Mach) (x : SafetyState) : ({ m with safe := x } : Mach).ecc = m.ecc := rfl
@[simp] theorem mach_safe_mram (m : Mach) (x : SafetyState) : ({ m with safe := x } : Mach).mram = m.mram := rfl
@[simp] theorem mach_safe_mramBad (m : Mach) (x : SafetyState) : ({ m with safe := x } : Mach).mramBad = m.mramBad := rfl
@[simp] theorem mach_safe_pos (m : Mach) (x : SafetyState) : ({ m with safe := x } : Mach).pos = m.pos := rfl
@[simp] theorem mach_safe_eng (m : Mach) (x : SafetyState) : ({ m with safe := x } : Mach).eng = m.eng := rfl
@[simp] theorem mach_safe_sched (m : Mach) (x : SafetyState) : ({ m with safe := x } : Mach).sched = m.sched := rfl
@[simp] theorem mach_safe_doors (m : Mach) (x : SafetyState) : ({ m with safe := x } : Mach).doors = m.doors := rfl
@[simp] theorem mach_safe_safe (m : Mach) (x : SafetyState) : ({ m with safe := x } : Mach).safe = x := rfl
@[simp] theorem mach_safe_cab (m : Mach) (x : SafetyState) : ({ m with safe := x } : Mach).cab = m.cab := rfl
@[simp] theorem mach_safe_triad (m : Mach) (x : SafetyState) : ({ m with safe := x } : Mach).triad = m.triad := rfl
@[simp] theorem mach_safe_pair (m : Mach) (x : SafetyState) : ({ m with safe := x } : Mach).pair = m.pair := rfl
@[simp] theorem mach_safe_link (m : Mach) (x : SafetyState) : ({ m with safe := x } : Mach).link = m.link := rfl
@[simp] theorem mach_safe_field (m : Mach) (x : SafetyState) : ({ m with safe := x } : Mach).field = m.field := rfl
@[simp] theorem mach_safe_bus (m : Mach) (x : SafetyState) : ({ m with safe := x } : Mach).bus = m.bus := rfl
@[simp] theorem mach_safe_meter (m : Mach) (x : SafetyState) : ({ m with safe := x } : Mach).meter = m.meter := rfl
@[simp] theorem mach_safe_rcd (m : Mach) (x : SafetyState) : ({ m with safe := x } : Mach).rcd = m.rcd := rfl
@[simp] theorem mach_safe_host (m : Mach) (x : SafetyState) : ({ m with safe := x } : Mach).host = m.host := rfl
@[simp] theorem mach_safe_power (m : Mach) (x : SafetyState) : ({ m with safe := x } : Mach).power = m.power := rfl
@[simp] theorem mach_safe_sec (m : Mach) (x : SafetyState) : ({ m with safe := x } : Mach).sec = m.sec := rfl
@[simp] theorem mach_safe_start (m : Mach) (x : SafetyState) : ({ m with safe := x } : Mach).start = m.start := rfl
@[simp] theorem mach_safe_free (m : Mach) (x : SafetyState) : ({ m with safe := x } : Mach).free = m.free := rfl
@[simp] theorem mach_cab_time (m : Mach) (x : CabinetState) : ({ m with cab := x } : Mach).time = m.time := rfl
@[simp] theorem mach_cab_params (m : Mach) (x : CabinetState) : ({ m with cab := x } : Mach).params = m.params := rfl
@[simp] theorem mach_cab_deferred (m : Mach) (x : CabinetState) : ({ m with cab := x } : Mach).deferred = m.deferred := rfl
@[simp] theorem mach_cab_faults (m : Mach) (x : CabinetState) : ({ m with cab := x } : Mach).faults = m.faults := rfl
@[simp] theorem mach_cab_units (m : Mach) (x : CabinetState) : ({ m with cab := x } : Mach).units = m.units := rfl
@[simp] theorem mach_cab_enables (m : Mach) (x : CabinetState) : ({ m with cab := x } : Mach).enables = m.enables := rfl
@[simp] theorem mach_cab_groups (m : Mach) (x : CabinetState) : ({ m with cab := x } : Mach).groups = m.groups := rfl
@[simp] theorem mach_cab_groupsNext (m : Mach) (x : CabinetState) : ({ m with cab := x } : Mach).groupsNext = m.groupsNext := rfl
@[simp] theorem mach_cab_ecc (m : Mach) (x : CabinetState) : ({ m with cab := x } : Mach).ecc = m.ecc := rfl
@[simp] theorem mach_cab_mram (m : Mach) (x : CabinetState) : ({ m with cab := x } : Mach).mram = m.mram := rfl
@[simp] theorem mach_cab_mramBad (m : Mach) (x : CabinetState) : ({ m with cab := x } : Mach).mramBad = m.mramBad := rfl
@[simp] theorem mach_cab_pos (m : Mach) (x : CabinetState) : ({ m with cab := x } : Mach).pos = m.pos := rfl
@[simp] theorem mach_cab_eng (m : Mach) (x : CabinetState) : ({ m with cab := x } : Mach).eng = m.eng := rfl
@[simp] theorem mach_cab_sched (m : Mach) (x : CabinetState) : ({ m with cab := x } : Mach).sched = m.sched := rfl
@[simp] theorem mach_cab_doors (m : Mach) (x : CabinetState) : ({ m with cab := x } : Mach).doors = m.doors := rfl
@[simp] theorem mach_cab_safe (m : Mach) (x : CabinetState) : ({ m with cab := x } : Mach).safe = m.safe := rfl
@[simp] theorem mach_cab_cab (m : Mach) (x : CabinetState) : ({ m with cab := x } : Mach).cab = x := rfl
@[simp] theorem mach_cab_triad (m : Mach) (x : CabinetState) : ({ m with cab := x } : Mach).triad = m.triad := rfl
@[simp] theorem mach_cab_pair (m : Mach) (x : CabinetState) : ({ m with cab := x } : Mach).pair = m.pair := rfl
@[simp] theorem mach_cab_link (m : Mach) (x : CabinetState) : ({ m with cab := x } : Mach).link = m.link := rfl
@[simp] theorem mach_cab_field (m : Mach) (x : CabinetState) : ({ m with cab := x } : Mach).field = m.field := rfl
@[simp] theorem mach_cab_bus (m : Mach) (x : CabinetState) : ({ m with cab := x } : Mach).bus = m.bus := rfl
@[simp] theorem mach_cab_meter (m : Mach) (x : CabinetState) : ({ m with cab := x } : Mach).meter = m.meter := rfl
@[simp] theorem mach_cab_rcd (m : Mach) (x : CabinetState) : ({ m with cab := x } : Mach).rcd = m.rcd := rfl
@[simp] theorem mach_cab_host (m : Mach) (x : CabinetState) : ({ m with cab := x } : Mach).host = m.host := rfl
@[simp] theorem mach_cab_power (m : Mach) (x : CabinetState) : ({ m with cab := x } : Mach).power = m.power := rfl
@[simp] theorem mach_cab_sec (m : Mach) (x : CabinetState) : ({ m with cab := x } : Mach).sec = m.sec := rfl
@[simp] theorem mach_cab_start (m : Mach) (x : CabinetState) : ({ m with cab := x } : Mach).start = m.start := rfl
@[simp] theorem mach_cab_free (m : Mach) (x : CabinetState) : ({ m with cab := x } : Mach).free = m.free := rfl
@[simp] theorem mach_triad_time (m : Mach) (x : TriadState) : ({ m with triad := x } : Mach).time = m.time := rfl
@[simp] theorem mach_triad_params (m : Mach) (x : TriadState) : ({ m with triad := x } : Mach).params = m.params := rfl
@[simp] theorem mach_triad_deferred (m : Mach) (x : TriadState) : ({ m with triad := x } : Mach).deferred = m.deferred := rfl
@[simp] theorem mach_triad_faults (m : Mach) (x : TriadState) : ({ m with triad := x } : Mach).faults = m.faults := rfl
@[simp] theorem mach_triad_units (m : Mach) (x : TriadState) : ({ m with triad := x } : Mach).units = m.units := rfl
@[simp] theorem mach_triad_enables (m : Mach) (x : TriadState) : ({ m with triad := x } : Mach).enables = m.enables := rfl
@[simp] theorem mach_triad_groups (m : Mach) (x : TriadState) : ({ m with triad := x } : Mach).groups = m.groups := rfl
@[simp] theorem mach_triad_groupsNext (m : Mach) (x : TriadState) : ({ m with triad := x } : Mach).groupsNext = m.groupsNext := rfl
@[simp] theorem mach_triad_ecc (m : Mach) (x : TriadState) : ({ m with triad := x } : Mach).ecc = m.ecc := rfl
@[simp] theorem mach_triad_mram (m : Mach) (x : TriadState) : ({ m with triad := x } : Mach).mram = m.mram := rfl
@[simp] theorem mach_triad_mramBad (m : Mach) (x : TriadState) : ({ m with triad := x } : Mach).mramBad = m.mramBad := rfl
@[simp] theorem mach_triad_pos (m : Mach) (x : TriadState) : ({ m with triad := x } : Mach).pos = m.pos := rfl
@[simp] theorem mach_triad_eng (m : Mach) (x : TriadState) : ({ m with triad := x } : Mach).eng = m.eng := rfl
@[simp] theorem mach_triad_sched (m : Mach) (x : TriadState) : ({ m with triad := x } : Mach).sched = m.sched := rfl
@[simp] theorem mach_triad_doors (m : Mach) (x : TriadState) : ({ m with triad := x } : Mach).doors = m.doors := rfl
@[simp] theorem mach_triad_safe (m : Mach) (x : TriadState) : ({ m with triad := x } : Mach).safe = m.safe := rfl
@[simp] theorem mach_triad_cab (m : Mach) (x : TriadState) : ({ m with triad := x } : Mach).cab = m.cab := rfl
@[simp] theorem mach_triad_triad (m : Mach) (x : TriadState) : ({ m with triad := x } : Mach).triad = x := rfl
@[simp] theorem mach_triad_pair (m : Mach) (x : TriadState) : ({ m with triad := x } : Mach).pair = m.pair := rfl
@[simp] theorem mach_triad_link (m : Mach) (x : TriadState) : ({ m with triad := x } : Mach).link = m.link := rfl
@[simp] theorem mach_triad_field (m : Mach) (x : TriadState) : ({ m with triad := x } : Mach).field = m.field := rfl
@[simp] theorem mach_triad_bus (m : Mach) (x : TriadState) : ({ m with triad := x } : Mach).bus = m.bus := rfl
@[simp] theorem mach_triad_meter (m : Mach) (x : TriadState) : ({ m with triad := x } : Mach).meter = m.meter := rfl
@[simp] theorem mach_triad_rcd (m : Mach) (x : TriadState) : ({ m with triad := x } : Mach).rcd = m.rcd := rfl
@[simp] theorem mach_triad_host (m : Mach) (x : TriadState) : ({ m with triad := x } : Mach).host = m.host := rfl
@[simp] theorem mach_triad_power (m : Mach) (x : TriadState) : ({ m with triad := x } : Mach).power = m.power := rfl
@[simp] theorem mach_triad_sec (m : Mach) (x : TriadState) : ({ m with triad := x } : Mach).sec = m.sec := rfl
@[simp] theorem mach_triad_start (m : Mach) (x : TriadState) : ({ m with triad := x } : Mach).start = m.start := rfl
@[simp] theorem mach_triad_free (m : Mach) (x : TriadState) : ({ m with triad := x } : Mach).free = m.free := rfl
@[simp] theorem mach_pair_time (m : Mach) (x : PairPState) : ({ m with pair := x } : Mach).time = m.time := rfl
@[simp] theorem mach_pair_params (m : Mach) (x : PairPState) : ({ m with pair := x } : Mach).params = m.params := rfl
@[simp] theorem mach_pair_deferred (m : Mach) (x : PairPState) : ({ m with pair := x } : Mach).deferred = m.deferred := rfl
@[simp] theorem mach_pair_faults (m : Mach) (x : PairPState) : ({ m with pair := x } : Mach).faults = m.faults := rfl
@[simp] theorem mach_pair_units (m : Mach) (x : PairPState) : ({ m with pair := x } : Mach).units = m.units := rfl
@[simp] theorem mach_pair_enables (m : Mach) (x : PairPState) : ({ m with pair := x } : Mach).enables = m.enables := rfl
@[simp] theorem mach_pair_groups (m : Mach) (x : PairPState) : ({ m with pair := x } : Mach).groups = m.groups := rfl
@[simp] theorem mach_pair_groupsNext (m : Mach) (x : PairPState) : ({ m with pair := x } : Mach).groupsNext = m.groupsNext := rfl
@[simp] theorem mach_pair_ecc (m : Mach) (x : PairPState) : ({ m with pair := x } : Mach).ecc = m.ecc := rfl
@[simp] theorem mach_pair_mram (m : Mach) (x : PairPState) : ({ m with pair := x } : Mach).mram = m.mram := rfl
@[simp] theorem mach_pair_mramBad (m : Mach) (x : PairPState) : ({ m with pair := x } : Mach).mramBad = m.mramBad := rfl
@[simp] theorem mach_pair_pos (m : Mach) (x : PairPState) : ({ m with pair := x } : Mach).pos = m.pos := rfl
@[simp] theorem mach_pair_eng (m : Mach) (x : PairPState) : ({ m with pair := x } : Mach).eng = m.eng := rfl
@[simp] theorem mach_pair_sched (m : Mach) (x : PairPState) : ({ m with pair := x } : Mach).sched = m.sched := rfl
@[simp] theorem mach_pair_doors (m : Mach) (x : PairPState) : ({ m with pair := x } : Mach).doors = m.doors := rfl
@[simp] theorem mach_pair_safe (m : Mach) (x : PairPState) : ({ m with pair := x } : Mach).safe = m.safe := rfl
@[simp] theorem mach_pair_cab (m : Mach) (x : PairPState) : ({ m with pair := x } : Mach).cab = m.cab := rfl
@[simp] theorem mach_pair_triad (m : Mach) (x : PairPState) : ({ m with pair := x } : Mach).triad = m.triad := rfl
@[simp] theorem mach_pair_pair (m : Mach) (x : PairPState) : ({ m with pair := x } : Mach).pair = x := rfl
@[simp] theorem mach_pair_link (m : Mach) (x : PairPState) : ({ m with pair := x } : Mach).link = m.link := rfl
@[simp] theorem mach_pair_field (m : Mach) (x : PairPState) : ({ m with pair := x } : Mach).field = m.field := rfl
@[simp] theorem mach_pair_bus (m : Mach) (x : PairPState) : ({ m with pair := x } : Mach).bus = m.bus := rfl
@[simp] theorem mach_pair_meter (m : Mach) (x : PairPState) : ({ m with pair := x } : Mach).meter = m.meter := rfl
@[simp] theorem mach_pair_rcd (m : Mach) (x : PairPState) : ({ m with pair := x } : Mach).rcd = m.rcd := rfl
@[simp] theorem mach_pair_host (m : Mach) (x : PairPState) : ({ m with pair := x } : Mach).host = m.host := rfl
@[simp] theorem mach_pair_power (m : Mach) (x : PairPState) : ({ m with pair := x } : Mach).power = m.power := rfl
@[simp] theorem mach_pair_sec (m : Mach) (x : PairPState) : ({ m with pair := x } : Mach).sec = m.sec := rfl
@[simp] theorem mach_pair_start (m : Mach) (x : PairPState) : ({ m with pair := x } : Mach).start = m.start := rfl
@[simp] theorem mach_pair_free (m : Mach) (x : PairPState) : ({ m with pair := x } : Mach).free = m.free := rfl
@[simp] theorem mach_link_time (m : Mach) (x : LinkState) : ({ m with link := x } : Mach).time = m.time := rfl
@[simp] theorem mach_link_params (m : Mach) (x : LinkState) : ({ m with link := x } : Mach).params = m.params := rfl
@[simp] theorem mach_link_deferred (m : Mach) (x : LinkState) : ({ m with link := x } : Mach).deferred = m.deferred := rfl
@[simp] theorem mach_link_faults (m : Mach) (x : LinkState) : ({ m with link := x } : Mach).faults = m.faults := rfl
@[simp] theorem mach_link_units (m : Mach) (x : LinkState) : ({ m with link := x } : Mach).units = m.units := rfl
@[simp] theorem mach_link_enables (m : Mach) (x : LinkState) : ({ m with link := x } : Mach).enables = m.enables := rfl
@[simp] theorem mach_link_groups (m : Mach) (x : LinkState) : ({ m with link := x } : Mach).groups = m.groups := rfl
@[simp] theorem mach_link_groupsNext (m : Mach) (x : LinkState) : ({ m with link := x } : Mach).groupsNext = m.groupsNext := rfl
@[simp] theorem mach_link_ecc (m : Mach) (x : LinkState) : ({ m with link := x } : Mach).ecc = m.ecc := rfl
@[simp] theorem mach_link_mram (m : Mach) (x : LinkState) : ({ m with link := x } : Mach).mram = m.mram := rfl
@[simp] theorem mach_link_mramBad (m : Mach) (x : LinkState) : ({ m with link := x } : Mach).mramBad = m.mramBad := rfl
@[simp] theorem mach_link_pos (m : Mach) (x : LinkState) : ({ m with link := x } : Mach).pos = m.pos := rfl
@[simp] theorem mach_link_eng (m : Mach) (x : LinkState) : ({ m with link := x } : Mach).eng = m.eng := rfl
@[simp] theorem mach_link_sched (m : Mach) (x : LinkState) : ({ m with link := x } : Mach).sched = m.sched := rfl
@[simp] theorem mach_link_doors (m : Mach) (x : LinkState) : ({ m with link := x } : Mach).doors = m.doors := rfl
@[simp] theorem mach_link_safe (m : Mach) (x : LinkState) : ({ m with link := x } : Mach).safe = m.safe := rfl
@[simp] theorem mach_link_cab (m : Mach) (x : LinkState) : ({ m with link := x } : Mach).cab = m.cab := rfl
@[simp] theorem mach_link_triad (m : Mach) (x : LinkState) : ({ m with link := x } : Mach).triad = m.triad := rfl
@[simp] theorem mach_link_pair (m : Mach) (x : LinkState) : ({ m with link := x } : Mach).pair = m.pair := rfl
@[simp] theorem mach_link_link (m : Mach) (x : LinkState) : ({ m with link := x } : Mach).link = x := rfl
@[simp] theorem mach_link_field (m : Mach) (x : LinkState) : ({ m with link := x } : Mach).field = m.field := rfl
@[simp] theorem mach_link_bus (m : Mach) (x : LinkState) : ({ m with link := x } : Mach).bus = m.bus := rfl
@[simp] theorem mach_link_meter (m : Mach) (x : LinkState) : ({ m with link := x } : Mach).meter = m.meter := rfl
@[simp] theorem mach_link_rcd (m : Mach) (x : LinkState) : ({ m with link := x } : Mach).rcd = m.rcd := rfl
@[simp] theorem mach_link_host (m : Mach) (x : LinkState) : ({ m with link := x } : Mach).host = m.host := rfl
@[simp] theorem mach_link_power (m : Mach) (x : LinkState) : ({ m with link := x } : Mach).power = m.power := rfl
@[simp] theorem mach_link_sec (m : Mach) (x : LinkState) : ({ m with link := x } : Mach).sec = m.sec := rfl
@[simp] theorem mach_link_start (m : Mach) (x : LinkState) : ({ m with link := x } : Mach).start = m.start := rfl
@[simp] theorem mach_link_free (m : Mach) (x : LinkState) : ({ m with link := x } : Mach).free = m.free := rfl
@[simp] theorem mach_field_time (m : Mach) (x : FieldState) : ({ m with field := x } : Mach).time = m.time := rfl
@[simp] theorem mach_field_params (m : Mach) (x : FieldState) : ({ m with field := x } : Mach).params = m.params := rfl
@[simp] theorem mach_field_deferred (m : Mach) (x : FieldState) : ({ m with field := x } : Mach).deferred = m.deferred := rfl
@[simp] theorem mach_field_faults (m : Mach) (x : FieldState) : ({ m with field := x } : Mach).faults = m.faults := rfl
@[simp] theorem mach_field_units (m : Mach) (x : FieldState) : ({ m with field := x } : Mach).units = m.units := rfl
@[simp] theorem mach_field_enables (m : Mach) (x : FieldState) : ({ m with field := x } : Mach).enables = m.enables := rfl
@[simp] theorem mach_field_groups (m : Mach) (x : FieldState) : ({ m with field := x } : Mach).groups = m.groups := rfl
@[simp] theorem mach_field_groupsNext (m : Mach) (x : FieldState) : ({ m with field := x } : Mach).groupsNext = m.groupsNext := rfl
@[simp] theorem mach_field_ecc (m : Mach) (x : FieldState) : ({ m with field := x } : Mach).ecc = m.ecc := rfl
@[simp] theorem mach_field_mram (m : Mach) (x : FieldState) : ({ m with field := x } : Mach).mram = m.mram := rfl
@[simp] theorem mach_field_mramBad (m : Mach) (x : FieldState) : ({ m with field := x } : Mach).mramBad = m.mramBad := rfl
@[simp] theorem mach_field_pos (m : Mach) (x : FieldState) : ({ m with field := x } : Mach).pos = m.pos := rfl
@[simp] theorem mach_field_eng (m : Mach) (x : FieldState) : ({ m with field := x } : Mach).eng = m.eng := rfl
@[simp] theorem mach_field_sched (m : Mach) (x : FieldState) : ({ m with field := x } : Mach).sched = m.sched := rfl
@[simp] theorem mach_field_doors (m : Mach) (x : FieldState) : ({ m with field := x } : Mach).doors = m.doors := rfl
@[simp] theorem mach_field_safe (m : Mach) (x : FieldState) : ({ m with field := x } : Mach).safe = m.safe := rfl
@[simp] theorem mach_field_cab (m : Mach) (x : FieldState) : ({ m with field := x } : Mach).cab = m.cab := rfl
@[simp] theorem mach_field_triad (m : Mach) (x : FieldState) : ({ m with field := x } : Mach).triad = m.triad := rfl
@[simp] theorem mach_field_pair (m : Mach) (x : FieldState) : ({ m with field := x } : Mach).pair = m.pair := rfl
@[simp] theorem mach_field_link (m : Mach) (x : FieldState) : ({ m with field := x } : Mach).link = m.link := rfl
@[simp] theorem mach_field_field (m : Mach) (x : FieldState) : ({ m with field := x } : Mach).field = x := rfl
@[simp] theorem mach_field_bus (m : Mach) (x : FieldState) : ({ m with field := x } : Mach).bus = m.bus := rfl
@[simp] theorem mach_field_meter (m : Mach) (x : FieldState) : ({ m with field := x } : Mach).meter = m.meter := rfl
@[simp] theorem mach_field_rcd (m : Mach) (x : FieldState) : ({ m with field := x } : Mach).rcd = m.rcd := rfl
@[simp] theorem mach_field_host (m : Mach) (x : FieldState) : ({ m with field := x } : Mach).host = m.host := rfl
@[simp] theorem mach_field_power (m : Mach) (x : FieldState) : ({ m with field := x } : Mach).power = m.power := rfl
@[simp] theorem mach_field_sec (m : Mach) (x : FieldState) : ({ m with field := x } : Mach).sec = m.sec := rfl
@[simp] theorem mach_field_start (m : Mach) (x : FieldState) : ({ m with field := x } : Mach).start = m.start := rfl
@[simp] theorem mach_field_free (m : Mach) (x : FieldState) : ({ m with field := x } : Mach).free = m.free := rfl
@[simp] theorem mach_bus_time (m : Mach) (x : BusState) : ({ m with bus := x } : Mach).time = m.time := rfl
@[simp] theorem mach_bus_params (m : Mach) (x : BusState) : ({ m with bus := x } : Mach).params = m.params := rfl
@[simp] theorem mach_bus_deferred (m : Mach) (x : BusState) : ({ m with bus := x } : Mach).deferred = m.deferred := rfl
@[simp] theorem mach_bus_faults (m : Mach) (x : BusState) : ({ m with bus := x } : Mach).faults = m.faults := rfl
@[simp] theorem mach_bus_units (m : Mach) (x : BusState) : ({ m with bus := x } : Mach).units = m.units := rfl
@[simp] theorem mach_bus_enables (m : Mach) (x : BusState) : ({ m with bus := x } : Mach).enables = m.enables := rfl
@[simp] theorem mach_bus_groups (m : Mach) (x : BusState) : ({ m with bus := x } : Mach).groups = m.groups := rfl
@[simp] theorem mach_bus_groupsNext (m : Mach) (x : BusState) : ({ m with bus := x } : Mach).groupsNext = m.groupsNext := rfl
@[simp] theorem mach_bus_ecc (m : Mach) (x : BusState) : ({ m with bus := x } : Mach).ecc = m.ecc := rfl
@[simp] theorem mach_bus_mram (m : Mach) (x : BusState) : ({ m with bus := x } : Mach).mram = m.mram := rfl
@[simp] theorem mach_bus_mramBad (m : Mach) (x : BusState) : ({ m with bus := x } : Mach).mramBad = m.mramBad := rfl
@[simp] theorem mach_bus_pos (m : Mach) (x : BusState) : ({ m with bus := x } : Mach).pos = m.pos := rfl
@[simp] theorem mach_bus_eng (m : Mach) (x : BusState) : ({ m with bus := x } : Mach).eng = m.eng := rfl
@[simp] theorem mach_bus_sched (m : Mach) (x : BusState) : ({ m with bus := x } : Mach).sched = m.sched := rfl
@[simp] theorem mach_bus_doors (m : Mach) (x : BusState) : ({ m with bus := x } : Mach).doors = m.doors := rfl
@[simp] theorem mach_bus_safe (m : Mach) (x : BusState) : ({ m with bus := x } : Mach).safe = m.safe := rfl
@[simp] theorem mach_bus_cab (m : Mach) (x : BusState) : ({ m with bus := x } : Mach).cab = m.cab := rfl
@[simp] theorem mach_bus_triad (m : Mach) (x : BusState) : ({ m with bus := x } : Mach).triad = m.triad := rfl
@[simp] theorem mach_bus_pair (m : Mach) (x : BusState) : ({ m with bus := x } : Mach).pair = m.pair := rfl
@[simp] theorem mach_bus_link (m : Mach) (x : BusState) : ({ m with bus := x } : Mach).link = m.link := rfl
@[simp] theorem mach_bus_field (m : Mach) (x : BusState) : ({ m with bus := x } : Mach).field = m.field := rfl
@[simp] theorem mach_bus_bus (m : Mach) (x : BusState) : ({ m with bus := x } : Mach).bus = x := rfl
@[simp] theorem mach_bus_meter (m : Mach) (x : BusState) : ({ m with bus := x } : Mach).meter = m.meter := rfl
@[simp] theorem mach_bus_rcd (m : Mach) (x : BusState) : ({ m with bus := x } : Mach).rcd = m.rcd := rfl
@[simp] theorem mach_bus_host (m : Mach) (x : BusState) : ({ m with bus := x } : Mach).host = m.host := rfl
@[simp] theorem mach_bus_power (m : Mach) (x : BusState) : ({ m with bus := x } : Mach).power = m.power := rfl
@[simp] theorem mach_bus_sec (m : Mach) (x : BusState) : ({ m with bus := x } : Mach).sec = m.sec := rfl
@[simp] theorem mach_bus_start (m : Mach) (x : BusState) : ({ m with bus := x } : Mach).start = m.start := rfl
@[simp] theorem mach_bus_free (m : Mach) (x : BusState) : ({ m with bus := x } : Mach).free = m.free := rfl
@[simp] theorem mach_meter_time (m : Mach) (x : MeterState) : ({ m with meter := x } : Mach).time = m.time := rfl
@[simp] theorem mach_meter_params (m : Mach) (x : MeterState) : ({ m with meter := x } : Mach).params = m.params := rfl
@[simp] theorem mach_meter_deferred (m : Mach) (x : MeterState) : ({ m with meter := x } : Mach).deferred = m.deferred := rfl
@[simp] theorem mach_meter_faults (m : Mach) (x : MeterState) : ({ m with meter := x } : Mach).faults = m.faults := rfl
@[simp] theorem mach_meter_units (m : Mach) (x : MeterState) : ({ m with meter := x } : Mach).units = m.units := rfl
@[simp] theorem mach_meter_enables (m : Mach) (x : MeterState) : ({ m with meter := x } : Mach).enables = m.enables := rfl
@[simp] theorem mach_meter_groups (m : Mach) (x : MeterState) : ({ m with meter := x } : Mach).groups = m.groups := rfl
@[simp] theorem mach_meter_groupsNext (m : Mach) (x : MeterState) : ({ m with meter := x } : Mach).groupsNext = m.groupsNext := rfl
@[simp] theorem mach_meter_ecc (m : Mach) (x : MeterState) : ({ m with meter := x } : Mach).ecc = m.ecc := rfl
@[simp] theorem mach_meter_mram (m : Mach) (x : MeterState) : ({ m with meter := x } : Mach).mram = m.mram := rfl
@[simp] theorem mach_meter_mramBad (m : Mach) (x : MeterState) : ({ m with meter := x } : Mach).mramBad = m.mramBad := rfl
@[simp] theorem mach_meter_pos (m : Mach) (x : MeterState) : ({ m with meter := x } : Mach).pos = m.pos := rfl
@[simp] theorem mach_meter_eng (m : Mach) (x : MeterState) : ({ m with meter := x } : Mach).eng = m.eng := rfl
@[simp] theorem mach_meter_sched (m : Mach) (x : MeterState) : ({ m with meter := x } : Mach).sched = m.sched := rfl
@[simp] theorem mach_meter_doors (m : Mach) (x : MeterState) : ({ m with meter := x } : Mach).doors = m.doors := rfl
@[simp] theorem mach_meter_safe (m : Mach) (x : MeterState) : ({ m with meter := x } : Mach).safe = m.safe := rfl
@[simp] theorem mach_meter_cab (m : Mach) (x : MeterState) : ({ m with meter := x } : Mach).cab = m.cab := rfl
@[simp] theorem mach_meter_triad (m : Mach) (x : MeterState) : ({ m with meter := x } : Mach).triad = m.triad := rfl
@[simp] theorem mach_meter_pair (m : Mach) (x : MeterState) : ({ m with meter := x } : Mach).pair = m.pair := rfl
@[simp] theorem mach_meter_link (m : Mach) (x : MeterState) : ({ m with meter := x } : Mach).link = m.link := rfl
@[simp] theorem mach_meter_field (m : Mach) (x : MeterState) : ({ m with meter := x } : Mach).field = m.field := rfl
@[simp] theorem mach_meter_bus (m : Mach) (x : MeterState) : ({ m with meter := x } : Mach).bus = m.bus := rfl
@[simp] theorem mach_meter_meter (m : Mach) (x : MeterState) : ({ m with meter := x } : Mach).meter = x := rfl
@[simp] theorem mach_meter_rcd (m : Mach) (x : MeterState) : ({ m with meter := x } : Mach).rcd = m.rcd := rfl
@[simp] theorem mach_meter_host (m : Mach) (x : MeterState) : ({ m with meter := x } : Mach).host = m.host := rfl
@[simp] theorem mach_meter_power (m : Mach) (x : MeterState) : ({ m with meter := x } : Mach).power = m.power := rfl
@[simp] theorem mach_meter_sec (m : Mach) (x : MeterState) : ({ m with meter := x } : Mach).sec = m.sec := rfl
@[simp] theorem mach_meter_start (m : Mach) (x : MeterState) : ({ m with meter := x } : Mach).start = m.start := rfl
@[simp] theorem mach_meter_free (m : Mach) (x : MeterState) : ({ m with meter := x } : Mach).free = m.free := rfl
@[simp] theorem mach_rcd_time (m : Mach) (x : RecorderState) : ({ m with rcd := x } : Mach).time = m.time := rfl
@[simp] theorem mach_rcd_params (m : Mach) (x : RecorderState) : ({ m with rcd := x } : Mach).params = m.params := rfl
@[simp] theorem mach_rcd_deferred (m : Mach) (x : RecorderState) : ({ m with rcd := x } : Mach).deferred = m.deferred := rfl
@[simp] theorem mach_rcd_faults (m : Mach) (x : RecorderState) : ({ m with rcd := x } : Mach).faults = m.faults := rfl
@[simp] theorem mach_rcd_units (m : Mach) (x : RecorderState) : ({ m with rcd := x } : Mach).units = m.units := rfl
@[simp] theorem mach_rcd_enables (m : Mach) (x : RecorderState) : ({ m with rcd := x } : Mach).enables = m.enables := rfl
@[simp] theorem mach_rcd_groups (m : Mach) (x : RecorderState) : ({ m with rcd := x } : Mach).groups = m.groups := rfl
@[simp] theorem mach_rcd_groupsNext (m : Mach) (x : RecorderState) : ({ m with rcd := x } : Mach).groupsNext = m.groupsNext := rfl
@[simp] theorem mach_rcd_ecc (m : Mach) (x : RecorderState) : ({ m with rcd := x } : Mach).ecc = m.ecc := rfl
@[simp] theorem mach_rcd_mram (m : Mach) (x : RecorderState) : ({ m with rcd := x } : Mach).mram = m.mram := rfl
@[simp] theorem mach_rcd_mramBad (m : Mach) (x : RecorderState) : ({ m with rcd := x } : Mach).mramBad = m.mramBad := rfl
@[simp] theorem mach_rcd_pos (m : Mach) (x : RecorderState) : ({ m with rcd := x } : Mach).pos = m.pos := rfl
@[simp] theorem mach_rcd_eng (m : Mach) (x : RecorderState) : ({ m with rcd := x } : Mach).eng = m.eng := rfl
@[simp] theorem mach_rcd_sched (m : Mach) (x : RecorderState) : ({ m with rcd := x } : Mach).sched = m.sched := rfl
@[simp] theorem mach_rcd_doors (m : Mach) (x : RecorderState) : ({ m with rcd := x } : Mach).doors = m.doors := rfl
@[simp] theorem mach_rcd_safe (m : Mach) (x : RecorderState) : ({ m with rcd := x } : Mach).safe = m.safe := rfl
@[simp] theorem mach_rcd_cab (m : Mach) (x : RecorderState) : ({ m with rcd := x } : Mach).cab = m.cab := rfl
@[simp] theorem mach_rcd_triad (m : Mach) (x : RecorderState) : ({ m with rcd := x } : Mach).triad = m.triad := rfl
@[simp] theorem mach_rcd_pair (m : Mach) (x : RecorderState) : ({ m with rcd := x } : Mach).pair = m.pair := rfl
@[simp] theorem mach_rcd_link (m : Mach) (x : RecorderState) : ({ m with rcd := x } : Mach).link = m.link := rfl
@[simp] theorem mach_rcd_field (m : Mach) (x : RecorderState) : ({ m with rcd := x } : Mach).field = m.field := rfl
@[simp] theorem mach_rcd_bus (m : Mach) (x : RecorderState) : ({ m with rcd := x } : Mach).bus = m.bus := rfl
@[simp] theorem mach_rcd_meter (m : Mach) (x : RecorderState) : ({ m with rcd := x } : Mach).meter = m.meter := rfl
@[simp] theorem mach_rcd_rcd (m : Mach) (x : RecorderState) : ({ m with rcd := x } : Mach).rcd = x := rfl
@[simp] theorem mach_rcd_host (m : Mach) (x : RecorderState) : ({ m with rcd := x } : Mach).host = m.host := rfl
@[simp] theorem mach_rcd_power (m : Mach) (x : RecorderState) : ({ m with rcd := x } : Mach).power = m.power := rfl
@[simp] theorem mach_rcd_sec (m : Mach) (x : RecorderState) : ({ m with rcd := x } : Mach).sec = m.sec := rfl
@[simp] theorem mach_rcd_start (m : Mach) (x : RecorderState) : ({ m with rcd := x } : Mach).start = m.start := rfl
@[simp] theorem mach_rcd_free (m : Mach) (x : RecorderState) : ({ m with rcd := x } : Mach).free = m.free := rfl
@[simp] theorem mach_host_time (m : Mach) (x : HostState) : ({ m with host := x } : Mach).time = m.time := rfl
@[simp] theorem mach_host_params (m : Mach) (x : HostState) : ({ m with host := x } : Mach).params = m.params := rfl
@[simp] theorem mach_host_deferred (m : Mach) (x : HostState) : ({ m with host := x } : Mach).deferred = m.deferred := rfl
@[simp] theorem mach_host_faults (m : Mach) (x : HostState) : ({ m with host := x } : Mach).faults = m.faults := rfl
@[simp] theorem mach_host_units (m : Mach) (x : HostState) : ({ m with host := x } : Mach).units = m.units := rfl
@[simp] theorem mach_host_enables (m : Mach) (x : HostState) : ({ m with host := x } : Mach).enables = m.enables := rfl
@[simp] theorem mach_host_groups (m : Mach) (x : HostState) : ({ m with host := x } : Mach).groups = m.groups := rfl
@[simp] theorem mach_host_groupsNext (m : Mach) (x : HostState) : ({ m with host := x } : Mach).groupsNext = m.groupsNext := rfl
@[simp] theorem mach_host_ecc (m : Mach) (x : HostState) : ({ m with host := x } : Mach).ecc = m.ecc := rfl
@[simp] theorem mach_host_mram (m : Mach) (x : HostState) : ({ m with host := x } : Mach).mram = m.mram := rfl
@[simp] theorem mach_host_mramBad (m : Mach) (x : HostState) : ({ m with host := x } : Mach).mramBad = m.mramBad := rfl
@[simp] theorem mach_host_pos (m : Mach) (x : HostState) : ({ m with host := x } : Mach).pos = m.pos := rfl
@[simp] theorem mach_host_eng (m : Mach) (x : HostState) : ({ m with host := x } : Mach).eng = m.eng := rfl
@[simp] theorem mach_host_sched (m : Mach) (x : HostState) : ({ m with host := x } : Mach).sched = m.sched := rfl
@[simp] theorem mach_host_doors (m : Mach) (x : HostState) : ({ m with host := x } : Mach).doors = m.doors := rfl
@[simp] theorem mach_host_safe (m : Mach) (x : HostState) : ({ m with host := x } : Mach).safe = m.safe := rfl
@[simp] theorem mach_host_cab (m : Mach) (x : HostState) : ({ m with host := x } : Mach).cab = m.cab := rfl
@[simp] theorem mach_host_triad (m : Mach) (x : HostState) : ({ m with host := x } : Mach).triad = m.triad := rfl
@[simp] theorem mach_host_pair (m : Mach) (x : HostState) : ({ m with host := x } : Mach).pair = m.pair := rfl
@[simp] theorem mach_host_link (m : Mach) (x : HostState) : ({ m with host := x } : Mach).link = m.link := rfl
@[simp] theorem mach_host_field (m : Mach) (x : HostState) : ({ m with host := x } : Mach).field = m.field := rfl
@[simp] theorem mach_host_bus (m : Mach) (x : HostState) : ({ m with host := x } : Mach).bus = m.bus := rfl
@[simp] theorem mach_host_meter (m : Mach) (x : HostState) : ({ m with host := x } : Mach).meter = m.meter := rfl
@[simp] theorem mach_host_rcd (m : Mach) (x : HostState) : ({ m with host := x } : Mach).rcd = m.rcd := rfl
@[simp] theorem mach_host_host (m : Mach) (x : HostState) : ({ m with host := x } : Mach).host = x := rfl
@[simp] theorem mach_host_power (m : Mach) (x : HostState) : ({ m with host := x } : Mach).power = m.power := rfl
@[simp] theorem mach_host_sec (m : Mach) (x : HostState) : ({ m with host := x } : Mach).sec = m.sec := rfl
@[simp] theorem mach_host_start (m : Mach) (x : HostState) : ({ m with host := x } : Mach).start = m.start := rfl
@[simp] theorem mach_host_free (m : Mach) (x : HostState) : ({ m with host := x } : Mach).free = m.free := rfl
@[simp] theorem mach_power_time (m : Mach) (x : PowerState) : ({ m with power := x } : Mach).time = m.time := rfl
@[simp] theorem mach_power_params (m : Mach) (x : PowerState) : ({ m with power := x } : Mach).params = m.params := rfl
@[simp] theorem mach_power_deferred (m : Mach) (x : PowerState) : ({ m with power := x } : Mach).deferred = m.deferred := rfl
@[simp] theorem mach_power_faults (m : Mach) (x : PowerState) : ({ m with power := x } : Mach).faults = m.faults := rfl
@[simp] theorem mach_power_units (m : Mach) (x : PowerState) : ({ m with power := x } : Mach).units = m.units := rfl
@[simp] theorem mach_power_enables (m : Mach) (x : PowerState) : ({ m with power := x } : Mach).enables = m.enables := rfl
@[simp] theorem mach_power_groups (m : Mach) (x : PowerState) : ({ m with power := x } : Mach).groups = m.groups := rfl
@[simp] theorem mach_power_groupsNext (m : Mach) (x : PowerState) : ({ m with power := x } : Mach).groupsNext = m.groupsNext := rfl
@[simp] theorem mach_power_ecc (m : Mach) (x : PowerState) : ({ m with power := x } : Mach).ecc = m.ecc := rfl
@[simp] theorem mach_power_mram (m : Mach) (x : PowerState) : ({ m with power := x } : Mach).mram = m.mram := rfl
@[simp] theorem mach_power_mramBad (m : Mach) (x : PowerState) : ({ m with power := x } : Mach).mramBad = m.mramBad := rfl
@[simp] theorem mach_power_pos (m : Mach) (x : PowerState) : ({ m with power := x } : Mach).pos = m.pos := rfl
@[simp] theorem mach_power_eng (m : Mach) (x : PowerState) : ({ m with power := x } : Mach).eng = m.eng := rfl
@[simp] theorem mach_power_sched (m : Mach) (x : PowerState) : ({ m with power := x } : Mach).sched = m.sched := rfl
@[simp] theorem mach_power_doors (m : Mach) (x : PowerState) : ({ m with power := x } : Mach).doors = m.doors := rfl
@[simp] theorem mach_power_safe (m : Mach) (x : PowerState) : ({ m with power := x } : Mach).safe = m.safe := rfl
@[simp] theorem mach_power_cab (m : Mach) (x : PowerState) : ({ m with power := x } : Mach).cab = m.cab := rfl
@[simp] theorem mach_power_triad (m : Mach) (x : PowerState) : ({ m with power := x } : Mach).triad = m.triad := rfl
@[simp] theorem mach_power_pair (m : Mach) (x : PowerState) : ({ m with power := x } : Mach).pair = m.pair := rfl
@[simp] theorem mach_power_link (m : Mach) (x : PowerState) : ({ m with power := x } : Mach).link = m.link := rfl
@[simp] theorem mach_power_field (m : Mach) (x : PowerState) : ({ m with power := x } : Mach).field = m.field := rfl
@[simp] theorem mach_power_bus (m : Mach) (x : PowerState) : ({ m with power := x } : Mach).bus = m.bus := rfl
@[simp] theorem mach_power_meter (m : Mach) (x : PowerState) : ({ m with power := x } : Mach).meter = m.meter := rfl
@[simp] theorem mach_power_rcd (m : Mach) (x : PowerState) : ({ m with power := x } : Mach).rcd = m.rcd := rfl
@[simp] theorem mach_power_host (m : Mach) (x : PowerState) : ({ m with power := x } : Mach).host = m.host := rfl
@[simp] theorem mach_power_power (m : Mach) (x : PowerState) : ({ m with power := x } : Mach).power = x := rfl
@[simp] theorem mach_power_sec (m : Mach) (x : PowerState) : ({ m with power := x } : Mach).sec = m.sec := rfl
@[simp] theorem mach_power_start (m : Mach) (x : PowerState) : ({ m with power := x } : Mach).start = m.start := rfl
@[simp] theorem mach_power_free (m : Mach) (x : PowerState) : ({ m with power := x } : Mach).free = m.free := rfl
@[simp] theorem mach_sec_time (m : Mach) (x : SecState) : ({ m with sec := x } : Mach).time = m.time := rfl
@[simp] theorem mach_sec_params (m : Mach) (x : SecState) : ({ m with sec := x } : Mach).params = m.params := rfl
@[simp] theorem mach_sec_deferred (m : Mach) (x : SecState) : ({ m with sec := x } : Mach).deferred = m.deferred := rfl
@[simp] theorem mach_sec_faults (m : Mach) (x : SecState) : ({ m with sec := x } : Mach).faults = m.faults := rfl
@[simp] theorem mach_sec_units (m : Mach) (x : SecState) : ({ m with sec := x } : Mach).units = m.units := rfl
@[simp] theorem mach_sec_enables (m : Mach) (x : SecState) : ({ m with sec := x } : Mach).enables = m.enables := rfl
@[simp] theorem mach_sec_groups (m : Mach) (x : SecState) : ({ m with sec := x } : Mach).groups = m.groups := rfl
@[simp] theorem mach_sec_groupsNext (m : Mach) (x : SecState) : ({ m with sec := x } : Mach).groupsNext = m.groupsNext := rfl
@[simp] theorem mach_sec_ecc (m : Mach) (x : SecState) : ({ m with sec := x } : Mach).ecc = m.ecc := rfl
@[simp] theorem mach_sec_mram (m : Mach) (x : SecState) : ({ m with sec := x } : Mach).mram = m.mram := rfl
@[simp] theorem mach_sec_mramBad (m : Mach) (x : SecState) : ({ m with sec := x } : Mach).mramBad = m.mramBad := rfl
@[simp] theorem mach_sec_pos (m : Mach) (x : SecState) : ({ m with sec := x } : Mach).pos = m.pos := rfl
@[simp] theorem mach_sec_eng (m : Mach) (x : SecState) : ({ m with sec := x } : Mach).eng = m.eng := rfl
@[simp] theorem mach_sec_sched (m : Mach) (x : SecState) : ({ m with sec := x } : Mach).sched = m.sched := rfl
@[simp] theorem mach_sec_doors (m : Mach) (x : SecState) : ({ m with sec := x } : Mach).doors = m.doors := rfl
@[simp] theorem mach_sec_safe (m : Mach) (x : SecState) : ({ m with sec := x } : Mach).safe = m.safe := rfl
@[simp] theorem mach_sec_cab (m : Mach) (x : SecState) : ({ m with sec := x } : Mach).cab = m.cab := rfl
@[simp] theorem mach_sec_triad (m : Mach) (x : SecState) : ({ m with sec := x } : Mach).triad = m.triad := rfl
@[simp] theorem mach_sec_pair (m : Mach) (x : SecState) : ({ m with sec := x } : Mach).pair = m.pair := rfl
@[simp] theorem mach_sec_link (m : Mach) (x : SecState) : ({ m with sec := x } : Mach).link = m.link := rfl
@[simp] theorem mach_sec_field (m : Mach) (x : SecState) : ({ m with sec := x } : Mach).field = m.field := rfl
@[simp] theorem mach_sec_bus (m : Mach) (x : SecState) : ({ m with sec := x } : Mach).bus = m.bus := rfl
@[simp] theorem mach_sec_meter (m : Mach) (x : SecState) : ({ m with sec := x } : Mach).meter = m.meter := rfl
@[simp] theorem mach_sec_rcd (m : Mach) (x : SecState) : ({ m with sec := x } : Mach).rcd = m.rcd := rfl
@[simp] theorem mach_sec_host (m : Mach) (x : SecState) : ({ m with sec := x } : Mach).host = m.host := rfl
@[simp] theorem mach_sec_power (m : Mach) (x : SecState) : ({ m with sec := x } : Mach).power = m.power := rfl
@[simp] theorem mach_sec_sec (m : Mach) (x : SecState) : ({ m with sec := x } : Mach).sec = x := rfl
@[simp] theorem mach_sec_start (m : Mach) (x : SecState) : ({ m with sec := x } : Mach).start = m.start := rfl
@[simp] theorem mach_sec_free (m : Mach) (x : SecState) : ({ m with sec := x } : Mach).free = m.free := rfl
@[simp] theorem mach_start_time (m : Mach) (x : StartState) : ({ m with start := x } : Mach).time = m.time := rfl
@[simp] theorem mach_start_params (m : Mach) (x : StartState) : ({ m with start := x } : Mach).params = m.params := rfl
@[simp] theorem mach_start_deferred (m : Mach) (x : StartState) : ({ m with start := x } : Mach).deferred = m.deferred := rfl
@[simp] theorem mach_start_faults (m : Mach) (x : StartState) : ({ m with start := x } : Mach).faults = m.faults := rfl
@[simp] theorem mach_start_units (m : Mach) (x : StartState) : ({ m with start := x } : Mach).units = m.units := rfl
@[simp] theorem mach_start_enables (m : Mach) (x : StartState) : ({ m with start := x } : Mach).enables = m.enables := rfl
@[simp] theorem mach_start_groups (m : Mach) (x : StartState) : ({ m with start := x } : Mach).groups = m.groups := rfl
@[simp] theorem mach_start_groupsNext (m : Mach) (x : StartState) : ({ m with start := x } : Mach).groupsNext = m.groupsNext := rfl
@[simp] theorem mach_start_ecc (m : Mach) (x : StartState) : ({ m with start := x } : Mach).ecc = m.ecc := rfl
@[simp] theorem mach_start_mram (m : Mach) (x : StartState) : ({ m with start := x } : Mach).mram = m.mram := rfl
@[simp] theorem mach_start_mramBad (m : Mach) (x : StartState) : ({ m with start := x } : Mach).mramBad = m.mramBad := rfl
@[simp] theorem mach_start_pos (m : Mach) (x : StartState) : ({ m with start := x } : Mach).pos = m.pos := rfl
@[simp] theorem mach_start_eng (m : Mach) (x : StartState) : ({ m with start := x } : Mach).eng = m.eng := rfl
@[simp] theorem mach_start_sched (m : Mach) (x : StartState) : ({ m with start := x } : Mach).sched = m.sched := rfl
@[simp] theorem mach_start_doors (m : Mach) (x : StartState) : ({ m with start := x } : Mach).doors = m.doors := rfl
@[simp] theorem mach_start_safe (m : Mach) (x : StartState) : ({ m with start := x } : Mach).safe = m.safe := rfl
@[simp] theorem mach_start_cab (m : Mach) (x : StartState) : ({ m with start := x } : Mach).cab = m.cab := rfl
@[simp] theorem mach_start_triad (m : Mach) (x : StartState) : ({ m with start := x } : Mach).triad = m.triad := rfl
@[simp] theorem mach_start_pair (m : Mach) (x : StartState) : ({ m with start := x } : Mach).pair = m.pair := rfl
@[simp] theorem mach_start_link (m : Mach) (x : StartState) : ({ m with start := x } : Mach).link = m.link := rfl
@[simp] theorem mach_start_field (m : Mach) (x : StartState) : ({ m with start := x } : Mach).field = m.field := rfl
@[simp] theorem mach_start_bus (m : Mach) (x : StartState) : ({ m with start := x } : Mach).bus = m.bus := rfl
@[simp] theorem mach_start_meter (m : Mach) (x : StartState) : ({ m with start := x } : Mach).meter = m.meter := rfl
@[simp] theorem mach_start_rcd (m : Mach) (x : StartState) : ({ m with start := x } : Mach).rcd = m.rcd := rfl
@[simp] theorem mach_start_host (m : Mach) (x : StartState) : ({ m with start := x } : Mach).host = m.host := rfl
@[simp] theorem mach_start_power (m : Mach) (x : StartState) : ({ m with start := x } : Mach).power = m.power := rfl
@[simp] theorem mach_start_sec (m : Mach) (x : StartState) : ({ m with start := x } : Mach).sec = m.sec := rfl
@[simp] theorem mach_start_start (m : Mach) (x : StartState) : ({ m with start := x } : Mach).start = x := rfl
@[simp] theorem mach_start_free (m : Mach) (x : StartState) : ({ m with start := x } : Mach).free = m.free := rfl
@[simp] theorem mach_free_time (m : Mach) (x : Nat) : ({ m with free := x } : Mach).time = m.time := rfl
@[simp] theorem mach_free_params (m : Mach) (x : Nat) : ({ m with free := x } : Mach).params = m.params := rfl
@[simp] theorem mach_free_deferred (m : Mach) (x : Nat) : ({ m with free := x } : Mach).deferred = m.deferred := rfl
@[simp] theorem mach_free_faults (m : Mach) (x : Nat) : ({ m with free := x } : Mach).faults = m.faults := rfl
@[simp] theorem mach_free_units (m : Mach) (x : Nat) : ({ m with free := x } : Mach).units = m.units := rfl
@[simp] theorem mach_free_enables (m : Mach) (x : Nat) : ({ m with free := x } : Mach).enables = m.enables := rfl
@[simp] theorem mach_free_groups (m : Mach) (x : Nat) : ({ m with free := x } : Mach).groups = m.groups := rfl
@[simp] theorem mach_free_groupsNext (m : Mach) (x : Nat) : ({ m with free := x } : Mach).groupsNext = m.groupsNext := rfl
@[simp] theorem mach_free_ecc (m : Mach) (x : Nat) : ({ m with free := x } : Mach).ecc = m.ecc := rfl
@[simp] theorem mach_free_mram (m : Mach) (x : Nat) : ({ m with free := x } : Mach).mram = m.mram := rfl
@[simp] theorem mach_free_mramBad (m : Mach) (x : Nat) : ({ m with free := x } : Mach).mramBad = m.mramBad := rfl
@[simp] theorem mach_free_pos (m : Mach) (x : Nat) : ({ m with free := x } : Mach).pos = m.pos := rfl
@[simp] theorem mach_free_eng (m : Mach) (x : Nat) : ({ m with free := x } : Mach).eng = m.eng := rfl
@[simp] theorem mach_free_sched (m : Mach) (x : Nat) : ({ m with free := x } : Mach).sched = m.sched := rfl
@[simp] theorem mach_free_doors (m : Mach) (x : Nat) : ({ m with free := x } : Mach).doors = m.doors := rfl
@[simp] theorem mach_free_safe (m : Mach) (x : Nat) : ({ m with free := x } : Mach).safe = m.safe := rfl
@[simp] theorem mach_free_cab (m : Mach) (x : Nat) : ({ m with free := x } : Mach).cab = m.cab := rfl
@[simp] theorem mach_free_triad (m : Mach) (x : Nat) : ({ m with free := x } : Mach).triad = m.triad := rfl
@[simp] theorem mach_free_pair (m : Mach) (x : Nat) : ({ m with free := x } : Mach).pair = m.pair := rfl
@[simp] theorem mach_free_link (m : Mach) (x : Nat) : ({ m with free := x } : Mach).link = m.link := rfl
@[simp] theorem mach_free_field (m : Mach) (x : Nat) : ({ m with free := x } : Mach).field = m.field := rfl
@[simp] theorem mach_free_bus (m : Mach) (x : Nat) : ({ m with free := x } : Mach).bus = m.bus := rfl
@[simp] theorem mach_free_meter (m : Mach) (x : Nat) : ({ m with free := x } : Mach).meter = m.meter := rfl
@[simp] theorem mach_free_rcd (m : Mach) (x : Nat) : ({ m with free := x } : Mach).rcd = m.rcd := rfl
@[simp] theorem mach_free_host (m : Mach) (x : Nat) : ({ m with free := x } : Mach).host = m.host := rfl
@[simp] theorem mach_free_power (m : Mach) (x : Nat) : ({ m with free := x } : Mach).power = m.power := rfl
@[simp] theorem mach_free_sec (m : Mach) (x : Nat) : ({ m with free := x } : Mach).sec = m.sec := rfl
@[simp] theorem mach_free_start (m : Mach) (x : Nat) : ({ m with free := x } : Mach).start = m.start := rfl
@[simp] theorem mach_free_free (m : Mach) (x : Nat) : ({ m with free := x } : Mach).free = x := rfl
@[simp] theorem state_now_now (s : State) (x : Mach) : ({ s with now := x } : State).now = x := rfl
@[simp] theorem state_now_shown (s : State) (x : Mach) : ({ s with now := x } : State).shown = s.shown := rfl
@[simp] theorem state_now_pending (s : State) (x : Mach) : ({ s with now := x } : State).pending = s.pending := rfl
@[simp] theorem state_shown_now (s : State) (x : Mach) : ({ s with shown := x } : State).now = s.now := rfl
@[simp] theorem state_shown_shown (s : State) (x : Mach) : ({ s with shown := x } : State).shown = x := rfl
@[simp] theorem state_shown_pending (s : State) (x : Mach) : ({ s with shown := x } : State).pending = s.pending := rfl
@[simp] theorem state_pending_now (s : State) (x : List Instr) : ({ s with pending := x } : State).now = s.now := rfl
@[simp] theorem state_pending_shown (s : State) (x : List Instr) : ({ s with pending := x } : State).shown = s.shown := rfl
@[simp] theorem state_pending_pending (s : State) (x : List Instr) : ({ s with pending := x } : State).pending = x := rfl

end Sys2Proof.Laws
end

