-- ==== Sys2Proof/WellFormed.lean ====
section
/-!
DEFINITION. Which commands are well formed: the operands of a host command fit the fields of its request
payload (14 R460), and what an event carries fits the width or range the spec gives it. The meanings do
not rely on it: a command outside these bounds is judged by its own rules.
-/
namespace Sys2Proof

/-- A value of so many bits. -/
def fits (w n : Nat) : Bool := decide (n < 2 ^ w)

/-- A signed value of so many bits. -/
def signed (w : Nat) (x : Int) : Bool := decide (-(2 : Int) ^ (w - 1) ≤ x) && decide (x < (2 : Int) ^ (w - 1))

/-- Bytes. -/
def bytes (l : List Nat) : Bool := l.all (fits 8)

/-- 16-bit values. -/
def words (l : List Nat) : Bool := l.all (fits 16)

/-- Addresses in the MRAM (13 R435). -/
def addrs (l : List Nat) : Bool := l.all fun a => decide (a < 0x400000)

/-- Bytes of a length a CAN or CAN FD frame can have (11 R344). -/
def canData (l : List Nat) : Bool :=
  bytes l && (decide (l.length ≤ 8) || [12, 16, 20, 24, 32, 48, 64].contains l.length)

/-- A message of exactly so many bytes. -/
def message (n : Nat) (l : List Nat) : Bool := bytes l && l.length == n

/-- Seven 16-bit readings (12 R385). -/
def sevenReadings (l : List Int) : Bool := l.length == 7 && l.all (signed 16)

/-- From 1 to 64 entries whose IDs and values fit (14 R458). -/
def entriesOk (l : List SetEntry) : Bool :=
  decide (1 ≤ l.length) && decide (l.length ≤ 64) && l.all fun e => fits 16 e.id && bytes e.val && fits 16 e.val.length

/-- Entries of CAB_STAGE (14 R460). -/
def stagesOk (l : List StageEntry) : Bool :=
  fits 16 l.length && l.all fun e => fits 16 e.handle && fits 16 e.id && bytes e.val && fits 16 e.val.length

/-- A tape poll: position, status and CRC fit their fields (03 R63). -/
def TapePoll.wf (p : TapePoll) : Bool := fits 32 p.raw && fits 4 p.status && fits 6 p.crc

/-- An accelerometer sample (03 R70). -/
def AccSample.wf (a : AccSample) : Bool := signed 16 a.x && signed 16 a.y && signed 16 a.z

/-- What a frame samples: polls, a latched 32-bit count, channels and groups that exist. -/
def FrameIn.wf (f : FrameIn) : Bool :=
  f.polls.a.wf && f.polls.b.wf && signed 32 f.enc && f.acc.wf
    && (f.chCur.all fun x => decide (x.1 < 64)) && (f.chTemp.all fun x => decide (x.1 < 64))
    && (f.groupCur.all fun x => decide (x.1 < 8)) && (f.term.all fun x => decide (x.1 < 64))
    && f.vf.a.length == 4 && f.vf.a.all (fits 12) && f.vf.b.length == 4 && f.vf.b.all (fits 12) && (f.sram.all fun k => decide (k < 19))
    && [f.digestErr.a, f.digestErr.b].all fun x => fits 32 x.1 && fits 32 x.2

/-- Samples of a current loop update: states of three Hall sensors at most, the on-times of six gates (06 R156,
R187). -/
def DoorIn.wf (d : DoorIn) : Bool := d.fb.all (fits 3) && d.gateOn.length == 6

/-- Closer maps of 16 points (06 R169). -/
def DoorLearnIn.wf (d : DoorLearnIn) : Bool :=
  [d.open05, d.close05, d.open10, d.close10].all fun l => l.length == 16

/-- Channels a pulse names (10 R329). -/
def PulseIn.wf (p : PulseIn) : Bool := (p.followers ++ p.held).all fun c => decide (c < 64)

/-- A frame's identifier fits its format, and its data a frame (11 R344). -/
def CanFrame.wf (f : CanFrame) : Bool := fits (if f.ext then 29 else 11) f.ident && canData f.data

/-- What wakes a port: the frame's identifier and data fit (11 R359). -/
def WakeCause.wf (c : WakeCause) : Bool :=
  match c with
  | .frame f => f.wf
  | _ => true

/-- What wakes the module names a channel, a block or a unit and a code (15 R485). -/
def WakeSource.wf (c : WakeSource) : Bool :=
  match c with
  | .input ch => decide (ch < 64)
  | .block h => decide (0x0700 ≤ h) && decide (h < 0x0800)
  | .fault u code => fits 16 u && fits 8 code
  | _ => true

/-- A crossing lies within its frame (12 R386). -/
def HalfIn.wf (h : HalfIn) : Bool := decide (h.off < 250)

/-- The result of a transmission attempt, whatever it adds to TEC. -/
def TxResult.wf (r : TxResult) : Bool :=
  match r with
  | .error n => decide (n ≤ 8)
  | .clash n => decide (n ≤ 8)
  | .noAck n => decide (n ≤ 8)
  | _ => true

/-- A command whose operands fit their fields. -/
def Instr.wf : Instr → Bool
  | .frameTick inp => inp.wf
  | .coreDiscord _ => true
  | .apEstDiscord _ => true
  | .tapeReaderLost _ => true
  | .tapeReaderReinstated _ => true
  | .tapePairDiscord => true
  | .encFault _ => true
  | .accFault _ => true
  | .tractionSlip => true
  | .learnRun tag => fits 8 tag
  | .learnRunComplete => true
  | .home tag dir => fits 8 tag && fits 8 dir
  | .homeComplete => true
  | .positionRecovery _ => true
  | .recoveryTimeout _ => true
  | .engineStopEnd => true
  | .drvStartTimeout => true
  | .planEnd => true
  | .levelSettleEnd => true
  | .relevelStart => true
  | .relevelTimeout => true
  | .driveFeedback msg _ => canData msg
  | .drvFbTimeout => true
  | .trackVel => true
  | .callAdd tag landing kind sides => fits 8 tag && fits 16 landing && fits 8 kind && fits 8 sides
  | .callCancel tag landing kind sides => fits 8 tag && fits 16 landing && fits 8 kind && fits 8 sides
  | .runTo tag landing sides => fits 8 tag && fits 16 landing && fits 8 sides
  | .stopAtLanding tag => fits 8 tag
  | .stopImmediate tag => fits 8 tag
  | .stopEmergencyRamp tag => fits 8 tag
  | .groupAssign _ msg => canData msg
  | .groupWithdraw _ msg => canData msg
  | .groupHb _ msg => canData msg
  | .groupLost => true
  | .parkDelayExpired => true
  | .schedStall => true
  | .panelCallAdd _ msg => canData msg
  | .panelCallCancel _ msg => canData msg
  | .panelDoorOpen _ msg => canData msg
  | .panelDoorClose _ msg => canData msg
  | .hallBtn _ idf msg => fits 11 idf && canData msg
  | .indRefresh => true
  | .doorCurrentLoopUpdate _ inp => inp.wf
  | .bridgeTrip _ _ => true
  | .keBoundExceeded _ => true
  | .obstructionDetected _ => true
  | .finalApproachTimeout _ => true
  | .doorTimeLimit _ => true
  | .doorOpen tag sides => fits 8 tag && fits 8 sides
  | .doorClose tag sides => fits 8 tag && fits 8 sides
  | .doorHold tag sides => fits 8 tag && fits 8 sides
  | .doorNudge tag sides => fits 8 tag && fits 8 sides
  | .doorLearn tag sides => fits 8 tag && fits 8 sides
  | .doorLearnComplete _ inp => inp.wf
  | .dwellEnd _ => true
  | .holdTimeout _ => true
  | .nudgeAutoStart _ => true
  | .doorBallastTimeout _ => true
  | .doorStoppingComplete _ => true
  | .currentOffsetCheck _ u w => signed 16 u && signed 16 w
  | .doorRecheck => true
  | .discrepancyTimeout _ handle => decide (0x0700 ≤ handle) && decide (handle < 0x0800)
  | .resetEdge _ => true
  | .resetStuck _ => true
  | .lock _ idf msg => fits 11 idf && canData msg.val
  | .lockMsgTimeout landing => decide (landing < 256)
  | .lockSourceDisagree _ => true
  | .landingDoorAway => true
  | .inspStopTimeout => true
  | .contactorPullTimeout _ group => decide (group < 8)
  | .contactorDropTimeout _ group => decide (group < 8)
  | .brakeOpenTimeout _ => true
  | .brakeCloseTimeout _ => true
  | .tslSwitch _ handle => decide (0x0700 ≤ handle) && decide (handle < 0x0800)
  | .proofTest tag core => fits 8 tag && fits 8 core
  | .proofAutoStart => true
  | .proofTestEnd => true
  | .proofRejoin => true
  | .proofFailed => true
  | .proofOverdue _ => true
  | .readmissionStart _ => true
  | .duplexExpired => true
  | .takeover => true
  | .pairNoHolder => true
  | .snapshotComplete => true
  | .standbyInSync => true
  | .apResetRelease _ => true
  | .switchOver tag => fits 8 tag
  | .switchBack tag => fits 8 tag
  | .dualTxEnd => true
  | .clockGateEnd counts => counts.unlocked.all fun k => decide (k < 9)
  | .frameTickLost _ => true
  | .downFrame lt _ => decide (lt < 40)
  | .upFrame lt _ => decide (lt < 40)
  | .linkTimeout => true
  | .linkErrorRate _ => true
  | .fieldConfigMismatch => true
  | .supplyThreshold _ _ _ => true
  | .domainWaitRearm _ => true
  | .inputDebounced ch _ _ => decide (ch < 64)
  | .wireBreak ch _ => decide (ch < 64)
  | .testPulseEnd inp => inp.wf
  | .outputLimit ch _ => decide (ch < 64)
  | .outputRetry ch => decide (ch < 64)
  | .groupOverload group _ _ => decide (group < 8)
  | .shortToSupply ch _ => decide (ch < 64)
  | .channelStoppingEnd ch => decide (ch < 64)
  | .chConfig tag ch entries => fits 8 tag && fits 8 ch && entriesOk entries
  | .chRead tag first count => fits 8 tag && fits 8 first && fits 8 count
  | .chWrite tag mask vals => fits 8 tag && fits 64 mask && fits 64 vals
  | .groupRearm tag target => fits 8 tag && fits 8 target
  | .benchSet tag ch on val => fits 8 tag && fits 8 ch && fits 8 on && fits 8 val
  | .benchEnd => true
  | .busFrameReceived _ frame => frame.wf
  | .busFrameSent _ obj res => fits 16 obj && res.res.wf
  | .ttWindowStart _ cell => decide (cell < 256)
  | .ttMissed _ obj => fits 16 obj
  | .timeReferenceReceived _ frame => frame.wf
  | .timeSlaveLost _ => true
  | .busOffRecovered _ _ => true
  | .transmitDominantTimeout _ _ => true
  | .bitTimingApply _ => true
  | .busWake port => port.cause.wf
  | .portStoppingEnd _ _ => true
  | .busConfig tag port flags entries => fits 8 tag && fits 8 port && fits 8 flags && entriesOk entries
  | .objBind tag port obj kind fmt idf fflags => fits 8 tag && fits 8 port && fits 16 obj && fits 8 kind && fits 8 fmt && fits 32 idf && fits 8 fflags
  | .objUnbind tag port obj => fits 8 tag && fits 8 port && fits 16 obj
  | .objRead tag port obj => fits 8 tag && fits 8 port && fits 16 obj
  | .objSend tag port obj data => fits 8 tag && fits 8 port && fits 16 obj && bytes data && decide (data.length ≤ 255)
  | .objCancel tag port obj _ => fits 8 tag && fits 8 port && fits 16 obj
  | .schedLoad tag port cells => fits 8 tag && fits 8 port && words cells && cells.length == 256
  | .busSleep tag port flags => fits 8 tag && fits 8 port && fits 8 flags.flags
  | .busWakeCommand tag port flags => fits 8 tag && fits 8 port && fits 8 flags
  | .meterSample raw => sevenReadings raw
  | .halfCycleValue inp => inp.wf
  | .aggregationWindowEnd => true
  | .freqWindowEnd => true
  | .hourRecord => true
  | .energySave => true
  | .offsetTracking means => sevenReadings means
  | .calMeasure tag phase windows => fits 8 tag && fits 8 phase && fits 16 windows
  | .calMeasureEnd => true
  | .calApply tag uref iref pref qref => fits 8 tag && fits 32 uref && fits 32 iref && signed 32 pref && signed 32 qref
  | .meterConfig tag entries => fits 8 tag && entriesOk entries
  | .meterRead tag => fits 8 tag
  | .energyRead tag => fits 8 tag
  | .recordFlush bad => addrs bad
  | .scrub _ flips => decide (flips ≤ 2)
  | .cursorSet tag drawer index => fits 8 tag && fits 8 drawer && fits 16 index
  | .windowRead tag bad => fits 8 tag && words bad
  | .windowCopyRetry bad => words bad
  | .drawerInfo tag drawer => fits 8 tag && fits 8 drawer
  | .drawerClear tag drawer => fits 8 tag && fits 8 drawer
  | .cabLogin tag slot pwd => fits 8 tag && fits 8 slot && bytes pwd
  | .loginVerified _ => true
  | .cabLockoutEnd => true
  | .lockoutStateWrite => true
  | .cabLogout tag => fits 8 tag
  | .sessionExpired => true
  | .cabStage tag entries => fits 8 tag && stagesOk entries
  | .cabDiscard tag => fits 8 tag
  | .cabCommit tag => fits 8 tag
  | .commitVerdicts _ => true
  | .commitPoint => true
  | .commitComplete => true
  | .cabPassword tag slot pwd => fits 8 tag && fits 8 slot && bytes pwd
  | .passwordWritten _ => true
  | .cabLogRead tag first count => fits 8 tag && fits 32 first && fits 8 count
  | .attest tag nonce => fits 8 tag && message 32 nonce
  | .attestComplete => true
  | .certGet tag index => fits 8 tag && fits 8 index
  | .fwBegin tag kind len => fits 8 tag && fits 8 kind && fits 32 len
  | .fwChunk tag offset data => fits 8 tag && fits 32 offset && bytes data && decide (data.length ≤ 4092)
  | .fwChunkWritten => true
  | .fwCommit tag => fits 8 tag
  | .fwVerified => true
  | .fwTransferTimeout => true
  | .bootVerified target _ => decide (target < 4)
  | .pairStatus tag => fits 8 tag
  | .nop tag => fits 8 tag
  | .ident tag => fits 8 tag
  | .status tag => fits 8 tag
  | .resetPort tag => fits 8 tag
  | .resetModule tag => fits 8 tag
  | .evtRead tag ack flags max => fits 8 tag && fits 16 ack && fits 8 flags && fits 8 max
  | .timeSet tag wall ref => fits 8 tag && fits 64 wall && fits 64 ref
  | .budgetSet tag policy mix => fits 8 tag && fits 8 policy && fits 8 mix
  | .unitList tag first max => fits 8 tag && fits 16 first && fits 8 max
  | .unitGet tag handle ids => fits 8 tag && fits 16 handle && words ids
  | .unitSet tag handle entries => fits 8 tag && fits 16 handle && entriesOk entries
  | .unitEnable tag handle => fits 8 tag && fits 16 handle
  | .unitDisable tag handle => fits 8 tag && fits 16 handle
  | .unitStoppingComplete handle => fits 16 handle
  | .groupDefine tag handle kids => fits 8 tag && fits 16 handle && words kids && decide (kids.length ≤ 64)
  | .sleepPolicy tag entries => fits 8 tag && entriesOk entries
  | .powerRead tag => fits 8 tag
  | .hostTransaction mosi _ => bytes mosi.val
  | .hostStall mosi _ => bytes mosi
  | .replyReady _ => true
  | .keepaliveLost => true
  | .resetN _ => true
  | .vinGood _ _ => true
  | .powerFailWarning _ => true
  | .stateSaveComplete _ => true
  | .convertersOff _ => true
  | .vinLow _ _ => true
  | .vinHigh _ => true
  | .vinOvervolt _ _ => true
  | .restartAfterSave _ _ => true
  | .scheduledWake => true
  | .wake src => src.wf
  | .startupStepComplete => true
  | .startupDeadline => true
  | .tetherGrantFallback => true
  | .resetNRelease => true
  | .busReceiveError _ _ => true
  | .elevenRecessiveBits _ => true
  | .sensorSupplyOff out _ => decide (out < 3)
  | .sensorSupplyOn out => decide (out < 3)
  | .railFault _ => true
  | .logicTempThreshold temp => signed 16 temp
  | .vinFaultEnd _ _ => true
  | .transceiverOvertemp _ => true

end Sys2Proof
end

