-- ==== Sys2Proof/Tests/Slice0.lean ====
section
/-!
SUPPORT. Tests. The states they start from, worked examples of the spec, a refused ill-formed term for each
check of well-formedness, and for every clause of every statement a state and operands that meet its
hypotheses together: `test_hyp_<statement>_<clause>` (a statement merged from several keeps their names).
-/
namespace Sys2Proof.Tests

open Sys2Proof Sys2Proof.Machine

set_option linter.all false
set_option maxRecDepth 100000
set_option Elab.async false

/-- The settings of a small lift: four landings 3 m apart, car door A and the landing doors of side A interlocked,
two contactor groups, a reset channel. -/
def site : List (Nat × Nat × Int) :=
  [(0, pN_LANDINGS, 4), (0, pSCHED_MODE, 1), (0, pRESET_CH, 32), (0x0710, pFB_ENABLE, 1), (0x0712, pFB_ENABLE, 1),
   (0x0740, pFB_ENABLE, 1), (0x0740, pSOG_ROLE, 1), (0x0741, pFB_ENABLE, 1), (0x0741, pSOG_ROLE, 2)]
    ++ [0, 8, 1, 9].map (fun c => (0x0100 + c, pCH_MODE, 6)) ++ [16, 24, 17, 25].map (fun c => (0x0100 + c, pCH_MODE, 2))
    ++ [0, 1, 2, 3].flatMap fun l =>
      let y : Int := 3000000 * (l : Nat)
      [(0x1000 + l, pSILL_LEVEL, y), (0x1000 + l, pDZ_LOW, y - 100000), (0x1000 + l, pDZ_HIGH, y + 100000),
       (0x1000 + l, pDZ_MID_UP, y), (0x1000 + l, pDZ_MID_DOWN, y), (0x1000 + l, pSIDES_SERVED, 1)]

/-- The module of that lift in operation: car door A at landing 0 and closed, at rest and in service, application
processor A the holder. -/
def liveMach : Mach :=
  { site.foldl (fun m e => m.putI e.1 e.2.1 e.2.2) Mach.reset with
    power.on := true
    time.running := true
    time.frame := 8000000
    start.step := 7
    start.ready := true
    start.waiting := false
    host.serving := true
    pair.holder := some .a
    pair.aps.a.role := 4
    pair.aps.a.booted := true
    triad.mails := ⟨true, true, true⟩
    pos.est.d.inited := true
    pos.est.d.confirmed := true
    pos.est.d.still := 8
    doors.a.state := 1
    doors.a.closedRun := 4
    doors.a.own := .on
    doors.b.state := 1
    doors.b.closedRun := 4
    meter.own := .on
    sched.inService := true
    field.booted := true }

/-- The block around it, with nothing waiting. -/
def live : State := { State.reset with now := liveMach }

/-- A message with its safety code under this identifier, as its sender sends it (11 R342). -/
def coded (ident : Nat) (b : List Nat) : List Nat := b ++ le 4 (crcSafety (le 4 ident ++ b))

/-- A feedback message of the drive in this state. -/
def fbMsg (state : Nat) : List Nat :=
  coded (liveMach.nat pDRV_FB_ID) ([0, 0, liveMach.nat pDRV_FB_SRC, state] ++ List.replicate 24 0)

/-- The door zones of two landings as the learning passes met them, up and then down. -/
def twoZones : List EdgeRec :=
  let c := liveMach.dzChannel
  [⟨2, c, true, -100000⟩, ⟨2, c, false, 100000⟩, ⟨2, c, true, 2900000⟩, ⟨2, c, false, 3100000⟩,
   ⟨3, c, true, 3100000⟩, ⟨3, c, false, 2900000⟩, ⟨3, c, true, 100000⟩, ⟨3, c, false, -100000⟩]

/-- Door learning values within every bound of R170: 1000 N at 10 m/s² are 100 kg. -/
def goodLearn : DoorLearnIn :=
  ⟨List.replicate 16 0, List.replicate 16 0, List.replicate 16 0, List.replicate 16 0, 900000, 900000,
   [⟨10000, 0, 0, 10000000⟩], [⟨-10000, 0, 0, -10000000⟩], 0⟩

/-- A host object of this number and kind on a port. -/
def anObj (num kind : Nat) : ObjRec := { ObjRec.reset with num := num, kind := kind, ident := 0x700 + num }

/-- What a frame may bring: nothing new. -/
def quiet : FrameIn :=
  { polls := ⟨⟨true, 0, 0, 0, 0, .fine⟩, ⟨true, 0, 0, 0, 0, .fine⟩⟩, enc := 0, encTs := 0, limitSw := false, encViol := false,
    acc := ⟨0, 0, 0, 0, 0⟩, encEcc := .fine, accEcc := .fine, sram := [], late := ⟨false, false, false⟩,
    dead := ⟨false, false, false⟩, apLate := ⟨false, false⟩, ap := ⟨.fine, .fine⟩, digestErr := ⟨(0, 0), (0, 0)⟩,
    deltaEcc := .fine, chunkEcc := .fine, specDone := 0, vin := 5000, power := 0, temp := 300, chCur := [],
    chTemp := [], groupCur := [], onBus := ⟨none, none⟩, term := [], vf := ⟨[2400, 2400, 2400, 2400], [2400, 2400, 2400, 2400]⟩, die := 300, strayPlans := 0,
    engineBad := false, checks := ⟨false, false, false, false, false⟩, planEcc := .fine, spEcc := .fine,
    doorEcc := ⟨.fine, .fine⟩, recEcc := .fine }

/-- A door sample at rest. -/
def goodDoorIn : DoorIn := ⟨[(0, 0), (0, 0)], 0, (480, 480), [5], false, [0, 0, 0, 0, 0, 0]⟩

/-- A half-cycle of 10 ms that ends at a positive-going crossing. -/
def goodHalf : HalfIn := ⟨true, 100000, true, 0⟩

/-! Worked examples of the spec, and reference values from outside the model. -/

/-- SHA-512 of "abc" (FIPS 180-4). -/
theorem test_sha512_abc : (sha512 [97, 98, 99]).take 8 = [0xdd, 0xaf, 0x35, 0xa1, 0x93, 0x61, 0x7a, 0xba] := by decide +kernel

/-- CRC-32C of "123456789", its published check value (00). -/
theorem test_crc32c_check : crc32c [49, 50, 51, 52, 53, 54, 55, 56, 57] = 0xE3069283 := by decide +kernel

/-- The express run of chapter 04: 480 m at 20 m/s, segment by segment, to 0.1 µs. -/
theorem test_express_run :
    ((segsTo (Kin.rest 0) 480000000 20000000 2000000 4000000).getD []).map (fun g => (g.j, (g.t + 5) / 10))
    = [(4000000, 5000000), (0, 95000000), (-4000000, 5000000), (0, 135000000), (-4000000, 5000000),
      (0, 95000000), (4000000, 5000000)] := by decide +kernel

/-- Its stopping distance at 20 m/s is 105 m. -/
theorem test_express_stop : unitOf (stopDistQ ⟨302530000 * (q20 : Int), 20000000 * (q20 : Int), 0⟩ 2000000 4000000) = 105000000 := by
  decide +kernel

/-- The bound of chapter 06 at one landing door: 319.0 kg and 10 J give 0.250 391 m/s, at which the energy is 10 000 mJ;
nudging at 4 J gives 0.158 m/s. -/
theorem test_door_bound :
    let m : Mach := liveMach.putI 0x1000 (learnedId .a pDOOR_MASS) 2900
    let n : Mach := { m.putI 2 pNUDGE_ENERGY 4000 with doors.a.state := 7 }
    m.vLim .a = 250391 ∧ m.keOf .a (-250391) = 10000 ∧ n.vLim .a / 1000 = 158 := by decide +kernel

/-- The first worked exchange of chapter 14: the command packet of UNIT_GET as the host sends it. -/
theorem test_unit_get_packet :
    let b := hostPacket 0x11 7 0 [0x0C, 0x10, 0x01, 0x80, 0x01]
    b.take 11 = [0xA5, 0x11, 0x07, 0x00, 0x05, 0x00, 0x0C, 0x10, 0x01, 0x80, 0x01] ∧ b.length = 15
      ∧ judge .fine b = .packet 0x11 7 [0x0C, 0x10, 0x01, 0x80, 0x01] := by decide +kernel

/-- Its reply: landing 12 is ON and holds 48 001 350 µm. -/
theorem test_unit_get_reply :
    let m := (liveMach.putI 0 pN_LANDINGS 13).putI 0x100C pSILL_LEVEL 48001350
    let s : State := { live with now := m, shown := m }
    (match exec (.unitGet 7 0x100C [0x0180]) s with
      | .next t => t.now.host.prep
      | _ => none)
      = some ⟨0x11, 7, 0, 0, 0, [0x0C, 0x10, 2, 0, 0, 0, 1, 0x80, 0x01, 0, 4, 0, 0x46, 0x71, 0xDC, 2]⟩ := by decide +kernel

/-- The worked example of aggregation of chapter 01: groups 0x2011 and 0x2010. -/
theorem test_aggregation :
    let m0 := (((liveMach.putI 0x0105 pCH_MODE 5).putI 0x0106 pCH_MODE 5).raise 0x0106 0x84 2).raise 0x0201 0xA3 2
    let m : Mach := { m0 with
      field.bench := 2 ^ 40
      groups := [⟨0x2010, [0x0105, 0x0106, 0x2011]⟩, ⟨0x2011, [0x0128, 0x0201]⟩] }
    m.statusWord 0x2011 = 0x0001A3A4 ∧ m.statusWord 0x2010 = 0x000284A4 := by decide +kernel

/-- SCRUB of an address the MRAM does not have is the only stop (13 R435). -/
theorem test_scrub_stops : exec (.scrub 0x400000 0) live = .fault .noSuchAddress := by rfl

/-- VIN good ends the waiting of a module that has no supply (15, 17). -/
theorem test_vin_good :
    (match exec (.vinGood 5000 10) State.reset with
      | .next t => t.now.power.on
      | _ => false) = true := by decide +kernel

/-- The state after reset keeps the canonical form of the MRAM. -/
theorem test_reset_inv : State.reset.Inv := by unfold State.Inv; decide

/-- The hypotheses of RecordRoundTrip. -/
theorem test_hyp_RecordRoundTrip : ∃ (m : Mach) (a seq : Nat) (p : List Nat),
    Memory.wf m.mram = true ∧ a + 64 ≤ 0x400000 ∧ p.length = 52 ∧ (∀ b ∈ p, b < 256) ∧ seq < 2 ^ 32 :=
  ⟨Mach.reset, 0x3FFFC0, 2 ^ 32 - 1, List.replicate 52 255, by decide +kernel⟩

/-! SHA-512 answers bytes, so no password hash is empty (08 R254). -/

theorem shaRound_length (s : List Nat) (kw : Nat × Nat) : (shaRound s kw).length = s.length := by
  unfold shaRound; split <;> rfl

theorem shaRounds_length (l : List (Nat × Nat)) (s : List Nat) : (l.foldl shaRound s).length = s.length := by
  induction l generalizing s with
  | nil => rfl
  | cons x l ih => simp [ih, shaRound_length]

theorem shaBlocks_length (n : Nat) (h bs : List Nat) : (shaBlocks n h bs).length = h.length := by
  induction n generalizing h bs with
  | zero => rfl
  | succ n ih => simp [shaBlocks, ih, shaBlock, shaRounds_length]

theorem sha512_ne_nil (bs : List Nat) : sha512 bs ≠ [] := by
  intro e
  have h := shaBlocks_length (((bs ++ [0x80] ++ List.replicate ((239 - bs.length % 128) % 128) 0 ++ be 16 (8 * bs.length)).length) / 128)
    shaH0 (bs ++ [0x80] ++ List.replicate ((239 - bs.length % 128) % 128) 0 ++ be 16 (8 * bs.length))
  simp only [sha512, List.flatMap_eq_nil_iff] at e
  match hb : shaBlocks _ _ _, h with
  | [], h => exact absurd h (by decide)
  | x :: _, _ => exact absurd (e x (by rw [hb]; simp)) (by simp [be, le])

theorem hashRounds_ne_nil (n : Nat) (h p : List Nat) (hh : h ≠ []) : hashRounds n h p ≠ [] := by
  induction n generalizing h with
  | zero => exact hh
  | succ n ih => exact ih _ (sha512_ne_nil _)

theorem passwordHash_ne_nil (salt : List Nat) (slot : Nat) (p : List Nat) : passwordHash salt slot p ≠ [] :=
  hashRounds_ne_nil _ _ _ (sha512_ne_nil _)

/-- The slot holds the password that the login gave, and no other hash is looked at. -/
theorem slot_holds_password (m : Mach) (p salt h : List Nat) (hp : passwordHash salt 0 p = h) (hc : m.creds = [⟨salt, h⟩]) :
    m.slotSet 0 = true ∧ passwordHash (m.cred 0).salt 0 p = (m.cred 0).hash := by
  have hn : h ≠ [] := hp ▸ passwordHash_ne_nil salt 0 p
  have he : m.cred 0 = ⟨salt, h⟩ := by simp only [Mach.cred, hc, nth]
  rw [Mach.slotSet, he]
  exact ⟨bne_iff_ne.mpr hn, hp⟩

/-- The records of a cabinet whose slot 0 holds ten letters A. -/
def loginCred : List Cred := [⟨[], passwordHash [] 0 (List.replicate 10 65)⟩]

/-- The module with that cabinet, a login with this password waiting for the cores. -/
def loginMach : Mach :=
  { liveMach with cab.login := some ⟨0, List.replicate 10 65, 0, 0⟩, cab.creds := ⟨loginCred, loginCred⟩ }

theorem login_creds : loginMach.creds = [⟨[], passwordHash [] 0 (List.replicate 10 65)⟩] := by
  have h : loginMach.blockRead = some .a := by decide +kernel
  rw [Mach.creds, h]; rfl

theorem login_meets : loginMach.slotSet 0 = true
    ∧ passwordHash (loginMach.cred 0).salt 0 (List.replicate 10 65) = (loginMach.cred 0).hash :=
  slot_holds_password loginMach (List.replicate 10 65) [] _ rfl login_creds

/-! Well-formedness: one list of terms it accepts per family, and one ill-formed term per check. -/

theorem test_wf_accepts_1 : ([.frameTick quiet,
    .learnRun 0,
    .home 0 0,
    .driveFeedback [] 0,
    .callAdd 0 0 0 0,
    .callCancel 0 0 0 0,
    .runTo 0 0 0,
    .stopAtLanding 0,
    .stopImmediate 0,
    .stopEmergencyRamp 0,
    .groupAssign .a [],
    .groupWithdraw .a [],
    .groupHb .a [],
    .panelCallAdd .a [],
    .panelCallCancel .a [],
    .panelDoorOpen .a [],
    .panelDoorClose .a [],
    .hallBtn .a 0 [],
    .doorCurrentLoopUpdate .a goodDoorIn,
    .doorOpen 0 0,
    .doorClose 0 0,
    .doorHold 0 0,
    .doorNudge 0 0,
    .doorLearn 0 0] : List Instr).all Instr.wf = true := by decide +kernel

theorem test_wf_accepts_2 : ([.doorLearnComplete .a goodLearn,
    .currentOffsetCheck .a 0 0,
    .discrepancyTimeout .a 0x0700,
    .lock .a 0 ⟨[], .fine⟩,
    .lockMsgTimeout 0,
    .contactorPullTimeout .a 0,
    .contactorDropTimeout .a 0,
    .tslSwitch .a 0x0700,
    .proofTest 0 0,
    .switchOver 0,
    .switchBack 0,
    .clockGateEnd ⟨[], []⟩,
    .downFrame 0 ⟨0, .fine⟩,
    .upFrame 0 ⟨0, .fine⟩,
    .inputDebounced 0 ⟨0, 0⟩ 0,
    .wireBreak 0 0,
    .testPulseEnd ⟨true, [], []⟩,
    .outputLimit 0 ((.current 5000)),
    .outputRetry 0,
    .groupOverload 0 0 0,
    .shortToSupply 0 0,
    .channelStoppingEnd 0,
    .chConfig 0 0 [⟨0, []⟩],
    .chRead 0 0 0] : List Instr).all Instr.wf = true := by decide +kernel

theorem test_wf_accepts_3 : ([.chWrite 0 0 0,
    .groupRearm 0 0,
    .benchSet 0 0 0 0,
    .busFrameReceived .a ⟨false, 0, 0, [], 0, false⟩,
    .busFrameSent .a 0 ⟨0, .sent⟩,
    .ttWindowStart .a 0,
    .ttMissed .a 0,
    .timeReferenceReceived .a ⟨false, 0, 0, [], 0, false⟩,
    .busWake ⟨.a, .dominant 5000⟩,
    .busConfig 0 0 0 [⟨0, []⟩],
    .objBind 0 0 0 0 0 0 0,
    .objUnbind 0 0 0,
    .objRead 0 0 0,
    .objSend 0 0 0 [],
    .objCancel 0 0 0 true,
    .schedLoad 0 0 (List.replicate 256 0),
    .busSleep 0 0 ⟨0, none⟩,
    .busWakeCommand 0 0 0,
    .meterSample (List.replicate 7 0),
    .halfCycleValue goodHalf,
    .offsetTracking (List.replicate 7 0),
    .calMeasure 0 0 0,
    .calApply 0 0 0 0 0,
    .meterConfig 0 [⟨0, []⟩]] : List Instr).all Instr.wf = true := by decide +kernel

theorem test_wf_accepts_4 : ([.meterRead 0,
    .energyRead 0,
    .recordFlush [],
    .scrub 0 0,
    .cursorSet 0 0 0,
    .windowRead 0 [],
    .windowCopyRetry [],
    .drawerInfo 0 0,
    .drawerClear 0 0,
    .cabLogin 0 0 [],
    .cabLogout 0,
    .cabStage 0 [],
    .cabDiscard 0,
    .cabCommit 0,
    .cabPassword 0 0 [],
    .cabLogRead 0 0 0,
    .attest 0 (List.replicate 32 0),
    .certGet 0 0,
    .fwBegin 0 0 0,
    .fwChunk 0 0 [],
    .fwCommit 0,
    .bootVerified 0 ⟨.nothing, .nothing, .nothing⟩,
    .pairStatus 0,
    .nop 0] : List Instr).all Instr.wf = true := by decide +kernel

theorem test_wf_accepts_5 : ([.ident 0,
    .status 0,
    .resetPort 0,
    .resetModule 0,
    .evtRead 0 0 0 0,
    .timeSet 0 0 0,
    .budgetSet 0 0 0,
    .unitList 0 0 0,
    .unitGet 0 0 [],
    .unitSet 0 0 [⟨0, []⟩],
    .unitEnable 0 0,
    .unitDisable 0 0,
    .unitStoppingComplete 0,
    .groupDefine 0 0 [],
    .sleepPolicy 0 [⟨0, []⟩],
    .powerRead 0,
    .hostTransaction ⟨[], .fine⟩ 0,
    .hostStall [] 0,
    .wake .hostSelect,
    .sensorSupplyOff 0 0,
    .sensorSupplyOn 0,
    .logicTempThreshold 0] : List Instr).all Instr.wf = true := by decide +kernel

theorem test_wf_refuses_1 : ([.frameTick ({ quiet with enc := 2 ^ 31 }),
    .learnRun ((2 ^ 8)),
    .home ((2 ^ 8)) 0,
    .home 0 ((2 ^ 8)),
    .driveFeedback ((List.replicate 9 0)) 0,
    .callAdd ((2 ^ 8)) 0 0 0,
    .callAdd 0 ((2 ^ 16)) 0 0,
    .callAdd 0 0 ((2 ^ 8)) 0,
    .callAdd 0 0 0 ((2 ^ 8)),
    .callCancel ((2 ^ 8)) 0 0 0,
    .callCancel 0 ((2 ^ 16)) 0 0,
    .callCancel 0 0 ((2 ^ 8)) 0,
    .callCancel 0 0 0 ((2 ^ 8)),
    .runTo ((2 ^ 8)) 0 0,
    .runTo 0 ((2 ^ 16)) 0,
    .runTo 0 0 ((2 ^ 8)),
    .stopAtLanding ((2 ^ 8)),
    .stopImmediate ((2 ^ 8)),
    .stopEmergencyRamp ((2 ^ 8)),
    .groupAssign .a ((List.replicate 9 0)),
    .groupWithdraw .a ((List.replicate 9 0)),
    .groupHb .a ((List.replicate 9 0)),
    .panelCallAdd .a ((List.replicate 9 0)),
    .panelCallCancel .a ((List.replicate 9 0))] : List Instr).all (fun i => !i.wf) = true := by decide +kernel

theorem test_wf_refuses_2 : ([.panelDoorOpen .a ((List.replicate 9 0)),
    .panelDoorClose .a ((List.replicate 9 0)),
    .hallBtn .a ((2 ^ 11)) [],
    .hallBtn .a 0 ((List.replicate 9 0)),
    .doorCurrentLoopUpdate .a ({ goodDoorIn with fb := [8] }),
    .doorOpen ((2 ^ 8)) 0,
    .doorOpen 0 ((2 ^ 8)),
    .doorClose ((2 ^ 8)) 0,
    .doorClose 0 ((2 ^ 8)),
    .doorHold ((2 ^ 8)) 0,
    .doorHold 0 ((2 ^ 8)),
    .doorNudge ((2 ^ 8)) 0,
    .doorNudge 0 ((2 ^ 8)),
    .doorLearn ((2 ^ 8)) 0,
    .doorLearn 0 ((2 ^ 8)),
    .doorLearnComplete .a ({ goodLearn with close10 := [] }),
    .currentOffsetCheck .a ((2 ^ 15)) 0,
    .currentOffsetCheck .a 0 ((2 ^ 15)),
    .discrepancyTimeout .a 0x06FF,
    .discrepancyTimeout .a 0x0800,
    .lock .a ((2 ^ 11)) ⟨[], .fine⟩,
    .lock .a 0 ⟨List.replicate 9 0, .fine⟩,
    .lockMsgTimeout 256,
    .contactorPullTimeout .a 8] : List Instr).all (fun i => !i.wf) = true := by decide +kernel

theorem test_wf_refuses_3 : ([.contactorDropTimeout .a 8,
    .tslSwitch .a 0x06FF,
    .tslSwitch .a 0x0800,
    .proofTest ((2 ^ 8)) 0,
    .proofTest 0 ((2 ^ 8)),
    .switchOver ((2 ^ 8)),
    .switchBack ((2 ^ 8)),
    .clockGateEnd ⟨[], [9]⟩,
    .downFrame 40 ⟨0, .fine⟩,
    .upFrame 40 ⟨0, .fine⟩,
    .inputDebounced 64 ⟨0, 0⟩ 0,
    .wireBreak 64 0,
    .testPulseEnd ⟨true, [64], []⟩,
    .outputLimit 64 ((.current 5000)),
    .outputRetry 64,
    .groupOverload 8 0 0,
    .shortToSupply 64 0,
    .channelStoppingEnd 64,
    .chConfig ((2 ^ 8)) 0 [⟨0, []⟩],
    .chConfig 0 ((2 ^ 8)) [⟨0, []⟩],
    .chConfig 0 0 [],
    .chRead ((2 ^ 8)) 0 0,
    .chRead 0 ((2 ^ 8)) 0,
    .chRead 0 0 ((2 ^ 8))] : List Instr).all (fun i => !i.wf) = true := by decide +kernel

theorem test_wf_refuses_4 : ([.chWrite ((2 ^ 8)) 0 0,
    .chWrite 0 ((2 ^ 64)) 0,
    .chWrite 0 0 ((2 ^ 64)),
    .groupRearm ((2 ^ 8)) 0,
    .groupRearm 0 ((2 ^ 8)),
    .benchSet ((2 ^ 8)) 0 0 0,
    .benchSet 0 ((2 ^ 8)) 0 0,
    .benchSet 0 0 ((2 ^ 8)) 0,
    .benchSet 0 0 0 ((2 ^ 8)),
    .busFrameReceived .a ⟨false, 0x800, 0, [], 0, false⟩,
    .busFrameSent .a ((2 ^ 16)) ⟨0, .sent⟩,
    .busFrameSent .a 0 ⟨0, .error 9⟩,
    .ttWindowStart .a 256,
    .ttMissed .a ((2 ^ 16)),
    .timeReferenceReceived .a ⟨false, 0x800, 0, [], 0, false⟩,
    .busWake ⟨.a, .frame ⟨false, 0x800, 0, [], 0, false⟩⟩,
    .busConfig ((2 ^ 8)) 0 0 [⟨0, []⟩],
    .busConfig 0 ((2 ^ 8)) 0 [⟨0, []⟩],
    .busConfig 0 0 ((2 ^ 8)) [⟨0, []⟩],
    .busConfig 0 0 0 [],
    .objBind ((2 ^ 8)) 0 0 0 0 0 0,
    .objBind 0 ((2 ^ 8)) 0 0 0 0 0,
    .objBind 0 0 ((2 ^ 16)) 0 0 0 0,
    .objBind 0 0 0 ((2 ^ 8)) 0 0 0] : List Instr).all (fun i => !i.wf) = true := by decide +kernel

theorem test_wf_refuses_5 : ([.objBind 0 0 0 0 ((2 ^ 8)) 0 0,
    .objBind 0 0 0 0 0 ((2 ^ 32)) 0,
    .objBind 0 0 0 0 0 0 ((2 ^ 8)),
    .objUnbind ((2 ^ 8)) 0 0,
    .objUnbind 0 ((2 ^ 8)) 0,
    .objUnbind 0 0 ((2 ^ 16)),
    .objRead ((2 ^ 8)) 0 0,
    .objRead 0 ((2 ^ 8)) 0,
    .objRead 0 0 ((2 ^ 16)),
    .objSend ((2 ^ 8)) 0 0 [],
    .objSend 0 ((2 ^ 8)) 0 [],
    .objSend 0 0 ((2 ^ 16)) [],
    .objSend 0 0 0 [256],
    .objSend 0 0 0 ((List.replicate 256 0)),
    .objCancel ((2 ^ 8)) 0 0 true,
    .objCancel 0 ((2 ^ 8)) 0 true,
    .objCancel 0 0 ((2 ^ 16)) true,
    .schedLoad ((2 ^ 8)) 0 (List.replicate 256 0),
    .schedLoad 0 ((2 ^ 8)) (List.replicate 256 0),
    .schedLoad 0 0 ((65536 :: List.replicate 255 0)),
    .schedLoad 0 0 ((List.replicate 255 0)),
    .busSleep ((2 ^ 8)) 0 ⟨0, none⟩,
    .busSleep 0 ((2 ^ 8)) ⟨0, none⟩,
    .busSleep 0 0 ⟨2 ^ 8, none⟩] : List Instr).all (fun i => !i.wf) = true := by decide +kernel

theorem test_wf_refuses_6 : ([.busWakeCommand ((2 ^ 8)) 0 0,
    .busWakeCommand 0 ((2 ^ 8)) 0,
    .busWakeCommand 0 0 ((2 ^ 8)),
    .meterSample ((List.replicate 6 0)),
    .halfCycleValue ({ goodHalf with off := 250 }),
    .offsetTracking ((List.replicate 6 0)),
    .calMeasure ((2 ^ 8)) 0 0,
    .calMeasure 0 ((2 ^ 8)) 0,
    .calMeasure 0 0 ((2 ^ 16)),
    .calApply ((2 ^ 8)) 0 0 0 0,
    .calApply 0 ((2 ^ 32)) 0 0 0,
    .calApply 0 0 ((2 ^ 32)) 0 0,
    .calApply 0 0 0 ((2 ^ 31)) 0,
    .calApply 0 0 0 0 ((2 ^ 31)),
    .meterConfig ((2 ^ 8)) [⟨0, []⟩],
    .meterConfig 0 [],
    .meterRead ((2 ^ 8)),
    .energyRead ((2 ^ 8)),
    .recordFlush [0x400000],
    .scrub 0 3,
    .cursorSet ((2 ^ 8)) 0 0,
    .cursorSet 0 ((2 ^ 8)) 0,
    .cursorSet 0 0 ((2 ^ 16)),
    .windowRead ((2 ^ 8)) []] : List Instr).all (fun i => !i.wf) = true := by decide +kernel

theorem test_wf_refuses_7 : ([.windowRead 0 [65536],
    .windowCopyRetry [65536],
    .drawerInfo ((2 ^ 8)) 0,
    .drawerInfo 0 ((2 ^ 8)),
    .drawerClear ((2 ^ 8)) 0,
    .drawerClear 0 ((2 ^ 8)),
    .cabLogin ((2 ^ 8)) 0 [],
    .cabLogin 0 ((2 ^ 8)) [],
    .cabLogin 0 0 [256],
    .cabLogout ((2 ^ 8)),
    .cabStage ((2 ^ 8)) [],
    .cabStage 0 [⟨65536, 0, []⟩],
    .cabDiscard ((2 ^ 8)),
    .cabCommit ((2 ^ 8)),
    .cabPassword ((2 ^ 8)) 0 [],
    .cabPassword 0 ((2 ^ 8)) [],
    .cabPassword 0 0 [256],
    .cabLogRead ((2 ^ 8)) 0 0,
    .cabLogRead 0 ((2 ^ 32)) 0,
    .cabLogRead 0 0 ((2 ^ 8)),
    .attest ((2 ^ 8)) (List.replicate 32 0),
    .attest 0 ((List.replicate 31 0)),
    .certGet ((2 ^ 8)) 0,
    .certGet 0 ((2 ^ 8))] : List Instr).all (fun i => !i.wf) = true := by decide +kernel

theorem test_wf_refuses_8 : ([.fwBegin ((2 ^ 8)) 0 0,
    .fwBegin 0 ((2 ^ 8)) 0,
    .fwBegin 0 0 ((2 ^ 32)),
    .fwChunk ((2 ^ 8)) 0 [],
    .fwChunk 0 ((2 ^ 32)) [],
    .fwChunk 0 0 [256],
    .fwChunk 0 0 ((List.replicate 4093 0)),
    .fwCommit ((2 ^ 8)),
    .bootVerified 4 ⟨.nothing, .nothing, .nothing⟩,
    .pairStatus ((2 ^ 8)),
    .nop ((2 ^ 8)),
    .ident ((2 ^ 8)),
    .status ((2 ^ 8)),
    .resetPort ((2 ^ 8)),
    .resetModule ((2 ^ 8)),
    .evtRead ((2 ^ 8)) 0 0 0,
    .evtRead 0 ((2 ^ 16)) 0 0,
    .evtRead 0 0 ((2 ^ 8)) 0,
    .evtRead 0 0 0 ((2 ^ 8)),
    .timeSet ((2 ^ 8)) 0 0,
    .timeSet 0 ((2 ^ 64)) 0,
    .timeSet 0 0 ((2 ^ 64)),
    .budgetSet ((2 ^ 8)) 0 0,
    .budgetSet 0 ((2 ^ 8)) 0] : List Instr).all (fun i => !i.wf) = true := by decide +kernel

theorem test_wf_refuses_9 : ([.budgetSet 0 0 ((2 ^ 8)),
    .unitList ((2 ^ 8)) 0 0,
    .unitList 0 ((2 ^ 16)) 0,
    .unitList 0 0 ((2 ^ 8)),
    .unitGet ((2 ^ 8)) 0 [],
    .unitGet 0 ((2 ^ 16)) [],
    .unitGet 0 0 [65536],
    .unitSet ((2 ^ 8)) 0 [⟨0, []⟩],
    .unitSet 0 ((2 ^ 16)) [⟨0, []⟩],
    .unitSet 0 0 [],
    .unitEnable ((2 ^ 8)) 0,
    .unitEnable 0 ((2 ^ 16)),
    .unitDisable ((2 ^ 8)) 0,
    .unitDisable 0 ((2 ^ 16)),
    .unitStoppingComplete ((2 ^ 16)),
    .groupDefine ((2 ^ 8)) 0 [],
    .groupDefine 0 ((2 ^ 16)) [],
    .groupDefine 0 0 [65536],
    .groupDefine 0 0 ((List.replicate 65 0)),
    .sleepPolicy ((2 ^ 8)) [⟨0, []⟩],
    .sleepPolicy 0 [],
    .powerRead ((2 ^ 8)),
    .hostTransaction ⟨[256], .fine⟩ 0,
    .hostStall [256] 0] : List Instr).all (fun i => !i.wf) = true := by decide +kernel

theorem test_wf_refuses_10 : ([.wake ((.input 64)),
    .sensorSupplyOff 3 0,
    .sensorSupplyOn 3,
    .logicTempThreshold ((2 ^ 15)),
    .doorCurrentLoopUpdate .a { goodDoorIn with gateOn := [0, 0, 0, 0, 0] },
    .wake (.block 0x06FF),
    .wake (.block 0x0800),
    .wake (.fault 65536 0),
    .wake (.fault 0 256),
    .cabStage 0 (List.replicate 65536 ⟨0, 0, []⟩),
    .chConfig 0 0 [⟨0, List.replicate 65536 0⟩],
    .cabStage 0 [⟨0, 0, List.replicate 65536 0⟩],
    .frameTick { quiet with polls := ⟨⟨true, 2 ^ 32, 0, 0, 0, .fine⟩, quiet.polls.b⟩ },
    .frameTick { quiet with polls := ⟨quiet.polls.a, ⟨true, 0, 16, 0, 0, .fine⟩⟩ },
    .frameTick { quiet with polls := ⟨quiet.polls.a, ⟨true, 0, 0, 64, 0, .fine⟩⟩ },
    .frameTick { quiet with acc := ⟨0, 0, 0, 0, -32769⟩ },
    .frameTick { quiet with acc := ⟨0, 0, 32768, 0, 0⟩ },
    .frameTick { quiet with acc := ⟨0, 0, 0, 32768, 0⟩ },
    .frameTick { quiet with chCur := [(64, 0)] },
    .frameTick { quiet with chTemp := [(64, 0)] },
    .frameTick { quiet with groupCur := [(8, 0)] },
    .frameTick { quiet with term := [(64, 0)] },
    .frameTick { quiet with vf := ⟨[2400, 2400, 2400, 4096], quiet.vf.b⟩ },
    .frameTick { quiet with vf := ⟨quiet.vf.a, [2400]⟩ }] : List Instr).all (fun i => !i.wf) = true := by decide +kernel

theorem test_wf_refuses_11 : ([.frameTick { quiet with vf := ⟨[2400, 2400, 2400], quiet.vf.b⟩ },
    .frameTick { quiet with vf := ⟨quiet.vf.a, [4096, 2400, 2400, 2400]⟩ },
    .frameTick { quiet with sram := [19] },
    .frameTick { quiet with digestErr := ⟨(2 ^ 32, 0), (0, 0)⟩ },
    .frameTick { quiet with digestErr := ⟨(0, 0), (0, 2 ^ 32)⟩ },
    .doorLearnComplete .a { goodLearn with open05 := [] },
    .doorLearnComplete .a { goodLearn with close05 := [] },
    .doorLearnComplete .a { goodLearn with open10 := [] },
    .testPulseEnd ⟨true, [], [64]⟩,
    .busFrameReceived .a ⟨true, 2 ^ 29, 0, [], 0, false⟩,
    .busFrameReceived .a ⟨false, 0, 0, List.replicate 9 0, 0, false⟩,
    .busFrameReceived .a ⟨false, 0, 0, [256], 0, false⟩,
    .busFrameSent .a 0 ⟨0, .clash 9⟩,
    .busFrameSent .a 0 ⟨0, .noAck 9⟩,
    .chConfig 0 0 (List.replicate 65 ⟨0, []⟩),
    .chConfig 0 0 [⟨65536, []⟩],
    .chConfig 0 0 [⟨0, [256]⟩],
    .cabStage 0 [⟨0, 65536, []⟩],
    .cabStage 0 [⟨0, 0, [256]⟩],
    .meterSample (32768 :: List.replicate 6 0),
    .attest 0 (256 :: List.replicate 31 0)] : List Instr).all (fun i => !i.wf) = true := by decide +kernel


/-! Hypotheses of the statements: every clause is met somewhere. -/

theorem test_hyp_StepRunsFront_0 :
    ∃ s : State, ∃ c : Instr, ∃ rest : List Instr, (s.pending = c :: rest) :=
  ⟨{ live with pending := [.nop 0, .ident 1] }, .nop 0, [.ident 1], by rfl⟩

theorem test_hyp_EmptyQueueIdles_0 :
    ∃ s : State, (s.pending = []) :=
  ⟨live, by (try unfold Serves); (try dsimp only); first | done | decide +kernel⟩

theorem test_hyp_QueueAndViewKept_0 :
    ∃ c : Instr, ∃ s : State, ∃ t : State, (exec c s = .next t) :=
  ⟨.benchEnd, live, live, by rfl⟩

theorem test_hyp_StepKeepsInvariant_0 :
    ∃ s : State, ∃ t : State, (s.Inv) ∧ (step s = .next t) :=
  ⟨live, live, ⟨by unfold State.Inv; decide +kernel, by rfl⟩⟩

theorem test_hyp_MramReadAfterWrite_0 :
    ∃ l : List (Nat × BitVec 8), ∃ a : Nat, ∃ bs : List Nat, (Memory.wf l = true) ∧ (a + bs.length ≤ 0x400000) :=
  ⟨[], 0, [], by (try unfold Serves); (try dsimp only); first | done | decide +kernel⟩

theorem test_hyp_FrameCountAdvancesByTick_0 :
    ∃ c : Instr, ∃ s : State, ∃ t : State, (exec c s = .next t) :=
  ⟨.benchEnd, live, live, by rfl⟩

theorem test_hyp_RollbackCounterRisesOnly_0 :
    ∃ c : Instr, ∃ s : State, ∃ t : State, (exec c s = .next t) :=
  ⟨.benchEnd, live, live, by rfl⟩

theorem test_hyp_BootCountOncePerStart_0 :
    ∃ c : Instr, ∃ s : State, ∃ t : State, (exec c s = .next t) :=
  ⟨.benchEnd, live, live, by rfl⟩

theorem test_hyp_CredentialsOnlyByPassword_0 :
    ∃ c : Instr, ∃ s : State, ∃ t : State, (exec c s = .next t) :=
  ⟨.benchEnd, live, live, by rfl⟩

theorem test_hyp_RaiseHoldsFault_0 :
    (∃ m : Mach, ∃ unit : Nat, ∃ code : Nat, ∃ cls : Nat, ∃ c1 : Nat, ∃ c2 : Nat, (m.inForce unit code = true)) ∧
    (∃ m : Mach, ∃ unit : Nat, ∃ code : Nat, ∃ cls : Nat, ∃ c1 : Nat, ∃ c2 : Nat, (m.inForce unit code = false)) :=
  ⟨⟨liveMach.raise 1 0x48 3, 1, 0x48, 0, 0, 0, by (try unfold Serves); (try dsimp only); first | done | decide +kernel⟩,
    ⟨liveMach, 0, 0, 0, 0, 0, by (try unfold Serves); (try dsimp only); first | done | decide +kernel⟩⟩

theorem test_hyp_EndFaultEndsOne_0 :
    (∃ m : Mach, ∃ unit : Nat, ∃ code : Nat, (m.inForce unit code = false)) ∧
    (∃ m : Mach, ∃ unit : Nat, ∃ code : Nat, ∃ u, ∃ c, ((u ≠ unit ∨ c ≠ code))) :=
  ⟨⟨liveMach, 0, 0, by (try unfold Serves); (try dsimp only); first | done | decide +kernel⟩,
    ⟨liveMach, 0, 0, 1, 0x48, by (try unfold Serves); (try dsimp only); first | done | decide +kernel⟩⟩

theorem test_hyp_EventEntersQueue_0 :
    (∃ m : Mach, ∃ kind : Nat, ∃ detail : Nat, ∃ unit : Nat, ∃ code : Nat, ∃ data : Nat, ((kind = 1 ∨ kind = 3 ∨ kind = 0xC ∨ bit (m.nat pEVT_MASK) kind = true))) ∧
    (∃ m : Mach, ∃ kind : Nat, ∃ detail : Nat, ∃ unit : Nat, ∃ code : Nat, ∃ data : Nat, (kind ≠ 1) ∧ (kind ≠ 3) ∧ (kind ≠ 0xC) ∧ (bit (m.nat pEVT_MASK) kind = false)) :=
  ⟨⟨liveMach, 3, 0, 0, 0, 0, by (try unfold Serves); (try dsimp only); first | done | decide +kernel⟩,
    ⟨liveMach, 0, 0, 0, 0, 0, by (try unfold Serves); (try dsimp only); first | done | decide +kernel⟩⟩

theorem test_hyp_EventEntryBytes_0 :
    ∃ e : EvtRec, (e.seq < 2 ^ 16) ∧ (e.kind < 2 ^ 8) ∧ (e.detail < 2 ^ 8) ∧ (e.unit < 2 ^ 16) ∧ (e.code < 2 ^ 16) ∧ (e.data < 2 ^ 32) ∧ (e.time < 2 ^ 32) :=
  ⟨⟨5, 1, 2, 0x0700, 3, 4, 6⟩, by (try unfold Serves); (try dsimp only); first | done | decide +kernel⟩

theorem test_hyp_HostCommandAnswered_0 :
    ∃ c : Instr, ∃ s : State, ∃ op : Nat, ∃ tag : Nat, (hostCommand c = some (op, tag)) ∧ (s.now.serves? = true) ∧ (s.now.admits op = true) :=
  ⟨.nop 0, live, 0, 0, by (try unfold Serves); (try dsimp only); first | done | decide +kernel⟩

theorem test_hyp_HostCommandOutsideService_0 :
    (∃ c : Instr, ∃ s : State, ∃ op : Nat, ∃ tag : Nat, (hostCommand c = some (op, tag)) ∧ (s.now.serves? = false)) ∧
    (∃ c : Instr, ∃ s : State, ∃ op : Nat, ∃ tag : Nat, (hostCommand c = some (op, tag)) ∧ (s.now.serves? = true) ∧ (s.now.admits op = false)) :=
  ⟨⟨.nop 0, { live with now := { liveMach with host.serving := false } }, 0, 0, by (try unfold Serves); (try dsimp only); first | done | decide +kernel⟩,
    ⟨.unitEnable 0 2, { live with now := { liveMach with start.ready := false, start.step := 3 } }, 0x13, 0, by (try unfold Serves); (try dsimp only); first | done | decide +kernel⟩⟩

theorem test_hyp_PositionFaultEventsComplete_0 :
    ∃ s : State, ∃ ap : Sys2Proof.Ab, ∃ c : CoreId, (s.now.agreedVerdict = .core c) ∧ (s.now.pos.read.get ap = .core c) :=
  ⟨{ live with now := { liveMach with pos.read.a := .core .a } }, .a, .a, by (try unfold Serves); (try dsimp only); first | done | decide +kernel⟩

theorem test_hyp_PositionFaultEventsComplete_1 :
    ∃ s : State, ∃ ap : Sys2Proof.Ab, (s.now.agreedVerdict = .threeWay) ∧ (s.now.pos.read.get ap = .threeWay) :=
  ⟨{ live with now := { liveMach with pos.read.a := .threeWay } }, .a, by (try unfold Serves); (try dsimp only); first | done | decide +kernel⟩

theorem test_hyp_PositionFaultEventsComplete_2 :
    ∃ s : State, ∃ ap : Sys2Proof.Ab, (4 ≤ (s.now.pos.discord.get ap).own) :=
  ⟨{ live with now := { liveMach with pos.discord.a.own := 4 } }, .a, by (try unfold Serves); (try dsimp only); first | done | decide +kernel⟩

theorem test_hyp_PositionFaultEventsComplete_3 :
    (∃ s : State, ∃ r : Sys2Proof.Ab, (r ∈ s.now.readersUsed) ∧ ((s.now.est.readers.get r).lost = true) ∧ (s.now.tapeInUse = true)) ∧
    (∃ s : State, ∃ r : Sys2Proof.Ab, (r ∈ s.now.readersUsed) ∧ ((s.now.est.readers.get r).lost = true) ∧ (s.now.tapeInUse = false) ∧ (s.now.inForce 1 0x32 = false)) :=
  ⟨⟨{ live with now := { (liveMach.putI 0 pTAPE_READERS 2) with pos.est.d.readers.a.lost := true } }, .a, by (try unfold Serves); (try dsimp only); first | done | decide +kernel⟩,
    ⟨{ live with now := { liveMach with pos.est.d.readers.a.lost := true } }, .a, by (try unfold Serves); (try dsimp only); first | done | decide +kernel⟩⟩

theorem test_hyp_PositionFaultEventsComplete_4 :
    ∃ s : State, ∃ r : Sys2Proof.Ab, ((s.now.est.readers.get r).lost = false) ∧ (400 ≤ (s.now.est.readers.get r).goodRun) :=
  ⟨{ live with now := { liveMach with pos.est.d.readers.a.goodRun := 400 } }, .a, by (try unfold Serves); (try dsimp only); first | done | decide +kernel⟩

theorem test_hyp_PositionFaultEventsComplete_5 :
    ∃ s : State, (16 ≤ s.now.pos.pairRun) :=
  ⟨{ live with now := { liveMach with pos.pairRun := 16 } }, by (try unfold Serves); (try dsimp only); first | done | decide +kernel⟩

theorem test_hyp_PositionFaultEventsComplete_6 :
    ∃ s : State, ∃ c : EncCause, (((∃ n, c = .amplitude n ∧ s.now.nat pENC_TYPE = 1 ∧ 8 ≤ n) ∨ (∃ hz, c = .rate hz ∧ s.now.nat pENC_TYPE = 2 ∧ 10000000 < hz) ∨ (∃ ns, c = .both ns ∧ s.now.nat pENC_TYPE = 2 ∧ ns ≤ 25))) :=
  ⟨live, .amplitude 8, Or.inl ⟨8, rfl, by decide +kernel, by decide⟩⟩

theorem test_hyp_PositionFaultEventsComplete_7 :
    ∃ s : State, (2 ≤ s.now.pos.accStale) ∧ (s.now.mountCabinet = false) :=
  ⟨{ live with now := { liveMach with pos.accStale := 2 } }, by (try unfold Serves); (try dsimp only); first | done | decide +kernel⟩

theorem test_hyp_PositionFaultEventsComplete_8 :
    ∃ s : State, (s.now.est.inited = true) ∧ (s.now.est.meanOff = true) ∧ (s.now.mountCabinet = false) :=
  ⟨{ live with now := { liveMach with pos.est.d.accHist := List.replicate 257 (1000000, 0, .a) } }, by (try unfold Serves); (try dsimp only); first | done | decide +kernel⟩

theorem test_hyp_PositionFaultEventsComplete_9 :
    ∃ s : State, ∃ c : AccCause, (s.now.mountCabinet = true) :=
  ⟨{ live with now := (liveMach.putI 0 pMOUNT 1) }, .stale, by (try unfold Serves); (try dsimp only); first | done | decide +kernel⟩

theorem test_hyp_PositionFaultEventsComplete_10 :
    ∃ s : State, ∃ c : CoreId, (c ∈ s.now.voters) ∧ (0 < (s.now.pos.est.get c.proc).slipRun) ∧ (4 * s.now.nat pSLIP_TIME ≤ (s.now.pos.est.get c.proc).slipRun) :=
  ⟨{ live with now := { liveMach with pos.est.a.slipRun := 4000 } }, .a, by (try unfold Serves); (try dsimp only); first | done | decide +kernel⟩

theorem test_hyp_PositionRecoveryCompletes_0 :
    ∃ s : State, ∃ p : ProcId, (s.now.recovers p = true) ∧ ((s.now.pos.est.get p).inited = false) ∧ (s.now.readsTape (s.now.pos.est.get p) = true) ∧ (64 ≤ (s.now.pos.est.get p).recRun) :=
  ⟨{ live with now := { liveMach with pos.est.d.inited := false, start.step := 5, pos.est.d.recRun := 64 } }, .d, by (try unfold Serves); (try dsimp only); first | done | decide +kernel⟩

theorem test_hyp_PositionRecoveryCompletes_1 :
    ∃ s : State, ∃ p : ProcId, (s.now.recovers p = true) ∧ ((s.now.pos.est.get p).inited = false) ∧ (s.now.readsTape (s.now.pos.est.get p) = false) :=
  ⟨{ live with now := { liveMach with pos.est.d.inited := false, start.step := 5, pos.est.d.readers.a.lost := true } }, .d, by (try unfold Serves); (try dsimp only); first | done | decide +kernel⟩

theorem test_hyp_PositionRecoveryCompletes_2 :
    ∃ s : State, ∃ p : ProcId, (s.now.start.step = 5) ∧ (s.now.recovers p = true) ∧ ((s.now.pos.est.get p).inited = false) ∧ (1400000 ≤ s.now.start.usBase + 250 * (s.now.time.frame : Int) - s.now.start.dlBase) :=
  ⟨{ live with now := { liveMach with start.step := 5, pos.est.d.inited := false } }, .d, by (try unfold Serves); (try dsimp only); first | done | decide +kernel⟩

theorem test_hyp_LearnAndHomeComplete_0 :
    (∃ s : State, ∃ tag : Nat, (Serves s 0x24) ∧ (s.now.session = false)) ∧
    (∃ s : State, ∃ tag : Nat, (Serves s 0x24) ∧ (s.now.session = true) ∧ (s.now.learnMay = false)) ∧
    (∃ s : State, ∃ tag : Nat, (Serves s 0x24) ∧ (s.now.session = true) ∧ (s.now.still = true) ∧ (s.now.inspection = false) ∧ (s.now.evacuation = false) ∧ (s.now.tapeInUse = true) ∧ (1 ≤ s.now.quality) ∧ (s.now.learnFaultsOk = true) ∧ (s.now.learning = true)) ∧
    (∃ s : State, ∃ tag : Nat, (Serves s 0x24) ∧ (s.now.session = true) ∧ (s.now.still = true) ∧ (s.now.inspection = false) ∧ (s.now.evacuation = false) ∧ (s.now.tapeInUse = true) ∧ (1 ≤ s.now.quality) ∧ (s.now.learnFaultsOk = true) ∧ (s.now.learning = false)) :=
  ⟨⟨{ live with now := { liveMach with cab.session := none } }, 0, by (try unfold Serves); (try dsimp only); first | done | decide +kernel⟩,
    ⟨{ live with now := { liveMach with cab.session := some 0, pos.est.d.still := 0 } }, 0, by (try unfold Serves); (try dsimp only); first | done | decide +kernel⟩,
    ⟨{ live with now := { liveMach with cab.session := some 0, pos.learn.active := true } }, 0, by (try unfold Serves); (try dsimp only); first | done | decide +kernel⟩,
    ⟨{ live with now := { liveMach with cab.session := some 0 } }, 0, by (try unfold Serves); (try dsimp only); first | done | decide +kernel⟩⟩

theorem test_hyp_LearnAndHomeComplete_1 :
    (∃ s : State, ∃ tag : Nat, ∃ dir : Nat, (Serves s 0x25) ∧ (1 < dir)) ∧
    (∃ s : State, ∃ tag : Nat, ∃ dir : Nat, (Serves s 0x25) ∧ (dir ≤ 1) ∧ (s.now.learnMay = false)) ∧
    (∃ s : State, ∃ tag : Nat, ∃ dir : Nat, (Serves s 0x25) ∧ (dir ≤ 1) ∧ (s.now.still = true) ∧ (s.now.inspection = false) ∧ (s.now.evacuation = false) ∧ (s.now.tapeInUse = true) ∧ (1 ≤ s.now.quality) ∧ (s.now.learnFaultsOk = true) ∧ (s.now.learning = true)) ∧
    (∃ s : State, ∃ tag : Nat, ∃ dir : Nat, (Serves s 0x25) ∧ (dir ≤ 1) ∧ (s.now.still = true) ∧ (s.now.inspection = false) ∧ (s.now.evacuation = false) ∧ (s.now.tapeInUse = true) ∧ (1 ≤ s.now.quality) ∧ (s.now.learnFaultsOk = true) ∧ (s.now.learning = false)) :=
  ⟨⟨live, 0, 2, by (try unfold Serves); (try dsimp only); first | done | decide +kernel⟩,
    ⟨{ live with now := { liveMach with pos.est.d.still := 0 } }, 0, 0, by (try unfold Serves); (try dsimp only); first | done | decide +kernel⟩,
    ⟨{ live with now := { liveMach with pos.learn.active := true } }, 0, 0, by (try unfold Serves); (try dsimp only); first | done | decide +kernel⟩,
    ⟨live, 0, 0, by (try unfold Serves); (try dsimp only); first | done | decide +kernel⟩⟩

theorem test_hyp_LearnAndHomeComplete_2 :
    (∃ s : State, (s.now.passOver = true) ∧ (s.now.pos.learn.state = 3) ∧ 
    let good (zs : List Learned) : Prop :=
      (∀ z ∈ zs, 40000 ≤ z.high - z.low ∧ z.high - z.low ≤ 400000 ∧ (z.up - z.down).natAbs ≤ 5000)
      ∧ spacedOk (zs.map s.now.learnedSill) = true
      ∧ (zs.map s.now.learnedSill).getLastD 0 - (zs.map s.now.learnedSill).headD 0 ≤ 1000000000
      ∧ ((s.now.learnEntries zs).foldl stagePut s.now.cab.staged).length ≤ 2048
    ∃ zs, (s.now.learnedZones = some zs) ∧ (good zs)) ∧
    (∃ s : State, (s.now.passOver = true) ∧ (s.now.pos.learn.state = 3) ∧ 
    let good (zs : List Learned) : Prop :=
      (∀ z ∈ zs, 40000 ≤ z.high - z.low ∧ z.high - z.low ≤ 400000 ∧ (z.up - z.down).natAbs ≤ 5000)
      ∧ spacedOk (zs.map s.now.learnedSill) = true
      ∧ (zs.map s.now.learnedSill).getLastD 0 - (zs.map s.now.learnedSill).headD 0 ≤ 1000000000
      ∧ ((s.now.learnEntries zs).foldl stagePut s.now.cab.staged).length ≤ 2048
    ((∀ zs, s.now.learnedZones = some zs → ¬ good zs))) :=
  ⟨⟨{ live with now := { (liveMach.putI 0 pN_LANDINGS 2) with pos.learn.state := 3, pos.learn.active := true, pos.learn.passStarted := true, pos.learn.edges := twoZones } }, by (try unfold Serves); (try dsimp only); first | done | decide +kernel, by (try unfold Serves); (try dsimp only); first | done | decide +kernel, [⟨-100000, 100000, 0, 0⟩, ⟨2900000, 3100000, 3000000, 3000000⟩], by (try unfold Serves); (try dsimp only); first | done | decide +kernel⟩,
    ⟨{ live with now := { (liveMach.putI 0 pN_LANDINGS 2) with pos.learn.state := 3, pos.learn.active := true, pos.learn.passStarted := true } }, by (try unfold Serves); (try dsimp only); first | done | decide +kernel⟩⟩

theorem test_hyp_LearnAndHomeComplete_3 :
    (∃ s : State, (s.now.pos.home.active = true) ∧ (s.now.pos.home.returning = true) ∧ (s.now.engineFree = true) ∧ 
    let h := s.now.pos.home
    
    let ref := s.now.land h.landing (if h.up then pDZ_MID_UP else pDZ_MID_DOWN)
    
    let m0 : Mach := { s.now with pos.home := HomeState.reset }
    
    let m1 : Mach := if s.now.inForce 1 0x3E then m0 else
      { m0 with pos.est := m0.pos.est.map fun _ e => { e with confirmed := true }, sched.homeDue := true }.endFault 1 0x3F
    
    let bad : Mach := { m0 with pos.est := m0.pos.est.map fun _ e => { e with confirmed := false } }
    ((h.mid - ref).natAbs ≤ s.now.nat pHOME_TOL)) ∧
    (∃ s : State, (s.now.pos.home.active = true) ∧ (s.now.pos.home.returning = true) ∧ (s.now.engineFree = true) ∧ 
    let h := s.now.pos.home
    
    let ref := s.now.land h.landing (if h.up then pDZ_MID_UP else pDZ_MID_DOWN)
    
    let m0 : Mach := { s.now with pos.home := HomeState.reset }
    
    let m1 : Mach := if s.now.inForce 1 0x3E then m0 else
      { m0 with pos.est := m0.pos.est.map fun _ e => { e with confirmed := true }, sched.homeDue := true }.endFault 1 0x3F
    
    let bad : Mach := { m0 with pos.est := m0.pos.est.map fun _ e => { e with confirmed := false } }
    (s.now.nat pHOME_TOL < (h.mid - ref).natAbs)) :=
  ⟨⟨{ live with now := { (liveMach.putI 0x1000 pDZ_MID_UP 0) with pos.home.active := true, pos.home.returning := true, pos.home.up := true } }, by (try unfold Serves); (try dsimp only); first | done | decide +kernel⟩,
    ⟨{ live with now := { (liveMach.putI 0x1000 pDZ_MID_UP 0) with pos.home.active := true, pos.home.returning := true, pos.home.up := true, pos.home.mid := 100000000 } }, by (try unfold Serves); (try dsimp only); first | done | decide +kernel⟩⟩

theorem test_hyp_EngineEventsComplete_0 :
    ∃ s : State, (s.now.eng.stop.isSome = true) ∧ (s.now.eng.kin.v = 0) ∧ (s.now.eng.closing = false) :=
  ⟨{ live with now := { liveMach with eng.closing := false, eng.stop := some ⟨.safe, [], 0, Kin.rest 0, 0, true⟩ } }, by (try unfold Serves); (try dsimp only); first | done | decide +kernel⟩

theorem test_hyp_EngineEventsComplete_1 :
    ∃ s : State, (s.now.eng.pendRest = true) ∧ (4 * s.now.nat pDRV_START_TIME ≤ s.now.time.frame - s.now.eng.pendSince) :=
  ⟨{ live with now := { liveMach with eng.pendRest := true } }, by (try unfold Serves); (try dsimp only); first | done | decide +kernel⟩

theorem test_hyp_EngineEventsComplete_2 :
    ∃ s : State, ∃ r : RunningPlan, (s.now.eng.exec = some r) ∧ (r.ended = true) ∧ (s.now.eng.stop = none) ∧ (s.now.eng.settleSince = none) ∧ (s.now.eng.closing = false) ∧ (s.now.eng.pendRest = false) :=
  ⟨{ live with now := { liveMach with eng.exec := some ⟨Plan.empty, 0, Kin.rest 0, true⟩, eng.stop := none, eng.settleSince := none, eng.closing := false, eng.pendRest := false } }, ⟨Plan.empty, 0, Kin.rest 0, true⟩, by (try unfold Serves); (try dsimp only); first | done | decide +kernel⟩

theorem test_hyp_EngineEventsComplete_3 :
    ∃ s : State, (s.now.flag pRELEVEL_ENABLE = true) ∧ (s.now.stationary = true) ∧ (s.now.brakeClosed = true) ∧ (s.now.doorsInUse = true) ∧ (2 ≤ s.now.quality) ∧ (s.now.eng.relReq = false) ∧ (s.now.eng.mode = 0) ∧ (s.now.eng.stop = none) ∧ (4 * s.now.nat pRELEVEL_DELAY ≤ s.now.eng.relRun) :=
  ⟨{ live with now := { liveMach with eng.relReq := false, eng.mode := 0, eng.stop := none, safe.brake := 2, doors.a.state := 3, eng.relRun := 4000 } }, by (try unfold Serves); (try dsimp only); first | done | decide +kernel⟩

theorem test_hyp_EngineEventsComplete_4 :
    (∃ s : State, (s.now.eng.relReq = true) ∧ (((s.now.eng.relSince + 2 ≤ s.now.time.frame ∧ s.now.safe.grant = false) ∨ 12000 ≤ s.now.time.frame - s.now.eng.relSince)) ∧ 
    let m1 := ({ s.now with eng.relReq := false } : Mach).raise 1 0x48 3
    ((m1.eng.pendRest = false ∨ m1.planner = false))) ∧
    (∃ s : State, (s.now.eng.relReq = true) ∧ (((s.now.eng.relSince + 2 ≤ s.now.time.frame ∧ s.now.safe.grant = false) ∨ 12000 ≤ s.now.time.frame - s.now.eng.relSince)) ∧ 
    let m1 := ({ s.now with eng.relReq := false } : Mach).raise 1 0x48 3
    (m1.eng.pendRest = true) ∧ (m1.planner = true)) :=
  ⟨⟨{ live with now := { liveMach with eng.relReq := true } }, by (try unfold Serves); (try dsimp only); first | done | decide +kernel⟩,
    ⟨{ live with now := { liveMach with eng.relReq := true, eng.pendRest := true } }, by (try unfold Serves); (try dsimp only); first | done | decide +kernel⟩⟩

theorem test_hyp_EngineEventsComplete_5 :
    (∃ s : State, (s.now.eng.spOn = true) ∧ (s.now.nat pDRV_FB_TIMEOUT ≤ s.now.eng.fbMiss) ∧ (1000 ≤ s.now.fvel.natAbs)) ∧
    (∃ s : State, (s.now.eng.spOn = true) ∧ (s.now.nat pDRV_FB_TIMEOUT ≤ s.now.eng.fbMiss) ∧ (s.now.fvel.natAbs < 1000)) :=
  ⟨⟨{ live with now := { liveMach with eng.spOn := true, eng.fbMiss := 100, pos.est.d.pubV := 500000 } }, by (try unfold Serves); (try dsimp only); first | done | decide +kernel⟩,
    ⟨{ live with now := { liveMach with eng.spOn := true, eng.fbMiss := 100 } }, by (try unfold Serves); (try dsimp only); first | done | decide +kernel⟩⟩

theorem test_hyp_EngineEventsComplete_6 :
    ∃ s : State, (4 * s.now.nat pTRACK_TIME ≤ s.now.eng.trackRun) :=
  ⟨{ live with now := { liveMach with eng.trackRun := 100000 } }, by (try unfold Serves); (try dsimp only); first | done | decide +kernel⟩

theorem test_hyp_DriveFeedbackIsTaken_0 :
    (∃ s : State, ∃ msg : List Nat, ∃ rx : Nat, (msg.length = 32) ∧ (leAt msg 28 4 = crcSafety (le 4 (s.now.nat pDRV_FB_ID) ++ msg.take 28)) ∧ (leAt msg 2 1 = s.now.nat pDRV_FB_SRC) ∧ ((s.now.eng.fbSeen = true → newer 16 (leAt msg 0 2) s.now.eng.fb.seq = true)) ∧ (leAt msg 8 8 ≤ rx) ∧ (rx ≤ leAt msg 8 8 + 2000) ∧ ((s.now.eng.spSent = true → (s.now.eng.spSeq + 131071 - leAt msg 4 2) % 65536 ≤ 2)) ∧ 
    let fb : Feedback := ⟨leAt msg 0 2, leAt msg 3 1, leAt msg 6 2, leSAt msg 16 4, leSAt msg 20 2, leAt msg 22 2, leAt msg 24 4⟩
    
    let m1 : Mach := { s.now with
      eng.fb := fb
      eng.fbSeen := true
      eng.fbThisCycle := true
      eng.brakeReq := s.now.eng.brakeReq || (s.now.eng.pendRest && fb.state == 2) }
    (fb.state ≠ 4)) ∧
    (∃ s : State, ∃ msg : List Nat, ∃ rx : Nat, (msg.length = 32) ∧ (leAt msg 28 4 = crcSafety (le 4 (s.now.nat pDRV_FB_ID) ++ msg.take 28)) ∧ (leAt msg 2 1 = s.now.nat pDRV_FB_SRC) ∧ ((s.now.eng.fbSeen = true → newer 16 (leAt msg 0 2) s.now.eng.fb.seq = true)) ∧ (leAt msg 8 8 ≤ rx) ∧ (rx ≤ leAt msg 8 8 + 2000) ∧ ((s.now.eng.spSent = true → (s.now.eng.spSeq + 131071 - leAt msg 4 2) % 65536 ≤ 2)) ∧ 
    let fb : Feedback := ⟨leAt msg 0 2, leAt msg 3 1, leAt msg 6 2, leSAt msg 16 4, leSAt msg 20 2, leAt msg 22 2, leAt msg 24 4⟩
    
    let m1 : Mach := { s.now with
      eng.fb := fb
      eng.fbSeen := true
      eng.fbThisCycle := true
      eng.brakeReq := s.now.eng.brakeReq || (s.now.eng.pendRest && fb.state == 2) }
    (fb.state = 4)) :=
  ⟨⟨live, fbMsg 1, 0, by (try unfold Serves); (try dsimp only); first | done | decide +kernel⟩,
    ⟨live, fbMsg 4, 0, by (try unfold Serves); (try dsimp only); first | done | decide +kernel⟩⟩

theorem test_hyp_DriveFeedbackIsTaken_1 :
    ∃ s : State, ∃ msg : List Nat, ∃ rx : Nat, (s.now.feedbackOk msg rx = false) :=
  ⟨live, [], 0, by (try unfold Serves); (try dsimp only); first | done | decide +kernel⟩

theorem test_hyp_LevelSettleEnds_0 :
    (∃ s : State, ∃ f : Nat, (s.now.eng.settleSince = some f) ∧ (4 * s.now.nat pLEVEL_SETTLE ≤ s.now.time.frame - f) ∧ 
    let fin (m : Mach) : Mach := { m with eng.brakeReq := false, eng.closing := true, eng.settleSince := none }
    
    let kind := match s.now.eng.exec with | some r => r.plan.kind | none => 0
    ((kind = 3 ∨ kind = 4 ∨ s.now.levelMean = none))) ∧
    (∃ s : State, ∃ f : Nat, (s.now.eng.settleSince = some f) ∧ (4 * s.now.nat pLEVEL_SETTLE ≤ s.now.time.frame - f) ∧ 
    let fin (m : Mach) : Mach := { m with eng.brakeReq := false, eng.closing := true, eng.settleSince := none }
    
    let kind := match s.now.eng.exec with | some r => r.plan.kind | none => 0
    ∃ x : Int, (kind ≠ 3) ∧ (kind ≠ 4) ∧ (s.now.levelMean = some x) ∧ ((x.natAbs ≤ s.now.nat pLEVEL_TOL ∨ s.now.nat pLEVEL_RETRIES ≤ s.now.eng.retries ∨ kind = 2))) ∧
    (∃ s : State, ∃ f : Nat, (s.now.eng.settleSince = some f) ∧ (4 * s.now.nat pLEVEL_SETTLE ≤ s.now.time.frame - f) ∧ 
    let fin (m : Mach) : Mach := { m with eng.brakeReq := false, eng.closing := true, eng.settleSince := none }
    
    let kind := match s.now.eng.exec with | some r => r.plan.kind | none => 0
    ∃ x : Int, (kind ≠ 3) ∧ (kind ≠ 4) ∧ (s.now.levelMean = some x) ∧ ((kind = 0 ∨ kind = 1 ∨ kind = 5 ∨ kind = 6)) ∧ (s.now.nat pLEVEL_TOL < x.natAbs) ∧ (s.now.eng.retries < s.now.nat pLEVEL_RETRIES) ∧ (s.now.planner = false)) ∧
    (∃ s : State, ∃ f : Nat, (s.now.eng.settleSince = some f) ∧ (4 * s.now.nat pLEVEL_SETTLE ≤ s.now.time.frame - f) ∧ 
    let fin (m : Mach) : Mach := { m with eng.brakeReq := false, eng.closing := true, eng.settleSince := none }
    
    let kind := match s.now.eng.exec with | some r => r.plan.kind | none => 0
    ∃ x : Int, (kind ≠ 3) ∧ (kind ≠ 4) ∧ (s.now.levelMean = some x) ∧ ((kind = 0 ∨ kind = 1 ∨ kind = 5 ∨ kind = 6)) ∧ (s.now.nat pLEVEL_TOL < x.natAbs) ∧ (s.now.eng.retries < s.now.nat pLEVEL_RETRIES) ∧ (s.now.planner = true) ∧ 
    let r := ({ s.now with eng.settleSince := none } : Mach).planFromRest 1 (unitOf s.now.eng.kin.p - x)
    (r.2 = true)) ∧
    (∃ s : State, ∃ f : Nat, (s.now.eng.settleSince = some f) ∧ (4 * s.now.nat pLEVEL_SETTLE ≤ s.now.time.frame - f) ∧ 
    let fin (m : Mach) : Mach := { m with eng.brakeReq := false, eng.closing := true, eng.settleSince := none }
    
    let kind := match s.now.eng.exec with | some r => r.plan.kind | none => 0
    ∃ x : Int, (kind ≠ 3) ∧ (kind ≠ 4) ∧ (s.now.levelMean = some x) ∧ ((kind = 0 ∨ kind = 1 ∨ kind = 5 ∨ kind = 6)) ∧ (s.now.nat pLEVEL_TOL < x.natAbs) ∧ (s.now.eng.retries < s.now.nat pLEVEL_RETRIES) ∧ (s.now.planner = true) ∧ 
    let r := ({ s.now with eng.settleSince := none } : Mach).planFromRest 1 (unitOf s.now.eng.kin.p - x)
    (r.2 = false)) :=
  ⟨⟨{ live with now := { liveMach with eng.settleSince := some 0 } }, 0, by (try unfold Serves); (try dsimp only); first | done | decide +kernel⟩,
    ⟨{ live with now := { liveMach with eng.settleSince := some 0, pos.levelHist := [16383], eng.retries := 2, eng.exec := some ⟨{ Plan.empty with kind := 0 }, 0, Kin.rest 0, true⟩ } }, 0, by (try unfold Serves); (try dsimp only); first | done | decide +kernel, by (try unfold Serves); (try dsimp only); first | done | decide +kernel, 16383, by (try unfold Serves); (try dsimp only); first | done | decide +kernel⟩,
    ⟨{ live with now := { liveMach with eng.settleSince := some 0, pos.levelHist := [16383], pair.holder := none, eng.exec := some ⟨{ Plan.empty with kind := 1 }, 0, Kin.rest 0, true⟩ } }, 0, by (try unfold Serves); (try dsimp only); first | done | decide +kernel, by (try unfold Serves); (try dsimp only); first | done | decide +kernel, 16383, by (try unfold Serves); (try dsimp only); first | done | decide +kernel⟩,
    ⟨{ live with now := { liveMach with eng.settleSince := some 0, pos.levelHist := [-16383], eng.exec := some ⟨{ Plan.empty with kind := 6, target := 20000 }, 0, Kin.rest 0, true⟩ } }, 0, by (try unfold Serves); (try dsimp only); first | done | decide +kernel, by (try unfold Serves); (try dsimp only); first | done | decide +kernel, -16383, by (try unfold Serves); (try dsimp only); first | done | decide +kernel⟩,
    ⟨{ live with now := { liveMach with eng.settleSince := some 0, pos.levelHist := [16383], eng.exec := some ⟨{ Plan.empty with kind := 5 }, 0, Kin.rest 0, true⟩ } }, 0, by (try unfold Serves); (try dsimp only); first | done | decide +kernel, by (try unfold Serves); (try dsimp only); first | done | decide +kernel, 16383, by (try unfold Serves); (try dsimp only); first | done | decide +kernel⟩⟩

theorem test_hyp_StopCommandsComplete_0 :
    ∃ s : State, ∃ tag : Nat, (Serves s 0x23) ∧ (s.now.start.ready = true) :=
  ⟨{ live with now := { liveMach with start.ready := true } }, 0, by (try unfold Serves); (try dsimp only); first | done | decide +kernel⟩

theorem test_hyp_StopCommandsComplete_1 :
    ∃ s : State, ∃ tag : Nat, (Serves s 0x23) ∧ (s.now.start.ready = false) :=
  ⟨{ live with now := { liveMach with start.ready := false, start.step := 7 } }, 0, by (try unfold Serves); (try dsimp only); first | done | decide +kernel⟩

theorem test_hyp_StopCommandsComplete_2 :
    (∃ s : State, ∃ tag : Nat, (Serves s 0x23) ∧ 
    let m1 := s.now.putI 0 pSCHED_HOLD 1
    (m1.pos.learn.active = false)) ∧
    (∃ s : State, ∃ tag : Nat, (Serves s 0x23) ∧ 
    let m1 := s.now.putI 0 pSCHED_HOLD 1
    (m1.pos.learn.active = true)) :=
  ⟨⟨live, 0, by (try unfold Serves); (try dsimp only); first | done | decide +kernel⟩,
    ⟨{ live with now := { liveMach with pos.learn.active := true } }, 0, by (try unfold Serves); (try dsimp only); first | done | decide +kernel⟩⟩

theorem test_hyp_CallCommandsComplete_0 :
    (∃ s : State, ∃ tag : Nat, ∃ l : Nat, ∃ k : Nat, ∃ sides : Nat, (Serves s 0x20) ∧ (s.now.nLandings ≤ l)) ∧
    (∃ s : State, ∃ tag : Nat, ∃ l : Nat, ∃ k : Nat, ∃ sides : Nat, (Serves s 0x20) ∧ (l < s.now.nLandings) ∧ ((sides = 0 ∨ 3 < sides ∨ 2 < k ∨ sides &&& s.now.sidesServed l ≠ sides))) ∧
    (∃ s : State, ∃ tag : Nat, ∃ l : Nat, ∃ k : Nat, ∃ sides : Nat, (Serves s 0x20) ∧ (l < s.now.nLandings) ∧ (s.now.badHall l k = true)) ∧
    (∃ s : State, ∃ tag : Nat, ∃ l : Nat, ∃ k : Nat, ∃ sides : Nat, (Serves s 0x20) ∧ (l < s.now.nLandings) ∧ (1 ≤ sides) ∧ (sides ≤ 3) ∧ (k ≤ 2) ∧ (sides &&& s.now.sidesServed l = sides) ∧ (s.now.badHall l k = false) ∧ ((s.now.nat pSCHED_MODE = 0 ∨ (k ≠ 0 ∧ s.now.nat pSCHED_MODE = 2) ∨ s.now.sched.inService = false ∨ s.now.inspection = true ∨ s.now.evacuation = true ∨ s.now.landingOn l = false))) ∧
    (∃ s : State, ∃ tag : Nat, ∃ l : Nat, ∃ k : Nat, ∃ sides : Nat, (Serves s 0x20) ∧ (l < s.now.nLandings) ∧ (1 ≤ sides) ∧ (sides ≤ 3) ∧ (k ≤ 2) ∧ (sides &&& s.now.sidesServed l = sides) ∧ (s.now.badHall l k = false) ∧ (s.now.nat pSCHED_MODE ≠ 0) ∧ ((k ≠ 0 → s.now.nat pSCHED_MODE ≠ 2)) ∧ (s.now.sched.inService = true) ∧ (s.now.inspection = false) ∧ (s.now.evacuation = false) ∧ (s.now.landingOn l = true) ∧ (s.now.land l (if k = 0 then pCAR_CALL_EN else pHALL_CALL_EN) = 0)) ∧
    (∃ s : State, ∃ tag : Nat, ∃ l : Nat, ∃ k : Nat, ∃ sides : Nat, (Serves s 0x20) ∧ (l < s.now.nLandings) ∧ (1 ≤ sides) ∧ (sides ≤ 3) ∧ (k ≤ 2) ∧ (sides &&& s.now.sidesServed l = sides) ∧ (s.now.badHall l k = false) ∧ (s.now.nat pSCHED_MODE ≠ 0) ∧ ((k ≠ 0 → s.now.nat pSCHED_MODE ≠ 2)) ∧ (s.now.sched.inService = true) ∧ (s.now.inspection = false) ∧ (s.now.evacuation = false) ∧ (s.now.landingOn l = true) ∧ (s.now.land l (if k = 0 then pCAR_CALL_EN else pHALL_CALL_EN) ≠ 0)) :=
  ⟨⟨live, 0, 4, 0, 1, by (try unfold Serves); (try dsimp only); first | done | decide +kernel⟩,
    ⟨live, 0, 0, 0, 0, by (try unfold Serves); (try dsimp only); first | done | decide +kernel⟩,
    ⟨{ live with now := (liveMach.putI 0x1003 pSIDES_SERVED 1) }, 0, 3, 1, 1, by (try unfold Serves); (try dsimp only); first | done | decide +kernel⟩,
    ⟨{ live with now := { liveMach with sched.inService := false } }, 0, 0, 0, 1, by (try unfold Serves); (try dsimp only); first | done | decide +kernel⟩,
    ⟨{ live with now := { (liveMach.putI 0x1000 pCAR_CALL_EN 0) with sched.inService := true } }, 0, 0, 0, 1, by (try unfold Serves); (try dsimp only); first | done | decide +kernel⟩,
    ⟨{ live with now := { liveMach with sched.inService := true } }, 0, 0, 0, 1, by (try unfold Serves); (try dsimp only); first | done | decide +kernel⟩⟩

theorem test_hyp_CallCommandsComplete_1 :
    (∃ s : State, ∃ tag : Nat, ∃ l : Nat, ∃ k : Nat, ∃ sides : Nat, (Serves s 0x21) ∧ (s.now.nLandings ≤ l)) ∧
    (∃ s : State, ∃ tag : Nat, ∃ l : Nat, ∃ k : Nat, ∃ sides : Nat, (Serves s 0x21) ∧ (l < s.now.nLandings) ∧ ((sides = 0 ∨ 3 < sides ∨ 2 < k ∨ sides &&& s.now.sidesServed l ≠ sides ∨ s.now.badHall l k = true))) ∧
    (∃ s : State, ∃ tag : Nat, ∃ l : Nat, ∃ k : Nat, ∃ sides : Nat, (Serves s 0x21) ∧ (l < s.now.nLandings) ∧ (1 ≤ sides) ∧ (sides ≤ 3) ∧ (k ≤ 2) ∧ (sides &&& s.now.sidesServed l = sides) ∧ (s.now.badHall l k = false)) :=
  ⟨⟨live, 0, 4, 0, 1, by (try unfold Serves); (try dsimp only); first | done | decide +kernel⟩,
    ⟨live, 0, 0, 0, 0, by (try unfold Serves); (try dsimp only); first | done | decide +kernel⟩,
    ⟨live, 0, 0, 0, 1, by (try unfold Serves); (try dsimp only); first | done | decide +kernel⟩⟩

theorem test_hyp_RunToAnswered_0 :
    (∃ s : State, ∃ tag : Nat, ∃ l : Nat, ∃ sides : Nat, (Serves s 0x22) ∧ (s.now.nat pSCHED_MODE ≠ 0)) ∧
    (∃ s : State, ∃ tag : Nat, ∃ l : Nat, ∃ sides : Nat, (Serves s 0x22) ∧ (s.now.nat pSCHED_MODE = 0) ∧ (s.now.nLandings ≤ l)) ∧
    (∃ s : State, ∃ tag : Nat, ∃ l : Nat, ∃ sides : Nat, (Serves s 0x22) ∧ (s.now.nat pSCHED_MODE = 0) ∧ (l < s.now.nLandings) ∧ ((3 < sides ∨ sides &&& s.now.sidesServed l ≠ sides))) ∧
    (∃ s : State, ∃ tag : Nat, ∃ l : Nat, ∃ sides : Nat, (Serves s 0x22) ∧ (s.now.nat pSCHED_MODE = 0) ∧ (l < s.now.nLandings) ∧ (sides ≤ 3) ∧ (sides &&& s.now.sidesServed l = sides) ∧ ((s.now.sched.inService = false ∨ s.now.inspection = true ∨ s.now.evacuation = true ∨ s.now.landingOn l = false))) ∧
    (∃ s : State, ∃ tag : Nat, ∃ l : Nat, ∃ sides : Nat, (Serves s 0x22) ∧ (s.now.nat pSCHED_MODE = 0) ∧ (l < s.now.nLandings) ∧ (sides ≤ 3) ∧ (sides &&& s.now.sidesServed l = sides) ∧ (s.now.sched.inService = true) ∧ (s.now.inspection = false) ∧ (s.now.evacuation = false) ∧ (s.now.landingOn l = true)) :=
  ⟨⟨live, 0, 0, 0, by (try unfold Serves); (try dsimp only); first | done | decide +kernel⟩,
    ⟨{ live with now := (liveMach.putI 0 pSCHED_MODE 0) }, 0, 4, 0, by (try unfold Serves); (try dsimp only); first | done | decide +kernel⟩,
    ⟨{ live with now := (liveMach.putI 0 pSCHED_MODE 0) }, 0, 0, 4, by (try unfold Serves); (try dsimp only); first | done | decide +kernel⟩,
    ⟨{ live with now := { (liveMach.putI 0 pSCHED_MODE 0) with sched.inService := false } }, 0, 0, 0, by (try unfold Serves); (try dsimp only); first | done | decide +kernel⟩,
    ⟨{ live with now := { (liveMach.putI 0 pSCHED_MODE 0) with sched.inService := true } }, 0, 0, 1, by (try unfold Serves); (try dsimp only); first | done | decide +kernel⟩⟩

theorem test_hyp_SchedulerEventsComplete_0 :
    ∃ s : State, 
    let p := s.now.nat pPARK_LANDING
    (p ≠ 0xFFFF) ∧ (p < s.now.nLandings) ∧ (s.now.landingOn p = true) ∧ (s.now.curLanding ≠ some p) ∧ (s.now.readyForRun = true) ∧ (s.now.sched.stops = []) ∧ (s.now.sched.calls = []) ∧ (4000 * s.now.nat pPARK_DELAY ≤ s.now.time.frame - s.now.sched.idleSince) :=
  ⟨{ live with now := { (liveMach.putI 0 pPARK_LANDING 2) with sched.stops := [], sched.calls := [] } }, by (try unfold Serves); (try dsimp only); first | done | decide +kernel⟩

theorem test_hyp_SchedulerEventsComplete_1 :
    ∃ s : State, (s.now.sched.runDue = true) ∧ (4 * s.now.nat pSCHED_STALL_TIME ≤ s.now.time.frame - s.now.sched.dueSince) :=
  ⟨{ live with now := { liveMach with sched.runDue := true } }, by (try unfold Serves); (try dsimp only); first | done | decide +kernel⟩

theorem test_hyp_SchedulerEventsComplete_2 :
    ∃ s : State, (s.now.sched.runDue = false) ∧ (s.now.sched.lowDue = true) ∧ (4 * s.now.nat pSCHED_STALL_TIME ≤ s.now.time.frame - s.now.sched.lowSince) :=
  ⟨{ live with now := { liveMach with sched.runDue := false, sched.lowDue := true } }, by (try unfold Serves); (try dsimp only); first | done | decide +kernel⟩

theorem test_hyp_SchedulerEventsComplete_3 :
    ∃ s : State, (s.now.nat pSCHED_MODE = 2) ∧ (s.now.power.state ≠ 3) ∧ (4 * s.now.nat pGROUP_HB_TIMEOUT ≤ s.now.time.frame - s.now.sched.hbLast) :=
  ⟨{ live with now := (liveMach.putI 0 pSCHED_MODE 2) }, by (try unfold Serves); (try dsimp only); first | done | decide +kernel⟩

theorem test_hyp_SchedulerEventsComplete_4 :
    (∃ m : Mach, (m.sched.decided = true) ∧ (m.sched.exitReq = true) ∧ (m.planner = true)) ∧
    (∃ m : Mach, ((m.sched.decided = false ∨ m.sched.exitReq = false ∨ m.planner = false))) :=
  ⟨⟨{ liveMach with sched.decided := true, sched.exitReq := true }, by (try unfold Serves); (try dsimp only); first | done | decide +kernel⟩,
    ⟨{ liveMach with sched.decided := false }, by (try unfold Serves); (try dsimp only); first | done | decide +kernel⟩⟩

theorem test_hyp_DoorCommandsAnswered_0 :
    (∃ s : State, ∃ tag : Nat, ∃ sides : Nat, ∃ op : Nat, ∃ c : Nat, ∃ cmd : Instr, (((op, c, cmd) = (0x30, 1, .doorOpen tag sides) ∨ (op, c, cmd) = (0x31, 2, .doorClose tag sides) ∨ (op, c, cmd) = (0x32, 3, .doorHold tag sides) ∨ (op, c, cmd) = (0x33, 4, .doorNudge tag sides) ∨ (op, c, cmd) = (0x34, 5, .doorLearn tag sides))) ∧ (Serves s op) ∧ 
    let sa := s.now.doorStatus .a c
    
    let sb := s.now.doorStatus .b c
    ((sides = 0 ∨ 3 < sides))) ∧
    (∃ s : State, ∃ tag : Nat, ∃ sides : Nat, ∃ op : Nat, ∃ c : Nat, ∃ cmd : Instr, (((op, c, cmd) = (0x30, 1, .doorOpen tag sides) ∨ (op, c, cmd) = (0x31, 2, .doorClose tag sides) ∨ (op, c, cmd) = (0x32, 3, .doorHold tag sides) ∨ (op, c, cmd) = (0x33, 4, .doorNudge tag sides) ∨ (op, c, cmd) = (0x34, 5, .doorLearn tag sides))) ∧ (Serves s op) ∧ 
    let sa := s.now.doorStatus .a c
    
    let sb := s.now.doorStatus .b c
    (sides = 1)) ∧
    (∃ s : State, ∃ tag : Nat, ∃ sides : Nat, ∃ op : Nat, ∃ c : Nat, ∃ cmd : Instr, (((op, c, cmd) = (0x30, 1, .doorOpen tag sides) ∨ (op, c, cmd) = (0x31, 2, .doorClose tag sides) ∨ (op, c, cmd) = (0x32, 3, .doorHold tag sides) ∨ (op, c, cmd) = (0x33, 4, .doorNudge tag sides) ∨ (op, c, cmd) = (0x34, 5, .doorLearn tag sides))) ∧ (Serves s op) ∧ 
    let sa := s.now.doorStatus .a c
    
    let sb := s.now.doorStatus .b c
    (sides = 2)) ∧
    (∃ s : State, ∃ tag : Nat, ∃ sides : Nat, ∃ op : Nat, ∃ c : Nat, ∃ cmd : Instr, (((op, c, cmd) = (0x30, 1, .doorOpen tag sides) ∨ (op, c, cmd) = (0x31, 2, .doorClose tag sides) ∨ (op, c, cmd) = (0x32, 3, .doorHold tag sides) ∨ (op, c, cmd) = (0x33, 4, .doorNudge tag sides) ∨ (op, c, cmd) = (0x34, 5, .doorLearn tag sides))) ∧ (Serves s op) ∧ 
    let sa := s.now.doorStatus .a c
    
    let sb := s.now.doorStatus .b c
    (sides = 3)) :=
  ⟨⟨live, 0, 0, 0x30, 1, .doorOpen 0 0, by (try unfold Serves); (try dsimp only); first | done | decide +kernel⟩,
    ⟨live, 0, 1, 0x30, 1, .doorOpen 0 1, by (try unfold Serves); (try dsimp only); first | done | decide +kernel⟩,
    ⟨live, 0, 2, 0x30, 1, .doorOpen 0 2, by (try unfold Serves); (try dsimp only); first | done | decide +kernel⟩,
    ⟨live, 0, 3, 0x30, 1, .doorOpen 0 3, by (try unfold Serves); (try dsimp only); first | done | decide +kernel⟩⟩

theorem test_hyp_DoorCommandAccepted_0 :
    (∃ m : Mach, ∃ side : Sys2Proof.Ab, ∃ c : Nat, ∃ tag : Nat, (m.doorStatus side c ≤ 1)) ∧
    (∃ m : Mach, ∃ side : Sys2Proof.Ab, ∃ c : Nat, ∃ tag : Nat, (1 < m.doorStatus side c)) :=
  ⟨⟨liveMach, .a, 2, 0, by (try unfold Serves); (try dsimp only); first | done | decide +kernel⟩,
    ⟨liveMach, .a, 0, 0, by (try unfold Serves); (try dsimp only); first | done | decide +kernel⟩⟩

theorem test_hyp_DoorThrustClamped_0 :
    ∃ m : Mach, ∃ side : Sys2Proof.Ab, 
    let d := m.doors.get side
    
    let c := ((m.drivePwm side).doors.get side).cmd
    (d.held = false) :=
  ⟨liveMach, .a, by (try unfold Serves); (try dsimp only); first | done | decide +kernel⟩

theorem test_hyp_DoorMotorEventsComplete_1 :
    (∃ s : State, ∃ side : Sys2Proof.Ab, 
    let off (p : Bool) : Mach := s.now.side side fun d => { d.gatesOff s.now.time.frame with permitOff := d.permitOff || (p && d.gates) }
    ∃ u : Int, ∃ w : Int, (s.now.currentTrips side (u, w) = true)) ∧
    (∃ s : State, ∃ side : Sys2Proof.Ab, 
    let off (p : Bool) : Mach := s.now.side side fun d => { d.gatesOff s.now.time.frame with permitOff := d.permitOff || (p && d.gates) }
    ∃ v : Nat, (v < 200)) ∧
    (∃ s : State, ∃ side : Sys2Proof.Ab, 
    let off (p : Bool) : Mach := s.now.side side fun d => { d.gatesOff s.now.time.frame with permitOff := d.permitOff || (p && d.gates) }
    ∃ v : Nat, (660 < v)) ∧
    (∃ s : State, ∃ side : Sys2Proof.Ab, 
    let off (p : Bool) : Mach := s.now.side side fun d => { d.gatesOff s.now.time.frame with permitOff := d.permitOff || (p && d.gates) }
    ((s.now.doors.get side).runPermit = false)) :=
  ⟨⟨{ live with now := (liveMach.putI 2 pDOOR_I_TRIP 100) }, .a, 2000, 0, by (try unfold Serves); (try dsimp only); first | done | decide +kernel⟩,
    ⟨live, .a, 199, by (try unfold Serves); (try dsimp only); first | done | decide +kernel⟩,
    ⟨live, .a, 661, by (try unfold Serves); (try dsimp only); first | done | decide +kernel⟩,
    ⟨{ live with now := { liveMach with doors.a.runPermit := false } }, .a, by (try unfold Serves); (try dsimp only); first | done | decide +kernel⟩⟩

theorem test_hyp_DoorMotorEventsComplete_2 :
    ∃ s : State, ∃ side : Sys2Proof.Ab, (16 ≤ (s.now.doors.get side).keRun) ∧ ((s.now.doors.get side).keRaised = false) ∧ 
    let m1 := ((s.now.side side fun d => { d with keCount := sat32 d.keCount, keRaised := true }).doorEvent side 3).raise
    ((s.now.door side pOBST_MASK : Int) < (s.now.doors.get side).x) :=
  ⟨{ live with now := { liveMach with doors.a.keRaised := false, doors.a.keRun := 16, doors.a.x := 1000000 } }, .a, by (try unfold Serves); (try dsimp only); first | done | decide +kernel⟩

theorem test_hyp_DoorMotorEventsComplete_3 :
    (∃ s : State, ∃ side : Sys2Proof.Ab, ∃ u : Int, ∃ w : Int, ((s.now.doors.get side).gates = false) ∧ (40 ≤ s.now.time.frame - (s.now.doors.get side).gatesOffSince) ∧ (u.natAbs * 100 ≤ 3 * 2048) ∧ (w.natAbs * 100 ≤ 3 * 2048)) ∧
    (∃ s : State, ∃ side : Sys2Proof.Ab, ∃ u : Int, ∃ w : Int, ((s.now.doors.get side).gates = false) ∧ (40 ≤ s.now.time.frame - (s.now.doors.get side).gatesOffSince) ∧ ((3 * 2048 < u.natAbs * 100 ∨ 3 * 2048 < w.natAbs * 100))) :=
  ⟨⟨{ live with now := { liveMach with doors.a.gates := false } }, .a, 0, 0, by (try unfold Serves); (try dsimp only); first | done | decide +kernel⟩,
    ⟨{ live with now := { liveMach with doors.a.gates := false } }, .a, -62, 0, by (try unfold Serves); (try dsimp only); first | done | decide +kernel⟩⟩

theorem test_hyp_DoorMotorEventsComplete_4 :
    ∃ s : State, ∃ side : Sys2Proof.Ab, (2 ≤ (s.now.doors.get side).spMiss) :=
  ⟨{ live with now := { liveMach with doors.a.spMiss := 2 } }, .a, by (try unfold Serves); (try dsimp only); first | done | decide +kernel⟩

theorem test_hyp_DoorMotorEventsComplete_5 :
    ∃ s : State, ∃ side : Sys2Proof.Ab, ((s.now.doors.get side).own = .stopping) ∧ ((s.now.doors.get side).refV = 0) ∧ ((s.now.doors.get side).v = 0) ∧ ((s.now.doors.get side).state ≠ 5) ∧ ((s.now.doors.get side).reversing = false) :=
  ⟨{ live with now := { liveMach with doors.a.own := .stopping, doors.a.refV := 0, doors.a.v := 0, doors.a.reversing := false, doors.a.state := 1 } }, .a, by (try unfold Serves); (try dsimp only); first | done | decide +kernel⟩

theorem test_hyp_DoorStrokeEventsComplete_0 :
    ∃ s : State, ∃ side : Sys2Proof.Ab, ((s.now.doors.get side).closes = true) ∧ (16 * s.now.door side pOBST_TIME ≤ (s.now.doors.get side).obstRun) :=
  ⟨{ live with now := { liveMach with doors.a.state := 4, doors.a.obstRun := 100000 } }, .a, by (try unfold Serves); (try dsimp only); first | done | decide +kernel⟩

theorem test_hyp_DoorStrokeEventsComplete_1 :
    ∃ s : State, ∃ side : Sys2Proof.Ab, ∃ f : Nat, ((s.now.doors.get side).closes = true) ∧ ((s.now.doors.get side).maskSince = some f) ∧ (4000 ≤ s.now.time.frame - f) :=
  ⟨{ live with now := { liveMach with doors.a.maskSince := some 0, doors.a.state := 7 } }, .a, 0, by (try unfold Serves); (try dsimp only); first | done | decide +kernel⟩

theorem test_hyp_DoorStrokeEventsComplete_2 :
    (∃ s : State, ∃ side : Sys2Proof.Ab, ∃ f : Nat, ((s.now.doors.get side).stroke = some f) ∧ (4 * s.now.door side pDOOR_TIME_LIMIT ≤ s.now.time.frame - f) ∧ ((s.now.doors.get side).closes = true)) ∧
    (∃ s : State, ∃ side : Sys2Proof.Ab, ∃ f : Nat, ((s.now.doors.get side).stroke = some f) ∧ (4 * s.now.door side pDOOR_TIME_LIMIT ≤ s.now.time.frame - f) ∧ ((s.now.doors.get side).closes = false) ∧ (((s.now.doors.get side).state = 2 ∨ (s.now.doors.get side).state = 5))) :=
  ⟨⟨{ live with now := { liveMach with doors.a.stroke := some 0, doors.a.state := 4 } }, .a, 0, by (try unfold Serves); (try dsimp only); first | done | decide +kernel⟩,
    ⟨{ live with now := { liveMach with doors.a.stroke := some 0, doors.a.state := 2 } }, .a, 0, by (try unfold Serves); (try dsimp only); first | done | decide +kernel⟩⟩

theorem test_hyp_DoorStrokeEventsComplete_3 :
    ∃ s : State, ∃ side : Sys2Proof.Ab, ∃ f : Nat, ((s.now.doors.get side).refFrom = some f) ∧ (4 * s.now.door side pDOOR_TIME_LIMIT ≤ s.now.time.frame - f) ∧ ((s.now.doors.get side).state = 0) ∧ ((s.now.doors.get side).closes = false) :=
  ⟨{ live with now := { liveMach with doors.a.refFrom := some 0, doors.a.state := 0 } }, .a, 0, by (try unfold Serves); (try dsimp only); first | done | decide +kernel⟩

theorem test_hyp_DoorStrokeEventsComplete_4 :
    ∃ s : State, ∃ side : Sys2Proof.Ab, ∃ f : Nat, ((s.now.doors.get side).dwellFrom = some f) ∧ ((s.now.doors.get side).state = 3) ∧ ((s.now.doors.get side).holdFrom = none) ∧ ((s.now.doors.get side).reopenReq = false) ∧ (f + (s.now.doors.get side).dwellLen ≤ s.now.time.frame) ∧ (s.now.ownState (sideHandle side) = some .on) :=
  ⟨{ live with now := { liveMach with doors.a.dwellFrom := some 0, doors.a.state := 3, doors.a.holdFrom := none, doors.a.reopenReq := false } }, .a, 0, by (try unfold Serves); (try dsimp only); first | done | decide +kernel⟩

theorem test_hyp_DoorStrokeEventsComplete_5 :
    (∃ s : State, ∃ side : Sys2Proof.Ab, ∃ f : Nat, ((s.now.doors.get side).holdFrom = some f) ∧ (4000 * s.now.door side pHOLD_MAX ≤ s.now.time.frame - f) ∧ (s.now.ownState (sideHandle side) = some .on) ∧ 
    let m1 := s.now.raise (sideHandle side) 0x5B 1
    ((s.now.doors.get side).reopenReq = false)) ∧
    (∃ s : State, ∃ side : Sys2Proof.Ab, ∃ f : Nat, ((s.now.doors.get side).holdFrom = some f) ∧ (4000 * s.now.door side pHOLD_MAX ≤ s.now.time.frame - f) ∧ (s.now.ownState (sideHandle side) = some .on) ∧ 
    let m1 := s.now.raise (sideHandle side) 0x5B 1
    ((s.now.doors.get side).reopenReq = true)) :=
  ⟨⟨{ live with now := { liveMach with doors.a.holdFrom := some 0, doors.a.reopenReq := false } }, .a, 0, by (try unfold Serves); (try dsimp only); first | done | decide +kernel⟩,
    ⟨{ live with now := { liveMach with doors.a.holdFrom := some 0, doors.a.reopenReq := true } }, .a, 0, by (try unfold Serves); (try dsimp only); first | done | decide +kernel⟩⟩

theorem test_hyp_DoorStrokeEventsComplete_6 :
    ∃ s : State, ∃ side : Sys2Proof.Ab, (s.now.nudgeOk side = true) ∧ ((s.now.doors.get side).state = 3) ∧ (s.now.door side pNUDGE_MODE = 2) ∧ (s.now.ownState (sideHandle side) = some .on) :=
  ⟨{ live with now := { (liveMach.putI 2 pNUDGE_MODE 2) with doors.a.state := 3, doors.a.dpdSince := some 0 } }, .a, by (try unfold Serves); (try dsimp only); first | done | decide +kernel⟩

theorem test_hyp_DoorStrokeEventsComplete_7 :
    ∃ s : State, (s.now.nat pDOOR_RECHECK_PERIOD ≠ 0) ∧ (4000 * s.now.nat pDOOR_RECHECK_PERIOD ≤ s.now.time.frame - s.now.power.recheckAt) :=
  ⟨{ live with now := (liveMach.putI 0 pDOOR_RECHECK_PERIOD 60) }, by (try unfold Serves); (try dsimp only); first | done | decide +kernel⟩

theorem test_hyp_DoorStrokeEventsComplete_9 :
    (∃ m : Mach, ∃ side : Sys2Proof.Ab, ∃ nudge : Bool, (m.relevels = true)) ∧
    (∃ m : Mach, ∃ side : Sys2Proof.Ab, ∃ nudge : Bool, (m.relevels = false) ∧ ((nudge = true ∨ ((m.doors.get side).forceNudge = true ∧ m.door side pNUDGE_MODE ≠ 0))) ∧ (m.nudgeBarred side = true) ∧ ((m.doors.get side).forceNudge = false ∨ m.door side pNUDGE_MODE ≠ 0)) ∧
    (∃ m : Mach, ∃ side : Sys2Proof.Ab, ∃ nudge : Bool, (m.relevels = false) ∧ ((m.doors.get side).forceNudge = false) ∧ ((nudge = false ∨ m.nudgeBarred side = false))) :=
  ⟨⟨{ liveMach with eng.relReq := true }, .a, true, by (try unfold Serves); (try dsimp only); first | done | decide +kernel⟩,
    ⟨{ liveMach with doors.a.nudgeAgain := some 8000000 }, .a, true, by (try unfold Serves); (try dsimp only); first | done | decide +kernel⟩,
    ⟨{ liveMach with doors.a.state := 3 }, .a, true, by (try unfold Serves); (try dsimp only); first | done | decide +kernel⟩⟩

theorem test_hyp_DoorLearnEnds_0 :
    (∃ s : State, ∃ side : Sys2Proof.Ab, ∃ inp : DoorLearnIn, ((s.now.doors.get side).state = 8) ∧ ((s.now.doors.get side).learnStroke = 7) ∧ (s.now.learnFigures side inp = false)) ∧
    (∃ s : State, ∃ side : Sys2Proof.Ab, ∃ inp : DoorLearnIn, ((s.now.doors.get side).state = 8) ∧ ((s.now.doors.get side).learnStroke = 7) ∧ (s.now.learnFigures side inp = true)) :=
  ⟨⟨{ live with now := { liveMach with doors.a.state := 8, doors.a.learnStroke := 7 } }, .a, { goodLearn with open05 := [] }, by (try unfold Serves); (try dsimp only); first | done | decide +kernel⟩,
    ⟨{ live with now := { liveMach with doors.a.state := 8, doors.a.learnStroke := 7 } }, .a, goodLearn, by (try unfold Serves); (try dsimp only); first | done | decide +kernel⟩⟩

theorem test_hyp_BlockTimeoutsPutBlocksInFault_0 :
    ∃ s : State, ∃ c : CoreId, ∃ h : Nat, ∃ p : PairState, (h ∈ s.now.blocks) ∧ (p ∈ (s.now.safe.cores.get c).pairs) ∧ (p.handle = h) ∧ (p.meas.any (s.now.expired h) = true) :=
  ⟨{ live with now := { (liveMach.putI 0x0718 pFB_ENABLE 1) with safe.cores.a.pairs := [({ PairState.reset with handle := 0x0718, meas := [⟨true, true, 0⟩] })], link.frLt := 100000000 } }, .a, 0x0718, { PairState.reset with handle := 0x0718, meas := [⟨true, true, 0⟩] }, by (try unfold Serves); (try dsimp only); first | done | decide +kernel⟩

theorem test_hyp_BlockTimeoutsPutBlocksInFault_1 :
    ∃ s : State, ∃ c : CoreId, ∃ g : Nat, (s.now.blockOn (0x0740 + g) = true) ∧ ((s.now.contactorLate c g true ((s.now.safe.cores.get c).group g).cs.a = true ∨ s.now.contactorLate c g true ((s.now.safe.cores.get c).group g).cs.b = true)) :=
  ⟨{ live with now := { (liveMach.putI 0x0740 pFB_ENABLE 1) with link.frLt := 100000000, safe.cores.a.groups := [{ GroupOut.reset with cs := ⟨{ Contactor.reset with on := true, wait := true }, Contactor.reset⟩ }] } }, .a, 0, by (try unfold Serves); (try dsimp only); first | done | decide +kernel⟩

theorem test_hyp_BlockTimeoutsPutBlocksInFault_2 :
    ∃ s : State, ∃ c : CoreId, ∃ g : Nat, (s.now.blockOn (0x0740 + g) = true) ∧ ((s.now.contactorLate c g false ((s.now.safe.cores.get c).group g).cs.a = true ∨ s.now.contactorLate c g false ((s.now.safe.cores.get c).group g).cs.b = true)) :=
  ⟨{ live with now := { (liveMach.putI 0x0740 pFB_ENABLE 1) with link.frLt := 100000000, safe.cores.a.groups := [{ GroupOut.reset with cs := ⟨{ Contactor.reset with on := false, wait := true }, Contactor.reset⟩ }] } }, .a, 0, by (try unfold Serves); (try dsimp only); first | done | decide +kernel⟩

theorem test_hyp_BlockTimeoutsPutBlocksInFault_3 :
    ∃ s : State, ∃ c : CoreId, ((s.now.safe.cores.get c).brakeWait = true) ∧ ((s.now.safe.cores.get c).brakeOn = some true) ∧ (s.now.brakeDue (s.now.safe.cores.get c) ≤ s.now.link.frLt) :=
  ⟨{ live with now := { liveMach with safe.cores.a.brakeWait := true, safe.cores.a.brakeOn := some true, link.frLt := 100000000 } }, .a, by (try unfold Serves); (try dsimp only); first | done | decide +kernel⟩

theorem test_hyp_BlockTimeoutsPutBlocksInFault_4 :
    ∃ s : State, ∃ c : CoreId, ((s.now.safe.cores.get c).brakeWait = true) ∧ ((s.now.safe.cores.get c).brakeOn = some false) ∧ (s.now.brakeDue (s.now.safe.cores.get c) ≤ s.now.link.frLt) :=
  ⟨{ live with now := { liveMach with safe.cores.a.brakeWait := true, safe.cores.a.brakeOn := some false, link.frLt := 100000000 } }, .a, by (try unfold Serves); (try dsimp only); first | done | decide +kernel⟩

theorem test_hyp_BlockTimeoutsPutBlocksInFault_5 :
    ∃ s : State, ∃ c : CoreId, ∃ h : Nat, (blockKind h = some .tsl) ∧ (s.now.blockOn h = true) ∧ ((4 ≤ aGet (s.now.safe.cores.get c).tslRun h 0 ∨ s.now.chatters h = true)) :=
  ⟨{ live with now := { (liveMach.putI 0x0780 pFB_ENABLE 1) with safe.cores.a.tslRun := [(0x0780, 4)] } }, .a, 0x0780, by (try unfold Serves); (try dsimp only); first | done | decide +kernel⟩

theorem test_hyp_BlockTimeoutsPutBlocksInFault_6 :
    ∃ s : State, ∃ side : Sys2Proof.Ab, ∃ f : Nat, (s.now.safe.disagree.get side = some f) ∧ (4 * s.now.nat pLOCK_DISAGREE_TIME ≤ s.now.time.frame - f) :=
  ⟨{ live with now := { liveMach with safe.disagree.a := some 0 } }, .a, 0, by (try unfold Serves); (try dsimp only); first | done | decide +kernel⟩

theorem test_hyp_LockMessagesTimeOut_0 :
    ∃ s : State, ∃ l : Nat, (s.now.nat pLOCK_SOURCE ≠ 0) ∧ (l < s.now.nLandings) ∧ ((s.now.lockOf l).timedOut = false) ∧ (s.now.lockWd < s.now.time.frame - (s.now.lockOf l).atF) :=
  ⟨{ live with now := (liveMach.putI 0 pLOCK_SOURCE 1) }, 0, by (try unfold Serves); (try dsimp only); first | done | decide +kernel⟩

theorem test_hyp_LockMessagesTimeOut_1 :
    ∃ s : State, ∃ q : Nat × Nat, (q ∈ s.now.safe.away) ∧ (4000 ≤ s.now.time.frame - q.2) :=
  ⟨{ live with now := { liveMach with safe.away := [(0, 0)] } }, (0, 0), by (try unfold Serves); (try dsimp only); first | done | decide +kernel⟩

theorem test_hyp_ResetEdgeAndInspectionComplete_0 :
    ∃ s : State, ∃ c : CoreId, ((s.now.safe.cores.get c).rstEdge.isSome = true) :=
  ⟨{ live with now := { liveMach with safe.cores.a.rstEdge := some 5 } }, .a, by (try unfold Serves); (try dsimp only); first | done | decide +kernel⟩

theorem test_hyp_ResetEdgeAndInspectionComplete_1 :
    ∃ s : State, ∃ c : CoreId, ((s.now.safe.cores.get c).rstActive = true) ∧ ((s.now.safe.cores.get c).rstSince + 480001 ≤ s.now.link.frLt) :=
  ⟨{ live with now := { liveMach with safe.cores.a.rstActive := true, safe.cores.a.rstSince := 0, link.frLt := 480001 } }, .a, by (try unfold Serves); (try dsimp only); first | done | decide +kernel⟩

theorem test_hyp_ResetEdgeAndInspectionComplete_2 :
    ∃ s : State, ∃ c : CoreId, ((s.now.safe.cores.get c).inspEntryRun = true) ∧ (4 * s.now.nat pINSP_STOP_TIME ≤ s.now.time.frame - (s.now.safe.cores.get c).inspSince) :=
  ⟨{ live with now := { liveMach with safe.cores.a.inspEntryRun := true } }, .a, by (try unfold Serves); (try dsimp only); first | done | decide +kernel⟩

theorem test_hyp_BlockStateFollowsCodes_0 :
    (∃ b : BlockRec, 
    let faulted (c : Nat) : Prop := c = 0x61 ∨ c = 0x66 ∨ c = 0x67 ∨ (0x6A ≤ c ∧ c ≤ 0x6F) ∨ c = 0x78
    
    let trip (c : Nat) : Prop := c = 0x60 ∨ c = 0x63 ∨ c = 0x64 ∨ (0x70 ≤ c ∧ c ≤ 0x77) ∨ c = 0x79
    ((∃ c ∈ b.codes, faulted c))) ∧
    (∃ b : BlockRec, 
    let faulted (c : Nat) : Prop := c = 0x61 ∨ c = 0x66 ∨ c = 0x67 ∨ (0x6A ≤ c ∧ c ≤ 0x6F) ∨ c = 0x78
    
    let trip (c : Nat) : Prop := c = 0x60 ∨ c = 0x63 ∨ c = 0x64 ∨ (0x70 ≤ c ∧ c ≤ 0x77) ∨ c = 0x79
    ((∀ c ∈ b.codes, ¬ faulted c)) ∧ ((∃ c ∈ b.codes, trip c))) ∧
    (∃ b : BlockRec, 
    let faulted (c : Nat) : Prop := c = 0x61 ∨ c = 0x66 ∨ c = 0x67 ∨ (0x6A ≤ c ∧ c ≤ 0x6F) ∨ c = 0x78
    
    let trip (c : Nat) : Prop := c = 0x60 ∨ c = 0x63 ∨ c = 0x64 ∨ (0x70 ≤ c ∧ c ≤ 0x77) ∨ c = 0x79
    ∃ m : Mach, ∃ f : FaultRec, (f ∈ m.faults) ∧ (f.unit = b.handle) ∧ ((f.code = 0x62 ∨ f.code = 0x65)) ∧ (f.cls = blockClass f.unit f.code)) :=
  ⟨⟨{ BlockRec.reset with codes := [0x61] }, by (try unfold Serves); (try dsimp only); first | done | decide +kernel⟩,
    ⟨{ BlockRec.reset with codes := [0x60] }, by (try unfold Serves); (try dsimp only); first | done | decide +kernel⟩,
    ⟨{ BlockRec.reset with handle := 0x0700 }, { liveMach with faults := [({ FaultRec.reset with unit := 0x0700, code := 0x62, cls := blockClass 0x0700 0x62 })] }, { FaultRec.reset with unit := 0x0700, code := 0x62, cls := blockClass 0x0700 0x62 }, by (try unfold Serves); (try dsimp only); first | done | decide +kernel⟩⟩

theorem test_hyp_LoginAndSessionComplete_0 :
    (∃ s : State, ∃ tag : Nat, ∃ slot : Nat, ∃ p : List Nat, (Serves s 0x80) ∧ (0 < s.now.cab.lockout)) ∧
    (∃ s : State, ∃ tag : Nat, ∃ slot : Nat, ∃ p : List Nat, (Serves s 0x80) ∧ (s.now.cab.lockout = 0) ∧ ((s.now.session = true ∨ s.now.cab.login.isSome = true))) ∧
    (∃ s : State, ∃ tag : Nat, ∃ slot : Nat, ∃ p : List Nat, (Serves s 0x80) ∧ (s.now.cab.lockout = 0) ∧ (s.now.session = false) ∧ (s.now.cab.login = none)) :=
  ⟨⟨{ live with now := { liveMach with cab.lockout := 1 } }, 0, 0, [], by (try unfold Serves); (try dsimp only); first | done | decide +kernel⟩,
    ⟨{ live with now := { liveMach with cab.lockout := 0, cab.session := some 0 } }, 0, 0, [], by (try unfold Serves); (try dsimp only); first | done | decide +kernel⟩,
    ⟨{ live with now := { liveMach with cab.lockout := 0, cab.session := none, cab.login := none } }, 0, 0, [], by (try unfold Serves); (try dsimp only); first | done | decide +kernel⟩⟩

theorem test_hyp_LoginAndSessionComplete_1 :
    (∃ s : State, ∃ r : LoginRun, ∃ agree : Three Bool, (s.now.cab.login = some r) ∧ 
    let good := r.slot < 4 ∧ s.shown.slotSet r.slot = true ∧ passwordOk r.pwd = true ∧ s.now.coresIn.all agree.get = true
      ∧ passwordHash (s.shown.cred r.slot).salt r.slot r.pwd = (s.shown.cred r.slot).hash
    (good)) ∧
    (∃ s : State, ∃ r : LoginRun, ∃ agree : Three Bool, (s.now.cab.login = some r) ∧ 
    let good := r.slot < 4 ∧ s.shown.slotSet r.slot = true ∧ passwordOk r.pwd = true ∧ s.now.coresIn.all agree.get = true
      ∧ passwordHash (s.shown.cred r.slot).salt r.slot r.pwd = (s.shown.cred r.slot).hash
    (¬ good) ∧ 
    let n := min 255 (s.now.cab.fails + 1)
    
    let d := if n < 5 then 0 else if n ≤ 12 then 10 * 2 ^ (n - 5) else 1440
    
    let m1 : Mach := { s.now with cab.login := none, cab.fails := n, cab.lockout := 240000 * d, cab.locked := ⟨(n, 60 * d), (n, 60 * d)⟩ }
    (d = 0)) ∧
    (∃ s : State, ∃ r : LoginRun, ∃ agree : Three Bool, (s.now.cab.login = some r) ∧ 
    let good := r.slot < 4 ∧ s.shown.slotSet r.slot = true ∧ passwordOk r.pwd = true ∧ s.now.coresIn.all agree.get = true
      ∧ passwordHash (s.shown.cred r.slot).salt r.slot r.pwd = (s.shown.cred r.slot).hash
    (¬ good) ∧ 
    let n := min 255 (s.now.cab.fails + 1)
    
    let d := if n < 5 then 0 else if n ≤ 12 then 10 * 2 ^ (n - 5) else 1440
    
    let m1 : Mach := { s.now with cab.login := none, cab.fails := n, cab.lockout := 240000 * d, cab.locked := ⟨(n, 60 * d), (n, 60 * d)⟩ }
    (0 < d)) :=
  ⟨⟨{ live with now := loginMach, shown := loginMach }, ⟨0, List.replicate 10 65, 0, 0⟩, ⟨true, true, true⟩, ⟨rfl, by decide, login_meets.1, by decide, by decide +kernel, login_meets.2⟩⟩,
    ⟨{ live with now := { liveMach with cab.login := some ⟨0, List.replicate 10 65, 0, 0⟩ } }, ⟨0, List.replicate 10 65, 0, 0⟩, ⟨true, true, true⟩, by (try unfold Serves); (try dsimp only); first | done | decide +kernel⟩,
    ⟨{ live with now := { liveMach with cab.login := some ⟨0, List.replicate 10 65, 0, 0⟩, cab.fails := 4 } }, ⟨0, List.replicate 10 65, 0, 0⟩, ⟨true, true, true⟩, by (try unfold Serves); (try dsimp only); first | done | decide +kernel⟩⟩

theorem test_hyp_LoginAndSessionComplete_2 :
    ∃ s : State, ∃ tag : Nat, (Serves s 0x81) :=
  ⟨live, 0, by (try unfold Serves); (try dsimp only); first | done | decide +kernel⟩

theorem test_hyp_LoginAndSessionComplete_3 :
    ∃ s : State, (s.now.session = true) ∧ (3600000 ≤ s.now.time.frame - s.now.cab.sessAt) :=
  ⟨{ live with now := { liveMach with cab.session := some 0, cab.sessAt := 0 } }, by (try unfold Serves); (try dsimp only); first | done | decide +kernel⟩

theorem test_hyp_LoginAndSessionComplete_4 :
    ∃ m : Mach, ∃ cause : Nat, (m.session = true) :=
  ⟨{ liveMach with cab.session := some 0 }, 0, by (try unfold Serves); (try dsimp only); first | done | decide +kernel⟩

theorem test_hyp_LockoutEvents_0 :
    ∃ s : State, (s.now.cab.lockout = 0) ∧ (s.now.inForce 0 0xE8 = true) :=
  ⟨{ live with now := { (liveMach.raise 0 0xE8 1) with cab.lockout := 0 } }, by (try unfold Serves); (try dsimp only); first | done | decide +kernel⟩

theorem test_hyp_LockoutEvents_1 :
    ∃ s : State, (0 < s.now.cab.lockout) ∧ ((s.now.cab.lockout + 3999) / 4000 < s.now.lockSaved.2) :=
  ⟨{ live with now := { liveMach with cab.lockout := 4000, cab.locked := ⟨(1, 2), (1, 2)⟩ } }, by (try unfold Serves); (try dsimp only); first | done | decide +kernel⟩

theorem test_hyp_StagingAnswered_0 :
    (∃ s : State, ∃ tag : Nat, ∃ es : List StageEntry, (Serves s 0x82) ∧ 
    let new := (es.map stagedOf).foldl stagePut s.now.cab.staged
    (s.now.session = false)) ∧
    (∃ s : State, ∃ tag : Nat, ∃ es : List StageEntry, (Serves s 0x82) ∧ 
    let new := (es.map stagedOf).foldl stagePut s.now.cab.staged
    (s.now.session = true) ∧ (s.now.cab.commit.isSome = true)) ∧
    (∃ s : State, ∃ tag : Nat, ∃ es : List StageEntry, (Serves s 0x82) ∧ 
    let new := (es.map stagedOf).foldl stagePut s.now.cab.staged
    (s.now.session = true) ∧ (s.now.cab.commit = none) ∧ (((∃ e ∈ es, s.now.stageStatus e = 0x13) ∨ 2048 < new.length))) ∧
    (∃ s : State, ∃ tag : Nat, ∃ es : List StageEntry, (Serves s 0x82) ∧ 
    let new := (es.map stagedOf).foldl stagePut s.now.cab.staged
    (s.now.session = true) ∧ (s.now.cab.commit = none) ∧ ((∀ e ∈ es, s.now.stageStatus e ≠ 0x13)) ∧ (new.length ≤ 2048) ∧ ((∃ e ∈ es, s.now.stageStatus e = 0x30))) ∧
    (∃ s : State, ∃ tag : Nat, ∃ es : List StageEntry, (Serves s 0x82) ∧ 
    let new := (es.map stagedOf).foldl stagePut s.now.cab.staged
    (s.now.session = true) ∧ (s.now.cab.commit = none) ∧ ((∀ e ∈ es, s.now.stageStatus e = 0)) ∧ (new.length ≤ 2048)) :=
  ⟨⟨{ live with now := { liveMach with cab.session := none } }, 0, [], by (try unfold Serves); (try dsimp only); first | done | decide +kernel⟩,
    ⟨{ live with now := { liveMach with cab.session := some 0, cab.commit := some CommitRun.reset } }, 0, [], by (try unfold Serves); (try dsimp only); first | done | decide +kernel⟩,
    ⟨{ live with now := { liveMach with cab.session := some 0, cab.commit := none } }, 0, [⟨0, 0xFFFF, []⟩], by (try unfold Serves); (try dsimp only); first | done | decide +kernel⟩,
    ⟨{ live with now := { (liveMach) with cab.session := some 0, cab.commit := none, cab.staged := [] } }, 0, [⟨0x2000, 0, []⟩], by (try unfold Serves); (try dsimp only); first | done | decide +kernel⟩,
    ⟨{ live with now := { liveMach with cab.session := some 0, cab.commit := none, cab.staged := [] } }, 0, [⟨0x1000, pSILL_LEVEL, [0, 0, 0, 0]⟩], by (try unfold Serves); (try dsimp only); first | done | decide +kernel⟩⟩

theorem test_hyp_StagingAnswered_1 :
    (∃ s : State, ∃ tag : Nat, (Serves s 0x84) ∧ (s.now.session = false)) ∧
    (∃ s : State, ∃ tag : Nat, (Serves s 0x84) ∧ (s.now.session = true) ∧ (s.now.cab.commit.isSome = true)) ∧
    (∃ s : State, ∃ tag : Nat, (Serves s 0x84) ∧ (s.now.session = true) ∧ (s.now.cab.commit = none)) :=
  ⟨⟨{ live with now := { liveMach with cab.session := none } }, 0, by (try unfold Serves); (try dsimp only); first | done | decide +kernel⟩,
    ⟨{ live with now := { liveMach with cab.session := some 0, cab.commit := some CommitRun.reset } }, 0, by (try unfold Serves); (try dsimp only); first | done | decide +kernel⟩,
    ⟨{ live with now := { liveMach with cab.session := some 0, cab.commit := none } }, 0, by (try unfold Serves); (try dsimp only); first | done | decide +kernel⟩⟩

theorem test_hyp_StagingAnswered_2 :
    (∃ s : State, ∃ tag : Nat, ∃ first : Nat, ∃ n : Nat, (Serves s 0x85) ∧ ((n < 1 ∨ 15 < n))) ∧
    (∃ s : State, ∃ tag : Nat, ∃ first : Nat, ∃ n : Nat, (Serves s 0x85) ∧ (1 ≤ n) ∧ (n ≤ 15) ∧ 
    let a := max first s.now.logOldest
    
    let k := min n (s.now.cab.head + 1 - a)
    ((∀ i, i < k → s.now.logGood (a + i) = true))) ∧
    (∃ s : State, ∃ tag : Nat, ∃ first : Nat, ∃ n : Nat, (Serves s 0x85) ∧ (1 ≤ n) ∧ (n ≤ 15) ∧ 
    let a := max first s.now.logOldest
    
    let k := min n (s.now.cab.head + 1 - a)
    ((∃ i, i < k ∧ s.now.logGood (a + i) = false))) :=
  ⟨⟨live, 0, 0, 0, by (try unfold Serves); (try dsimp only); first | done | decide +kernel⟩,
    ⟨{ live with now := { liveMach with cab.head := 0 } }, 0, 1, 1, by (try unfold Serves); (try dsimp only); first | done | decide +kernel⟩,
    ⟨{ live with now := { liveMach with cab.head := 1 } }, 0, 1, 1, by (try unfold Serves); (try dsimp only); first | done | decide +kernel⟩⟩

theorem test_hyp_StagedSetHoldsOneValueEach_0 :
    ∃ l : List Staged, ∃ e : Staged, 
    let below (a b : Staged) : Prop := a.handle < b.handle ∨ (a.handle = b.handle ∧ a.id < b.id)
    (l.Pairwise below) ∧ ∃ x ∈ l, ((x.handle ≠ e.handle ∨ x.id ≠ e.id)) :=
  ⟨[⟨0, 3, [2]⟩], ⟨0, 5, [1]⟩, by (try unfold Serves); (try dsimp only); first | done | decide +kernel, ⟨0, 3, [2]⟩, by (try unfold Serves); (try dsimp only); first | done | decide +kernel⟩

theorem test_hyp_PasswordChangeCompletes_0 :
    (∃ s : State, ∃ tag : Nat, ∃ slot : Nat, ∃ p : List Nat, (Serves s 0x86) ∧ (s.now.cab.pwd.isSome = true)) ∧
    (∃ s : State, ∃ tag : Nat, ∃ slot : Nat, ∃ p : List Nat, (Serves s 0x86) ∧ (s.now.cab.pwd = none) ∧ (s.now.passwordStatus slot p ≠ 0x01)) ∧
    (∃ s : State, ∃ tag : Nat, ∃ slot : Nat, ∃ p : List Nat, (Serves s 0x86) ∧ (s.now.cab.pwd = none) ∧ (s.now.passwordStatus slot p = 0x01)) :=
  ⟨⟨{ live with now := { liveMach with cab.pwd := some ⟨0, [], 0, 0, 0⟩ } }, 0, 0, [], by (try unfold Serves); (try dsimp only); first | done | decide +kernel⟩,
    ⟨{ live with now := { liveMach with cab.pwd := none } }, 0, 1, [], by (try unfold Serves); (try dsimp only); first | done | decide +kernel⟩,
    ⟨{ live with now := { liveMach with cab.pwd := none } }, 0, 0, List.replicate 10 0x41, by (try unfold Serves); (try dsimp only); first | done | decide +kernel⟩⟩

theorem test_hyp_PasswordChangeCompletes_1 :
    ∃ s : State, ∃ r : PwdRun, ∃ agree : Three Bool, (s.now.cab.pwd = some r) ∧ (s.now.coresIn.all agree.get = true) :=
  ⟨{ live with now := { liveMach with cab.pwd := some (⟨1, [], 0, 0, 0⟩) } }, ⟨1, [], 0, 0, 0⟩, ⟨true, true, true⟩, by (try unfold Serves); (try dsimp only); first | done | decide +kernel⟩

theorem test_hyp_PasswordChangeCompletes_2 :
    (∃ s : State, ∃ r : PwdRun, ∃ agree : Three Bool, (s.now.cab.pwd = some r) ∧ (s.now.coresIn.all agree.get = true) ∧ (r.slot < 4) ∧ (s.now.creds.length = 4) ∧ ∃ x : Sys2Proof.Ab, (r.pwd = [])) ∧
    (∃ s : State, ∃ r : PwdRun, ∃ agree : Three Bool, (s.now.cab.pwd = some r) ∧ (s.now.coresIn.all agree.get = true) ∧ (r.slot < 4) ∧ (s.now.creds.length = 4) ∧ (r.pwd ≠ [])) ∧
    (∃ s : State, ∃ r : PwdRun, ∃ agree : Three Bool, (s.now.cab.pwd = some r) ∧ (s.now.coresIn.all agree.get = true) ∧ (r.slot < 4) ∧ (s.now.creds.length = 4) ∧ ∃ k, (k < 4) ∧ (k ≠ r.slot)) :=
  ⟨⟨{ live with now := { liveMach with cab.pwd := some ⟨1, [], 0, 0, 0⟩, cab.creds := ⟨List.replicate 4 Cred.reset, List.replicate 4 Cred.reset⟩ } }, ⟨1, [], 0, 0, 0⟩, ⟨true, true, true⟩, by (try unfold Serves); (try dsimp only); first | done | decide +kernel, by (try unfold Serves); (try dsimp only); first | done | decide +kernel, by (try unfold Serves); (try dsimp only); first | done | decide +kernel, by (try unfold Serves); (try dsimp only); first | done | decide +kernel, .a, by (try unfold Serves); (try dsimp only); first | done | decide +kernel⟩,
    ⟨{ live with now := { liveMach with cab.pwd := some ⟨1, [65], 0, 0, 0⟩, cab.creds := ⟨List.replicate 4 Cred.reset, List.replicate 4 Cred.reset⟩ } }, ⟨1, [65], 0, 0, 0⟩, ⟨true, true, true⟩, by (try unfold Serves); (try dsimp only); first | done | decide +kernel⟩,
    ⟨{ live with now := { liveMach with cab.pwd := some ⟨1, [], 0, 0, 0⟩, cab.creds := ⟨List.replicate 4 Cred.reset, List.replicate 4 Cred.reset⟩ } }, ⟨1, [], 0, 0, 0⟩, ⟨true, true, true⟩, by (try unfold Serves); (try dsimp only); first | done | decide +kernel, by (try unfold Serves); (try dsimp only); first | done | decide +kernel, by (try unfold Serves); (try dsimp only); first | done | decide +kernel, by (try unfold Serves); (try dsimp only); first | done | decide +kernel, 2, by (try unfold Serves); (try dsimp only); first | done | decide +kernel⟩⟩

theorem test_hyp_PasswordChangeCompletes_3 :
    ∃ s : State, ∃ r : PwdRun, ∃ agree : Three Bool, (s.now.cab.pwd = some r) ∧ (s.now.coresIn.all agree.get = false) :=
  ⟨{ live with now := { liveMach with cab.pwd := some (⟨1, [], 0, 0, 0⟩) } }, ⟨1, [], 0, 0, 0⟩, ⟨true, false, true⟩, by (try unfold Serves); (try dsimp only); first | done | decide +kernel⟩

theorem test_hyp_CommitAcceptedOnlyWhenAllowed_0 :
    ∃ s : State, ∃ tag : Nat, (Serves s 0x83) ∧ (s.now.cab.commit.isSome = true) ∧ (s.now.cab.session.isSome = true) :=
  ⟨{ live with now := { liveMach with cab.session := some 0, cab.commit := some CommitRun.reset } }, 0, by (try unfold Serves); (try dsimp only); first | done | decide +kernel⟩

theorem test_hyp_CommitAcceptedOnlyWhenAllowed_1 :
    (∃ s : State, ∃ tag : Nat, (Serves s 0x83) ∧ (s.now.cab.commit = none) ∧ ((s.now.cab.session = none ∨ s.now.cab.staged = []))) ∧
    (∃ s : State, ∃ tag : Nat, (Serves s 0x83) ∧ (s.now.cab.commit = none) ∧ ∃ slot, (s.now.cab.session = some slot) ∧ (s.now.cab.staged ≠ []) ∧ ((s.now.still = false ∨ s.now.inRun = true))) ∧
    (∃ s : State, ∃ tag : Nat, (Serves s 0x83) ∧ (s.now.cab.commit = none) ∧ ∃ slot, (s.now.cab.session = some slot) ∧ (s.now.cab.staged ≠ []) ∧ (s.now.still = true) ∧ (s.now.inRun = false) ∧ (s.now.triad.proof.isSome = true)) ∧
    (∃ s : State, ∃ tag : Nat, (Serves s 0x83) ∧ (s.now.cab.commit = none) ∧ ∃ slot, (s.now.cab.session = some slot) ∧ (s.now.cab.staged ≠ []) ∧ (s.now.still = true) ∧ (s.now.inRun = false) ∧ (s.now.triad.proof = none)) :=
  ⟨⟨{ live with now := { liveMach with cab.commit := none, cab.staged := [⟨0, 5, [1]⟩], cab.session := none } }, 0, by (try unfold Serves); (try dsimp only); first | done | decide +kernel⟩,
    ⟨{ live with now := { liveMach with cab.commit := none, cab.session := some 0, cab.staged := [⟨0, 5, [1]⟩], pos.est.d.still := 0 } }, 0, by (try unfold Serves); (try dsimp only); first | done | decide +kernel, by (try unfold Serves); (try dsimp only); first | done | decide +kernel, 0, by (try unfold Serves); (try dsimp only); first | done | decide +kernel⟩,
    ⟨{ live with now := { liveMach with cab.commit := none, cab.session := some 0, cab.staged := [⟨0, 5, [1]⟩], triad.proof := some .a } }, 0, by (try unfold Serves); (try dsimp only); first | done | decide +kernel, by (try unfold Serves); (try dsimp only); first | done | decide +kernel, 0, by (try unfold Serves); (try dsimp only); first | done | decide +kernel⟩,
    ⟨{ live with now := { liveMach with cab.commit := none, cab.session := some 0, triad.proof := none, cab.staged := [⟨0, 5, [1]⟩] } }, 0, by (try unfold Serves); (try dsimp only); first | done | decide +kernel, by (try unfold Serves); (try dsimp only); first | done | decide +kernel, 0, by (try unfold Serves); (try dsimp only); first | done | decide +kernel⟩⟩

theorem test_hyp_CommitRunsToItsPoint_0 :
    (∃ s : State, ∃ r : CommitRun, ∃ d : Three Bool, (s.now.cab.commit = some r) ∧ (r.phase = 0) ∧ 
    let vals := s.now.cabResult r.entries
    
    let bad := (s.now.withCab vals).failing
    
    let m1 := s.now.endFault 0 0xDB
    (s.now.commitAborts = true)) ∧
    (∃ s : State, ∃ r : CommitRun, ∃ d : Three Bool, (s.now.cab.commit = some r) ∧ (r.phase = 0) ∧ 
    let vals := s.now.cabResult r.entries
    
    let bad := (s.now.withCab vals).failing
    
    let m1 := s.now.endFault 0 0xDB
    (s.now.commitAborts = false) ∧ ((s.now.coresIn.all d.get = false ∨ 200 < s.now.time.frame - r.atF))) ∧
    (∃ s : State, ∃ r : CommitRun, ∃ d : Three Bool, (s.now.cab.commit = some r) ∧ (r.phase = 0) ∧ 
    let vals := s.now.cabResult r.entries
    
    let bad := (s.now.withCab vals).failing
    
    let m1 := s.now.endFault 0 0xDB
    (s.now.commitAborts = false) ∧ (s.now.coresIn.all d.get = true) ∧ (s.now.time.frame - r.atF ≤ 200) ∧ (bad ≠ [])) ∧
    (∃ s : State, ∃ r : CommitRun, ∃ d : Three Bool, (s.now.cab.commit = some r) ∧ (r.phase = 0) ∧ 
    let vals := s.now.cabResult r.entries
    
    let bad := (s.now.withCab vals).failing
    
    let m1 := s.now.endFault 0 0xDB
    (s.now.commitAborts = false) ∧ (s.now.coresIn.all d.get = true) ∧ (s.now.time.frame - r.atF ≤ 200) ∧ (bad = []) ∧ (vals = cabCells s.now.params)) ∧
    (∃ s : State, ∃ r : CommitRun, ∃ d : Three Bool, (s.now.cab.commit = some r) ∧ (r.phase = 0) ∧ 
    let vals := s.now.cabResult r.entries
    
    let bad := (s.now.withCab vals).failing
    
    let m1 := s.now.endFault 0 0xDB
    (s.now.commitAborts = false) ∧ (s.now.coresIn.all d.get = true) ∧ (s.now.time.frame - r.atF ≤ 200) ∧ (bad = []) ∧ (vals ≠ cabCells s.now.params)) :=
  ⟨⟨{ live with now := { liveMach with cab.commit := some ({ CommitRun.reset with atF := 8000000 }), pos.est.d.still := 0 } }, { CommitRun.reset with atF := 8000000 }, ⟨true, true, true⟩, by (try unfold Serves); (try dsimp only); first | done | decide +kernel⟩,
    ⟨{ live with now := { liveMach with cab.commit := some ({ CommitRun.reset with atF := 8000000 }) } }, { CommitRun.reset with atF := 8000000 }, ⟨true, false, true⟩, by (try unfold Serves); (try dsimp only); first | done | decide +kernel⟩,
    ⟨{ live with now := { liveMach with cab.commit := some ({ CommitRun.reset with atF := 8000000, entries := [⟨0x1000, pSILL_LEVEL, [5]⟩] }) } }, { CommitRun.reset with atF := 8000000, entries := [⟨0x1000, pSILL_LEVEL, [5]⟩] }, ⟨true, true, true⟩, by (try unfold Serves); (try dsimp only); first | done | decide +kernel⟩,
    ⟨{ live with now := { liveMach with cab.commit := some ({ CommitRun.reset with atF := 8000000 }) } }, { CommitRun.reset with atF := 8000000 }, ⟨true, true, true⟩, by (try unfold Serves); (try dsimp only); first | done | decide +kernel⟩,
    ⟨{ live with now := { liveMach with cab.commit := some ({ CommitRun.reset with atF := 8000000, entries := [⟨0, pHOME_TOL, [4321]⟩] }) } }, { CommitRun.reset with atF := 8000000, entries := [⟨0, pHOME_TOL, [4321]⟩] }, ⟨true, true, true⟩, by (try unfold Serves); (try dsimp only); first | done | decide +kernel⟩⟩

theorem test_hyp_CommitRunsToItsPoint_1 :
    (∃ s : State, ∃ r : CommitRun, (s.now.cab.commit = some r) ∧ (r.phase = 1) ∧ (s.now.commitAborts = true)) ∧
    (∃ s : State, ∃ r : CommitRun, (s.now.cab.commit = some r) ∧ (r.phase = 1) ∧ (s.now.commitAborts = false)) :=
  ⟨⟨{ live with now := { liveMach with cab.commit := some ({ CommitRun.reset with phase := 1 }), pos.est.d.still := 0 } }, { CommitRun.reset with phase := 1 }, by (try unfold Serves); (try dsimp only); first | done | decide +kernel⟩,
    ⟨{ live with now := { liveMach with cab.commit := some ({ CommitRun.reset with phase := 1 }) } }, { CommitRun.reset with phase := 1 }, by (try unfold Serves); (try dsimp only); first | done | decide +kernel⟩⟩

theorem test_hyp_CommitRunsToItsPoint_2 :
    ∃ s : State, ∃ r : CommitRun, (s.now.cab.commit = some r) ∧ (r.phase = 3) :=
  ⟨{ live with now := { liveMach with cab.commit := some ({ CommitRun.reset with phase := 3 }) } }, { CommitRun.reset with phase := 3 }, by (try unfold Serves); (try dsimp only); first | done | decide +kernel⟩

theorem test_hyp_CommitRunsToItsPoint_3 :
    ∃ m : Mach, ∃ r : CommitRun, (m.cab.commit = some r) ∧ (m.commitAborts = true) :=
  ⟨{ liveMach with pos.est.d.still := 0, cab.commit := some { CommitRun.reset with atF := 8000000 } }, { CommitRun.reset with atF := 8000000 }, by (try unfold Serves); (try dsimp only); first | done | decide +kernel⟩

theorem test_hyp_ProofTestsStart_0 :
    ∃ s : State, ∃ tag : Nat, ∃ core : Nat, (Serves s 0xA3) ∧ (core ≠ 0xFF) ∧ (3 ≤ core) :=
  ⟨live, 0, 3, by (try unfold Serves); (try dsimp only); first | done | decide +kernel⟩

theorem test_hyp_ProofTestsStart_1 :
    (∃ s : State, ∃ tag : Nat, ∃ core : Nat, (Serves s 0xA3) ∧ ((core < 3 ∨ core = 0xFF)) ∧ 
    let c := if core = 0xFF then s.now.dueFirst else coreOfNat core
    ((s.now.anyExcluded = true ∨ s.now.triad.lost = true))) ∧
    (∃ s : State, ∃ tag : Nat, ∃ core : Nat, (Serves s 0xA3) ∧ ((core < 3 ∨ core = 0xFF)) ∧ 
    let c := if core = 0xFF then s.now.dueFirst else coreOfNat core
    (s.now.anyExcluded = false) ∧ (s.now.triad.lost = false) ∧ ((s.now.triad.proof.isSome = true ∨ s.now.cab.login.isSome = true ∨ s.now.cab.commit.isSome = true ∨ s.now.cab.pwd.isSome = true))) ∧
    (∃ s : State, ∃ tag : Nat, ∃ core : Nat, (Serves s 0xA3) ∧ ((core < 3 ∨ core = 0xFF)) ∧ 
    let c := if core = 0xFF then s.now.dueFirst else coreOfNat core
    (s.now.anyExcluded = false) ∧ (s.now.triad.lost = false) ∧ (s.now.triad.proof = none) ∧ (s.now.cab.login = none) ∧ (s.now.cab.commit = none) ∧ (s.now.cab.pwd = none)) :=
  ⟨⟨{ live with now := { liveMach with triad.lost := true } }, 0, 0, by (try unfold Serves); (try dsimp only); first | done | decide +kernel⟩,
    ⟨{ live with now := { liveMach with triad.lost := false, triad.proof := some .a } }, 0, 0, by (try unfold Serves); (try dsimp only); first | done | decide +kernel⟩,
    ⟨{ live with now := { liveMach with triad.lost := false, triad.proof := none, cab.login := none, cab.commit := none, cab.pwd := none } }, 0, 0, by (try unfold Serves); (try dsimp only); first | done | decide +kernel⟩⟩

theorem test_hyp_ProofTestsStart_2 :
    ∃ s : State, (s.now.flag pPROOF_AUTO = true) ∧ (s.now.start.ready = true) ∧ (s.now.power.state ≤ 1) ∧ (s.now.nat pPROOF_INTERVAL * 3600000000 ≤ s.now.sincePass s.now.dueFirst) ∧ (s.now.proofStatus s.now.dueFirst = 0x01) ∧ (s.now.inRun = false) ∧ ((∀ d : Sys2Proof.Ab, (s.now.doors.get d).state ≠ 4 ∧ (s.now.doors.get d).state ≠ 7)) :=
  ⟨{ live with now := { liveMach with start.ready := true, time.frame := 100000000000 } }, ⟨by decide +kernel, by decide +kernel, by decide +kernel, by decide +kernel, by decide +kernel, by decide +kernel, by intro d; cases d <;> decide +kernel⟩⟩

theorem test_hyp_ProofTestsStart_3 :
    ∃ s : State, ∃ c : CoreId, ∃ checked : Bool, (s.now.nat pREADMIT_MODE = 1) ∧ (s.now.triad.excluded.get c = true) ∧ (s.now.triad.excluded.count = 1) ∧ (s.now.triad.lost = false) ∧ (s.now.triad.proof = none) ∧ (s.now.causeEnded c checked = true) ∧ (s.now.exclusions c < 3) :=
  ⟨{ live with now := { ((liveMach.putI 0 pREADMIT_MODE 1).putI 0 pREADMIT_MODE 1) with triad.lost := false, triad.proof := none, triad.excluded.a := true } }, .a, true, by (try unfold Serves); (try dsimp only); first | done | decide +kernel⟩

theorem test_hyp_ProofTestsStart_4 :
    ∃ s : State, ∃ c : CoreId, (s.now.nat pPROOF_INTERVAL * 3600000000 + 3600000000 < s.now.ts - s.now.triad.proofLast.get c) :=
  ⟨{ live with now := { liveMach with time.frame := 100000000000 } }, .a, by (try unfold Serves); (try dsimp only); first | done | decide +kernel⟩

theorem test_hyp_ProofTestsStart_5 :
    ∃ s : State, (s.now.nat pTRIAD_DEGRADED_POLICY = 1) ∧ (s.now.anyExcluded = true) ∧ (s.now.triad.lost = false) ∧ (s.now.triad.duplexLeft = 0) :=
  ⟨{ live with now := { (liveMach.putI 0 pTRIAD_DEGRADED_POLICY 1) with triad.lost := false, triad.duplexLeft := 0, triad.excluded.a := true } }, by (try unfold Serves); (try dsimp only); first | done | decide +kernel⟩

theorem test_hyp_ProofTestRuns_1 :
    (∃ s : State, ∃ c : CoreId, (s.now.triad.proof = some c) ∧ (s.now.triad.proofOut = true) ∧ (s.now.triad.proofAt + 161 ≤ s.now.time.frame) ∧ (s.now.triad.proofBad = true)) ∧
    (∃ s : State, ∃ c : CoreId, (s.now.triad.proof = some c) ∧ (s.now.triad.proofOut = true) ∧ (s.now.triad.proofAt + 161 ≤ s.now.time.frame) ∧ (s.now.triad.proofBad = false)) :=
  ⟨⟨{ live with now := { liveMach with triad.proof := some .a, triad.proofOut := true, triad.proofBad := true, triad.proofAt := 0 } }, .a, by (try unfold Serves); (try dsimp only); first | done | decide +kernel⟩,
    ⟨{ live with now := { liveMach with triad.proof := some .a, triad.proofOut := true, triad.proofBad := false } }, .a, by (try unfold Serves); (try dsimp only); first | done | decide +kernel⟩⟩

theorem test_hyp_ProofTestRuns_2 :
    (∃ s : State, ∃ c : CoreId, (s.now.triad.proof = some c) ∧ (s.now.triad.rejoinAt ≠ 0) ∧ (16 ≤ s.now.triad.rejoinRun) ∧ (4 ≤ (s.now.pos.discord.get s.now.apOf).concord.get c) ∧ 
    let m1 := (({ s.now with triad.proofLast := s.now.triad.proofLast.set c s.now.ts } : Mach).post 8 1 0x0500 c.idx 0).proofDone 0x00
    
    let m2 := m1.endIf 0x0500 0x13 (s.now.triad.causes.all fun x => x.1 == c.idx || x.2 != 0x13)
    
    let m3 := m2.endIf 0x0500 0x14 m2.provedInTime
    (s.now.triad.readmit = false)) ∧
    (∃ s : State, ∃ c : CoreId, (s.now.triad.proof = some c) ∧ (s.now.triad.rejoinAt ≠ 0) ∧ (16 ≤ s.now.triad.rejoinRun) ∧ (4 ≤ (s.now.pos.discord.get s.now.apOf).concord.get c) ∧ 
    let m1 := (({ s.now with triad.proofLast := s.now.triad.proofLast.set c s.now.ts } : Mach).post 8 1 0x0500 c.idx 0).proofDone 0x00
    
    let m2 := m1.endIf 0x0500 0x13 (s.now.triad.causes.all fun x => x.1 == c.idx || x.2 != 0x13)
    
    let m3 := m2.endIf 0x0500 0x14 m2.provedInTime
    (s.now.triad.readmit = true)) :=
  ⟨⟨{ live with now := { liveMach with triad.proof := some .a, triad.readmit := false, triad.rejoinAt := 5, triad.rejoinRun := 16, pos.discord.a.concord := ⟨4, 4, 4⟩ } }, .a, by (try unfold Serves); (try dsimp only); first | done | decide +kernel⟩,
    ⟨{ live with now := { liveMach with triad.proof := some .a, triad.readmit := true, triad.rejoinAt := 5, triad.rejoinRun := 16, pos.discord.a.concord := ⟨4, 4, 4⟩ } }, .a, by (try unfold Serves); (try dsimp only); first | done | decide +kernel⟩⟩

theorem test_hyp_ProofTestRuns_3 :
    ∃ s : State, ∃ c : CoreId, (s.now.triad.proof = some c) ∧ (s.now.triad.rejoinAt ≠ 0) ∧ ((s.now.triad.rejoinRun < 16 ∨ (s.now.pos.discord.get s.now.apOf).concord.get c < 4)) ∧ (s.now.triad.rejoinAt + 400 ≤ s.now.time.frame) :=
  ⟨{ live with now := { liveMach with triad.proof := some .a, triad.rejoinAt := 5, triad.rejoinRun := 15 } }, .a, by (try unfold Serves); (try dsimp only); first | done | decide +kernel⟩

theorem test_hyp_ProofTestRuns_4 :
    (∃ m : Mach, ∃ c : CoreId, 
    let m1 := ((m.raise 0x0500 0x13 1).proofDone 0x31).proofOver
    (m.triad.readmit = true)) ∧
    (∃ m : Mach, ∃ c : CoreId, 
    let m1 := ((m.raise 0x0500 0x13 1).proofDone 0x31).proofOver
    (m.triad.readmit = false)) :=
  ⟨⟨{ liveMach with triad.rejoinAt := 5, triad.readmit := true }, .a, by (try unfold Serves); (try dsimp only); first | done | decide +kernel⟩,
    ⟨{ liveMach with triad.rejoinAt := 5, triad.readmit := false }, .a, by (try unfold Serves); (try dsimp only); first | done | decide +kernel⟩⟩

theorem test_hyp_ClockEventsComplete_0 :
    (∃ s : State, ∃ counts : List Nat, ∃ unlocked : List Nat, 
    let r := s.now.clockRuns counts unlocked
    
    let m1 : Mach := { r.each r.clockFaults fun m x => m.judgeClock counts unlocked x with time.gateSpans := false }
    
    let m2 := if 0 ∈ unlocked then m1.raise 0 0x08 5 else m1
    
    let n (k : Nat) : Nat := if k ∈ unlocked then 0 else nth counts k 0
    (safePattern (n 3) (n 4) (n 5) = .fine)) ∧
    (∃ s : State, ∃ counts : List Nat, ∃ unlocked : List Nat, 
    let r := s.now.clockRuns counts unlocked
    
    let m1 : Mach := { r.each r.clockFaults fun m x => m.judgeClock counts unlocked x with time.gateSpans := false }
    
    let m2 := if 0 ∈ unlocked then m1.raise 0 0x08 5 else m1
    
    let n (k : Nat) : Nat := if k ∈ unlocked then 0 else nth counts k 0
    (safePattern (n 3) (n 4) (n 5) = .sys)) ∧
    (∃ s : State, ∃ counts : List Nat, ∃ unlocked : List Nat, 
    let r := s.now.clockRuns counts unlocked
    
    let m1 : Mach := { r.each r.clockFaults fun m x => m.judgeClock counts unlocked x with time.gateSpans := false }
    
    let m2 := if 0 ∈ unlocked then m1.raise 0 0x08 5 else m1
    
    let n (k : Nat) : Nat := if k ∈ unlocked then 0 else nth counts k 0
    (safePattern (n 3) (n 4) (n 5) = .other)) ∧
    (∃ s : State, ∃ counts : List Nat, ∃ unlocked : List Nat, 
    let r := s.now.clockRuns counts unlocked
    
    let m1 : Mach := { r.each r.clockFaults fun m x => m.judgeClock counts unlocked x with time.gateSpans := false }
    
    let m2 := if 0 ∈ unlocked then m1.raise 0 0x08 5 else m1
    
    let n (k : Nat) : Nat := if k ∈ unlocked then 0 else nth counts k 0
    ∃ c, (safePattern (n 3) (n 4) (n 5) = .one c) ∧ (m2.triad.excluded.get c = true)) ∧
    (∃ s : State, ∃ counts : List Nat, ∃ unlocked : List Nat, 
    let r := s.now.clockRuns counts unlocked
    
    let m1 : Mach := { r.each r.clockFaults fun m x => m.judgeClock counts unlocked x with time.gateSpans := false }
    
    let m2 := if 0 ∈ unlocked then m1.raise 0 0x08 5 else m1
    
    let n (k : Nat) : Nat := if k ∈ unlocked then 0 else nth counts k 0
    ∃ c, (safePattern (n 3) (n 4) (n 5) = .one c) ∧ (m2.triad.excluded.get c = false)) :=
  ⟨⟨live, [0, 0, 0, 50000, 50000, 50000], [], by (try unfold Serves); (try dsimp only); first | done | decide +kernel⟩,
    ⟨live, [0, 0, 0, 120000, 120000, 120000], [], by (try unfold Serves); (try dsimp only); first | done | decide +kernel⟩,
    ⟨live, [0, 0, 0, 120000, 150000, 190000], [], by (try unfold Serves); (try dsimp only); first | done | decide +kernel⟩,
    ⟨{ live with now := { liveMach with triad.excluded.a := true } }, [0, 0, 0, 120000, 50000, 50000], [], .a, by (try unfold Serves); (try dsimp only); first | done | decide +kernel⟩,
    ⟨live, [0, 0, 0, 120000, 50000, 50000], [], .a, by (try unfold Serves); (try dsimp only); first | done | decide +kernel⟩⟩

theorem test_hyp_PairEventsComplete_0 :
    (∃ s : State, (s.now.pair.takeover = true) ∧ (s.now.pair.holder.isSome = true) ∧ (s.now.time.ballast = false) ∧ 
    let t := s.now.time.frame
    
    let m1 : Mach := { s.now with
      pair.takeover := false
      pair.switches := sat32 s.now.pair.switches
      pair.ballast := satAdd 32 s.now.pair.ballast (t - s.now.pair.lastDelivered - 1)
      pair.age := min 255 (t - s.now.pair.copyFrame)
      pair.copyFrame := t
      pair.lastDelivered := t
      pair.deltaOk := true
      pair.deltaGap := 0
      pair.dualUntil := some (t + 64) }
    
    let m2 := (m1.post 8 2 0x0600 (if s.now.pair.holder = some .a then 1 else 2) 0).endFault 0x0600 0x21
    (t - s.now.pair.copyFrame ≤ 4)) ∧
    (∃ s : State, (s.now.pair.takeover = true) ∧ (s.now.pair.holder.isSome = true) ∧ (s.now.time.ballast = false) ∧ 
    let t := s.now.time.frame
    
    let m1 : Mach := { s.now with
      pair.takeover := false
      pair.switches := sat32 s.now.pair.switches
      pair.ballast := satAdd 32 s.now.pair.ballast (t - s.now.pair.lastDelivered - 1)
      pair.age := min 255 (t - s.now.pair.copyFrame)
      pair.copyFrame := t
      pair.lastDelivered := t
      pair.deltaOk := true
      pair.deltaGap := 0
      pair.dualUntil := some (t + 64) }
    
    let m2 := (m1.post 8 2 0x0600 (if s.now.pair.holder = some .a then 1 else 2) 0).endFault 0x0600 0x21
    (4 < t - s.now.pair.copyFrame)) :=
  ⟨⟨{ live with now := { liveMach with pair.takeover := true, time.ballast := false, pair.copyFrame := 8000000 } }, by (try unfold Serves); (try dsimp only); first | done | decide +kernel⟩,
    ⟨{ live with now := { liveMach with pair.takeover := true, time.ballast := false, pair.copyFrame := 7999995 } }, by (try unfold Serves); (try dsimp only); first | done | decide +kernel⟩⟩

theorem test_hyp_PairEventsComplete_1 :
    ∃ s : State, (s.now.start.ready = true) ∧ (s.now.power.state ≠ 3) ∧ (s.now.pair.holder = none) ∧ (3 ≤ s.now.pair.noHolder) :=
  ⟨{ live with now := { liveMach with start.ready := true, pair.holder := none, pair.noHolder := 5 } }, by (try unfold Serves); (try dsimp only); first | done | decide +kernel⟩

theorem test_hyp_PairEventsComplete_2 :
    (∃ s : State, ∃ f : Nat, ∃ h : Sys2Proof.Ab, (s.now.pair.snapFor = some f) ∧ (s.now.pair.holder = some h) ∧ (s.now.pair.snapChunks = 8) ∧ 
    let m1 : Mach := { s.now with
      pair.snapFor := none
      pair.snapChunks := 0
      pair.snapEq := true
      pair.snapFrame := f % 2 ^ 32
      pair.deltaOk := true
      pair.deltaGap := 0
      pair.copyFrame := s.now.time.frame }
    
    let eq := s.now.pair.deltaOk && s.now.pair.snapEq && (s.now.ap h.other).gotSnapshot
    
    let r := (s.now.ap h.other).role
    
    let m2 := (m1.unsync h.other).onAp h.other fun x => { x with gotSnapshot := true, cleanRun := 0 }
    ((eq = true ∨ r = 0 ∨ r = 1 ∨ r = 5))) ∧
    (∃ s : State, ∃ f : Nat, ∃ h : Sys2Proof.Ab, (s.now.pair.snapFor = some f) ∧ (s.now.pair.holder = some h) ∧ (s.now.pair.snapChunks = 8) ∧ 
    let m1 : Mach := { s.now with
      pair.snapFor := none
      pair.snapChunks := 0
      pair.snapEq := true
      pair.snapFrame := f % 2 ^ 32
      pair.deltaOk := true
      pair.deltaGap := 0
      pair.copyFrame := s.now.time.frame }
    
    let eq := s.now.pair.deltaOk && s.now.pair.snapEq && (s.now.ap h.other).gotSnapshot
    
    let r := (s.now.ap h.other).role
    
    let m2 := (m1.unsync h.other).onAp h.other fun x => { x with gotSnapshot := true, cleanRun := 0 }
    (eq = false) ∧ (r ≠ 0) ∧ (r ≠ 1) ∧ (r ≠ 5) ∧ ((m2.pos.est.get h.other.proc).inited = true)) ∧
    (∃ s : State, ∃ f : Nat, ∃ h : Sys2Proof.Ab, (s.now.pair.snapFor = some f) ∧ (s.now.pair.holder = some h) ∧ (s.now.pair.snapChunks = 8) ∧ 
    let m1 : Mach := { s.now with
      pair.snapFor := none
      pair.snapChunks := 0
      pair.snapEq := true
      pair.snapFrame := f % 2 ^ 32
      pair.deltaOk := true
      pair.deltaGap := 0
      pair.copyFrame := s.now.time.frame }
    
    let eq := s.now.pair.deltaOk && s.now.pair.snapEq && (s.now.ap h.other).gotSnapshot
    
    let r := (s.now.ap h.other).role
    
    let m2 := (m1.unsync h.other).onAp h.other fun x => { x with gotSnapshot := true, cleanRun := 0 }
    (eq = false) ∧ (r ≠ 0) ∧ (r ≠ 1) ∧ (r ≠ 5) ∧ ((m2.pos.est.get h.other.proc).inited = false)) :=
  ⟨⟨{ live with now := { liveMach with pair.snapFor := some 3, pair.holder := some .a, pair.snapChunks := 8 } }, 3, .a, by (try unfold Serves); (try dsimp only); first | done | decide +kernel⟩,
    ⟨{ live with now := { liveMach with pair.snapFor := some 3, pair.holder := some .a, pair.snapChunks := 8, pair.aps.b.role := 3, pos.est.e.inited := true, pair.deltaOk := false } }, 3, .a, by (try unfold Serves); (try dsimp only); first | done | decide +kernel⟩,
    ⟨{ live with now := { liveMach with pair.snapFor := some 3, pair.holder := some .a, pair.snapChunks := 8, pair.aps.b.role := 3, pair.deltaOk := false } }, 3, .a, by (try unfold Serves); (try dsimp only); first | done | decide +kernel⟩⟩

theorem test_hyp_PairEventsComplete_3 :
    ∃ s : State, ∃ h : Sys2Proof.Ab, (s.now.pair.holder = some h) ∧ ((s.now.ap h.other).role = 2) ∧ ((s.now.ap h.other).gotSnapshot = true) ∧ (64 ≤ (s.now.ap h.other).cleanRun) ∧ ((s.now.ap h.other).compat = (s.now.ap h).compat) ∧ ((s.now.ap h.other).integrity = false) :=
  ⟨{ live with now := { liveMach with pair.holder := some .a, pair.aps.b.role := 2, pair.aps.b.gotSnapshot := true, pair.aps.b.cleanRun := 64 } }, .a, by (try unfold Serves); (try dsimp only); first | done | decide +kernel⟩

theorem test_hyp_PairEventsComplete_4 :
    (∃ s : State, ∃ a : Sys2Proof.Ab, ∃ f : Nat, ((s.now.ap a).resetUntil = some f) ∧ (f ≤ s.now.time.frame) ∧ 
    let m1 := s.now.onAp a fun x => { x with resetUntil := none }
    
    let m2 := m1.onAp a fun x => { x with role := 1 }
    ((s.now.ap a).role ≠ 0)) ∧
    (∃ s : State, ∃ a : Sys2Proof.Ab, ∃ f : Nat, ((s.now.ap a).resetUntil = some f) ∧ (f ≤ s.now.time.frame) ∧ 
    let m1 := s.now.onAp a fun x => { x with resetUntil := none }
    
    let m2 := m1.onAp a fun x => { x with role := 1 }
    ((s.now.ap a).role = 0) ∧ ((s.now.ap a).everStandby = false)) ∧
    (∃ s : State, ∃ a : Sys2Proof.Ab, ∃ f : Nat, ((s.now.ap a).resetUntil = some f) ∧ (f ≤ s.now.time.frame) ∧ 
    let m1 := s.now.onAp a fun x => { x with resetUntil := none }
    
    let m2 := m1.onAp a fun x => { x with role := 1 }
    ((s.now.ap a).role = 0) ∧ ((s.now.ap a).everStandby = true)) :=
  ⟨⟨{ live with now := { liveMach with pair.aps.a.resetUntil := some 0 } }, .a, 0, by (try unfold Serves); (try dsimp only); first | done | decide +kernel⟩,
    ⟨{ live with now := { liveMach with pair.aps.a.resetUntil := some 0, pair.aps.a.role := 0 } }, .a, 0, by (try unfold Serves); (try dsimp only); first | done | decide +kernel⟩,
    ⟨{ live with now := { liveMach with pair.aps.a.resetUntil := some 0, pair.aps.a.role := 0, pair.aps.a.everStandby := true } }, .a, 0, by (try unfold Serves); (try dsimp only); first | done | decide +kernel⟩⟩

theorem test_hyp_PairEventsComplete_5 :
    ∃ s : State, ∃ f : Nat, (s.now.pair.dualStart = true) ∧ (64 ≤ s.now.pair.standbyRun) ∧ (s.now.pair.dualUntil = some f) :=
  ⟨{ live with now := { liveMach with pair.dualStart := true, pair.dualUntil := some 0, pair.standbyRun := 64 } }, 0, by (try unfold Serves); (try dsimp only); first | done | decide +kernel⟩

theorem test_hyp_PairEventsComplete_6 :
    ∃ s : State, ∃ f : Nat, (s.now.pair.dualStart = false) ∧ (s.now.pair.dualUntil = some f) ∧ (f ≤ s.now.time.frame) :=
  ⟨{ live with now := { liveMach with pair.dualStart := false, pair.dualUntil := some 0 } }, 0, by (try unfold Serves); (try dsimp only); first | done | decide +kernel⟩

theorem test_hyp_SwitchCommandsAnswered_0 :
    (∃ s : State, ∃ tag : Nat, (Serves s 0xA1) ∧ 
    let to1 := match s.now.pair.holder with
      | some h => h.other
      | none => s.now.preferred
    (s.now.triad.proof.isSome = true)) ∧
    (∃ s : State, ∃ tag : Nat, (Serves s 0xA1) ∧ 
    let to1 := match s.now.pair.holder with
      | some h => h.other
      | none => s.now.preferred
    (s.now.triad.proof = none) ∧ ((s.now.ap to1).role ≠ 3)) ∧
    (∃ s : State, ∃ tag : Nat, (Serves s 0xA1) ∧ 
    let to1 := match s.now.pair.holder with
      | some h => h.other
      | none => s.now.preferred
    (s.now.triad.proof = none) ∧ ((s.now.ap to1).role = 3)) :=
  ⟨⟨{ live with now := { liveMach with triad.proof := some .a } }, 0, by (try unfold Serves); (try dsimp only); first | done | decide +kernel⟩,
    ⟨{ live with now := { liveMach with triad.proof := none } }, 0, by (try unfold Serves); (try dsimp only); first | done | decide +kernel⟩,
    ⟨{ live with now := { liveMach with triad.proof := none, pair.aps.b.role := 3 } }, 0, by (try unfold Serves); (try dsimp only); first | done | decide +kernel⟩⟩

theorem test_hyp_SwitchCommandsAnswered_1 :
    (∃ s : State, ∃ tag : Nat, (Serves s 0xA2) ∧ 
    let p := s.now.preferred
    (s.now.triad.proof.isSome = true)) ∧
    (∃ s : State, ∃ tag : Nat, (Serves s 0xA2) ∧ 
    let p := s.now.preferred
    (s.now.triad.proof = none) ∧ (s.now.pair.holder = some p)) ∧
    (∃ s : State, ∃ tag : Nat, (Serves s 0xA2) ∧ 
    let p := s.now.preferred
    (s.now.triad.proof = none) ∧ (s.now.pair.holder ≠ some p) ∧ ((s.now.ap p).role ≠ 3)) ∧
    (∃ s : State, ∃ tag : Nat, (Serves s 0xA2) ∧ 
    let p := s.now.preferred
    (s.now.triad.proof = none) ∧ (s.now.pair.holder ≠ some p) ∧ ((s.now.ap p).role = 3)) :=
  ⟨⟨{ live with now := { liveMach with triad.proof := some .a } }, 0, by (try unfold Serves); (try dsimp only); first | done | decide +kernel⟩,
    ⟨{ live with now := { liveMach with triad.proof := none } }, 0, by (try unfold Serves); (try dsimp only); first | done | decide +kernel⟩,
    ⟨{ live with now := { liveMach with triad.proof := none, pair.holder := some .b } }, 0, by (try unfold Serves); (try dsimp only); first | done | decide +kernel⟩,
    ⟨{ live with now := { liveMach with triad.proof := none, pair.holder := some .b, pair.aps.a.role := 3 } }, 0, by (try unfold Serves); (try dsimp only); first | done | decide +kernel⟩⟩

theorem test_hyp_SwitchCommandsAnswered_2 :
    ∃ s : State, ∃ tag : Nat, (Serves s 0xA0) :=
  ⟨live, 0, by (try unfold Serves); (try dsimp only); first | done | decide +kernel⟩

theorem test_hyp_LinkFramesComplete_0 :
    (∃ s : State, ∃ lt : Nat, ∃ err : Nat, ∃ ecc : Ecc, (lt < 40) ∧ (s.now.power.saveDone = false) ∧ 
    let h := if lt = 31 then s.now.latchHeads else s.now
    
    let x := h.downBits lt err
    
    let m0 : Mach := { h.ctlSent lt with link.lt := lt }
    
    let m1 := (if lt = 4 then m0.pulseStart else m0).each (bitsOf s.now.field.short) Mach.shortTick
    (s.now.field.booted = false)) ∧
    (∃ s : State, ∃ lt : Nat, ∃ err : Nat, ∃ ecc : Ecc, (lt < 40) ∧ (s.now.power.saveDone = false) ∧ 
    let h := if lt = 31 then s.now.latchHeads else s.now
    
    let x := h.downBits lt err
    
    let m0 : Mach := { h.ctlSent lt with link.lt := lt }
    
    let m1 := (if lt = 4 then m0.pulseStart else m0).each (bitsOf s.now.field.short) Mach.shortTick
    (s.now.field.booted = true) ∧ (ecc = .double)) ∧
    (∃ s : State, ∃ lt : Nat, ∃ err : Nat, ∃ ecc : Ecc, (lt < 40) ∧ (s.now.power.saveDone = false) ∧ 
    let h := if lt = 31 then s.now.latchHeads else s.now
    
    let x := h.downBits lt err
    
    let m0 : Mach := { h.ctlSent lt with link.lt := lt }
    
    let m1 := (if lt = 4 then m0.pulseStart else m0).each (bitsOf s.now.field.short) Mach.shortTick
    (s.now.field.booted = true) ∧ (ecc ≠ .double) ∧ (m1.downGood lt x = true)) ∧
    (∃ s : State, ∃ lt : Nat, ∃ err : Nat, ∃ ecc : Ecc, (lt < 40) ∧ (s.now.power.saveDone = false) ∧ 
    let h := if lt = 31 then s.now.latchHeads else s.now
    
    let x := h.downBits lt err
    
    let m0 : Mach := { h.ctlSent lt with link.lt := lt }
    
    let m1 := (if lt = 4 then m0.pulseStart else m0).each (bitsOf s.now.field.short) Mach.shortTick
    (s.now.field.booted = true) ∧ (ecc ≠ .double) ∧ (m1.downGood lt x = false)) :=
  ⟨⟨{ live with now := { liveMach with power.saveDone := false, field.booted := false } }, 39, 0, .fine, by (try unfold Serves); (try dsimp only); first | done | decide +kernel⟩,
    ⟨{ live with now := { liveMach with power.saveDone := false, field.booted := true } }, 0, 0, .double, by (try unfold Serves); (try dsimp only); first | done | decide +kernel⟩,
    ⟨{ live with now := { liveMach with power.saveDone := false, field.booted := true } }, 0, 0, .fine, by (try unfold Serves); (try dsimp only); first | done | decide +kernel⟩,
    ⟨{ live with now := { liveMach with power.saveDone := false, field.booted := true } }, 39, 1, .fine, by (try unfold Serves); (try dsimp only); first | done | decide +kernel⟩⟩

theorem test_hyp_LinkFramesComplete_1 :
    (∃ s : State, ∃ lt : Nat, ∃ err : Nat, ∃ ecc : Ecc, (lt < 40) ∧ (s.now.power.saveDone = false) ∧ 
    let x := s.now.upBits lt err
    (ecc ≠ .double) ∧ (s.now.upGoodNow lt x = true)) ∧
    (∃ s : State, ∃ lt : Nat, ∃ err : Nat, ∃ ecc : Ecc, (lt < 40) ∧ (s.now.power.saveDone = false) ∧ 
    let x := s.now.upBits lt err
    ((ecc = .double ∨ s.now.upGoodNow lt x = false))) :=
  ⟨⟨{ live with now := { liveMach with power.saveDone := false, field.frame := 8000000, link.upAt := some 8000000 } }, 39, 0, .fine, by (try unfold Serves); (try dsimp only); first | done | decide +kernel⟩,
    ⟨{ live with now := { liveMach with power.saveDone := false } }, 39, 1, .fine, by (try unfold Serves); (try dsimp only); first | done | decide +kernel⟩⟩

theorem test_hyp_LinkFramesComplete_2 :
    ∃ s : State, ∃ lt : Nat, ∃ w : Kept Nat, (s.now.power.saveDone = true) :=
  ⟨{ live with now := { liveMach with power.saveDone := true } }, 0, ⟨0, .fine⟩, by (try unfold Serves); (try dsimp only); first | done | decide +kernel⟩

theorem test_hyp_LinkFramesComplete_4 :
    (∃ s : State, (160 < (s.now.link.upLost.filter fun t => s.now.ltNow < t + 160000).length)) ∧
    (∃ s : State, (160 < (s.now.link.dnLost.filter fun t => s.now.ltNow < t + 160000).length)) :=
  ⟨⟨{ live with now := { liveMach with link.upLost := List.replicate 161 1000000000 } }, by (try unfold Serves); (try dsimp only); first | done | decide +kernel⟩,
    ⟨{ live with now := { liveMach with link.dnLost := List.replicate 161 1000000000 } }, by (try unfold Serves); (try dsimp only); first | done | decide +kernel⟩⟩

theorem test_hyp_LinkFramesComplete_5 :
    ∃ s : State, (64 ≤ s.now.link.digBad) :=
  ⟨{ live with now := { liveMach with link.digBad := 64 } }, by (try unfold Serves); (try dsimp only); first | done | decide +kernel⟩

theorem test_hyp_LinkFramesComplete_6 :
    ∃ s : State, (s.now.field.booted = true) ∧ (s.now.field.timeout = false) ∧ (linkTicks s.now.field.tmo ≤ s.now.ltNow - s.now.field.lastValid) :=
  ⟨{ live with now := { liveMach with field.booted := true, field.timeout := false, field.lastValid := 0 } }, by (try unfold Serves); (try dsimp only); first | done | decide +kernel⟩

theorem test_hyp_FieldSupplyEventsComplete_0 :
    (∃ s : State, ∃ d : Sys2Proof.Ab, ∃ s1 : Nat, ∃ s2 : Nat, (s.now.field.booted = true) ∧ 
    let r := s.now.field.domains.get d
    
    let st := domainNext r s1 s2
    
    let m1 := ({ s.now with field.domains := s.now.field.domains.set d { r with
      state := st, sampled := true, codes := domainCodes r st s1 s2,
      heldTo := if domHolds r.state then s.now.ltNow else r.heldTo } } : Mach).vfSample d s2
    
    let fb := decide (m1.field.domains.a.vf < 900) && decide (m1.field.domains.b.vf < 900)
    
    let m2 : Mach := { m1 with field.fallback := fb }
    (fb = true)) ∧
    (∃ s : State, ∃ d : Sys2Proof.Ab, ∃ s1 : Nat, ∃ s2 : Nat, (s.now.field.booted = true) ∧ 
    let r := s.now.field.domains.get d
    
    let st := domainNext r s1 s2
    
    let m1 := ({ s.now with field.domains := s.now.field.domains.set d { r with
      state := st, sampled := true, codes := domainCodes r st s1 s2,
      heldTo := if domHolds r.state then s.now.ltNow else r.heldTo } } : Mach).vfSample d s2
    
    let fb := decide (m1.field.domains.a.vf < 900) && decide (m1.field.domains.b.vf < 900)
    
    let m2 : Mach := { m1 with field.fallback := fb }
    (fb = false) ∧ (domOutOff st = true)) ∧
    (∃ s : State, ∃ d : Sys2Proof.Ab, ∃ s1 : Nat, ∃ s2 : Nat, (s.now.field.booted = true) ∧ 
    let r := s.now.field.domains.get d
    
    let st := domainNext r s1 s2
    
    let m1 := ({ s.now with field.domains := s.now.field.domains.set d { r with
      state := st, sampled := true, codes := domainCodes r st s1 s2,
      heldTo := if domHolds r.state then s.now.ltNow else r.heldTo } } : Mach).vfSample d s2
    
    let fb := decide (m1.field.domains.a.vf < 900) && decide (m1.field.domains.b.vf < 900)
    
    let m2 : Mach := { m1 with field.fallback := fb }
    (fb = false) ∧ (domOutOff st = false)) :=
  ⟨⟨{ live with now := { liveMach with field.booted := true, field.domains.a.vf := 0 } }, .a, 0, 0, by (try unfold Serves); (try dsimp only); first | done | decide +kernel⟩,
    ⟨{ live with now := { liveMach with field.booted := true } }, .a, 1000, 1000, by (try unfold Serves); (try dsimp only); first | done | decide +kernel⟩,
    ⟨{ live with now := { liveMach with field.booted := true } }, .a, 2400, 2400, by (try unfold Serves); (try dsimp only); first | done | decide +kernel⟩⟩

theorem test_hyp_FieldSupplyEventsComplete_1 :
    ∃ s : State, ∃ d : Sys2Proof.Ab, ∃ f : Nat, (domInOff (s.now.field.domains.get d).state = true) ∧ ((s.now.field.domains.get d).okSince = some f) ∧ (400 ≤ s.now.time.frame - f) :=
  ⟨{ live with now := { liveMach with field.domains.a.okSince := some 0, field.domains.a.state := 3 } }, .a, 0, by (try unfold Serves); (try dsimp only); first | done | decide +kernel⟩

theorem test_hyp_InputEventsComplete_0 :
    ∃ s : State, ∃ c : Nat, ∃ reading : Nat, ∃ n : Nat, ∃ unbroken : Nat, (s.now.evaluates c = true) ∧ (n ≠ 0) ∧ (s.now.readBand c reading = none) :=
  ⟨{ live with now := { liveMach with field.booted := true, field.domains.a.state := 0, field.cfg := [⟨0, 2 * 2 ^ 44⟩] } }, 0, 8000, 5, 0, by (try unfold Serves); (try dsimp only); first | done | decide +kernel⟩

theorem test_hyp_InputEventsComplete_1 :
    (∃ s : State, ∃ c : Nat, ∃ reading : Nat, ∃ n : Nat, ∃ unbroken : Nat, ∃ level : Bool, (s.now.evaluates c = true) ∧ (n ≠ 0) ∧ (s.now.readBand c reading = some level) ∧ 
    let m0 := s.now.wireEnds c unbroken
    
    let m1 : Mach := { m0 with field.undef := setBit m0.field.undef c false }
    ((bit m1.field.inBits c = level ∨ n < max 1 (m1.fDebounce c)))) ∧
    (∃ s : State, ∃ c : Nat, ∃ reading : Nat, ∃ n : Nat, ∃ unbroken : Nat, ∃ level : Bool, (s.now.evaluates c = true) ∧ (n ≠ 0) ∧ (s.now.readBand c reading = some level) ∧ 
    let m0 := s.now.wireEnds c unbroken
    
    let m1 : Mach := { m0 with field.undef := setBit m0.field.undef c false }
    (bit m1.field.inBits c ≠ level) ∧ (max 1 (m1.fDebounce c) ≤ n)) :=
  ⟨⟨{ live with now := { liveMach with field.booted := true, field.domains.a.state := 0, field.cfg := [⟨0, 2 * 2 ^ 44⟩] } }, 0, 0, 1, 0, false, by (try unfold Serves); (try dsimp only); first | done | decide +kernel⟩,
    ⟨{ live with now := { liveMach with field.booted := true, field.domains.a.state := 0, field.cfg := [⟨0, 2 * 2 ^ 44⟩] } }, 0, 12000, 100000, 0, true, by (try unfold Serves); (try dsimp only); first | done | decide +kernel⟩⟩

theorem test_hyp_InputEventsComplete_2 :
    (∃ m : Mach, ∃ c : Nat, ∃ x : Nat, 
    let at1 (on off : Nat) : Option Bool := if on ≤ x then some true else if x ≤ off then some false else none
    (m.fMode c = 1)) ∧
    (∃ m : Mach, ∃ c : Nat, ∃ x : Nat, 
    let at1 (on off : Nat) : Option Bool := if on ≤ x then some true else if x ≤ off then some false else none
    (m.fMode c = 3)) ∧
    (∃ m : Mach, ∃ c : Nat, ∃ x : Nat, 
    let at1 (on off : Nat) : Option Bool := if on ≤ x then some true else if x ≤ off then some false else none
    (m.fMode c ≠ 1) ∧ (m.fMode c ≠ 3)) :=
  ⟨⟨{ (liveMach) with field.booted := true, field.domains.a.state := 0, field.cfg := [⟨0, 1 * 2 ^ 44⟩] }, 0, 0, by (try unfold Serves); (try dsimp only); first | done | decide +kernel⟩,
    ⟨{ (liveMach) with field.booted := true, field.domains.a.state := 0, field.cfg := [⟨0, 3 * 2 ^ 44⟩] }, 0, 0, by (try unfold Serves); (try dsimp only); first | done | decide +kernel⟩,
    ⟨{ (liveMach) with field.booted := true, field.domains.a.state := 0, field.cfg := [⟨0, 2 * 2 ^ 44⟩] }, 0, 0, by (try unfold Serves); (try dsimp only); first | done | decide +kernel⟩⟩

theorem test_hyp_InputEventsComplete_3 :
    (∃ s : State, ∃ c : Nat, ∃ n : Nat, (s.now.evaluates c = true) ∧ (s.now.fMode c = 3) ∧ (n ≠ 0) ∧ 
    let m1 := s.now.debounced c (some (s.now.fInSafe c)) n
    (1600 ≤ s.now.wireCount c n) ∧ (bit s.now.field.wire c = false)) ∧
    (∃ s : State, ∃ c : Nat, ∃ n : Nat, (s.now.evaluates c = true) ∧ (s.now.fMode c = 3) ∧ (n ≠ 0) ∧ 
    let m1 := s.now.debounced c (some (s.now.fInSafe c)) n
    ((s.now.wireCount c n < 1600 ∨ bit s.now.field.wire c = true))) :=
  ⟨⟨{ live with now := { liveMach with field.booted := true, field.domains.a.state := 0, field.cfg := [⟨0, 3 * 2 ^ 44⟩] } }, 0, 1600, by (try unfold Serves); (try dsimp only); first | done | decide +kernel⟩,
    ⟨{ live with now := { liveMach with field.booted := true, field.domains.a.state := 0, field.cfg := [⟨0, 3 * 2 ^ 44⟩] } }, 0, 1599, by (try unfold Serves); (try dsimp only); first | done | decide +kernel⟩⟩

theorem test_hyp_InputEventsComplete_5 :
    (∃ m : Mach, ∃ c : Nat, ∃ n : Nat, (bit m.field.wire c = true) ∧ (1600 ≤ m.wireCount c n)) ∧
    (∃ m : Mach, ∃ c : Nat, ∃ n : Nat, ((bit m.field.wire c = false ∨ m.wireCount c n < 1600))) :=
  ⟨⟨{ liveMach with field.booted := true, field.domains.a.state := 0, field.cfg := [⟨0, 2 * 2 ^ 44⟩], field.wire := 1 }, 0, 1600, by (try unfold Serves); (try dsimp only); first | done | decide +kernel⟩,
    ⟨{ liveMach with field.booted := true, field.domains.a.state := 0, field.cfg := [⟨0, 2 * 2 ^ 44⟩] }, 0, 1599, by (try unfold Serves); (try dsimp only); first | done | decide +kernel⟩⟩

theorem test_hyp_OutputProtectionComplete_0 :
    ∃ s : State, ∃ c : Nat, ∃ us : Nat, (c < 64) ∧ (outputMode (s.now.fMode c) = true) ∧ (bit s.now.field.driver c = true) ∧ (5000 ≤ us) :=
  ⟨{ live with now := { liveMach with field.cfg := [⟨0, 5 * 2 ^ 44⟩], field.driver := 1 } }, 0, 5000, by (try unfold Serves); (try dsimp only); first | done | decide +kernel⟩

theorem test_hyp_OutputProtectionComplete_1 :
    ∃ s : State, ∃ c : Nat, ∃ t : Int, (c < 64) ∧ (outputMode (s.now.fMode c) = true) ∧ (bit s.now.field.driver c = true) ∧ (1650 ≤ t) :=
  ⟨{ live with now := { liveMach with field.cfg := [⟨0, 5 * 2 ^ 44⟩], field.driver := 1 } }, 0, 1650, by (try unfold Serves); (try dsimp only); first | done | decide +kernel⟩

theorem test_hyp_OutputProtectionComplete_2 :
    ∃ s : State, ∃ c : Nat, (bit s.now.field.retry c = true) ∧ (aGet s.now.field.retryAt c 0 ≤ s.now.time.frame) ∧ (aGet s.now.field.temp c 0 < 1450) :=
  ⟨{ live with now := { liveMach with field.cfg := [⟨0, 5 * 2 ^ 44⟩], field.retry := 1 } }, 0, by (try unfold Serves); (try dsimp only); first | done | decide +kernel⟩

theorem test_hyp_OutputProtectionComplete_3 :
    ∃ s : State, ∃ g : Nat, ∃ ma : Nat, ∃ us : Nat, (g < 8) ∧ (bit s.now.field.groupsOff g = false) ∧ (((4000 < ma ∧ 1000000 ≤ us) ∨ (6000 < ma ∧ 10000 ≤ us))) :=
  ⟨{ live with now := { liveMach with field.cfg := [⟨0, 5 * 2 ^ 44⟩] } }, 0, 4001, 1000000, by (try unfold Serves); (try dsimp only); first | done | decide +kernel⟩

theorem test_hyp_OutputProtectionComplete_4 :
    (∃ s : State, ∃ c : Nat, ∃ n : Nat, (c < 64) ∧ (outputMode (s.now.fMode c) = true) ∧ (bit s.now.field.driver c = false) ∧ (n = 0)) ∧
    (∃ s : State, ∃ c : Nat, ∃ n : Nat, (c < 64) ∧ (outputMode (s.now.fMode c) = true) ∧ (bit s.now.field.driver c = false) ∧ (n ≠ 0) ∧ ((n < 320 ∨ bit s.now.field.short c = true ∨ bit s.now.field.cross c = true))) ∧
    (∃ s : State, ∃ c : Nat, ∃ n : Nat, (c < 64) ∧ (outputMode (s.now.fMode c) = true) ∧ (bit s.now.field.driver c = false) ∧ (320 ≤ n) ∧ (bit s.now.field.short c = false) ∧ (bit s.now.field.cross c = false)) :=
  ⟨⟨{ live with now := { liveMach with field.cfg := [⟨0, 5 * 2 ^ 44⟩] } }, 0, 0, by (try unfold Serves); (try dsimp only); first | done | decide +kernel⟩,
    ⟨{ live with now := { liveMach with field.cfg := [⟨0, 5 * 2 ^ 44⟩] } }, 0, 1, by (try unfold Serves); (try dsimp only); first | done | decide +kernel⟩,
    ⟨{ live with now := { liveMach with field.cfg := [⟨0, 5 * 2 ^ 44⟩] } }, 0, 320, by (try unfold Serves); (try dsimp only); first | done | decide +kernel⟩⟩

theorem test_hyp_OutputProtectionComplete_5 :
    ∃ s : State, ∃ c : Nat, (c < 64) ∧ ((s.now.cellAt (0x0100 + c)).own = .stopping) ∧ ((bit s.now.field.rb c = false ∨ 40 ≤ s.now.time.frame - (s.now.cellAt (0x0100 + c)).since)) :=
  ⟨{ live with now := { liveMach with field.cfg := [⟨0, 5 * 2 ^ 44⟩], units := [{ UnitCell.reset with handle := 0x0100, own := .stopping }] } }, 0, by (try unfold Serves); (try dsimp only); first | done | decide +kernel⟩

theorem test_hyp_TestPulseEnds_0 :
    ∃ s : State, ∃ p : PulseRun, ∃ inp : PulseIn, (s.now.field.pulse = some p) ∧ (p.discarded = true) :=
  ⟨{ live with now := { liveMach with field.pulse := some (⟨0, true, 0, 0⟩) } }, ⟨0, true, 0, 0⟩, ⟨true, [], []⟩, by (try unfold Serves); (try dsimp only); first | done | decide +kernel⟩

theorem test_hyp_TestPulseEnds_1 :
    ∃ s : State, ∃ p : PulseRun, ∃ inp : PulseIn, (s.now.field.pulse = some p) ∧ (p.discarded = false) :=
  ⟨{ live with now := { liveMach with field.pulse := some (⟨0, false, 0, 0⟩) } }, ⟨0, false, 0, 0⟩, ⟨true, [], []⟩, by (try unfold Serves); (try dsimp only); first | done | decide +kernel⟩

theorem test_hyp_TestPulseEnds_2 :
    ∃ m : Mach, ∃ c : Nat, ∃ drv : Nat, ∃ inp : PulseIn, (m.crossed c drv inp.followers = []) ∧ (inp.rb = true) :=
  ⟨liveMach, 0, 0, ⟨true, [], []⟩, by (try unfold Serves); (try dsimp only); first | done | decide +kernel⟩

theorem test_hyp_TestPulseEnds_3 :
    ∃ m : Mach, ∃ c : Nat, ∃ drv : Nat, ∃ inp : PulseIn, (m.crossed c drv inp.followers = []) ∧ (inp.rb = false) ∧ (m.inForce (0x0100 + c) 0x84 = false) ∧ ((m.pulsePassed c).inForce (0x0100 + c) 0x84 = false) :=
  ⟨liveMach, 0, 0, ⟨false, [], []⟩, by (try unfold Serves); (try dsimp only); first | done | decide +kernel⟩

theorem test_hyp_TestPulseEnds_4 :
    ∃ m : Mach, ∃ c : Nat, ∃ drv : Nat, ∃ inp : PulseIn, (m.crossed c drv inp.followers ≠ []) :=
  ⟨{ liveMach with field.cfg := [⟨1, 6 * 2 ^ 44⟩] }, 0, 0, ⟨false, [1], []⟩, by (try unfold Serves); (try dsimp only); first | done | decide +kernel⟩

theorem test_hyp_BenchCommandsAnswered_0 :
    ∃ s : State, ∃ tag : Nat, ∃ ch : Nat, ∃ b : Nat, ∃ v : Nat, (Serves s 0x44) ∧ ((64 ≤ ch ∨ 2 ≤ b ∨ 2 ≤ v)) :=
  ⟨live, 0, 64, 0, 0, by (try unfold Serves); (try dsimp only); first | done | decide +kernel⟩

theorem test_hyp_BenchCommandsAnswered_1 :
    (∃ s : State, ∃ tag : Nat, ∃ ch : Nat, ∃ b : Nat, ∃ v : Nat, (Serves s 0x44) ∧ (ch < 64) ∧ (b < 2) ∧ (v < 2) ∧ (s.now.cab.session = none)) ∧
    (∃ s : State, ∃ tag : Nat, ∃ ch : Nat, ∃ b : Nat, ∃ v : Nat, (Serves s 0x44) ∧ (ch < 64) ∧ (b < 2) ∧ (v < 2) ∧ ∃ slot, (s.now.cab.session = some slot) ∧ (s.now.inspection = false)) ∧
    (∃ s : State, ∃ tag : Nat, ∃ ch : Nat, ∃ b : Nat, ∃ v : Nat, (Serves s 0x44) ∧ (ch < 64) ∧ (b < 2) ∧ (v < 2) ∧ ∃ slot, (s.now.cab.session = some slot) ∧ (s.now.inspection = true) ∧ ((s.now.chan ch pCH_MODE = 6 ∨ s.now.chan ch pCH_MODE = 7 ∨ s.now.chan ch pCH_MODE = 0 ∨ s.now.benchDenied ch = true))) ∧
    (∃ s : State, ∃ tag : Nat, ∃ ch : Nat, ∃ b : Nat, ∃ v : Nat, (Serves s 0x44) ∧ (ch < 64) ∧ (b < 2) ∧ (v < 2) ∧ ∃ slot, (s.now.cab.session = some slot) ∧ (s.now.inspection = true) ∧ (s.now.chan ch pCH_MODE ≠ 6) ∧ (s.now.chan ch pCH_MODE ≠ 7) ∧ (s.now.chan ch pCH_MODE ≠ 0) ∧ (s.now.benchDenied ch = false)) :=
  ⟨⟨{ live with now := { liveMach with cab.session := none } }, 0, 0, 0, 0, by (try unfold Serves); (try dsimp only); first | done | decide +kernel⟩,
    ⟨{ live with now := { liveMach with cab.session := some 0 } }, 0, 2, 0, 0, by (try unfold Serves); (try dsimp only); first | done | decide +kernel, by (try unfold Serves); (try dsimp only); first | done | decide +kernel, by (try unfold Serves); (try dsimp only); first | done | decide +kernel, by (try unfold Serves); (try dsimp only); first | done | decide +kernel, 0, by (try unfold Serves); (try dsimp only); first | done | decide +kernel⟩,
    ⟨{ live with now := { liveMach with cab.session := some 0, safe.cores.a.insp := true, safe.cores.b.insp := true } }, 0, 0, 0, 0, by (try unfold Serves); (try dsimp only); first | done | decide +kernel, by (try unfold Serves); (try dsimp only); first | done | decide +kernel, by (try unfold Serves); (try dsimp only); first | done | decide +kernel, by (try unfold Serves); (try dsimp only); first | done | decide +kernel, 0, by (try unfold Serves); (try dsimp only); first | done | decide +kernel⟩,
    ⟨{ live with now := { (liveMach.putI 0x0102 pCH_MODE 2) with cab.session := some 0, safe.cores.a.insp := true, safe.cores.b.insp := true } }, 0, 2, 0, 0, by (try unfold Serves); (try dsimp only); first | done | decide +kernel, by (try unfold Serves); (try dsimp only); first | done | decide +kernel, by (try unfold Serves); (try dsimp only); first | done | decide +kernel, by (try unfold Serves); (try dsimp only); first | done | decide +kernel, 0, by (try unfold Serves); (try dsimp only); first | done | decide +kernel⟩⟩

theorem test_hyp_BenchCommandsAnswered_2 :
    ∃ m : Mach, ∃ o : BenchRec, 
    let old := m.link.benches.filter fun (x : BenchRec) => x.ch == o.ch && x.due
    (old = []) :=
  ⟨liveMach, { BenchRec.reset with ch := 2 }, by (try unfold Serves); (try dsimp only); first | done | decide +kernel⟩

theorem test_hyp_BenchCommandsAnswered_4 :
    ∃ s : State, (s.now.link.benches ≠ []) ∧ ((s.now.inspection = false ∨ s.now.cab.session = none ∨ s.now.f5 = true)) :=
  ⟨{ live with now := { liveMach with link.benches := [{ BenchRec.reset with ch := 2 }] } }, by (try unfold Serves); (try dsimp only); first | done | decide +kernel⟩

theorem test_hyp_ChannelCommandsAnswered_0 :
    ∃ s : State, ∃ tag : Nat, ∃ ch : Nat, ∃ es : List SetEntry, (Serves s 0x40) ∧ (64 ≤ ch) :=
  ⟨live, 0, 64, [], by (try unfold Serves); (try dsimp only); first | done | decide +kernel⟩

theorem test_hyp_ChannelCommandsAnswered_1 :
    (∃ s : State, ∃ tag : Nat, ∃ ch : Nat, ∃ es : List SetEntry, (Serves s 0x40) ∧ (ch < 64) ∧ ((es = [] ∨ 64 < es.length))) ∧
    (∃ s : State, ∃ tag : Nat, ∃ ch : Nat, ∃ es : List SetEntry, (Serves s 0x40) ∧ (ch < 64) ∧ (es ≠ []) ∧ (es.length ≤ 64) ∧ ((∀ e ∈ es, s.now.setStatus (0x0100 + ch) e = 0))) ∧
    (∃ s : State, ∃ tag : Nat, ∃ ch : Nat, ∃ es : List SetEntry, (Serves s 0x40) ∧ (ch < 64) ∧ (es ≠ []) ∧ (es.length ≤ 64) ∧ ∃ a, ∃ e, ∃ b, (es = a ++ e :: b) ∧ ((∀ x ∈ a, s.now.setStatus (0x0100 + ch) x = 0)) ∧ (s.now.setStatus (0x0100 + ch) e ≠ 0)) :=
  ⟨⟨live, 0, 2, [], by (try unfold Serves); (try dsimp only); first | done | decide +kernel⟩,
    ⟨live, 0, 2, [⟨0x0705, [2]⟩], by (try unfold Serves); (try dsimp only); first | done | decide +kernel⟩,
    ⟨live, 0, 2, [⟨0xFFFF, []⟩], by (try unfold Serves); (try dsimp only); first | done | decide +kernel, by (try unfold Serves); (try dsimp only); first | done | decide +kernel, by (try unfold Serves); (try dsimp only); first | done | decide +kernel, by (try unfold Serves); (try dsimp only); first | done | decide +kernel, [], ⟨0xFFFF, []⟩, [], by (try unfold Serves); (try dsimp only); first | done | decide +kernel⟩⟩

theorem test_hyp_ChannelCommandsAnswered_2 :
    ∃ s : State, ∃ tag : Nat, ∃ f : Nat, ∃ n : Nat, (Serves s 0x41) ∧ ((n = 0 ∨ 64 ≤ f ∨ 64 < f + n)) :=
  ⟨live, 0, 0, 0, by (try unfold Serves); (try dsimp only); first | done | decide +kernel⟩

theorem test_hyp_ChannelCommandsAnswered_3 :
    ∃ s : State, ∃ tag : Nat, ∃ f : Nat, ∃ n : Nat, (Serves s 0x41) ∧ (1 ≤ n) ∧ (f + n ≤ 64) :=
  ⟨live, 0, 63, 1, by (try unfold Serves); (try dsimp only); first | done | decide +kernel⟩

theorem test_hyp_ChannelCommandsAnswered_4 :
    ∃ s : State, ∃ tag : Nat, ∃ mask : Nat, ∃ vals : Nat, (Serves s 0x42) ∧ ((∃ c ∈ bitsOf mask, (s.now.chan c pCH_MODE ≠ 5 ∧ s.now.chan c pCH_MODE ≠ 7) ∨ s.now.chNamed c = true ∨ s.now.nat pRESET_CH = c)) :=
  ⟨live, 0, 1, 0, by (try unfold Serves); (try dsimp only); first | done | decide +kernel⟩

theorem test_hyp_ChannelCommandsAnswered_5 :
    ∃ s : State, ∃ tag : Nat, ∃ mask : Nat, ∃ vals : Nat, (Serves s 0x42) ∧ ((∀ c ∈ bitsOf mask, (s.now.chan c pCH_MODE = 5 ∨ s.now.chan c pCH_MODE = 7) ∧ s.now.chNamed c = false ∧ s.now.nat pRESET_CH ≠ c)) :=
  ⟨{ live with now := (liveMach.putI 0x0102 pCH_MODE 5) }, 0, 4, 0, by (try unfold Serves); (try dsimp only); first | done | decide +kernel⟩

theorem test_hyp_GroupRearmAnswered_0 :
    (∃ s : State, ∃ tag : Nat, ∃ g : Nat, (Serves s 0x43) ∧ 
    let dom := s.now.field.domains.get (if g = 0x10 then .a else .b)
    
    let taken : Mach := { s.now with link.rearm := s.now.link.rearm ++ [(g, s.now.time.frame)] }
    ((g = 0x10 ∨ g = 0x11)) ∧ (dom.state = 6)) ∧
    (∃ s : State, ∃ tag : Nat, ∃ g : Nat, (Serves s 0x43) ∧ 
    let dom := s.now.field.domains.get (if g = 0x10 then .a else .b)
    
    let taken : Mach := { s.now with link.rearm := s.now.link.rearm ++ [(g, s.now.time.frame)] }
    ((g = 0x10 ∨ g = 0x11)) ∧ ((dom.state = 2 ∨ dom.state = 3 ∨ dom.state = 5))) ∧
    (∃ s : State, ∃ tag : Nat, ∃ g : Nat, (Serves s 0x43) ∧ 
    let dom := s.now.field.domains.get (if g = 0x10 then .a else .b)
    
    let taken : Mach := { s.now with link.rearm := s.now.link.rearm ++ [(g, s.now.time.frame)] }
    ((g = 0x10 ∨ g = 0x11)) ∧ (dom.state ≠ 6) ∧ (dom.state ≠ 2) ∧ (dom.state ≠ 3) ∧ (dom.state ≠ 5)) ∧
    (∃ s : State, ∃ tag : Nat, ∃ g : Nat, (Serves s 0x43) ∧ 
    let dom := s.now.field.domains.get (if g = 0x10 then .a else .b)
    
    let taken : Mach := { s.now with link.rearm := s.now.link.rearm ++ [(g, s.now.time.frame)] }
    (g ≠ 0x10) ∧ (g ≠ 0x11) ∧ (8 ≤ g)) ∧
    (∃ s : State, ∃ tag : Nat, ∃ g : Nat, (Serves s 0x43) ∧ 
    let dom := s.now.field.domains.get (if g = 0x10 then .a else .b)
    
    let taken : Mach := { s.now with link.rearm := s.now.link.rearm ++ [(g, s.now.time.frame)] }
    (g < 8) ∧ (bit s.now.field.groupsOff g = false)) ∧
    (∃ s : State, ∃ tag : Nat, ∃ g : Nat, (Serves s 0x43) ∧ 
    let dom := s.now.field.domains.get (if g = 0x10 then .a else .b)
    
    let taken : Mach := { s.now with link.rearm := s.now.link.rearm ++ [(g, s.now.time.frame)] }
    (g < 8) ∧ (bit s.now.field.groupsOff g = true) ∧ (domOutOff (s.now.domState (8 * g)) = true)) ∧
    (∃ s : State, ∃ tag : Nat, ∃ g : Nat, (Serves s 0x43) ∧ 
    let dom := s.now.field.domains.get (if g = 0x10 then .a else .b)
    
    let taken : Mach := { s.now with link.rearm := s.now.link.rearm ++ [(g, s.now.time.frame)] }
    (g < 8) ∧ (bit s.now.field.groupsOff g = true) ∧ (domOutOff (s.now.domState (8 * g)) = false)) :=
  ⟨⟨{ live with now := { liveMach with field.domains.a.state := 6 } }, 0, 0x10, by (try unfold Serves); (try dsimp only); first | done | decide +kernel⟩,
    ⟨{ live with now := { liveMach with field.domains.a.state := 2 } }, 0, 0x10, by (try unfold Serves); (try dsimp only); first | done | decide +kernel⟩,
    ⟨{ live with now := { liveMach with field.domains.a.state := 0 } }, 0, 0x10, by (try unfold Serves); (try dsimp only); first | done | decide +kernel⟩,
    ⟨live, 0, 8, by (try unfold Serves); (try dsimp only); first | done | decide +kernel⟩,
    ⟨live, 0, 7, by (try unfold Serves); (try dsimp only); first | done | decide +kernel⟩,
    ⟨{ live with now := { liveMach with field.groupsOff := 1, field.domains.a.state := 6 } }, 0, 0, by (try unfold Serves); (try dsimp only); first | done | decide +kernel⟩,
    ⟨{ live with now := { liveMach with field.groupsOff := 1, field.domains.a.state := 0 } }, 0, 0, by (try unfold Serves); (try dsimp only); first | done | decide +kernel⟩⟩

theorem test_hyp_GroupRearmAnswered_2 :
    ∃ m : Mach, ∃ d : Sys2Proof.Ab, ((m.field.domains.get d).state = 6) :=
  ⟨{ liveMach with field.domains.a.state := 6 }, .a, by (try unfold Serves); (try dsimp only); first | done | decide +kernel⟩

theorem test_hyp_GroupRearmAnswered_3 :
    ∃ m : Mach, ∃ g : Nat, (g < 8) ∧ (bit m.field.groupsOff g = true) ∧ (domOutOff (m.domState (8 * g)) = false) :=
  ⟨{ liveMach with field.groupsOff := 1, field.domains.a.state := 0 }, 0, by (try unfold Serves); (try dsimp only); first | done | decide +kernel⟩

theorem test_hyp_BusFramesReceivedAndSent_0 :
    (∃ s : State, ∃ p : Sys2Proof.Ab, ∃ f : CanFrame, ((s.now.prt p).takesPart = true) ∧ 
    let m1 := (s.now.heard p).recDown p
    ((f.rtr = true ∨ m1.rxObj p f.ext f.ident = none))) ∧
    (∃ s : State, ∃ p : Sys2Proof.Ab, ∃ f : CanFrame, ((s.now.prt p).takesPart = true) ∧ 
    let m1 := (s.now.heard p).recDown p
    ∃ o, (f.rtr = false) ∧ (m1.rxObj p f.ext f.ident = some o) ∧ (m1.hostObj p o.num = true)) ∧
    (∃ s : State, ∃ p : Sys2Proof.Ab, ∃ f : CanFrame, ((s.now.prt p).takesPart = true) ∧ 
    let m1 := (s.now.heard p).recDown p
    ∃ o, ∃ g, (f.rtr = false) ∧ (m1.rxObj p f.ext f.ident = some o) ∧ (m1.hostObj p o.num = false) ∧ (m1.rxMsg p f.ext f.ident = some g) ∧ (g.formOk f.data = false)) ∧
    (∃ s : State, ∃ p : Sys2Proof.Ab, ∃ f : CanFrame, ((s.now.prt p).takesPart = true) ∧ 
    let m1 := (s.now.heard p).recDown p
    ∃ o, ∃ g, (f.rtr = false) ∧ (m1.rxObj p f.ext f.ident = some o) ∧ (m1.hostObj p o.num = false) ∧ (m1.rxMsg p f.ext f.ident = some g) ∧ (g.formOk f.data = true) ∧ (g.safety = true) ∧ (safetyOk f.ident f.data = false)) ∧
    (∃ s : State, ∃ p : Sys2Proof.Ab, ∃ f : CanFrame, ((s.now.prt p).takesPart = true) ∧ 
    let m1 := (s.now.heard p).recDown p
    ∃ o, ∃ g, (f.rtr = false) ∧ (m1.rxObj p f.ext f.ident = some o) ∧ (m1.hostObj p o.num = false) ∧ (m1.rxMsg p f.ext f.ident = some g) ∧ (g.formOk f.data = true) ∧ ((g.safety = true → safetyOk f.ident f.data = true)) ∧ (m1.rxNewer p g o f.data = false)) ∧
    (∃ s : State, ∃ p : Sys2Proof.Ab, ∃ f : CanFrame, ((s.now.prt p).takesPart = true) ∧ 
    let m1 := (s.now.heard p).recDown p
    ∃ o, ∃ g, (f.rtr = false) ∧ (m1.rxObj p f.ext f.ident = some o) ∧ (m1.hostObj p o.num = false) ∧ (m1.rxMsg p f.ext f.ident = some g) ∧ (g.formOk f.data = true) ∧ ((g.safety = true → safetyOk f.ident f.data = true)) ∧ (m1.rxNewer p g o f.data = true)) :=
  ⟨⟨live, .a, ⟨false, 0x7FF, 0, [], 0, false⟩, by (try unfold Serves); (try dsimp only); first | done | decide +kernel⟩,
    ⟨{ live with now := { liveMach with bus.ports.a.objs := [anObj 3 1] } }, .a, ⟨false, 0x703, 0, [1], 0, false⟩, by (try unfold Serves); (try dsimp only); first | done | decide +kernel, anObj 3 1, by (try unfold Serves); (try dsimp only); first | done | decide +kernel⟩,
    ⟨live, .a, ⟨false, 65, 1, [1], 0, false⟩, by (try unfold Serves); (try dsimp only); first | done | decide +kernel, liveMach.profObj .a (liveMach.profNum .a .drvFb) .drvFb, .drvFb, by (try unfold Serves); (try dsimp only); first | done | decide +kernel⟩,
    ⟨live, .a, ⟨false, 65, 1, List.replicate 32 0, 0, false⟩, by (try unfold Serves); (try dsimp only); first | done | decide +kernel, liveMach.profObj .a (liveMach.profNum .a .drvFb) .drvFb, .drvFb, by (try unfold Serves); (try dsimp only); first | done | decide +kernel⟩,
    ⟨{ live with now := { liveMach with eng.fbSeen := true } }, .a, ⟨false, 65, 1, fbMsg 1, 0, false⟩, by (try unfold Serves); (try dsimp only); first | done | decide +kernel, liveMach.profObj .a (liveMach.profNum .a .drvFb) .drvFb, .drvFb, by (try unfold Serves); (try dsimp only); first | done | decide +kernel⟩,
    ⟨live, .a, ⟨false, 65, 1, fbMsg 1, 0, false⟩, by (try unfold Serves); (try dsimp only); first | done | decide +kernel, liveMach.profObj .a (liveMach.profNum .a .drvFb) .drvFb, .drvFb, by (try unfold Serves); (try dsimp only); first | done | decide +kernel⟩⟩

theorem test_hyp_BusFramesReceivedAndSent_1 :
    (∃ s : State, ∃ p : Sys2Proof.Ab, ∃ n : Nat, ∃ sof : Nat, ∃ inc : Nat, ∃ o : ObjRec, (s.now.objAt p n = some o) ∧ ((s.now.prt p).sends o = true) ∧ (o.kind ≠ 1) ∧ (o.pend.isSome = true) ∧ (o.susp = false) ∧ (s.now.attempts p o sof = true) ∧ 
    let m1 := s.now.txError p inc
    
    let m2 := m1.notSent p { o with clash := 0, noAck := o.noAck + 1 }
    (o.clash = 0)) ∧
    (∃ s : State, ∃ p : Sys2Proof.Ab, ∃ n : Nat, ∃ sof : Nat, ∃ inc : Nat, ∃ o : ObjRec, (s.now.objAt p n = some o) ∧ ((s.now.prt p).sends o = true) ∧ (o.kind ≠ 1) ∧ (o.pend.isSome = true) ∧ (o.susp = false) ∧ (s.now.attempts p o sof = true) ∧ 
    let m1 := s.now.txError p inc
    
    let m2 := m1.notSent p { o with clash := 0, noAck := o.noAck + 1 }
    (o.clash = 1)) ∧
    (∃ s : State, ∃ p : Sys2Proof.Ab, ∃ n : Nat, ∃ sof : Nat, ∃ inc : Nat, ∃ o : ObjRec, (s.now.objAt p n = some o) ∧ ((s.now.prt p).sends o = true) ∧ (o.kind ≠ 1) ∧ (o.pend.isSome = true) ∧ (o.susp = false) ∧ (s.now.attempts p o sof = true) ∧ 
    let m1 := s.now.txError p inc
    
    let m2 := m1.notSent p { o with clash := 0, noAck := o.noAck + 1 }
    ((o.noAck < 15 ∨ (s.now.prt p).noListener = true))) ∧
    (∃ s : State, ∃ p : Sys2Proof.Ab, ∃ n : Nat, ∃ sof : Nat, ∃ inc : Nat, ∃ o : ObjRec, (s.now.objAt p n = some o) ∧ ((s.now.prt p).sends o = true) ∧ (o.kind ≠ 1) ∧ (o.pend.isSome = true) ∧ (o.susp = false) ∧ (s.now.attempts p o sof = true) ∧ 
    let m1 := s.now.txError p inc
    
    let m2 := m1.notSent p { o with clash := 0, noAck := o.noAck + 1 }
    (15 ≤ o.noAck) ∧ ((s.now.prt p).noListener = false)) :=
  ⟨⟨{ live with now := { liveMach with bus.ports.a.objs := [{ anObj 3 3 with pend := some [1] }] } }, .a, 3, 0, 0, { anObj 3 3 with pend := some [1] }, by (try unfold Serves); (try dsimp only); first | done | decide +kernel⟩,
    ⟨{ live with now := { liveMach with bus.ports.a.objs := [{ anObj 3 3 with pend := some [1], clash := 1 }] } }, .a, 3, 0, 0, { anObj 3 3 with pend := some [1], clash := 1 }, by (try unfold Serves); (try dsimp only); first | done | decide +kernel⟩,
    ⟨{ live with now := { liveMach with bus.ports.a.objs := [{ anObj 3 3 with pend := some [1] }] } }, .a, 3, 0, 0, { anObj 3 3 with pend := some [1] }, by (try unfold Serves); (try dsimp only); first | done | decide +kernel⟩,
    ⟨{ live with now := { liveMach with bus.ports.a.noListener := false, bus.ports.a.objs := [{ anObj 3 3 with pend := some [1], noAck := 15 }] } }, .a, 3, 0, 0, { anObj 3 3 with pend := some [1], noAck := 15 }, by (try unfold Serves); (try dsimp only); first | done | decide +kernel⟩⟩

theorem test_hyp_BusFramesReceivedAndSent_2 :
    (∃ m : Mach, ∃ p : Sys2Proof.Ab, ∃ o : ObjRec, ∃ sof : Nat, ((m.power.state ≠ 3 ∨ (m.profAt p o.num = some .timeRef ∧ m.hostObj p o.num = false))) ∧ (o.kind = 3)) ∧
    (∃ m : Mach, ∃ p : Sys2Proof.Ab, ∃ o : ObjRec, ∃ sof : Nat, ((m.power.state ≠ 3 ∨ (m.profAt p o.num = some .timeRef ∧ m.hostObj p o.num = false))) ∧ (o.kind ≠ 3)) ∧
    (∃ m : Mach, ∃ p : Sys2Proof.Ab, ∃ o : ObjRec, ∃ sof : Nat, (m.power.state = 3) ∧ (¬ (m.profAt p o.num = some .timeRef ∧ m.hostObj p o.num = false)) ∧ (25000 * m.power.stateAt ≤ sof)) :=
  ⟨⟨liveMach, .a, anObj 3 3, 0, by (try unfold Serves); (try dsimp only); first | done | decide +kernel⟩,
    ⟨liveMach, .a, anObj 3 2, 0, by (try unfold Serves); (try dsimp only); first | done | decide +kernel⟩,
    ⟨{ liveMach with power.state := 3 }, .a, anObj 3 2, 0, by (try unfold Serves); (try dsimp only); first | done | decide +kernel⟩⟩

theorem test_hyp_BusTimeTriggeredComplete_0 :
    ∃ s : State, ∃ p : Sys2Proof.Ab, ∃ cell : Nat, ∃ n : Nat, ∃ o : ObjRec, (s.now.cellObj p cell = some n) ∧ (s.now.objAt p n = some o) ∧ (s.now.cellNow p cell = true) ∧ ((s.now.prt p).requests = true) ∧ ((s.now.power.state ≠ 3 ∨ (s.now.profAt p n = some .timeRef ∧ s.now.hostObj p n = false))) ∧ (o.kind = 3) ∧ (o.susp = false) :=
  ⟨{ live with now := { liveMach with bus.ports.a.objs := [anObj 3 3], bus.ports.a.matrix := [(16 * (liveMach.cycleOf .a), 3)] } }, .a, 16 * (liveMach.cycleOf .a), 3, anObj 3 3, by (try unfold Serves); (try dsimp only); first | done | decide +kernel⟩

theorem test_hyp_BusTimeTriggeredComplete_1 :
    ∃ s : State, ∃ p : Sys2Proof.Ab, ∃ n : Nat, ∃ o : ObjRec, (s.now.objAt p n = some o) ∧ (o.kind = 3) ∧ (o.pend.isSome = true) :=
  ⟨{ live with now := { liveMach with bus.ports.a.objs := [({ anObj 3 3 with pend := some [1] })] } }, .a, 3, { anObj 3 3 with pend := some [1] }, by (try unfold Serves); (try dsimp only); first | done | decide +kernel⟩

theorem test_hyp_BusTimeTriggeredComplete_2 :
    (∃ s : State, ∃ p : Sys2Proof.Ab, ∃ f : CanFrame, ((s.now.prt p).takesPart = true) ∧ (s.now.master p = false) ∧ (f.ext = false) ∧ (f.ident = s.now.nat pTIME_REF_ID) ∧ 
    let m1 := (s.now.heard p).recDown p
    (Msg.timeRef.formOk f.data = false)) ∧
    (∃ s : State, ∃ p : Sys2Proof.Ab, ∃ f : CanFrame, ((s.now.prt p).takesPart = true) ∧ (s.now.master p = false) ∧ (f.ext = false) ∧ (f.ident = s.now.nat pTIME_REF_ID) ∧ 
    let m1 := (s.now.heard p).recDown p
    (Msg.timeRef.formOk f.data = true) ∧ (safetyOk f.ident f.data = false)) ∧
    (∃ s : State, ∃ p : Sys2Proof.Ab, ∃ f : CanFrame, ((s.now.prt p).takesPart = true) ∧ (s.now.master p = false) ∧ (f.ext = false) ∧ (f.ident = s.now.nat pTIME_REF_ID) ∧ 
    let m1 := (s.now.heard p).recDown p
    (Msg.timeRef.formOk f.data = true) ∧ (safetyOk f.ident f.data = true) ∧ (m1.seqNewer p f.ident (nth f.data 2 0) (leAt f.data 0 2) = false)) ∧
    (∃ s : State, ∃ p : Sys2Proof.Ab, ∃ f : CanFrame, ((s.now.prt p).takesPart = true) ∧ (s.now.master p = false) ∧ (f.ext = false) ∧ (f.ident = s.now.nat pTIME_REF_ID) ∧ 
    let m1 := (s.now.heard p).recDown p
    ∃ good : Bool, (Msg.timeRef.formOk f.data = true) ∧ (safetyOk f.ident f.data = true) ∧ (m1.seqNewer p f.ident (nth f.data 2 0) (leAt f.data 0 2) = true) ∧ ((good = true ↔ ∀ t, (s.now.prt p).refLast = some t → t + 99500 ≤ f.time ∧ f.time ≤ t + 100500)) ∧ 
    let m3 := (m1.seqAccept p f.ident (nth f.data 2 0) (leAt f.data 0 2)).onPort p fun x => { x with
        refLast := some f.time, cycle := nth f.data 4 0 % 16, refBad := if good then 0 else x.refBad + max 1 ((f.time - (s.now.prt p).refLast.getD 0 + 50000) / 100000)
        refGood := if good then x.refGood + 1 else 0 }
    (((m3.prt p).ttSusp = false ∨ (m3.prt p).refGood < 16))) ∧
    (∃ s : State, ∃ p : Sys2Proof.Ab, ∃ f : CanFrame, ((s.now.prt p).takesPart = true) ∧ (s.now.master p = false) ∧ (f.ext = false) ∧ (f.ident = s.now.nat pTIME_REF_ID) ∧ 
    let m1 := (s.now.heard p).recDown p
    ∃ good : Bool, (Msg.timeRef.formOk f.data = true) ∧ (safetyOk f.ident f.data = true) ∧ (m1.seqNewer p f.ident (nth f.data 2 0) (leAt f.data 0 2) = true) ∧ ((good = true ↔ ∀ t, (s.now.prt p).refLast = some t → t + 99500 ≤ f.time ∧ f.time ≤ t + 100500)) ∧ 
    let m3 := (m1.seqAccept p f.ident (nth f.data 2 0) (leAt f.data 0 2)).onPort p fun x => { x with
        refLast := some f.time, cycle := nth f.data 4 0 % 16, refBad := if good then 0 else x.refBad + max 1 ((f.time - (s.now.prt p).refLast.getD 0 + 50000) / 100000)
        refGood := if good then x.refGood + 1 else 0 }
    ((m3.prt p).ttSusp = true) ∧ (16 ≤ (m3.prt p).refGood)) :=
  ⟨⟨{ live with now := (liveMach.putI 0x0200 pTIME_ROLE 1) }, .a, ⟨false, 8, 1, [], 0, false⟩, by (try unfold Serves); (try dsimp only); first | done | decide +kernel⟩,
    ⟨{ live with now := (liveMach.putI 0x0200 pTIME_ROLE 1) }, .a, ⟨false, 8, 1, [0, 0, 0, 1] ++ List.replicate 20 0, 0, false⟩, by (try unfold Serves); (try dsimp only); first | done | decide +kernel⟩,
    ⟨{ live with now := { (liveMach.putI 0x0200 pTIME_ROLE 1) with bus.seqs := [⟨.a, 8, 0, false, 0⟩] } }, .a, ⟨false, 8, 1, coded 8 ([0, 0, 0, 1] ++ List.replicate 16 0), 0, false⟩, by (try unfold Serves); (try dsimp only); first | done | decide +kernel⟩,
    ⟨{ live with now := (liveMach.putI 0x0200 pTIME_ROLE 1) }, .a, ⟨false, 8, 1, coded 8 ([0, 0, 0, 1] ++ List.replicate 16 0), 0, false⟩, by (try unfold Serves); (try dsimp only); first | done | decide +kernel, by (try unfold Serves); (try dsimp only); first | done | decide +kernel, by (try unfold Serves); (try dsimp only); first | done | decide +kernel, by (try unfold Serves); (try dsimp only); first | done | decide +kernel, true, by (try unfold Serves); (try dsimp only); first | done | decide +kernel⟩,
    ⟨{ live with now := { (liveMach.putI 0x0200 pTIME_ROLE 1) with bus.ports.a.ttSusp := true, bus.ports.a.refGood := 16 } }, .a, ⟨false, 8, 1, coded 8 ([0, 0, 0, 1] ++ List.replicate 16 0), 0, false⟩, by (try unfold Serves); (try dsimp only); first | done | decide +kernel, by (try unfold Serves); (try dsimp only); first | done | decide +kernel, by (try unfold Serves); (try dsimp only); first | done | decide +kernel, by (try unfold Serves); (try dsimp only); first | done | decide +kernel, true, by (try unfold Serves); (try dsimp only); first | done | decide +kernel⟩⟩

theorem test_hyp_BusTimeTriggeredComplete_3 :
    ∃ s : State, ∃ p : Sys2Proof.Ab, (s.now.master p = false) ∧ ((s.now.prt p).ttSusp = false) ∧ ((4 ≤ (s.now.prt p).refBad ∨ (∃ t, (s.now.prt p).refLast = some t ∧ t + 400500 ≤ 100 * (s.now.ts + 250)) ∨ ((s.now.prt p).refLast = none ∧ 4000 ≤ s.now.ts))) :=
  ⟨{ live with now := { (liveMach.putI 0x0200 pTIME_ROLE 1) with bus.ports.a.ttSusp := false, bus.ports.a.refBad := 4 } }, .a, by (try unfold Serves); (try dsimp only); first | done | decide +kernel⟩

theorem test_hyp_BusTimeTriggeredComplete_4 :
    ∃ s : State, ∃ tag : Nat, ∃ port : Nat, ∃ cells : List Nat, (Serves s 0x54) ∧ ((2 ≤ port ∨ cells.length ≠ 256)) :=
  ⟨live, 0, 2, [], by (try unfold Serves); (try dsimp only); first | done | decide +kernel⟩

theorem test_hyp_BusTimeTriggeredComplete_5 :
    (∃ s : State, ∃ tag : Nat, ∃ port : Nat, ∃ cells : List Nat, (Serves s 0x54) ∧ (port < 2) ∧ (cells.length = 256) ∧ ((claimsOf 0 cells).all (s.now.claimOk (abOf port) (claimsOf 0 cells)) = true)) ∧
    (∃ s : State, ∃ tag : Nat, ∃ port : Nat, ∃ cells : List Nat, (Serves s 0x54) ∧ (port < 2) ∧ (cells.length = 256) ∧ ((claimsOf 0 cells).all (s.now.claimOk (abOf port) (claimsOf 0 cells)) = false)) :=
  ⟨⟨live, 0, 0, List.replicate 256 0xFFFF, by (try unfold Serves); (try dsimp only); first | done | decide +kernel⟩,
    ⟨live, 0, 0, 3 :: List.replicate 255 0xFFFF, by (try unfold Serves); (try dsimp only); first | done | decide +kernel⟩⟩

theorem test_hyp_PortEventsComplete_0 :
    ∃ s : State, ∃ p : Sys2Proof.Ab, ((s.now.prt p).timingPend = true) :=
  ⟨{ live with now := { liveMach with bus.ports.a.timingPend := true } }, .a, by (try unfold Serves); (try dsimp only); first | done | decide +kernel⟩

theorem test_hyp_PortEventsComplete_2 :
    ∃ s : State, ∃ p : Sys2Proof.Ab, ∃ inc : Nat, ((s.now.prt p).takesPart = true) :=
  ⟨live, .a, 0, by (try unfold Serves); (try dsimp only); first | done | decide +kernel⟩

theorem test_hyp_PortEventsComplete_3 :
    ∃ s : State, ∃ p : Sys2Proof.Ab, ∃ n : Nat, ((s.now.prt p).off = true) ∧ ((s.now.prt p).recovering = true) ∧ (128 ≤ n) ∧ ((s.now.cellAt (0x0200 + p.idx)).offAfter = false) :=
  ⟨{ live with now := { liveMach with bus.ports.a.off := true, bus.ports.a.recovering := true } }, .a, 128, by (try unfold Serves); (try dsimp only); first | done | decide +kernel⟩

theorem test_hyp_PortEventsComplete_4 :
    ∃ s : State, ∃ p : Sys2Proof.Ab, ∃ us : Nat, (4000 ≤ us) :=
  ⟨live, .a, 4000, by (try unfold Serves); (try dsimp only); first | done | decide +kernel⟩

theorem test_hyp_PortEventsComplete_6 :
    ∃ s : State, ∃ p : Sys2Proof.Ab, ∃ sending : Bool, ((s.now.prt p).own = .stopping) ∧ ((sending = false ∨ 8 ≤ s.now.time.frame - (s.now.prt p).stopAt)) :=
  ⟨{ live with now := { liveMach with bus.ports.a.own := .stopping } }, .a, false, by (try unfold Serves); (try dsimp only); first | done | decide +kernel⟩

theorem test_hyp_PortEventsComplete_7 :
    ∃ s : State, ∃ p : Sys2Proof.Ab, ∃ c : WakeCause, ((s.now.prt p).sleep = true) ∧ (s.now.wakes p c = true) :=
  ⟨{ live with now := { liveMach with bus.ports.a.sleep := true } }, .a, .dominant 5000, by (try unfold Serves); (try dsimp only); first | done | decide +kernel⟩

theorem test_hyp_PortEventsComplete_8 :
    ∃ s : State, ∃ p : Sys2Proof.Ab, ∃ n : Nat, ((s.now.prt p).off = true) ∧ ((s.now.prt p).recovering = true) ∧ (128 ≤ n) ∧ ((s.now.cellAt (0x0200 + p.idx)).offAfter = true) :=
  ⟨{ live with now := { liveMach with bus.ports.a.off := true, bus.ports.a.recovering := true, units := [{ UnitCell.reset with handle := 0x0200, offAfter := true }] } }, .a, 128, by (try unfold Serves); (try dsimp only); first | done | decide +kernel⟩

theorem test_hyp_BusObjectCommandsAnswered_0 :
    (∃ s : State, ∃ tag : Nat, ∃ port : Nat, ∃ obj : Nat, ∃ k : Nat, ∃ fm : Nat, ∃ id : Nat, ∃ ff : Nat, ∃ d : List Nat, ∃ b : Bool, ((2 ≤ port ∨ 512 ≤ obj)) ∧ (Serves s 0x51)) ∧
    (∃ s : State, ∃ tag : Nat, ∃ port : Nat, ∃ obj : Nat, ∃ k : Nat, ∃ fm : Nat, ∃ id : Nat, ∃ ff : Nat, ∃ d : List Nat, ∃ b : Bool, ((2 ≤ port ∨ 512 ≤ obj)) ∧ (Serves s 0x52)) ∧
    (∃ s : State, ∃ tag : Nat, ∃ port : Nat, ∃ obj : Nat, ∃ k : Nat, ∃ fm : Nat, ∃ id : Nat, ∃ ff : Nat, ∃ d : List Nat, ∃ b : Bool, ((2 ≤ port ∨ 512 ≤ obj)) ∧ (Serves s 0x53)) :=
  ⟨⟨live, 0, 2, 0, 0, 0, 0, 0, [], true, by (try unfold Serves); (try dsimp only); first | done | decide +kernel⟩,
    ⟨live, 0, 2, 0, 0, 0, 0, 0, [], true, by (try unfold Serves); (try dsimp only); first | done | decide +kernel⟩,
    ⟨live, 0, 2, 0, 0, 0, 0, 0, [], true, by (try unfold Serves); (try dsimp only); first | done | decide +kernel⟩⟩

theorem test_hyp_BusObjectCommandsAnswered_1 :
    (∃ s : State, ∃ tag : Nat, ∃ port : Nat, ∃ obj : Nat, ∃ k : Nat, ∃ fm : Nat, ∃ id : Nat, ∃ ff : Nat, ∃ d : List Nat, (port < 2) ∧ (obj < 512) ∧ (s.now.profHeld (abOf port) obj = true) ∧ (Serves s 0x51)) ∧
    (∃ s : State, ∃ tag : Nat, ∃ port : Nat, ∃ obj : Nat, ∃ k : Nat, ∃ fm : Nat, ∃ id : Nat, ∃ ff : Nat, ∃ d : List Nat, (port < 2) ∧ (obj < 512) ∧ (s.now.profHeld (abOf port) obj = true) ∧ (Serves s 0x52)) :=
  ⟨⟨live, 0, 0, 511, 0, 0, 0, 0, [], by (try unfold Serves); (try dsimp only); first | done | decide +kernel⟩,
    ⟨live, 0, 0, 511, 0, 0, 0, 0, [], by (try unfold Serves); (try dsimp only); first | done | decide +kernel⟩⟩

theorem test_hyp_BusObjectCommandsAnswered_2 :
    ∃ s : State, ∃ tag : Nat, ∃ port : Nat, ∃ obj : Nat, ∃ k : Nat, ∃ fm : Nat, ∃ id : Nat, ∃ ff : Nat, (Serves s 0x51) ∧ (s.now.identUsed (abOf port) obj (fm == 1) id = true) :=
  ⟨live, 0, 0, 0, 0, 0, 8, 0, by (try unfold Serves); (try dsimp only); first | done | decide +kernel⟩

theorem test_hyp_BusObjectCommandsAnswered_3 :
    ∃ s : State, ∃ tag : Nat, ∃ port : Nat, ∃ obj : Nat, ∃ k : Nat, ∃ fm : Nat, ∃ id : Nat, ∃ ff : Nat, (Serves s 0x51) ∧ (port < 2) ∧ (obj < 512) ∧ (1 ≤ k) ∧ (k ≤ 3) ∧ (fm ≤ 1) ∧ (ff ≤ 3) ∧ (identOk fm id = true) ∧ (s.now.profHeld (abOf port) obj = false) ∧ (s.now.identUsed (abOf port) obj (fm == 1) id = false) :=
  ⟨live, 0, 0, 0, 1, 0, 0x7FF, 0, by (try unfold Serves); (try dsimp only); first | done | decide +kernel⟩

theorem test_hyp_BusObjectCommandsAnswered_4 :
    ∃ s : State, ∃ tag : Nat, ∃ port : Nat, ∃ obj : Nat, (Serves s 0x51) ∧ (port < 2) ∧ (obj < 512) ∧ (s.now.profHeld (abOf port) obj = false) :=
  ⟨live, 0, 0, 3, by (try unfold Serves); (try dsimp only); first | done | decide +kernel⟩

theorem test_hyp_BusObjectCommandsAnswered_5 :
    ∃ s : State, ∃ tag : Nat, ∃ port : Nat, ∃ obj : Nat, ∃ o : ObjRec, (Serves s 0x51) ∧ (port < 2) ∧ (obj < 512) ∧ (s.now.profHeld (abOf port) obj = false) ∧ (s.now.objAt (abOf port) obj = some o) :=
  ⟨{ live with now := { liveMach with bus.ports.a.objs := [anObj 3 1] } }, 0, 0, 3, anObj 3 1, by (try unfold Serves); (try dsimp only); first | done | decide +kernel⟩

theorem test_hyp_BusObjectCommandsAnswered_6 :
    ∃ s : State, ∃ tag : Nat, ∃ port : Nat, ∃ obj : Nat, (Serves s 0x51) ∧ (s.now.objAt (abOf port) obj = none) :=
  ⟨live, 0, 0, 3, by (try unfold Serves); (try dsimp only); first | done | decide +kernel⟩

theorem test_hyp_BusObjectCommandsAnswered_7 :
    (∃ s : State, ∃ tag : Nat, ∃ port : Nat, ∃ obj : Nat, ∃ d : List Nat, (Serves s 0x52) ∧ (port < 2) ∧ (obj < 512) ∧ (fdLength d.length = true) ∧ (s.now.profHeld (abOf port) obj = false) ∧ (s.now.objAt (abOf port) obj = none)) ∧
    (∃ s : State, ∃ tag : Nat, ∃ port : Nat, ∃ obj : Nat, ∃ d : List Nat, (Serves s 0x52) ∧ (port < 2) ∧ (obj < 512) ∧ (fdLength d.length = true) ∧ (s.now.profHeld (abOf port) obj = false) ∧ ∃ o, (s.now.objAt (abOf port) obj = some o) ∧ ((o.kind ≠ 2 ∨ o.susp = true))) ∧
    (∃ s : State, ∃ tag : Nat, ∃ port : Nat, ∃ obj : Nat, ∃ d : List Nat, (Serves s 0x52) ∧ (port < 2) ∧ (obj < 512) ∧ (fdLength d.length = true) ∧ (s.now.profHeld (abOf port) obj = false) ∧ ∃ o, (s.now.objAt (abOf port) obj = some o) ∧ (o.kind = 2) ∧ (o.susp = false) ∧ ((bit o.fflags 0 = true ∨ d.length ≤ 8))) ∧
    (∃ s : State, ∃ tag : Nat, ∃ port : Nat, ∃ obj : Nat, ∃ d : List Nat, (Serves s 0x52) ∧ (port < 2) ∧ (obj < 512) ∧ (fdLength d.length = true) ∧ (s.now.profHeld (abOf port) obj = false) ∧ ∃ o, (s.now.objAt (abOf port) obj = some o) ∧ (o.kind = 2) ∧ (o.susp = false) ∧ (bit o.fflags 0 = false) ∧ (8 < d.length)) :=
  ⟨⟨live, 0, 0, 3, [], by (try unfold Serves); (try dsimp only); first | done | decide +kernel⟩,
    ⟨{ live with now := { liveMach with bus.ports.a.objs := [anObj 3 1] } }, 0, 0, 3, [], by (try unfold Serves); (try dsimp only); first | done | decide +kernel, by (try unfold Serves); (try dsimp only); first | done | decide +kernel, by (try unfold Serves); (try dsimp only); first | done | decide +kernel, by (try unfold Serves); (try dsimp only); first | done | decide +kernel, by (try unfold Serves); (try dsimp only); first | done | decide +kernel, anObj 3 1, by (try unfold Serves); (try dsimp only); first | done | decide +kernel⟩,
    ⟨{ live with now := { liveMach with bus.ports.a.objs := [anObj 3 2] } }, 0, 0, 3, [], by (try unfold Serves); (try dsimp only); first | done | decide +kernel, by (try unfold Serves); (try dsimp only); first | done | decide +kernel, by (try unfold Serves); (try dsimp only); first | done | decide +kernel, by (try unfold Serves); (try dsimp only); first | done | decide +kernel, by (try unfold Serves); (try dsimp only); first | done | decide +kernel, anObj 3 2, by (try unfold Serves); (try dsimp only); first | done | decide +kernel⟩,
    ⟨{ live with now := { liveMach with bus.ports.a.objs := [anObj 3 2] } }, 0, 0, 3, List.replicate 12 0, by (try unfold Serves); (try dsimp only); first | done | decide +kernel, by (try unfold Serves); (try dsimp only); first | done | decide +kernel, by (try unfold Serves); (try dsimp only); first | done | decide +kernel, by (try unfold Serves); (try dsimp only); first | done | decide +kernel, by (try unfold Serves); (try dsimp only); first | done | decide +kernel, anObj 3 2, by (try unfold Serves); (try dsimp only); first | done | decide +kernel⟩⟩

theorem test_hyp_BusObjectCommandsAnswered_8 :
    (∃ s : State, ∃ tag : Nat, ∃ port : Nat, ∃ obj : Nat, ∃ b : Bool, (Serves s 0x53) ∧ (port < 2) ∧ (obj < 512) ∧ (s.now.objAt (abOf port) obj = none)) ∧
    (∃ s : State, ∃ tag : Nat, ∃ port : Nat, ∃ obj : Nat, ∃ b : Bool, (Serves s 0x53) ∧ (port < 2) ∧ (obj < 512) ∧ ∃ o, (s.now.objAt (abOf port) obj = some o) ∧ (o.queued.isSome = true)) ∧
    (∃ s : State, ∃ tag : Nat, ∃ port : Nat, ∃ obj : Nat, ∃ b : Bool, (Serves s 0x53) ∧ (port < 2) ∧ (obj < 512) ∧ ∃ o, (s.now.objAt (abOf port) obj = some o) ∧ (o.queued = none) ∧ (o.pend.isSome = true) ∧ (o.cancelled = true)) ∧
    (∃ s : State, ∃ tag : Nat, ∃ port : Nat, ∃ obj : Nat, ∃ b : Bool, (Serves s 0x53) ∧ (port < 2) ∧ (obj < 512) ∧ ∃ o, (s.now.objAt (abOf port) obj = some o) ∧ (o.queued = none) ∧ (o.pend = none)) ∧
    (∃ s : State, ∃ tag : Nat, ∃ port : Nat, ∃ obj : Nat, ∃ b : Bool, (Serves s 0x53) ∧ (port < 2) ∧ (obj < 512) ∧ ∃ o, (s.now.objAt (abOf port) obj = some o) ∧ (o.queued = none) ∧ (o.pend.isSome = true) ∧ (o.cancelled = false) ∧ (b = true)) ∧
    (∃ s : State, ∃ tag : Nat, ∃ port : Nat, ∃ obj : Nat, ∃ b : Bool, (Serves s 0x53) ∧ (port < 2) ∧ (obj < 512) ∧ ∃ o, (s.now.objAt (abOf port) obj = some o) ∧ (o.queued = none) ∧ (o.pend.isSome = true) ∧ (o.cancelled = false) ∧ (b = false)) :=
  ⟨⟨live, 0, 0, 3, true, by (try unfold Serves); (try dsimp only); first | done | decide +kernel⟩,
    ⟨{ live with now := { liveMach with bus.ports.a.objs := [{ anObj 3 2 with queued := some [1] }] } }, 0, 0, 3, true, by (try unfold Serves); (try dsimp only); first | done | decide +kernel, by (try unfold Serves); (try dsimp only); first | done | decide +kernel, by (try unfold Serves); (try dsimp only); first | done | decide +kernel, { anObj 3 2 with queued := some [1] }, by (try unfold Serves); (try dsimp only); first | done | decide +kernel⟩,
    ⟨{ live with now := { liveMach with bus.ports.a.objs := [{ anObj 3 2 with pend := some [1], cancelled := true }] } }, 0, 0, 3, true, by (try unfold Serves); (try dsimp only); first | done | decide +kernel, by (try unfold Serves); (try dsimp only); first | done | decide +kernel, by (try unfold Serves); (try dsimp only); first | done | decide +kernel, { anObj 3 2 with pend := some [1], cancelled := true }, by (try unfold Serves); (try dsimp only); first | done | decide +kernel⟩,
    ⟨{ live with now := { liveMach with bus.ports.a.objs := [anObj 3 2] } }, 0, 0, 3, true, by (try unfold Serves); (try dsimp only); first | done | decide +kernel, by (try unfold Serves); (try dsimp only); first | done | decide +kernel, by (try unfold Serves); (try dsimp only); first | done | decide +kernel, anObj 3 2, by (try unfold Serves); (try dsimp only); first | done | decide +kernel⟩,
    ⟨{ live with now := { liveMach with bus.ports.a.objs := [{ anObj 3 2 with pend := some [1] }] } }, 0, 0, 3, true, by (try unfold Serves); (try dsimp only); first | done | decide +kernel, by (try unfold Serves); (try dsimp only); first | done | decide +kernel, by (try unfold Serves); (try dsimp only); first | done | decide +kernel, { anObj 3 2 with pend := some [1] }, by (try unfold Serves); (try dsimp only); first | done | decide +kernel⟩,
    ⟨{ live with now := { liveMach with bus.ports.a.objs := [{ anObj 3 2 with pend := some [1] }] } }, 0, 0, 3, false, by (try unfold Serves); (try dsimp only); first | done | decide +kernel, by (try unfold Serves); (try dsimp only); first | done | decide +kernel, by (try unfold Serves); (try dsimp only); first | done | decide +kernel, { anObj 3 2 with pend := some [1] }, by (try unfold Serves); (try dsimp only); first | done | decide +kernel⟩⟩

theorem test_hyp_BusSleepRefused_0 :
    ∃ s : State, ∃ tag : Nat, ∃ port : Nat, ∃ w : Option Nat, (Serves s 0x55) ∧ (port < 2) ∧ (((abOf port = abOf (s.now.nat pLOCK_PORT) ∧ (s.now.nat pLOCK_SOURCE = 1 ∨ s.now.nat pLOCK_SOURCE = 2)) ∨ (abOf port = abOf (s.now.nat pDRV_PORT) ∧ s.now.still = false))) :=
  ⟨{ live with now := (liveMach.putI 0 pLOCK_SOURCE 1) }, 0, 1, none, by (try unfold Serves); (try dsimp only); first | done | decide +kernel⟩

theorem test_hyp_BusPowerAndConfigAnswered_0 :
    (∃ s : State, ∃ tag : Nat, ∃ port : Nat, ∃ f : Nat, ∃ w : Option Nat, (Serves s 0x55) ∧ ((2 ≤ port ∨ bit f 0 = false ∨ bit f 1 = true))) ∧
    (∃ s : State, ∃ tag : Nat, ∃ port : Nat, ∃ f : Nat, ∃ w : Option Nat, (Serves s 0x55) ∧ ((2 ≤ port ∨ bit f 1 = false ∨ bit f 0 = true))) :=
  ⟨⟨live, 0, 2, 0, none, by (try unfold Serves); (try dsimp only); first | done | decide +kernel⟩,
    ⟨live, 0, 2, 0, none, by (try unfold Serves); (try dsimp only); first | done | decide +kernel⟩⟩

theorem test_hyp_BusPowerAndConfigAnswered_1 :
    ∃ s : State, ∃ tag : Nat, ∃ port : Nat, ∃ f : Nat, ∃ w : Option Nat, (Serves s 0x55) ∧ (port < 2) ∧ (bit f 0 = true) ∧ (bit f 1 = false) ∧ (s.now.sleepRefused (abOf port) = false) :=
  ⟨live, 0, 0, 1, none, by (try unfold Serves); (try dsimp only); first | done | decide +kernel⟩

theorem test_hyp_BusPowerAndConfigAnswered_2 :
    ∃ s : State, ∃ tag : Nat, ∃ port : Nat, ∃ f : Nat, (Serves s 0x55) ∧ (port < 2) ∧ (bit f 0 = false) ∧ (bit f 1 = true) :=
  ⟨live, 0, 0, 2, by (try unfold Serves); (try dsimp only); first | done | decide +kernel⟩

theorem test_hyp_BusPowerAndConfigAnswered_3 :
    ∃ s : State, ∃ tag : Nat, ∃ port : Nat, ∃ f : Nat, ∃ es : List SetEntry, (Serves s 0x50) ∧ (2 ≤ port) :=
  ⟨live, 0, 2, 0, [], by (try unfold Serves); (try dsimp only); first | done | decide +kernel⟩

theorem test_hyp_BusPowerAndConfigAnswered_4 :
    (∃ s : State, ∃ tag : Nat, ∃ port : Nat, ∃ f : Nat, ∃ es : List SetEntry, (Serves s 0x50) ∧ (port < 2) ∧ 
    let r := s.now.setEntries (0x50, tag) (0x0200 + port) es fun m h e => m.busEntry h es e
    ((r.2.1 ≠ 0 ∨ bit f 0 = false ∨ (s.now.prt (abOf port)).off = false ∨ s.now.port (abOf port) pBUS_OFF_RECOVERY ≠ 1))) ∧
    (∃ s : State, ∃ tag : Nat, ∃ port : Nat, ∃ f : Nat, ∃ es : List SetEntry, (Serves s 0x50) ∧ (port < 2) ∧ 
    let r := s.now.setEntries (0x50, tag) (0x0200 + port) es fun m h e => m.busEntry h es e
    (r.2.1 = 0) ∧ (bit f 0 = true) ∧ ((s.now.prt (abOf port)).off = true) ∧ (s.now.port (abOf port) pBUS_OFF_RECOVERY = 1)) :=
  ⟨⟨live, 0, 0, 0, [], by (try unfold Serves); (try dsimp only); first | done | decide +kernel⟩,
    ⟨{ live with now := { (liveMach.putI 0x0200 pBUS_OFF_RECOVERY 1) with bus.ports.a.off := true } }, 0, 0, 1, [⟨pTEC_WARN, [5]⟩], by (try unfold Serves); (try dsimp only); first | done | decide +kernel⟩⟩

theorem test_hyp_LockAndGroupMessagesComplete_0 :
    (∃ s : State, ∃ p : Sys2Proof.Ab, ∃ id : Nat, ∃ b : List Nat, ∃ ecc : Ecc, (abOf (s.now.nat pLOCK_PORT) = p) ∧ ((s.now.prt p).takesPart = true) ∧ ((Msg.lock 0).formOk b = true) ∧ (ecc = .double)) ∧
    (∃ s : State, ∃ p : Sys2Proof.Ab, ∃ id : Nat, ∃ b : List Nat, ∃ ecc : Ecc, (abOf (s.now.nat pLOCK_PORT) = p) ∧ ((s.now.prt p).takesPart = true) ∧ ((Msg.lock 0).formOk b = true) ∧ (ecc ≠ .double) ∧ (safetyOk id b = false)) ∧
    (∃ s : State, ∃ p : Sys2Proof.Ab, ∃ id : Nat, ∃ b : List Nat, ∃ ecc : Ecc, (abOf (s.now.nat pLOCK_PORT) = p) ∧ ((s.now.prt p).takesPart = true) ∧ ((Msg.lock 0).formOk b = true) ∧ (ecc ≠ .double) ∧ (safetyOk id b = true) ∧ (s.now.lockBad id b = true)) ∧
    (∃ s : State, ∃ p : Sys2Proof.Ab, ∃ id : Nat, ∃ b : List Nat, ∃ ecc : Ecc, (abOf (s.now.nat pLOCK_PORT) = p) ∧ ((s.now.prt p).takesPart = true) ∧ ((Msg.lock 0).formOk b = true) ∧ (ecc ≠ .double) ∧ (safetyOk id b = true) ∧ (s.now.lockBad id b = false)) :=
  ⟨⟨{ live with now := ((liveMach.putI 0x1000 pLOCK_NODE 0).putI 0 pLOCK_SOURCE 1) }, .b, 256, [1, 0, 0, 16] ++ List.replicate 16 0, .double, by (try unfold Serves); (try dsimp only); first | done | decide +kernel⟩,
    ⟨{ live with now := ((liveMach.putI 0x1000 pLOCK_NODE 0).putI 0 pLOCK_SOURCE 1) }, .b, 256, [1, 0, 0, 16] ++ List.replicate 16 0, .fine, by (try unfold Serves); (try dsimp only); first | done | decide +kernel⟩,
    ⟨{ live with now := ((liveMach.putI 0x1000 pLOCK_NODE 0).putI 0 pLOCK_SOURCE 1) }, .b, 256, coded 256 ([1, 0, 0, 16] ++ List.replicate 12 0), .fine, by (try unfold Serves); (try dsimp only); first | done | decide +kernel⟩,
    ⟨{ live with now := ((liveMach.putI 0x1000 pLOCK_NODE 0).putI 0 pLOCK_SOURCE 1) }, .b, 256, coded 256 ([1, 0, 0, 16, 0, 0, 1, 0] ++ List.replicate 4 0 ++ le 4 (250 * 8000000 - 10000)), .fine, by (try unfold Serves); (try dsimp only); first | done | decide +kernel⟩⟩

theorem test_hyp_LockAndGroupMessagesComplete_2 :
    (∃ m : Mach, ∃ id : Nat, ∃ b : List Nat, 
    let t := extend32 m.ts (leAt b 12 4)
    
    let valid := m.msgTaken (abOf (m.nat pLOCK_PORT)) (.lock 0) id b = true ∧ (m.ts : Int) - 10000 ≤ t ∧ t ≤ (m.ts : Int)
    (safetyOk id b = false)) ∧
    (∃ m : Mach, ∃ id : Nat, ∃ b : List Nat, 
    let t := extend32 m.ts (leAt b 12 4)
    
    let valid := m.msgTaken (abOf (m.nat pLOCK_PORT)) (.lock 0) id b = true ∧ (m.ts : Int) - 10000 ≤ t ∧ t ≤ (m.ts : Int)
    (safetyOk id b = true) ∧ (valid)) ∧
    (∃ m : Mach, ∃ id : Nat, ∃ b : List Nat, 
    let t := extend32 m.ts (leAt b 12 4)
    
    let valid := m.msgTaken (abOf (m.nat pLOCK_PORT)) (.lock 0) id b = true ∧ (m.ts : Int) - 10000 ≤ t ∧ t ≤ (m.ts : Int)
    (safetyOk id b = true) ∧ (¬ valid)) :=
  ⟨⟨liveMach, 0, [], by (try unfold Serves); (try dsimp only); first | done | decide +kernel⟩,
    ⟨liveMach, 256, coded 256 ([1, 0, 0, 16, 0, 0, 1, 0] ++ List.replicate 4 0 ++ le 4 (250 * 8000000 - 10000)), by (try unfold Serves); (try dsimp only); first | done | decide +kernel⟩,
    ⟨liveMach, 256, coded 256 ([1, 0, 0, 16, 0, 0, 1, 0] ++ List.replicate 4 0 ++ le 4 (250 * 8000000 - 10001)), by (try unfold Serves); (try dsimp only); first | done | decide +kernel⟩⟩

theorem test_hyp_LockAndGroupMessagesComplete_3 :
    (∃ s : State, ∃ p : Sys2Proof.Ab, ∃ b : List Nat, (s.now.groupTaken p b = true) ∧ (nth b 4 0 ≠ 2)) ∧
    (∃ s : State, ∃ p : Sys2Proof.Ab, ∃ b : List Nat, (s.now.groupTaken p b = true) ∧ (nth b 4 0 = 2)) :=
  ⟨⟨live, .b, [1, 0, 80, 32, 1] ++ List.replicate 7 0, by (try unfold Serves); (try dsimp only); first | done | decide +kernel⟩,
    ⟨live, .b, [1, 0, 80, 32, 2] ++ List.replicate 7 0, by (try unfold Serves); (try dsimp only); first | done | decide +kernel⟩⟩

theorem test_hyp_LockAndGroupMessagesComplete_4 :
    (∃ s : State, ∃ p : Sys2Proof.Ab, ∃ b : List Nat, (abOf (s.now.nat pGROUP_PORT) = p) ∧ ((s.now.prt p).takesPart = true) ∧ (s.now.msgTaken p .groupHb (s.now.msgIdent .groupHb) b = true) ∧ (nth b 2 0 = s.now.nat pGROUP_SRC) ∧ 
    let m1 : Mach := { s.now.msgAccept p (s.now.msgIdent .groupHb) b with sched.hbLast := s.now.time.frame }
    (m1.inForce 1 0x4C = false)) ∧
    (∃ s : State, ∃ p : Sys2Proof.Ab, ∃ b : List Nat, (abOf (s.now.nat pGROUP_PORT) = p) ∧ ((s.now.prt p).takesPart = true) ∧ (s.now.msgTaken p .groupHb (s.now.msgIdent .groupHb) b = true) ∧ (nth b 2 0 = s.now.nat pGROUP_SRC) ∧ 
    let m1 : Mach := { s.now.msgAccept p (s.now.msgIdent .groupHb) b with sched.hbLast := s.now.time.frame }
    (m1.inForce 1 0x4C = true)) :=
  ⟨⟨live, .b, [1, 0, 80, 34] ++ List.replicate 4 0, by (try unfold Serves); (try dsimp only); first | done | decide +kernel⟩,
    ⟨{ live with now := { liveMach with faults := [{ FaultRec.reset with unit := 1, code := 0x4C }] } }, .b, [1, 0, 80, 34] ++ List.replicate 4 0, by (try unfold Serves); (try dsimp only); first | done | decide +kernel⟩⟩

theorem test_hyp_LockAndGroupMessagesComplete_5 :
    ∃ s : State, ∃ p : Sys2Proof.Ab, ∃ id : Nat, ∃ b : List Nat, (abOf (s.now.nat pFIXTURE_PORT) = p) ∧ ((s.now.prt p).takesPart = true) ∧ (leAt b 6 2 < s.now.nLandings) ∧ (id = s.now.nat pHALL_ID_BASE + leAt b 6 2) ∧ (s.now.msgTaken p (.hallBtn 0) id b = true) :=
  ⟨live, .b, 1539, [1, 0, 0, 64, 0, 0, 3, 0], by (try unfold Serves); (try dsimp only); first | done | decide +kernel⟩

theorem test_hyp_LockAndGroupMessagesComplete_6 :
    ∃ s : State, (s.now.time.ballast = false) ∧ (s.now.power.state ≠ 3) ∧ (4 * s.now.nat pIND_REFRESH ≤ s.now.time.frame - s.now.bus.indAt) :=
  ⟨{ live with now := { liveMach with time.ballast := false } }, by (try unfold Serves); (try dsimp only); first | done | decide +kernel⟩

theorem test_hyp_GroupAndPanelMessagesAct_0 :
    ∃ m : Mach, ∃ p : Sys2Proof.Ab, ∃ b : List Nat, ((nth b 4 0 = 2)) ∧ ((field (nth b 5 0) 1 0 = 1 ∨ field (nth b 5 0) 1 0 = 2)) :=
  ⟨liveMach, .a, [1, 0, 80, 32, 2, 2], by (try unfold Serves); (try dsimp only); first | done | decide +kernel⟩

theorem test_hyp_GroupAndPanelMessagesAct_1 :
    (∃ m : Mach, ∃ p : Sys2Proof.Ab, ∃ b : List Nat, (nth b 4 0 = 1) ∧ ((field (nth b 5 0) 1 0 = 1 ∨ field (nth b 5 0) 1 0 = 2)) ∧ 
    let d := field (nth b 5 0) 1 0
    
    let sd := field (nth b 5 0) 3 2
    
    let l := leAt b 6 2
    
    let m1 := m.msgAccept p (m.msgIdent .groupCmd) b
    (m1.assignResult l d sd = 0)) ∧
    (∃ m : Mach, ∃ p : Sys2Proof.Ab, ∃ b : List Nat, (nth b 4 0 = 1) ∧ ((field (nth b 5 0) 1 0 = 1 ∨ field (nth b 5 0) 1 0 = 2)) ∧ 
    let d := field (nth b 5 0) 1 0
    
    let sd := field (nth b 5 0) 3 2
    
    let l := leAt b 6 2
    
    let m1 := m.msgAccept p (m.msgIdent .groupCmd) b
    (m1.assignResult l d sd = 1)) ∧
    (∃ m : Mach, ∃ p : Sys2Proof.Ab, ∃ b : List Nat, (nth b 4 0 = 1) ∧ ((field (nth b 5 0) 1 0 = 1 ∨ field (nth b 5 0) 1 0 = 2)) ∧ 
    let d := field (nth b 5 0) 1 0
    
    let sd := field (nth b 5 0) 3 2
    
    let l := leAt b 6 2
    
    let m1 := m.msgAccept p (m.msgIdent .groupCmd) b
    (m1.assignResult l d sd = 2)) :=
  ⟨⟨(liveMach.putI 0 pSCHED_MODE 2), .b, [1, 0, 80, 32, 1, 5, 1, 0, 0, 0, 0, 0], by (try unfold Serves); (try dsimp only); first | done | decide +kernel⟩,
    ⟨liveMach, .b, [1, 0, 80, 32, 1, 5, 4, 0, 0, 0, 0, 0], by (try unfold Serves); (try dsimp only); first | done | decide +kernel⟩,
    ⟨liveMach, .b, [1, 0, 80, 32, 1, 5, 1, 0, 0, 0, 0, 0], by (try unfold Serves); (try dsimp only); first | done | decide +kernel⟩⟩

theorem test_hyp_GroupAndPanelMessagesAct_2 :
    (∃ s : State, ∃ p : Sys2Proof.Ab, ∃ b : List Nat, (s.now.panelTaken p b 1 = true) ∧ 
    let st := s.now.callStatus (leAt b 6 2) 0 (field (nth b 5 0) 1 0)
    
    let m1 := s.now.msgAccept p (s.now.msgIdent .panelBtn) b
    (st = 0)) ∧
    (∃ s : State, ∃ p : Sys2Proof.Ab, ∃ b : List Nat, (s.now.panelTaken p b 1 = true) ∧ 
    let st := s.now.callStatus (leAt b 6 2) 0 (field (nth b 5 0) 1 0)
    
    let m1 := s.now.msgAccept p (s.now.msgIdent .panelBtn) b
    (st ≠ 0)) :=
  ⟨⟨live, .b, [1, 0, 0, 48, 1, 1, 0, 0], by (try unfold Serves); (try dsimp only); first | done | decide +kernel⟩,
    ⟨live, .b, [1, 0, 0, 48, 1, 0, 0, 0], by (try unfold Serves); (try dsimp only); first | done | decide +kernel⟩⟩

theorem test_hyp_GroupAndPanelMessagesAct_3 :
    (∃ s : State, ∃ p : Sys2Proof.Ab, ∃ b : List Nat, (s.now.panelTaken p b 2 = true) ∧ 
    let st := s.now.callForm (leAt b 6 2) 0 (field (nth b 5 0) 1 0)
    
    let m1 := s.now.msgAccept p (s.now.msgIdent .panelBtn) b
    (st = 0)) ∧
    (∃ s : State, ∃ p : Sys2Proof.Ab, ∃ b : List Nat, (s.now.panelTaken p b 2 = true) ∧ 
    let st := s.now.callForm (leAt b 6 2) 0 (field (nth b 5 0) 1 0)
    
    let m1 := s.now.msgAccept p (s.now.msgIdent .panelBtn) b
    (st ≠ 0)) :=
  ⟨⟨live, .b, [1, 0, 0, 48, 2, 1, 0, 0], by (try unfold Serves); (try dsimp only); first | done | decide +kernel⟩,
    ⟨live, .b, [1, 0, 0, 48, 2, 0, 0, 0], by (try unfold Serves); (try dsimp only); first | done | decide +kernel⟩⟩

theorem test_hyp_GroupAndPanelMessagesAct_4 :
    (∃ s : State, ∃ p : Sys2Proof.Ab, ∃ b : List Nat, ∃ c : Nat, ∃ cmd : Instr, (s.now.panelTaken p b (c + 2) = true) ∧ (((c = 1 ∧ cmd = .panelDoorOpen p b) ∨ (c = 2 ∧ cmd = .panelDoorClose p b))) ∧ 
    let r := (s.now.msgAccept p (s.now.msgIdent .panelBtn) b).doorCmd c 0 (field (nth b 5 0) 1 0)
    (r.2.1 ≤ 1)) ∧
    (∃ s : State, ∃ p : Sys2Proof.Ab, ∃ b : List Nat, ∃ c : Nat, ∃ cmd : Instr, (s.now.panelTaken p b (c + 2) = true) ∧ (((c = 1 ∧ cmd = .panelDoorOpen p b) ∨ (c = 2 ∧ cmd = .panelDoorClose p b))) ∧ 
    let r := (s.now.msgAccept p (s.now.msgIdent .panelBtn) b).doorCmd c 0 (field (nth b 5 0) 1 0)
    (1 < r.2.1)) :=
  ⟨⟨live, .b, [1, 0, 0, 48, 4, 1, 0, 0], 2, .panelDoorClose .b [1, 0, 0, 48, 4, 1, 0, 0], by (try unfold Serves); (try dsimp only); first | done | decide +kernel⟩,
    ⟨live, .b, [1, 0, 0, 48, 3, 0, 0, 0], 1, .panelDoorOpen .b [1, 0, 0, 48, 3, 0, 0, 0], by (try unfold Serves); (try dsimp only); first | done | decide +kernel⟩⟩

theorem test_hyp_TimestampExtension_0 :
    ∃ now : Nat, ∃ x : Nat, (x < 2 ^ 32) ∧ ∃ y : Int, (y % (2 ^ 32 : Int) = x) ∧ ((now : Int) - 2 ^ 31 < y) ∧ (y < (now : Int) + 2 ^ 31) :=
  ⟨0, 0, by (try unfold Serves); (try dsimp only); first | done | decide +kernel, 0, by (try unfold Serves); (try dsimp only); first | done | decide +kernel⟩

theorem test_hyp_MeterMeasuringEventsComplete_1 :
    ∃ m : Mach, ∃ raw : List Int, ∃ k : Nat, (k < 7) ∧ (fullScale (nth raw k 0) = true) ∧ (1 ≤ nth m.meter.fullRun k 0) :=
  ⟨{ liveMach with meter.fullRun := [1] }, [8388607], 0, by (try unfold Serves); (try dsimp only); first | done | decide +kernel⟩

theorem test_hyp_MeterMeasuringEventsComplete_2 :
    (∃ s : State, ∃ inp : HalfIn, (inp.cross = true) ∧ 
    let t := s.now.ts + inp.off
    
    let us := s.now.halfValues (s.now.meter.lastHalf + inp.dur)
    
    let m0 := if s.now.meter.freqValid then s.now.halfValued us t else s.now
    
    let m1 : Mach := { m0 with meter.crossAt := t, meter.lastHalf := inp.dur }
    (inp.rising = true)) ∧
    (∃ s : State, ∃ inp : HalfIn, (inp.cross = true) ∧ 
    let t := s.now.ts + inp.off
    
    let us := s.now.halfValues (s.now.meter.lastHalf + inp.dur)
    
    let m0 := if s.now.meter.freqValid then s.now.halfValued us t else s.now
    
    let m1 : Mach := { m0 with meter.crossAt := t, meter.lastHalf := inp.dur }
    (inp.rising = false) ∧ (m1.meter.freqValid = true) ∧ (10 * nth us 0 0 < s.now.met pU_DECL)) ∧
    (∃ s : State, ∃ inp : HalfIn, (inp.cross = true) ∧ 
    let t := s.now.ts + inp.off
    
    let us := s.now.halfValues (s.now.meter.lastHalf + inp.dur)
    
    let m0 := if s.now.meter.freqValid then s.now.halfValued us t else s.now
    
    let m1 : Mach := { m0 with meter.crossAt := t, meter.lastHalf := inp.dur }
    (inp.rising = false) ∧ ((m1.meter.freqValid = false ∨ s.now.met pU_DECL ≤ 10 * nth us 0 0))) :=
  ⟨⟨live, goodHalf, by (try unfold Serves); (try dsimp only); first | done | decide +kernel⟩,
    ⟨{ live with now := { liveMach with meter.freqValid := true } }, { goodHalf with rising := false }, by (try unfold Serves); (try dsimp only); first | done | decide +kernel⟩,
    ⟨live, { goodHalf with rising := false }, by (try unfold Serves); (try dsimp only); first | done | decide +kernel⟩⟩

theorem test_hyp_MeterMeasuringEventsComplete_3 :
    (∃ s : State, ∃ inp : HalfIn, (inp.cross = false) ∧ ∃ t, (s.now.nominalHalf = some t)) ∧
    (∃ s : State, ∃ inp : HalfIn, (inp.cross = false) ∧ (s.now.nominalHalf = none)) :=
  ⟨⟨{ live with now := { liveMach with time.frame := 39 } }, { goodHalf with cross := false }, by (try unfold Serves); (try dsimp only); first | done | decide +kernel, 10000, by (try unfold Serves); (try dsimp only); first | done | decide +kernel⟩,
    ⟨{ live with now := { liveMach with meter.freqValid := true } }, { goodHalf with cross := false }, by (try unfold Serves); (try dsimp only); first | done | decide +kernel⟩⟩

theorem test_hyp_MeterMeasuringEventsComplete_5 :
    ∃ s : State, (s.now.meter.freqValid = true) ∧ (s.now.windowHalfs ≤ s.now.meter.winHalfs) :=
  ⟨{ live with now := { liveMach with meter.freqValid := true, meter.winHalfs := 24 } }, by (try unfold Serves); (try dsimp only); first | done | decide +kernel⟩

theorem test_hyp_MeterMeasuringEventsComplete_6 :
    ∃ s : State, (s.now.meter.freqValid = false) ∧ (s.now.time.frame % 800 = 0) ∧ (s.now.meter.winEnd ≠ s.now.ts) :=
  ⟨{ live with now := { liveMach with meter.freqValid := false, meter.winEnd := 1 } }, by (try unfold Serves); (try dsimp only); first | done | decide +kernel⟩

theorem test_hyp_MeterMeasuringEventsComplete_7 :
    ∃ s : State, (s.now.time.frame % 40000 = 0) :=
  ⟨live, by (try unfold Serves); (try dsimp only); first | done | decide +kernel⟩

theorem test_hyp_MeterSavesAndOffsets_0 :
    ∃ s : State, (s.now.hourDue = true) :=
  ⟨{ live with now := { liveMach with time.frame := 14400000, meter.hourFrom := 1 } }, by (try unfold Serves); (try dsimp only); first | done | decide +kernel⟩

theorem test_hyp_MeterSavesAndOffsets_1 :
    ∃ s : State, (s.now.ts ≠ 0) ∧ (s.now.ts % (s.now.met pENERGY_SAVE_PERIOD * 1000000) = 0) :=
  ⟨{ live with now := { liveMach with time.frame := 14400000 } }, by (try unfold Serves); (try dsimp only); first | done | decide +kernel⟩

theorem test_hyp_MeterSavesAndOffsets_3 :
    (∃ s : State, ∃ means : List Int, (s.now.time.frame % 4000 = 0) ∧ 
    let o := (List.range 7).map fun k => nth s.now.meter.offsets k 0 + halfAway (nth means k 0) 16
    
    let m1 : Mach := { s.now with meter.offsets := o }
    ((∃ x ∈ o, 41943 < x.natAbs))) ∧
    (∃ s : State, ∃ means : List Int, (s.now.time.frame % 4000 = 0) ∧ 
    let o := (List.range 7).map fun k => nth s.now.meter.offsets k 0 + halfAway (nth means k 0) 16
    
    let m1 : Mach := { s.now with meter.offsets := o }
    ((∀ x ∈ o, x.natAbs ≤ 33554))) ∧
    (∃ s : State, ∃ means : List Int, (s.now.time.frame % 4000 = 0) ∧ 
    let o := (List.range 7).map fun k => nth s.now.meter.offsets k 0 + halfAway (nth means k 0) 16
    
    let m1 : Mach := { s.now with meter.offsets := o }
    ((∀ x ∈ o, x.natAbs ≤ 41943)) ∧ ((∃ x ∈ o, 33554 < x.natAbs))) :=
  ⟨⟨{ live with now := { liveMach with meter.offsets := [41944] } }, [], by (try unfold Serves); (try dsimp only); first | done | decide +kernel⟩,
    ⟨live, [], by (try unfold Serves); (try dsimp only); first | done | decide +kernel⟩,
    ⟨{ live with now := { liveMach with meter.offsets := [41943] } }, [], by (try unfold Serves); (try dsimp only); first | done | decide +kernel⟩⟩

theorem test_hyp_MeterCommandsAnswered_0 :
    (∃ s : State, ∃ tag : Nat, ∃ ph : Nat, ∃ n : Nat, (Serves s 0x63) ∧ (s.now.meter.meas.isSome = true)) ∧
    (∃ s : State, ∃ tag : Nat, ∃ ph : Nat, ∃ n : Nat, (Serves s 0x63) ∧ (s.now.meter.meas = none) ∧ ((ph = 0 ∨ s.now.phasesUsed.contains (ph - 1) = false ∨ n < 5 ∨ 300 < n))) ∧
    (∃ s : State, ∃ tag : Nat, ∃ ph : Nat, ∃ n : Nat, (Serves s 0x63) ∧ (s.now.meter.meas = none) ∧ (ph ≠ 0) ∧ (s.now.phasesUsed.contains (ph - 1) = true) ∧ (5 ≤ n) ∧ (n ≤ 300) ∧ (s.now.calState? = false)) ∧
    (∃ s : State, ∃ tag : Nat, ∃ ph : Nat, ∃ n : Nat, (Serves s 0x63) ∧ (s.now.meter.meas = none) ∧ (ph ≠ 0) ∧ (s.now.phasesUsed.contains (ph - 1) = true) ∧ (5 ≤ n) ∧ (n ≤ 300) ∧ (s.now.calState? = true)) :=
  ⟨⟨{ live with now := { liveMach with meter.meas := some CalMeas.reset } }, 0, 0, 0, by (try unfold Serves); (try dsimp only); first | done | decide +kernel⟩,
    ⟨{ live with now := { liveMach with meter.meas := none } }, 0, 0, 0, by (try unfold Serves); (try dsimp only); first | done | decide +kernel⟩,
    ⟨{ live with now := { liveMach with meter.meas := none } }, 0, 1, 5, by (try unfold Serves); (try dsimp only); first | done | decide +kernel⟩,
    ⟨{ live with now := { liveMach with meter.meas := none, meter.freqValid := true } }, 0, 1, 300, by (try unfold Serves); (try dsimp only); first | done | decide +kernel⟩⟩

theorem test_hyp_MeterCommandsAnswered_1 :
    ∃ s : State, ∃ c : CalMeas, (s.now.meter.meas = some c) ∧ (c.started = true) ∧ (c.left ≤ c.n) :=
  ⟨{ live with now := { liveMach with meter.meas := some ({ CalMeas.reset with started := true }) } }, { CalMeas.reset with started := true }, by (try unfold Serves); (try dsimp only); first | done | decide +kernel⟩

theorem test_hyp_MeterCommandsAnswered_2 :
    ∃ s : State, ∃ tag : Nat, ∃ u : Nat, ∃ i : Nat, ∃ p : Int, ∃ q : Int, (Serves s 0x63) ∧ ((s.now.calState? = false ∨ s.now.meter.calRes = none)) :=
  ⟨live, 0, 0, 0, 0, 0, by (try unfold Serves); (try dsimp only); first | done | decide +kernel⟩

theorem test_hyp_MeterCommandsAnswered_3 :
    (∃ s : State, ∃ tag : Nat, ∃ u : Nat, ∃ i : Nat, ∃ p : Int, ∃ q : Int, ∃ c : CalMeas, (Serves s 0x63) ∧ (s.now.calState? = true) ∧ (s.now.meter.calRes = some c) ∧ 
    let m1 : Mach := { s.now with meter.calRes := none, free := s.now.free + 2 }
    (s.now.coefficients c u i p q = none)) ∧
    (∃ s : State, ∃ tag : Nat, ∃ u : Nat, ∃ i : Nat, ∃ p : Int, ∃ q : Int, ∃ c : CalMeas, (Serves s 0x63) ∧ (s.now.calState? = true) ∧ (s.now.meter.calRes = some c) ∧ 
    let m1 : Mach := { s.now with meter.calRes := none, free := s.now.free + 2 }
    ∃ gu, ∃ gi, ∃ ph, (s.now.coefficients c u i p q = some (gu, gi, ph))) :=
  ⟨⟨{ live with now := { liveMach with meter.calRes := some ({ CalMeas.reset with us := [1] }), meter.freqValid := true } }, 0, 0, 0, 0, 0, { CalMeas.reset with us := [1] }, by (try unfold Serves); (try dsimp only); first | done | decide +kernel⟩,
    ⟨{ live with now := { liveMach with meter.calRes := some ({ CalMeas.reset with us := [1000000000], is := [1000000000], ps := [1], qs := [1] }), meter.freqValid := true } }, 0, 1000000000, 1000000000, 1, 1, { CalMeas.reset with us := [1000000000], is := [1000000000], ps := [1], qs := [1] }, by (try unfold Serves); (try dsimp only); first | done | decide +kernel, by (try unfold Serves); (try dsimp only); first | done | decide +kernel, by (try unfold Serves); (try dsimp only); first | done | decide +kernel, 0, 0, 0, by (try unfold Serves); (try dsimp only); first | done | decide +kernel⟩⟩

theorem test_hyp_MeterCommandsAnswered_4 :
    ∃ s : State, ∃ tag : Nat, ∃ es : List SetEntry, (Serves s 0x60) ∧ ((es = [] ∨ 64 < es.length)) :=
  ⟨live, 0, [], by (try unfold Serves); (try dsimp only); first | done | decide +kernel⟩

theorem test_hyp_MeterCommandsAnswered_5 :
    (∃ s : State, ∃ tag : Nat, ∃ es : List SetEntry, (Serves s 0x60) ∧ (es ≠ []) ∧ (es.length ≤ 64) ∧ ((∀ e ∈ es, s.now.setStatus 0x0300 e = 0)) ∧ (meterCfgOk (s.now.meterCfgWith es) = true)) ∧
    (∃ s : State, ∃ tag : Nat, ∃ es : List SetEntry, (Serves s 0x60) ∧ (es ≠ []) ∧ (es.length ≤ 64) ∧ ((∀ e ∈ es, s.now.setStatus 0x0300 e = 0)) ∧ (meterCfgOk (s.now.meterCfgWith es) = false) ∧ ((∃ e ∈ es, tied e.id = true))) :=
  ⟨⟨live, 0, [⟨pENERGY_UNIT, [1]⟩], by (try unfold Serves); (try dsimp only); first | done | decide +kernel⟩,
    ⟨{ live with now := ((liveMach.putI 0x0300 pMETER_WIRING 2)) }, 0, [⟨pI4_ROLE, [1]⟩], by (try unfold Serves); (try dsimp only); first | done | decide +kernel⟩⟩

theorem test_hyp_MeterCommandsAnswered_6 :
    ∃ s : State, ∃ tag : Nat, (Serves s 0x61) :=
  ⟨live, 0, by (try unfold Serves); (try dsimp only); first | done | decide +kernel⟩

theorem test_hyp_MeterCommandsAnswered_7 :
    ∃ s : State, ∃ tag : Nat, (Serves s 0x62) :=
  ⟨live, 0, by (try unfold Serves); (try dsimp only); first | done | decide +kernel⟩

theorem test_hyp_FlushRuns_0 :
    ∃ s : State, ∃ bad : List Nat, (s.now.flushDue = true) :=
  ⟨{ live with now := { liveMach with time.frame := 8000000, rcd.own := .on } }, [], by (try unfold Serves); (try dsimp only); first | done | decide +kernel⟩

theorem test_hyp_FlushRuns_1 :
    ∃ m : Mach, ∃ d : Nat, (m.dueRecords d ≠ 0) :=
  ⟨{ liveMach with rcd.queue := [RingEntry.reset] }, 0, by (try unfold Serves); (try dsimp only); first | done | decide +kernel⟩

theorem test_hyp_ScrubRuns_0 :
    ∃ s : State, ∃ a : Nat, ∃ f : Nat, ((0x400000 ≤ a ∨ a % 8 ≠ 0)) :=
  ⟨live, 0x400000, 0, by (try unfold Serves); (try dsimp only); first | done | decide +kernel⟩

theorem test_hyp_ScrubRuns_1 :
    (∃ s : State, ∃ a : Nat, ∃ f : Nat, (a < 0x400000) ∧ (a % 8 = 0) ∧ 
    let bad := 2 ≤ f ∨ a ∈ s.now.mramBad
    
    let m1 : Mach := if f = 0 ∧ ¬ bad then s.now
      else if ¬ bad then { s.now with rcd.scrubFix := sat32 s.now.rcd.scrubFix }
      else ({ s.now with
        mramBad := if a ∈ s.now.mramBad then s.now.mramBad else s.now.mramBad ++ [a]
        rcd.scrubBad := sat32 s.now.rcd.scrubBad
        rcd.scrubAddr := a
        rcd.passBad := true } : Mach).raise 0x0400 0xD2 1
    (a + 8 ≠ 0x400000)) ∧
    (∃ s : State, ∃ a : Nat, ∃ f : Nat, (a < 0x400000) ∧ (a % 8 = 0) ∧ 
    let bad := 2 ≤ f ∨ a ∈ s.now.mramBad
    
    let m1 : Mach := if f = 0 ∧ ¬ bad then s.now
      else if ¬ bad then { s.now with rcd.scrubFix := sat32 s.now.rcd.scrubFix }
      else ({ s.now with
        mramBad := if a ∈ s.now.mramBad then s.now.mramBad else s.now.mramBad ++ [a]
        rcd.scrubBad := sat32 s.now.rcd.scrubBad
        rcd.scrubAddr := a
        rcd.passBad := true } : Mach).raise 0x0400 0xD2 1
    (a + 8 = 0x400000)) :=
  ⟨⟨live, 0x3FFFF0, 0, by (try unfold Serves); (try dsimp only); first | done | decide +kernel⟩,
    ⟨live, 0x3FFFF8, 0, by (try unfold Serves); (try dsimp only); first | done | decide +kernel⟩⟩

theorem test_hyp_DrawerCommandsAnswered_0 :
    (∃ s : State, ∃ tag : Nat, ∃ d : Nat, ∃ i : Nat, (Serves s 0x70) ∧ ((15 < d ∨ 3071 < i))) ∧
    (∃ s : State, ∃ tag : Nat, ∃ d : Nat, ∃ i : Nat, (Serves s 0x70) ∧ (d ≤ 15) ∧ (i ≤ 3071)) :=
  ⟨⟨live, 0, 16, 0, by (try unfold Serves); (try dsimp only); first | done | decide +kernel⟩,
    ⟨live, 0, 15, 3071, by (try unfold Serves); (try dsimp only); first | done | decide +kernel⟩⟩

theorem test_hyp_DrawerCommandsAnswered_1 :
    (∃ s : State, ∃ tag : Nat, ∃ d : Nat, (Serves s 0x72) ∧ (15 < d)) ∧
    (∃ s : State, ∃ tag : Nat, ∃ d : Nat, (Serves s 0x72) ∧ (d ≤ 15)) :=
  ⟨⟨live, 0, 16, by (try unfold Serves); (try dsimp only); first | done | decide +kernel⟩,
    ⟨live, 0, 15, by (try unfold Serves); (try dsimp only); first | done | decide +kernel⟩⟩

theorem test_hyp_DrawerCommandsAnswered_2 :
    (∃ s : State, ∃ tag : Nat, ∃ d : Nat, (Serves s 0x73) ∧ (15 < d)) ∧
    (∃ s : State, ∃ tag : Nat, ∃ d : Nat, (Serves s 0x73) ∧ (d ≤ 15) ∧ (s.now.cab.session = none)) ∧
    (∃ s : State, ∃ tag : Nat, ∃ d : Nat, (Serves s 0x73) ∧ ∃ slot, (d ≤ 15) ∧ (s.now.cab.session = some slot) ∧ (d = 15)) ∧
    (∃ s : State, ∃ tag : Nat, ∃ d : Nat, (Serves s 0x73) ∧ ∃ slot, (d ≤ 15) ∧ (s.now.cab.session = some slot) ∧ (d < 15) ∧ ((∃ x ∈ s.now.rcd.drawers, x.clearing ≠ 0))) ∧
    (∃ s : State, ∃ tag : Nat, ∃ d : Nat, (Serves s 0x73) ∧ ∃ slot, (d ≤ 15) ∧ (s.now.cab.session = some slot) ∧ (d < 15) ∧ ((∀ x ∈ s.now.rcd.drawers, x.clearing = 0))) :=
  ⟨⟨live, 0, 16, by (try unfold Serves); (try dsimp only); first | done | decide +kernel⟩,
    ⟨{ live with now := { liveMach with cab.session := none } }, 0, 15, by (try unfold Serves); (try dsimp only); first | done | decide +kernel⟩,
    ⟨{ live with now := { liveMach with cab.session := some 0 } }, 0, 15, by (try unfold Serves); (try dsimp only); first | done | decide +kernel, 0, by (try unfold Serves); (try dsimp only); first | done | decide +kernel⟩,
    ⟨{ live with now := { liveMach with cab.session := some 0, rcd.drawers := [{ DrawerState.reset with clearing := 1 }] } }, 0, 14, by (try unfold Serves); (try dsimp only); first | done | decide +kernel, 0, by (try unfold Serves); (try dsimp only); first | done | decide +kernel⟩,
    ⟨{ live with now := { liveMach with cab.session := some 0 } }, 0, 14, by (try unfold Serves); (try dsimp only); first | done | decide +kernel, 0, by (try unfold Serves); (try dsimp only); first | done | decide +kernel⟩⟩

theorem test_hyp_WindowReadAnswered_0 :
    ∃ s : State, ∃ tag : Nat, ∃ bad : List Nat, (s.now.serves? = true) ∧ (s.now.admits 0x71 = false) :=
  ⟨{ live with now := { liveMach with start.ready := false, start.step := 3 } }, 0, [], by (try unfold Serves); (try dsimp only); first | done | decide +kernel⟩

theorem test_hyp_WindowReadAnswered_1 :
    (∃ s : State, ∃ tag : Nat, ∃ bad : List Nat, (Serves s 0x71) ∧ ∃ m1, ∃ p, ∃ f, (s.now.copyAttempt (2500 * s.now.time.frame + 2125) bad [] = (some (m1, p), f))) ∧
    (∃ s : State, ∃ tag : Nat, ∃ bad : List Nat, (Serves s 0x71) ∧ ∃ f, (s.now.copyAttempt (2500 * s.now.time.frame + 2125) bad [] = (none, f))) :=
  ⟨⟨live, 0, [], by first | rfl | (unfold Serves; decide +kernel), _, _, _, by first | rfl | (unfold Serves; decide +kernel)⟩,
    ⟨{ live with now := { liveMach with rcd.flushing := [(0, 0, 10 ^ 12)], time.frame := 8000001 } }, 0, [], by first | rfl | (unfold Serves; decide +kernel), _, by first | rfl | (unfold Serves; decide +kernel)⟩⟩

theorem test_hyp_WindowReadAnswered_2 :
    (∃ s : State, ∃ w : WinRun, ∃ bad : List Nat, (s.now.rcd.win = some w) ∧ ∃ m1, ∃ p, ∃ f, (s.now.copyAttempt (2500 * w.atF + 2125 + 250 * w.attempts) bad w.badIdx = (some (m1, p), f))) ∧
    (∃ s : State, ∃ w : WinRun, ∃ bad : List Nat, (s.now.rcd.win = some w) ∧ ∃ f, (s.now.copyAttempt (2500 * w.atF + 2125 + 250 * w.attempts) bad w.badIdx = (none, f)) ∧ (3 ≤ w.attempts)) ∧
    (∃ s : State, ∃ w : WinRun, ∃ bad : List Nat, (s.now.rcd.win = some w) ∧ ∃ f, (s.now.copyAttempt (2500 * w.atF + 2125 + 250 * w.attempts) bad w.badIdx = (none, f)) ∧ (w.attempts < 3)) :=
  ⟨⟨{ live with now := { liveMach with rcd.win := some WinRun.reset } }, WinRun.reset, [], rfl, _, _, _, rfl⟩,
    ⟨{ live with now := { liveMach with rcd.win := some ({ WinRun.reset with attempts := 3 }), rcd.flushing := [(0, 0, 10 ^ 12)], time.frame := 8000001 } }, { WinRun.reset with attempts := 3 }, [], by first | rfl | exact ⟨rfl, by decide⟩, _, by first | rfl | exact ⟨rfl, by decide⟩⟩,
    ⟨{ live with now := { liveMach with rcd.win := some ({ WinRun.reset with attempts := 2 }), rcd.flushing := [(0, 0, 10 ^ 12)], time.frame := 8000001 } }, { WinRun.reset with attempts := 2 }, [], by first | rfl | exact ⟨rfl, by decide⟩, _, by first | rfl | exact ⟨rfl, by decide⟩⟩⟩

theorem test_hyp_RingQueueHolds256_0 :
    (∃ m : Mach, ∃ d : Nat, ∃ second : Bool, ∃ p : List Nat, (m.recording = true) ∧ (m.time.recEcc ≠ .double) ∧ (d < m.rcd.drawers.length) ∧ (m.rcd.queue.length < 256)) ∧
    (∃ m : Mach, ∃ d : Nat, ∃ second : Bool, ∃ p : List Nat, (m.recording = true) ∧ (m.time.recEcc ≠ .double) ∧ (d < m.rcd.drawers.length) ∧ (m.rcd.queue.length = 256) ∧ 
    let n := m.ringRecord d second p
    (m.rcd.qDropped < 2 ^ 32 - 1)) ∧
    (∃ m : Mach, ∃ d : Nat, ∃ second : Bool, ∃ p : List Nat, (m.recording = true) ∧ (m.time.recEcc ≠ .double) ∧ (d < m.rcd.drawers.length) ∧ (m.rcd.queue.length = 256) ∧ 
    let n := m.ringRecord d second p
    (second = false)) ∧
    (∃ m : Mach, ∃ d : Nat, ∃ second : Bool, ∃ p : List Nat, (m.recording = true) ∧ (m.time.recEcc ≠ .double) ∧ (d < m.rcd.drawers.length) ∧ (m.rcd.queue.length = 256) ∧ 
    let n := m.ringRecord d second p
    (second = true)) :=
  ⟨⟨{ liveMach with rcd.own := .on }, 0, true, [], by (try unfold Serves); (try dsimp only); first | done | decide +kernel⟩,
    ⟨{ liveMach with rcd.own := .on, rcd.queue := List.replicate 256 RingEntry.reset }, 0, true, [], by (try unfold Serves); (try dsimp only); first | done | decide +kernel⟩,
    ⟨{ liveMach with rcd.own := .on, rcd.queue := List.replicate 256 RingEntry.reset }, 0, false, [], by (try unfold Serves); (try dsimp only); first | done | decide +kernel⟩,
    ⟨{ liveMach with rcd.own := .on, rcd.queue := List.replicate 256 RingEntry.reset }, 0, true, [], by (try unfold Serves); (try dsimp only); first | done | decide +kernel⟩⟩

theorem test_hyp_ExtremeKeepsLeastAndGreatest_0 :
    (∃ l : List ExtRec, ∃ id : Nat, ∃ v : Int, ∃ t : Nat, (l.Pairwise (fun a b => a.id < b.id)) ∧ ∃ e ∈ l, (e.id = id)) ∧
    (∃ l : List ExtRec, ∃ id : Nat, ∃ v : Int, ∃ t : Nat, (l.Pairwise (fun a b => a.id < b.id)) ∧ ((∀ e ∈ l, e.id ≠ id))) ∧
    (∃ l : List ExtRec, ∃ id : Nat, ∃ v : Int, ∃ t : Nat, (l.Pairwise (fun a b => a.id < b.id)) ∧ ∃ e ∈ l, (e.id ≠ id)) :=
  ⟨⟨[{ ExtRec.reset with id := 3 }], 3, 0, 0, by (try unfold Serves); (try dsimp only); first | done | decide +kernel, { ExtRec.reset with id := 3 }, by (try unfold Serves); (try dsimp only); first | done | decide +kernel⟩,
    ⟨[{ ExtRec.reset with id := 3 }], 2, 0, 0, by (try unfold Serves); (try dsimp only); first | done | decide +kernel⟩,
    ⟨[{ ExtRec.reset with id := 3 }], 4, 0, 0, by (try unfold Serves); (try dsimp only); first | done | decide +kernel, { ExtRec.reset with id := 3 }, by (try unfold Serves); (try dsimp only); first | done | decide +kernel⟩⟩

theorem test_hyp_ExtremeKeepsLeastAndGreatest_1 :
    ∃ x : DrawerState, ∃ id : Nat, ((∀ e ∈ x.exts, e.id ≠ id)) :=
  ⟨{ DrawerState.reset with exts := [{ ExtRec.reset with id := 3 }] }, 2, by (try unfold Serves); (try dsimp only); first | done | decide +kernel⟩

theorem test_hyp_PlainHostCommandsAnswered_0 :
    ∃ s : State, ∃ tag : Nat, (Serves s 0x00) :=
  ⟨live, 0, by (try unfold Serves); (try dsimp only); first | done | decide +kernel⟩

theorem test_hyp_PlainHostCommandsAnswered_1 :
    ∃ s : State, ∃ tag : Nat, (Serves s 0x01) :=
  ⟨live, 0, by (try unfold Serves); (try dsimp only); first | done | decide +kernel⟩

theorem test_hyp_PlainHostCommandsAnswered_2 :
    ∃ s : State, ∃ tag : Nat, (Serves s 0x02) :=
  ⟨live, 0, by (try unfold Serves); (try dsimp only); first | done | decide +kernel⟩

theorem test_hyp_PlainHostCommandsAnswered_3 :
    ∃ s : State, ∃ tag : Nat, (Serves s 0x03) :=
  ⟨live, 0, by (try unfold Serves); (try dsimp only); first | done | decide +kernel⟩

theorem test_hyp_PlainHostCommandsAnswered_4 :
    (∃ s : State, ∃ tag : Nat, ∃ ack : Nat, ∃ f : Nat, ∃ n : Nat, (Serves s 0x04) ∧ ((n < 1 ∨ 64 < n))) ∧
    (∃ s : State, ∃ tag : Nat, ∃ ack : Nat, ∃ f : Nat, ∃ n : Nat, (Serves s 0x04) ∧ (1 ≤ n) ∧ (n ≤ 64)) :=
  ⟨⟨live, 0, 0, 0, 0, by (try unfold Serves); (try dsimp only); first | done | decide +kernel⟩,
    ⟨live, 0, 0, 0, 64, by (try unfold Serves); (try dsimp only); first | done | decide +kernel⟩⟩

theorem test_hyp_PlainHostCommandsAnswered_5 :
    ∃ s : State, ∃ tag : Nat, ∃ wall : Nat, ∃ ref : Nat, (Serves s 0x05) :=
  ⟨live, 0, 0, 0, by (try unfold Serves); (try dsimp only); first | done | decide +kernel⟩

theorem test_hyp_PlainHostCommandsAnswered_6 :
    (∃ s : State, ∃ tag : Nat, ∃ pol : Nat, ∃ mix : Nat, (Serves s 0x06) ∧ ((2 < pol ∨ 100 < mix))) ∧
    (∃ s : State, ∃ tag : Nat, ∃ pol : Nat, ∃ mix : Nat, (Serves s 0x06) ∧ (pol ≤ 2) ∧ (mix ≤ 100)) :=
  ⟨⟨live, 0, 0, 101, by (try unfold Serves); (try dsimp only); first | done | decide +kernel⟩,
    ⟨live, 0, 2, 100, by (try unfold Serves); (try dsimp only); first | done | decide +kernel⟩⟩

theorem test_hyp_TransactionJudged_0 :
    ∃ s : State, ∃ b : List Nat, ∃ n : Nat, ∃ ecc : Ecc, ((n ≠ 0 ∨ b ≠ [])) ∧ (s.now.host.stalled = false) ∧ (s.now.host.hbsy = true) :=
  ⟨{ live with now := { liveMach with host.stalled := false, host.hbsy := true } }, [], 1, .fine, by (try unfold Serves); (try dsimp only); first | done | decide +kernel⟩

theorem test_hyp_TransactionJudged_1 :
    ∃ s : State, ∃ b : List Nat, ∃ n : Nat, ∃ ecc : Ecc, ((n ≠ 0 ∨ b ≠ [])) ∧ (s.now.host.stalled = true) :=
  ⟨{ live with now := { liveMach with host.stalled := true } }, [], 1, .fine, by (try unfold Serves); (try dsimp only); first | done | decide +kernel⟩

theorem test_hyp_TransactionJudged_2 :
    (∃ s : State, ∃ b : List Nat, ∃ n : Nat, ∃ op : Nat, ∃ tag : Nat, ∃ ecc : Ecc, ∃ p : List Nat, ((n ≠ 0 ∨ b ≠ [])) ∧ (s.now.host.stalled = false) ∧ (s.now.host.hbsy = false) ∧ (judge ecc b = .packet op tag p) ∧ (noSuchKind op p = false)) ∧
    (∃ s : State, ∃ b : List Nat, ∃ n : Nat, ∃ op : Nat, ∃ tag : Nat, ∃ ecc : Ecc, ∃ p : List Nat, ((n ≠ 0 ∨ b ≠ [])) ∧ (s.now.host.stalled = false) ∧ (s.now.host.hbsy = false) ∧ (judge ecc b = .packet op tag p) ∧ (noSuchKind op p = true)) :=
  ⟨⟨{ live with now := { liveMach with host.stalled := false, host.hbsy := false } }, hostPacket 0 7 0 [], 1, 0, 7, .fine, [], by (try unfold Serves); (try dsimp only); first | done | decide +kernel⟩,
    ⟨{ live with now := { liveMach with host.stalled := false, host.hbsy := false } }, hostPacket 0x23 7 0 [3], 1, 0x23, 7, .fine, [3], by (try unfold Serves); (try dsimp only); first | done | decide +kernel⟩⟩

theorem test_hyp_TransactionJudged_3 :
    ∃ s : State, ∃ b : List Nat, ∃ n : Nat, ∃ op : Nat, ∃ tag : Nat, ∃ st : Nat, ∃ ecc : Ecc, ((n ≠ 0 ∨ b ≠ [])) ∧ (s.now.host.stalled = false) ∧ (s.now.host.hbsy = false) ∧ (judge ecc b = .refused op tag st) :=
  ⟨{ live with now := { liveMach with host.stalled := false, host.hbsy := false } }, [0xA5, 0, 7], 0, 0, 7, stTRUNCATED, .fine, by (try unfold Serves); (try dsimp only); first | done | decide +kernel⟩

theorem test_hyp_TransactionJudged_4 :
    ∃ s : State, ∃ b : List Nat, ∃ n : Nat, ∃ ecc : Ecc, ((n ≠ 0 ∨ b ≠ [])) ∧ (s.now.host.stalled = false) ∧ (s.now.host.hbsy = false) ∧ (judge ecc b = .nothing) :=
  ⟨{ live with now := { liveMach with host.stalled := false, host.hbsy := false } }, [], 1, .fine, by (try unfold Serves); (try dsimp only); first | done | decide +kernel⟩

theorem test_hyp_TransactionJudged_5 :
    ∃ s : State, ∃ b : List Nat, ∃ us : Nat, (2000 ≤ us) ∧ (packetOpen b = true) ∧ (s.now.host.hbsy = false) ∧ (s.now.host.stalled = false) :=
  ⟨{ live with now := { liveMach with host.hbsy := false, host.stalled := false } }, [0xA5, 0], 2000, by (try unfold Serves); (try dsimp only); first | done | decide +kernel⟩

theorem test_hyp_PacketRoundTrip_0 :
    (∃ op : Nat, ∃ tag : Nat, ∃ flags : Nat, ∃ ecc : Ecc, ∃ p : List Nat, ∃ f : List Nat, (op < 256) ∧ (tag < 256) ∧ (flags < 256) ∧ (p.length ≤ 4096) ∧ ((∀ x ∈ p, x < 256)) ∧ (ecc = .double)) ∧
    (∃ op : Nat, ∃ tag : Nat, ∃ flags : Nat, ∃ ecc : Ecc, ∃ p : List Nat, ∃ f : List Nat, (op < 256) ∧ (tag < 256) ∧ (flags < 256) ∧ (p.length ≤ 4096) ∧ ((∀ x ∈ p, x < 256)) ∧ (ecc ≠ .double) ∧ (flags = 0) ∧ (opcodeKnown op = true) ∧ (layoutOk op p = true)) ∧
    (∃ op : Nat, ∃ tag : Nat, ∃ flags : Nat, ∃ ecc : Ecc, ∃ p : List Nat, ∃ f : List Nat, (op < 256) ∧ (tag < 256) ∧ (flags < 256) ∧ (p.length ≤ 4096) ∧ ((∀ x ∈ p, x < 256)) ∧ (ecc ≠ .double) ∧ (flags = 0) ∧ (opcodeKnown op = true) ∧ (layoutOk op p = false)) ∧
    (∃ op : Nat, ∃ tag : Nat, ∃ flags : Nat, ∃ ecc : Ecc, ∃ p : List Nat, ∃ f : List Nat, (op < 256) ∧ (tag < 256) ∧ (flags < 256) ∧ (p.length ≤ 4096) ∧ ((∀ x ∈ p, x < 256)) ∧ (ecc ≠ .double) ∧ (flags = 0) ∧ (opcodeKnown op = false)) ∧
    (∃ op : Nat, ∃ tag : Nat, ∃ flags : Nat, ∃ ecc : Ecc, ∃ p : List Nat, ∃ f : List Nat, (op < 256) ∧ (tag < 256) ∧ (flags < 256) ∧ (p.length ≤ 4096) ∧ ((∀ x ∈ p, x < 256)) ∧ (ecc ≠ .double) ∧ (flags ≠ 0)) :=
  ⟨⟨0, 0, 0, .double, [], [], by (try unfold Serves); (try dsimp only); first | done | decide +kernel⟩,
    ⟨0, 0, 0, .fine, [], [], by (try unfold Serves); (try dsimp only); first | done | decide +kernel⟩,
    ⟨0, 0, 0, .fine, [1], [], by (try unfold Serves); (try dsimp only); first | done | decide +kernel⟩,
    ⟨0x0F, 0, 0, .fine, [], [], by (try unfold Serves); (try dsimp only); first | done | decide +kernel⟩,
    ⟨0, 0, 1, .fine, [], [], by (try unfold Serves); (try dsimp only); first | done | decide +kernel⟩⟩

theorem test_hyp_ReplyAndKeepaliveEvents_0 :
    ∃ s : State, ∃ r : Reply, (s.now.host.prep = some r) ∧ (s.now.host.prepAt + b2n s.now.host.prepLate ≤ s.now.time.frame) ∧ 
    let busy := s.now.power.state == 3 || (s.now.power.save.isSome && s.now.power.saveKind != 2)
    ∃ n : Nat, ∃ e : Ecc, (2 ≤ n) :=
  ⟨{ live with now := { liveMach with host.prep := some (⟨1, 0, 0, 0, 0, []⟩) } }, ⟨1, 0, 0, 0, 0, []⟩, by (try unfold Serves); (try dsimp only); first | done | decide +kernel, by (try unfold Serves); (try dsimp only); first | done | decide +kernel, 2, .fine, by (try unfold Serves); (try dsimp only); first | done | decide +kernel⟩

theorem test_hyp_ReplyAndKeepaliveEvents_1 :
    ∃ s : State, (s.now.host.keepOn = true) ∧ (s.now.host.keepLeft = 0) :=
  ⟨{ live with now := { liveMach with host.keepOn := true, host.keepLeft := 0 } }, by (try unfold Serves); (try dsimp only); first | done | decide +kernel⟩

theorem test_hyp_SupplyEventsComplete_0 :
    (∃ s : State, ∃ v : Nat, ∃ ms : Nat, (3400 ≤ v) ∧ (10 ≤ ms) ∧ (s.now.start.waiting = true) ∧ (s.now.power.resetHeld = false)) ∧
    (∃ s : State, ∃ v : Nat, ∃ ms : Nat, (3400 ≤ v) ∧ (10 ≤ ms) ∧ (s.now.start.waiting = true) ∧ (s.now.power.resetHeld = true)) :=
  ⟨⟨{ live with now := { liveMach with start.waiting := true, power.resetHeld := false } }, 3400, 10, by (try unfold Serves); (try dsimp only); first | done | decide +kernel⟩,
    ⟨{ live with now := { liveMach with start.waiting := true, power.resetHeld := true } }, 3400, 10, by (try unfold Serves); (try dsimp only); first | done | decide +kernel⟩⟩

theorem test_hyp_SupplyEventsComplete_1 :
    ∃ s : State, ∃ v : Nat, (v < 3300) ∧ (s.now.powered = true) ∧ (s.now.power.saveDone = false) ∧ ((s.now.power.save = none ∨ s.now.power.saveKind = 2)) :=
  ⟨{ live with now := { liveMach with power.on := true, power.saveDone := false } }, 3299, by (try unfold Serves); (try dsimp only); first | done | decide +kernel⟩

theorem test_hyp_SupplyEventsComplete_2 :
    ∃ s : State, ∃ v : Nat, ((s.now.power.on = true ∨ s.now.power.saveDone = true)) ∧ ((v < 2400 ∨ (v < 3200 ∧ (s.now.power.save = none ∨ s.now.power.saveDone = true)))) :=
  ⟨live, 2399, by (try unfold Serves); (try dsimp only); first | done | decide +kernel⟩

theorem test_hyp_SupplyEventsComplete_3 :
    ∃ s : State, ∃ v : Nat, ∃ ms : Nat, (s.now.powered = true) ∧ (3300 ≤ v) ∧ (v < 3600) ∧ (100 ≤ ms) :=
  ⟨{ live with now := { liveMach with power.on := true } }, 3599, 100, by (try unfold Serves); (try dsimp only); first | done | decide +kernel⟩

theorem test_hyp_SupplyEventsComplete_4 :
    ∃ s : State, ∃ v : Nat, (s.now.powered = true) ∧ (7500 < v) :=
  ⟨{ live with now := { liveMach with power.on := true } }, 7501, by (try unfold Serves); (try dsimp only); first | done | decide +kernel⟩

theorem test_hyp_SupplyEventsComplete_5 :
    ∃ s : State, ∃ v : Nat, ∃ ms : Nat, (s.now.powered = true) ∧ ((10000 < v ∨ (7500 < v ∧ 100 ≤ ms))) ∧ (s.now.inForce 0 0x05 = false) ∧ ((s.now.power.save = none ∨ (s.now.power.saveKind = 2 ∧ s.now.power.saveDone = false))) :=
  ⟨{ live with now := { liveMach with power.on := true } }, 10001, 0, by (try unfold Serves); (try dsimp only); first | done | decide +kernel⟩

theorem test_hyp_SupplyEventsComplete_6 :
    ∃ s : State, ∃ v : Nat, ∃ ms : Nat, (s.now.powered = true) ∧ ((10000 < v ∨ (7500 < v ∧ 100 ≤ ms))) ∧ (s.now.inForce 0 0x05 = false) ∧ (s.now.power.save.isSome = true) ∧ ((s.now.power.saveKind ≠ 2 ∨ s.now.power.saveDone = true)) :=
  ⟨{ live with now := { liveMach with power.on := true, power.save := some 5, power.saveKind := 0 } }, 10001, 0, by (try unfold Serves); (try dsimp only); first | done | decide +kernel⟩

theorem test_hyp_SupplyEventsComplete_7 :
    ∃ s : State, ∃ v : Nat, ∃ ms : Nat, (s.now.powered = true) ∧ (1000 ≤ ms) :=
  ⟨{ live with now := { liveMach with power.on := true } }, 0, 1000, by (try unfold Serves); (try dsimp only); first | done | decide +kernel⟩

theorem test_hyp_SupplyEventsComplete_8 :
    ∃ s : State, ∃ v : Nat, ∃ ms : Nat, (s.now.power.saveDone = true) ∧ (((s.now.power.saveKind ≠ 2 ∧ 3400 ≤ v ∧ v ≤ 7500 ∧ (if s.now.power.saveKind = 1 then 1000 else 10) ≤ ms) ∨ (s.now.power.saveKind = 2 ∧ (s.now.host.resetGo = true ∨ 100 ≤ ms)))) :=
  ⟨{ live with now := { liveMach with power.saveDone := true, power.saveKind := 0 } }, 3400, 10, by (try unfold Serves); (try dsimp only); first | done | decide +kernel⟩

theorem test_hyp_StateSaveCompletes_1 :
    (∃ s : State, ∃ us : Nat, (s.now.power.save.isSome = true) ∧ (s.now.power.saveDone = false) ∧ (s.now.power.saveKind = 2 ∨ (s.now.power.saveKind = 0 ∧ 3200 ≤ s.now.power.vin))) ∧
    (∃ s : State, ∃ us : Nat, (s.now.power.save.isSome = true) ∧ (s.now.power.saveDone = false) ∧ (s.now.power.saveKind = 1)) ∧
    (∃ s : State, ∃ us : Nat, (s.now.power.save.isSome = true) ∧ (s.now.power.saveDone = false) ∧ (s.now.power.saveKind = 0) ∧ (s.now.power.vin < 3200)) :=
  ⟨⟨{ live with now := { liveMach with power.saveDone := false, power.saveKind := 2, power.save := some 5 } }, 0, by (try unfold Serves); (try dsimp only); first | done | decide +kernel⟩,
    ⟨{ live with now := { liveMach with power.saveDone := false, power.saveKind := 1, power.save := some 5 } }, 0, by (try unfold Serves); (try dsimp only); first | done | decide +kernel⟩,
    ⟨{ live with now := { liveMach with power.saveDone := false, power.saveKind := 0, power.save := some 5, power.vin := 3199 } }, 0, by (try unfold Serves); (try dsimp only); first | done | decide +kernel⟩⟩

theorem test_hyp_ResetInputsComplete_0 :
    ∃ s : State, ∃ us : Nat, (10 ≤ us) :=
  ⟨live, 10, by (try unfold Serves); (try dsimp only); first | done | decide +kernel⟩

theorem test_hyp_ResetInputsComplete_1 :
    (∃ s : State, (s.now.power.resetHeld = true) ∧ 
    let m1 : Mach := { s.now with power.resetHeld := false }
    (s.now.power.on = true)) ∧
    (∃ s : State, (s.now.power.resetHeld = true) ∧ 
    let m1 : Mach := { s.now with power.resetHeld := false }
    (s.now.power.on = false)) :=
  ⟨⟨{ live with now := { liveMach with power.resetHeld := true, power.on := true } }, by (try unfold Serves); (try dsimp only); first | done | decide +kernel⟩,
    ⟨{ live with now := { liveMach with power.resetHeld := true, power.on := false } }, by (try unfold Serves); (try dsimp only); first | done | decide +kernel⟩⟩

theorem test_hyp_ResetInputsComplete_2 :
    (∃ s : State, ∃ tag : Nat, (Serves s 0x03) ∧ ((s.now.still = false ∨ s.now.inRun = true))) ∧
    (∃ s : State, ∃ tag : Nat, (Serves s 0x03) ∧ (s.now.still = true) ∧ (s.now.inRun = false)) :=
  ⟨⟨{ live with now := { liveMach with pos.est.d.still := 0 } }, 0, by (try unfold Serves); (try dsimp only); first | done | decide +kernel⟩,
    ⟨live, 0, by (try unfold Serves); (try dsimp only); first | done | decide +kernel⟩⟩

theorem test_hyp_RailTemperatureAndSensorSupplies_0 :
    ∃ s : State, ∃ n : Nat, (s.now.powered = true) ∧ (2 ≤ n) :=
  ⟨{ live with now := { liveMach with power.on := true } }, 2, by (try unfold Serves); (try dsimp only); first | done | decide +kernel⟩

theorem test_hyp_RailTemperatureAndSensorSupplies_1 :
    (∃ s : State, ∃ t : Int, (s.now.powered = true) ∧ 
    let lim : Int := if Config.partX then 1200 else 1050
    (lim ≤ t)) ∧
    (∃ s : State, ∃ t : Int, (s.now.powered = true) ∧ 
    let lim : Int := if Config.partX then 1200 else 1050
    (t < lim - 100)) ∧
    (∃ s : State, ∃ t : Int, (s.now.powered = true) ∧ 
    let lim : Int := if Config.partX then 1200 else 1050
    (lim - 100 ≤ t) ∧ (t < lim)) :=
  ⟨⟨{ live with now := { liveMach with power.on := true } }, 1200, by (try dsimp only); refine ⟨by decide +kernel, ?_⟩; split <;> decide⟩,
    ⟨{ live with now := { liveMach with power.on := true } }, 0, by (try dsimp only); refine ⟨by decide +kernel, ?_⟩; split <;> decide⟩,
    ⟨{ live with now := { liveMach with power.on := true } }, (if Config.partX then 1200 else 1050) - 1, by (try dsimp only); refine ⟨by decide +kernel, ?_⟩; split <;> decide⟩⟩

theorem test_hyp_RailTemperatureAndSensorSupplies_2 :
    (∃ s : State, ∃ o : Nat, ∃ ms : Nat, (s.now.powered = true) ∧ (o < 3) ∧ (10 ≤ ms) ∧ ((nth s.now.power.sup o (true, 0)).1 = true) ∧ 
    let m1 : Mach := { s.now with power.sup := updAt s.now.power.sup o fun _ => (false, s.now.time.frame) }
    (o = 0)) ∧
    (∃ s : State, ∃ o : Nat, ∃ ms : Nat, (s.now.powered = true) ∧ (o < 3) ∧ (10 ≤ ms) ∧ ((nth s.now.power.sup o (true, 0)).1 = true) ∧ 
    let m1 : Mach := { s.now with power.sup := updAt s.now.power.sup o fun _ => (false, s.now.time.frame) }
    (o ≠ 0)) :=
  ⟨⟨{ live with now := { liveMach with power.on := true, power.sup := [(true, 0), (true, 0), (true, 0)] } }, 0, 10, by (try unfold Serves); (try dsimp only); first | done | decide +kernel⟩,
    ⟨{ live with now := { liveMach with power.on := true } }, 1, 10, by (try unfold Serves); (try dsimp only); first | done | decide +kernel⟩⟩

theorem test_hyp_RailTemperatureAndSensorSupplies_3 :
    ∃ s : State, ∃ o : Nat, (s.now.powered = true) ∧ ((nth s.now.power.sup o (true, 0)).1 = false) ∧ (4000 ≤ s.now.time.frame - (nth s.now.power.sup o (true, 0)).2) :=
  ⟨{ live with now := { liveMach with power.on := true, power.sup := [(false, 0), (true, 0), (true, 0)] } }, 0, by (try unfold Serves); (try dsimp only); first | done | decide +kernel⟩

theorem test_hyp_SleepCommandsComplete_0 :
    ∃ s : State, ∃ src : WakeSource, (s.now.canWake = true) ∧ (s.now.wakesModule src = true) :=
  ⟨{ live with now := { liveMach with power.state := 1 } }, .hostSelect, by (try unfold Serves); (try dsimp only); first | done | decide +kernel⟩

theorem test_hyp_SleepCommandsComplete_2 :
    ∃ s : State, (s.now.canWake = true) ∧ (s.now.fits s.now.power.state s.now.nextKnown = false) :=
  ⟨{ live with now := { (liveMach.putI 0 pSCHED_MODE 2) with power.state := 3, rcd.scrubPos := scrubWords } }, by (try unfold Serves); (try dsimp only); first | done | decide +kernel⟩

theorem test_hyp_SleepCommandsComplete_3 :
    (∃ s : State, ∃ tag : Nat, ∃ es : List SetEntry, (Serves s 0xB0) ∧ ((es = [] ∨ 64 < es.length))) ∧
    (∃ s : State, ∃ tag : Nat, ∃ es : List SetEntry, (Serves s 0xB0) ∧ (es ≠ []) ∧ (es.length ≤ 64) ∧ ((∀ e ∈ es, s.now.setStatus 0 e = 0 ∧ pSLEEP_MAX_STATE ≤ e.id ∧ e.id ≤ pDOOR_RECHECK_PERIOD)) ∧ (s.now.exists 0 = true)) ∧
    (∃ s : State, ∃ tag : Nat, ∃ es : List SetEntry, (Serves s 0xB0) ∧ (es ≠ []) ∧ (es.length ≤ 64) ∧ ((∃ e ∈ es, s.now.setStatus 0 e ≠ 0 ∨ e.id < pSLEEP_MAX_STATE ∨ pDOOR_RECHECK_PERIOD < e.id)) ∧ (s.now.exists 0 = true)) :=
  ⟨⟨live, 0, [], by (try unfold Serves); (try dsimp only); first | done | decide +kernel⟩,
    ⟨live, 0, [⟨pSLEEP_MAX_STATE, [1]⟩], by (try unfold Serves); (try dsimp only); first | done | decide +kernel⟩,
    ⟨live, 0, [⟨pHOME_TOL, [0, 0]⟩], by (try unfold Serves); (try dsimp only); first | done | decide +kernel⟩⟩

theorem test_hyp_SleepCommandsComplete_4 :
    ∃ s : State, ∃ tag : Nat, (Serves s 0xB1) :=
  ⟨live, 0, by (try unfold Serves); (try dsimp only); first | done | decide +kernel⟩

theorem test_hyp_AttestationComplete_0 :
    (∃ s : State, ∃ tag : Nat, ∃ nonce : List Nat, (Serves s 0x90) ∧ 
    let begun : Mach := { s.now with
      sec.report := none
      sec.attest := some ⟨nonce, s.now.attestBody s.shown nonce, tag, s.now.time.frame⟩ }
    ∃ b, (s.now.sec.report = some (nonce, b))) ∧
    (∃ s : State, ∃ tag : Nat, ∃ nonce : List Nat, (Serves s 0x90) ∧ 
    let begun : Mach := { s.now with
      sec.report := none
      sec.attest := some ⟨nonce, s.now.attestBody s.shown nonce, tag, s.now.time.frame⟩ }
    ∃ n, ∃ b, (s.now.sec.report = some (n, b)) ∧ (n ≠ nonce)) ∧
    (∃ s : State, ∃ tag : Nat, ∃ nonce : List Nat, (Serves s 0x90) ∧ 
    let begun : Mach := { s.now with
      sec.report := none
      sec.attest := some ⟨nonce, s.now.attestBody s.shown nonce, tag, s.now.time.frame⟩ }
    (s.now.sec.report = none) ∧ (s.now.sec.attest.isSome = true)) ∧
    (∃ s : State, ∃ tag : Nat, ∃ nonce : List Nat, (Serves s 0x90) ∧ 
    let begun : Mach := { s.now with
      sec.report := none
      sec.attest := some ⟨nonce, s.now.attestBody s.shown nonce, tag, s.now.time.frame⟩ }
    (s.now.sec.report = none) ∧ (s.now.sec.attest = none)) :=
  ⟨⟨{ live with now := { liveMach with sec.report := some ([1], [2]) } }, 0, [1], by (try unfold Serves); (try dsimp only); first | done | decide +kernel, [2], by (try unfold Serves); (try dsimp only); first | done | decide +kernel⟩,
    ⟨{ live with now := { liveMach with sec.report := some ([3], [2]) } }, 0, [1], by (try unfold Serves); (try dsimp only); first | done | decide +kernel, [3], [2], by (try unfold Serves); (try dsimp only); first | done | decide +kernel⟩,
    ⟨{ live with now := { liveMach with sec.report := none, sec.attest := some ⟨[], [], 0, 0⟩ } }, 0, [], by (try unfold Serves); (try dsimp only); first | done | decide +kernel⟩,
    ⟨{ live with now := { liveMach with sec.report := none, sec.attest := none } }, 0, [], by (try unfold Serves); (try dsimp only); first | done | decide +kernel⟩⟩

theorem test_hyp_AttestationComplete_1 :
    ∃ s : State, ∃ r : AttestRun, (s.now.sec.attest = some r) :=
  ⟨{ live with now := { liveMach with sec.attest := some (⟨[], [], 0, 0⟩) } }, ⟨[], [], 0, 0⟩, by (try unfold Serves); (try dsimp only); first | done | decide +kernel⟩

theorem test_hyp_AttestationComplete_2 :
    (∃ s : State, ∃ tag : Nat, ∃ i : Nat, (Serves s 0x91) ∧ (2 < i)) ∧
    (∃ s : State, ∃ tag : Nat, ∃ i : Nat, (Serves s 0x91) ∧ (i ≤ 2)) :=
  ⟨⟨live, 0, 3, by (try unfold Serves); (try dsimp only); first | done | decide +kernel⟩,
    ⟨live, 0, 2, by (try unfold Serves); (try dsimp only); first | done | decide +kernel⟩⟩

theorem test_hyp_FirmwareTransferAnswered_0 :
    (∃ s : State, ∃ tag : Nat, ∃ k : Nat, ∃ n : Nat, (Serves s 0x92) ∧ (s.now.session = false)) ∧
    (∃ s : State, ∃ tag : Nat, ∃ k : Nat, ∃ n : Nat, (Serves s 0x92) ∧ (s.now.session = true) ∧ (s.now.installing = true)) ∧
    (∃ s : State, ∃ tag : Nat, ∃ k : Nat, ∃ n : Nat, (Serves s 0x92) ∧ (s.now.session = true) ∧ (s.now.installing = false) ∧ ((2 < k ∨ n < 1281 ∨ 1280 + bodyMax k < n))) ∧
    (∃ s : State, ∃ tag : Nat, ∃ k : Nat, ∃ n : Nat, (Serves s 0x92) ∧ (s.now.session = true) ∧ (s.now.installing = false) ∧ (k = 1) ∧ (1281 ≤ n) ∧ (n ≤ 1280 + bodyMax k) ∧ ((s.now.ap s.now.apOf.other).role = 5)) ∧
    (∃ s : State, ∃ tag : Nat, ∃ k : Nat, ∃ n : Nat, (Serves s 0x92) ∧ (s.now.session = true) ∧ (s.now.installing = false) ∧ (k ≤ 2) ∧ (1281 ≤ n) ∧ (n ≤ 1280 + bodyMax k) ∧ ((k = 1 → (s.now.ap s.now.apOf.other).role ≠ 5))) :=
  ⟨⟨{ live with now := { liveMach with cab.session := none } }, 0, 0, 0, by (try unfold Serves); (try dsimp only); first | done | decide +kernel⟩,
    ⟨{ live with now := { liveMach with cab.session := some 0, sec.fw := some ⟨0, 0, 0, [], 0, false, 3, 0⟩ } }, 0, 0, 0, by (try unfold Serves); (try dsimp only); first | done | decide +kernel⟩,
    ⟨{ live with now := { liveMach with cab.session := some 0 } }, 0, 0, 1280, by (try unfold Serves); (try dsimp only); first | done | decide +kernel⟩,
    ⟨{ live with now := { liveMach with cab.session := some 0, pair.aps.b.role := 5 } }, 0, 1, 1281, by (try unfold Serves); (try dsimp only); first | done | decide +kernel⟩,
    ⟨{ live with now := { liveMach with cab.session := some 0 } }, 0, 0, 1281, by (try unfold Serves); (try dsimp only); first | done | decide +kernel⟩⟩

theorem test_hyp_FirmwareTransferAnswered_1 :
    (∃ s : State, ∃ tag : Nat, ∃ o : Nat, ∃ d : List Nat, (Serves s 0x93) ∧ (s.now.sec.fw = none)) ∧
    (∃ s : State, ∃ tag : Nat, ∃ o : Nat, ∃ d : List Nat, (Serves s 0x93) ∧ ∃ w, (s.now.sec.fw = some w) ∧ (w.phase ≠ 1)) ∧
    (∃ s : State, ∃ tag : Nat, ∃ o : Nat, ∃ d : List Nat, (Serves s 0x93) ∧ ∃ w, (s.now.sec.fw = some w) ∧ (w.phase = 1) ∧ (w.writing = true)) ∧
    (∃ s : State, ∃ tag : Nat, ∃ o : Nat, ∃ d : List Nat, (Serves s 0x93) ∧ ∃ w, (s.now.sec.fw = some w) ∧ (w.phase = 1) ∧ (w.writing = false) ∧ (o = w.data.length) ∧ (w.data.length + d.length ≤ w.len)) ∧
    (∃ s : State, ∃ tag : Nat, ∃ o : Nat, ∃ d : List Nat, (Serves s 0x93) ∧ ∃ w, (s.now.sec.fw = some w) ∧ (w.phase = 1) ∧ (w.writing = false) ∧ (o < w.data.length) ∧ ((w.data.drop o).take d.length = d)) ∧
    (∃ s : State, ∃ tag : Nat, ∃ o : Nat, ∃ d : List Nat, (Serves s 0x93) ∧ ∃ w, (s.now.sec.fw = some w) ∧ (w.phase = 1) ∧ (w.writing = false) ∧ (¬ (o = w.data.length ∧ w.data.length + d.length ≤ w.len)) ∧ (¬ (o < w.data.length ∧ (w.data.drop o).take d.length = d))) :=
  ⟨⟨{ live with now := { liveMach with sec.fw := none } }, 0, 2, [3], by (try unfold Serves); (try dsimp only); first | done | decide +kernel⟩,
    ⟨{ live with now := { liveMach with sec.fw := some (⟨0, 0, 5, [1, 2], 0, false, 2, 0⟩) } }, 0, 2, [3], by (try unfold Serves); (try dsimp only); first | done | decide +kernel, ⟨0, 0, 5, [1, 2], 0, false, 2, 0⟩, by (try unfold Serves); (try dsimp only); first | done | decide +kernel⟩,
    ⟨{ live with now := { liveMach with sec.fw := some (⟨0, 0, 5, [1, 2], 0, true, 1, 0⟩) } }, 0, 2, [3], by (try unfold Serves); (try dsimp only); first | done | decide +kernel, ⟨0, 0, 5, [1, 2], 0, true, 1, 0⟩, by (try unfold Serves); (try dsimp only); first | done | decide +kernel⟩,
    ⟨{ live with now := { liveMach with sec.fw := some (⟨0, 0, 5, [1, 2], 0, false, 1, 0⟩) } }, 0, 2, [3], by (try unfold Serves); (try dsimp only); first | done | decide +kernel, ⟨0, 0, 5, [1, 2], 0, false, 1, 0⟩, by (try unfold Serves); (try dsimp only); first | done | decide +kernel⟩,
    ⟨{ live with now := { liveMach with sec.fw := some (⟨0, 0, 5, [1, 2], 0, false, 1, 0⟩) } }, 0, 1, [2], by (try unfold Serves); (try dsimp only); first | done | decide +kernel, ⟨0, 0, 5, [1, 2], 0, false, 1, 0⟩, by (try unfold Serves); (try dsimp only); first | done | decide +kernel⟩,
    ⟨{ live with now := { liveMach with sec.fw := some (⟨0, 0, 5, [1, 2], 0, false, 1, 0⟩) } }, 0, 3, [3], by (try unfold Serves); (try dsimp only); first | done | decide +kernel, ⟨0, 0, 5, [1, 2], 0, false, 1, 0⟩, by (try unfold Serves); (try dsimp only); first | done | decide +kernel⟩⟩

theorem test_hyp_FirmwareTransferAnswered_2 :
    (∃ s : State, ∃ tag : Nat, (Serves s 0x94) ∧ (s.now.session = false)) ∧
    (∃ s : State, ∃ tag : Nat, (Serves s 0x94) ∧ (s.now.session = true) ∧ (s.now.sec.fw = none)) ∧
    (∃ s : State, ∃ tag : Nat, (Serves s 0x94) ∧ ∃ w, (s.now.session = true) ∧ (s.now.sec.fw = some w) ∧ ((w.phase ≠ 1 ∨ w.data.length ≠ w.len))) ∧
    (∃ s : State, ∃ tag : Nat, (Serves s 0x94) ∧ ∃ w, (s.now.session = true) ∧ (s.now.sec.fw = some w) ∧ (w.phase = 1) ∧ (w.data.length = w.len) ∧ ((w.kind ≠ 1 ∨ hdrCompat w.data ≠ s.now.holderCompat ∨ s.now.reloadable w.target = false)) ∧ ((s.now.sched.inService = true ∨ s.now.still = false ∨ s.now.inRun = true))) ∧
    (∃ s : State, ∃ tag : Nat, (Serves s 0x94) ∧ ∃ w, (s.now.session = true) ∧ (s.now.sec.fw = some w) ∧ (w.phase = 1) ∧ (w.data.length = w.len) ∧ ((w.kind = 1 ∧ hdrCompat w.data = s.now.holderCompat ∧ s.now.reloadable w.target = true) ∨ (s.now.sched.inService = false ∧ s.now.still = true ∧ s.now.inRun = false))) :=
  ⟨⟨{ live with now := { liveMach with cab.session := none } }, 0, by (try unfold Serves); (try dsimp only); first | done | decide +kernel⟩,
    ⟨{ live with now := { liveMach with cab.session := some 0, sec.fw := none } }, 0, by (try unfold Serves); (try dsimp only); first | done | decide +kernel⟩,
    ⟨{ live with now := { liveMach with cab.session := some 0, sec.fw := some (⟨0, 0, 5, [1, 2], 0, false, 1, 0⟩) } }, 0, by (try unfold Serves); (try dsimp only); first | done | decide +kernel, ⟨0, 0, 5, [1, 2], 0, false, 1, 0⟩, by (try unfold Serves); (try dsimp only); first | done | decide +kernel⟩,
    ⟨{ live with now := { liveMach with cab.session := some 0, sec.fw := some (⟨0, 0, 2, [1, 2], 0, false, 1, 0⟩) } }, 0, by (try unfold Serves); (try dsimp only); first | done | decide +kernel, ⟨0, 0, 2, [1, 2], 0, false, 1, 0⟩, by (try unfold Serves); (try dsimp only); first | done | decide +kernel⟩,
    ⟨{ live with now := { liveMach with cab.session := some 0, sec.fw := some (⟨0, 0, 2, [1, 2], 0, false, 1, 0⟩), sched.inService := false } }, 0, by (try unfold Serves); (try dsimp only); first | done | decide +kernel, ⟨0, 0, 2, [1, 2], 0, false, 1, 0⟩, by (try unfold Serves); (try dsimp only); first | done | decide +kernel⟩⟩

theorem test_hyp_FirmwareTransferAnswered_3 :
    ∃ s : State, ∃ w : FwRun, (s.now.sec.fw = some w) ∧ (w.writing = true) :=
  ⟨{ live with now := { liveMach with sec.fw := some (⟨0, 0, 5, [1, 2], 0, true, 1, 0⟩) } }, ⟨0, 0, 5, [1, 2], 0, true, 1, 0⟩, by (try unfold Serves); (try dsimp only); first | done | decide +kernel⟩

theorem test_hyp_FirmwareTransferAnswered_4 :
    ∃ s : State, ∃ w : FwRun, (s.now.sec.fw = some w) ∧ (w.phase = 1) ∧ (7200000 ≤ s.now.time.frame - w.last) :=
  ⟨{ live with now := { liveMach with sec.fw := some (⟨0, 0, 5, [1, 2], 0, false, 1, 0⟩) } }, ⟨0, 0, 5, [1, 2], 0, false, 1, 0⟩, by (try unfold Serves); (try dsimp only); first | done | decide +kernel⟩

theorem test_hyp_ImagesVerified_0 :
    ∃ s : State, ∃ w : FwRun, (s.now.sec.fw = some w) ∧ (w.phase = 2) ∧ (w.writing = false) :=
  ⟨{ live with now := { liveMach with sec.fw := some (⟨0, 0, 5, [1, 2], 0, false, 2, 0⟩) } }, ⟨0, 0, 5, [1, 2], 0, false, 2, 0⟩, by (try unfold Serves); (try dsimp only); first | done | decide +kernel⟩

theorem test_hyp_ImagesVerified_1 :
    ∃ s : State, ∃ cores : Three CoreBoot, (s.now.booting 0 = true) :=
  ⟨{ live with now := { liveMach with triad.mails := ⟨false, false, false⟩ } }, ⟨.asStored, .asStored, .asStored⟩, by (try unfold Serves); (try dsimp only); first | done | decide +kernel⟩

theorem test_hyp_ImagesVerified_2 :
    (∃ s : State, ∃ cores : Three CoreBoot, (s.now.booting 3 = true) ∧ ∃ slot, (s.now.bootSlot 3 = some slot)) ∧
    (∃ s : State, ∃ cores : Three CoreBoot, (s.now.booting 3 = true) ∧ (s.now.bootSlot 3 = none)) :=
  ⟨⟨{ live with now := { liveMach with field.booted := false } }, ⟨.asStored, .asStored, .asStored⟩, by (try unfold Serves); (try dsimp only); first | done | decide +kernel, 0, by (try unfold Serves); (try dsimp only); first | done | decide +kernel⟩,
    ⟨{ live with now := { liveMach with field.booted := false, sec.store := [] } }, ⟨.asStored, .asStored, .asStored⟩, by (try unfold Serves); (try dsimp only); first | done | decide +kernel⟩⟩

theorem test_hyp_ImagesVerified_3 :
    ∃ s : State, ∃ cores : Three CoreBoot, ∃ t : Nat, ∃ slot : Nat, ((t = 1 ∨ t = 2)) ∧ (s.now.booting t = true) ∧ (s.now.bootSlot (1 + (abOf (t - 1)).idx) = some slot) :=
  ⟨{ live with now := { liveMach with pair.aps.a.role := 1, pair.aps.a.booted := false } }, ⟨.asStored, .asStored, .asStored⟩, 1, 0, by (try unfold Serves); (try dsimp only); first | done | decide +kernel⟩

theorem test_hyp_ImagesVerified_4 :
    ∃ s : State, ∃ cores : Three CoreBoot, ∃ t : Nat, ((t = 1 ∨ t = 2)) ∧ (s.now.booting t = true) ∧ (s.now.bootSlot (1 + (abOf (t - 1)).idx) = none) :=
  ⟨{ live with now := { liveMach with pair.aps.b.role := 1, pair.aps.b.booted := false, sec.store := [] } }, ⟨.asStored, .asStored, .asStored⟩, 2, by (try unfold Serves); (try dsimp only); first | done | decide +kernel⟩

theorem test_hyp_StartupStepsComplete_0 :
    (∃ s : State, (s.now.powered = true) ∧ (s.now.stepDone = true) ∧ (s.now.stepBlocked = false) ∧ 
    let next (k : Nat) : Mach := { s.now with start.step := k, start.blockedAt := none, start.block := 0 }
    (s.now.start.step = 5)) ∧
    (∃ s : State, (s.now.powered = true) ∧ (s.now.stepDone = true) ∧ (s.now.stepBlocked = false) ∧ 
    let next (k : Nat) : Mach := { s.now with start.step := k, start.blockedAt := none, start.block := 0 }
    (s.now.start.step = 3)) ∧
    (∃ s : State, (s.now.powered = true) ∧ (s.now.stepDone = true) ∧ (s.now.stepBlocked = false) ∧ 
    let next (k : Nat) : Mach := { s.now with start.step := k, start.blockedAt := none, start.block := 0 }
    (s.now.start.step ≠ 5) ∧ (s.now.start.step ≠ 3)) :=
  ⟨⟨{ live with now := { liveMach with power.on := true, start.step := 5, triad.mails := ⟨false, false, false⟩ } }, by (try unfold Serves); (try dsimp only); first | done | decide +kernel⟩,
    ⟨{ live with now := { liveMach with power.on := true, start.step := 3, link.dnGood := 16, link.upGood := 16, field.sawSync := true } }, by (try unfold Serves); (try dsimp only); first | done | decide +kernel⟩,
    ⟨{ live with now := { liveMach with power.on := true, start.step := 1 } }, by (try unfold Serves); (try dsimp only); first | done | decide +kernel⟩⟩

theorem test_hyp_StartupStepsComplete_3 :
    (∃ s : State, (s.now.powered = true) ∧ (1 ≤ s.now.start.step) ∧ (s.now.start.step ≤ 5) ∧ ((s.now.time.running = false ∨ ((1000 * stepDeadline s.now.start.step : Nat) : Int) ≤ s.now.elapsedUs)) ∧ ((s.now.start.step = 5 ∧ s.now.pair.aps.a.booted = false ∧ s.now.pair.aps.b.booted = false))) ∧
    (∃ s : State, (s.now.powered = true) ∧ (1 ≤ s.now.start.step) ∧ (s.now.start.step ≤ 5) ∧ ((s.now.time.running = false ∨ ((1000 * stepDeadline s.now.start.step : Nat) : Int) ≤ s.now.elapsedUs)) ∧ ((s.now.start.step ≠ 5 ∨ s.now.pair.aps.a.booted = true ∨ s.now.pair.aps.b.booted = true))) :=
  ⟨⟨{ live with now := { liveMach with power.on := true, start.step := 5, pair.aps.a.booted := false, time.running := false } }, by (try unfold Serves); (try dsimp only); first | done | decide +kernel⟩,
    ⟨{ live with now := { liveMach with power.on := true, start.step := 4 } }, by (try unfold Serves); (try dsimp only); first | done | decide +kernel⟩⟩

theorem test_hyp_StartupStepsComplete_5 :
    ∃ s : State, (s.now.granting = true) ∧ (1000000 ≤ s.now.elapsedUs) ∧ (s.now.qualifies s.now.preferred = false) ∧ (s.now.qualifies s.now.preferred.other = true) :=
  ⟨{ live with now := { liveMach with start.step := 5, pair.holder := none, pair.aps.b.role := 1, pair.aps.b.booted := true, pos.est.e.inited := true } }, by (try unfold Serves); (try dsimp only); first | done | decide +kernel⟩

theorem test_hyp_FrameTickRuns_0 :
    (∃ s : State, ∃ inp : FrameIn, 
    let m := s.now.deliver
    
    let n := m.frame s.shown inp
    (s.now.ticks = true)) ∧
    (∃ s : State, ∃ inp : FrameIn, 
    let m := s.now.deliver
    
    let n := m.frame s.shown inp
    (s.now.ticks = false) ∧ (s.now.power.saveDone = true)) ∧
    (∃ s : State, ∃ inp : FrameIn, 
    let m := s.now.deliver
    
    let n := m.frame s.shown inp
    (s.now.ticks = false) ∧ (s.now.power.saveDone = false)) :=
  ⟨⟨live, quiet, by (try unfold Serves); (try dsimp only); first | done | decide +kernel⟩,
    ⟨{ live with now := { liveMach with power.saveDone := true } }, quiet, by (try unfold Serves); (try dsimp only); first | done | decide +kernel⟩,
    ⟨{ live with now := { liveMach with power.saveDone := false, power.on := false } }, quiet, by (try unfold Serves); (try dsimp only); first | done | decide +kernel⟩⟩

theorem test_hyp_FrameTickRuns_2 :
    (∃ m : Mach, ∃ n : Mach, (n.cab.gen = m.cab.gen)) ∧
    (∃ m : Mach, ∃ n : Mach, (n.cab.gen ≠ m.cab.gen)) :=
  ⟨⟨liveMach, live.now, by (try unfold Serves); (try dsimp only); first | done | decide +kernel⟩,
    ⟨liveMach, { liveMach with cab.gen := 1 }, by (try unfold Serves); (try dsimp only); first | done | decide +kernel⟩⟩

theorem test_hyp_FrameTickRuns_4 :
    ∃ m : Mach, (m.time.running = true) :=
  ⟨liveMach, by (try unfold Serves); (try dsimp only); first | done | decide +kernel⟩

theorem test_hyp_UnitReadsAnswered_0 :
    (∃ s : State, ∃ tag : Nat, ∃ f : Nat, ∃ n : Nat, (Serves s 0x10) ∧ ((n < 1 ∨ 255 < n))) ∧
    (∃ s : State, ∃ tag : Nat, ∃ f : Nat, ∃ n : Nat, (Serves s 0x10) ∧ (1 ≤ n) ∧ (n ≤ 255)) :=
  ⟨⟨live, 0, 0, 0, by (try unfold Serves); (try dsimp only); first | done | decide +kernel⟩,
    ⟨live, 0, 0, 255, by (try unfold Serves); (try dsimp only); first | done | decide +kernel⟩⟩

theorem test_hyp_UnitReadsAnswered_1 :
    (∃ s : State, ∃ tag : Nat, ∃ h : Nat, ∃ ids : List Nat, (Serves s 0x11) ∧ ((ids = [] ∨ 64 < ids.length))) ∧
    (∃ s : State, ∃ tag : Nat, ∃ h : Nat, ∃ ids : List Nat, (Serves s 0x11) ∧ (ids ≠ []) ∧ (ids.length ≤ 64) ∧ (s.shown.exists h = false)) ∧
    (∃ s : State, ∃ tag : Nat, ∃ h : Nat, ∃ ids : List Nat, (Serves s 0x11) ∧ (ids ≠ []) ∧ (ids.length ≤ 64) ∧ (s.shown.exists h = true)) :=
  ⟨⟨live, 0, 0, [], by (try unfold Serves); (try dsimp only); first | done | decide +kernel⟩,
    ⟨live, 0, 0x2000, [1], by (try unfold Serves); (try dsimp only); first | done | decide +kernel⟩,
    ⟨live, 0, 0, [1], by (try unfold Serves); (try dsimp only); first | done | decide +kernel⟩⟩

theorem test_hyp_UnitSetAllOrNothing_0 :
    (∃ s : State, ∃ tag : Nat, ∃ h : Nat, ∃ es : List SetEntry, (Serves s 0x12) ∧ ((es = [] ∨ 64 < es.length))) ∧
    (∃ s : State, ∃ tag : Nat, ∃ h : Nat, ∃ es : List SetEntry, (Serves s 0x12) ∧ (es ≠ []) ∧ (es.length ≤ 64) ∧ (s.now.exists h = false)) ∧
    (∃ s : State, ∃ tag : Nat, ∃ h : Nat, ∃ es : List SetEntry, (Serves s 0x12) ∧ (es ≠ []) ∧ (es.length ≤ 64) ∧ (s.now.exists h = true) ∧ (h ≠ 0x0300) ∧ ((h < 0x0100 ∨ 0x013F < h)) ∧ ((∀ e ∈ es, e.id ≠ idSTATUS_WORD)) ∧ ((∀ e ∈ es, s.now.setStatus h e = 0 ∧ s.now.busEntry h es e = 0))) ∧
    (∃ s : State, ∃ tag : Nat, ∃ h : Nat, ∃ es : List SetEntry, (Serves s 0x12) ∧ (es ≠ []) ∧ (es.length ≤ 64) ∧ (s.now.exists h = true) ∧ (h ≠ 0x0300) ∧ ((h < 0x0100 ∨ 0x013F < h)) ∧ ((∀ e ∈ es, e.id ≠ idSTATUS_WORD)) ∧ ((∃ e ∈ es, s.now.setStatus h e ≠ 0 ∨ s.now.busEntry h es e ≠ 0))) :=
  ⟨⟨live, 0, 0, [], by (try unfold Serves); (try dsimp only); first | done | decide +kernel⟩,
    ⟨live, 0, 0x2000, [⟨1, [0]⟩], by (try unfold Serves); (try dsimp only); first | done | decide +kernel⟩,
    ⟨live, 0, 0, [⟨pEVT_MASK, [0, 0]⟩], by (try unfold Serves); (try dsimp only); first | done | decide +kernel⟩,
    ⟨live, 0, 0, [⟨0x0FFF, [0]⟩], by (try unfold Serves); (try dsimp only); first | done | decide +kernel⟩⟩

theorem test_hyp_SystemUnitsRefuseEnable_0 :
    (∃ s : State, ∃ tag : Nat, ∃ h : Nat, ((h = 0 ∨ h = 0x0500 ∨ h = 0x0600 ∨ (0x0700 ≤ h ∧ h ≤ 0x07FF))) ∧ (s.now.exists h = true) ∧ (Serves s 0x13)) ∧
    (∃ s : State, ∃ tag : Nat, ∃ h : Nat, ((h = 0 ∨ h = 0x0500 ∨ h = 0x0600 ∨ (0x0700 ≤ h ∧ h ≤ 0x07FF))) ∧ (s.now.exists h = true) ∧ (Serves s 0x14)) :=
  ⟨⟨live, 0, 0, by (try unfold Serves); (try dsimp only); first | done | decide +kernel⟩,
    ⟨live, 0, 0, by (try unfold Serves); (try dsimp only); first | done | decide +kernel⟩⟩

theorem test_hyp_UnitEnableActs_0 :
    (∃ s : State, ∃ tag : Nat, ∃ h : Nat, (s.now.exists h = false) ∧ (Serves s 0x13)) ∧
    (∃ s : State, ∃ tag : Nat, ∃ h : Nat, (s.now.exists h = false) ∧ (Serves s 0x14)) :=
  ⟨⟨live, 0, 0x2000, by (try unfold Serves); (try dsimp only); first | done | decide +kernel⟩,
    ⟨live, 0, 0x2000, by (try unfold Serves); (try dsimp only); first | done | decide +kernel⟩⟩

theorem test_hyp_UnitEnableActs_1 :
    (∃ s : State, ∃ tag : Nat, ∃ h : Nat, ∃ op : Nat, ∃ on : Bool, ∃ cmd : Instr, (s.now.exists h = true) ∧ (h < 0x2000) ∧ (Serves s op) ∧ (((op = 0x13 ∧ on = true ∧ cmd = .unitEnable tag h) ∨ (op = 0x14 ∧ on = false ∧ cmd = .unitDisable tag h))) ∧ 
    let st := s.now.enableStatus h on
    (1 < st)) ∧
    (∃ s : State, ∃ tag : Nat, ∃ h : Nat, ∃ op : Nat, ∃ on : Bool, ∃ cmd : Instr, (s.now.exists h = true) ∧ (h < 0x2000) ∧ (Serves s op) ∧ (((op = 0x13 ∧ on = true ∧ cmd = .unitEnable tag h) ∨ (op = 0x14 ∧ on = false ∧ cmd = .unitDisable tag h))) ∧ 
    let st := s.now.enableStatus h on
    (st = 0)) ∧
    (∃ s : State, ∃ tag : Nat, ∃ h : Nat, ∃ op : Nat, ∃ on : Bool, ∃ cmd : Instr, (s.now.exists h = true) ∧ (h < 0x2000) ∧ (Serves s op) ∧ (((op = 0x13 ∧ on = true ∧ cmd = .unitEnable tag h) ∨ (op = 0x14 ∧ on = false ∧ cmd = .unitDisable tag h))) ∧ 
    let st := s.now.enableStatus h on
    (st = 1)) :=
  ⟨⟨live, 0, 0x0102, 0x13, true, .unitEnable 0 0x0102, by (try unfold Serves); (try dsimp only); first | done | decide +kernel⟩,
    ⟨live, 0, 2, 0x13, true, .unitEnable 0 2, by (try unfold Serves); (try dsimp only); first | done | decide +kernel⟩,
    ⟨{ live with now := { liveMach with doors.a.own := .stopping } }, 0, 2, 0x13, true, .unitEnable 0 2, by (try unfold Serves); (try dsimp only); first | done | decide +kernel⟩⟩

theorem test_hyp_UnitEnableActs_2 :
    ∃ s : State, ∃ h : Nat, (s.now.exists h = true) ∧ (s.now.ownState h = some .stopping) ∧ (s.now.stopEnded h = true) :=
  ⟨{ live with now := { liveMach with doors.a.own := .stopping } }, 2, by (try unfold Serves); (try dsimp only); first | done | decide +kernel⟩

theorem test_hyp_GroupDefineAnswered_0 :
    (∃ s : State, ∃ tag : Nat, ∃ h : Nat, ∃ ks : List Nat, (Serves s 0x15) ∧ 
    let n := s.now.newGroups
    
    let held := n.groups.find? fun (g : GroupDef) => g.handle == h
    
    let own := match held with
      | some g => groupRecords g.kids.length
      | none => 0
    (64 < ks.length)) ∧
    (∃ s : State, ∃ tag : Nat, ∃ h : Nat, ∃ ks : List Nat, (Serves s 0x15) ∧ 
    let n := s.now.newGroups
    
    let held := n.groups.find? fun (g : GroupDef) => g.handle == h
    
    let own := match held with
      | some g => groupRecords g.kids.length
      | none => 0
    (ks.length ≤ 64) ∧ ((h < 0x2000 ∨ 0x2FFF < h))) ∧
    (∃ s : State, ∃ tag : Nat, ∃ h : Nat, ∃ ks : List Nat, (Serves s 0x15) ∧ 
    let n := s.now.newGroups
    
    let held := n.groups.find? fun (g : GroupDef) => g.handle == h
    
    let own := match held with
      | some g => groupRecords g.kids.length
      | none => 0
    (ks.length ≤ 64) ∧ ((∃ k ∈ ks, k = 0 ∨ n.exists k = false ∨ k = h ∨ (n.descendants k).contains h = true))) ∧
    (∃ s : State, ∃ tag : Nat, ∃ h : Nat, ∃ ks : List Nat, (Serves s 0x15) ∧ 
    let n := s.now.newGroups
    
    let held := n.groups.find? fun (g : GroupDef) => g.handle == h
    
    let own := match held with
      | some g => groupRecords g.kids.length
      | none => 0
    (ks.length ≤ 64) ∧ (ks.eraseDups.length ≠ ks.length)) ∧
    (∃ s : State, ∃ tag : Nat, ∃ h : Nat, ∃ ks : List Nat, (Serves s 0x15) ∧ 
    let n := s.now.newGroups
    
    let held := n.groups.find? fun (g : GroupDef) => g.handle == h
    
    let own := match held with
      | some g => groupRecords g.kids.length
      | none => 0
    (ks.length ≤ 64) ∧ (ks ≠ []) ∧ (n.groupFree + own < groupRecords ks.length)) ∧
    (∃ s : State, ∃ tag : Nat, ∃ h : Nat, ∃ ks : List Nat, (Serves s 0x15) ∧ 
    let n := s.now.newGroups
    
    let held := n.groups.find? fun (g : GroupDef) => g.handle == h
    
    let own := match held with
      | some g => groupRecords g.kids.length
      | none => 0
    (ks.length ≤ 64) ∧ (ks ≠ []) ∧ (held = none) ∧ (4096 ≤ n.unitHandles.length)) ∧
    (∃ s : State, ∃ tag : Nat, ∃ h : Nat, ∃ ks : List Nat, (Serves s 0x15) ∧ 
    let n := s.now.newGroups
    
    let held := n.groups.find? fun (g : GroupDef) => g.handle == h
    
    let own := match held with
      | some g => groupRecords g.kids.length
      | none => 0
    (ks.length ≤ 64) ∧ (ks ≠ []) ∧ (0x2000 ≤ h) ∧ (h ≤ 0x2FFF) ∧ ((∀ k ∈ ks, k ≠ 0 ∧ n.exists k = true ∧ k ≠ h ∧ (n.descendants k).contains h = false)) ∧ (ks.eraseDups.length = ks.length) ∧ (groupRecords ks.length ≤ n.groupFree + own) ∧ ((held = none → n.unitHandles.length < 4096))) ∧
    (∃ s : State, ∃ tag : Nat, ∃ h : Nat, ∃ ks : List Nat, (Serves s 0x15) ∧ 
    let n := s.now.newGroups
    
    let held := n.groups.find? fun (g : GroupDef) => g.handle == h
    
    let own := match held with
      | some g => groupRecords g.kids.length
      | none => 0
    (ks = []) ∧ (held ≠ none) ∧ ((∃ g ∈ n.groups, g.handle ≠ h ∧ h ∈ g.kids))) ∧
    (∃ s : State, ∃ tag : Nat, ∃ h : Nat, ∃ ks : List Nat, (Serves s 0x15) ∧ 
    let n := s.now.newGroups
    
    let held := n.groups.find? fun (g : GroupDef) => g.handle == h
    
    let own := match held with
      | some g => groupRecords g.kids.length
      | none => 0
    (ks = []) ∧ (0x2000 ≤ h) ∧ (h ≤ 0x2FFF) ∧ ((held = none ∨ ∀ g ∈ n.groups, g.handle ≠ h → h ∉ g.kids))) :=
  ⟨⟨live, 0, 0, List.replicate 65 1, by (try unfold Serves); (try dsimp only); first | done | decide +kernel⟩,
    ⟨live, 0, 0, [], by (try unfold Serves); (try dsimp only); first | done | decide +kernel⟩,
    ⟨live, 0, 0x2000, [0], by (try unfold Serves); (try dsimp only); first | done | decide +kernel⟩,
    ⟨live, 0, 0x2000, [2, 2], by (try unfold Serves); (try dsimp only); first | done | decide +kernel⟩,
    ⟨{ live with now := { liveMach with groups := (List.range 3072).map fun k => ⟨0x2000 + k, [2]⟩ } }, 0, 0x2FFF, [2], by (try unfold Serves); (try dsimp only); first | done | decide +kernel⟩,
    ⟨{ live with now := { liveMach with groups := (List.range 4096).map fun k => ⟨0x2000 + k % 4095, [2]⟩ } }, 0, 0x2FFF, [2], by (try unfold Serves); (try dsimp only); first | done | decide +kernel⟩,
    ⟨live, 0, 0x2000, [2], by (try unfold Serves); (try dsimp only); first | done | decide +kernel⟩,
    ⟨{ live with now := { liveMach with groups := [⟨0x2000, [2]⟩, ⟨0x2001, [0x2000]⟩] } }, 0, 0x2000, [], by (try unfold Serves); (try dsimp only); first | done | decide +kernel⟩,
    ⟨live, 0, 0x2000, [], by (try unfold Serves); (try dsimp only); first | done | decide +kernel⟩⟩

theorem test_hyp_ParameterValueRoundTrip_0 :
    ∃ r : PRow, ∃ v : List Int, (v.length = r.count) ∧ ((∀ x ∈ v, typeLo r ≤ x ∧ x ≤ typeHi r)) ∧ (r ∈ allRows) :=
  ⟨allRows.headD ⟨0, 0, 0, false, 0, [], 0, false, [], .ro, .root⟩, [4294967295], by (try unfold Serves); (try dsimp only); first | done | decide +kernel⟩

end Sys2Proof.Tests
end

section
/-!
PROOFS. Byte strings: the bytes of a number, read back, are that number, and a CRC-32C fits the four
bytes that carry it (00 R5, R6; 10 R301).
-/
namespace Sys2Proof.Proofs

open Sys2Proof Sys2Proof.Machine

/-! Numbers as bytes, least significant first (00 R6). -/

@[simp] theorem le_length (n x : Nat) : (le n x).length = n := by
  induction n generalizing x with
  | zero => rfl
  | succ n ih => simp [le, ih]

/-- Reading the n low bytes of a number gives the number up to the width of n bytes. -/
theorem ofLe_le (n x : Nat) : ofLe (le n x) = x % 256 ^ n := by
  induction n generalizing x with
  | zero => simp [le, ofLe, Nat.mod_one]
  | succ n ih =>
    calc ofLe (le (n + 1) x) = x % 256 + 256 * (x / 256 % 256 ^ n) := by simp [le, ofLe, ih]
      _ = x % 256 ^ (n + 1) := by rw [Nat.pow_succ', Nat.mod_mul]

/-- A field of n bytes, read where it stands in a byte string, is the number written there. -/
theorem leAt_append_le (a c : List Nat) (n x : Nat) (hx : x < 256 ^ n) :
    leAt (a ++ (le n x ++ c)) a.length n = x := by
  have hfield : ((a ++ (le n x ++ c)).drop a.length).take n = le n x := by
    rw [List.drop_left, List.take_left' (le_length n x)]
  rw [leAt, hfield, ofLe_le, Nat.mod_eq_of_lt hx]

/-! Numbers of a type: two's complement (00 R5). -/

theorem toU_lt (bits : Nat) (x : Int) : toU bits x < 2 ^ bits := by
  have hpos : (0 : Int) < (2 ^ bits : Nat) := by exact_mod_cast Nat.two_pow_pos bits
  have hlt := Int.emod_lt_of_pos x hpos
  have hnonneg := Int.emod_nonneg x hpos.ne'
  rw [toU]
  omega

/-- A number that is not negative and fits the bits keeps its value as an unsigned one. -/
theorem toU_of_nonneg (bits : Nat) (x : Int) (h0 : 0 ≤ x) (h1 : x < (2 ^ bits : Nat)) : (toU bits x : Int) = x := by
  rw [toU, Int.emod_eq_of_lt h0 h1, Int.toNat_of_nonneg h0]

/-- A negative number that fits the bits stands 2 ^ bits higher as an unsigned one. -/
theorem toU_of_neg (bits : Nat) (x : Int) (h0 : x < 0) (h1 : -(2 ^ bits : Nat) ≤ x) :
    (toU bits x : Int) = x + (2 ^ bits : Nat) := by
  have hmod : x % (2 ^ bits : Nat) = x + (2 ^ bits : Nat) := by
    rw [← Int.add_emod_right, Int.emod_eq_of_lt (by omega) (by omega)]
  rw [toU, hmod, Int.toNat_of_nonneg (by omega)]

/-- A signed number of so many bits is read back from its two's complement. -/
theorem toS_toU (bits : Nat) (hb : 0 < bits) (x : Int) (hlo : -(2 ^ (bits - 1) : Nat) ≤ x)
    (hhi : x < (2 ^ (bits - 1) : Nat)) : toS bits (toU bits x) = x := by
  have hpow : 2 ^ bits = 2 * 2 ^ (bits - 1) := by rw [← Nat.pow_succ', Nat.succ_eq_add_one, Nat.sub_add_cancel hb]
  simp only [toS, Nat.mod_eq_of_lt (toU_lt bits x)]
  rcases Int.lt_or_le x 0 with hneg | hnonneg
  · have hu := toU_of_neg bits x hneg (by omega)
    rw [if_neg (by omega), hu]
    omega
  · have hu := toU_of_nonneg bits x hnonneg (by omega)
    rw [if_pos (by omega), hu]

/-! The CRC-32C fits 32 bits (10 R301). -/

theorem crcRefBits_lt (n poly c : Nat) (hp : poly < 2 ^ 32) (hc : c < 2 ^ 32) : crcRefBits n poly c < 2 ^ 32 := by
  induction n generalizing c with
  | zero => exact hc
  | succ n ih =>
    have hhalf : c / 2 < 2 ^ 32 := by omega
    rw [crcRefBits]
    split
    · exact ih _ (Nat.xor_lt_two_pow hhalf hp)
    · exact ih _ hhalf

theorem crcRef_lt (poly : Nat) (bs : List Nat) (init : Nat) (hp : poly < 2 ^ 32) (hi : init < 2 ^ 32) :
    crcRef poly bs init < 2 ^ 32 := by
  induction bs generalizing init with
  | nil => exact hi
  | cons b bs ih => exact ih _ (crcRefBits_lt 8 poly _ hp (Nat.xor_lt_two_pow hi (by omega)))

theorem crc32c_lt (bs : List Nat) : crc32c bs < 2 ^ 32 :=
  Nat.xor_lt_two_pow (crcRef_lt _ bs _ (by decide) (by decide)) (by decide)

end Sys2Proof.Proofs
end

section
/-!
PROOFS. The packet of a command at the host port (14 R448, R451): where its fields stand, that its CRC is
good, and how it is judged.
-/
namespace Sys2Proof.Proofs

open Sys2Proof Sys2Proof.Machine

/-- The bytes of a packet that its CRC covers (14 R448). -/
def packetBody (op tag flags : Nat) (p : List Nat) : List Nat := [0xA5, op, tag, flags] ++ le 2 p.length ++ p

theorem length_packetBody (op tag flags : Nat) (p : List Nat) : (packetBody op tag flags p).length = 6 + p.length := by
  simp [packetBody]
  omega

/-- A packet and the filler after it: what the CRC covers, the CRC, the filler. -/
theorem hostPacket_append (op tag flags : Nat) (p f : List Nat) :
    hostPacket op tag flags p ++ f
      = packetBody op tag flags p ++ (le 4 (crc32c (packetBody op tag flags p)) ++ f) :=
  List.append_assoc _ _ _

/-- A packet and the filler after it: the four bytes of the header, LENGTH, and the rest. -/
theorem hostPacket_append_eq_header (op tag flags : Nat) (p f : List Nat) :
    hostPacket op tag flags p ++ f
      = [0xA5, op, tag, flags] ++ (le 2 p.length ++ (p ++ (le 4 (crc32c (packetBody op tag flags p)) ++ f))) := by
  simp only [hostPacket_append, packetBody, List.append_assoc]

section
variable (op tag flags : Nat) (p f : List Nat)

theorem length_hostPacket_append :
    (hostPacket op tag flags p ++ f).length = 10 + p.length + f.length := by
  simp only [hostPacket_append, List.length_append, length_packetBody, le_length]
  omega

theorem leAt_hostPacket_length (hp : p.length < 65536) : leAt (hostPacket op tag flags p ++ f) 4 2 = p.length := by
  rw [hostPacket_append_eq_header]
  exact leAt_append_le [0xA5, op, tag, flags] _ 2 p.length hp

theorem payload_hostPacket : ((hostPacket op tag flags p ++ f).drop 6).take p.length = p := by
  have hheader : ([0xA5, op, tag, flags] ++ le 2 p.length).length = 6 := by simp
  rw [hostPacket_append_eq_header, ← List.append_assoc, List.drop_left' hheader, List.take_left]

/-- The CRC that a host sends with a packet is the one that the port computes. -/
theorem packetCrcOk_hostPacket (hp : p.length < 65536) : packetCrcOk (hostPacket op tag flags p ++ f) = true := by
  have hlen := length_packetBody op tag flags p
  have hcrc : leAt (hostPacket op tag flags p ++ f) (6 + p.length) 4 = crc32c (packetBody op tag flags p) := by
    rw [hostPacket_append, ← hlen]
    exact leAt_append_le _ f 4 _ (crc32c_lt _)
  have hbody : (hostPacket op tag flags p ++ f).take (6 + p.length) = packetBody op tag flags p := by
    rw [hostPacket_append, List.take_left' hlen]
  simp only [packetCrcOk, leAt_hostPacket_length op tag flags p f hp, hcrc, hbody, beq_self_eq_true]

end

/-- Checks 2 to 7 of R451 on a transaction that begins with SYNC. -/
theorem judge_sync (ecc : Ecc) (b : List Nat) (h : b.head? = some 0xA5) :
    judge ecc b =
      if b.length < 6 then .refused (nth b 1 0xFF) (nth b 2 0) stTRUNCATED
      else if 4096 < leAt b 4 2 then .refused (nth b 1 0xFF) (nth b 2 0) stBAD_LENGTH
      else if b.length < 10 + leAt b 4 2 then .refused (nth b 1 0xFF) (nth b 2 0) stTRUNCATED
      else if !packetCrcOk b || ecc == .double then .refused (nth b 1 0xFF) (nth b 2 0) stBAD_CRC
      else if nth b 3 0 != 0 then .refused (nth b 1 0xFF) (nth b 2 0) stBAD_PARAM
      else if !opcodeKnown (nth b 1 0xFF) then .refused (nth b 1 0xFF) (nth b 2 0) stUNKNOWN_OPCODE
      else if layoutOk (nth b 1 0xFF) ((b.drop 6).take (leAt b 4 2)) then
        .packet (nth b 1 0xFF) (nth b 2 0) ((b.drop 6).take (leAt b 4 2))
      else .refused (nth b 1 0xFF) (nth b 2 0) stBAD_LENGTH := by
  obtain ⟨r, rfl⟩ : ∃ r, b = 0xA5 :: r := List.head?_eq_some_iff.mp h
  rfl

/-- How a packet is judged: its length and its CRC are good, so its ECC, FLAGS, opcode and layout decide, in
the order of R451. -/
theorem judge_hostPacket (ecc : Ecc) (op tag flags : Nat) (p f : List Nat) (hp : p.length ≤ 4096) :
    judge ecc (hostPacket op tag flags p ++ f) =
      if ecc = .double then .refused op tag stBAD_CRC
      else if flags ≠ 0 then .refused op tag stBAD_PARAM
      else if opcodeKnown op = false then .refused op tag stUNKNOWN_OPCODE
      else if layoutOk op p = true then .packet op tag p else .refused op tag stBAD_LENGTH := by
  have hlen := length_hostPacket_append op tag flags p f
  have hfield := leAt_hostPacket_length op tag flags p f (by omega)
  have hcrc := packetCrcOk_hostPacket op tag flags p f (by omega)
  have hpay := payload_hostPacket op tag flags p f
  have hop : nth (hostPacket op tag flags p ++ f) 1 0xFF = op := rfl
  have htag : nth (hostPacket op tag flags p ++ f) 2 0 = tag := rfl
  have hflags : nth (hostPacket op tag flags p ++ f) 3 0 = flags := rfl
  rw [judge_sync ecc _ rfl, hfield, hcrc, hpay, hop, htag, hflags, hlen, if_neg (by omega), if_neg (by omega),
    if_neg (by omega)]
  simp only [Bool.not_true, Bool.false_or, beq_iff_eq, bne_iff_ne, Bool.not_eq_true']

/-- Settles O14: the fields of a packet read back as they were sent and its CRC is good, so R451 decides by the
ECC, FLAGS, the opcode and the layout alone. -/
theorem packetRoundTrip : Obligations.PacketRoundTrip := by
  unfold Obligations.PacketRoundTrip
  intro op tag flags ecc p f _ _ _ hp _
  rw [judge_hostPacket ecc op tag flags p f hp]
  refine ⟨fun hd => if_pos hd, fun hd => ?_⟩
  rw [if_neg hd]
  refine ⟨fun h0 hk hl => ?_, fun h0 hk hl => ?_, fun h0 hk => ?_, fun h0 => if_pos h0⟩
  · simp [h0, hk, hl]
  · simp [h0, hk, hl, stBAD_LENGTH]
  · simp [h0, hk, stUNKNOWN_OPCODE]

end Sys2Proof.Proofs
end

section
/-!
PROOFS. The value of a parameter as the bytes of its type (14 R456 to R458): an element read from its bytes is
the element written, and so is a value, element by element.
-/
namespace Sys2Proof.Proofs

open Sys2Proof Sys2Proof.Machine

/-- Every row of the parameter tables has a type of at least one byte. -/
theorem bytes_pos_of_mem_allRows : ∀ r ∈ allRows, 0 < r.bytes := by decide +kernel

/-- An element read from its bytes, whatever bytes follow, is its two's complement of the row's width. -/
theorem leAt_leS_append (n : Nat) (x : Int) (c : List Nat) : leAt (leS n x ++ c) 0 n = toU (8 * n) x := by
  have hlt : toU (8 * n) x < 256 ^ n := by
    have h := toU_lt (8 * n) x
    rwa [Nat.pow_mul] at h
  exact leAt_append_le [] c n _ hlt

/-- An element that its type holds is read back from its bytes. -/
theorem decodeElem_leS (r : PRow) (x : Int) (c : List Nat) (hb : 0 < r.bytes) (hlo : typeLo r ≤ x) (hhi : x ≤ typeHi r) :
    (if r.signed then leSAt (leS r.bytes x ++ c) 0 r.bytes else (leAt (leS r.bytes x ++ c) 0 r.bytes : Nat)) = x := by
  rw [leSAt, leAt_leS_append]
  cases hs : r.signed with
  | true =>
    simp only [typeLo, typeHi, hs, if_true] at hlo hhi ⊢
    exact toS_toU _ (by omega) x hlo (by omega)
  | false =>
    simp only [typeLo, typeHi, hs, Bool.false_eq_true, if_false] at hlo hhi ⊢
    exact toU_of_nonneg _ x hlo (by omega)

theorem length_encodeVal (r : PRow) (v : List Int) : (encodeVal r v).length = r.bytes * v.length := by
  simp [encodeVal, List.length_flatMap, leS, Nat.mul_comm]

/-- The elements read from the bytes of a value are those of the value. -/
theorem decodeElems_encodeVal (r : PRow) (v : List Int) (hb : 0 < r.bytes) (hv : ∀ x ∈ v, typeLo r ≤ x ∧ x ≤ typeHi r) :
    decodeElems r v.length (encodeVal r v) = v := by
  induction v with
  | nil => rfl
  | cons x v ih =>
    obtain ⟨⟨hlo, hhi⟩, htail⟩ := List.forall_mem_cons.mp hv
    have hbytes : encodeVal r (x :: v) = leS r.bytes x ++ encodeVal r v := List.flatMap_cons
    have hrest : (leS r.bytes x ++ encodeVal r v).drop r.bytes = encodeVal r v := List.drop_left' (le_length _ _)
    rw [List.length_cons, decodeElems, hbytes, decodeElem_leS r x _ hb hlo hhi, hrest, ih htail]

/-- Settles O17: the bytes of a value are as many as its type and its count say, and each element is read back
from its own. -/
theorem parameterValueRoundTrip : Obligations.ParameterValueRoundTrip := by
  unfold Obligations.ParameterValueRoundTrip
  intro r v hcount hv hr
  have hlen : (encodeVal r v).length = r.bytes * r.count := by rw [length_encodeVal, hcount]
  have helems := decodeElems_encodeVal r v (bytes_pos_of_mem_allRows r hr) hv
  rw [hcount] at helems
  rw [decodeVal, hlen, helems, if_pos (beq_self_eq_true _)]

end Sys2Proof.Proofs
end

section
/-!
PROOFS. How commands complete: every command but FRAME_TICK and SCRUB answers a next state in which the module alone
has changed, and what FRAME_TICK does in each condition of the module (01 R28; 02 R36, R41; 15 R475).
-/
namespace Sys2Proof.Proofs

open Sys2Proof Sys2Proof.Machine

/-- The outcome is a next state in which nothing but the module has changed. -/
def Completes (s : State) (r : Res) : Prop := ∃ m, r = .next { s with now := m }

theorem completes_next (s : State) : Completes s (.next s) := ⟨s.now, rfl⟩

theorem completes_on (s : State) (f : Mach → Mach) : Completes s (on s f) := ⟨f s.now, rfl⟩

theorem completes_onWhen (s : State) (c : Bool) (f : Mach → Mach) : Completes s (onWhen s c f) := by
  cases c with
  | false => exact completes_next s
  | true => exact completes_on s f

theorem completes_serve (s : State) (op tag : Nat) (f : Mach → Mach × Nat × List Nat) : Completes s (serve s op tag f) := by
  unfold serve
  split
  · exact completes_next s
  · split
    · exact ⟨_, rfl⟩
    · exact ⟨_, rfl⟩

theorem completes_halfCycleValue (s : State) (inp : HalfIn) : Completes s (exec (.halfCycleValue inp) s) := by
  rw [exec, execHalfCycleValue]
  split
  · exact completes_on ..
  · split
    · exact completes_on ..
    · exact completes_next s

theorem completes_ttWindowStart (s : State) (port : Ab) (cell : Nat) : Completes s (exec (.ttWindowStart port cell) s) := by
  rw [exec, execTtWindowStart]
  split
  · exact completes_next s
  · split
    · exact completes_next s
    · exact completes_onWhen ..

theorem completes_windowRead (s : State) (tag : Nat) (bad : List Nat) : Completes s (exec (.windowRead tag bad) s) := by
  rw [exec, execWindowRead]
  split
  · exact completes_next s
  · split
    · exact ⟨_, rfl⟩
    · exact completes_on ..

/-- Every command but FRAME_TICK and SCRUB completes in any state. -/
theorem completes_exec (c : Instr) (s : State) (htick : ∀ inp, c ≠ .frameTick inp) (hscrub : ∀ addr flips, c ≠ .scrub addr flips) :
    Completes s (exec c s) := by
  cases c with
  | frameTick inp => exact absurd rfl (htick inp)
  | scrub addr flips => exact absurd rfl (hscrub addr flips)
  -- Host commands, which the port serves under one opcode each.
  | learnRun | home | callAdd | callCancel | runTo | stopAtLanding | stopImmediate | stopEmergencyRamp | doorOpen |
    doorClose | doorHold | doorNudge | doorLearn | proofTest | switchOver | switchBack | chConfig | chRead | chWrite |
    groupRearm | benchSet | busConfig | objBind | objUnbind | objRead | objSend | objCancel | schedLoad | busSleep |
    busWakeCommand | calMeasure | calApply | meterConfig | meterRead | energyRead | cursorSet | drawerInfo |
    drawerClear | cabLogin | cabLogout | cabStage | cabDiscard | cabCommit | cabPassword | cabLogRead | attest |
    certGet | fwBegin | fwChunk | fwCommit | pairStatus | nop | ident | status | resetPort | resetModule | evtRead |
    timeSet | budgetSet | unitList | unitGet | unitSet | unitEnable | unitDisable | groupDefine | sleepPolicy |
    powerRead =>
    rw [exec]
    exact completes_serve ..
  | doorCurrentLoopUpdate | clockGateEnd | frameTickLost | meterSample | elevenRecessiveBits | transceiverOvertemp =>
    rw [exec]
    exact completes_on ..
  -- Events of a run, an object or a transfer: where there is none, nothing happens.
  | calMeasureEnd | proofTestEnd | proofRejoin | proofFailed | standbyInSync | busFrameSent | ttMissed | replyReady =>
    simp only [exec, execCalMeasureEnd, execProofTestEnd, execProofRejoin, execProofFailed, execStandbyInSync,
      execBusFrameSent, execTtMissed, execReplyReady]
    split
    · exact completes_next s
    · exact completes_onWhen ..
  | commitVerdicts | commitPoint | commitComplete | fwChunkWritten | fwVerified | fwTransferTimeout | snapshotComplete =>
    simp only [exec, execCommitVerdicts, execCommitPoint, execCommitComplete, execFwChunkWritten, execFwVerified,
      execFwTransferTimeout, execSnapshotComplete]
    split
    · exact completes_onWhen ..
    · exact completes_next s
  | loginVerified | passwordWritten | testPulseEnd | windowCopyRetry | hostTransaction =>
    simp only [exec, execLoginVerified, execPasswordWritten, execTestPulseEnd, execWindowCopyRetry, execHostTransaction]
    split
    · exact completes_next s
    · exact completes_on ..
  | attestComplete =>
    simp only [exec, execAttestComplete]
    split
    · exact completes_on ..
    · exact completes_next s
  | halfCycleValue => exact completes_halfCycleValue ..
  | ttWindowStart => exact completes_ttWindowStart ..
  | windowRead => exact completes_windowRead ..
  -- The other events occur under a condition; these name a part of the state in it.
  | coreDiscord | accFault | positionRecovery | keBoundExceeded | obstructionDetected | finalApproachTimeout |
    doorTimeLimit | doorStoppingComplete | currentOffsetCheck | lockMsgTimeout | contactorPullTimeout |
    contactorDropTimeout | brakeOpenTimeout | brakeCloseTimeout | proofAutoStart | domainWaitRearm | channelStoppingEnd
    | timeSlaveLost | busOffRecovered | portStoppingEnd | restartAfterSave | startupDeadline | tetherGrantFallback |
    sensorSupplyOn | logicTempThreshold =>
    dsimp only [exec, execCoreDiscord, execAccFault, execPositionRecovery, execKeBoundExceeded, execObstructionDetected,
      execFinalApproachTimeout, execDoorTimeLimit, execDoorStoppingComplete, execCurrentOffsetCheck, execLockMsgTimeout,
      execContactorPullTimeout, execContactorDropTimeout, execBrakeOpenTimeout, execBrakeCloseTimeout,
      execProofAutoStart, execDomainWaitRearm, execChannelStoppingEnd, execTimeSlaveLost, execBusOffRecovered,
      execPortStoppingEnd, execRestartAfterSave, execStartupDeadline, execTetherGrantFallback, execSensorSupplyOn,
      execLogicTempThreshold]
    exact completes_onWhen ..
  | _ =>
    rw [exec]
    exact completes_onWhen ..

theorem exec_scrub_of_absent (s : State) (addr flips : Nat) (h : mramSize ≤ addr ∨ addr % 8 ≠ 0) :
    exec (.scrub addr flips) s = .fault .noSuchAddress := by
  rw [exec, execScrub, if_pos (by simpa using h)]

theorem completes_scrub (s : State) (addr flips : Nat) (h : ¬ (mramSize ≤ addr ∨ addr % 8 ≠ 0)) :
    Completes s (exec (.scrub addr flips) s) := by
  rw [exec, execScrub, if_neg (by simpa using h)]
  exact completes_on ..

/-- A command that does not stop completes, FRAME_TICK apart. -/
theorem completes_of_next {c : Instr} {s t : State} (h : exec c s = .next t) (htick : ∀ inp, c ≠ .frameTick inp) :
    Completes s (exec c s) := by
  by_cases hscrub : ∃ addr flips, c = .scrub addr flips
  · obtain ⟨addr, flips, rfl⟩ := hscrub
    by_cases habsent : mramSize ≤ addr ∨ addr % 8 ≠ 0
    · rw [exec_scrub_of_absent s addr flips habsent] at h
      cases h
    · exact completes_scrub s addr flips habsent
  · push Not at hscrub
    exact completes_exec c s htick hscrub

/-! FRAME_TICK. -/

theorem exec_frameTick_of_ticks (s : State) (inp : FrameIn) (h : s.now.ticks = true) :
    exec (.frameTick inp) s = .next { s with
      now := s.now.deliver.frame s.shown inp
      shown := s.now.deliver.refreshed (s.now.deliver.frame s.shown inp) } := by
  rw [exec, execFrameTick, if_pos h]
  dsimp only [Mach.runFrame]

theorem exec_frameTick_of_saveDone (s : State) (inp : FrameIn) (h : s.now.ticks = false) (hsave : s.now.power.saveDone = true) :
    exec (.frameTick inp) s = .next { s with now := s.now.fieldAlone } := by
  rw [exec, execFrameTick, if_neg (by simp [h]), if_pos hsave]

theorem exec_frameTick_of_idle (s : State) (inp : FrameIn) (h : s.now.ticks = false) (hsave : s.now.power.saveDone = false) :
    exec (.frameTick inp) s = .next s := by
  rw [exec, execFrameTick, if_neg (by simp [h]), if_neg (by simp [hsave])]

/-- FRAME_TICK completes as any other command does, or it runs a frame, whose start is what reads are served from. -/
theorem frameTick_completes_or_runs (s : State) (inp : FrameIn) :
    Completes s (exec (.frameTick inp) s) ∨
      ∃ n, exec (.frameTick inp) s = .next { s with now := n, shown := s.now.deliver.refreshed n } := by
  cases ht : s.now.ticks with
  | true => exact .inr ⟨_, exec_frameTick_of_ticks s inp ht⟩
  | false =>
    cases hs : s.now.power.saveDone with
    | true => exact .inl ⟨_, exec_frameTick_of_saveDone s inp ht hs⟩
    | false => exact .inl ⟨s.now, exec_frameTick_of_idle s inp ht hs⟩

/-- A command that completes has left the queue and the view that reads are served from as they were. -/
theorem queue_view_of_completes {s t : State} {r : Res} (h : Completes s r) (hr : r = .next t) :
    t.pending = s.pending ∧ t.shown = s.shown := by
  obtain ⟨m, rfl⟩ := h
  cases hr
  exact ⟨rfl, rfl⟩

/-- Settles O2: every command but FRAME_TICK changes the module alone, and FRAME_TICK renews the view only where it
runs a frame. -/
theorem queueAndViewKept : Obligations.QueueAndViewKept := by
  unfold Obligations.QueueAndViewKept
  intro c s t h
  by_cases htick : ∃ inp, c = .frameTick inp
  · obtain ⟨inp, rfl⟩ := htick
    obtain hc | ⟨n, hn⟩ := frameTick_completes_or_runs s inp
    · obtain ⟨hpending, hshown⟩ := queue_view_of_completes hc h
      exact ⟨hpending, .inl hshown⟩
    · cases hn.symm.trans h
      exact ⟨rfl, .inr ⟨⟨inp, rfl⟩, rfl⟩⟩
  · push Not at htick
    obtain ⟨hpending, hshown⟩ := queue_view_of_completes (completes_of_next h htick) h
    exact ⟨hpending, .inl hshown⟩

/-! Parts of a frame. -/

theorem ticks_iff (m : Mach) : m.ticks = true ↔ m.powered = true ∧ m.power.saveDone = false := by
  simp [Mach.ticks]

theorem refreshed_of_same_gen (m n : Mach) (h : n.cab.gen = m.cab.gen) : m.refreshed n = m := by
  rw [Mach.refreshed, if_pos (beq_iff_eq.mpr h)]

theorem refreshed_of_new_gen (m n : Mach) (h : n.cab.gen ≠ m.cab.gen) :
    m.refreshed n = { m with params := withCabCells m.params (cabCells n.params), cab.gen := n.cab.gen, cab.used := n.cab.used } := by
  rw [Mach.refreshed, if_neg (by simpa using h)]

theorem fieldAlone_frame (m : Mach) : m.fieldAlone.time.frame = m.time.frame + 1 := by
  obtain ⟨-, hframe, -⟩ := Laws.keeps_fieldTick { m with time.frame := m.time.frame + 1 }
  exact hframe

theorem nextFrame_frame (m : Mach) (h : m.time.running = true) : m.nextFrame.time.frame = m.time.frame + 1 := by
  simp [Mach.nextFrame, h]

/-- The timestamp moves by 250 us where the frame count moves by one (02 R37). -/
theorem ts_of_next_frame {m n : Mach} (h : n.time.frame = m.time.frame + 1) : n.ts = m.ts + 250 := by
  rw [Mach.ts, h, Mach.ts, Nat.mul_succ]

/-- Settles O20: the three outcomes of FRAME_TICK, the phases of a frame as its definition has them, and its time. -/
theorem frameTickRuns : Obligations.FrameTickRuns := by
  unfold Obligations.FrameTickRuns
  refine ⟨fun s inp => ⟨exec_frameTick_of_ticks s inp, exec_frameTick_of_saveDone s inp, exec_frameTick_of_idle s inp,
    ticks_iff s.now⟩, fun m before inp => rfl, fun m n => ⟨refreshed_of_same_gen m n, refreshed_of_new_gen m n⟩,
    fieldAlone_frame, fun m => ⟨rfl, fun hrun => ?_⟩⟩
  have hframe := nextFrame_frame m hrun
  exact ⟨hframe, ts_of_next_frame hframe⟩

end Sys2Proof.Proofs
end

section
/-!
PROOFS. How a host command that the port serves is answered (14 R449 to R454), and UNIT_LIST, UNIT_GET and UNIT_SET
(14 R457, R458, R460; 01 R21, R28).
-/
namespace Sys2Proof.Proofs

open Sys2Proof Sys2Proof.Machine

theorem serve_of_serves {s : State} {op : Nat} (hs : Serves s op) (tag : Nat) (f : Mach → Mach × Nat × List Nat) :
    serve s op tag f = .next { s with now := (f s.now).1.reply op tag (f s.now).2.1 (f s.now).2.2 } := by
  obtain ⟨hserves, hadmits⟩ := hs
  rw [serve, if_neg (by simp [hserves]), if_neg (by simp [hadmits])]

/-- A command that the port serves is answered as its own rules decide. -/
theorem answers_of_serves {c : Instr} {s : State} {op tag st : Nat} {p : List Nat} {m : Mach}
    {f : Mach → Mach × Nat × List Nat} (hs : Serves s op) (hc : exec c s = serve s op tag f) (hf : f s.now = (m, st, p)) :
    Answers c s op tag st p m := by
  rw [Answers, Does, hc, serve_of_serves hs, hf]

/-! UNIT_LIST and UNIT_GET. -/

theorem answers_unitList_of_badCount {s : State} {tag f n : Nat} (hs : Serves s 0x10) (hn : n < 1 ∨ 255 < n) :
    Answers (.unitList tag f n) s 0x10 tag 0x13 [] s.now := by
  refine answers_of_serves hs (by rw [exec, execUnitList]) ?_
  rw [if_pos (by simpa using hn)]
  rfl

theorem answers_unitList {s : State} {tag f n : Nat} (hs : Serves s 0x10) (h1 : 1 ≤ n) (h2 : n ≤ 255) :
    let l := s.shown.unitHandles.filter fun h => decide (f ≤ h)
    Answers (.unitList tag f n) s 0x10 tag 0x00 ([(l.take n).length] ++ le 2 ((l.drop n).headD 0xFFFF)
      ++ (l.take n).flatMap fun h => le 2 h ++ le 4 (s.shown.statusWord h)) s.now := by
  refine answers_of_serves hs (by rw [exec, execUnitList]) ?_
  rw [if_neg (by simp; omega)]
  rfl

theorem answers_unitGet_of_badCount {s : State} {tag h : Nat} {ids : List Nat} (hs : Serves s 0x11)
    (hn : ids = [] ∨ 64 < ids.length) : Answers (.unitGet tag h ids) s 0x11 tag 0x11 [] s.now := by
  refine answers_of_serves hs (by rw [exec, execUnitGet]) ?_
  rw [if_pos (by simpa using hn)]
  rfl

theorem answers_unitGet_of_unknown {s : State} {tag h : Nat} {ids : List Nat} (hs : Serves s 0x11) (h1 : ids ≠ [])
    (h2 : ids.length ≤ 64) (hex : s.shown.exists h = false) : Answers (.unitGet tag h ids) s 0x11 tag 0x30 [] s.now := by
  refine answers_of_serves hs (by rw [exec, execUnitGet]) ?_
  rw [if_neg (by simp [h1, h2]), if_pos (by simp [hex])]
  rfl

theorem answers_unitGet {s : State} {tag h : Nat} {ids : List Nat} (hs : Serves s 0x11) (h1 : ids ≠ [])
    (h2 : ids.length ≤ 64) (hex : s.shown.exists h = true) :
    Answers (.unitGet tag h ids) s 0x11 tag 0x00 (le 2 h ++ le 4 (s.shown.statusWord h) ++ [ids.length]
      ++ s.shown.getEntries s.now h 7 ids) s.now := by
  refine answers_of_serves hs (by rw [exec, execUnitGet]) ?_
  rw [if_neg (by simp [h1, h2]), if_neg (by simp [hex])]
  rfl

/-! UNIT_SET. -/

theorem answers_unitSet {s : State} {tag h st : Nat} {es : List SetEntry} {p : List Nat} {m : Mach} (hs : Serves s 0x12)
    (hf : s.now.unitSet tag h es = (m, st, p)) : Answers (.unitSet tag h es) s 0x12 tag st p m :=
  answers_of_serves (f := fun m => m.unitSet tag h es) hs (by rw [exec, execUnitSet]) hf

theorem countOk_iff (es : List SetEntry) : countOk es = true ↔ es ≠ [] ∧ es.length ≤ 64 := by
  rw [countOk, Bool.and_eq_true, decide_eq_true_iff, decide_eq_true_iff, Nat.one_le_iff_ne_zero, ne_eq, List.length_eq_zero_iff]

theorem unitSet_of_badCount (m : Mach) (tag h : Nat) {es : List SetEntry} (hn : es = [] ∨ 64 < es.length) :
    m.unitSet tag h es = (m, 0x11, []) := by
  have hcount : ¬ countOk es = true := by
    rw [countOk_iff, not_and_or, not_not, Nat.not_le]
    exact hn
  rw [Mach.unitSet, if_pos (by simpa using hcount)]
  rfl

theorem unitSet_of_unknown {m : Mach} (tag : Nat) {h : Nat} {es : List SetEntry} (hn : countOk es = true) (hex : m.exists h = false) :
    m.unitSet tag h es = (m, 0x30, []) := by
  rw [Mach.unitSet, if_neg (by simp [hn]), if_pos (by simp [hex])]
  rfl

/-- There is no refusal to answer with where every status is 0. -/
theorem firstRefusal_eq_zero_iff (l : List Nat) : firstRefusal l = 0 ↔ ∀ x ∈ l, x = 0 := by
  induction l with
  | nil => simp [firstRefusal]
  | cons x l ih =>
    by_cases hx : x = 0
    · simpa [firstRefusal, hx] using ih
    · simp [firstRefusal, hx]

/-- The reply of entries that were all accepted. -/
theorem setReply_of_accepted (es : List SetEntry) (f : SetEntry → Nat) (h : ∀ e ∈ es, f e = 0) :
    setReply es (es.map f) = es.flatMap fun e => le 2 e.id ++ [0] := by
  induction es with
  | nil => rfl
  | cons e es ih =>
    obtain ⟨he, hes⟩ := List.forall_mem_cons.mp h
    have hrest := ih hes
    simp only [setReply] at hrest ⊢
    simp [he, hrest]

/-- An entry of a unit other than the meter, not of the status word, is accepted where it passes the checks of every
parameter and those of chapter 11. -/
theorem unitEntry_eq_zero_iff (m : Mach) {h : Nat} (es : List SetEntry) (good : Bool) {e : SetEntry} (hmeter : h ≠ 0x0300)
    (hid : e.id ≠ idSTATUS_WORD) : m.unitEntry h es good e = 0 ↔ m.setStatus h e = 0 ∧ m.busEntry h es e = 0 := by
  rw [Mach.unitEntry, if_neg (by simpa using hid)]
  by_cases hst : m.setStatus h e = 0
  · simp [hst, hmeter]
  · simp [hst]

/-- The entries of a unit other than the meter and the channels take effect at the next tick alone. -/
theorem unitApply_of_plain (m : Mach) (tag : Nat) {h : Nat} (es : List SetEntry) (hmeter : h ≠ 0x0300)
    (hch : h < 0x0100 ∨ 0x013F < h) : m.unitApply tag h es = m.defer (0x12, tag) h es := by
  have hrange : (decide (0x0100 ≤ h) && decide (h ≤ 0x013F) && es != []) = false := by
    rcases hch with hlt | hgt
    · simp [Nat.not_le.mpr hlt]
    · simp [Nat.not_le.mpr hgt]
  rw [Mach.unitApply, if_neg (by simpa using hmeter)]
  simp only [hrange]
  rfl

section
variable {m : Mach} {h : Nat} {es : List SetEntry} (hn : countOk es = true) (hex : m.exists h = true) (hmeter : h ≠ 0x0300)
  (hid : ∀ e ∈ es, e.id ≠ idSTATUS_WORD)
include hn hex hmeter hid

/-- UNIT_SET without the status word, of a unit other than the meter: all entries are judged, and all of them are applied,
or none. -/
theorem unitSet_of_plain (tag : Nat) :
    let sts := es.map (m.unitEntry h es true)
    m.unitSet tag h es = if firstRefusal sts != 0 then (m, firstRefusal sts, setReply es sts)
      else (m.unitApply tag h es, 0, setReply es sts) := by
  have hown : (es.filter fun (e : SetEntry) => e.id != idSTATUS_WORD) = es :=
    List.filter_eq_self.mpr fun e he => by simpa using hid e he
  have hclear : (es.any fun (e : SetEntry) => e.id == idSTATUS_WORD && bit (leAt e.val 0 4) 5) = false :=
    List.any_eq_false.mpr fun e he => by simp [hid e he]
  rw [Mach.unitSet, if_neg (by simp [hn]), if_neg (by simp [hex])]
  simp only [hown, hclear, bne_iff_ne.mpr hmeter, Bool.true_or]
  rfl

theorem unitSet_of_accepted (tag : Nat) (hch : h < 0x0100 ∨ 0x013F < h)
    (hok : ∀ e ∈ es, m.setStatus h e = 0 ∧ m.busEntry h es e = 0) :
    m.unitSet tag h es = (m.defer (0x12, tag) h es, 0, es.flatMap fun e => le 2 e.id ++ [0]) := by
  have hzero : ∀ e ∈ es, m.unitEntry h es true e = 0 := fun e he =>
    (unitEntry_eq_zero_iff m es true hmeter (hid e he)).mpr (hok e he)
  have hfirst : firstRefusal (es.map (m.unitEntry h es true)) = 0 :=
    (firstRefusal_eq_zero_iff _).mpr (List.forall_mem_map.mpr hzero)
  simp only [unitSet_of_plain hn hex hmeter hid tag, hfirst, setReply_of_accepted es _ hzero, unitApply_of_plain m tag es hmeter hch]
  rfl

theorem unitSet_of_refused (tag : Nat) (hbad : ∃ e ∈ es, m.setStatus h e ≠ 0 ∨ m.busEntry h es e ≠ 0) :
    ∃ st p, st ≠ 0 ∧ m.unitSet tag h es = (m, st, p) := by
  obtain ⟨e, he, hne⟩ := hbad
  have hfirst : firstRefusal (es.map (m.unitEntry h es true)) ≠ 0 := fun hzero => by
    have hentry := (firstRefusal_eq_zero_iff _).mp hzero _ (List.mem_map_of_mem he)
    have hpassed := (unitEntry_eq_zero_iff m es true hmeter (hid e he)).mp hentry
    omega
  exact ⟨_, _, hfirst, (unitSet_of_plain hn hex hmeter hid tag).trans (if_pos (bne_iff_ne.mpr hfirst))⟩

end

/-- Settles O18: each answer is read off the checks of its command in their order. -/
theorem unitReadsAndWritesAnswered : Obligations.UnitReadsAndWritesAnswered := by
  unfold Obligations.UnitReadsAndWritesAnswered
  refine ⟨⟨fun s tag f n hs => ⟨answers_unitList_of_badCount hs, answers_unitList hs⟩, fun s tag h ids hs =>
    ⟨answers_unitGet_of_badCount hs, answers_unitGet_of_unknown hs, answers_unitGet hs⟩⟩, fun s tag h es hs => ⟨?_, ?_, ?_⟩⟩
  · exact fun hn => answers_unitSet hs (unitSet_of_badCount s.now tag h hn)
  · intro h1 h2 hex
    exact answers_unitSet hs (unitSet_of_unknown tag ((countOk_iff es).mpr ⟨h1, h2⟩) hex)
  · intro h1 h2 hex hmeter hch hid
    have hn := (countOk_iff es).mpr ⟨h1, h2⟩
    refine ⟨fun hok => answers_unitSet hs (unitSet_of_accepted hn hex hmeter hid tag hch hok), fun hbad => ?_⟩
    obtain ⟨st, p, hst, hset⟩ := unitSet_of_refused hn hex hmeter hid tag hbad
    exact ⟨st, p, hst, answers_unitSet hs hset⟩

end Sys2Proof.Proofs
end

section
/-!
PROOFS. UNIT_ENABLE and UNIT_DISABLE of one unit, the end of a unit's stopping, and GROUP_DEFINE (01 R22 to R24, R30 to
R35; 14 R459).
-/
namespace Sys2Proof.Proofs

open Sys2Proof Sys2Proof.Machine

/-! UNIT_ENABLE and UNIT_DISABLE. -/

/-- A fixed unit does not pass a command on (01 R32). -/
theorem groupReach_of_fixed (m : Mach) (n : Nat) {h : Nat} (hfixed : h < 0x2000) : m.groupReach (n + 2) [h] [] = [h] := by
  simp [Mach.groupReach, Nat.not_le.mpr hfixed]

theorem unitsReached_of_fixed (m : Mach) {h : Nat} (hfixed : h < 0x2000) : m.unitsReached h = [h] := by
  rw [Mach.unitsReached, groupReach_of_fixed m 299998 hfixed]
  simp [hfixed]

theorem enableCmd_of_unknown {m : Mach} {h : Nat} (tag : Nat) (on : Bool) (hex : m.exists h = false) :
    m.enableCmd tag h on = (m, 0x30, []) := by
  rw [Mach.enableCmd, if_pos (by simp [hex])]
  rfl

section
variable {m : Mach} {h : Nat} {on : Bool} (tag : Nat) (hex : m.exists h = true) (hfixed : h < 0x2000)
include hex hfixed

theorem enableCmd_of_refused (hst : 1 < m.enableStatus h on) : m.enableCmd tag h on =
    (m, m.enableStatus h on, le 2 1 ++ le 2 1 ++ le 2 h ++ [m.enableStatus h on]) := by
  have hle : ¬ m.enableStatus h on ≤ 1 := by omega
  have hne0 : m.enableStatus h on ≠ 0 := by omega
  have hne1 : m.enableStatus h on ≠ 1 := by omega
  simp [Mach.enableCmd, hex, unitsReached_of_fixed m hfixed, groupStatus, Mach.each, stOK, stPENDING, hst, hle, hne0, hne1]

theorem enableCmd_of_accepted (hst : m.enableStatus h on = 0) :
    m.enableCmd tag h on = (m.unitAct h on, 0, le 2 1 ++ le 2 0) := by
  simp [Mach.enableCmd, hex, unitsReached_of_fixed m hfixed, groupStatus, Mach.each, stOK, stPENDING, hst]

theorem enableCmd_of_pending (hst : m.enableStatus h on = 1) :
    m.enableCmd tag h on = ({ m.unitAct h on with enables := (m.unitAct h on).enables ++ [⟨tag, h, [h], 0⟩] }, 1,
      le 2 1 ++ le 2 1 ++ le 2 h ++ [1]) := by
  simp [Mach.enableCmd, hex, unitsReached_of_fixed m hfixed, groupStatus, Mach.each, stOK, stPENDING, hst,
    List.filter_cons]

end

/-- The module, the safety controller, both processors and the safety blocks refuse both commands (01 R31). -/
theorem enableStatus_of_denied (m : Mach) {h : Nat} (on : Bool)
    (hh : h = 0 ∨ h = 0x0500 ∨ h = 0x0600 ∨ (0x0700 ≤ h ∧ h ≤ 0x07FF)) : m.enableStatus h on = 0x20 := by
  have hdenied : m.enableDenied h on = true := by
    rcases hh with rfl | rfl | rfl | ⟨hlo, hhi⟩
    · rfl
    · rfl
    · rfl
    · simp [Mach.enableDenied, hlo, hhi]
  rw [Mach.enableStatus, if_pos hdenied]
  rfl

theorem answers_unitEnable {s : State} {tag h st : Nat} {p : List Nat} {m : Mach} (hs : Serves s 0x13)
    (hf : s.now.enableCmd tag h true = (m, st, p)) : Answers (.unitEnable tag h) s 0x13 tag st p m :=
  answers_of_serves (f := fun m => m.enableCmd tag h true) hs (by rw [exec, execUnitEnable]) hf

theorem answers_unitDisable {s : State} {tag h st : Nat} {p : List Nat} {m : Mach} (hs : Serves s 0x14)
    (hf : s.now.enableCmd tag h false = (m, st, p)) : Answers (.unitDisable tag h) s 0x14 tag st p m :=
  answers_of_serves (f := fun m => m.enableCmd tag h false) hs (by rw [exec, execUnitDisable]) hf

/-- Either command is answered as `enableCmd` says of its direction. -/
theorem answers_enableCmd {s : State} {cmd : Instr} {tag h op st : Nat} {on : Bool} {p : List Nat} {m : Mach}
    (hs : Serves s op)
    (hcmd : (op = 0x13 ∧ on = true ∧ cmd = .unitEnable tag h) ∨ (op = 0x14 ∧ on = false ∧ cmd = .unitDisable tag h))
    (hf : s.now.enableCmd tag h on = (m, st, p)) : Answers cmd s op tag st p m := by
  rcases hcmd with ⟨rfl, rfl, rfl⟩ | ⟨rfl, rfl, rfl⟩
  · exact answers_unitEnable hs hf
  · exact answers_unitDisable hs hf

theorem does_unitStoppingComplete {s : State} {h : Nat} (hex : s.now.exists h = true) (hown : s.now.ownState h = some .stopping)
    (hend : s.now.stopEnded h = true) : Does (.unitStoppingComplete h) s (s.now.unitOff h) := by
  rw [Does, exec, execUnitStoppingComplete, onWhen, if_pos (by simp [hex, hown, hend])]

/-! GROUP_DEFINE. -/

/-- The definition that is held of a group. -/
def heldGroup (m : Mach) (h : Nat) : Option GroupDef := m.groups.find? fun (g : GroupDef) => g.handle == h

/-- The records that a group's definition holds. -/
def heldRecords (m : Mach) (h : Nat) : Nat :=
  match heldGroup m h with
  | some g => groupRecords g.kids.length
  | none => 0

/-- A deletion is refused for a handle that is no group's, and of a group that another one names (01 R22, R24). -/
theorem groupBad_nil_iff (m : Mach) (h : Nat) : m.groupBad h [] = true ↔
    (h < 0x2000 ∨ 0x2FFF < h) ∨ (heldGroup m h ≠ none ∧ ∃ g ∈ m.groups, g.handle ≠ h ∧ h ∈ g.kids) := by
  rw [Mach.groupBad]
  by_cases hrange : h < 0x2000 ∨ 0x2FFF < h
  · simp [hrange]
  · rw [if_neg (by simpa using hrange)]
    unfold heldGroup
    cases m.groups.find? fun (g : GroupDef) => g.handle == h with
    | none => simp [hrange]
    | some held => simp [hrange]

/-- What a definition with children is refused for (01 R22 to R24). -/
theorem groupBad_iff (m : Mach) (h : Nat) {ks : List Nat} (hks : ks ≠ []) : m.groupBad h ks = true ↔
    (h < 0x2000 ∨ 0x2FFF < h) ∨ (∃ k ∈ ks, k = 0 ∨ m.exists k = false ∨ k = h ∨ (m.descendants k).contains h = true)
      ∨ ks.eraseDups.length ≠ ks.length ∨ m.groupFree + heldRecords m h < groupRecords ks.length
      ∨ (heldGroup m h = none ∧ 4096 ≤ m.unitHandles.length) := by
  have hchild : (∃ k ∈ ks, k = 0 ∨ m.exists k = false ∨ k = h ∨ (m.descendants k).contains h = true) ↔
      (∃ k ∈ ks, k = 0 ∨ m.exists k = false) ∨ ∃ k ∈ ks, k = h ∨ (m.descendants k).contains h = true := by
    simp only [← exists_or, ← and_or_left, or_assoc]
  rw [Mach.groupBad, hchild]
  by_cases hrange : h < 0x2000 ∨ 0x2FFF < h
  · simp [hrange]
  · rw [if_neg (by simpa using hrange), if_neg (by simpa using hks)]
    unfold heldRecords heldGroup
    cases m.groups.find? fun (g : GroupDef) => g.handle == h with
    | none => simp [hrange, or_assoc, or_left_comm]
    | some held => simp [hrange, or_assoc, or_left_comm]

theorem groupBad_of_range (m : Mach) {h : Nat} (ks : List Nat) (hrange : h < 0x2000 ∨ 0x2FFF < h) : m.groupBad h ks = true := by
  by_cases hks : ks = []
  · exact hks ▸ (groupBad_nil_iff m h).mpr (.inl hrange)
  · exact (groupBad_iff m h hks).mpr (.inl hrange)

/-- A definition that passes every check of 01 R22 to R24 is good. -/
theorem not_groupBad_of_children {m : Mach} {h : Nat} {ks : List Nat} (hks : ks ≠ []) (hlo : 0x2000 ≤ h) (hhi : h ≤ 0x2FFF)
    (hchild : ∀ k ∈ ks, k ≠ 0 ∧ m.exists k = true ∧ k ≠ h ∧ (m.descendants k).contains h = false)
    (honce : ks.eraseDups.length = ks.length) (hroom : groupRecords ks.length ≤ m.groupFree + heldRecords m h)
    (hunits : heldGroup m h = none → m.unitHandles.length < 4096) : ¬ m.groupBad h ks = true := by
  rw [groupBad_iff m h hks]
  rintro (hrange | ⟨k, hk, hbad⟩ | htwice | hfull | ⟨hnew, hmany⟩)
  · omega
  · obtain ⟨hzero, hex, hself, hdesc⟩ := hchild k hk
    simp only [hzero, hex, hself, hdesc, Bool.true_eq_false, Bool.false_eq_true, or_self] at hbad
  · exact htwice honce
  · exact Nat.not_lt.mpr hroom hfull
  · exact Nat.not_le.mpr (hunits hnew) hmany

/-- The deletion of a group that no other one names is good. -/
theorem not_groupBad_nil {m : Mach} {h : Nat} (hlo : 0x2000 ≤ h) (hhi : h ≤ 0x2FFF)
    (hfree : heldGroup m h = none ∨ ∀ g ∈ m.groups, g.handle ≠ h → h ∉ g.kids) : ¬ m.groupBad h [] = true := by
  rw [groupBad_nil_iff]
  rintro (hrange | ⟨hheld, g, hg, hother, hnames⟩)
  · omega
  · exact hfree.elim hheld fun hnone => hnone g hg hother hnames

theorem groupDefine_of_tooMany (m : Mach) (h : Nat) {ks : List Nat} (hlen : 64 < ks.length) :
    m.groupDefine h ks = (m, 0x11, []) := by
  rw [Mach.groupDefine, if_pos hlen]
  rfl

theorem groupDefine_of_bad {m : Mach} {h : Nat} {ks : List Nat} (hlen : ks.length ≤ 64) (hbad : m.newGroups.groupBad h ks = true) :
    m.groupDefine h ks = (m, 0x13, []) := by
  rw [Mach.groupDefine, if_neg (Nat.not_lt.mpr hlen), if_pos hbad]
  rfl

theorem groupDefine_of_children {m : Mach} {h : Nat} {ks : List Nat} (hlen : ks.length ≤ 64) (hks : ks ≠ [])
    (hgood : ¬ m.newGroups.groupBad h ks = true) : m.groupDefine h ks =
      ({ m.storeGroup h ks with groupsNext := some (groupPut m.newGroups.groups ⟨h, ks⟩) }, 0x00, []) := by
  rw [Mach.groupDefine, if_neg (Nat.not_lt.mpr hlen), if_neg hgood]
  simp only [ok, beq_iff_eq, if_neg hks]
  rfl

theorem groupDefine_of_deletion {m : Mach} {h : Nat} (hgood : ¬ m.newGroups.groupBad h [] = true) : m.groupDefine h [] =
      ({ m.storeGroup h [] with groupsNext := some (m.newGroups.groups.filter fun (g : GroupDef) => g.handle != h) }, 0x00, []) := by
  rw [Mach.groupDefine, if_neg (by simp), if_neg hgood]
  rfl

theorem answers_groupDefine {s : State} {tag h st : Nat} {ks p : List Nat} {m : Mach} (hs : Serves s 0x15)
    (hf : s.now.groupDefine h ks = (m, st, p)) : Answers (.groupDefine tag h ks) s 0x15 tag st p m :=
  answers_of_serves (f := fun m => m.groupDefine h ks) hs (by rw [exec, execGroupDefine]) hf

/-- Settles O19: a fixed unit is reached alone, so its own state decides, and a definition is judged by the checks of
`groupBad_iff` and `groupBad_nil_iff`. -/
theorem unitEnableAndGroupsAnswered : Obligations.UnitEnableAndGroupsAnswered := by
  unfold Obligations.UnitEnableAndGroupsAnswered
  refine ⟨fun s tag h hh hex => ?_, ⟨fun s tag h hex => ?_, fun s tag h op on cmd hex hfixed hs hcmd => ?_, fun s h hex hown hend =>
    does_unitStoppingComplete hex hown hend⟩, fun s tag h ks hs => ?_, fun m => ⟨rfl, rfl⟩⟩
  · have hfixed : h < 0x2000 := by omega
    have hdenied (on : Bool) : ∃ p, s.now.enableCmd tag h on = (s.now, 0x20, p) := by
      have hst := enableStatus_of_denied s.now on hh
      exact ⟨_, hst ▸ enableCmd_of_refused tag hex hfixed (by omega)⟩
    exact ⟨fun hs => (hdenied true).imp fun _ => answers_unitEnable hs, fun hs => (hdenied false).imp fun _ => answers_unitDisable hs⟩
  · exact ⟨fun hs => answers_unitEnable hs (enableCmd_of_unknown tag true hex),
      fun hs => answers_unitDisable hs (enableCmd_of_unknown tag false hex)⟩
  · exact ⟨fun hst => answers_enableCmd hs hcmd (enableCmd_of_refused tag hex hfixed hst),
      fun hst => answers_enableCmd hs hcmd (enableCmd_of_accepted tag hex hfixed hst),
      fun hst => answers_enableCmd hs hcmd (enableCmd_of_pending tag hex hfixed hst)⟩
  · intro n held own
    have refused (hlen : ks.length ≤ 64) (hbad : n.groupBad h ks = true) : Answers (.groupDefine tag h ks) s 0x15 tag 0x13 [] s.now :=
      answers_groupDefine hs (groupDefine_of_bad hlen hbad)
    refine ⟨fun hlen => answers_groupDefine hs (groupDefine_of_tooMany s.now h hlen),
      fun hlen hrange => refused hlen (groupBad_of_range n ks hrange), fun hlen hchild => ?_, fun hlen htwice => ?_,
      fun hlen hks hroom => ?_, fun hlen hks hnew hunits => ?_, fun hlen hks hlo hhi hchild honce hroom hunits => ?_,
      fun hks hheld hnamed => ?_, fun hks hlo hhi hfree => ?_⟩
    · obtain ⟨k, hk, -⟩ := id hchild
      exact refused hlen ((groupBad_iff n h (List.ne_nil_of_mem hk)).mpr (.inr (.inl hchild)))
    · have hks : ks ≠ [] := by
        rintro rfl
        exact htwice rfl
      exact refused hlen ((groupBad_iff n h hks).mpr (.inr (.inr (.inl htwice))))
    · exact refused hlen ((groupBad_iff n h hks).mpr (.inr (.inr (.inr (.inl hroom)))))
    · exact refused hlen ((groupBad_iff n h hks).mpr (.inr (.inr (.inr (.inr ⟨hnew, hunits⟩)))))
    · exact answers_groupDefine hs
        (groupDefine_of_children hlen hks (not_groupBad_of_children hks hlo hhi hchild honce hroom hunits))
    · subst hks
      exact refused (Nat.zero_le _) ((groupBad_nil_iff n h).mpr (.inr ⟨hheld, hnamed⟩))
    · subst hks
      exact answers_groupDefine hs (groupDefine_of_deletion (not_groupBad_nil hlo hhi hfree))

end Sys2Proof.Proofs
end

section
/-!
PROOFS. Raising a fault leaves the position estimates as they were (00 R13; 13 R424), and an event under its condition
has exactly its own effect.
-/
namespace Sys2Proof.Proofs

open Sys2Proof Sys2Proof.Machine

/-- An event whose condition holds changes the module as its own rules say. -/
theorem does_of_onWhen {c : Instr} {s : State} {b : Bool} {f : Mach → Mach} {m : Mach} (hc : exec c s = onWhen s b f)
    (hb : b = true) (hf : f s.now = m) : Does c s m := by
  rw [Does, hc, onWhen, if_pos hb, hf]

/-- An event whose condition does not hold changes nothing. -/
theorem exec_of_onWhen_false {c : Instr} {s : State} {b : Bool} {f : Mach → Mach} (hc : exec c s = onWhen s b f)
    (hb : b = false) : exec c s = .next s := by
  rw [hc, onWhen, if_neg (by simp [hb])]

theorem ite_mach_pos (c : Prop) [Decidable c] (m n : Mach) : (if c then m else n).pos = if c then m.pos else n.pos := by
  split <;> rfl

@[simp] theorem post_pos (m : Mach) (kind detail unit code data : Nat) : (m.post kind detail unit code data).pos = m.pos := by
  rw [Mach.post, ite_mach_pos, ite_self]

@[simp] theorem drawer_pos (m : Mach) (d : Nat) (recs : List Nat) (f : DrawerState → DrawerState) : (m.drawer d recs f).pos = m.pos := by
  rw [Mach.drawer, ite_mach_pos, Mach.drawerSet, ite_self]

@[simp] theorem count_pos (m : Mach) (d arr idx : Nat) : (m.count d arr idx).pos = m.pos := drawer_pos ..

@[simp] theorem ringPush_pos (m : Mach) (d : Nat) (second : Bool) (payload : List Nat) : (m.ringPush d second payload).pos = m.pos := by
  simp only [Mach.ringPush, ite_mach_pos, ite_self]

@[simp] theorem react_pos (m : Mach) (cls : Nat) : (m.react cls).pos = m.pos := by
  simp only [Mach.react, Mach.endBenches, Mach.stopReq, Mach.dropExit, ite_mach_pos, ite_self]

@[simp] theorem recordRaise_pos (m : Mach) (unit code cls c1 c2 : Nat) : (m.recordRaise unit code cls c1 c2).pos = m.pos := by
  simp only [Mach.recordRaise, ringPush_pos, ite_mach_pos, count_pos, post_pos, ite_self]

@[simp] theorem entersFault_pos (m : Mach) (unit : Nat) : (m.entersFault unit).pos = m.pos := rfl

@[simp] theorem holdFault_pos (m : Mach) (unit code cls : Nat) : (m.holdFault unit code cls).pos = m.pos := by
  simp only [Mach.holdFault, ite_mach_pos, react_pos, entersFault_pos, ite_self]

@[simp] theorem dropNoted_pos (m : Mach) (full : Bool) : (m.dropNoted full).pos = m.pos := by
  simp only [Mach.dropNoted, ite_mach_pos, holdFault_pos, recordRaise_pos, ite_self]

@[simp] theorem raise_pos (m : Mach) (unit code cls c1 c2 : Nat) : (m.raise unit code cls c1 c2).pos = m.pos := by
  simp only [Mach.raise, ite_mach_pos, dropNoted_pos, holdFault_pos, recordRaise_pos, ite_self]

end Sys2Proof.Proofs
end

section
/-!
PROOFS. The position events: which fault each one raises or ends, and what it marks as lost (03 R65 to R70, R78 to R80,
R91, R92).
-/
namespace Sys2Proof.Proofs

open Sys2Proof Sys2Proof.Machine

/-! The arms of `exec`, so that a proof about one command does not need the equations of all of them. -/

theorem exec_coreDiscord (ap : Ab) (s : State) : exec (.coreDiscord ap) s = execCoreDiscord ap s := rfl
theorem exec_apEstDiscord (ap : Ab) (s : State) : exec (.apEstDiscord ap) s = execApEstDiscord ap s := rfl
theorem exec_tapeReaderLost (r : Ab) (s : State) : exec (.tapeReaderLost r) s = execTapeReaderLost r s := rfl
theorem exec_tapeReaderReinstated (r : Ab) (s : State) : exec (.tapeReaderReinstated r) s = execTapeReaderReinstated r s := rfl
theorem exec_tapePairDiscord (s : State) : exec .tapePairDiscord s = execTapePairDiscord s := rfl
theorem exec_encFault (cause : EncCause) (s : State) : exec (.encFault cause) s = execEncFault cause s := rfl
theorem exec_accFault (cause : AccCause) (s : State) : exec (.accFault cause) s = execAccFault cause s := rfl
theorem exec_tractionSlip (s : State) : exec .tractionSlip s = execTractionSlip s := rfl

theorem triadClass_eq (m : Mach) : m.triadClass = if m.nat pTRIAD_DEGRADED_POLICY = 1 then 2 else 3 := by
  simp only [Mach.triadClass, beq_iff_eq]

/-- The fault of a reader (03 R91). -/
theorem readerCode_eq (r : Ab) : (if r == Ab.a then 0x30 else 0x31) = if r = .a then 0x30 else 0x31 := by
  simp only [beq_iff_eq]

theorem bothLost_eq (m : Mach) : m.bothLost = if m.tapeInUse = false ∧ m.est.encLost = true then m.raise 1 0x37 4 else m := by
  simp only [Mach.bothLost, Bool.and_eq_true, Bool.not_eq_true']

theorem does_coreDiscord_of_core {s : State} {ap : Ab} {k : CoreId} (hv : s.now.agreedVerdict = .core k)
    (hread : s.now.pos.read.get ap = .core k) : Does (.coreDiscord ap) s { s.now.raise 1 0x38 s.now.triadClass with
      triad.stopVec := s.now.triad.stopVec.set k true } := by
  refine does_of_onWhen (by rw [exec_coreDiscord, execCoreDiscord]) ?_ ?_
  · simp [hv, hread]
  · rw [hv]

theorem does_coreDiscord_of_threeWay {s : State} {ap : Ab} (hv : s.now.agreedVerdict = .threeWay)
    (hread : s.now.pos.read.get ap = .threeWay) : Does (.coreDiscord ap) s (s.now.raise 1 0x39 5) := by
  refine does_of_onWhen (by rw [exec_coreDiscord, execCoreDiscord]) ?_ ?_
  · simp [hv, hread]
  · rw [hv]

theorem does_apEstDiscord {s : State} {ap : Ab} (hown : 4 ≤ (s.now.pos.discord.get ap).own) :
    Does (.apEstDiscord ap) s (s.now.raise 1 0x3A 2) :=
  does_of_onWhen (by rw [exec_apEstDiscord, execApEstDiscord]) (decide_eq_true hown) rfl

section
variable {s : State} {r : Ab} (hused : r ∈ s.now.readersUsed) (hlost : (s.now.est.readers.get r).lost = true)
include hused hlost

theorem does_tapeReaderLost_of_other (htape : s.now.tapeInUse = true) :
    Does (.tapeReaderLost r) s (s.now.raise 1 (if r = .a then 0x30 else 0x31) 2) := by
  refine does_of_onWhen (by rw [exec_tapeReaderLost, execTapeReaderLost]) (by simp [hused, hlost]) ?_
  rw [if_pos htape, readerCode_eq]

/-- With no other reader in use, the tape is lost where that is not in force yet. -/
theorem does_tapeReaderLost_of_last (htape : s.now.tapeInUse = false) (hforce : s.now.inForce 1 0x32 = false) :
    Does (.tapeReaderLost r) s (s.now.raise 1 0x32 3).quitLearn.endHome.bothLost := by
  refine does_of_onWhen (by rw [exec_tapeReaderLost, execTapeReaderLost]) (by simp [hused, hlost]) ?_
  rw [if_neg (by simp [htape]), if_neg (by simp [hforce]), Mach.allReadersLost]

end

theorem does_tapeReaderReinstated {s : State} {r : Ab} (hlost : (s.now.est.readers.get r).lost = false)
    (hgood : 400 ≤ (s.now.est.readers.get r).goodRun) :
    Does (.tapeReaderReinstated r) s (s.now.endFault 1 (if r = .a then 0x30 else 0x31)) := by
  refine does_of_onWhen (by rw [exec_tapeReaderReinstated, execTapeReaderReinstated]) (by simp [hlost, hgood]) ?_
  rw [readerCode_eq]

theorem does_tapePairDiscord {s : State} (hrun : 16 ≤ s.now.pos.pairRun) : Does .tapePairDiscord s (s.now.raise 1 0x33 3) :=
  does_of_onWhen (by rw [exec_tapePairDiscord, execTapePairDiscord]) (decide_eq_true hrun) rfl

/-- What the encoder monitor finds is a fault of the sine-cosine encoder, or of the incremental one (03 R68, R69). -/
theorem encCauseOk_iff (m : Mach) (c : EncCause) : m.encCauseOk c = true ↔
    (∃ n, c = .amplitude n ∧ m.nat pENC_TYPE = 1 ∧ 8 ≤ n) ∨ (∃ hz, c = .rate hz ∧ m.nat pENC_TYPE = 2 ∧ 10000000 < hz)
      ∨ ∃ ns, c = .both ns ∧ m.nat pENC_TYPE = 2 ∧ ns ≤ 25 := by
  cases c with
  | amplitude n => simp [Mach.encCauseOk]
  | rate hz => simp [Mach.encCauseOk]
  | both ns => simp [Mach.encCauseOk]

theorem does_encFault {s : State} {c : EncCause} (hc : s.now.encCauseOk c = true) :
    Does (.encFault c) s (s.now.loseEncoder.raise 1 0x34 3).bothLost :=
  does_of_onWhen (by rw [exec_encFault, execEncFault]) hc rfl

/-- Two stale frames raise 0x35 (03 R70, R91). -/
theorem does_accFault_stale {s : State} (hstale : 2 ≤ s.now.pos.accStale) (hmount : s.now.mountCabinet = false) :
    Does (.accFault .stale) s (s.now.raise 1 0x35 (if s.now.vRated ≤ 8000000 then 2 else 3)) :=
  does_of_onWhen (by rw [exec_accFault, execAccFault]) (by simp [hstale, hmount]) rfl

/-- A mean that is off in an initialised estimate raises 0x35 (03 R70, R91). -/
theorem does_accFault_mean {s : State} (hinit : s.now.est.inited = true) (hoff : s.now.est.meanOff = true)
    (hmount : s.now.mountCabinet = false) :
    Does (.accFault .mean) s (s.now.raise 1 0x35 (if s.now.vRated ≤ 8000000 then 2 else 3)) :=
  does_of_onWhen (by rw [exec_accFault, execAccFault]) (by simp [hinit, hoff, hmount]) rfl

/-- With MOUNT CABINET the accelerometer is not monitored (03 R92). -/
theorem exec_accFault_of_cabinet {s : State} (cause : AccCause) (hmount : s.now.mountCabinet = true) :
    exec (.accFault cause) s = .next s := by
  cases cause <;> exact exec_of_onWhen_false (by rw [exec_accFault, execAccFault]) (by simp [hmount])

/-- A core that votes has counted the frames of SLIP_TIME, of which there is one at least (03 R80). -/
theorem slips_iff (m : Mach) : m.slips = true ↔
    ∃ k ∈ m.voters, 4 * m.nat pSLIP_TIME ≤ (m.pos.est.get k.proc).slipRun ∧ 0 < (m.pos.est.get k.proc).slipRun := by
  simp only [Mach.slips, Mach.slipping, List.any_eq_true, Bool.and_eq_true, decide_eq_true_eq]
  rfl

theorem does_tractionSlip {s : State} (hslips : s.now.slips = true) : Does .tractionSlip s (s.now.raise 1 0x36 4) :=
  does_of_onWhen (by rw [exec_tractionSlip, execTractionSlip]) hslips rfl

/-- Settles O21: the condition of each event is the one of its rule, and `bothLost_eq` gives 0x37 where the tape and the
encoder are lost together. -/
theorem positionFaultEventsComplete : Obligations.PositionFaultEventsComplete := by
  unfold Obligations.PositionFaultEventsComplete
  refine ⟨fun s ap k hv hread => ?_, fun s ap => does_coreDiscord_of_threeWay, fun s ap => does_apEstDiscord,
    fun s r hused hlost => ⟨does_tapeReaderLost_of_other hused hlost, fun htape hforce => ?_⟩,
    fun s r => does_tapeReaderReinstated, fun s => does_tapePairDiscord, fun s cause hcause => ?_,
    fun s => does_accFault_stale, fun s => does_accFault_mean, fun s cause => exec_accFault_of_cabinet cause,
    fun s k hk hpos hrun => ?_⟩
  · rw [← triadClass_eq]
    exact does_coreDiscord_of_core hv hread
  · intro m1
    rw [← bothLost_eq]
    exact does_tapeReaderLost_of_last hused hlost htape hforce
  · intro m0 m1
    rw [← bothLost_eq]
    exact does_encFault ((encCauseOk_iff s.now cause).mpr hcause)
  · exact does_tractionSlip ((slips_iff s.now).mpr ⟨k, hk, hrun, hpos⟩)

end Sys2Proof.Proofs
end

section
/-!
PROOFS. The recovery of the position (03 R94; 17 R513): when a processor initialises its estimate, from what, and that it
is initialised then.
-/
namespace Sys2Proof.Proofs

open Sys2Proof Sys2Proof.Machine

/-! The arms of `exec`, so that a proof about one command does not need the equations of all of them. -/

theorem exec_positionRecovery (p : ProcId) (s : State) : exec (.positionRecovery p) s = execPositionRecovery p s := rfl
theorem exec_recoveryTimeout (p : ProcId) (s : State) : exec (.recoveryTimeout p) s = execRecoveryTimeout p s := rfl

@[simp] theorem five_get_set {α : Type} (t : Five α) (p : ProcId) (x : α) : (t.set p x).get p = x := by
  cases p <;> rfl

/-- Whatever of tape and snapshot there is, the estimate is initialised. -/
theorem recovered_inited (e : EstState) (tape : Option Int) (snap : Option (List Nat × Nat)) (agree : Bool) :
    (e.recovered tape snap agree).inited = true := by
  cases tape <;> cases snap <;> rfl

theorem snapFound_pos_est (m : Mach) (p : ProcId) (snap : Option (List Nat × Nat)) : (m.snapFound p snap).pos.est = m.pos.est := by
  cases snap <;> rfl

/-- A recovery sets the estimate of its own processor. -/
theorem recoverAt_pos_est (m : Mach) (p : ProcId) (tape : Option Int) (late : Bool) : (m.recoverAt p tape late).pos.est =
    m.pos.est.set p ((m.pos.est.get p).recovered tape (m.snapshotOf p) (m.recoverAgree tape (m.snapshotOf p) late)) := by
  simp only [Mach.recoverAt, ite_mach_pos, raise_pos, ite_self, Mach.setEst, snapFound_pos_est]

theorem recoverAt_inited (m : Mach) (p : ProcId) (tape : Option Int) (late : Bool) :
    ((m.recoverAt p tape late).pos.est.get p).inited = true := by
  rw [recoverAt_pos_est, five_get_set, recovered_inited]

section
variable {s : State} {p : ProcId} (hrec : s.now.recovers p = true) (hinit : (s.now.pos.est.get p).inited = false)
include hrec hinit

theorem does_positionRecovery_of_tape (htape : s.now.readsTape (s.now.pos.est.get p) = true)
    (hrun : 64 ≤ (s.now.pos.est.get p).recRun) : Does (.positionRecovery p) s (s.now.recoverAt p
      (some (halfAway (s.now.pos.est.get p).recSum (1000 * (s.now.pos.est.get p).recRun))) false) := by
  refine does_of_onWhen (by rw [exec_positionRecovery, execPositionRecovery]) (by simp [hrec, hinit, hrun]) ?_
  exact if_pos htape

theorem does_positionRecovery_of_noTape (htape : s.now.readsTape (s.now.pos.est.get p) = false) :
    Does (.positionRecovery p) s (s.now.recoverAt p none false) := by
  refine does_of_onWhen (by rw [exec_positionRecovery, execPositionRecovery]) (by simp [hrec, hinit, htape]) ?_
  exact if_neg (by simp [htape])

theorem does_recoveryTimeout (hstep : s.now.start.step = 5)
    (hlate : 1400000 ≤ s.now.start.usBase + 250 * (s.now.time.frame : Int) - s.now.start.dlBase) :
    Does (.recoveryTimeout p) s (s.now.recoverAt p (s.now.newestTape (s.now.pos.est.get p)) true) := by
  refine does_of_onWhen (by rw [exec_recoveryTimeout, execRecoveryTimeout]) ?_ rfl
  have hts : ((s.now.ts : Nat) : Int) = 250 * (s.now.time.frame : Int) := by
    rw [Mach.ts, Nat.cast_mul, Nat.cast_ofNat]
  simp [hstep, hrec, hinit, hts, hlate]

end

end Sys2Proof.Proofs
end

section
/-!
PROOFS. LEARN_RUN and HOME, how each is answered, and how its run ends (03 R84, R85, R87, R96; 08 R260).
-/
namespace Sys2Proof.Proofs

open Sys2Proof Sys2Proof.Machine

/-! The arms of `exec`, so that a proof about one command does not need the equations of all of them. -/

theorem exec_learnRun (tag : Nat) (s : State) : exec (.learnRun tag) s = execLearnRun tag s := rfl
theorem exec_learnRunComplete (s : State) : exec .learnRunComplete s = execLearnRunComplete s := rfl
theorem exec_home (tag dir : Nat) (s : State) : exec (.home tag dir) s = execHome tag dir s := rfl
theorem exec_homeComplete (s : State) : exec .homeComplete s = execHomeComplete s := rfl

theorem learnMay_iff (m : Mach) : m.learnMay = true ↔ m.still = true ∧ m.inspection = false ∧ m.evacuation = false
    ∧ m.tapeInUse = true ∧ 1 ≤ m.quality ∧ m.learnFaultsOk = true := by
  simp only [Mach.learnMay, Bool.and_eq_true, Bool.not_eq_true', decide_eq_true_eq, and_assoc]

section
variable {s : State} {tag : Nat} (hs : Serves s 0x24)
include hs

theorem answers_learnRun_of_noSession (hsess : s.now.session = false) : Answers (.learnRun tag) s 0x24 tag 0x20 [] s.now := by
  refine answers_of_serves hs (by rw [exec_learnRun, execLearnRun]) ?_
  rw [if_pos (by simp [hsess])]
  rfl

variable (hsess : s.now.session = true)
include hsess

theorem answers_learnRun_of_barred (hmay : s.now.learnMay = false) : Answers (.learnRun tag) s 0x24 tag 0x22 [] s.now := by
  refine answers_of_serves hs (by rw [exec_learnRun, execLearnRun]) ?_
  rw [if_neg (by simp [hsess]), if_pos (by simp [hmay])]
  rfl

variable (hmay : s.now.learnMay = true)
include hmay

theorem answers_learnRun_of_busy (hbusy : s.now.learning = true) : Answers (.learnRun tag) s 0x24 tag 0x02 [] s.now := by
  refine answers_of_serves hs (by rw [exec_learnRun, execLearnRun]) ?_
  rw [if_neg (by simp [hsess]), if_neg (by simp [hmay]), if_pos hbusy]
  rfl

theorem answers_learnRun_of_free (hfree : s.now.learning = false) : Answers (.learnRun tag) s 0x24 tag 0x01 []
    (({ s.now with pos.learn := { LearnState.reset with active := true, state := 1, tag := tag } }.endFault 1 0x3B).endFault 1 0x3D) := by
  refine answers_of_serves hs (by rw [exec_learnRun, execLearnRun]) ?_
  rw [if_neg (by simp [hsess]), if_neg (by simp [hmay]), if_neg (by simp [hfree])]
  rfl

end

section
variable {s : State} {tag dir : Nat} (hs : Serves s 0x25)
include hs

theorem answers_home_of_badDirection (hdir : 1 < dir) : Answers (.home tag dir) s 0x25 tag 0x13 [] s.now := by
  refine answers_of_serves hs (by rw [exec_home, execHome]) ?_
  rw [if_pos hdir]
  rfl

variable (hdir : dir ≤ 1)
include hdir

theorem answers_home_of_barred (hmay : s.now.learnMay = false) : Answers (.home tag dir) s 0x25 tag 0x22 [] s.now := by
  refine answers_of_serves hs (by rw [exec_home, execHome]) ?_
  rw [if_neg (by omega), if_pos (by simp [hmay])]
  rfl

variable (hmay : s.now.learnMay = true)
include hmay

theorem answers_home_of_busy (hbusy : s.now.learning = true) : Answers (.home tag dir) s 0x25 tag 0x02 [] s.now := by
  refine answers_of_serves hs (by rw [exec_home, execHome]) ?_
  rw [if_neg (by omega), if_neg (by simp [hmay]), if_pos hbusy]
  rfl

theorem answers_home_of_free (hfree : s.now.learning = false) : Answers (.home tag dir) s 0x25 tag 0x01 []
    ({ s.now with pos.home := { HomeState.reset with active := true, up := decide (dir = 1), tag := tag } }.endFault 1 0x3B) := by
  refine answers_of_serves hs (by rw [exec_home, execHome]) ?_
  rw [if_neg (by omega), if_neg (by simp [hmay]), if_neg (by simp [hfree])]
  rfl

end

/-- The zones of both passes pass every check, and the results fit the staged set (03 R85; 08 R260). -/
def LearnedWell (m : Mach) (zs : List Learned) : Prop :=
  (∀ z ∈ zs, 40000 ≤ z.high - z.low ∧ z.high - z.low ≤ 400000 ∧ (z.up - z.down).natAbs ≤ 5000)
  ∧ spacedOk (zs.map m.learnedSill) = true
  ∧ (zs.map m.learnedSill).getLastD 0 - (zs.map m.learnedSill).headD 0 ≤ 1000000000
  ∧ ((m.learnEntries zs).foldl stagePut m.cab.staged).length ≤ 2048

theorem zoneOk_iff (z : Learned) :
    zoneOk z = true ↔ 40000 ≤ z.high - z.low ∧ z.high - z.low ≤ 400000 ∧ (z.up - z.down).natAbs ≤ 5000 := by
  simp only [zoneOk, Bool.and_eq_true, decide_eq_true_eq, and_assoc]
  rfl

/-- The checks that LEARN_RUN_COMPLETE makes are these. -/
theorem learnChecks_iff (m : Mach) (zs : List Learned) :
    (zs.all zoneOk && spacedOk (zs.map m.learnedSill)
      && decide ((zs.map m.learnedSill).getLastD 0 - (zs.map m.learnedSill).headD 0 ≤ 1000000000)
      && decide (((m.learnEntries zs).foldl stagePut m.cab.staged).length ≤ 2048)) = true ↔ LearnedWell m zs := by
  simp only [LearnedWell, Bool.and_eq_true, List.all_eq_true, zoneOk_iff, decide_eq_true_eq, and_assoc]

section
variable {s : State} (hover : s.now.passOver = true) (hpass : s.now.pos.learn.state = 3)
include hover hpass

theorem does_learnRunComplete_of_good {zs : List Learned} (hzs : s.now.learnedZones = some zs) (hgood : LearnedWell s.now zs) :
    Does .learnRunComplete s (({ s.now with
      cab.staged := (s.now.learnEntries zs).foldl stagePut s.now.cab.staged
      pos.learn := { LearnState.reset with state := 4, tag := s.now.pos.learn.tag } } : Mach).completed
        0x24 s.now.pos.learn.tag 0x00 1 4) := by
  refine does_of_onWhen (by rw [exec_learnRunComplete, execLearnRunComplete]) (by simp [hover, hpass]) ?_
  simp only [hzs, if_pos ((learnChecks_iff s.now zs).mpr hgood)]
  rfl

theorem does_learnRunComplete_of_bad (hbad : ∀ zs, s.now.learnedZones = some zs → ¬ LearnedWell s.now zs) :
    Does .learnRunComplete s ((({ s.now with
      pos.learn := { LearnState.reset with state := 5, tag := s.now.pos.learn.tag } } : Mach).raise 1 0x3D 1).completed
        0x24 s.now.pos.learn.tag 0x31 1 5) := by
  refine does_of_onWhen (by rw [exec_learnRunComplete, execLearnRunComplete]) (by simp [hover, hpass]) ?_
  cases hzs : s.now.learnedZones with
  | none => rfl
  | some zs =>
    simp only [if_neg (mt (learnChecks_iff s.now zs).mp (hbad zs hzs))]
    rfl

end

/-- Where the midpoint that HOME has measured is expected (03 R87). -/
def homeReference (m : Mach) : Int := m.land m.pos.home.landing (if m.pos.home.up then pDZ_MID_UP else pDZ_MID_DOWN)

/-- The homing run has ended. -/
def homeEnded (m : Mach) : Mach := { m with pos.home := HomeState.reset }

/-- The homing run has ended within HOME_TOL: the position is confirmed, but while 0x3E is in force (03 R96). -/
def homeConfirmed (m : Mach) : Mach := if m.inForce 1 0x3E then homeEnded m else (homeEnded m).confirm

/-- The homing run has ended beyond HOME_TOL: no processor's position is confirmed. -/
def homeUnconfirmed (m : Mach) : Mach :=
  { homeEnded m with pos.est := (homeEnded m).pos.est.map fun _ e => { e with confirmed := false } }

theorem homeStopped_iff (m : Mach) :
    m.homeStopped = true ↔ m.pos.home.active = true ∧ m.pos.home.returning = true ∧ m.engineFree = true := by
  simp only [Mach.homeStopped, Bool.and_eq_true, and_assoc]

section
variable {s : State} (hstop : s.now.homeStopped = true)
include hstop

theorem does_homeComplete_of_within (htol : (s.now.pos.home.mid - homeReference s.now).natAbs ≤ s.now.nat pHOME_TOL) :
    Does .homeComplete s ((if (homeConfirmed s.now).tapeInUse then (homeConfirmed s.now).endFault 1 0x32
      else homeConfirmed s.now).completed 0x25 s.now.pos.home.tag 0x00 1 0) := by
  refine does_of_onWhen (by rw [exec_homeComplete, execHomeComplete]) hstop ?_
  exact if_pos htol

theorem does_homeComplete_of_beyond (htol : s.now.nat pHOME_TOL < (s.now.pos.home.mid - homeReference s.now).natAbs) :
    Does .homeComplete s (((homeUnconfirmed s.now).raise 1 0x3E 3).completed 0x25 s.now.pos.home.tag 0x31 1 0) := by
  refine does_of_onWhen (by rw [exec_homeComplete, execHomeComplete]) hstop ?_
  exact if_neg (Nat.not_le.mpr htol)

end

/-- Settles O22: the conditions of a run are those of `learnMay_iff`, its results are judged by `learnChecks_iff`, and a
recovery initialises the estimate whatever it finds (`recoverAt_inited`). -/
theorem positionRecoveryLearnAndHome : Obligations.PositionRecoveryLearnAndHome := by
  unfold Obligations.PositionRecoveryLearnAndHome
  refine ⟨⟨fun s p => does_positionRecovery_of_tape, fun s p => does_positionRecovery_of_noTape,
    fun s p hstep hrec hinit => does_recoveryTimeout hrec hinit hstep, recoverAt_inited⟩,
    fun s tag hs => ⟨answers_learnRun_of_noSession hs, answers_learnRun_of_barred hs, ?_⟩,
    fun s tag dir hs => ⟨answers_home_of_badDirection hs, answers_home_of_barred hs, ?_⟩,
    fun s hover hpass => ⟨fun zs => does_learnRunComplete_of_good hover hpass, does_learnRunComplete_of_bad hover hpass⟩,
    fun s hactive hreturning hfree => ?_⟩
  · intro hsess hstill hinsp hevac htape hqual hfaults
    have hmay := (learnMay_iff s.now).mpr ⟨hstill, hinsp, hevac, htape, hqual, hfaults⟩
    exact ⟨answers_learnRun_of_busy hs hsess hmay, answers_learnRun_of_free hs hsess hmay⟩
  · intro hdir hstill hinsp hevac htape hqual hfaults
    have hmay := (learnMay_iff s.now).mpr ⟨hstill, hinsp, hevac, htape, hqual, hfaults⟩
    exact ⟨answers_home_of_busy hs hdir hmay, answers_home_of_free hs hdir hmay⟩
  · have hstop := (homeStopped_iff s.now).mpr ⟨hactive, hreturning, hfree⟩
    exact ⟨does_homeComplete_of_within hstop, does_homeComplete_of_beyond hstop⟩

end Sys2Proof.Proofs
end

section
/-!
PROOFS. The events of the motion engine: the condition of each one, and what it does to the plan, the brake request and
the faults (04 R108, R112 to R114, R120 to R122).
-/
namespace Sys2Proof.Proofs

open Sys2Proof Sys2Proof.Machine

/-! The arms of `exec`, so that a proof about one command does not need the equations of all of them. -/

theorem exec_engineStopEnd (s : State) : exec .engineStopEnd s = execEngineStopEnd s := rfl
theorem exec_drvStartTimeout (s : State) : exec .drvStartTimeout s = execDrvStartTimeout s := rfl
theorem exec_planEnd (s : State) : exec .planEnd s = execPlanEnd s := rfl
theorem exec_relevelStart (s : State) : exec .relevelStart s = execRelevelStart s := rfl
theorem exec_relevelTimeout (s : State) : exec .relevelTimeout s = execRelevelTimeout s := rfl
theorem exec_drvFbTimeout (s : State) : exec .drvFbTimeout s = execDrvFbTimeout s := rfl
theorem exec_trackVel (s : State) : exec .trackVel s = execTrackVel s := rfl
theorem exec_driveFeedback (msg : List Nat) (rx : Nat) (s : State) :
    exec (.driveFeedback msg rx) s = execDriveFeedback msg rx s := rfl

/-! The conditions of the events, part by part. -/

/-- A time in ms has passed when four frames for each of them have (02 R36). -/
theorem passedMs_iff (m : Mach) (f ms : Nat) : m.passedMs f ms = true ↔ 4 * ms ≤ m.time.frame - f :=
  decide_eq_true_iff

theorem fusedMoving_iff (m : Mach) : m.fusedMoving = true ↔ 1000 ≤ m.fvel.natAbs :=
  decide_eq_true_iff

theorem stopAtRest_iff (m : Mach) :
    m.stopAtRest = true ↔ m.eng.stop.isSome = true ∧ m.eng.kin.v = 0 ∧ m.eng.closing = false := by
  cases hstop : m.eng.stop with
  | none => simp [Mach.stopAtRest, hstop]
  | some r => simp [Mach.stopAtRest, hstop]

theorem planEnded_iff (m : Mach) : m.planEnded = true ↔ m.eng.stop = none ∧ m.eng.settleSince = none
    ∧ m.eng.closing = false ∧ m.eng.pendRest = false ∧ ∃ r, m.eng.exec = some r ∧ r.ended = true := by
  cases hexec : m.eng.exec with
  | none => simp [Mach.planEnded, hexec]
  | some r => simp [Mach.planEnded, hexec, and_assoc]

theorem relevelDue_iff (m : Mach) : m.relevelDue = true ↔ m.flag pRELEVEL_ENABLE = true ∧ m.stationary = true
    ∧ m.brakeClosed = true ∧ m.doorsInUse = true ∧ 2 ≤ m.quality ∧ m.eng.relReq = false ∧ m.eng.mode = 0
    ∧ m.eng.stop = none ∧ 4 * m.nat pRELEVEL_DELAY ≤ m.eng.relRun := by
  simp only [Mach.relevelDue, Bool.and_eq_true, Bool.not_eq_true', beq_iff_eq, Option.isNone_iff_eq_none,
    decide_eq_true_eq, and_assoc]
  rfl

theorem relevelFailed_iff (m : Mach) : m.relevelFailed = true ↔ m.eng.relReq = true ∧
    ((m.eng.relSince + 2 ≤ m.time.frame ∧ m.safe.grant = false) ∨ 12000 ≤ m.time.frame - m.eng.relSince) := by
  simp only [Mach.relevelFailed, Bool.and_eq_true, Bool.or_eq_true, Bool.not_eq_true', decide_eq_true_eq, passedMs_iff]

/-- The checks of a feedback message (04 R121); its echo may lie behind the last setpoint by two at most, modulo 2 ^ 16. -/
theorem feedbackOk_iff (m : Mach) (msg : List Nat) (rx : Nat) : m.feedbackOk msg rx = true ↔
    msg.length = 32 ∧ leAt msg 28 4 = crcSafety (le 4 (m.nat pDRV_FB_ID) ++ msg.take 28)
    ∧ leAt msg 2 1 = m.nat pDRV_FB_SRC ∧ (m.eng.fbSeen = true → newer 16 (leAt msg 0 2) m.eng.fb.seq = true)
    ∧ leAt msg 8 8 ≤ rx ∧ rx ≤ leAt msg 8 8 + 2000
    ∧ (m.eng.spSent = true → (m.eng.spSeq + 131071 - leAt msg 4 2) % 65536 ≤ 2) := by
  have hecho : decide ((m.eng.spSeq + 65535 + 65536 - leAt msg 4 2) % 65536 ≤ 2)
      = decide ((m.eng.spSeq + 131071 - leAt msg 4 2) % 65536 ≤ 2) := decide_eq_decide.mpr (by omega)
  rw [Mach.feedbackOk, hecho]
  simp only [Bool.and_eq_true, beq_iff_eq, decide_eq_true_eq, Bool.or_eq_true, Bool.not_eq_true',
    ← Bool.not_eq_true, ← imp_iff_not_or, and_assoc]

/-! The ends of motions. -/

theorem does_engineStopEnd {s : State} (hstop : s.now.eng.stop.isSome = true) (hv : s.now.eng.kin.v = 0)
    (hclosing : s.now.eng.closing = false) :
    Does .engineStopEnd s { s.now with eng.brakeReq := false, eng.closing := true } :=
  does_of_onWhen (by rw [exec_engineStopEnd, execEngineStopEnd]) ((stopAtRest_iff s.now).mpr ⟨hstop, hv, hclosing⟩) rfl

theorem does_drvStartTimeout {s : State} (hpend : s.now.eng.pendRest = true)
    (hpassed : 4 * s.now.nat pDRV_START_TIME ≤ s.now.time.frame - s.now.eng.pendSince) :
    Does .drvStartTimeout s (({ s.now with
      eng.pend := none, eng.pendRest := false, eng.brakeReq := false, eng.closing := s.now.eng.mode != 0 } : Mach).raise 1 0x46 3) := by
  refine does_of_onWhen (by rw [exec_drvStartTimeout, execDrvStartTimeout]) ?_ rfl
  rw [hpend, Bool.true_and, passedMs_iff]
  exact hpassed

theorem does_planEnd {s : State} {r : RunningPlan} (hexec : s.now.eng.exec = some r) (hended : r.ended = true)
    (hstop : s.now.eng.stop = none) (hsettle : s.now.eng.settleSince = none) (hclosing : s.now.eng.closing = false)
    (hpend : s.now.eng.pendRest = false) :
    Does .planEnd s { s.now with eng.mode := 3, eng.settleSince := some s.now.time.frame } :=
  does_of_onWhen (by rw [exec_planEnd, execPlanEnd])
    ((planEnded_iff s.now).mpr ⟨hstop, hsettle, hclosing, hpend, r, hexec, hended⟩) rfl

/-! Re-levelling. -/

theorem does_relevelStart {s : State} (hdue : s.now.relevelDue = true) :
    Does .relevelStart s { s.now with eng.relReq := true, eng.relSince := s.now.time.frame, eng.relMoving := false } :=
  does_of_onWhen (by rw [exec_relevelStart, execRelevelStart]) hdue rfl

/-- The request for bridging has ended with 0x48 (04 R114). -/
def relevelEnded (m : Mach) : Mach := { m with eng.relReq := false }.raise 1 0x48 3

section
variable {s : State} (hfailed : s.now.relevelFailed = true)
include hfailed

theorem does_relevelTimeout_of_noStart
    (hkeep : (relevelEnded s.now).eng.pendRest = false ∨ (relevelEnded s.now).planner = false) :
    Does .relevelTimeout s (relevelEnded s.now) := by
  refine does_of_onWhen (by rw [exec_relevelTimeout, execRelevelTimeout]) hfailed ?_
  exact if_neg (ne_true_of_eq_false (Bool.and_eq_false_iff.mpr hkeep))

theorem does_relevelTimeout_of_pendingStart (hpend : (relevelEnded s.now).eng.pendRest = true)
    (hplanner : (relevelEnded s.now).planner = true) :
    Does .relevelTimeout s { (relevelEnded s.now).cancelPlan with eng.closing := (relevelEnded s.now).eng.mode != 0 } := by
  refine does_of_onWhen (by rw [exec_relevelTimeout, execRelevelTimeout]) hfailed ?_
  exact if_pos (Bool.and_eq_true_iff.mpr ⟨hpend, hplanner⟩)

end

/-! The drive. -/

section
variable {s : State} (hon : s.now.eng.spOn = true) (hmiss : s.now.nat pDRV_FB_TIMEOUT ≤ s.now.eng.fbMiss)
include hon hmiss

theorem does_drvFbTimeout_of_moving (hv : 1000 ≤ s.now.fvel.natAbs) : Does .drvFbTimeout s (s.now.raise 1 0x41 5) := by
  refine does_of_onWhen (by rw [exec_drvFbTimeout, execDrvFbTimeout]) (by simp [hon, hmiss]) ?_
  exact if_pos ((fusedMoving_iff s.now).mpr hv)

theorem does_drvFbTimeout_of_atRest (hv : s.now.fvel.natAbs < 1000) : Does .drvFbTimeout s (s.now.raise 1 0x42 3) := by
  refine does_of_onWhen (by rw [exec_drvFbTimeout, execDrvFbTimeout]) (by simp [hon, hmiss]) ?_
  exact if_neg (mt (fusedMoving_iff s.now).mp (Nat.not_le.mpr hv))

end

theorem does_trackVel {s : State} (hrun : 4 * s.now.nat pTRACK_TIME ≤ s.now.eng.trackRun) :
    Does .trackVel s (s.now.raise 1 0x43 4) := by
  refine does_of_onWhen (by rw [exec_trackVel, execTrackVel]) ?_ rfl
  exact decide_eq_true hrun

/-- A feedback message is held: it answers its cycle, and a drive that is ready for a pending start has the brake asked
for (04 R112, R121). -/
def feedbackHeld (m : Mach) (fb : Feedback) : Mach := { m with
  eng.fb := fb
  eng.fbSeen := true
  eng.fbThisCycle := true
  eng.brakeReq := m.eng.brakeReq || (m.eng.pendRest && fb.state == 2) }

section
variable {s : State} {msg : List Nat} {rx : Nat} (hok : s.now.feedbackOk msg rx = true)
include hok

theorem does_driveFeedback_of_noFault (hstate : (parseFeedback msg).state ≠ 4) :
    Does (.driveFeedback msg rx) s (feedbackHeld s.now (parseFeedback msg)) := by
  refine does_of_onWhen (by rw [exec_driveFeedback, execDriveFeedback]) hok ?_
  exact if_neg (by simpa using hstate)

/-- Whether the car moves is judged by the fused velocity, which a message leaves as it was (04 R122). -/
theorem does_driveFeedback_of_fault (hstate : (parseFeedback msg).state = 4) :
    Does (.driveFeedback msg rx) s ((feedbackHeld s.now (parseFeedback msg)).raise 1 0x45
      (if 1000 ≤ s.now.fvel.natAbs then 5 else 3) (parseFeedback msg).code 0) := by
  refine does_of_onWhen (by rw [exec_driveFeedback, execDriveFeedback]) hok ?_
  simp only [← fusedMoving_iff]
  exact if_pos (by simpa using hstate)

end

theorem exec_driveFeedback_of_bad {s : State} {msg : List Nat} {rx : Nat} (hbad : s.now.feedbackOk msg rx = false) :
    exec (.driveFeedback msg rx) s = .next s :=
  exec_of_onWhen_false (by rw [exec_driveFeedback, execDriveFeedback]) hbad

/-- Settles O23: the condition of each event is the one of its rule (`planEnded_iff`, `relevelDue_iff`,
`relevelFailed_iff`, `feedbackOk_iff`), and each has its own effect under it. -/
theorem engineEventsComplete : Obligations.EngineEventsComplete := by
  unfold Obligations.EngineEventsComplete
  refine ⟨⟨fun s => does_engineStopEnd, fun s => does_drvStartTimeout, fun s r => does_planEnd, ?_, ?_,
    fun s hon hmiss => ⟨does_drvFbTimeout_of_moving hon hmiss, does_drvFbTimeout_of_atRest hon hmiss⟩,
    fun s => does_trackVel⟩, ?_, fun s msg rx => exec_driveFeedback_of_bad⟩
  · intro s henable hstat hbrake hdoors hqual hreq hmode hstop hrun
    exact does_relevelStart ((relevelDue_iff s.now).mpr ⟨henable, hstat, hbrake, hdoors, hqual, hreq, hmode, hstop, hrun⟩)
  · intro s hreq hlate
    have hfailed := (relevelFailed_iff s.now).mpr ⟨hreq, hlate⟩
    exact ⟨does_relevelTimeout_of_noStart hfailed, does_relevelTimeout_of_pendingStart hfailed⟩
  · intro s msg rx hlen hcrc hsrc hseq hold hnew hecho
    have hok := (feedbackOk_iff s.now msg rx).mpr ⟨hlen, hcrc, hsrc, hseq, hold, hnew, hecho⟩
    exact ⟨does_driveFeedback_of_noFault hok, does_driveFeedback_of_fault hok⟩

end Sys2Proof.Proofs
end

section
/-!
PROOFS. LEVEL_SETTLE_END: when the settle has lasted, whether a mean is taken, and whether a correction or the end of the
run follows (04 R113, R114).
-/
namespace Sys2Proof.Proofs

open Sys2Proof Sys2Proof.Machine

/-- The kind of the plan whose settle it is; 0 where none executes. -/
def settledKind (m : Mach) : Nat := match m.eng.exec with | some r => r.plan.kind | none => 0

/-- The mean that the end of a settle takes: none after INSPECT and EVAC (notes/assumptions/51.md). -/
def settleMean (m : Mach) : Option Int := if settledKind m == 3 || settledKind m == 4 then none else m.levelMean

/-- What the end of a settle does with its mean. -/
def settleEnded (m : Mach) : Option Int → Mach
  | none => m.endRun
  | some x => if m.corrects (settledKind m) x then (if m.planner then m.levelCorr x else m) else (m.takeMean x true).endRun

theorem exec_levelSettleEnd (s : State) :
    exec .levelSettleEnd s = onWhen s s.now.settleDone fun m => settleEnded m (settleMean m) := rfl

theorem does_levelSettleEnd {s : State} {o : Option Int} (hdone : s.now.settleDone = true) (hmean : settleMean s.now = o) :
    Does .levelSettleEnd s (settleEnded s.now o) :=
  does_of_onWhen (exec_levelSettleEnd s) hdone (congrArg (settleEnded s.now) hmean)

theorem settleDone_of_passed {m : Mach} {f : Nat} (hsince : m.eng.settleSince = some f)
    (hpassed : 4 * m.nat pLEVEL_SETTLE ≤ m.time.frame - f) : m.settleDone = true := by
  simp only [Mach.settleDone, hsince]
  exact (passedMs_iff m f _).mpr hpassed

theorem corrects_iff (m : Mach) (kind : Nat) (x : Int) : m.corrects kind x = true ↔
    (kind = 0 ∨ kind = 1 ∨ kind = 5 ∨ kind = 6) ∧ m.nat pLEVEL_TOL < x.natAbs ∧ m.eng.retries < m.nat pLEVEL_RETRIES := by
  simp only [Mach.corrects, Bool.and_eq_true, Bool.or_eq_true, beq_iff_eq, decide_eq_true_eq, and_assoc, or_assoc]
  rfl

/-- Within LEVEL_TOL, with no correction left, or after a RELEVEL plan, no correction is due (04 R113, R114). -/
theorem not_corrects {m : Mach} {kind : Nat} {x : Int}
    (h : x.natAbs ≤ m.nat pLEVEL_TOL ∨ m.nat pLEVEL_RETRIES ≤ m.eng.retries ∨ kind = 2) : ¬ m.corrects kind x = true := by
  rw [corrects_iff]
  omega

/-- The engine's answer to the plan of a correction by the mean x (04 R113). -/
def correction (m : Mach) (x : Int) : Mach × Bool :=
  ({ m with eng.settleSince := none } : Mach).planFromRest 1 (unitOf m.eng.kin.p - x)

theorem levelCorr_of_loaded {m : Mach} {x : Int} (h : (correction m x).2 = true) :
    m.levelCorr x = ({ (correction m x).1 with eng.retries := (correction m x).1.eng.retries + 1 } : Mach).takeMean x false :=
  if_pos h

theorem levelCorr_of_refused {m : Mach} {x : Int} (h : (correction m x).2 = false) :
    m.levelCorr x = ((correction m x).1.takeMean x true).endRun :=
  if_neg (ne_true_of_eq_false h)

/-! The mean that is taken, and what follows it. -/

theorem settleMean_eq_none {m : Mach} (h : settledKind m = 3 ∨ settledKind m = 4 ∨ m.levelMean = none) :
    settleMean m = none := by
  obtain h3 | h4 | hmean := h
  · rw [settleMean, h3]
    rfl
  · rw [settleMean, h4]
    rfl
  · rw [settleMean, hmean, ite_self]

theorem settleMean_eq_some {m : Mach} {x : Int} (h3 : settledKind m ≠ 3) (h4 : settledKind m ≠ 4)
    (hmean : m.levelMean = some x) : settleMean m = some x := by
  rw [settleMean, if_neg (by simp [h3, h4]), hmean]

theorem settleEnded_of_not_corrects {m : Mach} {x : Int} (h : ¬ m.corrects (settledKind m) x = true) :
    settleEnded m (some x) = (m.takeMean x true).endRun :=
  if_neg h

/-- A correction that is due waits for a planner (04 R123). -/
theorem settleEnded_of_corrects {m : Mach} {x : Int} (h : m.corrects (settledKind m) x = true) :
    settleEnded m (some x) = if m.planner then m.levelCorr x else m :=
  if_pos h

/-- Settles O24: whether a mean is taken depends on the kind of the plan, and whether a correction follows it on
`Mach.corrects` and the planner. -/
theorem levelSettleEnds : Obligations.LevelSettleEnds := by
  unfold Obligations.LevelSettleEnds
  intro s f hsince hpassed fin kind
  have hdone := settleDone_of_passed hsince hpassed
  refine ⟨fun hnone => does_levelSettleEnd hdone (settleMean_eq_none hnone), fun x h3 h4 hmean => ?_⟩
  have hdoes := does_levelSettleEnd hdone (settleMean_eq_some h3 h4 hmean)
  refine ⟨fun hlast => ?_, fun hkind htol hleft => ?_⟩
  · rwa [settleEnded_of_not_corrects (not_corrects hlast)] at hdoes
  · rw [settleEnded_of_corrects ((corrects_iff s.now _ x).mpr ⟨hkind, htol, hleft⟩)] at hdoes
    refine ⟨fun hwait => ?_, fun hplanner => ⟨fun hloaded => ?_, fun hrefused => ?_⟩⟩
    · rwa [if_neg (ne_true_of_eq_false hwait)] at hdoes
    · rwa [if_pos hplanner, levelCorr_of_loaded hloaded] at hdoes
    · rwa [if_pos hplanner, levelCorr_of_refused hrefused] at hdoes

end Sys2Proof.Proofs
end

section
/-!
PROOFS. CALL_ADD, CALL_CANCEL and RUN_TO: the row that decides each of them (05 R127, R128, R548).
-/
namespace Sys2Proof.Proofs

open Sys2Proof Sys2Proof.Machine

/-! The arms of `exec`, so that a proof about one command does not need the equations of all of them. -/

theorem exec_callAdd (tag l k sides : Nat) (s : State) : exec (.callAdd tag l k sides) s = execCallAdd tag l k sides s := rfl
theorem exec_callCancel (tag l k sides : Nat) (s : State) :
    exec (.callCancel tag l k sides) s = execCallCancel tag l k sides s := rfl
theorem exec_runTo (tag l sides : Nat) (s : State) : exec (.runTo tag l sides) s = execRunTo tag l sides s := rfl

/-! The form of a call. -/

/-- A landing's call whose side mask and type pass the second row of 05 R127. -/
def MaskGood (m : Mach) (l k sides : Nat) : Prop :=
  1 ≤ sides ∧ sides ≤ 3 ∧ k ≤ 2 ∧ sides &&& m.sidesServed l = sides

theorem not_maskGood_iff (m : Mach) (l k sides : Nat) :
    ¬ MaskGood m l k sides ↔ sides = 0 ∨ 3 < sides ∨ 2 < k ∨ sides &&& m.sidesServed l ≠ sides := by
  rw [MaskGood, not_and_or, not_and_or, not_and_or, Nat.not_le, Nat.lt_one_iff, Nat.not_le, Nat.not_le]

/-- The check that `Mach.callForm` makes is this one. -/
theorem maskCheck_iff (m : Mach) (l k sides : Nat) :
    (sides == 0 || 3 < sides || 2 < k || (sides &&& m.sidesServed l) != sides) = true ↔ ¬ MaskGood m l k sides := by
  simp only [not_maskGood_iff, Bool.or_eq_true, beq_iff_eq, decide_eq_true_eq, bne_iff_ne, or_assoc]

section
variable {m : Mach} {l k sides : Nat}

theorem callForm_of_noLanding (hl : m.nLandings ≤ l) : m.callForm l k sides = 0x30 :=
  if_pos hl

variable (hl : l < m.nLandings)
include hl

/-- The second and the third row of R127 refuse alike. -/
theorem callForm_of_bad (hbad : ¬ MaskGood m l k sides ∨ m.badHall l k = true) : m.callForm l k sides = 0x13 := by
  refine (if_neg (Nat.not_le.mpr hl)).trans ?_
  by_cases hmask : MaskGood m l k sides
  · exact (if_neg (mt (maskCheck_iff m l k sides).mp (not_not_intro hmask))).trans
      (if_pos (hbad.resolve_left (not_not_intro hmask)))
  · exact if_pos ((maskCheck_iff m l k sides).mpr hmask)

theorem callForm_of_good (hmask : MaskGood m l k sides) (hhall : m.badHall l k = false) : m.callForm l k sides = 0x00 :=
  (if_neg (Nat.not_le.mpr hl)).trans ((if_neg (mt (maskCheck_iff m l k sides).mp (not_not_intro hmask))).trans
    (if_neg (ne_true_of_eq_false hhall)))

end

/-! Whether a call of good form is taken now. -/

/-- The state of the module or of the landing bars the call (05 R127). -/
def CallBarred (m : Mach) (l k : Nat) : Prop :=
  m.nat pSCHED_MODE = 0 ∨ (k ≠ 0 ∧ m.nat pSCHED_MODE = 2) ∨ m.sched.inService = false ∨ m.inspection = true
    ∨ m.evacuation = true ∨ m.landingOn l = false

/-- The check that `Mach.callStatus` makes is this one. -/
theorem barCheck_iff (m : Mach) (l k : Nat) :
    (m.nat pSCHED_MODE == 0 || (k != 0 && m.nat pSCHED_MODE == 2) || !m.sched.inService || m.inspection || m.evacuation
      || !m.landingOn l) = true ↔ CallBarred m l k := by
  simp only [CallBarred, Bool.or_eq_true, Bool.and_eq_true, beq_iff_eq, bne_iff_ne, Bool.not_eq_true', or_assoc]

/-- The landing's permission for calls of this type (05 R127). -/
def callPermit (m : Mach) (l k : Nat) : Int := m.land l (if k = 0 then pCAR_CALL_EN else pHALL_CALL_EN)

section
variable {m : Mach} {l k sides : Nat}

theorem callStatus_of_badForm {st : Nat} (hform : m.callForm l k sides = st) (hst : st ≠ 0) : m.callStatus l k sides = st := by
  rw [Mach.callStatus, hform]
  exact if_pos (by simpa [stOK] using hst)

variable (hform : m.callForm l k sides = 0x00)
include hform

theorem callStatus_of_barred (hbar : CallBarred m l k) : m.callStatus l k sides = 0x22 := by
  rw [Mach.callStatus, hform]
  exact (if_neg (by decide)).trans (if_pos ((barCheck_iff m l k).mpr hbar))

theorem callStatus_of_not_barred (hbar : ¬ CallBarred m l k) :
    m.callStatus l k sides = if callPermit m l k = 0 then 0x20 else 0x00 := by
  rw [Mach.callStatus, hform]
  refine (if_neg (by decide)).trans ((if_neg (mt (barCheck_iff m l k).mp hbar)).trans ?_)
  by_cases hk : k = 0 <;> simp [callPermit, hk, stDENIED, stOK]

theorem callStatus_of_denied (hbar : ¬ CallBarred m l k) (hpermit : callPermit m l k = 0) : m.callStatus l k sides = 0x20 := by
  rw [callStatus_of_not_barred hform hbar, if_pos hpermit]

theorem callStatus_of_permitted (hbar : ¬ CallBarred m l k) (hpermit : callPermit m l k ≠ 0) :
    m.callStatus l k sides = 0x00 := by
  rw [callStatus_of_not_barred hform hbar, if_neg hpermit]

end

theorem not_callBarred {m : Mach} {l k : Nat} (hmode : m.nat pSCHED_MODE ≠ 0) (hgroup : k ≠ 0 → m.nat pSCHED_MODE ≠ 2)
    (hserv : m.sched.inService = true) (hinsp : m.inspection = false) (hevac : m.evacuation = false)
    (hland : m.landingOn l = true) : ¬ CallBarred m l k := by
  simpa [CallBarred, hmode, hserv, hinsp, hevac, hland] using hgroup

/-! The answers of CALL_ADD and CALL_CANCEL. -/

section
variable {s : State} {tag l k sides st : Nat}

theorem answers_callAdd_of_refused (hs : Serves s 0x20) (hst : s.now.callStatus l k sides = st) (hbad : st ≠ 0) :
    Answers (.callAdd tag l k sides) s 0x20 tag st [] s.now := by
  refine answers_of_serves hs (exec_callAdd ..) ?_
  rw [hst]
  exact if_neg (by simpa [stOK] using hbad)

theorem answers_callAdd_of_accepted (hs : Serves s 0x20) (hst : s.now.callStatus l k sides = 0x00) :
    Answers (.callAdd tag l k sides) s 0x20 tag 0x00 [] (s.now.queueCall ⟨2, true, l, k, sides, none, false⟩) := by
  refine answers_of_serves hs (exec_callAdd ..) ?_
  rw [hst]
  rfl

theorem answers_callCancel_of_refused (hs : Serves s 0x21) (hst : s.now.callForm l k sides = st) (hbad : st ≠ 0) :
    Answers (.callCancel tag l k sides) s 0x21 tag st [] s.now := by
  refine answers_of_serves hs (exec_callCancel ..) ?_
  rw [hst]
  exact if_neg (by simpa [stOK] using hbad)

theorem answers_callCancel_of_accepted (hs : Serves s 0x21) (hst : s.now.callForm l k sides = 0x00) :
    Answers (.callCancel tag l k sides) s 0x21 tag 0x00 [] (s.now.queueCall ⟨2, false, l, k, sides, none, false⟩) := by
  refine answers_of_serves hs (exec_callCancel ..) ?_
  rw [hst]
  rfl

end

/-! RUN_TO. -/

section
variable {s : State} {tag l sides : Nat} (hs : Serves s 0x22)
include hs

theorem answers_runTo_of_otherMode (hmode : s.now.nat pSCHED_MODE ≠ 0) :
    Answers (.runTo tag l sides) s 0x22 tag 0x22 [] s.now := by
  refine answers_of_serves hs (exec_runTo ..) ?_
  exact if_pos (bne_iff_ne.mpr hmode)

variable (hmode : s.now.nat pSCHED_MODE = 0)
include hmode

theorem answers_runTo_of_noLanding (hl : s.now.nLandings ≤ l) : Answers (.runTo tag l sides) s 0x22 tag 0x30 [] s.now := by
  refine answers_of_serves hs (exec_runTo ..) ?_
  exact (if_neg (by simp [hmode])).trans (if_pos hl)

variable (hl : l < s.now.nLandings)
include hl

theorem answers_runTo_of_badSide (hside : 3 < sides ∨ sides &&& s.now.sidesServed l ≠ sides) :
    Answers (.runTo tag l sides) s 0x22 tag 0x13 [] s.now := by
  refine answers_of_serves hs (exec_runTo ..) ?_
  exact (if_neg (by simp [hmode])).trans ((if_neg (Nat.not_le.mpr hl)).trans (if_pos (by simpa using hside)))

variable (hmask : sides ≤ 3) (hserved : sides &&& s.now.sidesServed l = sides)
include hmask hserved

theorem answers_runTo_of_barred (hbar : s.now.sched.inService = false ∨ s.now.inspection = true ∨ s.now.evacuation = true
    ∨ s.now.landingOn l = false) : Answers (.runTo tag l sides) s 0x22 tag 0x22 [] s.now := by
  refine answers_of_serves hs (exec_runTo ..) ?_
  exact (if_neg (by simp [hmode])).trans ((if_neg (Nat.not_le.mpr hl)).trans ((if_neg (by simp [hserved, hmask])).trans
    (if_pos (by simpa [or_assoc] using hbar))))

theorem answers_runTo_of_accepted (hserv : s.now.sched.inService = true) (hinsp : s.now.inspection = false)
    (hevac : s.now.evacuation = false) (hland : s.now.landingOn l = true) :
    Answers (.runTo tag l sides) s 0x22 tag 0x00 []
      { s.now.bumpEpoch with sched.runTo := some (l, sides), sched.replan := true } := by
  refine answers_of_serves hs (exec_runTo ..) ?_
  exact (if_neg (by simp [hmode])).trans ((if_neg (Nat.not_le.mpr hl)).trans ((if_neg (by simp [hserved, hmask])).trans
    (if_neg (by simp [hserv, hinsp, hevac, hland]))))

end

/-- Settles O26: each row is reached where those before it do not apply. -/
theorem runToAnswered : Obligations.RunToAnswered := by
  unfold Obligations.RunToAnswered
  exact fun s tag l sides hs => ⟨answers_runTo_of_otherMode hs, fun hmode => ⟨answers_runTo_of_noLanding hs hmode, fun hl =>
    ⟨answers_runTo_of_badSide hs hmode hl, fun hmask hserved => ⟨answers_runTo_of_barred hs hmode hl hmask hserved,
      answers_runTo_of_accepted hs hmode hl hmask hserved⟩⟩⟩⟩

end Sys2Proof.Proofs
end

section
/-!
PROOFS. The call commands and STOP, the timed events of the scheduler, and the delivery of a frame's decision (05 R127 to
R129, R137, R145, R146, R148, R151; 04 R108, R111).
-/
namespace Sys2Proof.Proofs

open Sys2Proof Sys2Proof.Machine

/-! The arms of `exec`, so that a proof about one command does not need the equations of all of them. -/

theorem exec_stopImmediate (tag : Nat) (s : State) : exec (.stopImmediate tag) s = execStopImmediate tag s := rfl
theorem exec_stopEmergencyRamp (tag : Nat) (s : State) : exec (.stopEmergencyRamp tag) s = execStopEmergencyRamp tag s := rfl
theorem exec_stopAtLanding (tag : Nat) (s : State) : exec (.stopAtLanding tag) s = execStopAtLanding tag s := rfl
theorem exec_parkDelayExpired (s : State) : exec .parkDelayExpired s = execParkDelayExpired s := rfl
theorem exec_schedStall (s : State) : exec .schedStall s = execSchedStall s := rfl
theorem exec_groupLost (s : State) : exec .groupLost s = execGroupLost s := rfl

/-! STOP. -/

theorem stopReq_changesOnly_eng (m : Mach) (k : StopKind) : changesOnly [.eng] m (m.stopReq k) := by
  intro p hp
  cases p with
  | eng => exact absurd (List.mem_singleton_self _) hp
  | _ => rfl

section
variable {s : State} {tag : Nat} (hs : Serves s 0x23)
include hs

/-- From READY on STOP of modes 1 and 2 asks the engine for its stop; before, it has no effect (04 R108; 14 R454). -/
theorem answers_stops {ready : Bool} (hready : s.now.start.ready = ready) :
    Answers (.stopImmediate tag) s 0x23 tag 0x00 [] (s.now.when ready fun m => m.stopReq .immediate)
      ∧ Answers (.stopEmergencyRamp tag) s 0x23 tag 0x00 [] (s.now.when ready fun m => m.stopReq .ramp) := by
  subst hready
  exact ⟨answers_of_serves hs (exec_stopImmediate ..) rfl,
    answers_of_serves hs (exec_stopEmergencyRamp ..) rfl⟩

theorem answers_stopAtLanding_of_noLearn (hlearn : (s.now.putI 0 pSCHED_HOLD 1).pos.learn.active = false) :
    Answers (.stopAtLanding tag) s 0x23 tag 0x00 [] { s.now.putI 0 pSCHED_HOLD 1 with sched.exitReq := true } := by
  refine answers_of_serves hs (exec_stopAtLanding ..) ?_
  exact if_neg (ne_true_of_eq_false hlearn)

theorem answers_stopAtLanding_of_learn (hlearn : (s.now.putI 0 pSCHED_HOLD 1).pos.learn.active = true) :
    Answers (.stopAtLanding tag) s 0x23 tag 0x00 [] (s.now.putI 0 pSCHED_HOLD 1).endLearn := by
  refine answers_of_serves hs (exec_stopAtLanding ..) ?_
  exact if_pos hlearn

end

/-! The timed events of the scheduler. -/

theorem parkDue_iff (m : Mach) : m.parkDue = true ↔ m.nat pPARK_LANDING ≠ 0xFFFF ∧ m.nat pPARK_LANDING < m.nLandings
    ∧ m.landingOn (m.nat pPARK_LANDING) = true ∧ m.curLanding ≠ some (m.nat pPARK_LANDING) ∧ m.readyForRun = true
    ∧ m.sched.stops = [] ∧ m.sched.calls = [] ∧ 4000 * m.nat pPARK_DELAY ≤ m.time.frame - m.sched.idleSince := by
  simp only [Mach.parkDue, Mach.parkable, Bool.and_eq_true, bne_iff_ne, beq_iff_eq, decide_eq_true_eq, and_assoc]
  rfl

theorem stalled_iff (m : Mach) : m.stalled = true ↔
    m.sched.runDue = true ∧ 4 * m.nat pSCHED_STALL_TIME ≤ m.time.frame - m.sched.dueSince := by
  rw [Mach.stalled, Bool.and_eq_true, passedMs_iff]

theorem heldUp_iff (m : Mach) : m.heldUp = true ↔
    m.sched.lowDue = true ∧ 4 * m.nat pSCHED_STALL_TIME ≤ m.time.frame - m.sched.lowSince := by
  rw [Mach.heldUp, Bool.and_eq_true, passedMs_iff]

theorem does_parkDelayExpired {s : State} (hdue : s.now.parkDue = true) :
    Does .parkDelayExpired s { s.now.commitRest (s.now.nat pPARK_LANDING)
      (if s.now.refLanding < s.now.nat pPARK_LANDING then 1 else 2) false with sched.parkRun := true } :=
  does_of_onWhen (exec_parkDelayExpired ..) hdue rfl

theorem does_schedStall_of_stalled {s : State} (hstall : s.now.stalled = true) : Does .schedStall s (s.now.raise 1 0x4A 3) := by
  refine does_of_onWhen (exec_schedStall ..) (by rw [hstall, Bool.true_or]) ?_
  exact if_pos hstall

theorem does_schedStall_of_heldUp {s : State} (hfree : s.now.stalled = false) (hheld : s.now.heldUp = true) :
    Does .schedStall s (s.now.raise 1 0x4E 1) := by
  refine does_of_onWhen (exec_schedStall ..) (by rw [hheld, Bool.or_true]) ?_
  exact if_neg (ne_true_of_eq_false hfree)

theorem does_groupLost {s : State} (hmode : s.now.nat pSCHED_MODE = 2) (hpower : s.now.power.state ≠ 3)
    (hpassed : 4 * s.now.nat pGROUP_HB_TIMEOUT ≤ s.now.time.frame - s.now.sched.hbLast) :
    Does .groupLost s (s.now.raise 1 0x4C 1) := by
  refine does_of_onWhen (exec_groupLost ..) ?_ rfl
  rw [beq_iff_eq.mpr hmode, bne_iff_ne.mpr hpower, Bool.true_and, Bool.true_and, passedMs_iff]
  exact hpassed

/-! The delivery of a frame's decision (notes/assumptions/45.md). -/

theorem deliver_of_exit {m : Mach} (hdecided : m.sched.decided = true) (hexit : m.sched.exitReq = true)
    (hplanner : m.planner = true) : m.deliver = m.exitPlan :=
  if_pos (by rw [hdecided, hexit, hplanner]; rfl)

theorem deliver_of_no_exit {m : Mach} (hkeep : m.sched.decided = false ∨ m.sched.exitReq = false ∨ m.planner = false) :
    m.deliver = m :=
  if_neg (by simpa [← Bool.not_eq_true, imp_iff_not_or, or_assoc] using hkeep)

/-- Settles O25: the rows of CALL_ADD and CALL_CANCEL are those of `callForm` and `callStatus`, and the condition of each
event is the one of its rule (`parkDue_iff`, `stalled_iff`, `heldUp_iff`). -/
theorem callAndSchedulerCommandsComplete : Obligations.CallAndSchedulerCommandsComplete := by
  unfold Obligations.CallAndSchedulerCommandsComplete
  refine ⟨⟨fun s tag l k sides hs => ?_, fun s tag l k sides hs => ?_⟩,
    ⟨fun s tag hs => answers_stops hs, fun s tag hs => answers_stops hs,
      fun s tag hs => ⟨answers_stopAtLanding_of_noLearn hs, answers_stopAtLanding_of_learn hs⟩,
      fun m k => ⟨rfl, stopReq_changesOnly_eng m k⟩⟩,
    ⟨fun s hset hl hon hother hready hstops hcalls hidle =>
        does_parkDelayExpired ((parkDue_iff s.now).mpr ⟨hset, hl, hon, hother, hready, hstops, hcalls, hidle⟩),
      fun s hdue hpassed => does_schedStall_of_stalled ((stalled_iff s.now).mpr ⟨hdue, hpassed⟩),
      fun s hfree hlow hpassed => ?_, fun s => does_groupLost, fun m => ⟨deliver_of_exit, deliver_of_no_exit⟩⟩⟩
  · have refused {st : Nat} (hform : s.now.callForm l k sides = st) (hst : st ≠ 0) :
        Answers (.callAdd tag l k sides) s 0x20 tag st [] s.now :=
      answers_callAdd_of_refused hs (callStatus_of_badForm hform hst) hst
    refine ⟨fun hl => refused (callForm_of_noLanding hl) (by decide), fun hl =>
      ⟨fun hbad => refused (callForm_of_bad hl (.inl ((not_maskGood_iff s.now l k sides).mpr hbad))) (by decide),
        fun hhall => refused (callForm_of_bad hl (.inr hhall)) (by decide), fun h1 h3 hk hserved hhall => ?_⟩⟩
    have hform := callForm_of_good hl ⟨h1, h3, hk, hserved⟩ hhall
    refine ⟨fun hbar => answers_callAdd_of_refused hs (callStatus_of_barred hform hbar) (by decide),
      fun hmode hgroup hserv hinsp hevac hland => ?_⟩
    have hfree := not_callBarred hmode hgroup hserv hinsp hevac hland
    exact ⟨fun hpermit => answers_callAdd_of_refused hs (callStatus_of_denied hform hfree hpermit) (by decide),
      fun hpermit => answers_callAdd_of_accepted hs (callStatus_of_permitted hform hfree hpermit)⟩
  · refine ⟨fun hl => answers_callCancel_of_refused hs (callForm_of_noLanding hl) (by decide), fun hl => ⟨fun hbad => ?_,
      fun h1 h3 hk hserved hhall => answers_callCancel_of_accepted hs (callForm_of_good hl ⟨h1, h3, hk, hserved⟩ hhall)⟩⟩
    have hform : s.now.callForm l k sides = 0x13 :=
      callForm_of_bad hl (by simpa only [not_maskGood_iff, or_assoc] using hbad)
    exact answers_callCancel_of_refused hs hform (by decide)
  · have hstall : s.now.stalled = false := by rw [Mach.stalled, hfree, Bool.false_and]
    exact does_schedStall_of_heldUp hstall ((heldUp_iff s.now).mpr ⟨hlow, hpassed⟩)

end Sys2Proof.Proofs
end

section
/-!
PROOFS. The profile messages: LOCK and its use at the freeze, the group controller, the car panel, the landing fixtures and
the indications (11 R366 to R375; 05 R127, R128, R135 to R137; 06 R164; 07 R216).
-/
namespace Sys2Proof.Proofs

open Sys2Proof Sys2Proof.Machine

/-! The arms of `exec`, so that a proof about one command does not need the equations of all of them. -/

theorem exec_lock (p : Ab) (id : Nat) (x : Kept (List Nat)) (s : State) : exec (.lock p id x) s = execLock p id x s := rfl
theorem exec_groupAssign (p : Ab) (b : List Nat) (s : State) : exec (.groupAssign p b) s = execGroupAssign p b s := rfl
theorem exec_groupWithdraw (p : Ab) (b : List Nat) (s : State) : exec (.groupWithdraw p b) s = execGroupWithdraw p b s := rfl
theorem exec_groupHb (p : Ab) (b : List Nat) (s : State) : exec (.groupHb p b) s = execGroupHb p b s := rfl
theorem exec_hallBtn (p : Ab) (id : Nat) (b : List Nat) (s : State) : exec (.hallBtn p id b) s = execHallBtn p id b s := rfl
theorem exec_indRefresh (s : State) : exec .indRefresh s = execIndRefresh s := rfl
theorem exec_panelCallAdd (p : Ab) (b : List Nat) (s : State) : exec (.panelCallAdd p b) s = execPanelCallAdd p b s := rfl
theorem exec_panelCallCancel (p : Ab) (b : List Nat) (s : State) :
    exec (.panelCallCancel p b) s = execPanelCallCancel p b s := rfl
theorem exec_panelDoorOpen (p : Ab) (b : List Nat) (s : State) : exec (.panelDoorOpen p b) s = execPanelDoorOpen p b s := rfl
theorem exec_panelDoorClose (p : Ab) (b : List Nat) (s : State) : exec (.panelDoorClose p b) s = execPanelDoorClose p b s := rfl

/-! LOCK as the bus controller takes it (11 R368; 01 R18). -/

section
variable (m : Mach) (p : Ab) {id : Nat} {b : List Nat} {ecc : Ecc}

theorem lockReceived_of_double : m.lockReceived p id b .double = m := rfl

variable (hecc : ecc ≠ .double)
include hecc

theorem lockReceived_of_badCrc (hcrc : safetyOk id b = false) : m.lockReceived p id b ecc = m.busCrcErr p :=
  (if_neg (by simpa using hecc)).trans (if_pos (by simp [hcrc]))

theorem lockReceived_of_bad (hcrc : safetyOk id b = true) (hbad : m.lockBad id b = true) :
    m.lockReceived p id b ecc = { m with bus.lockInvalid := sat32 m.bus.lockInvalid } :=
  (if_neg (by simpa using hecc)).trans ((if_neg (by simp [hcrc])).trans (if_pos hbad))

theorem lockReceived_of_good (hcrc : safetyOk id b = true) (hgood : m.lockBad id b = false) :
    m.lockReceived p id b ecc = { m with safe.lockBox := m.safe.lockBox ++ [(id, b)] } :=
  (if_neg (by simpa using hecc)).trans ((if_neg (by simp [hcrc])).trans (if_neg (ne_true_of_eq_false hgood)))

end

/-- LOCK in form on the lock port: what the bus controller makes of it, and what its buffer's ECC found (01 R18). -/
theorem does_lock {s : State} {p : Ab} {id : Nat} {b : List Nat} {ecc : Ecc} {m : Mach} (hport : abOf (s.now.nat pLOCK_PORT) = p)
    (hpart : (s.now.prt p).takesPart = true) (hform : (Msg.lock 0).formOk b = true)
    (hreceived : s.now.lockReceived p id b ecc = m) : Does (.lock p id ⟨b, ecc⟩) s (m.eccSeen 12 ecc) := by
  subst hreceived
  exact does_of_onWhen (exec_lock ..) (by simp [hport, hpart, hform]) rfl

/-! LOCK at the freeze (07 R216, R248). -/

/-- A message of the locks is newer than the one before and was sampled within the 10 ms before the freeze (07 R216). -/
def LockFresh (m : Mach) (id : Nat) (b : List Nat) : Prop :=
  m.msgTaken (abOf (m.nat pLOCK_PORT)) (.lock 0) id b = true ∧ (m.ts : Int) - 10000 ≤ extend32 m.ts (leAt b 12 4)
    ∧ extend32 m.ts (leAt b 12 4) ≤ (m.ts : Int)

/-- The check that `Mach.useLock` makes is the CRC and this. -/
theorem lockCheck_iff (m : Mach) (id : Nat) (b : List Nat) :
    (safetyOk id b && m.msgTaken (abOf (m.nat pLOCK_PORT)) (.lock 0) id b
      && decide ((m.ts : Int) - 10000 ≤ extend32 m.ts (leAt b 12 4))
      && decide (extend32 m.ts (leAt b 12 4) ≤ (m.ts : Int))) = true
      ↔ safetyOk id b = true ∧ LockFresh m id b := by
  simp only [LockFresh, Bool.and_eq_true, decide_eq_true_eq, and_assoc]

section
variable {m : Mach} {id : Nat} {b : List Nat}

theorem useLock_of_badCrc (hcrc : safetyOk id b = false) : m.useLock id b = m := by
  have hcheck := mt (lockCheck_iff m id b).mp fun h => ne_true_of_eq_false hcrc h.left
  exact (if_neg hcheck).trans (if_neg (ne_true_of_eq_false hcrc))

variable (hcrc : safetyOk id b = true)
include hcrc

theorem useLock_of_fresh (hfresh : LockFresh m id b) : m.useLock id b =
    (m.msgAccept (abOf (m.nat pLOCK_PORT)) id b).each (List.range (nth b 6 0)) fun m k =>
      m.takeLock (leAt b 4 2 + k) (field (leAt b 8 4) (4 * k + 3) (4 * k)) :=
  if_pos ((lockCheck_iff m id b).mpr ⟨hcrc, hfresh⟩)

theorem useLock_of_stale (hstale : ¬ LockFresh m id b) : m.useLock id b =
    m.each (List.range (nth b 6 0)) fun m k => m.setLock { m.lockOf (leAt b 4 2 + k) with good := 0 } := by
  have hcheck := mt (lockCheck_iff m id b).mp fun h => hstale h.right
  exact (if_neg hcheck).trans (if_pos hcrc)

end

/-! The group controller. -/

theorem does_groupAssign {s : State} {p : Ab} {b : List Nat} (htaken : s.now.groupTaken p b = true) (hop : nth b 4 0 ≠ 2) :
    Does (.groupAssign p b) s (s.now.groupCmd p b) :=
  does_of_onWhen (exec_groupAssign ..) (by simp [htaken, hop]) rfl

theorem does_groupWithdraw {s : State} {p : Ab} {b : List Nat} (htaken : s.now.groupTaken p b = true) (hop : nth b 4 0 = 2) :
    Does (.groupWithdraw p b) s (s.now.groupCmd p b) :=
  does_of_onWhen (exec_groupWithdraw ..) (by simp [htaken, hop]) rfl

/-- A GROUP_CMD whose direction is up or down is of a hall call (11 R369). -/
def HallCall (b : List Nat) : Prop := field (nth b 5 0) 1 0 = 1 ∨ field (nth b 5 0) 1 0 = 2

/-- A GROUP_CMD of one of the two OPs, of a hall call, passes the check of its form (11 R369). -/
theorem groupForm_ok {b : List Nat} (hop : nth b 4 0 = 1 ∨ nth b 4 0 = 2) (hcall : HallCall b) :
    ¬ ((nth b 4 0 != 1 && nth b 4 0 != 2) || field (nth b 5 0) 1 0 == 0 || field (nth b 5 0) 1 0 == 3) = true := by
  simp only [Bool.or_eq_true, Bool.and_eq_true, bne_iff_ne, beq_iff_eq]
  rw [HallCall] at hcall
  omega

/-- A withdrawal of a hall call is queued, to be answered when it is applied (05 R135, R136). -/
theorem groupCmd_of_withdrawal (m : Mach) (p : Ab) {b : List Nat} (hop : nth b 4 0 = 2) (hcall : HallCall b) :
    m.groupCmd p b = (m.msgAccept p (m.msgIdent .groupCmd) b).queueCall
      ⟨p.idx, false, leAt b 6 2, field (nth b 5 0) 1 0, field (nth b 5 0) 3 2, some (leAt b 8 2), false⟩ :=
  (if_neg (groupForm_ok (.inr hop) hcall)).trans (if_pos (beq_iff_eq.mpr hop))

/-- An assignment of a hall call is answered by its result (05 R135). -/
def groupAssigned (m : Mach) (p : Ab) (b : List Nat) : Nat → Mach
  | 0 => ((m.groupRes 0 (nth b 5 0) (leAt b 6 2) (leAt b 8 2)).queueCall
      ⟨p.idx, true, leAt b 6 2, field (nth b 5 0) 1 0, field (nth b 5 0) 3 2, none, false⟩).endFault 1 0x4D
  | 1 => (m.groupRes 1 (nth b 5 0) (leAt b 6 2) (leAt b 8 2)).raise 1 0x4D 1
  | r => m.groupRes r (nth b 5 0) (leAt b 6 2) (leAt b 8 2)

theorem groupCmd_of_assignment (m : Mach) (p : Ab) {b : List Nat} {r : Nat} (hop : nth b 4 0 = 1) (hcall : HallCall b)
    (hr : (m.msgAccept p (m.msgIdent .groupCmd) b).assignResult (leAt b 6 2) (field (nth b 5 0) 1 0)
      (field (nth b 5 0) 3 2) = r) :
    m.groupCmd p b = groupAssigned (m.msgAccept p (m.msgIdent .groupCmd) b) p b r := by
  subst hr
  exact (if_neg (groupForm_ok (.inl hop) hcall)).trans (if_neg (by simp [hop]))

/-- A heartbeat has been taken: the timeout starts again (05 R137). -/
def heartbeatTaken (m : Mach) (p : Ab) (b : List Nat) : Mach :=
  { m.msgAccept p (m.msgIdent .groupHb) b with sched.hbLast := m.time.frame }

section
variable {s : State} {p : Ab} {b : List Nat} (hport : abOf (s.now.nat pGROUP_PORT) = p) (hpart : (s.now.prt p).takesPart = true)
  (htaken : s.now.msgTaken p .groupHb (s.now.msgIdent .groupHb) b = true) (hsrc : nth b 2 0 = s.now.nat pGROUP_SRC)
include hport hpart htaken hsrc

theorem does_groupHb_of_heard (hforce : (heartbeatTaken s.now p b).inForce 1 0x4C = false) :
    Does (.groupHb p b) s (heartbeatTaken s.now p b) := by
  refine does_of_onWhen (exec_groupHb ..) (by simp [hport, hpart, htaken, hsrc]) ?_
  exact if_neg (ne_true_of_eq_false hforce)

/-- The first heartbeat after 0x4C ends it, and the calls registered meanwhile are reported (05 R137). -/
theorem does_groupHb_of_lost (hforce : (heartbeatTaken s.now p b).inForce 1 0x4C = true) :
    Does (.groupHb p b) s
      (((heartbeatTaken s.now p b).each ((heartbeatTaken s.now p b).sched.calls.filter fun (c : CallRec) => c.fallback)
        fun m (c : CallRec) => m.groupRes 6 (callByte c.kind (1 + c.side.idx)) c.landing 0).endFault 1 0x4C) := by
  refine does_of_onWhen (exec_groupHb ..) (by simp [hport, hpart, htaken, hsrc]) ?_
  exact if_pos hforce

end

/-! The landing fixtures and the indications (11 R374, R375). -/

theorem does_hallBtn {s : State} {p : Ab} {id : Nat} {b : List Nat} (hport : abOf (s.now.nat pFIXTURE_PORT) = p)
    (hpart : (s.now.prt p).takesPart = true) (hl : leAt b 6 2 < s.now.nLandings)
    (hid : id = s.now.nat pHALL_ID_BASE + leAt b 6 2) (htaken : s.now.msgTaken p (.hallBtn 0) id b = true) :
    Does (.hallBtn p id b) s ((s.now.msgAccept p id b).each ((List.range 4).filter fun k => bit (nth b 4 0) k) fun m k =>
      m.hallPress p (leAt b 6 2) k) := by
  refine does_of_onWhen (exec_hallBtn ..) ?_ rfl
  simp only [hport, hpart, hl, ← hid, htaken, beq_self_eq_true, decide_true, Bool.and_self]

theorem does_indRefresh {s : State} (hballast : s.now.time.ballast = false) (hpower : s.now.power.state ≠ 3)
    (hpassed : 4 * s.now.nat pIND_REFRESH ≤ s.now.time.frame - s.now.bus.indAt) :
    Does .indRefresh s { s.now.indications true with bus.indAt := s.now.time.frame } := by
  refine does_of_onWhen (exec_indRefresh ..) ?_ rfl
  rw [hballast, bne_iff_ne.mpr hpower, Bool.not_false, Bool.true_and, Bool.true_and, passedMs_iff]
  exact hpassed

/-! The car panel (11 R373). -/

/-- The status that CALL_ADD or CALL_CANCEL would give a car call of the panel. -/
def panelCallStatus (m : Mach) (b : List Nat) (add : Bool) : Nat :=
  if add then m.callStatus (leAt b 6 2) 0 (field (nth b 5 0) 1 0) else m.callForm (leAt b 6 2) 0 (field (nth b 5 0) 1 0)

/-- What the panel's door command c leaves, and how it is answered. -/
def panelDoorCmd (m : Mach) (p : Ab) (b : List Nat) (c : Nat) : Mach × Nat × List Nat :=
  (m.msgAccept p (m.msgIdent .panelBtn) b).doorCmd c 0 (field (nth b 5 0) 1 0)

/-- A door command of the panel is dropped where its status is neither 0x00 nor 0x01. -/
theorem doorTaken_iff (st : Nat) : (st == stOK || st == stPENDING) = true ↔ st ≤ 1 := by
  rw [Bool.or_eq_true, beq_iff_eq, beq_iff_eq, Nat.le_one_iff_eq_zero_or_eq_one]
  rfl

section
variable {m : Mach} {p : Ab} {b : List Nat}

theorem panelCall_of_accepted {add : Bool} (hst : panelCallStatus m b add = 0) : m.panelCall p b add =
    (m.msgAccept p (m.msgIdent .panelBtn) b).queueCall
      ⟨p.idx, add, leAt b 6 2, 0, field (nth b 5 0) 1 0, none, false⟩ :=
  if_pos (beq_iff_eq.mpr hst)

theorem panelCall_of_refused {add : Bool} (hst : panelCallStatus m b add ≠ 0) :
    m.panelCall p b add = (m.msgAccept p (m.msgIdent .panelBtn) b).panelRefuse :=
  if_neg (mt beq_iff_eq.mp hst)

theorem panelDoor_of_accepted {c : Nat} (hst : (panelDoorCmd m p b c).2.1 ≤ 1) :
    m.panelDoor p b c = (panelDoorCmd m p b c).1 :=
  if_pos ((doorTaken_iff _).mpr hst)

theorem panelDoor_of_refused {c : Nat} (hst : 1 < (panelDoorCmd m p b c).2.1) :
    m.panelDoor p b c = (panelDoorCmd m p b c).1.panelRefuse :=
  if_neg (mt (doorTaken_iff _).mp (Nat.not_le.mpr hst))

end

theorem does_panelCallAdd {s : State} {p : Ab} {b : List Nat} {m : Mach} (htaken : s.now.panelTaken p b 1 = true)
    (hcall : s.now.panelCall p b true = m) : Does (.panelCallAdd p b) s m :=
  does_of_onWhen (exec_panelCallAdd ..) htaken hcall

theorem does_panelCallCancel {s : State} {p : Ab} {b : List Nat} {m : Mach} (htaken : s.now.panelTaken p b 2 = true)
    (hcall : s.now.panelCall p b false = m) : Does (.panelCallCancel p b) s m :=
  does_of_onWhen (exec_panelCallCancel ..) htaken hcall

/-- Either door button acts as `panelDoor` says of its command. -/
theorem does_panelDoor {s : State} {p : Ab} {b : List Nat} {c : Nat} {cmd : Instr} {m : Mach}
    (htaken : s.now.panelTaken p b (c + 2) = true)
    (hcmd : (c = 1 ∧ cmd = .panelDoorOpen p b) ∨ (c = 2 ∧ cmd = .panelDoorClose p b))
    (hdoor : s.now.panelDoor p b c = m) : Does cmd s m := by
  obtain ⟨rfl, rfl⟩ | ⟨rfl, rfl⟩ := hcmd
  · exact does_of_onWhen (exec_panelDoorOpen ..) htaken hdoor
  · exact does_of_onWhen (exec_panelDoorClose ..) htaken hdoor

/-- Settles O50: each message acts under its condition as the lemma of its own function says (`lockReceived`, `useLock`,
`groupCmd`, `panelCall`, `panelDoor`). -/
theorem profileMessagesAct : Obligations.ProfileMessagesAct := by
  unfold Obligations.ProfileMessagesAct
  refine ⟨⟨fun s p id b ecc hport hpart hform => ?_, fun m => rfl,
      fun m id b => ⟨useLock_of_badCrc, useLock_of_fresh, useLock_of_stale⟩,
      fun s p b htaken => ⟨does_groupAssign htaken, does_groupWithdraw htaken⟩,
      fun s p b hport hpart htaken hsrc =>
        ⟨does_groupHb_of_heard hport hpart htaken hsrc, does_groupHb_of_lost hport hpart htaken hsrc⟩,
      fun s p id b => does_hallBtn, fun s => does_indRefresh⟩,
    fun m p b => groupCmd_of_withdrawal m p,
    fun m p b hop hcall => ⟨groupCmd_of_assignment m p hop hcall, groupCmd_of_assignment m p hop hcall,
      groupCmd_of_assignment m p hop hcall⟩,
    fun s p b htaken => ⟨fun hst => does_panelCallAdd htaken (panelCall_of_accepted hst),
      fun hst => does_panelCallAdd htaken (panelCall_of_refused hst)⟩,
    fun s p b htaken => ⟨fun hst => does_panelCallCancel htaken (panelCall_of_accepted hst),
      fun hst => does_panelCallCancel htaken (panelCall_of_refused hst)⟩,
    fun s p b c cmd htaken hcmd => ⟨fun hst => does_panelDoor htaken hcmd (panelDoor_of_accepted hst),
      fun hst => does_panelDoor htaken hcmd (panelDoor_of_refused hst)⟩⟩
  have lock {m : Mach} (hreceived : s.now.lockReceived p id b ecc = m) : Does (.lock p id ⟨b, ecc⟩) s (m.eccSeen 12 ecc) :=
    does_lock hport hpart hform hreceived
  refine ⟨fun hecc => ?_, fun hecc hcrc => lock (lockReceived_of_badCrc s.now p hecc hcrc),
    fun hecc hcrc hbad => lock (lockReceived_of_bad s.now p hecc hcrc hbad),
    fun hecc hcrc hgood => lock (lockReceived_of_good s.now p hecc hcrc hgood)⟩
  subst hecc
  exact lock (lockReceived_of_double s.now p)

end Sys2Proof.Proofs
end

section
/-!
PROOFS. The thrust of a door motor (06 R163, R169, R176): both clamps are at least zero and at most what the current limit
gives, and an update commands the demanded thrust within them.
-/
namespace Sys2Proof.Proofs

open Sys2Proof Sys2Proof.Machine

@[simp] theorem two_get_upd {α : Type} (t : Two α) (i : Ab) (f : α → α) : (t.upd i f).get i = f (t.get i) := by
  cases i <;> rfl

@[simp] theorem side_get (m : Mach) (side : Ab) (f : DoorState → DoorState) :
    (m.side side f).doors.get side = f (m.doors.get side) := two_get_upd ..

theorem halfAway_nonneg {n : Int} (d : Nat) (hn : 0 ≤ n) : 0 ≤ halfAway n d := by
  rw [halfAway, if_neg (by omega)]
  exact Int.natCast_nonneg _

/-- A value kept in a range that is not empty lies in it. -/
theorem clamp_mem {lo hi : Int} (x : Int) (hrange : lo ≤ hi) : lo ≤ clamp lo hi x ∧ clamp lo hi x ≤ hi := by
  rw [clamp]
  split
  · exact ⟨le_rfl, hrange⟩
  · split <;> omega

/-- The limit is the thrust of a current of at least zero. -/
theorem thrustMax_nonneg (m : Mach) (side : Ab) : 0 ≤ m.thrustMax side :=
  halfAway_nonneg _ (Int.mul_nonneg (Int.natCast_nonneg _) (Int.natCast_nonneg _))

theorem openClamp_mem (m : Mach) (side : Ab) : 0 ≤ m.openClamp side ∧ m.openClamp side ≤ m.thrustMax side := by
  have hmax := thrustMax_nonneg m side
  rw [Mach.openClamp]
  split <;> omega

theorem closeClamp_nonneg (m : Mach) (side : Ab) (x : Int) : 0 ≤ m.closeClamp side x := le_max_left _ _

theorem closeClamp_le_thrustMax (m : Mach) (side : Ab) (x : Int) : m.closeClamp side x ≤ m.thrustMax side :=
  max_le (thrustMax_nonneg m side) (min_le_left _ _)

theorem closeClamp_le_share (m : Mach) (side : Ab) (x : Int) :
    m.closeClamp side x ≤ max 0 ((m.door side pF_MAX * 10 : Nat) - m.closerShare side x) :=
  max_le_max le_rfl (min_le_right _ _)

theorem clampThrust_mem (m : Mach) (side : Ab) (x f : Int) :
    -(m.closeClamp side x) ≤ m.clampThrust side x f ∧ m.clampThrust side x f ≤ m.openClamp side := by
  have hopen := (openClamp_mem m side).left
  have hclose := closeClamp_nonneg m side x
  exact clamp_mem f (by omega)

theorem drivePwm_cmd {m : Mach} {side : Ab} (hheld : (m.doors.get side).held = false) :
    ((m.drivePwm side).doors.get side).cmd = m.clampThrust side (m.doors.get side).x (m.thrustWish side) := by
  simp [Mach.drivePwm, hheld]

/-- Settles O29: the command is the demand within `closeClamp` and `openClamp`, and these lie within the limits named. -/
theorem doorThrustClamped : Obligations.DoorThrustClamped := by
  unfold Obligations.DoorThrustClamped
  intro m side d c hheld
  have hcmd : c = m.clampThrust side d.x (m.thrustWish side) := drivePwm_cmd hheld
  obtain ⟨hlo, hhi⟩ := clampThrust_mem m side d.x (m.thrustWish side)
  rw [← hcmd] at hlo hhi
  have hshare := neg_le_neg (closeClamp_le_share m side d.x)
  have hcurrent := neg_le_neg (closeClamp_le_thrustMax m side d.x)
  exact ⟨hcmd, hshare.trans hlo, hcurrent.trans hlo, hhi.trans (openClamp_mem m side).right, thrustMax_nonneg m side,
    closeClamp_nonneg m side d.x⟩

end Sys2Proof.Proofs
end

section
/-!
PROOFS. The door commands: the overall status of the sides named, and what a side does with a command (06 R164, R169, R171).
-/
namespace Sys2Proof.Proofs

open Sys2Proof Sys2Proof.Machine

/-- The status of a command to several sides: the first refusal, else PENDING if a side answers so, else OK (06 R164). -/
def sidesStatus (sts : List Nat) : Nat :=
  match sts.find? fun x => x != stOK && x != stPENDING with
  | some x => x
  | none => if sts.contains stPENDING then stPENDING else stOK

theorem doorRefused_iff (st : Nat) : (st != stOK && st != stPENDING) = true ↔ 1 < st := by
  simp only [Bool.and_eq_true, bne_iff_ne, stOK, stPENDING]
  omega

theorem sidesStatus_cons_of_refused {st : Nat} (sts : List Nat) (hst : 1 < st) : sidesStatus (st :: sts) = st := by
  simp only [sidesStatus, List.find?_cons, (doorRefused_iff st).mpr hst]

/-- Without a refusal no side is named by one, and a side that is PENDING decides. -/
theorem sidesStatus_of_accepted {sts : List Nat} (hsts : ∀ st ∈ sts, st ≤ 1) : sidesStatus sts = if 1 ∈ sts then 1 else 0 := by
  have hnone : sts.find? (fun x => x != stOK && x != stPENDING) = none :=
    List.find?_eq_none.mpr fun st hst => mt (doorRefused_iff st).mp (Nat.not_lt.mpr (hsts st hst))
  rw [sidesStatus, hnone]
  simp [stOK, stPENDING]

theorem sidesStatus_one (st : Nat) : sidesStatus [st] = st := by
  rcases Nat.lt_or_ge 1 st with hbad | hgood
  · exact sidesStatus_cons_of_refused [] hbad
  · rw [sidesStatus_of_accepted (by simpa using hgood)]
    simp only [List.mem_singleton]
    split <;> omega

theorem sidesStatus_two (sa sb : Nat) :
    sidesStatus [sa, sb] = if 1 < sa then sa else if 1 < sb then sb else if sa = 1 ∨ sb = 1 then 1 else 0 := by
  rcases Nat.lt_or_ge 1 sa with ha | ha
  · rw [sidesStatus_cons_of_refused _ ha, if_pos ha]
  rw [if_neg (Nat.not_lt.mpr ha)]
  rcases Nat.lt_or_ge 1 sb with hb | hb
  · have hpass : (sa != stOK && sa != stPENDING) = false :=
      eq_false_of_ne_true (mt (doorRefused_iff sa).mp (Nat.not_lt.mpr ha))
    simp only [sidesStatus, List.find?_cons, hpass, (doorRefused_iff sb).mpr hb, if_pos hb]
  · rw [sidesStatus_of_accepted (by simp [ha, hb]), if_neg (Nat.not_lt.mpr hb)]
    simp only [List.mem_cons, List.not_mem_nil, or_false, eq_comm (a := 1)]

section
variable (m : Mach) (c tag : Nat)

theorem doorCmd_of_badMask {sides : Nat} (hsides : sides = 0 ∨ 3 < sides) : m.doorCmd c tag sides = (m, 0x13, []) :=
  if_pos (by simpa using hsides)

theorem doorCmd_of_mask {sides : Nat} (hsides : ¬ (sides = 0 ∨ 3 < sides)) : m.doorCmd c tag sides =
    (m.each (sidesOf sides) fun m s => m.doorAccept s c tag, sidesStatus ((sidesOf sides).map fun s => m.doorStatus s c),
      [if bit sides 0 then m.doorStatus .a c else 0xFF, if bit sides 1 then m.doorStatus .b c else 0xFF]) :=
  if_neg (by simpa using hsides)

theorem doorCmd_a : m.doorCmd c tag 1 = (m.doorAccept .a c tag, m.doorStatus .a c, [m.doorStatus .a c, 0xFF]) := by
  rw [doorCmd_of_mask m c tag (by decide), ← sidesStatus_one (m.doorStatus .a c)]
  rfl

theorem doorCmd_b : m.doorCmd c tag 2 = (m.doorAccept .b c tag, m.doorStatus .b c, [0xFF, m.doorStatus .b c]) := by
  rw [doorCmd_of_mask m c tag (by decide), ← sidesStatus_one (m.doorStatus .b c)]
  rfl

theorem doorCmd_both : m.doorCmd c tag 3 = ((m.doorAccept .a c tag).doorAccept .b c tag,
    sidesStatus [m.doorStatus .a c, m.doorStatus .b c], [m.doorStatus .a c, m.doorStatus .b c]) :=
  doorCmd_of_mask m c tag (by decide)

end

/-- Each of the five door commands is served as `doorCmd` of its number. -/
theorem exec_doorCmd {tag sides op c : Nat} {cmd : Instr} (s : State)
    (hcmd : (op, c, cmd) = (0x30, 1, .doorOpen tag sides) ∨ (op, c, cmd) = (0x31, 2, .doorClose tag sides)
      ∨ (op, c, cmd) = (0x32, 3, .doorHold tag sides) ∨ (op, c, cmd) = (0x33, 4, .doorNudge tag sides)
      ∨ (op, c, cmd) = (0x34, 5, .doorLearn tag sides)) :
    exec cmd s = serve s op tag fun m => m.doorCmd c tag sides := by
  rcases hcmd with h | h | h | h | h <;> cases h <;> rfl

section
variable {m : Mach} {side : Ab} {c : Nat} (tag : Nat)

theorem doorAccept_of_accepted (hst : m.doorStatus side c ≤ 1) :
    m.doorAccept side c tag = m.side side fun d => { d with cmds := d.cmds ++ [if c = 5 then 16 + tag else c] } := by
  rw [Mach.doorAccept, if_pos ((doorTaken_iff _).mpr hst)]
  by_cases hlearn : c = 5
  · simp only [hlearn, beq_self_eq_true, if_true]
  · simp only [beq_iff_eq, hlearn, if_false]

/-- A refusal changes nothing, but for a DOOR_OPEN that met its landing unlearned (06 R171). -/
theorem doorAccept_of_refused (hst : 1 < m.doorStatus side c) :
    m.doorAccept side c tag = m ∨ (c = 1 ∧ m.doorAccept side c tag = m.notLearned side) := by
  rw [Mach.doorAccept, if_neg (mt (doorTaken_iff _).mp (Nat.not_le.mpr hst))]
  split
  next hopen =>
    simp only [Bool.and_eq_true, beq_iff_eq] at hopen
    obtain ⟨⟨⟨⟨⟨hc, -⟩, -⟩, -⟩, -⟩, -⟩ := hopen
    exact .inr ⟨hc, rfl⟩
  next => exact .inl rfl

end

/-- Settles O27: the mask names the sides, `sidesStatus` gives the reply, and each side takes the command by its own
status. -/
theorem doorCommandsAnswered : Obligations.DoorCommandsAnswered := by
  unfold Obligations.DoorCommandsAnswered
  refine ⟨fun s tag sides op c cmd hcmd hs => ?_, fun m side c tag =>
    ⟨doorAccept_of_accepted tag, doorAccept_of_refused tag⟩⟩
  have answers {st : Nat} {p : List Nat} {m : Mach} (hreply : s.now.doorCmd c tag sides = (m, st, p)) :
      Answers cmd s op tag st p m := answers_of_serves hs (exec_doorCmd s hcmd) hreply
  refine ⟨fun hbad => answers (doorCmd_of_badMask s.now c tag hbad), fun ha => answers (ha ▸ doorCmd_a s.now c tag),
    fun hb => answers (hb ▸ doorCmd_b s.now c tag), fun hboth => answers ?_⟩
  rw [hboth, doorCmd_both, sidesStatus_two]

end Sys2Proof.Proofs
end

section
/-!
PROOFS. The events of a door engine's own: the current loop, the bridge, the energy bound, the current offsets, ballast hold
and the end of stopping (06 R153 to R160, R163, R169, R175, R186, R191).
-/
namespace Sys2Proof.Proofs

open Sys2Proof Sys2Proof.Machine

/-! The arms of `exec`, so that a proof about one event does not need the equations of all of them. -/

theorem exec_bridgeTrip (side : Ab) (cause : TripCause) (s : State) :
    exec (.bridgeTrip side cause) s = execBridgeTrip side cause s := rfl
theorem exec_keBoundExceeded (side : Ab) (s : State) : exec (.keBoundExceeded side) s = execKeBoundExceeded side s := rfl
theorem exec_currentOffsetCheck (side : Ab) (u w : Int) (s : State) :
    exec (.currentOffsetCheck side u w) s = execCurrentOffsetCheck side u w s := rfl
theorem exec_doorBallastTimeout (side : Ab) (s : State) :
    exec (.doorBallastTimeout side) s = execDoorBallastTimeout side s := rfl
theorem exec_doorStoppingComplete (side : Ab) (s : State) :
    exec (.doorStoppingComplete side) s = execDoorStoppingComplete side s := rfl

/-! The bridge (06 R154). -/

/-- A trip has switched all gates off; one of the run permit is noted where a gate was on (06 R154). -/
def bridgeTripped (m : Mach) (side : Ab) (permit : Bool) : Mach :=
  m.side side fun d => { d.gatesOff m.time.frame with permitOff := d.permitOff || (permit && d.gates) }

section
variable {s : State} {side : Ab}

/-- A cause with a fault raises it. -/
theorem does_bridgeTrip_of_fault {cause : TripCause} {code cls : Nat} (hcause : s.now.tripOf side cause = some (some (code, cls)))
    (hpermit : (cause == .permit) = false) :
    Does (.bridgeTrip side cause) s ((bridgeTripped s.now side false).raise (sideHandle side) code cls) :=
  does_of_onWhen (exec_bridgeTrip ..) (by rw [hcause]; rfl) (by simp only [hcause, hpermit]; rfl)

/-- The withdrawn run permit raises none. -/
theorem does_bridgeTrip_of_permit (hpermit : (s.now.doors.get side).runPermit = false) :
    Does (.bridgeTrip side .permit) s (bridgeTripped s.now side true) := by
  have hcause : s.now.tripOf side .permit = some none := if_neg (ne_true_of_eq_false hpermit)
  exact does_of_onWhen (exec_bridgeTrip ..) (by rw [hcause]; rfl) (by simp only [hcause]; rfl)

theorem tripOf_current {u w : Int} (htrip : s.now.currentTrips side (u, w) = true) :
    s.now.tripOf side (.current u w) = some (some (0x50, 3)) := if_pos htrip

theorem tripOf_bus_low {v : Nat} (hlow : v < 200) : s.now.tripOf side (.bus v) = some (some (0x51, 3)) := if_pos hlow

theorem tripOf_bus_high {v : Nat} (hhigh : 660 < v) : s.now.tripOf side (.bus v) = some (some (0x52, 3)) :=
  (if_neg (by omega)).trans (if_pos hhigh)

/-! The energy bound (06 R175). -/

/-- An excess has been counted, posted and raised. -/
def keExcess (m : Mach) (side : Ab) : Mach :=
  ((m.side side fun d => { d with keCount := sat32 d.keCount, keRaised := true }).doorEvent side 3).raise (sideHandle side) 0x55 2

section
variable (hrun : 16 ≤ (s.now.doors.get side).keRun) (hraised : (s.now.doors.get side).keRaised = false)
include hrun hraised

theorem keBound_due : (decide (16 ≤ (s.now.doors.get side).keRun) && !(s.now.doors.get side).keRaised) = true := by
  rw [decide_eq_true hrun, hraised]
  rfl

theorem does_keBoundExceeded_of_masked (hx : (s.now.doors.get side).x ≤ (s.now.door side pOBST_MASK : Int)) :
    Does (.keBoundExceeded side) s ((keExcess s.now side).reverse side false) := by
  refine does_of_onWhen (by rw [exec_keBoundExceeded, execKeBoundExceeded]) ?_ ?_
  · exact keBound_due hrun hraised
  · exact if_pos hx

theorem does_keBoundExceeded_of_unmasked (hx : (s.now.door side pOBST_MASK : Int) < (s.now.doors.get side).x) :
    Does (.keBoundExceeded side) s ((keExcess s.now side).side side fun d =>
      { d with keBrake := true, held := false, refV := d.v, refX := d.x }) := by
  refine does_of_onWhen (by rw [exec_keBoundExceeded, execKeBoundExceeded]) ?_ ?_
  · exact keBound_due hrun hraised
  · exact if_neg (Int.not_le.mpr hx)

end

/-! The current offsets (06 R155). -/

theorem offsetsTaken_iff (u w : Int) : (decide (mag u * 100 ≤ 3 * 2048) && decide (mag w * 100 ≤ 3 * 2048)) = true ↔
    u.natAbs * 100 ≤ 3 * 2048 ∧ w.natAbs * 100 ≤ 3 * 2048 := by
  rw [Bool.and_eq_true, decide_eq_true_iff, decide_eq_true_iff, mag, mag]

section
variable {u w : Int} (hgates : (s.now.doors.get side).gates = false)
  (hsince : 40 ≤ s.now.time.frame - (s.now.doors.get side).gatesOffSince)
include hgates hsince

theorem offsetCheck_due : (!(s.now.doors.get side).gates && s.now.passedMs (s.now.doors.get side).gatesOffSince 10) = true := by
  rw [hgates, Bool.not_false, Bool.true_and, passedMs_iff]
  exact hsince

theorem does_currentOffsetCheck_of_within (hu : u.natAbs * 100 ≤ 3 * 2048) (hw : w.natAbs * 100 ≤ 3 * 2048) :
    Does (.currentOffsetCheck side u w) s
      ((s.now.side side fun d => { d with offU := u, offW := w, offOk := true }).endFault (sideHandle side) 0x53) := by
  refine does_of_onWhen (by rw [exec_currentOffsetCheck, execCurrentOffsetCheck]) ?_ ?_
  · exact offsetCheck_due hgates hsince
  · exact if_pos ((offsetsTaken_iff u w).mpr ⟨hu, hw⟩)

theorem does_currentOffsetCheck_of_beyond (hbeyond : 3 * 2048 < u.natAbs * 100 ∨ 3 * 2048 < w.natAbs * 100) :
    Does (.currentOffsetCheck side u w) s
      ((s.now.side side fun d => { d with offOk := false }).raise (sideHandle side) 0x53 3) := by
  refine does_of_onWhen (by rw [exec_currentOffsetCheck, execCurrentOffsetCheck]) ?_ ?_
  · exact offsetCheck_due hgates hsince
  · exact if_neg (mt (offsetsTaken_iff u w).mp fun ⟨hu, hw⟩ => by omega)

end

/-! Ballast hold and stopping (06 R160, R186). -/

theorem does_doorBallastTimeout (hmiss : 2 ≤ (s.now.doors.get side).spMiss) :
    Does (.doorBallastTimeout side) s (s.now.side side fun d => { d with ballastStop := true }) :=
  does_of_onWhen (exec_doorBallastTimeout ..) (decide_eq_true hmiss) rfl

theorem does_doorStoppingComplete (hown : (s.now.doors.get side).own = .stopping) (hrefV : (s.now.doors.get side).refV = 0)
    (hv : (s.now.doors.get side).v = 0) (hstate : (s.now.doors.get side).state ≠ 5)
    (hreversing : (s.now.doors.get side).reversing = false) : Does (.doorStoppingComplete side) s (s.now.doorOff side) := by
  refine does_of_onWhen (by rw [exec_doorStoppingComplete, execDoorStoppingComplete]) ?_ ?_
  · simp [hown, hrefV, hv, hstate, hreversing]
  · rfl

end

theorem doorOff_eq (m : Mach) (side : Ab) : m.doorOff side =
    (if (m.doors.get side).state = 8 then m.learnFail side else m).side side fun d => { d.gatesOff m.time.frame with
      own := .off, stopPend := false, dwellFrom := none, holdFrom := none, stroke := none
      state := if d.state == 2 || d.state == 8 || d.closes then 6 else d.state } := by
  simp only [Mach.doorOff, beq_iff_eq]

/-- Settles O28: each event acts under its condition as the lemma of its own name says. -/
theorem doorMotorEventsComplete : Obligations.DoorMotorEventsComplete := by
  unfold Obligations.DoorMotorEventsComplete
  refine ⟨fun s side inp => rfl, fun s side => ⟨fun u w htrip => ?_, fun v hlow => ?_, fun v hhigh => ?_, ?_,
      does_bridgeTrip_of_permit⟩,
    fun s side hrun hraised =>
      ⟨does_keBoundExceeded_of_masked hrun hraised, does_keBoundExceeded_of_unmasked hrun hraised⟩,
    fun s side u w hgates hsince =>
      ⟨does_currentOffsetCheck_of_within hgates hsince, does_currentOffsetCheck_of_beyond hgates hsince⟩,
    fun s side => does_doorBallastTimeout, fun s side hown hrefV hv hstate hreversing => ?_⟩
  · exact does_bridgeTrip_of_fault (tripOf_current htrip) rfl
  · exact does_bridgeTrip_of_fault (tripOf_bus_low hlow) rfl
  · exact does_bridgeTrip_of_fault (tripOf_bus_high hhigh) rfl
  · exact does_bridgeTrip_of_fault rfl rfl
  · have hdone := does_doorStoppingComplete hown hrefV hv hstate hreversing
    rwa [doorOff_eq] at hdone

end Sys2Proof.Proofs
end

section
/-!
PROOFS. What a core's codes mean for its blocks (07 R197, R248, R249).
-/
namespace Sys2Proof.Proofs

open Sys2Proof Sys2Proof.Machine

theorem faultedCode_iff (c : Nat) :
    faultedCode c = true ↔ c = 0x61 ∨ c = 0x66 ∨ c = 0x67 ∨ (0x6A ≤ c ∧ c ≤ 0x6F) ∨ c = 0x78 := by
  simp [faultedCode, or_assoc]

theorem tripCode_iff (c : Nat) :
    tripCode c = true ↔ c = 0x60 ∨ c = 0x63 ∨ c = 0x64 ∨ (0x70 ≤ c ∧ c ≤ 0x77) ∨ c = 0x79 := by
  simp [tripCode, or_assoc]

theorem fbState_of_faulted {b : BlockRec} (h : ∃ c ∈ b.codes, faultedCode c = true) : fbState b = 4 :=
  if_pos (List.any_eq_true.mpr h)

theorem fbState_of_trip {b : BlockRec} (hno : ∀ c ∈ b.codes, ¬ faultedCode c = true)
    (h : ∃ c ∈ b.codes, tripCode c = true) : fbState b = 3 :=
  (if_neg (List.any_eq_true.not.mpr (by simpa using hno))).trans (if_pos (List.any_eq_true.mpr h))

/-- The codes 0x62 and 0x65 are neither, so a block's state is judged without them. -/
theorem fbState_filter_warnings (b : BlockRec) :
    fbState { b with codes := b.codes.filter fun c => c != 0x62 && c != 0x65 } = fbState b := by
  have hfaulted (c : Nat) : ((c != 0x62 && c != 0x65) && faultedCode c) = faultedCode c := by
    rw [Bool.and_eq_right_iff_imp, faultedCode_iff]
    simp only [Bool.and_eq_true, bne_iff_ne]
    omega
  have htrip (c : Nat) : ((c != 0x62 && c != 0x65) && tripCode c) = tripCode c := by
    rw [Bool.and_eq_right_iff_imp, tripCode_iff]
    simp only [Bool.and_eq_true, bne_iff_ne]
    omega
  simp only [fbState, List.any_filter, hfaulted, htrip]

/-- Their class is F1 in every block (07 R248). -/
theorem blockClass_of_warning (h : Nat) {c : Nat} (hc : c = 0x62 ∨ c = 0x65) : blockClass h c = 1 := by
  obtain rfl | rfl := hc <;> rfl

theorem ownWarning_of_mem {m : Mach} {f : FaultRec} (hf : f ∈ m.faults) (hcls : f.cls = 1) : m.ownWarning f.unit = true := by
  have hany : (m.faults.any fun x => x.unit == f.unit && x.cls == 1) = true :=
    List.any_eq_true.mpr ⟨f, hf, by simp [hcls]⟩
  simp only [Mach.ownWarning, hany, Bool.true_or]

/-- Settles O33: the codes of each kind are those of `faultedCode_iff` and `tripCode_iff`, and a code that only warns is of
class F1. -/
theorem blockStateFollowsCodes : Obligations.BlockStateFollowsCodes := by
  unfold Obligations.BlockStateFollowsCodes
  simp only [← faultedCode_iff, ← tripCode_iff]
  refine fun b => ⟨fbState_of_faulted, fbState_of_trip, (fbState_filter_warnings b).symm, ?_⟩
  intro m f hf hunit hcode hcls
  rw [← hunit]
  exact ownWarning_of_mem hf (hcls.trans (blockClass_of_warning f.unit hcode))

end Sys2Proof.Proofs
end

section
/-!
PROOFS. The timed faults of the safety functions, each held by the core that judges it (07 R202, R218, R230, R237 to R239).
-/
namespace Sys2Proof.Proofs

open Sys2Proof Sys2Proof.Machine

/-! The arms of `exec`, so that a proof about one event does not need the equations of all of them. -/

theorem exec_discrepancyTimeout (c : CoreId) (h : Nat) (s : State) :
    exec (.discrepancyTimeout c h) s = execDiscrepancyTimeout c h s := rfl
theorem exec_contactorPullTimeout (c : CoreId) (g : Nat) (s : State) :
    exec (.contactorPullTimeout c g) s = execContactorPullTimeout c g s := rfl
theorem exec_contactorDropTimeout (c : CoreId) (g : Nat) (s : State) :
    exec (.contactorDropTimeout c g) s = execContactorDropTimeout c g s := rfl
theorem exec_brakeOpenTimeout (c : CoreId) (s : State) : exec (.brakeOpenTimeout c) s = execBrakeOpenTimeout c s := rfl
theorem exec_brakeCloseTimeout (c : CoreId) (s : State) : exec (.brakeCloseTimeout c) s = execBrakeCloseTimeout c s := rfl
theorem exec_tslSwitch (c : CoreId) (h : Nat) (s : State) : exec (.tslSwitch c h) s = execTslSwitch c h s := rfl
theorem exec_lockSourceDisagree (side : Ab) (s : State) :
    exec (.lockSourceDisagree side) s = execLockSourceDisagree side s := rfl

/-- A pair of the block has a measurement past its time. -/
theorem pairs_any_expired {m : Mach} {k : CoreState} {h : Nat} {p : PairState} (hp : p ∈ k.pairs) (hhandle : p.handle = h)
    (hexpired : p.meas.any (m.expired h) = true) :
    (k.pairs.any fun p => p.handle == h && p.meas.any (m.expired h)) = true :=
  List.any_eq_true.mpr ⟨p, hp, by simp only [hhandle, hexpired, beq_self_eq_true, Bool.and_self]⟩

/-- The check of the brake in one direction is due. -/
theorem brakeCheck_due {m : Mach} {k : CoreState} {on : Bool} (hwait : k.brakeWait = true) (hon : k.brakeOn = some on)
    (hdue : m.brakeDue k ≤ m.link.frLt) :
    (k.brakeWait && k.brakeOn == some on && decide (m.brakeDue k ≤ m.link.frLt)) = true := by
  simp [hwait, hon, hdue]

/-- Settles O31: the condition of each event is the one of its rule, and its effect is the one stated. -/
theorem blockTimeoutsPutBlocksInFault : Obligations.BlockTimeoutsPutBlocksInFault := by
  unfold Obligations.BlockTimeoutsPutBlocksInFault
  refine ⟨?discrepancy, ?pull, ?drop, ?brakeOpen, ?brakeClose, ?tsl, ?lockSources⟩
  case discrepancy =>
    intro s c h p hblock hp hhandle hexpired
    exact does_of_onWhen (exec_discrepancyTimeout ..)
      (by rw [List.contains_iff_mem.mpr hblock, pairs_any_expired hp hhandle hexpired]; rfl) rfl
  case pull =>
    intro s c g hon hlate
    exact does_of_onWhen (by rw [exec_contactorPullTimeout, execContactorPullTimeout])
      (Bool.and_eq_true_iff.mpr ⟨hon, Bool.or_eq_true_iff.mpr hlate⟩) rfl
  case drop =>
    intro s c g hon hlate
    exact does_of_onWhen (by rw [exec_contactorDropTimeout, execContactorDropTimeout])
      (Bool.and_eq_true_iff.mpr ⟨hon, Bool.or_eq_true_iff.mpr hlate⟩) rfl
  case brakeOpen =>
    intro s c hwait hopen hdue
    exact does_of_onWhen (by rw [exec_brakeOpenTimeout, execBrakeOpenTimeout])
      (brakeCheck_due hwait hopen hdue) rfl
  case brakeClose =>
    intro s c hwait hclosed hdue
    exact does_of_onWhen (by rw [exec_brakeCloseTimeout, execBrakeCloseTimeout])
      (brakeCheck_due hwait hclosed hdue) rfl
  case tsl =>
    intro s c h hkind hon hbad
    exact does_of_onWhen (exec_tslSwitch ..) (by simpa [hkind, hon] using hbad) rfl
  case lockSources =>
    intro s side f hsince hpast
    exact does_of_onWhen (exec_lockSourceDisagree ..) (by rw [hsince]; exact decide_eq_true hpast) rfl

end Sys2Proof.Proofs
end

section
/-!
PROOFS. Judging the outputs again neither ends a run of inspection mode in a core nor begins one, and INSP_STOP_TIMEOUT
ends the run that was kept at the entry in the cores that keep one (07 R234).
-/
namespace Sys2Proof.Proofs

open Sys2Proof Sys2Proof.Machine

/-! Posting and recording faults changes no core (00 R13; 07 R197). -/

theorem ite_mach_safe (p : Prop) [Decidable p] (m n : Mach) : (if p then m else n).safe = if p then m.safe else n.safe := by
  split <;> rfl

@[simp] theorem post_safe (m : Mach) (kind detail unit code data : Nat) : (m.post kind detail unit code data).safe = m.safe := by
  rw [Mach.post, ite_mach_safe, ite_self]

@[simp] theorem endFault_safe (m : Mach) (unit code : Nat) : (m.endFault unit code).safe = m.safe := by
  rw [Mach.endFault, ite_mach_safe, post_safe, ite_self]

@[simp] theorem recordRaise_safe (m : Mach) (unit code cls c1 c2 : Nat) : (m.recordRaise unit code cls c1 c2).safe = m.safe := by
  simp only [Mach.recordRaise, Mach.ringPush, Mach.count, Mach.countN, Mach.drawer, Mach.drawerSet, ite_mach_safe, post_safe,
    ite_self]

@[simp] theorem holdFault_safe (m : Mach) (unit code cls : Nat) : (m.holdFault unit code cls).safe = m.safe := by
  simp only [Mach.holdFault, Mach.react, Mach.endBenches, Mach.stopReq, Mach.dropExit, Mach.entersFault, Mach.cell,
    ite_mach_safe, ite_self]

@[simp] theorem raise_safe (m : Mach) (unit code cls c1 c2 : Nat) : (m.raise unit code cls c1 c2).safe = m.safe := by
  simp only [Mach.raise, Mach.dropNoted, ite_mach_safe, holdFault_safe, recordRaise_safe, ite_self]

/-- What every step of a fold keeps, the fold keeps. -/
theorem foldl_keeps {σ α β : Type} (g : σ → β) {f : σ → α → σ} (hstep : ∀ s x, g (f s x) = g s) (l : List α)
    (s : σ) : g (l.foldl f s) = g s := by
  rw [← List.foldl_hom g (g₂ := fun b _ => b) (fun s x => (hstep s x).symm), List.foldl_fixed]

@[simp] theorem syncSafety_safe (m : Mach) : m.syncSafety.safe = m.safe := by
  rw [Mach.syncSafety, Mach.each, foldl_keeps Mach.safe (fun n f => endFault_safe ..), Mach.each,
    foldl_keeps Mach.safe fun n x => by rw [ite_mach_safe, raise_safe, ite_self]]

/-! The end of a run kept at the entry of inspection mode, as a core holds it (07 R234). -/

theorem hold_entryOver (k : CoreState) (h code ts : Nat) : (k.hold h code ts).entryOver = k.entryOver := by
  rw [CoreState.hold]
  split <;> rfl

theorem startChecks_entryOver (m : Mach) (c : CoreId) : (m.startChecks c).entryOver = (m.safe.cores.get c).entryOver := by
  refine foldl_keeps CoreState.entryOver (fun k h => ?_) ..
  have hholdIf (k : CoreState) (p : Bool) : (k.holdIf p h 0x6B m.ts).entryOver = k.entryOver := by
    cases p with
    | false => rfl
    | true => exact hold_entryOver ..
  rw [hholdIf]
  split
  · rfl
  · split <;> rfl

theorem coreOut_entryOver (m : Mach) (c : CoreId) : (m.coreOut c).entryOver = (m.safe.cores.get c).entryOver := rfl

theorem three_get_set {α : Type} (t : Three α) (i j : CoreId) (x : α) : (t.set i x).get j = if j = i then x else t.get j := by
  cases i <;> cases j <;> rfl

theorem setCore_entryOver {m : Mach} {d : CoreId} {k : CoreState} (hk : k.entryOver = (m.safe.cores.get d).entryOver)
    (c : CoreId) : ((m.setCore d k).safe.cores.get c).entryOver = (m.safe.cores.get c).entryOver := by
  rw [Mach.setCore, three_get_set]
  split
  case isTrue hcd => rw [hcd, hk]
  case isFalse => rfl

theorem each_setCore_entryOver {g : Mach → CoreId → CoreState}
    (hg : ∀ m d, (g m d).entryOver = (m.safe.cores.get d).entryOver) (m : Mach) (l : List CoreId) (c : CoreId) :
    ((m.each l fun m d => m.setCore d (g m d)).safe.cores.get c).entryOver = (m.safe.cores.get c).entryOver :=
  foldl_keeps (fun n => (n.safe.cores.get c).entryOver) (fun n d => setCore_entryOver (hg n d) c) l m

/-- The outputs are judged from what the cores hold, whether the run is over included. -/
theorem judged_entryOver (m : Mach) (c : CoreId) : (m.judged.safe.cores.get c).entryOver = (m.safe.cores.get c).entryOver := by
  rw [Mach.judged, Mach.outputs, each_setCore_entryOver coreOut_entryOver, syncSafety_safe,
    each_setCore_entryOver startChecks_entryOver, syncSafety_safe]

/-! INSP_STOP_TIMEOUT. -/

theorem exec_inspStopTimeout (s : State) : exec .inspStopTimeout s = execInspStopTimeout s := rfl

/-- A run kept at the entry whose time is over comes to its end; a core that keeps none stays as it is (07 R234). -/
def entryRunEnded (m : Mach) (k : CoreState) : CoreState :=
  if k.inspEntryRun && m.passedMs k.inspSince (m.nat pINSP_STOP_TIME) then
    { k with inspEntryRun := false, entryOver := k.running }
  else k

theorem does_inspStopTimeout {s : State} {c : CoreId} (hrun : (s.now.safe.cores.get c).inspEntryRun = true)
    (hpast : s.now.passedMs (s.now.safe.cores.get c).inspSince (s.now.nat pINSP_STOP_TIME) = true) :
    Does .inspStopTimeout s (s.now.each coreIds fun m c => m.core c (entryRunEnded m)).judged := by
  have hcore : c ∈ coreIds := by cases c <;> decide
  exact does_of_onWhen (exec_inspStopTimeout s)
    (List.any_eq_true.mpr ⟨c, hcore, Bool.and_eq_true_iff.mpr ⟨hrun, hpast⟩⟩) rfl

/-- A command leaves the module in one way. -/
theorem does_unique {c : Instr} {s : State} {m n : Mach} (hm : Does c s m) (hn : Does c s n) : m = n := by
  have hnext := hm.symm.trans hn
  injection hnext with hstate
  exact congrArg State.now hstate

/-- 12 s after the reset, which is INSP_STOP_TIME as delivered: core A keeps a run of another kind from its entry of
inspection mode, and core B has a run in progress and keeps none. -/
def oneCoreKeepsRun : State :=
  { State.reset with now := { Mach.reset with
      time.frame := 48000
      safe.cores.a.inspEntryRun := true
      safe.cores.a.running := true
      safe.cores.b.running := true } }

/-- Refutes O32: its last clause leaves out that a core must keep a run from the entry, so in `oneCoreKeepsRun` it ends the
run of core B too, where the model, as R234 has it, ends that of core A alone. -/
theorem not_lockResetAndInspectionEvents : ¬ Obligations.LockResetAndInspectionEvents := by
  unfold Obligations.LockResetAndInspectionEvents
  rintro ⟨-, -, -, hinsp⟩
  have hclaim := hinsp oneCoreKeepsRun .a rfl (by decide +kernel)
  have hmodel := does_inspStopTimeout (s := oneCoreKeepsRun) (c := .a) rfl (by decide +kernel)
  have hover := congrArg (fun m => (m.safe.cores.get .b).entryOver) (does_unique hmodel hclaim)
  simp only [judged_entryOver] at hover
  exact absurd hover (by decide +kernel)

end Sys2Proof.Proofs
end

section
/-!
PROOFS. The proof tests of the safety cores: how PROOF_TEST is answered, what starts a test without it, and how a test and
the rejoin after it end (09 R277 to R282, R299).
-/
namespace Sys2Proof.Proofs

open Sys2Proof Sys2Proof.Machine

/-! The arms of `exec`, so that a proof about one row does not need the equations of all of them. -/

theorem exec_proofTest (tag core : Nat) (s : State) : exec (.proofTest tag core) s = execProofTest tag core s := rfl
theorem exec_proofAutoStart (s : State) : exec .proofAutoStart s = execProofAutoStart s := rfl
theorem exec_readmissionStart (r : Readmit) (s : State) : exec (.readmissionStart r) s = execReadmissionStart r s := rfl
theorem exec_proofOverdue (core : CoreId) (s : State) : exec (.proofOverdue core) s = execProofOverdue core s := rfl
theorem exec_duplexExpired (s : State) : exec .duplexExpired s = execDuplexExpired s := rfl
theorem exec_proofTestEnd (s : State) : exec .proofTestEnd s = execProofTestEnd s := rfl
theorem exec_proofRejoin (s : State) : exec .proofRejoin s = execProofRejoin s := rfl
theorem exec_proofFailed (s : State) : exec .proofFailed s = execProofFailed s := rfl

/-! What bars a test (09 R280), in the order of its table. -/

theorem cabBusy_iff (m : Mach) :
    m.cabBusy = true ↔ m.cab.login.isSome = true ∨ m.cab.commit.isSome = true ∨ m.cab.pwd.isSome = true := by
  simp only [Mach.cabBusy, Bool.or_eq_true, or_assoc]

theorem cabBusy_of_none {m : Mach} (hlogin : m.cab.login = none) (hcommit : m.cab.commit = none) (hpwd : m.cab.pwd = none) :
    m.cabBusy = false := by
  rw [Mach.cabBusy, hlogin, hcommit, hpwd]
  rfl

section
variable {m : Mach} (core : CoreId)

theorem proofStatus_of_degraded (hdegraded : m.anyExcluded = true ∨ m.triad.lost = true) : m.proofStatus core = 0x22 :=
  if_pos (Bool.or_eq_true_iff.mpr hdegraded)

variable (hexcluded : m.anyExcluded = false) (hlost : m.triad.lost = false)
include hexcluded hlost

theorem proofStatus_of_triplex : m.proofStatus core =
    if m.triad.proof.isSome = true then 0x02 else if m.cabBusy = true then 0x02 else 0x01 := by
  rw [Mach.proofStatus, hexcluded, hlost]
  rfl

theorem proofStatus_of_busy (hbusy : m.triad.proof.isSome = true ∨ m.cabBusy = true) : m.proofStatus core = 0x02 := by
  rw [proofStatus_of_triplex core hexcluded hlost]
  rcases hbusy with hproof | hcab
  · exact if_pos hproof
  · rw [if_pos hcab, ite_self]

theorem proofStatus_of_free (hproof : m.triad.proof = none) (hcab : m.cabBusy = false) : m.proofStatus core = 0x01 := by
  rw [proofStatus_of_triplex core hexcluded hlost, hproof, hcab]
  rfl

end

/-! PROOF_TEST. -/

/-- The core that a PROOF_TEST names (09 R280). -/
def namedCore (m : Mach) (core : Nat) : CoreId := if core = 0xFF then m.dueFirst else coreOfNat core

theorem answers_proofTest_of_badCore {s : State} {tag core : Nat} (hs : Serves s 0xA3) (hall : core ≠ 0xFF) (hcore : 3 ≤ core) :
    Answers (.proofTest tag core) s 0xA3 tag 0x13 [] s.now := by
  refine answers_of_serves hs (by rw [exec_proofTest, execProofTest]) (if_pos ?_)
  simp [hall, hcore]

section
variable {s : State} {tag core : Nat} (hs : Serves s 0xA3) (hcore : core < 3 ∨ core = 0xFF)
include hs hcore

/-- A PROOF_TEST of a core that exists is answered with the status of its test. -/
theorem answers_proofTest_of_status {st : Nat} {m : Mach} (hst : s.now.proofStatus (namedCore s.now core) = st)
    (hm : (if st = 0x01 then s.now.proofStart (namedCore s.now core) (some tag) false else s.now) = m) :
    Answers (.proofTest tag core) s 0xA3 tag st [] m := by
  have hknown : ¬ (core != 0xFF && decide (3 ≤ core)) = true := by
    simp only [Bool.and_eq_true, bne_iff_ne, decide_eq_true_eq]
    omega
  refine answers_of_serves hs (by rw [exec_proofTest, execProofTest]) ?_
  rw [if_neg hknown]
  simp only [beq_iff_eq, ← namedCore.eq_def, hst, ← hm, stPENDING]
  split
  case isTrue hpending => rw [hpending]; rfl
  case isFalse => rfl

theorem answers_proofTest_of_degraded (hdegraded : s.now.anyExcluded = true ∨ s.now.triad.lost = true) :
    Answers (.proofTest tag core) s 0xA3 tag 0x22 [] s.now :=
  answers_proofTest_of_status hs hcore (proofStatus_of_degraded _ hdegraded) rfl

variable (hexcluded : s.now.anyExcluded = false) (hlost : s.now.triad.lost = false)
include hexcluded hlost

theorem answers_proofTest_of_busy (hbusy : s.now.triad.proof.isSome = true ∨ s.now.cabBusy = true) :
    Answers (.proofTest tag core) s 0xA3 tag 0x02 [] s.now :=
  answers_proofTest_of_status hs hcore (proofStatus_of_busy _ hexcluded hlost hbusy) rfl

theorem answers_proofTest_of_free (hproof : s.now.triad.proof = none) (hcab : s.now.cabBusy = false) :
    Answers (.proofTest tag core) s 0xA3 tag 0x01 [] (s.now.proofStart (namedCore s.now core) (some tag) false) :=
  answers_proofTest_of_status hs hcore (proofStatus_of_free _ hexcluded hlost hproof hcab) rfl

end

/-! The events that start a test, or say that one is late (09 R277, R278, R282). -/

theorem doorCloses_of_none {m : Mach} (hdoors : ∀ d : Ab, (m.doors.get d).state ≠ 4 ∧ (m.doors.get d).state ≠ 7) :
    m.doorCloses = false := by
  simp [Mach.doorCloses, hdoors .a, hdoors .b]

theorem does_proofAutoStart {s : State} (hauto : s.now.flag pPROOF_AUTO = true) (hready : s.now.start.ready = true)
    (hpower : s.now.power.state ≤ 1) (hdue : s.now.proofUs ≤ s.now.sincePass s.now.dueFirst)
    (hfree : s.now.proofStatus s.now.dueFirst = 0x01) (hrun : s.now.inRun = false) (hdoors : s.now.doorCloses = false) :
    Does .proofAutoStart s (s.now.proofStart s.now.dueFirst none false) := by
  refine does_of_onWhen (by rw [exec_proofAutoStart, execProofAutoStart]) ?_ rfl
  rw [hauto, hready, decide_eq_true hpower, decide_eq_true hdue, hfree, hrun, hdoors]
  rfl

theorem mayReadmit_iff (m : Mach) (core : CoreId) (checked : Bool) : m.mayReadmit core checked = true ↔
    m.nat pREADMIT_MODE = 1 ∧ m.triad.excluded.get core = true ∧ m.triad.excluded.count = 1 ∧ m.triad.lost = false
      ∧ m.triad.proof = none ∧ m.causeEnded core checked = true ∧ m.exclusions core < 3 := by
  simp only [Mach.mayReadmit, Bool.and_eq_true, Bool.not_eq_true', beq_iff_eq, decide_eq_true_eq,
    Option.isNone_iff_eq_none, and_assoc]

theorem does_readmissionStart {s : State} {core : CoreId} {checked : Bool} (hmay : s.now.mayReadmit core checked = true) :
    Does (.readmissionStart ⟨core, checked⟩) s (s.now.proofStart core none true) :=
  does_of_onWhen (exec_readmissionStart ..) hmay rfl

theorem does_proofOverdue {s : State} {core : CoreId} (hlate : s.now.proofUs + 3600000000 < s.now.sincePass core) :
    Does (.proofOverdue core) s (s.now.raise 0x0500 0x14 3) :=
  does_of_onWhen (by rw [exec_proofOverdue, execProofOverdue]) (decide_eq_true hlate) rfl

theorem does_duplexExpired {s : State} (hpolicy : s.now.nat pTRIAD_DEGRADED_POLICY = 1) (hexcluded : s.now.anyExcluded = true)
    (hlost : s.now.triad.lost = false) (hleft : s.now.triad.duplexLeft = 0) :
    Does .duplexExpired s (s.now.raise 0x0500 0x12 3) := by
  refine does_of_onWhen (by rw [exec_duplexExpired, execDuplexExpired]) ?_ rfl
  rw [hpolicy, hexcluded, hlost, hleft]
  rfl

theorem proofStart_changesOnly_triad (m : Mach) (core : CoreId) (tag : Option Nat) (readmit : Bool) :
    changesOnly [.triad] m (m.proofStart core tag readmit) := by
  intro p hp
  cases p with
  | triad => exact absurd (List.mem_singleton_self _) hp
  | _ => rfl

/-! How a test and the rejoin after it end (09 R278, R279, R281). -/

theorem rejoined_iff (m : Mach) (core : CoreId) : m.rejoined core = true ↔
    m.triad.rejoinAt ≠ 0 ∧ 16 ≤ m.triad.rejoinRun ∧ 4 ≤ (m.pos.discord.get m.apOf).concord.get core := by
  simp only [Mach.rejoined, Bool.and_eq_true, bne_iff_ne, decide_eq_true_eq, and_assoc]

/-- The pass of a core is recorded and answered, and the faults that it clears have ended (09 R281, R299). -/
def proofPassed (m : Mach) (core : CoreId) : Mach :=
  let m1 := (({ m with triad.proofLast := m.triad.proofLast.set core m.ts } : Mach).post 8 1 0x0500 core.idx 0).proofDone 0x00
  let m2 := m1.endIf 0x0500 0x13 (m.triad.causes.all fun x => x.1 == core.idx || x.2 != 0x13)
  m2.endIf 0x0500 0x14 m2.provedInTime

/-- An excluded core is taken back into the vote (09 R278). -/
def takenBack (m : Mach) (core : CoreId) : Mach :=
  ({ m.endCause core with
    triad.excluded := m.triad.excluded.set core false
    field.exclMask := m.triad.excluded.set core false
    triad.causes := m.triad.causes.filter fun (x : Nat × Nat) => x.1 != core.idx
    triad.readmits := sat32 m.triad.readmits
    triad.duplexLeft := if m.nat pTRIAD_DEGRADED_POLICY == 1 then hF (m.nat pTRIAD_DEGRADED_LIMIT) else m.triad.duplexLeft } : Mach).post
      8 4 0x0500 core.idx 0

section
variable {s : State} {core : CoreId} (hproof : s.now.triad.proof = some core)
include hproof

theorem does_proofTestEnd {m : Mach} (hout : s.now.triad.proofOut = true) (hover : s.now.triad.proofAt + 161 ≤ s.now.time.frame)
    (hm : (if s.now.triad.proofBad = true then s.now.proofFails core else s.now.rejoins core) = m) : Does .proofTestEnd s m := by
  refine does_of_onWhen (by rw [exec_proofTestEnd, execProofTestEnd, hproof]) ?_ hm
  rw [hout, decide_eq_true hover]
  rfl

theorem does_proofRejoin {m : Mach} (hrejoined : s.now.rejoined core = true)
    (hm : (if s.now.triad.readmit = true then (takenBack (proofPassed s.now core) core).proofOver
      else (proofPassed s.now core).proofOver) = m) : Does .proofRejoin s m :=
  does_of_onWhen (by rw [exec_proofRejoin, execProofRejoin, hproof]) hrejoined hm

theorem does_proofFailed (hrejoin : s.now.triad.rejoinAt ≠ 0)
    (hunmet : s.now.triad.rejoinRun < 16 ∨ (s.now.pos.discord.get s.now.apOf).concord.get core < 4)
    (hlate : s.now.triad.rejoinAt + 400 ≤ s.now.time.frame) : Does .proofFailed s (s.now.proofFails core) := by
  have hnot : s.now.rejoined core = false := by
    rw [Bool.eq_false_iff, Ne, rejoined_iff]
    omega
  refine does_of_onWhen (by rw [exec_proofFailed, execProofFailed, hproof]) ?_ rfl
  rw [hnot, bne_iff_ne.mpr hrejoin, decide_eq_true hlate]
  rfl

end

/-- Settles O39: PROOF_TEST is answered with the status of its test (`answers_proofTest_of_status`), each event acts under its
condition as the lemma of its own name says, and a failure is the one of `Mach.proofFails`. -/
theorem proofTestsStartAndRun : Obligations.ProofTestsStartAndRun := by
  unfold Obligations.ProofTestsStartAndRun
  refine ⟨⟨fun s tag core => answers_proofTest_of_badCore, ?answered, ?autoStart, ?readmission,
      fun s core => does_proofOverdue, fun s => does_duplexExpired⟩,
    fun m core tag re => ⟨rfl, rfl, rfl, rfl, rfl, proofStart_changesOnly_triad m core tag re⟩,
    ?testEnd, ?rejoin, fun s core => does_proofFailed, fun m core => ⟨fun h => if_pos h, fun h => if_neg (ne_true_of_eq_false h)⟩⟩
  case answered =>
    intro s tag core hs hcore
    refine ⟨answers_proofTest_of_degraded hs hcore, fun hexcluded hlost => ⟨fun hbusy => ?_, fun hproof hlogin hcommit hpwd => ?_⟩⟩
    · rw [← cabBusy_iff] at hbusy
      exact answers_proofTest_of_busy hs hcore hexcluded hlost hbusy
    · exact answers_proofTest_of_free hs hcore hexcluded hlost hproof (cabBusy_of_none hlogin hcommit hpwd)
  case autoStart =>
    intro s hauto hready hpower hdue hfree hrun hdoors
    exact does_proofAutoStart hauto hready hpower hdue hfree hrun (doorCloses_of_none hdoors)
  case readmission =>
    intro s core checked hmode hexcluded hcount hlost hproof hcause hfew
    exact does_readmissionStart ((mayReadmit_iff ..).mpr ⟨hmode, hexcluded, hcount, hlost, hproof, hcause, hfew⟩)
  case testEnd =>
    intro s core hproof hout hover
    exact ⟨fun hbad => does_proofTestEnd hproof hout hover (if_pos hbad),
      fun hgood => does_proofTestEnd hproof hout hover (if_neg (ne_true_of_eq_false hgood))⟩
  case rejoin =>
    intro s core hproof hat hrun hconcord
    have hrejoined := (rejoined_iff s.now core).mpr ⟨hat, hrun, hconcord⟩
    exact ⟨fun hfirst => does_proofRejoin hproof hrejoined (if_neg (ne_true_of_eq_false hfirst)),
      fun hback => does_proofRejoin hproof hrejoined (if_pos hback)⟩

end Sys2Proof.Proofs
end

section
/-!
PROOFS. The application pair: the takeover of the tether, a missing holder, the copy state and the standby, the release of a
processor from reset, the end of dual transmission, and SWITCH_OVER, SWITCH_BACK and PAIR_STATUS (09 R286 to R293; 14 R460).
-/
namespace Sys2Proof.Proofs

open Sys2Proof Sys2Proof.Machine

/-! The arms of `exec`, so that a proof about one row does not need the equations of all of them. -/

theorem exec_takeover (s : State) : exec .takeover s = execTakeover s := rfl
theorem exec_pairNoHolder (s : State) : exec .pairNoHolder s = execPairNoHolder s := rfl
theorem exec_snapshotComplete (s : State) : exec .snapshotComplete s = execSnapshotComplete s := rfl
theorem exec_standbyInSync (s : State) : exec .standbyInSync s = execStandbyInSync s := rfl
theorem exec_apResetRelease (ap : Ab) (s : State) : exec (.apResetRelease ap) s = execApResetRelease ap s := rfl
theorem exec_dualTxEnd (s : State) : exec .dualTxEnd s = execDualTxEnd s := rfl
theorem exec_switchOver (tag : Nat) (s : State) : exec (.switchOver tag) s = execSwitchOver tag s := rfl
theorem exec_switchBack (tag : Nat) (s : State) : exec (.switchBack tag) s = execSwitchBack tag s := rfl
theorem exec_pairStatus (tag : Nat) (s : State) : exec (.pairStatus tag) s = execPairStatus tag s := rfl

@[simp] theorem onAp_ap (m : Mach) (ap : Ab) (f : ApState → ApState) : (m.onAp ap f).ap ap = f (m.ap ap) := two_get_upd ..

/-! The takeover, and a missing holder (09 R289, R290). -/

/-- The takeover is counted and posted, its copy begins a new chain of deltas, and 0x21 has ended (09 R289). -/
def takenOver (m : Mach) : Mach :=
  (({ m with
    pair.takeover := false
    pair.switches := sat32 m.pair.switches
    pair.ballast := satAdd 32 m.pair.ballast (m.time.frame - m.pair.lastDelivered - 1)
    pair.age := min 255 (m.time.frame - m.pair.copyFrame)
    pair.copyFrame := m.time.frame
    pair.lastDelivered := m.time.frame
    pair.deltaOk := true
    pair.deltaGap := 0
    pair.dualUntil := some (m.time.frame + 64) } : Mach).post 8 2 0x0600 (if m.pair.holder = some .a then 1 else 2) 0).endFault
      0x0600 0x21

/-- The number by which TAKEOVER names the holder. -/
theorem holderName_eq (o : Option Ab) : (match o with
    | some .a => 1
    | _ => 2) = if o = some .a then 1 else 2 := by
  rcases o with _ | ⟨_ | _⟩ <;> rfl

theorem does_takeover {s : State} {m : Mach} (htakeover : s.now.pair.takeover = true) (hholder : s.now.pair.holder.isSome = true)
    (hballast : s.now.time.ballast = false)
    (hm : (if 4 < s.now.time.frame - s.now.pair.copyFrame then (takenOver s.now).raise 0x0600 0x25 4 else takenOver s.now) = m) :
    Does .takeover s m := by
  refine does_of_onWhen (by rw [exec_takeover, execTakeover]) ?_ ?_
  · rw [htakeover, hholder, hballast]
    rfl
  · rw [← hm, takenOver, ← holderName_eq]
    rfl

theorem does_pairNoHolder {s : State} (hready : s.now.start.ready = true) (hpower : s.now.power.state ≠ 3)
    (hholder : s.now.pair.holder = none) (hlong : 3 ≤ s.now.pair.noHolder) :
    Does .pairNoHolder s (s.now.raise 0x0600 0x24 4) := by
  refine does_of_onWhen (by rw [exec_pairNoHolder, execPairNoHolder]) ?_ rfl
  rw [hready, bne_iff_ne.mpr hpower, hholder, decide_eq_true hlong]
  rfl

/-! The copy state (09 R286). -/

/-- The copy state is that of a snapshot taken in frame `f`. -/
def snapshotTaken (m : Mach) (f : Nat) : Mach :=
  { m with
    pair.snapFor := none
    pair.snapChunks := 0
    pair.snapEq := true
    pair.snapFrame := f % 2 ^ 32
    pair.deltaOk := true
    pair.deltaGap := 0
    pair.copyFrame := m.time.frame }

/-- The standby's copy was that of the holder already. -/
def copyAgrees (m : Mach) (h : Ab) : Bool := m.pair.deltaOk && m.pair.snapEq && (m.ap h.other).gotSnapshot

/-- The standby has the copy of a snapshot and synchronises anew. -/
def copyGiven (m : Mach) (h : Ab) (f : Nat) : Mach :=
  ((snapshotTaken m f).unsync h.other).onAp h.other fun x => { x with gotSnapshot := true, cleanRun := 0 }

/-- A processor without a position takes that of the holder. -/
def positionGiven (m : Mach) (h : Ab) : Mach :=
  if (m.pos.est.get h.other.proc).inited = true then m
  else { m with pos.est := m.pos.est.set h.other.proc (m.pos.est.get h.proc) }

section
variable {s : State} {f : Nat} {h : Ab} (hsnap : s.now.pair.snapFor = some f) (hholder : s.now.pair.holder = some h)
  (hchunks : s.now.pair.snapChunks = 8)
include hsnap hholder hchunks

theorem does_snapshotComplete {m : Mach}
    (hm : (if (copyAgrees s.now h || (s.now.ap h.other).role == 0 || (s.now.ap h.other).role == 1
        || (s.now.ap h.other).role == 5) = true then snapshotTaken s.now f else positionGiven (copyGiven s.now h f) h) = m) :
    Does .snapshotComplete s m := by
  refine does_of_onWhen (by rw [exec_snapshotComplete, execSnapshotComplete, hsnap, hholder]) ?_ hm
  exact beq_iff_eq.mpr hchunks

theorem does_snapshotComplete_of_kept (hkept : copyAgrees s.now h = true ∨ (s.now.ap h.other).role = 0
    ∨ (s.now.ap h.other).role = 1 ∨ (s.now.ap h.other).role = 5) : Does .snapshotComplete s (snapshotTaken s.now f) := by
  refine does_snapshotComplete hsnap hholder hchunks (if_pos ?_)
  simpa only [Bool.or_eq_true, beq_iff_eq, or_assoc] using hkept

theorem does_snapshotComplete_of_given {m : Mach} (hdiffers : copyAgrees s.now h = false) (hoff : (s.now.ap h.other).role ≠ 0)
    (hboot : (s.now.ap h.other).role ≠ 1) (hfault : (s.now.ap h.other).role ≠ 5)
    (hm : positionGiven (copyGiven s.now h f) h = m) : Does .snapshotComplete s m := by
  refine does_snapshotComplete hsnap hholder hchunks ((if_neg ?_).trans hm)
  simp [hdiffers, hoff, hboot, hfault]

end

/-! The standby in sync, and a processor released from reset (09 R287, R292). -/

theorem does_standbyInSync {s : State} {h : Ab} (hholder : s.now.pair.holder = some h) (hrole : (s.now.ap h.other).role = 2)
    (hsnap : (s.now.ap h.other).gotSnapshot = true) (hclean : 64 ≤ (s.now.ap h.other).cleanRun)
    (hcompat : (s.now.ap h.other).compat = (s.now.ap h).compat) (hintegrity : (s.now.ap h.other).integrity = false) :
    Does .standbyInSync s (((((s.now.onAp h.other fun x => { x with role := 3, everStandby := true }).endFault
      0x0600 0x20).endFault 0x0600 0x22).endFault 0x0600 0x23).endFault 1 0x3A) := by
  refine does_of_onWhen (by rw [exec_standbyInSync, execStandbyInSync, hholder]) ?_ rfl
  simp only [hrole, hsnap, hclean, hcompat, hintegrity, beq_self_eq_true, decide_true, Bool.not_false, Bool.and_self]

theorem does_apResetRelease {s : State} {ap : Ab} {f : Nat} {m : Mach} (huntil : (s.now.ap ap).resetUntil = some f)
    (hover : f ≤ s.now.time.frame) (hm : (s.now.onAp ap fun x => { x with resetUntil := none }).afterReload ap = m) :
    Does (.apResetRelease ap) s m := by
  refine does_of_onWhen (by rw [exec_apResetRelease, execApResetRelease]) ?_ hm
  rw [huntil]
  exact decide_eq_true hover

section
variable {m : Mach} {ap : Ab}

theorem afterReload_of_on (hrole : (m.ap ap).role ≠ 0) : m.afterReload ap = m := if_neg (mt beq_iff_eq.mp hrole)

variable (hrole : (m.ap ap).role = 0)
include hrole

theorem afterReload_of_first (hever : (m.ap ap).everStandby = false) :
    m.afterReload ap = m.onAp ap fun x => { x with role := 1 } := by
  rw [Mach.afterReload, if_pos (beq_iff_eq.mpr hrole)]
  exact if_neg (ne_true_of_eq_false hever)

theorem afterReload_of_again (hever : (m.ap ap).everStandby = true) :
    m.afterReload ap = (m.onAp ap fun x => { x with role := 1 }).raise 0x0600 0x20 2 := by
  rw [Mach.afterReload, if_pos (beq_iff_eq.mpr hrole)]
  exact if_pos hever

end

/-! The end of dual transmission (09 R293). -/

theorem does_dualTxEnd_of_start {s : State} {f : Nat} (hstart : s.now.pair.dualStart = true) (hrun : 64 ≤ s.now.pair.standbyRun)
    (huntil : s.now.pair.dualUntil = some f) :
    Does .dualTxEnd s { s.now with
      pair.dualStart := false
      pair.dualUntil := if f ≤ s.now.time.frame then none else some f } := by
  refine does_of_onWhen (by rw [exec_dualTxEnd, execDualTxEnd]) ?_ ?_
  · rw [hstart, decide_eq_true hrun]
    rfl
  · simp only [hstart, hrun, huntil, decide_true, Bool.not_true, Bool.and_false]

theorem does_dualTxEnd_of_change {s : State} {f : Nat} (hstart : s.now.pair.dualStart = false)
    (huntil : s.now.pair.dualUntil = some f) (hover : f ≤ s.now.time.frame) :
    Does .dualTxEnd s { s.now with pair.dualUntil := none } := by
  refine does_of_onWhen (by rw [exec_dualTxEnd, execDualTxEnd]) ?_ ?_
  · simp only [hstart, huntil, hover, Bool.false_and, Bool.false_or, decide_true]
  · simp only [hstart, huntil, if_pos hover, Bool.false_and]

/-! SWITCH_OVER and SWITCH_BACK (09 R291), in the order of its table. -/

theorem standby_iff (m : Mach) (ap : Ab) : m.standby ap = true ↔ (m.ap ap).role = 3 := beq_iff_eq

section
variable {m : Mach} {to1 : Ab} {back : Bool}

theorem switchTo_of_test (htest : m.triad.proof.isSome = true) : m.switchTo to1 back = (m, 0x02, []) := if_pos htest

variable (hproof : m.triad.proof = none)
include hproof

theorem switchTo_of_noTest : m.switchTo to1 back = if (back && m.pair.holder == some to1) = true then (m, 0x00, [])
    else if (!m.standby to1) = true then (m, 0x22, []) else ({ m with pair.passTo := some (to1, 0) }, 0x00, []) := by
  rw [Mach.switchTo, hproof]
  rfl

theorem switchBack_of_held (hheld : m.pair.holder = some to1) : m.switchTo to1 true = (m, 0x00, []) := by
  rw [switchTo_of_noTest hproof, if_pos (by simp [hheld])]

variable (hpasses : (back && m.pair.holder == some to1) = false)
include hpasses

theorem switchTo_of_notStandby (hrole : (m.ap to1).role ≠ 3) : m.switchTo to1 back = (m, 0x22, []) := by
  have hstandby : m.standby to1 = false := eq_false_of_ne_true (mt (standby_iff m to1).mp hrole)
  rw [switchTo_of_noTest hproof, hpasses, hstandby]
  rfl

theorem switchTo_of_standby (hrole : (m.ap to1).role = 3) :
    m.switchTo to1 back = ({ m with pair.passTo := some (to1, 0) }, 0x00, []) := by
  rw [switchTo_of_noTest hproof, hpasses, (standby_iff m to1).mpr hrole]
  rfl

end

/-- The processor that SWITCH_OVER passes the tether to (09 R291). -/
def switchTarget (m : Mach) : Ab :=
  match m.pair.holder with
  | some h => h.other
  | none => m.preferred

theorem answers_switchOver {s : State} {tag st : Nat} {p : List Nat} {m : Mach} (hs : Serves s 0xA1)
    (hm : s.now.switchTo (switchTarget s.now) false = (m, st, p)) : Answers (.switchOver tag) s 0xA1 tag st p m :=
  answers_of_serves hs (exec_switchOver ..) hm

theorem answers_switchBack {s : State} {tag st : Nat} {p : List Nat} {m : Mach} (hs : Serves s 0xA2)
    (hm : s.now.switchTo s.now.preferred true = (m, st, p)) : Answers (.switchBack tag) s 0xA2 tag st p m :=
  answers_of_serves hs (exec_switchBack ..) hm

/-! PAIR_STATUS (14 R460). -/

/-- One bit for each core, core A lowest. -/
theorem coreBits_eq (t : Three Bool) :
    coreIds.foldl (fun x core => x + b2n (t.get core) * 2 ^ core.idx) 0 = b2n (t.get .a) + b2n (t.get .b) * 2 + b2n (t.get .c) * 4 := by
  simp [coreIds, CoreId.idx]

theorem answers_pairStatus {s : State} (tag : Nat) (hs : Serves s 0xA0) : Answers (.pairStatus tag) s 0xA0 tag 0x00
    ([s.shown.triadMode,
      b2n (s.shown.triad.excluded.get .a) + b2n (s.shown.triad.excluded.get .b) * 2 + b2n (s.shown.triad.excluded.get .c) * 4,
      (match s.shown.triad.proof with
        | some core => core.idx + 1
        | none => 0),
      (s.shown.ap .a).role, (s.shown.ap .b).role, s.shown.holderN, s.now.nat pPAIR_PREFERRED, b2n s.shown.dualTx]
      ++ le 4 s.shown.duplexLeftS ++ le 4 s.shown.pair.switches ++ le 4 s.shown.pair.snapFrame) s.now := by
  refine answers_of_serves hs (by rw [exec_pairStatus, execPairStatus]) ?_
  simp only [coreBits_eq]
  rfl

/-- Settles O41: each event acts under its condition as the lemma of its own name says, `Mach.switchTo` gives the answer of a
switch, and PAIR_STATUS reads the frame before. -/
theorem pairEventsAndSwitchCommands : Obligations.PairEventsAndSwitchCommands := by
  unfold Obligations.PairEventsAndSwitchCommands
  refine ⟨⟨?takeover, fun s => does_pairNoHolder, ?snapshot, fun s h => does_standbyInSync, ?release,
      fun s f => does_dualTxEnd_of_start, fun s f => does_dualTxEnd_of_change⟩,
    ?switchOver, ?switchBack, fun s tag => answers_pairStatus tag⟩
  case takeover =>
    intro s htakeover hholder hballast
    exact ⟨fun hyoung => does_takeover htakeover hholder hballast (if_neg (Nat.not_lt.mpr hyoung)),
      fun hold => does_takeover htakeover hholder hballast (if_pos hold)⟩
  case snapshot =>
    intro s f h hsnap hholder hchunks
    refine ⟨does_snapshotComplete_of_kept hsnap hholder hchunks, fun hdiffers hoff hboot hfault => ?_⟩
    have hgiven {m : Mach} := does_snapshotComplete_of_given (m := m) hsnap hholder hchunks hdiffers hoff hboot hfault
    exact ⟨fun hinit => hgiven (if_pos hinit), fun hinit => hgiven (if_neg (ne_true_of_eq_false hinit))⟩
  case release =>
    intro s ap f huntil hover
    refine ⟨fun hon => ?_, fun hoff hever => ?_, fun hoff hever => ?_⟩
    · exact does_apResetRelease huntil hover (afterReload_of_on (by rwa [onAp_ap]))
    · exact does_apResetRelease huntil hover (afterReload_of_first (by rwa [onAp_ap]) (by rwa [onAp_ap]))
    · exact does_apResetRelease huntil hover (afterReload_of_again (by rwa [onAp_ap]) (by rwa [onAp_ap]))
  case switchOver =>
    intro s tag hs
    exact ⟨fun htest => answers_switchOver hs (switchTo_of_test htest),
      fun hproof hrole => answers_switchOver hs (switchTo_of_notStandby hproof rfl hrole),
      fun hproof hrole => answers_switchOver hs (switchTo_of_standby hproof rfl hrole)⟩
  case switchBack =>
    intro s tag hs
    refine ⟨fun htest => answers_switchBack hs (switchTo_of_test htest),
      fun hproof hheld => answers_switchBack hs (switchBack_of_held hproof hheld), fun hproof hother hrole => ?_,
      fun hproof hother hrole => ?_⟩
    · exact answers_switchBack hs (switchTo_of_notStandby hproof (by simpa using hother) hrole)
    · exact answers_switchBack hs (switchTo_of_standby hproof (by simpa using hother) hrole)

end Sys2Proof.Proofs
end

section
/-!
PROOFS. The step, the one stop of the model, and the state at reset (00; 01 R28; 13 R435, R436; 17 R512).
-/
namespace Sys2Proof.Proofs

open Sys2Proof Sys2Proof.Machine

theorem step_of_command {s : State} {c : Instr} {rest : List Instr} (h : s.pending = c :: rest) :
    step s = exec c { s with pending := rest } := by
  rw [step, h]

theorem step_of_empty {s : State} (h : s.pending = []) : step s = .next s := by
  rw [step, h]

/-- Settles O1: `step` is the match on the queue. -/
theorem stepRunsFrontOfQueue : Obligations.StepRunsFrontOfQueue := by
  unfold Obligations.StepRunsFrontOfQueue
  exact ⟨fun s c rest => step_of_command, fun s => step_of_empty⟩

theorem next_of_completes {s : State} {r : Res} (h : Completes s r) : ∃ t, r = .next t :=
  h.elim fun _ hm => ⟨_, hm⟩

/-- Settles O3: FRAME_TICK answers a next state, SCRUB stops for an absent word alone, and every other command
completes (`completes_exec`). -/
theorem onlyScrubStops : Obligations.OnlyScrubStops := by
  unfold Obligations.OnlyScrubStops
  intro c s
  by_cases htick : ∃ inp, c = .frameTick inp
  · obtain ⟨inp, rfl⟩ := htick
    exact .inl ⟨_, rfl⟩
  by_cases hscrub : ∃ addr flips, c = .scrub addr flips
  · obtain ⟨addr, flips, rfl⟩ := hscrub
    by_cases habsent : mramSize ≤ addr ∨ addr % 8 ≠ 0
    · exact .inr ⟨addr, flips, rfl, habsent, exec_scrub_of_absent s addr flips habsent⟩
    · exact .inl (next_of_completes (completes_scrub s addr flips habsent))
  · push Not at htick hscrub
    exact .inl (next_of_completes (completes_exec c s htick hscrub))

/-- Settles O4: the reset state as it is written, whose MRAM lists nothing. -/
theorem resetIsUnpowered : Obligations.ResetIsUnpowered := by
  unfold Obligations.ResetIsUnpowered
  have hmram : State.reset.now.mram = [] := rfl
  refine ⟨⟨rfl, rfl, rfl, rfl, rfl, rfl, rfl, rfl, hmram, rfl, rfl, rfl⟩, ?_, ?_⟩
  · rw [hmram]
    rfl
  · rfl

end Sys2Proof.Proofs
end

section
/-!
PROOFS. The host port's part of a command: what it posts, the reply it prepares, and that every command of the port is
answered once (14 R446 to R454, R465 to R469).
-/
namespace Sys2Proof.Proofs

open Sys2Proof Sys2Proof.Machine

/-- The outcome is that of the port's service under this opcode and tag. -/
def Served (s : State) (op tag : Nat) (r : Res) : Prop := ∃ f, r = serve s op tag f

theorem served_serve (s : State) (op tag : Nat) (f : Mach → Mach × Nat × List Nat) : Served s op tag (serve s op tag f) := ⟨f, rfl⟩

/-- Every row of the host port is served under its own opcode and tag; WINDOW_READ alone is not served by `serve`. -/
theorem exec_hostCommand {c : Instr} {op tag : Nat} (s : State) (h : hostCommand c = some (op, tag)) :
    Served s op tag (exec c s) ∨ ∃ bad, c = .windowRead tag bad ∧ op = 0x71 := by
  cases c with
  | windowRead tag bad =>
    cases h
    exact .inr ⟨bad, rfl, rfl⟩
  | learnRun | home | callAdd | callCancel | runTo | stopAtLanding | stopImmediate | stopEmergencyRamp | doorOpen |
    doorClose | doorHold | doorNudge | doorLearn | proofTest | switchOver | switchBack | chConfig | chRead | chWrite |
    groupRearm | benchSet | busConfig | objBind | objUnbind | objRead | objSend | objCancel | schedLoad | busSleep |
    busWakeCommand | calMeasure | calApply | meterConfig | meterRead | energyRead | cursorSet | drawerInfo |
    drawerClear | cabLogin | cabLogout | cabStage | cabDiscard | cabCommit | cabPassword | cabLogRead | attest |
    certGet | fwBegin | fwChunk | fwCommit | pairStatus | nop | ident | status | resetPort | resetModule | evtRead |
    timeSet | budgetSet | unitList | unitGet | unitSet | unitEnable | unitDisable | groupDefine | sleepPolicy |
    powerRead =>
    cases h
    rw [exec]
    exact .inl (served_serve ..)
  | _ => cases h

theorem exec_windowRead (tag : Nat) (bad : List Nat) (s : State) :
    exec (.windowRead tag bad) s = execWindowRead tag bad s := rfl

theorem exec_windowRead_of_notServing {s : State} (tag : Nat) (bad : List Nat) (h : s.now.serves? = false) :
    exec (.windowRead tag bad) s = .next s := by
  rw [exec_windowRead, execWindowRead, if_pos (by simp [h])]

theorem does_windowRead_of_notAdmitted {s : State} (tag : Nat) (bad : List Nat) (h : s.now.serves? = true)
    (hadm : s.now.admits 0x71 = false) : Does (.windowRead tag bad) s (s.now.reply 0x71 tag 0x22 []) := by
  rw [Does, exec_windowRead, execWindowRead, if_neg (by simp [h]), if_pos (by simp [hadm])]
  rfl

theorem serve_of_notServing {s : State} (op tag : Nat) (f : Mach → Mach × Nat × List Nat) (h : s.now.serves? = false) :
    serve s op tag f = .next s := by
  rw [serve, if_pos (by simp [h])]

theorem serve_of_notAdmitted {s : State} {op : Nat} (tag : Nat) (f : Mach → Mach × Nat × List Nat)
    (h : s.now.serves? = true) (hadm : s.now.admits op = false) :
    serve s op tag f = .next { s with now := s.now.reply op tag 0x22 [] } := by
  rw [serve, if_neg (by simp [h]), if_pos (by simp [hadm])]
  rfl

/-- Settles O13: `serve` and WINDOW_READ make the same two checks before anything else. -/
theorem hostCommandOutsideService : Obligations.HostCommandOutsideService := by
  unfold Obligations.HostCommandOutsideService
  intro c s op tag hc
  obtain ⟨f, hf⟩ | ⟨bad, rfl, rfl⟩ := exec_hostCommand s hc
  · rw [Answers, Does, hf]
    exact ⟨serve_of_notServing op tag f, serve_of_notAdmitted tag f⟩
  · exact ⟨exec_windowRead_of_notServing tag bad, does_windowRead_of_notAdmitted tag bad⟩

/-- WINDOW_READ in service: its window is answered, or stays pending (13 R432). -/
def windowServed (m : Mach) (tag : Nat) : Option (Mach × List Nat) × List Nat → Mach
  | (some r, _) => r.1.reply 0x71 tag 0x00 r.2
  | (none, fails) => { m with rcd.win := some ⟨tag, 1, m.time.frame, fails⟩, host.taken := none, host.hbsy := true }

theorem does_windowRead {s : State} (tag : Nat) (bad : List Nat) (hs : Serves s 0x71) : Does (.windowRead tag bad) s
    (windowServed s.now tag (s.now.copyAttempt (2500 * s.now.time.frame + 2125) bad [])) := by
  obtain ⟨hserves, hadm⟩ := hs
  rw [Does, exec_windowRead, execWindowRead, if_neg (by simp [hserves]), if_neg (by simp [hadm])]
  rfl

/-- A reply is held for its frame and takes the packet that asked for it. -/
theorem reply_host (m : Mach) (op tag st : Nat) (p : List Nat) :
    (m.reply op tag st p).host.prep = some ⟨op, tag, st, m.rflags, min 255 m.host.queue.length, p⟩
    ∧ (m.reply op tag st p).host.prepAt = m.time.frame ∧ (m.reply op tag st p).host.hbsy = true
    ∧ (m.reply op tag st p).host.taken = none
    ∧ (m.reply op tag st p).host.packets = (if st ≤ 1 then sat32 m.host.packets else m.host.packets) :=
  ⟨rfl, rfl, rfl, rfl, rfl⟩

/-- The reply of the command is prepared, and its packet is done with. -/
def AnsweredOnce (m : Mach) (op tag : Nat) : Prop :=
  ((∃ st fl n p, m.host.prep = some ⟨op, tag, st, fl, n, p⟩) ∨ (op = 0x71 ∧ m.rcd.win.isSome = true))
  ∧ m.host.hbsy = true ∧ m.host.taken = none

theorem answeredOnce_reply (m : Mach) (op tag st : Nat) (p : List Nat) : AnsweredOnce (m.reply op tag st p) op tag := by
  obtain ⟨hprep, -, hbsy, htaken, -⟩ := reply_host m op tag st p
  exact ⟨.inl ⟨_, _, _, _, hprep⟩, hbsy, htaken⟩

theorem answeredOnce_windowServed (m : Mach) (tag : Nat) (r : Option (Mach × List Nat) × List Nat) :
    AnsweredOnce (windowServed m tag r) 0x71 tag := by
  obtain ⟨_ | r, fails⟩ := r
  · exact ⟨.inr ⟨rfl, rfl⟩, rfl, rfl⟩
  · exact answeredOnce_reply ..

/-- Settles O12: `serve` ends in the reply of the command; WINDOW_READ in its reply or in a pending window. -/
theorem hostCommandAnswered : Obligations.HostCommandAnswered := by
  unfold Obligations.HostCommandAnswered
  intro c s op tag hc hserves hadm
  obtain ⟨f, hf⟩ | ⟨bad, rfl, rfl⟩ := exec_hostCommand s hc
  · rw [hf, serve_of_serves ⟨hserves, hadm⟩]
    exact ⟨_, rfl, answeredOnce_reply ..⟩
  · exact ⟨_, does_windowRead tag bad ⟨hserves, hadm⟩, answeredOnce_windowServed ..⟩

/-! Events. -/

theorem evtOn_iff (m : Mach) (kind : Nat) :
    m.evtOn kind = true ↔ kind = 1 ∨ kind = 3 ∨ kind = 0xC ∨ bit (m.nat pEVT_MASK) kind = true := by
  simp only [Mach.evtOn, Bool.or_eq_true, beq_iff_eq, or_assoc]

theorem post_of_on {m : Mach} {kind : Nat} (detail unit code data : Nat) (h : m.evtOn kind = true) :
    m.post kind detail unit code data
      = { m with host.posted := m.host.posted ++ [⟨0, kind, detail, unit, code, data % 2 ^ 32, m.ts % 2 ^ 32⟩] } :=
  if_pos h

theorem post_of_off {m : Mach} {kind : Nat} (detail unit code data : Nat) (h : ¬ m.evtOn kind = true) :
    m.post kind detail unit code data = m :=
  if_neg h

/-- The bits of RFLAGS, least significant first (14 R449). -/
theorem bit_flags (a b c : Bool) : bit (b2n a + 2 * b2n b + 4 * b2n c) 0 = a ∧ bit (b2n a + 2 * b2n b + 4 * b2n c) 1 = b
    ∧ bit (b2n a + 2 * b2n b + 4 * b2n c) 2 = c ∧ b2n a + 2 * b2n b + 4 * b2n c < 8 := by
  revert a b c
  decide

theorem reply_changesOnly_host (m : Mach) (op tag st : Nat) (p : List Nat) : changesOnly [.host] m (m.reply op tag st p) := by
  intro q hq
  cases q with
  | host => exact absurd (List.mem_singleton_self _) hq
  | _ => rfl

/-- Settles O10: `post_of_on` and `post_of_off` by the kind, the fields of `Mach.reply`, and the three bits of RFLAGS. -/
theorem eventsAndRepliesPrepared : Obligations.EventsAndRepliesPrepared := by
  unfold Obligations.EventsAndRepliesPrepared
  refine ⟨fun m kind detail unit code data => ⟨fun hon => post_of_on _ _ _ _ ((evtOn_iff m kind).mpr hon),
    fun h1 h3 hC hmask => post_of_off _ _ _ _ (by simp [evtOn_iff, h1, h3, hC, hmask]),
    fun op tag status => post_of_on _ _ _ _ ((evtOn_iff m 3).mpr (.inr (.inl rfl)))⟩, fun m op tag st p => ?_,
    fun m => bit_flags ..⟩
  obtain ⟨hprep, hat, hbsy, htaken, hpackets⟩ := reply_host m op tag st p
  exact ⟨hprep, hat, hbsy, htaken, hpackets, reply_changesOnly_host m op tag st p⟩

/-! The bytes of an event entry (14 R466). -/

theorem le_lt (n x : Nat) : ∀ b ∈ le n x, b < 256 := by
  induction n generalizing x with
  | zero => exact fun b hb => absurd hb List.not_mem_nil
  | succ n ih => exact List.forall_mem_cons.mpr ⟨Nat.mod_lt _ (by decide), ih _⟩

/-- Settles O11: each field is written at the position where it is read (`leAt_append_le`). -/
theorem eventEntryBytes : Obligations.EventEntryBytes := by
  unfold Obligations.EventEntryBytes
  intro e hseq hkind hdetail hunit hcode hdata htime b
  refine ⟨by simp [b, evtBytes], ?_, rfl, rfl, ?_, ?_, ?_, ?_, ?_⟩
  · have h := leAt_append_le [] ([e.kind, e.detail] ++ le 2 e.unit ++ le 2 e.code ++ le 4 e.data ++ le 4 e.time) 2 e.seq hseq
    simpa [b, evtBytes] using h
  · have h := leAt_append_le (le 2 e.seq ++ [e.kind, e.detail]) (le 2 e.code ++ le 4 e.data ++ le 4 e.time) 2 e.unit hunit
    simpa [b, evtBytes] using h
  · have h := leAt_append_le (le 2 e.seq ++ [e.kind, e.detail] ++ le 2 e.unit) (le 4 e.data ++ le 4 e.time) 2 e.code hcode
    simpa [b, evtBytes] using h
  · have h := leAt_append_le (le 2 e.seq ++ [e.kind, e.detail] ++ le 2 e.unit ++ le 2 e.code) (le 4 e.time) 4 e.data hdata
    simpa [b, evtBytes] using h
  · have h := leAt_append_le (le 2 e.seq ++ [e.kind, e.detail] ++ le 2 e.unit ++ le 2 e.code ++ le 4 e.data) [] 4 e.time htime
    simpa [b, evtBytes] using h
  · intro x hx
    simp only [b, evtBytes, List.mem_append, List.mem_cons, List.not_mem_nil, or_false] at hx
    obtain ((((h | rfl | rfl) | h) | h) | h) | h := hx
    · exact le_lt _ _ x h
    · exact hkind
    · exact hdetail
    · exact le_lt _ _ x h
    · exact le_lt _ _ x h
    · exact le_lt _ _ x h
    · exact le_lt _ _ x h

end Sys2Proof.Proofs
end

section
/-!
PROOFS. The MRAM keeps its canonical form: which commands may write it at all, and that those keep the form (13 R415,
R435).
-/
namespace Sys2Proof.Proofs

open Sys2Proof Sys2Proof.Machine Sys2Proof.Laws

/-- The commands that may write the MRAM: those of the recorder's and the meter's saves, of the cabinet's log, of a
module that saves, restarts or starts up, and a frame. -/
def writesMram : Instr → Bool
  | .frameTick _ => true
  | .benchSet _ _ _ _ => true
  | .downFrame _ _ => true
  | .aggregationWindowEnd => true
  | .energySave => true
  | .recordFlush _ => true
  | .drawerClear _ _ => true
  | .commitVerdicts _ => true
  | .commitPoint => true
  | .commitComplete => true
  | .passwordWritten _ => true
  | .fwVerified => true
  | .groupDefine _ _ _ => true
  | .resetModule _ => true
  | .resetN _ => true
  | .powerFailWarning _ => true
  | .stateSaveComplete _ => true
  | .convertersOff _ => true
  | .vinOvervolt _ _ => true
  | .restartAfterSave _ _ => true
  | .startupStepComplete => true
  | _ => false

/-- The outcome, where it is a next state, has the MRAM of this one. -/
def MramKept (s : State) (r : Res) : Prop := ∀ t, r = .next t → t.now.mram = s.now.mram

theorem mramKept_next (s : State) : MramKept s (.next s) := by
  rintro t ⟨⟩
  rfl

section
variable {s : State} {f : Mach → Mach} (h : (f s.now).mram = s.now.mram)
include h

theorem mramKept_on : MramKept s (on s f) := by
  rintro t ⟨⟩
  exact h

theorem mramKept_onWhen {c : Bool} : MramKept s (onWhen s c f) := by
  cases c with
  | false => exact mramKept_next s
  | true => exact mramKept_on h

end

theorem mramKept_serve {s : State} {op tag : Nat} {f : Mach → Mach × Nat × List Nat} (h : (f s.now).1.mram = s.now.mram) :
    MramKept s (serve s op tag f) := by
  unfold serve
  split
  · exact mramKept_next s
  · split
    · rintro t ⟨⟩
      rfl
    · rintro t ⟨⟩
      exact h

/-- The copy of a window reads the MRAM (13 R432). -/
theorem copyAttempt_mram {m : Mach} {t : Nat} {bad before fails : List Nat} {r : Mach × List Nat}
    (h : m.copyAttempt t bad before = (some r, fails)) : r.1.mram = m.mram := by
  dsimp only [Mach.copyAttempt] at h
  split at h
  · cases h
  · split at h
    · cases h
      exact (keeps_corruptFound m _).1
    · cases h

theorem mramKept_windowRead (tag : Nat) (bad : List Nat) (s : State) : MramKept s (exec (.windowRead tag bad) s) := by
  rw [exec_windowRead, execWindowRead]
  split
  · exact mramKept_next s
  · split
    · rintro t ⟨⟩
      rfl
    · refine mramKept_on ?_
      split
      next hcopy => exact copyAttempt_mram hcopy
      next => rfl

theorem mramKept_windowCopyRetry (bad : List Nat) (s : State) : MramKept s (exec (.windowCopyRetry bad) s) := by
  rw [exec, execWindowCopyRetry]
  split
  · exact mramKept_next s
  · refine mramKept_on ?_
    split
    next hcopy => exact copyAttempt_mram hcopy
    next =>
      split
      · rfl
      · rfl

theorem mramKept_halfCycleValue (inp : HalfIn) (s : State) : MramKept s (exec (.halfCycleValue inp) s) := by
  rw [exec, execHalfCycleValue]
  split
  · exact mramKept_on (keeps_halfCycle s.now inp).1
  · split
    · exact mramKept_on (keeps_halfValued s.now _ _).1
    · exact mramKept_next s

theorem mramKept_ttWindowStart (port : Ab) (cell : Nat) (s : State) : MramKept s (exec (.ttWindowStart port cell) s) := by
  rw [exec, execTtWindowStart]
  split
  · exact mramKept_next s
  · split
    · exact mramKept_next s
    · exact mramKept_onWhen (keeps_setObj s.now port _).1

/-- SCRUB marks words and counts; it writes none (13 R436). -/
theorem mramKept_scrub (addr flips : Nat) (s : State) : MramKept s (exec (.scrub addr flips) s) := by
  rw [exec, execScrub]
  split
  · rintro t ⟨⟩
  · refine mramKept_on ?_
    simp only [ite_mram, keeps_endIf, keeps_raise, ite_self]

/-- A host command that may not write the MRAM leaves it as it is. -/
theorem mramKept_hostCommand {c : Instr} {op tag : Nat} (s : State) (hc : hostCommand c = some (op, tag))
    (hw : writesMram c = false) : MramKept s (exec c s) := by
  cases c with
  | learnRun | home | callAdd | callCancel | runTo | stopAtLanding | stopImmediate | stopEmergencyRamp | doorOpen |
    doorClose | doorHold | doorNudge | doorLearn | proofTest | switchOver | switchBack | chConfig | chRead |
    chWrite | groupRearm | busConfig | objBind | objUnbind | schedLoad | busSleep | busWakeCommand | calMeasure |
    calApply | meterConfig | meterRead | energyRead | cursorSet | drawerInfo | cabLogin | cabLogout | cabStage |
    cabDiscard | cabPassword | cabLogRead | certGet | fwBegin | pairStatus | nop |
    ident | status | resetPort | evtRead | timeSet | budgetSet | unitList | unitGet | unitSet | unitEnable |
    unitDisable | sleepPolicy | powerRead =>
    dsimp only [exec, execLearnRun, execHome, execCallAdd, execCallCancel, execRunTo, execStopAtLanding,
      execStopImmediate, execStopEmergencyRamp, execDoorOpen, execDoorClose, execDoorHold, execDoorNudge, execDoorLearn,
      execProofTest, execSwitchOver, execSwitchBack, execChConfig, execChRead, execChWrite, execGroupRearm,
      execBusConfig, execObjBind, execObjUnbind, execSchedLoad, execBusSleep, execBusWakeCommand, execCalMeasure,
      execCalApply, execMeterConfig, execMeterRead, execEnergyRead, execCursorSet, execDrawerInfo, execCabLogin,
      execCabLogout, execCabStage, execCabDiscard, execCabPassword, execCabLogRead, execCertGet, execFwBegin,
      execPairStatus, execNop, execIdent, execStatus, execResetPort, execEvtRead, execTimeSet, execBudgetSet,
      execUnitList, execUnitGet, execUnitSet, execUnitEnable, execUnitDisable, execSleepPolicy, execPowerRead]
    refine mramKept_serve ?_
    simp only [keeps_bumpEpoch, keeps_calApply, keeps_calMeasure, keeps_chConfig, keeps_chWrite, keeps_closeHour,
      keeps_doorCmd, keeps_enableCmd, keeps_endFault, keeps_endIf, keeps_endLearn, keeps_energyRead, keeps_fwDrop,
      keeps_groupRearm, keeps_meterWrite, keeps_ok, keeps_onPort, keeps_pending, keeps_portSleep, keeps_portWake,
      keeps_proofStart, keeps_putI, keeps_queueCall, keeps_refuse, keeps_setEntries, keeps_setSlot, keeps_stopReq,
      keeps_switchTo, keeps_unitSet, when_mram, ite_mram, ite_fst, ite_self]
  | objRead | objSend | objCancel | cabCommit | attest | fwChunk | fwCommit =>
    dsimp only [exec, execObjRead, execObjSend, execObjCancel, execCabCommit, execAttest, execFwChunk, execFwCommit]
    refine mramKept_serve ?_
    repeat' split
    all_goals simp only [keeps_ok, keeps_pending, keeps_refuse, keeps_setObj]
  | windowRead tag bad => exact mramKept_windowRead tag bad s
  | benchSet | drawerClear | groupDefine | resetModule => cases hw
  | _ => cases hc

/-- A command that may not write the MRAM leaves it as it is. -/
theorem mramKept_exec (c : Instr) (s : State) (hw : writesMram c = false) : MramKept s (exec c s) := by
  cases c with
  | doorCurrentLoopUpdate | clockGateEnd | frameTickLost | meterSample | elevenRecessiveBits |
    transceiverOvertemp =>
    dsimp only [exec, execDoorCurrentLoopUpdate, execClockGateEnd, execFrameTickLost, execMeterSample,
      execElevenRecessiveBits, execTransceiverOvertemp]
    refine mramKept_on ?_
    simp only [keeps_clockGate, keeps_loopUpdate, keeps_meterSample, keeps_onPort, keeps_raise, keeps_transceiverFault]
  -- Position, engine, scheduler and doors.
  | apEstDiscord | tapeReaderLost | tapeReaderReinstated | tapePairDiscord | encFault | accFault | tractionSlip |
    homeComplete | positionRecovery | recoveryTimeout | engineStopEnd | drvStartTimeout | planEnd | relevelStart |
    relevelTimeout | driveFeedback | drvFbTimeout | trackVel | groupAssign | groupWithdraw | groupHb | groupLost |
    parkDelayExpired | schedStall | panelCallAdd | panelCallCancel | panelDoorOpen | panelDoorClose | hallBtn |
    indRefresh | keBoundExceeded | obstructionDetected | finalApproachTimeout | doorTimeLimit | doorLearnComplete |
    dwellEnd | holdTimeout | nudgeAutoStart | doorBallastTimeout | doorStoppingComplete | currentOffsetCheck |
    doorRecheck =>
    dsimp only [exec, execApEstDiscord, execTapeReaderLost, execTapeReaderReinstated, execTapePairDiscord, execEncFault,
      execAccFault, execTractionSlip, execHomeComplete, execPositionRecovery, execRecoveryTimeout, execEngineStopEnd,
      execDrvStartTimeout, execPlanEnd, execRelevelStart, execRelevelTimeout, execDriveFeedback, execDrvFbTimeout,
      execTrackVel, execGroupAssign, execGroupWithdraw, execGroupHb, execGroupLost, execParkDelayExpired,
      execSchedStall, execPanelCallAdd, execPanelCallCancel, execPanelDoorOpen, execPanelDoorClose, execHallBtn,
      execIndRefresh, execKeBoundExceeded, execObstructionDetected, execFinalApproachTimeout, execDoorTimeLimit,
      execDoorLearnComplete, execDwellEnd, execHoldTimeout, execNudgeAutoStart, execDoorBallastTimeout,
      execDoorStoppingComplete, execCurrentOffsetCheck, execDoorRecheck]
    refine mramKept_onWhen ?_
    simp only [keeps_allReadersLost, keeps_cancelPlan, keeps_commitRest, keeps_completed, keeps_confirm,
      keeps_doorEvent, keeps_doorOff, keeps_encoderLost, keeps_endFault, keeps_groupCmd, keeps_groupRes,
      keeps_hallPress, keeps_indications, keeps_learnDone, keeps_learnFail, keeps_msgAccept, keeps_obstruct,
      keeps_panelCall, keeps_panelDoor, keeps_raise, keeps_recoverAt, keeps_reverse, keeps_side, keeps_startClose,
      keeps_storeModel, each_mram, implies_true, ite_mram, ite_self]
  -- Safety, triad, pair, link and channels.
  | discrepancyTimeout | resetEdge | resetStuck | lock | lockMsgTimeout | lockSourceDisagree | landingDoorAway |
    inspStopTimeout | contactorPullTimeout | contactorDropTimeout | brakeOpenTimeout | brakeCloseTimeout |
    tslSwitch | proofAutoStart | proofOverdue | readmissionStart | duplexExpired | takeover | pairNoHolder |
    apResetRelease | dualTxEnd | upFrame | linkTimeout | linkErrorRate | fieldConfigMismatch | supplyThreshold |
    domainWaitRearm | inputDebounced | wireBreak | outputRetry | groupOverload | shortToSupply | channelStoppingEnd |
    benchEnd =>
    dsimp only [exec, execDiscrepancyTimeout, execResetEdge, execResetStuck, execLock, execLockMsgTimeout,
      execLockSourceDisagree, execLandingDoorAway, execInspStopTimeout, execContactorPullTimeout,
      execContactorDropTimeout, execBrakeOpenTimeout, execBrakeCloseTimeout, execTslSwitch, execProofAutoStart,
      execProofOverdue, execReadmissionStart, execDuplexExpired, execTakeover, execPairNoHolder, execApResetRelease,
      execDualTxEnd, execUpFrame, execLinkTimeout, execLinkErrorRate, execFieldConfigMismatch, execSupplyThreshold,
      execDomainWaitRearm, execInputDebounced, execWireBreak, execOutputRetry, execGroupOverload, execShortToSupply,
      execChannelStoppingEnd, execBenchEnd]
    refine mramKept_onWhen ?_
    simp only [keeps_afterReload, keeps_allOff, keeps_cell, keeps_core, keeps_debounced, keeps_driveAll, keeps_eccSeen,
      keeps_endBenches, keeps_endFault, keeps_judged, keeps_lockReceived, keeps_onAp, keeps_post, keeps_proofStart,
      keeps_raise, keeps_report, keeps_resetOthers, keeps_safeStates, keeps_setCore, keeps_setLock,
      keeps_supplyThreshold, keeps_syncSafety, keeps_upFrame, keeps_wireBreak, keeps_wireEnds, each_mram, implies_true,
      ite_mram, ite_self]
  -- Bus, meter, recorder, cabinet and security.
  | timeReferenceReceived | timeSlaveLost | busOffRecovered | transmitDominantTimeout | bitTimingApply | busWake |
    portStoppingEnd | freqWindowEnd | hourRecord | offsetTracking | cabLockoutEnd | lockoutStateWrite |
    sessionExpired | bootVerified =>
    dsimp only [exec, execTimeReferenceReceived, execTimeSlaveLost, execBusOffRecovered, execTransmitDominantTimeout,
      execBitTimingApply, execBusWake, execPortStoppingEnd, execFreqWindowEnd, execHourRecord, execOffsetTracking,
      execCabLockoutEnd, execLockoutStateWrite, execSessionExpired, execBootVerified]
    refine mramKept_onWhen ?_
    simp only [keeps_bootAp, keeps_bootField, keeps_bootKernel, keeps_busCrcErr, keeps_cell, keeps_closeHour,
      keeps_endFault, keeps_endIf, keeps_endSession, keeps_freqWindowEnd, keeps_heard, keeps_onPort, keeps_portWake,
      keeps_post, keeps_raise, keeps_recDown, keeps_saveLock, keeps_seqAccept, keeps_setCounters, keeps_startBlocks,
      keeps_transceiverFault, ite_mram, ite_self]
  -- Units, host port, power and start-up.
  | unitStoppingComplete | hostStall | keepaliveLost | vinGood | vinLow | vinHigh | scheduledWake | wake |
    startupDeadline | tetherGrantFallback | resetNRelease | busReceiveError | sensorSupplyOff | sensorSupplyOn |
    railFault | logicTempThreshold | vinFaultEnd =>
    dsimp only [exec, execUnitStoppingComplete, execHostStall, execKeepaliveLost, execVinGood, execVinLow, execVinHigh,
      execScheduledWake, execWake, execStartupDeadline, execTetherGrantFallback, execResetNRelease, execBusReceiveError,
      execSensorSupplyOff, execSensorSupplyOn, execRailFault, execLogicTempThreshold, execVinFaultEnd]
    refine mramKept_onWhen ?_
    simp only [keeps_begin, keeps_blockStart, keeps_encoderLost, keeps_endIf, keeps_endSession, keeps_grantTether,
      keeps_post, keeps_raise, keeps_setCounters, keeps_startBlocks, keeps_unitOff, keeps_wakeUp, ite_mram, ite_self]
  | coreDiscord | levelSettleEnd | bridgeTrip | learnRunComplete | outputLimit | busFrameReceived =>
    dsimp only [exec, execCoreDiscord, execLevelSettleEnd, execBridgeTrip, execLearnRunComplete, execOutputLimit,
      execBusFrameReceived]
    refine mramKept_onWhen ?_
    repeat' split
    all_goals simp only [keeps_busCrcErr, keeps_completed, keeps_endRun, keeps_heard, keeps_levelCorr, keeps_limitOff,
      keeps_raise, keeps_recDown, keeps_report, keeps_side, keeps_storeFrame, keeps_takeMean]
  | ttMissed | calMeasureEnd | fwChunkWritten | fwTransferTimeout | replyReady | proofTestEnd | proofRejoin |
    proofFailed | standbyInSync | snapshotComplete | busFrameSent =>
    dsimp only [exec, execTtMissed, execCalMeasureEnd, execFwChunkWritten, execFwTransferTimeout, execReplyReady,
      execProofTestEnd, execProofRejoin, execProofFailed, execStandbyInSync, execSnapshotComplete, execBusFrameSent]
    split
    all_goals first | exact mramKept_next s | refine mramKept_onWhen ?_
    all_goals repeat' split
    all_goals simp only [keeps_busCount, keeps_completed, keeps_eccSeen, keeps_endCause, keeps_endFault, keeps_endIf,
      keeps_frameSent, keeps_fwEnd, keeps_notSent, keeps_onAp, keeps_onPort, keeps_post, keeps_proofDone,
      keeps_proofFails, keeps_proofOver, keeps_raise, keeps_rejoins, keeps_setObj, keeps_txError, keeps_unsync]
  | loginVerified | attestComplete | testPulseEnd | hostTransaction =>
    dsimp only [exec, execLoginVerified, execAttestComplete, execTestPulseEnd, execHostTransaction]
    split
    all_goals first | exact mramKept_next s | refine mramKept_on ?_
    all_goals repeat' split
    all_goals simp only [keeps_eccSeen, keeps_heldAfter, keeps_refusePacket, keeps_transaction, keeps_checkInputs,
      keeps_completed, keeps_judgePulse, keeps_loginFailed, keeps_saveLock]
  | windowCopyRetry bad => exact mramKept_windowCopyRetry bad s
  | halfCycleValue inp => exact mramKept_halfCycleValue inp s
  | ttWindowStart port cell => exact mramKept_ttWindowStart port cell s
  | scrub addr flips => exact mramKept_scrub addr flips s
  | frameTick | downFrame | aggregationWindowEnd | energySave | recordFlush | commitVerdicts | commitPoint | commitComplete |
    passwordWritten | fwVerified | resetN | powerFailWarning | stateSaveComplete | convertersOff | vinOvervolt |
    restartAfterSave | startupStepComplete => cases hw
  | _ => exact mramKept_hostCommand s rfl hw

/-! The commands that may write it. -/

/-- The outcome, where it is a next state, has its MRAM in canonical form where this one has. -/
def KeepsForm (s : State) (r : Res) : Prop :=
  Memory.wf s.now.mram = true → ∀ t, r = .next t → Memory.wf t.now.mram = true

theorem keepsForm_of_kept {s : State} {r : Res} (h : MramKept s r) : KeepsForm s r := by
  intro hw t ht
  rwa [h t ht]

section
variable {s : State} {f : Mach → Mach} (h : Memory.wf s.now.mram = true → Memory.wf (f s.now).mram = true)
include h

theorem keepsForm_on : KeepsForm s (on s f) := by
  rintro hw t ⟨⟩
  exact h hw

theorem keepsForm_onWhen {c : Bool} : KeepsForm s (onWhen s c f) := by
  cases c with
  | false => exact keepsForm_of_kept (mramKept_next s)
  | true => exact keepsForm_on h

end

theorem keepsForm_serve {s : State} {op tag : Nat} {f : Mach → Mach × Nat × List Nat}
    (h : Memory.wf s.now.mram = true → Memory.wf (f s.now).1.mram = true) : KeepsForm s (serve s op tag f) := by
  unfold serve
  split
  · exact keepsForm_of_kept (mramKept_next s)
  · split
    · rintro hw t ⟨⟩
      exact hw
    · rintro hw t ⟨⟩
      exact h hw

/-- A module with the MRAM of one in canonical form is in canonical form. -/
theorem wf_of_mram_eq {m n : Mach} (h : n.mram = m.mram) (hw : Memory.wf m.mram = true) : Memory.wf n.mram = true := by
  rwa [h]

theorem keepsForm_frameTick (inp : FrameIn) (s : State) : KeepsForm s (exec (.frameTick inp) s) := by
  intro hw t ht
  cases hticks : s.now.ticks with
  | true =>
    rw [exec_frameTick_of_ticks s inp hticks] at ht
    injection ht with ht
    subst ht
    exact wf_frame _ _ _ (wf_of_mram_eq (keeps_deliver s.now).1 hw)
  | false =>
    cases hsave : s.now.power.saveDone with
    | true =>
      rw [exec_frameTick_of_saveDone s inp hticks hsave] at ht
      injection ht with ht
      subst ht
      exact wf_of_mram_eq (keeps_fieldAlone s.now).1 hw
    | false =>
      rw [exec_frameTick_of_idle s inp hticks hsave] at ht
      injection ht with ht
      subst ht
      exact hw

theorem keepsForm_benchSet (tag ch on val : Nat) (s : State) : KeepsForm s (exec (.benchSet tag ch on val) s) := by
  rw [exec, execBenchSet]
  exact keepsForm_serve (wf_benchSet s.now ch on val)

theorem keepsForm_groupDefine (tag h : Nat) (kids : List Nat) (s : State) : KeepsForm s (exec (.groupDefine tag h kids) s) := by
  rw [exec, execGroupDefine]
  exact keepsForm_serve (wf_groupDefine s.now h kids)

theorem keepsForm_drawerClear (tag drawer : Nat) (s : State) : KeepsForm s (exec (.drawerClear tag drawer) s) := by
  rw [exec, execDrawerClear]
  refine keepsForm_serve fun hw => ?_
  repeat' split
  all_goals simp only [keeps_refuse, keeps_pending]
  case h_2.isFalse.isFalse =>
    exact wf_logEvent _ _ _ _ (wf_of_mram_eq (keeps_onDrawer s.now _ _).1 hw)
  all_goals exact hw

theorem keepsForm_resetModule (tag : Nat) (s : State) : KeepsForm s (exec (.resetModule tag) s) := by
  rw [exec, execResetModule]
  refine keepsForm_serve fun hw => ?_
  split
  · simpa only [keeps_refuse] using hw
  · simpa only [keeps_ok] using wf_beginSave s.now 2 hw

theorem keepsForm_downFrame (lt : Nat) (err : Kept Nat) (s : State) : KeepsForm s (exec (.downFrame lt err) s) := by
  rw [exec, execDownFrame]
  refine keepsForm_onWhen fun hw => ?_
  simpa only [keeps_eccSeen] using wf_downFrame s.now lt err.val err.ecc hw

theorem keepsForm_aggregationWindowEnd (s : State) : KeepsForm s (exec .aggregationWindowEnd s) := by
  rw [exec, execAggregationWindowEnd]
  exact keepsForm_onWhen (wf_windowEnd s.now)

theorem keepsForm_energySave (s : State) : KeepsForm s (exec .energySave s) := by
  rw [exec, execEnergySave]
  refine keepsForm_onWhen fun hw => ?_
  simpa only [keeps_endFault] using wf_saveMeter s.now 0 hw

theorem keepsForm_recordFlush (bad : List Nat) (s : State) : KeepsForm s (exec (.recordFlush bad) s) := by
  rw [exec, execRecordFlush]
  exact keepsForm_onWhen (wf_flush s.now bad)

theorem keepsForm_commitVerdicts (delivered : Three Bool) (s : State) : KeepsForm s (exec (.commitVerdicts delivered) s) := by
  rw [exec, execCommitVerdicts]
  split
  · refine keepsForm_onWhen fun hw => ?_
    split
    · exact wf_abortCommit s.now hw
    · exact wf_commitVerdicts s.now _ delivered hw
  · exact keepsForm_of_kept (mramKept_next s)

theorem keepsForm_commitPoint (s : State) : KeepsForm s (exec .commitPoint s) := by
  rw [exec, execCommitPoint]
  split
  · refine keepsForm_onWhen fun hw => ?_
    split
    · exact wf_abortCommit s.now hw
    · simpa only [keeps_sendChanged] using hw
  · exact keepsForm_of_kept (mramKept_next s)

theorem keepsForm_commitComplete (s : State) : KeepsForm s (exec .commitComplete s) := by
  rw [exec, execCommitComplete]
  split
  · refine keepsForm_onWhen fun hw => ?_
    exact wf_startResume _ (by simpa only [keeps_commitComplete] using hw)
  · exact keepsForm_of_kept (mramKept_next s)

theorem keepsForm_passwordWritten (agree : Three Bool) (s : State) : KeepsForm s (exec (.passwordWritten agree) s) := by
  rw [exec, execPasswordWritten]
  split
  · exact keepsForm_of_kept (mramKept_next s)
  · refine keepsForm_on fun hw => ?_
    dsimp only
    split
    · simp only [keeps_completed]
      refine wf_logEvent _ _ _ _ ?_
      simpa only [keeps_writeBlocks, keeps_drawSalt] using hw
    · simpa only [keeps_completed] using hw

theorem keepsForm_fwVerified (s : State) : KeepsForm s (exec .fwVerified s) := by
  rw [exec, execFwVerified]
  split
  · exact keepsForm_onWhen (wf_fwVerified s.now _)
  · exact keepsForm_of_kept (mramKept_next s)

theorem keepsForm_resetN (us : Nat) (s : State) : KeepsForm s (exec (.resetN us) s) := by
  rw [exec, execResetN]
  refine keepsForm_onWhen fun hw => ?_
  exact wf_restart s.now hw

theorem keepsForm_powerFailWarning (vin : Nat) (s : State) : KeepsForm s (exec (.powerFailWarning vin) s) := by
  rw [exec, execPowerFailWarning]
  refine keepsForm_onWhen fun hw => wf_beginSave _ 0 ?_
  simpa only [keeps_raise] using hw

/-- What STATE_SAVE_COMPLETE writes: the snapshots, the lockout and POWER (15 R478). -/
theorem keepsForm_stateSaveComplete (us : Nat) (s : State) : KeepsForm s (exec (.stateSaveComplete us) s) := by
  rw [exec, execStateSaveComplete]
  refine keepsForm_onWhen fun hw => ?_
  have hsaved : Memory.wf (s.now.writeSnapshots.saveLock s.now.cab.fails s.now.lockoutLeft).outputsReset.mram = true := by
    simpa only [keeps_outputsReset, keeps_saveLock] using wf_writeSnapshots s.now hw
  have hended := wf_writePower _ true us hsaved
  dsimp only
  repeat' split
  all_goals simp only [keeps_endFault]
  case isFalse.isTrue =>
    refine wf_turnOff _ ?_
    simpa only [keeps_endFault] using hended
  all_goals exact hended

theorem keepsForm_convertersOff (vin : Nat) (s : State) : KeepsForm s (exec (.convertersOff vin) s) := by
  rw [exec, execConvertersOff]
  exact keepsForm_onWhen (wf_turnOff s.now)

theorem keepsForm_vinOvervolt (vin ms : Nat) (s : State) : KeepsForm s (exec (.vinOvervolt vin ms) s) := by
  rw [exec, execVinOvervolt]
  exact keepsForm_onWhen (wf_overvolt s.now)

theorem keepsForm_restartAfterSave (vin ms : Nat) (s : State) : KeepsForm s (exec (.restartAfterSave vin ms) s) := by
  dsimp only [exec, execRestartAfterSave]
  refine keepsForm_onWhen fun hw => ?_
  simpa only [keeps_begin] using wf_restart s.now hw

theorem keepsForm_startupStepComplete (s : State) : KeepsForm s (exec .startupStepComplete s) := by
  rw [exec, execStartupStepComplete]
  refine keepsForm_onWhen fun hw => ?_
  split
  · simpa only [keeps_becomeReady] using hw
  · exact wf_enterStep s.now _ hw

/-- Every command keeps the canonical form of the MRAM. -/
theorem keepsForm_exec (c : Instr) (s : State) : KeepsForm s (exec c s) := by
  cases c with
  | frameTick inp => exact keepsForm_frameTick inp s
  | benchSet tag ch on val => exact keepsForm_benchSet tag ch on val s
  | groupDefine tag handle kids => exact keepsForm_groupDefine tag handle kids s
  | drawerClear tag drawer => exact keepsForm_drawerClear tag drawer s
  | resetModule tag => exact keepsForm_resetModule tag s
  | downFrame lt err => exact keepsForm_downFrame lt err s
  | aggregationWindowEnd => exact keepsForm_aggregationWindowEnd s
  | energySave => exact keepsForm_energySave s
  | recordFlush bad => exact keepsForm_recordFlush bad s
  | commitVerdicts delivered => exact keepsForm_commitVerdicts delivered s
  | commitPoint => exact keepsForm_commitPoint s
  | commitComplete => exact keepsForm_commitComplete s
  | passwordWritten agree => exact keepsForm_passwordWritten agree s
  | fwVerified => exact keepsForm_fwVerified s
  | resetN us => exact keepsForm_resetN us s
  | powerFailWarning vin => exact keepsForm_powerFailWarning vin s
  | stateSaveComplete us => exact keepsForm_stateSaveComplete us s
  | convertersOff vin => exact keepsForm_convertersOff vin s
  | vinOvervolt vin ms => exact keepsForm_vinOvervolt vin ms s
  | restartAfterSave vin ms => exact keepsForm_restartAfterSave vin ms s
  | startupStepComplete => exact keepsForm_startupStepComplete s
  | _ => exact keepsForm_of_kept (mramKept_exec _ s rfl)

/-- The view that reads are served from keeps its form: FRAME_TICK alone renews it, by the module's own MRAM. -/
theorem shown_keepsForm {c : Instr} {s t : State} (h : exec c s = .next t) (hw : Memory.wf s.now.mram = true)
    (hshown : Memory.wf s.shown.mram = true) : Memory.wf t.shown.mram = true := by
  obtain ⟨-, hkept | ⟨-, hnew⟩⟩ := queueAndViewKept c s t h
  · rwa [hkept]
  · rw [hnew]
    exact wf_of_mram_eq ((keeps_refreshed _ _).1.trans (keeps_deliver s.now).1) hw

/-- Settles O5: a step runs the command at the front of the queue, which keeps the form of the module's MRAM
(`keepsForm_exec`) and of the view's (`shown_keepsForm`). -/
theorem stepKeepsInvariant : Obligations.StepKeepsInvariant := by
  unfold Obligations.StepKeepsInvariant
  rintro s t ⟨hnow, hshown⟩ hstep
  cases hq : s.pending with
  | nil =>
    rw [step_of_empty hq] at hstep
    cases hstep
    exact ⟨hnow, hshown⟩
  | cons c rest =>
    rw [step_of_command hq] at hstep
    exact ⟨keepsForm_exec c { s with pending := rest } hnow t hstep, shown_keepsForm hstep hnow hshown⟩

end Sys2Proof.Proofs
end

section
/-!
PROOFS. The MRAM as bytes and as records (13 R414, R415, R435).
-/
namespace Sys2Proof.Proofs

open Sys2Proof Sys2Proof.Machine Sys2Proof.Laws

/-- Settles O6, by the law of the bytes of a write. -/
theorem mramReadAfterWrite : Obligations.MramReadAfterWrite := by
  unfold Obligations.MramReadAfterWrite
  intro l a bs hw hs
  exact ⟨wf_writeBytes bs l a hw, read_writeBytes bs l a hw hs⟩

/-- Bytes that stand in the memory one by one are read as the string of them. -/
theorem readBytes_eq {l : List (Nat × BitVec 8)} {bs : List Nat} {a : Nat}
    (h : ∀ i < bs.length, (Memory.read l (a + i)).toNat = bs.getD i 0) : Memory.readBytes l a bs.length = bs := by
  induction bs generalizing a with
  | nil => rfl
  | cons b bs ih =>
    have hfirst := h 0 (by simp)
    have hrest : Memory.readBytes l (a + 1) bs.length = bs := ih fun i hi => by
      have hi' := h (i + 1) (by simpa using hi)
      rwa [← Nat.add_assoc, Nat.add_right_comm] at hi'
    rw [List.length_cons, Memory.readBytes, hrest]
    simp_all

/-! The bytes of a record. -/

theorem le_byte {n x b : Nat} (h : b ∈ le n x) : b < 256 := by
  induction n generalizing x with
  | zero => cases h
  | succ n ih =>
    rcases List.mem_cons.mp h with rfl | h
    · omega
    · exact ih h

theorem pad52_of_length {p : List Nat} (h : p.length = 52) : pad52 p = p := by
  rw [pad52, ← h, List.take_left]

section
variable {a seq : Nat} {p : List Nat} (h : p.length = 52)
include h

theorem recordBytes_eq : recordBytes a p seq = p ++ le 4 (recordCrc a p seq) ++ le 4 seq ++ le 4 markValid := by
  rw [recordBytes, pad52_of_length h]

theorem recordBytes_length : (recordBytes a p seq).length = 64 := by
  simp [recordBytes_eq h, h]

theorem recordBytes_byte (hp : ∀ b ∈ p, b < 256) {b : Nat} (hb : b ∈ recordBytes a p seq) : b < 256 := by
  simp only [recordBytes_eq h, List.mem_append] at hb
  rcases hb with ((hb | hb) | hb) | hb
  · exact hp b hb
  all_goals exact le_byte hb

theorem take_recordBytes : (recordBytes a p seq).take 52 = p := by
  rw [recordBytes_eq h, List.append_assoc, List.append_assoc, List.take_left' h]

theorem recordBytes_crc : leAt (recordBytes a p seq) 52 4 = recordCrc a p seq := by
  have hcrc : recordCrc a p seq < 256 ^ 4 := crc32c_lt _
  have hfield := leAt_append_le p (le 4 seq ++ le 4 markValid) 4 _ hcrc
  rwa [h, ← List.append_assoc, ← List.append_assoc, ← recordBytes_eq h] at hfield

theorem recordBytes_seq (hseq : seq < 2 ^ 32) : leAt (recordBytes a p seq) 56 4 = seq := by
  have hfield := leAt_append_le (p ++ le 4 (recordCrc a p seq)) (le 4 markValid) 4 seq hseq
  rwa [List.length_append, le_length, h, ← List.append_assoc, ← recordBytes_eq h] at hfield

theorem recordBytes_mark : leAt (recordBytes a p seq) 60 4 = markValid := by
  have hfield := leAt_append_le (p ++ le 4 (recordCrc a p seq) ++ le 4 seq) [] 4 markValid (by decide)
  rwa [List.length_append, List.length_append, le_length, le_length, h, List.append_nil, ← recordBytes_eq h] at hfield

end

/-! A record in the MRAM. -/

section
variable {m : Mach} {a seq : Nat} {p : List Nat} (hw : Memory.wf m.mram = true) (ha : a + 64 ≤ 0x400000) (h : p.length = 52)
include hw ha h

/-- What any address reads as after a record was written: the record's bytes in its 64, the byte of before elsewhere. -/
theorem read_writeRecord (x : Nat) : Memory.read (m.writeRecord a p seq).mram x
    = if a ≤ x ∧ x < a + 64 then BitVec.ofNat 8 ((recordBytes a p seq).getD (x - a) 0) else Memory.read m.mram x := by
  have hlen : (recordBytes a p seq).length = 64 := recordBytes_length h
  have hmark := wf_writeBytes [0, 0, 0, 0] m.mram (a + 60) hw
  have hbody := wf_writeBytes ((recordBytes a p seq).take 60) _ a hmark
  dsimp only [Mach.writeRecord, Mach.poke]
  rw [read_writeBytes _ _ _ hbody (by simp only [List.length_drop, hlen]; exact ha),
    read_writeBytes _ _ _ hmark (by simp only [List.length_take, hlen]; show a + 60 ≤ 0x400000; omega),
    read_writeBytes _ _ _ hw (by simp only [List.length_cons, List.length_nil]; exact ha)]
  simp only [List.length_drop, List.length_take, hlen, List.length_cons, List.length_nil]
  by_cases hin : a ≤ x ∧ x < a + 64
  · rw [if_pos hin]
    by_cases htail : a + 60 ≤ x
    · rw [if_pos (by omega), List.getD_eq_getElem?_getD, List.getElem?_drop, ← List.getD_eq_getElem?_getD]
      congr 2
      omega
    · rw [if_neg (by omega), if_pos (by omega), List.getD_eq_getElem?_getD, List.getElem?_take_of_lt (by omega),
        ← List.getD_eq_getElem?_getD]
  · rw [if_neg hin, if_neg (by omega), if_neg (by omega), if_neg (by omega)]

theorem peek_writeRecord (hp : ∀ b ∈ p, b < 256) : (m.writeRecord a p seq).peek a 64 = recordBytes a p seq := by
  have hlen : (recordBytes a p seq).length = 64 := recordBytes_length h
  have hbytes : Memory.readBytes (m.writeRecord a p seq).mram a (recordBytes a p seq).length = recordBytes a p seq :=
    readBytes_eq fun i hi => by
      rw [read_writeRecord hw ha h, if_pos (by omega), Nat.add_sub_cancel_left, List.getD_eq_getElem _ _ hi,
        BitVec.toNat_ofNat, Nat.mod_eq_of_lt (recordBytes_byte h hp (List.getElem_mem hi))]
  rwa [hlen] at hbytes

end

/-- A record that was just written has no bad word: the writes reached each of its words. -/
theorem damaged_writeRecord {m : Mach} {a seq : Nat} {p : List Nat} (h : p.length = 52) :
    (m.writeRecord a p seq).damaged a 64 = false := by
  have hlen : (recordBytes a p seq).length = 64 := recordBytes_length h
  rw [Mach.damaged, List.any_eq_false]
  intro w hmem
  simp only [Mach.writeRecord, Mach.poke, List.mem_filter, List.length_drop, List.length_take, hlen] at hmem
  obtain ⟨⟨-, hbody⟩, hmark⟩ := hmem
  simp only [wordMeets, Bool.not_eq_true', Bool.and_eq_false_iff, decide_eq_false_iff_not] at hbody hmark
  simp only [wordMeets, Bool.and_eq_true, decide_eq_true_eq]
  omega

/-- Settles O7: the bytes of a record read back whole (`peek_writeRecord`), with mark and CRC good, in words that are
not bad, and no write reaches another byte (`read_writeRecord`). -/
theorem recordRoundTrip : Obligations.RecordRoundTrip := by
  unfold Obligations.RecordRoundTrip
  intro m a seq p hw ha h hp hseq
  have hseq' : leAt (recordBytes a p seq) 56 4 = seq := recordBytes_seq h hseq
  refine ⟨?_, fun x hx => ?_⟩
  · simp only [Mach.readRecord, peek_writeRecord hw ha h hp, damaged_writeRecord h, recMarked, recGood,
      recordBytes_mark h, recordBytes_crc h, take_recordBytes h, hseq', beq_self_eq_true, Bool.not_false, Bool.and_true,
      if_true]
  · rw [read_writeRecord hw ha h, if_neg (by omega)]

end Sys2Proof.Proofs
end

section
/-!
PROOFS. The extension of a time stamp (11 R366), and the items of least and greatest values (13 R421).
-/
namespace Sys2Proof.Proofs

open Sys2Proof Sys2Proof.Machine

/-- A number read as signed after it was cut to 32 bits lies in the signed range and differs by whole wraps. -/
theorem toS_toU_32 (x : Int) : toS 32 (toU 32 x) % 2 ^ 32 = x % 2 ^ 32 ∧ -2 ^ 31 ≤ toS 32 (toU 32 x)
    ∧ toS 32 (toU 32 x) < 2 ^ 31 := by
  have hlt := toU_lt 32 x
  have hcut : (toU 32 x : Int) = x % 2 ^ 32 := by
    rw [toU]
    omega
  dsimp only [toS]
  rw [Nat.mod_eq_of_lt hlt]
  split <;> omega

/-- Settles O51: the extension is the stamp's distance from the freeze, cut to 32 bits and read as signed. -/
theorem timestampExtension : Obligations.TimestampExtension := by
  unfold Obligations.TimestampExtension
  intro now x hx
  obtain ⟨hmod, hlow, hhigh⟩ := toS_toU_32 ((x : Int) - now)
  simp only [extend32]
  generalize toS 32 (toU 32 ((x : Int) - now)) = d at hmod hlow hhigh
  refine ⟨by omega, by omega, by omega, fun y hy hylow hyhigh => by omega⟩

/-! An extreme item after a value was noted (13 R421). -/

section
variable {l : List ExtRec} {id : Nat} {v : Int} {t : Nat}

/-- The item that holds a value in addition to what it held. -/
def ExtRec.noted (e : ExtRec) (v : Int) (t : Nat) : ExtRec :=
  ⟨e.id, min e.min v, max e.max v, if v < e.min then t else e.tMin, if e.max < v then t else e.tMax⟩

theorem extAdd_cons_same {e : ExtRec} (h : e.id = id) : extAdd (e :: l) id v t = ExtRec.noted e v t :: l := by
  have hmin : (if v < e.min then v else e.min) = min e.min v := by grind
  have hmax : (if e.max < v then v else e.max) = max e.max v := by grind
  rw [extAdd, if_pos (by simpa using h), hmin, hmax]
  rfl

theorem extAdd_cons_before {e : ExtRec} (h : id < e.id) : extAdd (e :: l) id v t = ⟨id, v, v, t, t⟩ :: e :: l := by
  rw [extAdd, if_neg (by simpa using h.ne'), if_pos h]

theorem extAdd_cons_after {e : ExtRec} (h : e.id < id) : extAdd (e :: l) id v t = e :: extAdd l id v t := by
  rw [extAdd, if_neg (by simpa using h.ne), if_neg h.le.not_gt]

/-- What an item after the noting is: one of before, or the item of that EXT_ID. -/
theorem mem_extAdd {e : ExtRec} (h : e ∈ extAdd l id v t) : e ∈ l ∨ e.id = id := by
  induction l with
  | nil =>
    rw [extAdd, List.mem_singleton] at h
    exact .inr (by rw [h])
  | cons x l ih =>
    rcases lt_trichotomy x.id id with hx | hx | hx
    · rw [extAdd_cons_after hx, List.mem_cons] at h
      rcases h with rfl | h
      · exact .inl (List.mem_cons_self ..)
      · exact (ih h).imp_left (List.mem_cons_of_mem _)
    · rw [extAdd_cons_same hx, List.mem_cons] at h
      rcases h with rfl | h
      · exact .inr hx
      · exact .inl (List.mem_cons_of_mem _ h)
    · rw [extAdd_cons_before hx, List.mem_cons] at h
      rcases h with rfl | h
      · exact .inr rfl
      · exact .inl h

theorem extAdd_ascending (h : l.Pairwise fun a b => a.id < b.id) : (extAdd l id v t).Pairwise fun a b => a.id < b.id := by
  induction l with
  | nil => exact List.pairwise_singleton ..
  | cons x l ih =>
    obtain ⟨hfirst, hrest⟩ := List.pairwise_cons.mp h
    rcases lt_trichotomy x.id id with hx | hx | hx
    · rw [extAdd_cons_after hx]
      refine List.pairwise_cons.mpr ⟨fun e he => ?_, ih hrest⟩
      rcases mem_extAdd he with he | he
      · exact hfirst e he
      · rwa [he]
    · rw [extAdd_cons_same hx]
      exact List.pairwise_cons.mpr ⟨hfirst, hrest⟩
    · rw [extAdd_cons_before hx]
      refine List.pairwise_cons.mpr ⟨fun e he => ?_, h⟩
      rcases List.mem_cons.mp he with rfl | he
      · exact hx
      · exact hx.trans (hfirst e he)

theorem noted_mem_extAdd (h : l.Pairwise fun a b => a.id < b.id) {e : ExtRec} (he : e ∈ l) (hid : e.id = id) :
    ExtRec.noted e v t ∈ extAdd l id v t := by
  induction l with
  | nil => cases he
  | cons x l ih =>
    obtain ⟨hfirst, hrest⟩ := List.pairwise_cons.mp h
    rcases List.mem_cons.mp he with rfl | he
    · rw [extAdd_cons_same hid]
      exact List.mem_cons_self ..
    · rw [extAdd_cons_after (hid ▸ hfirst e he)]
      exact List.mem_cons_of_mem _ (ih hrest he)

theorem first_mem_extAdd (h : ∀ e ∈ l, e.id ≠ id) : (⟨id, v, v, t, t⟩ : ExtRec) ∈ extAdd l id v t := by
  induction l with
  | nil => exact List.mem_singleton.mpr rfl
  | cons x l ih =>
    rcases (h x (List.mem_cons_self ..)).lt_or_gt with hx | hx
    · rw [extAdd_cons_after hx]
      exact List.mem_cons_of_mem _ (ih fun e he => h e (List.mem_cons_of_mem _ he))
    · rw [extAdd_cons_before hx]
      exact List.mem_cons_self ..

theorem other_mem_extAdd {e : ExtRec} (he : e ∈ l) (hid : e.id ≠ id) : e ∈ extAdd l id v t := by
  induction l with
  | nil => cases he
  | cons x l ih =>
    rcases lt_trichotomy x.id id with hx | hx | hx
    · rw [extAdd_cons_after hx]
      exact List.mem_cons.mpr ((List.mem_cons.mp he).imp_right ih)
    · rw [extAdd_cons_same hx]
      rcases List.mem_cons.mp he with rfl | he
      · exact absurd hx hid
      · exact List.mem_cons_of_mem _ he
    · rw [extAdd_cons_before hx]
      exact List.mem_cons_of_mem _ he

end

theorem extItem_of_absent {x : DrawerState} {id : Nat} (h : ∀ e ∈ x.exts, e.id ≠ id) :
    extItem x id = [0xFF, 0xFF, 0xFF, 0x7F] ++ [0, 0, 0, 0x80] ++ le 8 0 ++ le 8 0 := by
  have hnone : x.exts.find? (fun e => e.id == id) = none := by simpa using h
  rw [extItem, hnone]
  rfl

/-- Settles O57, by induction on the items for each part of the noting. -/
theorem extremeKeepsLeastAndGreatest : Obligations.ExtremeKeepsLeastAndGreatest := by
  unfold Obligations.ExtremeKeepsLeastAndGreatest
  refine ⟨fun l id v t hl => ⟨extAdd_ascending hl, fun e he hid => ?_, first_mem_extAdd, fun e => other_mem_extAdd⟩,
    fun x id => extItem_of_absent⟩
  have hnoted := noted_mem_extAdd (v := v) (t := t) hl he hid
  rwa [ExtRec.noted, hid] at hnoted

end Sys2Proof.Proofs
end

section
/-!
PROOFS. The events of a port (11 R339, R342, R355, R356, R359, R361, R362, R380).
-/
namespace Sys2Proof.Proofs

open Sys2Proof Sys2Proof.Machine

/-! The arms of `exec` for the events that have a condition. -/

theorem exec_bitTimingApply (port : Ab) (s : State) : exec (.bitTimingApply port) s = execBitTimingApply port s := rfl
theorem exec_busReceiveError (port : Ab) (inc : Nat) (s : State) :
    exec (.busReceiveError port inc) s = execBusReceiveError port inc s := rfl
theorem exec_busOffRecovered (port : Ab) (runs : Nat) (s : State) : exec (.busOffRecovered port runs) s =
    onWhen s ((s.now.prt port).off && (s.now.prt port).recovering && decide (128 ≤ runs)) fun m =>
      (((if (m.cellAt (portHandle port)).offAfter then
          ((m.setCounters port 0 0).onPort port fun x => { x with off := false, recovering := false, own := .off }).cell
            (portHandle port) fun c => { c with offAfter := false }
        else (m.setCounters port 0 0).onPort port fun x => { x with off := false, recovering := false, own := x.own }).post
          5 5 (portHandle port) 0 0).endFault (portHandle port) 0xA3) := by
  dsimp only [exec, execBusOffRecovered, onWhen]
  split
  · split <;> rfl
  · rfl
theorem exec_transmitDominantTimeout (port : Ab) (us : Nat) (s : State) :
    exec (.transmitDominantTimeout port us) s = execTransmitDominantTimeout port us s := rfl
theorem exec_portStoppingEnd (port : Ab) (sending : Bool) (s : State) : exec (.portStoppingEnd port sending) s =
    onWhen s ((s.now.prt port).own == .stopping && (!sending || s.now.passedMs (s.now.prt port).stopAt 2)) fun m =>
      m.onPort port fun x => { x with own := .off } := rfl
theorem exec_busWake (w : PortWaking) (s : State) : exec (.busWake w) s = execBusWake w s := rfl

section
variable {s : State} {p : Ab}

/-- The end of bus-off (11 R356), to be followed by what else ends with it. -/
theorem busOff_ends {n : Nat} (hoff : (s.now.prt p).off = true) (hrec : (s.now.prt p).recovering = true) (hruns : 128 ≤ n) :
    ((s.now.prt p).off && (s.now.prt p).recovering && decide (128 ≤ n)) = true := by
  rw [hoff, hrec, decide_eq_true hruns]
  rfl

theorem portStopping_ends {sending : Bool} (hown : (s.now.prt p).own = .stopping)
    (h : sending = false ∨ 8 ≤ s.now.time.frame - (s.now.prt p).stopAt) :
    ((s.now.prt p).own == .stopping && (!sending || s.now.passedMs (s.now.prt p).stopAt 2)) = true := by
  rw [hown, beq_self_eq_true, Bool.true_and, Bool.or_eq_true, Bool.not_eq_true', passedMs_iff]
  exact h

end

section
variable (m : Mach) (p : Ab) (n : Nat)

theorem wakes_dominant_iff : m.wakes p (.dominant n) = true ↔ m.port p pWAKE_MODE = 0 ∧ 5000 ≤ n := by
  rw [Mach.wakes, Bool.and_eq_true, beq_iff_eq, decide_eq_true_iff]

theorem wakes_frame_iff (f : CanFrame) : m.wakes p (.frame f) = true ↔ m.port p pWAKE_MODE = 1 ∧ m.wakeFrame p f = true := by
  rw [Mach.wakes, Bool.and_eq_true, beq_iff_eq]

theorem wakes_errors_iff : m.wakes p (.errors n) = true ↔ m.port p pWAKE_MODE = 1 ∧ 31 < n := by
  rw [Mach.wakes, Bool.and_eq_true, beq_iff_eq, decide_eq_true_iff]

end

/-- Settles O48: each event of a port, where its condition holds, changes the module as its rule says. -/
theorem portEventsComplete : Obligations.PortEventsComplete := by
  unfold Obligations.PortEventsComplete
  refine ⟨fun s p hpend => ?timing, fun s p => ?eleven, fun s p inc htakes => ?receive, fun s p n hoff hrec hruns hafter => ?back,
    fun s p us hus => ?dominant, fun s p => ?overtemp, fun s p sending hown hend => ?stopping, fun s p c hsleep hwakes => ?wake,
    fun s p n hoff hrec hruns hafter => ?backOff,
    fun m p f n => ⟨wakes_dominant_iff m p n, wakes_frame_iff m p f, wakes_errors_iff m p n⟩⟩
  case timing => exact does_of_onWhen (exec_bitTimingApply ..) hpend rfl
  case eleven => rfl
  case receive => exact does_of_onWhen (exec_busReceiveError ..) htakes rfl
  case back =>
    refine does_of_onWhen (exec_busOffRecovered ..) (busOff_ends hoff hrec hruns) ?_
    exact congrArg (fun m : Mach => (m.post _ _ _ _ _).endFault _ _) (if_neg (ne_true_of_eq_false hafter))
  case dominant => exact does_of_onWhen (exec_transmitDominantTimeout ..) (decide_eq_true hus) rfl
  case overtemp => rfl
  case stopping => exact does_of_onWhen (exec_portStoppingEnd ..) (portStopping_ends hown hend) rfl
  case wake => exact does_of_onWhen (exec_busWake ..) (Bool.and_eq_true_iff.mpr ⟨hsleep, hwakes⟩) rfl
  case backOff =>
    refine does_of_onWhen (exec_busOffRecovered ..) (busOff_ends hoff hrec hruns) ?_
    exact congrArg (fun m : Mach => (m.post _ _ _ _ _).endFault _ _) (if_pos hafter)

end Sys2Proof.Proofs
end

section
/-!
PROOFS. A flush of the recorder (13 R427, R429): what raising and ending faults, and the writing of records, leave
unchanged of the recorder's queue and of its count of flushes; and the scrub (13 R436, R437).
-/
namespace Sys2Proof.Proofs

open Sys2Proof Sys2Proof.Machine

theorem ite_mach_rcd (c : Prop) [Decidable c] (m n : Mach) : (if c then m else n).rcd = if c then m.rcd else n.rcd := by
  split <;> rfl

@[simp] theorem post_rcd (m : Mach) (kind detail unit code data : Nat) : (m.post kind detail unit code data).rcd = m.rcd := by
  rw [Mach.post, ite_mach_rcd, ite_self]

@[simp] theorem endFault_rcd (m : Mach) (unit code : Nat) : (m.endFault unit code).rcd = m.rcd := by
  rw [Mach.endFault, ite_mach_rcd, post_rcd, ite_self]

@[simp] theorem endIf_rcd (m : Mach) (unit code : Nat) (c : Bool) : (m.endIf unit code c).rcd = m.rcd := by
  rw [Mach.endIf, ite_mach_rcd, endFault_rcd, ite_self]

@[simp] theorem holdFault_rcd (m : Mach) (unit code cls : Nat) : (m.holdFault unit code cls).rcd = m.rcd := by
  simp only [Mach.holdFault, Mach.react, Mach.endBenches, Mach.stopReq, Mach.dropExit, Mach.entersFault, Mach.cell,
    ite_mach_rcd, ite_self]

/-! The count and the time of the flushes. -/

/-- How many flushes there were, and when the last was (13 R427). -/
def flushMark (m : Mach) : Nat × Nat := (m.rcd.flushes, m.rcd.lastFlush)

theorem flushMark_ite (c : Prop) [Decidable c] (m n : Mach) :
    flushMark (if c then m else n) = if c then flushMark m else flushMark n := apply_ite ..

/-- The same recorder, the same mark. -/
theorem flushMark_of_rcd {m n : Mach} (h : n.rcd = m.rcd) : flushMark n = flushMark m := by
  rw [flushMark, h, flushMark]

@[simp] theorem flushMark_endFault (m : Mach) (unit code : Nat) : flushMark (m.endFault unit code) = flushMark m :=
  flushMark_of_rcd (endFault_rcd ..)

@[simp] theorem flushMark_endIf (m : Mach) (unit code : Nat) (c : Bool) : flushMark (m.endIf unit code c) = flushMark m :=
  flushMark_of_rcd (endIf_rcd ..)

@[simp] theorem flushMark_onDrawer (m : Mach) (d : Nat) (f : DrawerState → DrawerState) :
    flushMark (m.onDrawer d f) = flushMark m := rfl

@[simp] theorem flushMark_poke (m : Mach) (a : Nat) (bs : List Nat) : flushMark (m.poke a bs) = flushMark m := rfl

@[simp] theorem flushMark_count (m : Mach) (d arr idx : Nat) : flushMark (m.count d arr idx) = flushMark m := by
  rw [Mach.count, Mach.countN, Mach.drawer, flushMark_ite]
  exact ite_self _

@[simp] theorem flushMark_ringPush (m : Mach) (d : Nat) (second : Bool) (payload : List Nat) :
    flushMark (m.ringPush d second payload) = flushMark m := by
  rw [Mach.ringPush, flushMark_ite, flushMark_ite]
  exact (congrArg _ (ite_self _)).trans (ite_self _)

@[simp] theorem flushMark_recordRaise (m : Mach) (unit code cls c1 c2 : Nat) :
    flushMark (m.recordRaise unit code cls c1 c2) = flushMark m := by
  simp only [Mach.recordRaise, flushMark_ringPush, flushMark_ite, flushMark_count, flushMark_of_rcd (post_rcd ..), ite_self]

@[simp] theorem flushMark_holdFault (m : Mach) (unit code cls : Nat) : flushMark (m.holdFault unit code cls) = flushMark m :=
  flushMark_of_rcd (holdFault_rcd ..)

@[simp] theorem flushMark_raise (m : Mach) (unit code cls c1 c2 : Nat) :
    flushMark (m.raise unit code cls c1 c2) = flushMark m := by
  simp only [Mach.raise, Mach.dropNoted, flushMark_ite, flushMark_holdFault, flushMark_recordRaise, ite_self]

@[simp] theorem flushMark_verified (m : Mach) (good : Bool) : flushMark (m.verified good) = flushMark m := by
  rw [Mach.verified]
  split
  · exact flushMark_endIf ..
  · exact flushMark_raise ..

@[simp] theorem flushMark_rewritten (m : Mach) (a : Nat) : flushMark (m.rewritten a) = flushMark m := by
  dsimp only [Mach.rewritten]
  split
  · exact flushMark_endIf ..
  · rfl

@[simp] theorem flushMark_putRec (m : Mach) (bad : List Nat) (d i : Nat) (payload : List Nat) :
    flushMark (m.putRec bad d i payload) = flushMark m := by
  dsimp only [Mach.putRec]
  split
  · rw [flushMark_verified]
    simp only [flushMark, Mach.poke]
  · rw [flushMark_verified, flushMark_rewritten]
    rfl

@[simp] theorem flushMark_putVoid (m : Mach) (bad : List Nat) (d i : Nat) : flushMark (m.putVoid bad d i) = flushMark m := by
  dsimp only [Mach.putVoid]
  split
  · exact flushMark_verified ..
  · rw [flushMark_verified, flushMark_rewritten]
    rfl

@[simp] theorem flushMark_putEntry (m : Mach) (bad : List Nat) (e : RingEntry) : flushMark (m.putEntry bad e) = flushMark m := by
  rw [Mach.putEntry]
  split
  · rfl
  · rw [flushMark_onDrawer, flushMark_putRec]

/-- What each step keeps of the mark, a run of them keeps. -/
theorem flushMark_each {α : Type} {f : Mach → α → Mach} (h : ∀ m x, flushMark (f m x) = flushMark m) (m : Mach) (l : List α) :
    flushMark (m.each l f) = flushMark m := foldl_keeps flushMark h l m

@[simp] theorem flushMark_flushDrawer (m : Mach) (bad : List Nat) (d : Nat) : flushMark (m.flushDrawer bad d) = flushMark m := by
  dsimp only [Mach.flushDrawer]
  rw [flushMark_ite, flushMark_onDrawer, flushMark_each fun n e => flushMark_putEntry n bad e,
    flushMark_each fun n i => flushMark_putVoid n bad d i, flushMark_each fun n i => flushMark_putRec n bad d i _]
  exact ite_self _

@[simp] theorem flushMark_clearWritten (m : Mach) (d : Nat) : flushMark (m.clearWritten d) = flushMark m := by
  dsimp only [Mach.clearWritten]
  rw [flushMark_ite, Mach.completed, flushMark_of_rcd (post_rcd ..), flushMark_of_rcd (post_rcd ..), flushMark_onDrawer, ite_self]

/-- A flush is counted and its time noted, whatever the writes find. -/
theorem flushMark_flush (m : Mach) (bad : List Nat) : flushMark (m.flush bad) = (sat32 m.rcd.flushes, m.ts) := by
  dsimp only [Mach.flush]
  have hcount : ∀ (c : Prop) [Decidable c] (ds : List Nat) (n : Mach) (gen : Nat), flushMark (if c then n else
      (n.each (ds ++ [15]) fun x d => x.putRec bad 15 d ([4, 0] ++ le 2 d ++ (x.drawerAt d).meta (x.drawerAt d).gen)).onDrawer 15
        fun y => { y with gen := gen }) = flushMark n := fun c _ ds n gen => by
    rw [flushMark_ite, flushMark_onDrawer, flushMark_each fun n d => flushMark_putRec n bad 15 d _, ite_self]
  have hdrawers : ∀ ds : List Nat, flushMark (m.each ds fun x d => x.flushDrawer bad d) = flushMark m :=
    flushMark_each (fun n d => flushMark_flushDrawer n bad d) m
  rw [flushMark_ite, flushMark_endFault, flushMark_endFault, ite_self, flushMark_each flushMark_clearWritten]
  exact congrArg (fun x : Nat × Nat => (sat32 x.1, m.ts)) ((hcount ..).trans (hdrawers _))

/-! The queue of a drawer that is flushed. -/

@[simp] theorem rewritten_queue (m : Mach) (a : Nat) : (m.rewritten a).rcd.queue = m.rcd.queue := by
  dsimp only [Mach.rewritten]
  split
  · rw [endIf_rcd]
    rfl
  · rfl

@[simp] theorem verified_queue (m : Mach) : (m.verified true).rcd.queue = m.rcd.queue := by
  rw [Mach.verified, if_pos rfl, endIf_rcd]

@[simp] theorem putRec_queue (m : Mach) (d i : Nat) (payload : List Nat) : (m.putRec [] d i payload).rcd.queue = m.rcd.queue := by
  dsimp only [Mach.putRec]
  rw [if_neg (by simp), verified_queue, rewritten_queue]
  rfl

@[simp] theorem putVoid_queue (m : Mach) (d i : Nat) : (m.putVoid [] d i).rcd.queue = m.rcd.queue := by
  dsimp only [Mach.putVoid]
  rw [if_neg (by simp), verified_queue, rewritten_queue]
  rfl

@[simp] theorem putEntry_queue (m : Mach) (e : RingEntry) : (m.putEntry [] e).rcd.queue = m.rcd.queue := by
  rw [Mach.putEntry]
  split
  · rfl
  · exact putRec_queue ..

/-- What each step keeps of the queue, a run of them keeps. -/
theorem queue_each {α : Type} {f : Mach → α → Mach} (h : ∀ m x, (f m x).rcd.queue = m.rcd.queue) (m : Mach) (l : List α) :
    (m.each l f).rcd.queue = m.rcd.queue := foldl_keeps (fun m : Mach => m.rcd.queue) h l m

/-- Where no write fails, the waiting entries of the drawer have left the queue, and no other. -/
theorem flushDrawer_queue {m : Mach} {d : Nat} (h : m.dueRecords d ≠ 0) :
    (m.flushDrawer [] d).rcd.queue = m.rcd.queue.filter fun e => e.drawer != d := by
  dsimp only [Mach.flushDrawer, Mach.onDrawer]
  rw [if_neg (by simpa using h)]
  dsimp only
  rw [queue_each fun n e => putEntry_queue n e, queue_each fun n i => putVoid_queue n d i,
    queue_each fun n i => putRec_queue n d i _]

/-! The scrub. -/

theorem exec_recordFlush (bad : List Nat) (s : State) : exec (.recordFlush bad) s = execRecordFlush bad s := rfl

/-- The module after the word at this address was scrubbed with so many bits flipped (13 R436). -/
def scrubbed (m : Mach) (addr flips : Nat) : Mach :=
  if flips = 0 ∧ ¬ (2 ≤ flips ∨ addr ∈ m.mramBad) then m
  else if ¬ (2 ≤ flips ∨ addr ∈ m.mramBad) then { m with rcd.scrubFix := sat32 m.rcd.scrubFix }
  else ({ m with
    mramBad := if addr ∈ m.mramBad then m.mramBad else m.mramBad ++ [addr]
    rcd.scrubBad := sat32 m.rcd.scrubBad
    rcd.scrubAddr := addr
    rcd.passBad := true } : Mach).raise 0x0400 0xD2 1

/-- A word of the MRAM is scrubbed, and the pass goes on, or the next begins after the last word. -/
theorem exec_scrub_of_word {addr : Nat} (flips : Nat) (s : State) (hin : addr < 0x400000) (hword : addr % 8 = 0) :
    exec (.scrub addr flips) s = on s fun m =>
      if addr + 8 = 0x400000 then { (scrubbed m addr flips).endIf 0x0400 0xD2 (!(scrubbed m addr flips).rcd.passBad) with
        rcd.scrubPos := 0
        rcd.passBad := false
        rcd.passFrom := m.time.frame }
      else { scrubbed m addr flips with rcd.scrubPos := addr / 8 + 1 } := by
  have hhere : (decide (mramSize ≤ addr) || addr % 8 != 0) = false := by
    have hsize : ¬ mramSize ≤ addr := by simpa [mramSize] using hin
    simp [hsize, hword]
  have hlast : (addr / 8 + 1 == mramSize / 8) = decide (addr + 8 = 0x400000) := by
    rw [Bool.eq_iff_iff, beq_iff_eq, decide_eq_true_iff, mramSize]
    omega
  rw [exec, execScrub, hhere, if_neg Bool.false_ne_true]
  refine congrArg (on s) (funext fun m => ?_)
  simp only [scrubbed, hlast, not_or, Bool.and_eq_true, beq_iff_eq, Bool.not_eq_true', Bool.or_eq_false_iff,
    decide_eq_false_iff_not, List.contains_eq_mem, decide_eq_true_eq]
  rfl

/-- Settles O54: a flush when it is due (`flushMark_flush`, `flushDrawer_queue`), and the scrub of a word. -/
theorem flushAndScrubRun : Obligations.FlushAndScrubRun := by
  unfold Obligations.FlushAndScrubRun
  refine ⟨⟨fun s bad hdue => ⟨_, does_of_onWhen (exec_recordFlush ..) hdue rfl, rfl, ?_, ?_⟩, fun m d => flushDrawer_queue⟩,
    exec_scrub_of_absent, fun s a f hin hword => ⟨fun hmore => ?_, fun hlast => ?_⟩⟩
  · exact congrArg Prod.snd (flushMark_flush s.now bad)
  · exact congrArg Prod.fst (flushMark_flush s.now bad)
  · rw [Does, exec_scrub_of_word f s hin hword, on, if_neg hmore]
    rfl
  · rw [Does, exec_scrub_of_word f s hin hword, on, if_pos hlast]
    rfl

end Sys2Proof.Proofs
end

section
/-!
PROOFS. The commands of the recorder (13 R426, R431 to R434).
-/
namespace Sys2Proof.Proofs

open Sys2Proof Sys2Proof.Machine

theorem exec_cursorSet (tag drawer index : Nat) (s : State) :
    exec (.cursorSet tag drawer index) s = execCursorSet tag drawer index s := rfl
theorem exec_drawerInfo (tag drawer : Nat) (s : State) :
    exec (.drawerInfo tag drawer) s = execDrawerInfo tag drawer s := rfl
theorem exec_drawerClear (tag drawer : Nat) (s : State) :
    exec (.drawerClear tag drawer) s = execDrawerClear tag drawer s := rfl
theorem exec_windowCopyRetry (bad : List Nat) (s : State) :
    exec (.windowCopyRetry bad) s = execWindowCopyRetry bad s := rfl

section
variable {s : State} (tag d : Nat)

theorem answers_cursorSet_of_absent {i : Nat} (hs : Serves s 0x70) (h : 15 < d ∨ 3071 < i) :
    Answers (.cursorSet tag d i) s 0x70 tag 0x13 [] s.now :=
  answers_of_serves hs (exec_cursorSet ..) (if_pos (by simpa using h))

theorem answers_cursorSet {i : Nat} (hs : Serves s 0x70) (hd : d ≤ 15) (hi : i ≤ 3071) :
    Answers (.cursorSet tag d i) s 0x70 tag 0x00 [] { s.now with rcd.curDrawer := d, rcd.curIndex := i } :=
  answers_of_serves hs (exec_cursorSet ..) (if_neg (by simp; omega))

/-! DRAWER_CLEAR refuses in the order of 13 R434. -/

section
variable (hs : Serves s 0x73)
include hs

theorem answers_drawerClear_of_absent (hd : 15 < d) : Answers (.drawerClear tag d) s 0x73 tag 0x13 [] s.now :=
  answers_of_serves hs (exec_drawerClear ..) (if_pos hd)

variable (hd : ¬ 15 < d)
include hd

theorem answers_drawerClear_without_session (h : s.now.cab.session = none) :
    Answers (.drawerClear tag d) s 0x73 tag 0x20 [] s.now :=
  answers_of_serves hs (exec_drawerClear ..) ((if_neg hd).trans (by rw [h]; rfl))

variable {slot : Nat} (h : s.now.cab.session = some slot)
include h

theorem answers_drawerClear_of_last (hlast : d = 15) : Answers (.drawerClear tag d) s 0x73 tag 0x13 [] s.now :=
  answers_of_serves hs (exec_drawerClear ..) ((if_neg hd).trans (by
    rw [h]
    exact if_pos (by simpa using hlast)))

variable (hlast : d ≠ 15)
include hlast

theorem answers_drawerClear_of_clearing (hclear : ∃ x ∈ s.now.rcd.drawers, x.clearing ≠ 0) :
    Answers (.drawerClear tag d) s 0x73 tag 0x02 [] s.now :=
  answers_of_serves hs (exec_drawerClear ..) ((if_neg hd).trans (by
    rw [h]
    exact (if_neg (by simpa using hlast)).trans (if_pos (by simpa using hclear))))

theorem answers_drawerClear (hclear : ∀ x ∈ s.now.rcd.drawers, x.clearing = 0) :
    Answers (.drawerClear tag d) s 0x73 tag 0x01 [] ((s.now.onDrawer d fun x => { x with
      clears := sat32 x.clears
      clearWall := s.now.wall
      clearBoot := s.now.sec.boots
      clearing := 1
      clearTag := tag }).logEvent 5 slot d) :=
  answers_of_serves hs (exec_drawerClear ..) ((if_neg hd).trans (by
    rw [h]
    exact (if_neg (by simpa using hlast)).trans (if_neg (by simpa using hclear))))

end

end

/-- The pending window after one more attempt to copy it (13 R432). -/
def windowRetried (m : Mach) (w : WinRun) : Option (Mach × List Nat) × List Nat → Mach
  | (some r, _) => r.1.lateReply w.tag w.atF 0x00 r.2
  | (none, fails) =>
    if 3 ≤ w.attempts then ({ m with rcd.win := none } : Mach).lateReply w.tag w.atF 0x23 []
    else { m with rcd.win := some { w with attempts := w.attempts + 1, badIdx := fails } }

theorem does_windowCopyRetry {s : State} {w : WinRun} (bad : List Nat) (hw : s.now.rcd.win = some w) :
    Does (.windowCopyRetry bad) s
      (windowRetried s.now w (s.now.copyAttempt (2500 * w.atF + 2125 + 250 * w.attempts) bad w.badIdx)) := by
  rw [Does, exec_windowCopyRetry, execWindowCopyRetry, hw]
  rfl

section
variable {s : State} {w : WinRun} {bad f : List Nat} (hw : s.now.rcd.win = some w)
  (h : s.now.copyAttempt (2500 * w.atF + 2125 + 250 * w.attempts) bad w.badIdx = (none, f))
include hw h

theorem does_windowCopyRetry_of_spent (hlast : 3 ≤ w.attempts) :
    Does (.windowCopyRetry bad) s (({ s.now with rcd.win := none } : Mach).lateReply w.tag w.atF 0x23 []) := by
  have hdoes := does_windowCopyRetry bad hw
  rwa [h, windowRetried, if_pos hlast] at hdoes

theorem does_windowCopyRetry_of_more (hmore : w.attempts < 3) :
    Does (.windowCopyRetry bad) s { s.now with rcd.win := some { w with attempts := w.attempts + 1, badIdx := f } } := by
  have hdoes := does_windowCopyRetry bad hw
  rwa [h, windowRetried, if_neg hmore.not_ge] at hdoes

end

theorem does_windowCopyRetry_of_copied {s : State} {w : WinRun} {bad p f : List Nat} {m : Mach} (hw : s.now.rcd.win = some w)
    (h : s.now.copyAttempt (2500 * w.atF + 2125 + 250 * w.attempts) bad w.badIdx = (some (m, p), f)) :
    Does (.windowCopyRetry bad) s (m.lateReply w.tag w.atF 0x00 p) := by
  have hdoes := does_windowCopyRetry bad hw
  rwa [h] at hdoes

section
variable {s : State} {tag : Nat} {bad f : List Nat} (hs : Serves s 0x71)
include hs

theorem answers_windowRead_of_copied {p : List Nat} {m : Mach}
    (h : s.now.copyAttempt (2500 * s.now.time.frame + 2125) bad [] = (some (m, p), f)) :
    Answers (.windowRead tag bad) s 0x71 tag 0x00 p m := by
  have hdoes := does_windowRead tag bad hs
  rwa [h] at hdoes

theorem does_windowRead_of_failed (h : s.now.copyAttempt (2500 * s.now.time.frame + 2125) bad [] = (none, f)) :
    Does (.windowRead tag bad) s { s.now with
      rcd.win := some ⟨tag, 1, s.now.time.frame, f⟩
      host.taken := none
      host.hbsy := true } := by
  have hdoes := does_windowRead tag bad hs
  rwa [h] at hdoes

end

/-- Settles O55: each command of the recorder in the order of its refusals, and the attempts to copy the window. -/
theorem recorderCommandsAnswered : Obligations.RecorderCommandsAnswered := by
  unfold Obligations.RecorderCommandsAnswered
  refine ⟨⟨fun s tag d i hs => ⟨answers_cursorSet_of_absent tag d hs, answers_cursorSet tag d hs⟩,
    fun s tag d hs => ⟨fun hd => ?absent, fun hd => ?info⟩,
    fun s tag d hs => ⟨answers_drawerClear_of_absent tag d hs,
      fun hd => answers_drawerClear_without_session tag d hs hd.not_gt,
      fun slot hd h => ⟨answers_drawerClear_of_last tag d hs hd.not_gt h,
        fun hlast => answers_drawerClear_of_clearing tag d hs hd.not_gt h hlast.ne,
        fun hlast => answers_drawerClear tag d hs hd.not_gt h hlast.ne⟩⟩⟩,
    fun s tag bad => does_windowRead_of_notAdmitted tag bad,
    fun s tag bad hs => ⟨fun m1 p f => answers_windowRead_of_copied hs, fun f => does_windowRead_of_failed hs⟩,
    fun s w bad hw => ⟨fun m1 p f => does_windowCopyRetry_of_copied hw,
      fun f h => ⟨does_windowCopyRetry_of_spent hw h, does_windowCopyRetry_of_more hw h⟩⟩⟩
  case absent => exact answers_of_serves hs (exec_drawerInfo ..) (if_pos hd)
  case info => exact answers_of_serves hs (exec_drawerInfo ..) (if_neg hd.not_gt)

end Sys2Proof.Proofs
end

section
/-!
PROOFS. The events and the commands of the meter (12 R381 to R413).
-/
namespace Sys2Proof.Proofs

open Sys2Proof Sys2Proof.Machine

/-- A module at reset whose reference was rising at the last crossing. -/
def roseState : State := { State.reset with now := { State.reset.now with meter.rose := true } }

/-- A falling crossing of the reference. -/
def fallingCross : HalfIn := ⟨true, 100000, false, 0⟩

theorem does_halfCycle_of_fallingCross : ∃ m, Does (.halfCycleValue fallingCross) roseState m ∧ m.meter.rose = false :=
  ⟨_, rfl, rfl⟩

/-- Refutes O52: at a crossing the direction of the reference is noted too, which the statement keeps as it was. -/
theorem not_meterEventsComplete : ¬ Obligations.MeterEventsComplete := by
  unfold Obligations.MeterEventsComplete
  rintro ⟨⟨-, -, hcross, -⟩, -⟩
  obtain ⟨-, -, hfall⟩ := hcross roseState fallingCross rfl
  obtain ⟨m, hm, hrose⟩ := does_halfCycle_of_fallingCross
  have hkept : m.meter.rose = true := by rw [does_unique hm (hfall rfl (.inl rfl))]; rfl
  exact absurd (hkept.symm.trans hrose) (by decide)

/-! The commands of the meter. -/

theorem exec_calMeasure (tag phase windows : Nat) (s : State) :
    exec (.calMeasure tag phase windows) s = execCalMeasure tag phase windows s := rfl
theorem exec_calMeasureEnd (s : State) : exec .calMeasureEnd s = execCalMeasureEnd s := rfl
theorem exec_calApply (tag uref iref : Nat) (pref qref : Int) (s : State) :
    exec (.calApply tag uref iref pref qref) s = execCalApply tag uref iref pref qref s := rfl
theorem exec_meterConfig (tag : Nat) (entries : List SetEntry) (s : State) :
    exec (.meterConfig tag entries) s = execMeterConfig tag entries s := rfl
theorem exec_meterRead (tag : Nat) (s : State) : exec (.meterRead tag) s = execMeterRead tag s := rfl
theorem exec_energyRead (tag : Nat) (s : State) : exec (.energyRead tag) s = execEnergyRead tag s := rfl

section
variable {s : State} (tag : Nat)

section
variable {ph n : Nat} (hs : Serves s 0x63)
include hs

theorem answers_calMeasure_of_running (hmeas : s.now.meter.meas.isSome = true) :
    Answers (.calMeasure tag ph n) s 0x63 tag 0x02 [] s.now :=
  answers_of_serves hs (exec_calMeasure ..) (if_pos hmeas)

variable (hmeas : s.now.meter.meas = none)
include hmeas

theorem answers_calMeasure_of_badParam (h : ph = 0 ∨ s.now.phasesUsed.contains (ph - 1) = false ∨ n < 5 ∨ 300 < n) :
    Answers (.calMeasure tag ph n) s 0x63 tag 0x13 [] s.now :=
  answers_of_serves hs (exec_calMeasure ..) ((if_neg (by simp [hmeas])).trans (if_pos (by simpa [or_assoc] using h)))

variable (hph : ph ≠ 0) (hused : s.now.phasesUsed.contains (ph - 1) = true) (hlow : 5 ≤ n) (hhigh : n ≤ 300)
include hph hused hlow hhigh

omit hs in
theorem calMeasure_of_goodParam : s.now.calMeasure tag ph n = if !s.now.calState? then refuse s.now stWRONG_MODE
    else pending { s.now with
      meter.meas := some { CalMeas.reset with phase := ph, left := n, tag := tag }
      meter.calState := 1 } := by
  have hgood : ¬ (ph == 0 || !s.now.phasesUsed.contains (ph - 1) || decide (n < 5) || decide (300 < n)) = true := by
    simp only [Bool.or_eq_true, beq_iff_eq, Bool.not_eq_true', decide_eq_true_eq, hused, Bool.true_eq_false, or_false]
    omega
  rw [Mach.calMeasure, if_neg (by simp [hmeas]), if_neg hgood]

theorem answers_calMeasure_of_wrongMode (hstate : s.now.calState? = false) :
    Answers (.calMeasure tag ph n) s 0x63 tag 0x22 [] s.now :=
  answers_of_serves hs (exec_calMeasure ..)
    ((calMeasure_of_goodParam tag hmeas hph hused hlow hhigh).trans (if_pos (by simp [hstate])))

theorem answers_calMeasure (hstate : s.now.calState? = true) :
    Answers (.calMeasure tag ph n) s 0x63 tag 0x01 [] { s.now with
      meter.meas := some { CalMeas.reset with phase := ph, left := n, tag := tag }
      meter.calState := 1 } :=
  answers_of_serves hs (exec_calMeasure ..)
    ((calMeasure_of_goodParam tag hmeas hph hused hlow hhigh).trans (if_neg (by simp [hstate])))

end

theorem does_calMeasureEnd {c : CalMeas} (hmeas : s.now.meter.meas = some c) (hstarted : c.started = true) (hdone : c.left ≤ c.n) :
    Does .calMeasureEnd s ((({ s.now with meter.meas := none, meter.calRes := some c, meter.calState := 2 } : Mach).post
      0xA 2 0x0300 c.phase c.left).completed 0x63 c.tag 0x00 0x0300 0) := by
  rw [Does, exec_calMeasureEnd, execCalMeasureEnd, hmeas]
  dsimp only [onWhen]
  rw [if_pos (by simp [hstarted, hdone])]
  rfl

section
variable {u i : Nat} {p q : Int} (hs : Serves s 0x63)
include hs

theorem answers_calApply_of_wrongMode (h : s.now.calState? = false ∨ s.now.meter.calRes = none) :
    Answers (.calApply tag u i p q) s 0x63 tag 0x22 [] s.now := by
  refine answers_of_serves hs (exec_calApply ..) ?_
  cases hstate : s.now.calState? with
  | false =>
    rw [Mach.calApply, if_pos (by simp [hstate])]
    rfl
  | true =>
    have hnone : s.now.meter.calRes = none := h.resolve_left (by simp [hstate])
    rw [Mach.calApply, if_neg (by simp [hstate]), hnone]
    rfl

variable {c : CalMeas} (hstate : s.now.calState? = true) (hres : s.now.meter.calRes = some c)
include hstate hres

theorem answers_calApply_of_failed (hnone : s.now.coefficients c u i p q = none) :
    Answers (.calApply tag u i p q) s 0x63 tag 0x01 []
      (({ s.now with meter.calRes := none, free := s.now.free + 2 } : Mach).calFailed tag) := by
  refine answers_of_serves hs (exec_calApply ..) ?_
  rw [Mach.calApply, if_neg (by simp [hstate]), hres]
  dsimp only
  rw [hnone]
  rfl

theorem answers_calApply {gu gi ph : Int} (hsome : s.now.coefficients c u i p q = some (gu, gi, ph)) :
    Answers (.calApply tag u i p q) s 0x63 tag 0x01 [] (({ s.now with
      meter.calRes := none
      free := s.now.free + 2
      meter.calTag := tag
      meter.calNext := some (updAt (updAt s.now.meter.gains (c.phase - 1) fun _ => gu) (c.phase - 1 + 3) fun _ => gi,
        updAt s.now.meter.phases (c.phase - 1) fun _ => ph) } : Mach).endFault 0x0300 0xC4) := by
  refine answers_of_serves hs (exec_calApply ..) ?_
  rw [Mach.calApply, if_neg (by simp [hstate]), hres]
  dsimp only
  rw [hsome]
  rfl

end

/-! METER_CONFIG, judged by `Mach.meterWrite`. -/

theorem meterWrite_of_badCount (m : Mach) (cmd : Nat × Nat) {es : List SetEntry} (h : es = [] ∨ 64 < es.length) :
    m.meterWrite cmd es = (m, 0x11, []) := by
  have hcount : ¬ countOk es = true := by
    rw [countOk_iff, not_and_or, not_not, Nat.not_le]
    exact h
  exact if_pos (by simpa using hcount)

/-- A refusal of tied entries is the one refusal there is. -/
theorem firstRefusal_of_tied {l : List Nat} (h : ∀ x ∈ l, x = 0 ∨ x = 0x13) (hbad : 0x13 ∈ l) : firstRefusal l = 0x13 := by
  induction l with
  | nil => cases hbad
  | cons x l ih =>
    rcases h x (List.mem_cons_self ..) with rfl | rfl
    · have hrest : 0x13 ∈ l := (List.mem_cons.mp hbad).resolve_left (by decide)
      exact ih (fun y hy => h y (List.mem_cons_of_mem _ hy)) hrest
    · rfl

section
variable {m : Mach} (cmd : Nat × Nat) {es : List SetEntry} (hcount : countOk es = true) (htaken : ∀ e ∈ es, m.setStatus meterUnit e = 0)
include hcount htaken

/-- Entries that UNIT_SET takes, of a resulting configuration that is allowed, are deferred (12 R384). -/
theorem meterWrite_of_allowed (hcfg : meterCfgOk (m.meterCfgWith es) = true) :
    m.meterWrite cmd es = (m.meterDefer cmd es, 0x00, es.flatMap fun e => le 2 e.id ++ [0]) := by
  have hst : ∀ e ∈ es, (if m.setStatus meterUnit e == 0 && tied e.id && !true then stBAD_PARAM else m.setStatus meterUnit e) = 0 :=
    fun e he => by simpa using htaken e he
  dsimp only [Mach.meterWrite]
  rw [hcfg, if_neg (by simp [hcount]), if_pos, setReply_of_accepted es _ hst]
  · rfl
  · rw [beq_iff_eq, firstRefusal_eq_zero_iff]
    simpa using htaken

/-- Where the resulting configuration is not allowed, its tied entries are refused and nothing changes. -/
theorem meterWrite_of_tied (hcfg : meterCfgOk (m.meterCfgWith es) = false) (htied : ∃ e ∈ es, tied e.id = true) :
    ∃ p, m.meterWrite cmd es = (m, 0x13, p) := by
  dsimp only [Mach.meterWrite]
  rw [hcfg, if_neg (by simp [hcount]), firstRefusal_of_tied, if_neg (by decide)]
  · exact ⟨_, rfl⟩
  · intro x hx
    obtain ⟨e, he, rfl⟩ := List.mem_map.mp hx
    rw [htaken e he]
    split
    · exact .inr rfl
    · exact .inl rfl
  · obtain ⟨e, he, htie⟩ := htied
    refine List.mem_map.mpr ⟨e, he, ?_⟩
    rw [htaken e he, htie]
    rfl

end

/-! ENERGY_READ. -/

theorem endFault_changesOnly (m : Mach) (unit code : Nat) : changesOnly [.faults, .host] m (m.endFault unit code) := by
  intro p hp
  rw [Mach.endFault, Mach.post]
  split
  · split
    all_goals
      cases p with
      | faults | host => simp at hp
      | _ => rfl
  · cases p <;> rfl

theorem endFault_meter (m : Mach) (unit code : Nat) : (m.endFault unit code).meter = m.meter :=
  (endFault_changesOnly m unit code .meter (by decide)).symm

/-- The end of a fault after a change of the meter. -/
theorem endFault_meter_changesOnly (m : Mach) (x : MeterState) (unit code : Nat) :
    changesOnly [.meter, .faults, .host] m (Mach.endFault { m with meter := x } unit code) := by
  intro p hp
  have hsame := endFault_changesOnly { m with meter := x } unit code p
  cases p with
  | meter | faults | host => simp at hp
  | _ => exact hsame (by decide)

theorem energyRead_length (m shown : Mach) : (m.energyRead shown).2.2.length = 56 := by
  simp [Mach.energyRead, List.length_flatMap]

end

/-- Settles O53: the refusals of CAL_START in their order, the entries of METER_CONFIG judged together
(`meterWrite_of_allowed`, `meterWrite_of_tied`), and the reads. -/
theorem meterCommandsAnswered : Obligations.MeterCommandsAnswered := by
  unfold Obligations.MeterCommandsAnswered
  refine ⟨fun s tag ph n hs => ⟨answers_calMeasure_of_running tag hs, answers_calMeasure_of_badParam tag hs,
      fun hmeas hph hused hlow hhigh => ⟨answers_calMeasure_of_wrongMode tag hs hmeas hph hused hlow hhigh,
        answers_calMeasure tag hs hmeas hph hused hlow hhigh⟩⟩,
    fun s c => does_calMeasureEnd, fun s tag u i p q => answers_calApply_of_wrongMode tag,
    fun s tag u i p q c hs hstate hres => ⟨answers_calApply_of_failed tag hs hstate hres,
      fun gu gi ph => answers_calApply tag hs hstate hres⟩,
    fun s tag es hs hbad => ?badCount, fun s tag es hs hne hlen htaken => ⟨fun hcfg => ?allowed, fun hcfg htied => ?tied⟩,
    fun s tag hs => answers_of_serves hs (exec_meterRead ..) rfl, fun s tag hs => ?energy⟩
  case badCount => exact answers_of_serves hs (exec_meterConfig ..) (meterWrite_of_badCount s.now _ hbad)
  case allowed =>
    exact answers_of_serves hs (exec_meterConfig ..) (meterWrite_of_allowed _ ((countOk_iff es).mpr ⟨hne, hlen⟩) htaken hcfg)
  case tied =>
    obtain ⟨p, hp⟩ := meterWrite_of_tied (0x60, tag) ((countOk_iff es).mpr ⟨hne, hlen⟩) htaken hcfg htied
    exact ⟨p, answers_of_serves hs (exec_meterConfig ..) hp⟩
  case energy =>
    refine ⟨(s.now.energyRead s.shown).2.2, (s.now.energyRead s.shown).1, answers_of_serves hs (exec_energyRead ..) rfl,
      energyRead_length .., List.take_left' (le_length ..), ?_, endFault_meter_changesOnly s.now _ _ _⟩
    dsimp only [Mach.energyRead]
    rw [endFault_meter]

end Sys2Proof.Proofs
end

section
/-!
PROOFS. Transactions, replies and the keep-alive of the host port (14 R443 to R453, R470).
-/
namespace Sys2Proof.Proofs

open Sys2Proof Sys2Proof.Machine

theorem exec_hostTransaction (mosi : Kept (List Nat)) (clocks : Nat) (s : State) :
    exec (.hostTransaction mosi clocks) s = execHostTransaction mosi clocks s := rfl
theorem exec_hostStall (mosi : List Nat) (idleUs : Nat) (s : State) :
    exec (.hostStall mosi idleUs) s = execHostStall mosi idleUs s := rfl
theorem exec_replyReady (x : Kept Nat) (s : State) : exec (.replyReady x) s = execReplyReady x s := rfl
theorem exec_keepaliveLost (s : State) : exec .keepaliveLost s = execKeepaliveLost s := rfl

/-- What a transaction is judged by, and what it leaves for its answer. -/
structure PortView where
  hbsy : Bool
  taken : Option Packet
  takenAt : Nat
  refused : Option (Nat × Nat × Nat)
  packets : Nat
  miso : Nat
  frame : Nat

def portView (m : Mach) : PortView :=
  ⟨m.host.hbsy, m.host.taken, m.host.takenAt, m.host.refused, m.host.packets, m.host.miso, m.time.frame⟩

theorem portView_ite (c : Prop) [Decidable c] (m n : Mach) : portView (if c then m else n) = if c then portView m else portView n :=
  apply_ite ..

@[simp] theorem portView_post (m : Mach) (kind detail unit code data : Nat) :
    portView (m.post kind detail unit code data) = portView m := by
  rw [Mach.post, portView_ite]
  exact ite_self _

@[simp] theorem portView_endFault (m : Mach) (unit code : Nat) : portView (m.endFault unit code) = portView m := by
  rw [Mach.endFault, portView_ite, portView_post]
  exact ite_self _

@[simp] theorem portView_keepRestart (m : Mach) : portView m.keepRestart = portView m := rfl

@[simp] theorem portView_heldAfter (m : Mach) (clocks : Nat) (newReply : Bool) :
    portView (m.heldAfter clocks newReply) = portView m := by
  rw [Mach.heldAfter]
  split
  · rw [portView_ite]
    exact ite_self _
  · rw [portView_ite, portView_ite]
    exact (congrArg _ (ite_self _)).trans (ite_self _)

@[simp] theorem portView_eccSeen (m : Mach) (sub : Nat) (e : Ecc) : portView (m.eccSeen sub e) = portView m := by
  rw [Mach.eccSeen, portView_ite]
  exact ite_self _

/-- A transaction of bytes or clocks is judged. -/
theorem exec_hostTransaction_of_some {b : List Nat} {n : Nat} (ecc : Ecc) (s : State) (h : n ≠ 0 ∨ b ≠ []) :
    exec (.hostTransaction ⟨b, ecc⟩ n) s = on s fun m =>
      if m.host.stalled then
        (({ m with host.stalled := false } : Mach).heldAfter n true).refusePacket m.host.stallHdr.1 m.host.stallHdr.2 stTRUNCATED
      else if m.host.hbsy then { m with host.miso := 0xC3, host.ignored := sat32 m.host.ignored }
      else (m.transaction b n ecc).eccSeen 13 ecc := by
  have hsome : ¬ (n == 0 && b == []) = true := by
    rw [Bool.and_eq_true, beq_iff_eq, beq_iff_eq]
    tauto
  rw [exec_hostTransaction, execHostTransaction, if_neg hsome]

section
variable {s : State} {b : List Nat} {n : Nat} (ecc : Ecc) (h : n ≠ 0 ∨ b ≠ []) (hstalled : s.now.host.stalled = false)
  (hbsy : s.now.host.hbsy = false)
include h hstalled hbsy

/-- With HBSY low, and no stall, the bytes are taken as `Mach.transaction` says. -/
theorem does_hostTransaction : Does (.hostTransaction ⟨b, ecc⟩ n) s ((s.now.transaction b n ecc).eccSeen 13 ecc) := by
  rw [Does, exec_hostTransaction_of_some ecc s h, on, if_neg (by simp [hstalled]), if_neg (by simp [hbsy])]

end

/-- The module when a transaction's bytes are judged: MISO is answered, and a good CRC has restarted the keep-alive. -/
def transactionBegun (m : Mach) (b : List Nat) (ecc : Ecc) : Mach :=
  if crcPassed ecc b then
    (({ m with host.miso := if m.host.held.isSome then 0x5A else 0x3C } : Mach).keepRestart).endFault 0 0xB1
  else { m with host.miso := if m.host.held.isSome then 0x5A else 0x3C }

theorem portView_transactionBegun (m : Mach) (b : List Nat) (ecc : Ecc) : portView (transactionBegun m b ecc)
    = { portView m with miso := if m.host.held.isSome then 0x5A else 0x3C } := by
  rw [transactionBegun, portView_ite, portView_endFault, portView_keepRestart]
  split <;> rfl

section
variable {m : Mach} {b : List Nat} {ecc : Ecc} {n op tag st : Nat} {p : List Nat}

theorem transaction_of_nothing (h : judge ecc b = .nothing) :
    m.transaction b n ecc = (transactionBegun m b ecc).heldAfter n false := by
  rw [Mach.transaction, h]
  rfl

theorem transaction_of_packet (h : judge ecc b = .packet op tag p) : m.transaction b n ecc =
    if noSuchKind op p then ((transactionBegun m b ecc).heldAfter n true).refusePacket op tag stBAD_PARAM
    else { (transactionBegun m b ecc).heldAfter n true with
      host.taken := some ⟨op, tag, p⟩
      host.takenAt := m.time.frame
      host.hbsy := true } := by
  rw [Mach.transaction, h]
  rfl

/-- A packet that fails a check is counted by what failed, and to be answered with its refusal. -/
theorem transaction_of_refused (h : judge ecc b = .refused op tag st) :
    ∃ x : Mach, portView x = portView (transactionBegun m b ecc) ∧ m.transaction b n ecc = x.refusePacket op tag st := by
  refine ⟨_, ?_, by rw [Mach.transaction, h]⟩
  have hheld := portView_heldAfter (transactionBegun m b ecc) n true
  rw [portView_ite, portView_ite]
  split
  · exact hheld
  · split <;> exact hheld

end

/-- A packet refused is to be answered in the frame that takes it. -/
def PortView.refusal (v : PortView) (op tag st : Nat) : PortView :=
  { v with hbsy := true, takenAt := v.frame, refused := some (op, tag, st) }

theorem portView_refusePacket (m : Mach) (op tag st : Nat) :
    portView (m.refusePacket op tag st) = (portView m).refusal op tag st := rfl

section
variable {s : State} {b : List Nat} {n op tag : Nat} {ecc : Ecc} (h : n ≠ 0 ∨ b ≠ []) (hstalled : s.now.host.stalled = false)
  (hbsy : s.now.host.hbsy = false)
include h hstalled hbsy

theorem hostTransaction_of_packet {p : List Nat} (hj : judge ecc b = .packet op tag p) :
    ∃ m, Does (.hostTransaction ⟨b, ecc⟩ n) s m ∧ portView m = { portView s.now with
      hbsy := true
      taken := if noSuchKind op p then s.now.host.taken else some ⟨op, tag, p⟩
      takenAt := s.now.time.frame
      refused := if noSuchKind op p then some (op, tag, 0x13) else s.now.host.refused
      miso := if s.now.host.held.isSome then 0x5A else 0x3C } := by
  refine ⟨_, does_hostTransaction ecc h hstalled hbsy, ?_⟩
  have hheld := (portView_heldAfter (transactionBegun s.now b ecc) n true).trans (portView_transactionBegun ..)
  rw [portView_eccSeen, transaction_of_packet hj]
  cases noSuchKind op p with
  | true =>
    rw [if_pos rfl, portView_refusePacket, hheld]
    rfl
  | false =>
    rw [if_neg Bool.false_ne_true]
    exact congrArg (fun v : PortView => { v with
      hbsy := true
      taken := some ⟨op, tag, p⟩
      takenAt := s.now.time.frame }) hheld

theorem hostTransaction_of_refused {st : Nat} (hj : judge ecc b = .refused op tag st) :
    ∃ m, Does (.hostTransaction ⟨b, ecc⟩ n) s m ∧ portView m = PortView.refusal { portView s.now with
      miso := if s.now.host.held.isSome then 0x5A else 0x3C } op tag st := by
  refine ⟨_, does_hostTransaction ecc h hstalled hbsy, ?_⟩
  obtain ⟨x, hx, hrefused⟩ := transaction_of_refused (m := s.now) (n := n) hj
  rw [portView_eccSeen, hrefused, portView_refusePacket, hx, portView_transactionBegun]

theorem hostTransaction_of_nothing (hj : judge ecc b = .nothing) :
    ∃ m, Does (.hostTransaction ⟨b, ecc⟩ n) s m ∧ portView m = { portView s.now with
      miso := if s.now.host.held.isSome then 0x5A else 0x3C } := by
  refine ⟨_, does_hostTransaction ecc h hstalled hbsy, ?_⟩
  rw [portView_eccSeen, transaction_of_nothing hj, portView_heldAfter, portView_transactionBegun]

end

/-! Replies and the keep-alive. -/

theorem eccSeen_changesOnly_ecc (m : Mach) (sub : Nat) (e : Ecc) : changesOnly [.ecc] m (m.eccSeen sub e) := by
  intro p hp
  rw [Mach.eccSeen]
  split
  · cases p with
    | ecc => simp at hp
    | _ => rfl
  · cases p <;> rfl

/-- The reply in preparation, after its memory was read back with so many errors. -/
def Reply.readBack (r : Reply) (fails : Nat) : Reply :=
  if fails < 2 then r else { r with status := 0x23, payload := [], rflags := r.rflags ||| 8 }

/-- The reply becomes the held one, and HBSY falls unless the module stays busy (14 R452). -/
def replyHeld (m : Mach) (busy : Bool) (r : Reply) (okReplies : Nat) : Mach :=
  { m with host.held := some r, host.prep := none, host.hbsy := busy, host.okReplies := okReplies }

/-- In PARK, and in a state save that is not that of RESET, the port stays busy. -/
def busyAfterReply (m : Mach) : Bool := m.power.state == 3 || (m.power.save.isSome && m.power.saveKind != 2)

/-- The module after the reply was released with so many errors in its read-back (14 R452). -/
def replyReleased (m : Mach) (e : Ecc) (r : Reply) (fails : Nat) : Mach :=
  if 2 ≤ fails then (replyHeld (m.eccSeen 13 e) (busyAfterReply m) (Reply.readBack r fails) 0).raise 0 0xB3 1
  else if fails = 0 then (replyHeld (m.eccSeen 13 e) (busyAfterReply m) r (min 1000 (m.host.okReplies + 1))).endIf 0 0xB3
    (min 1000 (m.host.okReplies + 1) == 1000)
  else (replyHeld (m.eccSeen 13 e) (busyAfterReply m) r 0).endIf 0 0xB3 false

section
variable {s : State} {r : Reply} (hprep : s.now.host.prep = some r)
  (hat : s.now.host.prepAt + b2n s.now.host.prepLate ≤ s.now.time.frame)
include hprep hat

theorem does_replyReady (fails : Nat) (e : Ecc) : Does (.replyReady ⟨fails, e⟩) s (replyReleased s.now e r fails) := by
  have hhost : s.now.host = (s.now.eccSeen 13 e).host := eccSeen_changesOnly_ecc _ _ _ .host (by decide)
  have hpower : s.now.power = (s.now.eccSeen 13 e).power := eccSeen_changesOnly_ecc _ _ _ .power (by decide)
  rw [Does, exec_replyReady, execReplyReady, hprep]
  dsimp only [onWhen, replyReleased, busyAfterReply]
  rw [if_pos (decide_eq_true hat), hhost, hpower]
  match fails with
  | 0 | 1 => rfl
  | n + 2 =>
    rw [if_pos (Nat.le_add_left 2 n), if_pos (Nat.le_add_left 2 n)]
    rfl

theorem does_replyReady_of_bad {n : Nat} (e : Ecc) (hn : 2 ≤ n) : Does (.replyReady ⟨n, e⟩) s
    ((replyHeld (s.now.eccSeen 13 e) (busyAfterReply s.now)
      { r with status := 0x23, payload := [], rflags := r.rflags ||| 8 } 0).raise 0 0xB3 1) := by
  have hdoes := does_replyReady hprep hat n e
  rwa [replyReleased, if_pos hn, Reply.readBack, if_neg hn.not_gt] at hdoes

end

/-- Settles O15: what a transaction leaves (`portView`), the reply that is released (`replyReleased`), and the keep-alive. -/
theorem transactionsRepliesAndKeepalive : Obligations.TransactionsRepliesAndKeepalive := by
  unfold Obligations.TransactionsRepliesAndKeepalive
  refine ⟨⟨fun s b n ecc h hstalled hbsy => ?ignored, fun s b n ecc h hstalled => ?afterStall,
      fun s b n op tag ecc p h hstalled hbsy hj => ?packet, fun s b n op tag st ecc h hstalled hbsy hj => ?refused,
      fun s b n ecc h hstalled hbsy hj => ?nothing, fun s b us hus hopen hbsy hstalled => ?stall⟩,
    fun s r hprep hat => ⟨fun e => ?good, fun e => ?once, fun n e hn => ?bad⟩, fun s hon hleft => ?keepalive⟩
  case ignored =>
    rw [Does, exec_hostTransaction_of_some ecc s h, on, if_neg (by simp [hstalled]), if_pos hbsy]
  case afterStall =>
    rw [Does, exec_hostTransaction_of_some ecc s h, on, if_pos hstalled]
    rfl
  case packet =>
    obtain ⟨m, hdoes, hview⟩ := hostTransaction_of_packet h hstalled hbsy hj
    refine ⟨_, hdoes, congrArg PortView.hbsy hview, congrArg PortView.takenAt hview, congrArg PortView.packets hview,
      congrArg PortView.miso hview, fun hkind => ⟨(congrArg PortView.taken hview).trans ?_, (congrArg PortView.refused hview).trans ?_⟩,
      fun hkind => ⟨(congrArg PortView.taken hview).trans ?_, (congrArg PortView.refused hview).trans ?_⟩⟩
    all_goals
      dsimp only
      rw [hkind]
      rfl
  case refused =>
    obtain ⟨m, hdoes, hview⟩ := hostTransaction_of_refused h hstalled hbsy hj
    exact ⟨_, hdoes, congrArg PortView.refused hview, congrArg PortView.hbsy hview, congrArg PortView.taken hview⟩
  case nothing =>
    obtain ⟨m, hdoes, hview⟩ := hostTransaction_of_nothing h hstalled hbsy hj
    exact ⟨_, hdoes, (congrArg PortView.hbsy hview).trans hbsy, congrArg PortView.taken hview, congrArg PortView.refused hview⟩
  case stall =>
    exact does_of_onWhen (exec_hostStall ..) (by simp [hus, hopen, hbsy, hstalled]) rfl
  case good => exact does_replyReady hprep hat 0 e
  case once => exact does_replyReady hprep hat 1 e
  case bad => exact does_replyReady_of_bad hprep hat e hn
  case keepalive =>
    refine does_of_onWhen (exec_keepaliveLost ..) (by simp [hon, hleft]) ?_
    simp only [beq_iff_eq]

end Sys2Proof.Proofs
end

section
/-!
PROOFS. Wakes, the commands of the sleep controller, and the steps of start-up (15 R485 to R489; 17 R510 to R521).
-/
namespace Sys2Proof.Proofs

open Sys2Proof Sys2Proof.Machine

theorem exec_wake (src : WakeSource) (s : State) : exec (.wake src) s = execWake src s := rfl
theorem exec_scheduledWake (s : State) : exec .scheduledWake s = execScheduledWake s := rfl
theorem exec_sleepPolicy (tag : Nat) (entries : List SetEntry) (s : State) :
    exec (.sleepPolicy tag entries) s = execSleepPolicy tag entries s := rfl
theorem exec_powerRead (tag : Nat) (s : State) : exec (.powerRead tag) s = execPowerRead tag s := rfl
theorem exec_startupStepComplete (s : State) : exec .startupStepComplete s = execStartupStepComplete s := rfl
theorem exec_startupDeadline (s : State) : exec .startupDeadline s =
    onWhen s (s.now.powered && decide (1 ≤ s.now.start.step) && decide (s.now.start.step ≤ 5)
        && (!s.now.time.running || decide ((1000 * stepDeadline s.now.start.step : Nat) ≤ s.now.elapsedUs))) fun m =>
      if s.now.start.step == 5 && !m.pair.aps.a.booted && !m.pair.aps.b.booted then (m.raise pairUnit 0x24 4).startBlocks
      else m.blockStart 0 := rfl
theorem exec_tetherGrantFallback (s : State) : exec .tetherGrantFallback s =
    onWhen s (s.now.granting && decide (1000000 ≤ s.now.elapsedUs) && !s.now.qualifies s.now.preferred
      && s.now.qualifies s.now.preferred.other) fun m => m.grantTether s.now.preferred.other := rfl

/-! What wakes the module (15 R485). -/

theorem wakeUp_eq (m : Mach) (src : Nat) : m.wakeUp src = { m with
    power.wakeSrc := src
    power.waking := some (m.time.frame + (if m.power.state = 3 then 240 else if m.power.state = 2 then 8 else 1))
    power.fastFrom := some ((m.time.frame / m.safetySpan + 1) * m.safetySpan) } := by
  simp only [Mach.wakeUp, beq_iff_eq]

section
variable (m : Mach)

theorem wakesModule_movement_iff (lines : Nat) (acc : List Int) : m.wakesModule (.movement lines acc) = true ↔
    1 ≤ lines ∨ (m.mountCabinet = false ∧ 8 ≤ acc.length ∧ ∀ x ∈ acc.take 8, 300000 < mag (x - m.est.gCal)) := by
  simp only [Mach.wakesModule, Bool.or_eq_true, Bool.and_eq_true, Bool.not_eq_true', decide_eq_true_eq, List.all_eq_true,
    and_assoc]

theorem wakesModule_bus_iff (p : Ab) : m.wakesModule (.bus p) = true ↔ (m.prt p).sleep = false := by
  rw [Mach.wakesModule, Bool.not_eq_true']

theorem wakesModule_input_iff (ch : Nat) : m.wakesModule (.input ch) = true ↔ ch < 64 ∧ inputMode (m.fMode ch) = true := by
  rw [Mach.wakesModule, Bool.and_eq_true, decide_eq_true_iff]

theorem wakesModule_block_iff (h : Nat) : m.wakesModule (.block h) = true ↔
    0x0700 ≤ h ∧ h ≤ 0x07FF ∧ m.exists h = true ∧ (m.blockReport h).1 ≠ 1 := by
  simp only [Mach.wakesModule, Bool.and_eq_true, decide_eq_true_eq, bne_iff_ne, and_assoc]

theorem wakesModule_fault_iff (u c : Nat) : m.wakesModule (.fault u c) = true ↔
    ∃ f ∈ m.faults, f.unit = u ∧ f.code = c ∧ 1 ≤ f.cls := by
  simp only [Mach.wakesModule, List.any_eq_true, Bool.and_eq_true, beq_iff_eq, decide_eq_true_eq, and_assoc]

end

/-! SLEEP_POLICY: entries that are judged one by one, and deferred together (14 R458). -/

section
variable {m : Mach} (cmd : Nat × Nat) {h : Nat} {es : List SetEntry} (extra : Mach → Nat → SetEntry → Nat)

theorem setEntries_of_badCount (hbad : es = [] ∨ 64 < es.length) : m.setEntries cmd h es extra = (m, 0x11, []) := by
  have hcount : ¬ countOk es = true := by
    rw [countOk_iff, not_and_or, not_not, Nat.not_le]
    exact hbad
  exact if_pos (by simpa using hcount)

variable (hcount : countOk es = true) (hex : m.exists h = true)
include hcount hex

theorem setEntries_of_accepted (hst : ∀ e ∈ es, m.setStatus h e = 0) (hextra : ∀ e ∈ es, extra m h e = 0) :
    m.setEntries cmd h es extra = (m.defer cmd h es, 0x00, es.flatMap fun e => le 2 e.id ++ [0]) := by
  have hall : ∀ e ∈ es, (if m.setStatus h e == 0 then extra m h e else m.setStatus h e) = 0 := fun e he => by
    rw [hst e he, if_pos (beq_self_eq_true 0), hextra e he]
  dsimp only [Mach.setEntries]
  rw [if_neg (by simp [hcount]), if_neg (by simp [hex]), if_pos, setReply_of_accepted es _ hall]
  · rfl
  · rw [beq_iff_eq, firstRefusal_eq_zero_iff]
    exact List.forall_mem_map.mpr hall

theorem setEntries_of_refused (hbad : ∃ e ∈ es, m.setStatus h e ≠ 0 ∨ extra m h e ≠ 0) :
    ∃ st p, st ≠ 0 ∧ m.setEntries cmd h es extra = (m, st, p) := by
  obtain ⟨e, he, hbad⟩ := hbad
  have hfirst : firstRefusal (es.map fun e => if m.setStatus h e == 0 then extra m h e else m.setStatus h e) ≠ 0 := by
    rw [Ne, firstRefusal_eq_zero_iff, List.forall_mem_map]
    intro hall
    have hone := hall e he
    split at hone
    case isTrue hzero => exact (hbad.resolve_left (not_not_intro (beq_iff_eq.mp hzero))) hone
    case isFalse hnonzero => exact hnonzero (beq_iff_eq.mpr hone)
  dsimp only [Mach.setEntries]
  rw [if_neg (by simp [hcount]), if_neg (by simp [hex]), if_neg (by simpa using hfirst)]
  exact ⟨_, _, hfirst, rfl⟩

end

/-- Whether a parameter is one of the sleep policy. -/
def sleepExtra : Mach → Nat → SetEntry → Nat :=
  fun _ _ e => if pSLEEP_MAX_STATE ≤ e.id && e.id ≤ pDOOR_RECHECK_PERIOD then 0 else stBAD_PARAM

theorem sleepExtra_eq_zero_iff (m : Mach) (h : Nat) (e : SetEntry) :
    sleepExtra m h e = 0 ↔ pSLEEP_MAX_STATE ≤ e.id ∧ e.id ≤ pDOOR_RECHECK_PERIOD := by
  rw [sleepExtra, ← decide_eq_true_iff (p := _ ∧ _), Bool.decide_and]
  split
  case isTrue h => exact iff_of_true rfl h
  case isFalse h => exact iff_of_false (by decide) h

section
variable {s : State} {tag : Nat} {es : List SetEntry} (hs : Serves s 0xB0)
include hs

theorem answers_sleepPolicy {st : Nat} {p : List Nat} {m : Mach} (h : s.now.setEntries (0xB0, tag) 0 es sleepExtra = (m, st, p)) :
    Answers (.sleepPolicy tag es) s 0xB0 tag st p m := answers_of_serves hs (exec_sleepPolicy ..) h

end

/-! Start-up. -/

theorem ite_mach_start (c : Prop) [Decidable c] (m n : Mach) : (if c then m else n).start = if c then m.start else n.start := by
  split <;> rfl

@[simp] theorem post_start (m : Mach) (kind detail unit code data : Nat) : (m.post kind detail unit code data).start = m.start := by
  rw [Mach.post, ite_mach_start, ite_self]

@[simp] theorem recordRaise_start (m : Mach) (unit code cls c1 c2 : Nat) : (m.recordRaise unit code cls c1 c2).start = m.start := by
  simp only [Mach.recordRaise, Mach.ringPush, Mach.count, Mach.countN, Mach.drawer, Mach.drawerSet, ite_mach_start, post_start,
    ite_self]

@[simp] theorem holdFault_start (m : Mach) (unit code cls : Nat) : (m.holdFault unit code cls).start = m.start := by
  simp only [Mach.holdFault, Mach.react, Mach.endBenches, Mach.stopReq, Mach.dropExit, Mach.entersFault, Mach.cell,
    ite_mach_start, ite_self]

@[simp] theorem raise_start (m : Mach) (unit code cls c1 c2 : Nat) : (m.raise unit code cls c1 c2).start = m.start := by
  simp only [Mach.raise, Mach.dropNoted, ite_mach_start, holdFault_start, recordRaise_start, ite_self]

@[simp] theorem rollbackAdvance_start (m : Mach) : m.rollbackAdvance.start = m.start := by
  simp only [Mach.rollbackAdvance, ite_mach_start, raise_start, ite_self]

theorem becomeReady_start (m : Mach) : m.becomeReady.start.step = 6 ∧ m.becomeReady.start.ready = true := by
  rw [Mach.becomeReady, rollbackAdvance_start, post_start]
  exact ⟨rfl, rfl⟩

section
variable {s : State} (hpowered : s.now.powered = true) (hdone : s.now.stepDone = true) (hblocked : s.now.stepBlocked = false)
include hpowered hdone hblocked

theorem does_startupStepComplete : Does .startupStepComplete s
    (if s.now.start.step == 5 then s.now.becomeReady else s.now.enterStep (s.now.start.step + 1)) :=
  does_of_onWhen (exec_startupStepComplete ..) (by simp [hpowered, hdone, hblocked]) rfl

end

section
variable {s : State} (hpowered : s.now.powered = true) (hlow : 1 ≤ s.now.start.step) (hhigh : s.now.start.step ≤ 5)
  (hdue : s.now.time.running = false ∨ ((1000 * stepDeadline s.now.start.step : Nat) : Int) ≤ s.now.elapsedUs)
include hpowered hlow hhigh hdue

theorem does_startupDeadline : Does .startupDeadline s
    (if s.now.start.step == 5 && !s.now.pair.aps.a.booted && !s.now.pair.aps.b.booted then
      (s.now.raise pairUnit 0x24 4).startBlocks else s.now.blockStart 0) := by
  refine does_of_onWhen (exec_startupDeadline ..) ?_ rfl
  simp only [Bool.and_eq_true, Bool.or_eq_true, Bool.not_eq_true', decide_eq_true_eq]
  exact ⟨⟨⟨hpowered, hlow⟩, hhigh⟩, hdue⟩

end

/-- Settles O60: each wake, command and step of start-up under its condition. -/
theorem sleepAndStartupComplete : Obligations.SleepAndStartupComplete := by
  unfold Obligations.SleepAndStartupComplete
  refine ⟨⟨fun s src hcan hwakes => ?wake, fun m lines ch h u c acc p => ⟨rfl, rfl, rfl, rfl, rfl, rfl,
      wakesModule_movement_iff m lines acc, rfl, wakesModule_bus_iff m p, wakesModule_input_iff m ch, wakesModule_block_iff m h,
      wakesModule_fault_iff m u c⟩, fun s hcan hfits => ?scheduled,
      fun s tag es hs => ⟨fun hbad => answers_sleepPolicy hs (setEntries_of_badCount _ _ hbad), fun hne hlen hgood hex => ?accepted,
        fun hne hlen hbad hex => ?refused⟩,
      fun s tag hs => ⟨_, answers_of_serves hs (exec_powerRead ..) rfl⟩⟩,
    fun s hpowered hdone hblocked => ⟨fun h5 => ?ready, fun h3 => ?four, fun h5 h3 => ?next⟩, fun m => rfl, becomeReady_start,
    fun s hpowered hlow hhigh hdue => ⟨fun hnone => ?unbooted, fun hsome => ?blocks⟩, ⟨rfl, rfl, rfl, rfl, rfl⟩,
    fun s hgrant hlate hfirst hother => ?fallback, fun m a => ?granted⟩
  case wake =>
    exact does_of_onWhen (exec_wake ..) (Bool.and_eq_true_iff.mpr ⟨hcan, hwakes⟩) (wakeUp_eq ..)
  case scheduled => exact does_of_onWhen (exec_scheduledWake ..) (by simp [hcan, hfits]) rfl
  case accepted =>
    exact answers_sleepPolicy hs (setEntries_of_accepted _ _ ((countOk_iff es).mpr ⟨hne, hlen⟩) hex (fun e he => (hgood e he).1)
      fun e he => (sleepExtra_eq_zero_iff ..).mpr (hgood e he).2)
  case refused =>
    obtain ⟨e, he, hbad⟩ := hbad
    have hrefused : s.now.setStatus 0 e ≠ 0 ∨ sleepExtra s.now 0 e ≠ 0 := hbad.imp_right fun hout => by
      rw [Ne, sleepExtra_eq_zero_iff]
      omega
    obtain ⟨st, p, hst, hset⟩ :=
      setEntries_of_refused (0xB0, tag) sleepExtra ((countOk_iff es).mpr ⟨hne, hlen⟩) hex ⟨e, he, hrefused⟩
    exact ⟨st, p, hst, answers_sleepPolicy hs hset⟩
  case ready =>
    have hdoes := does_startupStepComplete hpowered hdone hblocked
    rwa [if_pos (by simpa using h5)] at hdoes
  case four =>
    have hdoes := does_startupStepComplete hpowered hdone hblocked
    rw [if_neg (by simp [h3]), Mach.enterStep, if_pos (by simp [h3]), h3] at hdoes
    exact hdoes
  case next =>
    have hdoes := does_startupStepComplete hpowered hdone hblocked
    rw [if_neg (by simpa using h5), Mach.enterStep, if_neg (by simpa using h3)] at hdoes
    exact hdoes
  case unbooted =>
    obtain ⟨h5, ha, hb⟩ := hnone
    have hdoes := does_startupDeadline hpowered hlow hhigh hdue
    rwa [if_pos (by simp [h5, ha, hb])] at hdoes
  case blocks =>
    have hdoes := does_startupDeadline hpowered hlow hhigh hdue
    rwa [if_neg (by simp only [Bool.and_eq_true, beq_iff_eq, Bool.not_eq_true']; rintro ⟨⟨h5, ha⟩, hb⟩; simp_all)] at hdoes
  case fallback =>
    exact does_of_onWhen (exec_tetherGrantFallback ..) (by simp [hgrant, hlate, hfirst, hother]) rfl
  case granted =>
    rw [Mach.grantTether, show Mach.pair (Mach.endFault _ _ _) = _ from (endFault_changesOnly _ _ _ .pair (by decide)).symm]
    exact ⟨rfl, rfl⟩

end Sys2Proof.Proofs
end

section
/-!
PROOFS. What ends a dwell, a hold, a stroke or a learning cycle of a door (06 R165 to R190).
-/
namespace Sys2Proof.Proofs

open Sys2Proof Sys2Proof.Machine

/-! What raising and ending a fault leave of the doors. -/

theorem ite_mach_doors (c : Prop) [Decidable c] (m n : Mach) : (if c then m else n).doors = if c then m.doors else n.doors := by
  split <;> rfl

@[simp] theorem post_doors (m : Mach) (kind detail unit code data : Nat) : (m.post kind detail unit code data).doors = m.doors := by
  rw [Mach.post, ite_mach_doors, ite_self]

@[simp] theorem completed_doors (m : Mach) (op tag status unit data : Nat) :
    (m.completed op tag status unit data).doors = m.doors := post_doors ..

@[simp] theorem endFault_doors (m : Mach) (unit code : Nat) : (m.endFault unit code).doors = m.doors := by
  rw [Mach.endFault, ite_mach_doors, post_doors, ite_self]

@[simp] theorem endIf_doors (m : Mach) (unit code : Nat) (c : Bool) : (m.endIf unit code c).doors = m.doors := by
  rw [Mach.endIf, ite_mach_doors, endFault_doors, ite_self]

@[simp] theorem recordRaise_doors (m : Mach) (unit code cls c1 c2 : Nat) : (m.recordRaise unit code cls c1 c2).doors = m.doors := by
  simp only [Mach.recordRaise, Mach.ringPush, Mach.count, Mach.countN, Mach.drawer, Mach.drawerSet, ite_mach_doors, post_doors,
    ite_self]

@[simp] theorem holdFault_doors (m : Mach) (unit code cls : Nat) : (m.holdFault unit code cls).doors = m.doors := by
  simp only [Mach.holdFault, Mach.react, Mach.endBenches, Mach.stopReq, Mach.dropExit, Mach.entersFault, Mach.cell,
    ite_mach_doors, ite_self]

@[simp] theorem raise_doors (m : Mach) (unit code cls c1 c2 : Nat) : (m.raise unit code cls c1 c2).doors = m.doors := by
  simp only [Mach.raise, Mach.dropNoted, ite_mach_doors, holdFault_doors, recordRaise_doors, ite_self]

/-! The conditions of the events. -/

theorem exec_dwellEnd (side : Ab) (s : State) : exec (.dwellEnd side) s = execDwellEnd side s := rfl
theorem exec_holdTimeout (side : Ab) (s : State) : exec (.holdTimeout side) s = execHoldTimeout side s := rfl
theorem exec_nudgeAutoStart (side : Ab) (s : State) : exec (.nudgeAutoStart side) s = execNudgeAutoStart side s := rfl
theorem exec_doorRecheck (s : State) : exec .doorRecheck s = execDoorRecheck s := rfl
theorem exec_doorLearnComplete (side : Ab) (inp : DoorLearnIn) (s : State) :
    exec (.doorLearnComplete side inp) s = execDoorLearnComplete side inp s := rfl
theorem exec_obstructionDetected (side : Ab) (s : State) : exec (.obstructionDetected side) s =
    onWhen s ((s.now.doors.get side).closes && decide (16 * s.now.door side pOBST_TIME ≤ (s.now.doors.get side).obstRun)) fun m =>
      m.obstruct side := rfl

section
variable {s : State} {side : Ab} {f : Nat}

theorem does_finalApproachTimeout (hcloses : (s.now.doors.get side).closes = true) (hmask : (s.now.doors.get side).maskSince = some f)
    (hlate : 4000 ≤ s.now.time.frame - f) : Does (.finalApproachTimeout side) s (s.now.obstruct side) := by
  dsimp only [Does, exec, execFinalApproachTimeout, onWhen]
  rw [hmask, hcloses, if_pos]
  rw [Bool.true_and, passedMs_iff]
  exact hlate

/-- What DOOR_TIME_LIMIT does where it is due. -/
theorem does_doorTimeLimit
    (hdue : (s.now.strokeLate side = true ∧ ((s.now.doors.get side).closes = true ∨ (s.now.doors.get side).state = 2
      ∨ (s.now.doors.get side).state = 5)) ∨ (s.now.refLate side = true ∧ (s.now.doors.get side).state = 0)) :
    Does (.doorTimeLimit side) s
      (if (s.now.doors.get side).closes then s.now.obstruct side
      else if (s.now.doors.get side).state == 0 then
        (s.now.side side fun d => { d with refFrom := none }).raise (sideHandle side) 0x5C 3
      else (s.now.side side fun d => { d with state := 6, stroke := none, refV := 0, reversing := false }).raise
        (sideHandle side) 0x57 2) := by
  dsimp only [Does, exec, execDoorTimeLimit, onWhen]
  rw [if_pos (by simpa only [Bool.or_eq_true, Bool.and_eq_true, beq_iff_eq, or_assoc] using hdue)]

theorem strokeLate_of_late (hstroke : (s.now.doors.get side).stroke = some f)
    (hlate : 4 * s.now.door side pDOOR_TIME_LIMIT ≤ s.now.time.frame - f) : s.now.strokeLate side = true := by
  rw [Mach.strokeLate, hstroke]
  exact (passedMs_iff ..).mpr hlate

theorem refLate_of_late (href : (s.now.doors.get side).refFrom = some f)
    (hlate : 4 * s.now.door side pDOOR_TIME_LIMIT ≤ s.now.time.frame - f) : s.now.refLate side = true := by
  rw [Mach.refLate, href]
  exact (passedMs_iff ..).mpr hlate

theorem sideOn_of_on (h : s.now.ownState (sideHandle side) = some .on) : s.now.sideOn side = true := by
  rw [Mach.sideOn, h, beq_self_eq_true]

theorem dwellOver_of_over (hdwell : (s.now.doors.get side).dwellFrom = some f) (hstate : (s.now.doors.get side).state = 3)
    (hhold : (s.now.doors.get side).holdFrom = none) (hreopen : (s.now.doors.get side).reopenReq = false)
    (hlate : f + (s.now.doors.get side).dwellLen ≤ s.now.time.frame) (hon : s.now.ownState (sideHandle side) = some .on) :
    s.now.dwellOver side = true := by
  simp [Mach.dwellOver, hdwell, hstate, hhold, hreopen, hlate, sideOn_of_on hon]

theorem holdOver_of_over (hhold : (s.now.doors.get side).holdFrom = some f)
    (hlate : 4000 * s.now.door side pHOLD_MAX ≤ s.now.time.frame - f) (hon : s.now.ownState (sideHandle side) = some .on) :
    s.now.holdOver side = true := by
  simp [Mach.holdOver, hhold, sF, Mach.since, hlate, sideOn_of_on hon]

end

/-! An obstruction (06 R180). -/

section
variable (m : Mach) (side : Ab)

theorem learnFail_doors : (m.learnFail side).doors = m.doors.upd side fun d => { d with learnTag := none, learnStroke := 0 } := by
  dsimp only [Mach.learnFail]
  split
  · rw [ite_mach_doors, completed_doors, ite_self, raise_doors]
    rfl
  · rw [raise_doors]
    rfl

/-- A side that reverses, and the counts of obstructions that it keeps. -/
theorem reverse_door (hold : Bool) :
    ((m.reverse side hold).doors.get side).state = 5 ∧ ((m.reverse side hold).doors.get side).reversing = true
    ∧ ((m.reverse side hold).doors.get side).obstCount = (m.doors.get side).obstCount
    ∧ ((m.reverse side hold).doors.get side).obstConsec = (m.doors.get side).obstConsec := by
  dsimp only [Mach.reverse]
  rw [side_get, ite_mach_doors, endFault_doors, ite_self, ite_mach_doors, learnFail_doors]
  split
  · rw [two_get_upd]
    exact ⟨rfl, rfl, rfl, rfl⟩
  · exact ⟨rfl, rfl, rfl, rfl⟩

/-- The side has reversed and its counts of obstructions have risen; its nudging may be forced yet (06 R180, R184). -/
def obstructCounted (m : Mach) (side : Ab) : Mach :=
  ((m.doorEvent side 1).reverse side false).side side fun d => { d with
    obstCount := sat32 d.obstCount
    obstConsec := min 255 (d.obstConsec + 1)
    nudgeAgain := if (m.doors.get side).state == 7 then some m.time.frame else d.nudgeAgain }

theorem obstruct_eq : m.obstruct side =
    if (obstructCounted m side).door side pOBST_REPEAT_MAX ≤ ((obstructCounted m side).doors.get side).obstConsec then
      ((obstructCounted m side).side side fun d => { d with forceNudge := true }).raise (sideHandle side) 0x58 1
    else obstructCounted m side := rfl

theorem obstructCounted_door : ((obstructCounted m side).doors.get side).state = 5
    ∧ ((obstructCounted m side).doors.get side).reversing = true
    ∧ ((obstructCounted m side).doors.get side).obstCount = sat32 (m.doors.get side).obstCount
    ∧ ((obstructCounted m side).doors.get side).obstConsec = min 255 ((m.doors.get side).obstConsec + 1) := by
  obtain ⟨hstate, hreversing, hcount, hconsec⟩ := reverse_door (m.doorEvent side 1) side false
  rw [show (m.doorEvent side 1).doors = m.doors from post_doors ..] at hcount hconsec
  rw [obstructCounted, side_get, ← hcount, ← hconsec]
  exact ⟨hstate, hreversing, rfl, rfl⟩

theorem obstruct_door : ((m.obstruct side).doors.get side).state = 5 ∧ ((m.obstruct side).doors.get side).reversing = true
    ∧ ((m.obstruct side).doors.get side).obstCount = sat32 (m.doors.get side).obstCount
    ∧ ((m.obstruct side).doors.get side).obstConsec = min 255 ((m.doors.get side).obstConsec + 1) := by
  have hcounted := obstructCounted_door m side
  rw [obstruct_eq, ite_mach_doors, raise_doors]
  split
  · rwa [side_get]
  · exact hcounted

end

/-! The start of a stroke to close (06 R182 to R185). -/

section
variable {m : Mach} {side : Ab} {nudge : Bool}

theorem startClose_of_relevels (h : m.relevels = true) : (m.startClose side nudge).doors = m.doors := by
  dsimp only [Mach.startClose]
  rw [if_pos h]

variable (h : m.relevels = false)
include h

theorem startClose_of_barred (hnudge : nudge = true ∨ ((m.doors.get side).forceNudge = true ∧ m.door side pNUDGE_MODE ≠ 0))
    (hbarred : m.nudgeBarred side = true) (hmode : (m.doors.get side).forceNudge = false ∨ m.door side pNUDGE_MODE ≠ 0) :
    m.startClose side nudge = m.side side fun d => { d with dwellFrom := none, holdFrom := none, deferred := true } := by
  have hforce : ¬ ((m.doors.get side).forceNudge && m.door side pNUDGE_MODE == 0) = true := by
    simp only [Bool.and_eq_true, beq_iff_eq, not_and]
    exact fun hforce => hmode.resolve_left (by simp [hforce])
  have hwould : ((nudge || (m.doors.get side).forceNudge) && m.nudgeBarred side) = true := by
    rw [hbarred, Bool.and_true, Bool.or_eq_true]
    exact hnudge.imp_right And.left
  dsimp only [Mach.startClose]
  rw [if_neg (by simp [h]), if_neg hforce, if_pos hwould]

theorem startClose_door (hforce : (m.doors.get side).forceNudge = false) (hbarred : nudge = false ∨ m.nudgeBarred side = false) :
    ((m.startClose side nudge).doors.get side).state = (if nudge then 7 else 4)
    ∧ ((m.startClose side nudge).doors.get side).stroke = some m.time.frame := by
  have hfree : ¬ ((nudge || false) && m.nudgeBarred side) = true := by
    rw [Bool.or_false, Bool.and_eq_true]
    rintro ⟨hn, hb⟩
    rcases hbarred with hbarred | hbarred <;> simp_all
  dsimp only [Mach.startClose]
  rw [hforce, if_neg (by simp [h]), if_neg (by simp), if_neg hfree, side_get]
  refine ⟨?_, rfl⟩
  dsimp only
  rw [hforce, Bool.false_and, Bool.or_false]

end

/-! The end of a learning cycle (06 R188 to R190). -/

theorem learnDone_door (m : Mach) (side : Ab) :
    ((m.learnDone side).doors.get side).state = 1 ∧ ((m.learnDone side).doors.get side).x = 0 := by
  dsimp only [Mach.learnDone]
  rw [ite_mach_doors, completed_doors, ite_self, endFault_doors, endIf_doors, endFault_doors, side_get]
  exact ⟨rfl, rfl⟩

theorem learnFigures_iff (m : Mach) (side : Ab) (inp : DoorLearnIn) : m.learnFigures side inp = true ↔
    inp.open05.length = 16 ∧ inp.close05.length = 16 ∧ inp.open10.length = 16 ∧ inp.close10.length = 16
    ∧ ((inp.width1 : Int) - inp.width2).natAbs ≤ 5000 ∧ 200000 ≤ learnWidth inp ∧ learnWidth inp ≤ 3000000
    ∧ 200 ≤ learnMass inp ∧ learnMass inp ≤ 8000
    ∧ 10 * ((learnMass inp - phaseMass inp inp.dec).natAbs : Int) ≤ max (learnMass inp) (phaseMass inp inp.dec)
    ∧ 0 ≤ learnFricC inp ∧ learnFricC inp ≤ 1000 ∧ 0 ≤ learnFricV inp ∧ learnFricV inp ≤ 5000
    ∧ (∀ x ∈ learnCloser inp, 0 ≤ x ∧ x ≤ ((m.door side pF_MAX * 8 : Nat) : Int)) ∧ inp.residual.natAbs ≤ 100 := by
  simp only [Mach.learnFigures, Bool.and_eq_true, beq_iff_eq, decide_eq_true_eq, List.all_eq_true, and_assoc, Nat.cast_mul,
    Nat.cast_ofNat]
  exact Iff.rfl

/-- Settles O30: each event where its condition holds, the counts of an obstruction (`obstruct_door`), the start of a
stroke (`startClose_door`) and the checks of a learning cycle (`learnFigures_iff`). -/
theorem doorStrokesAndLearningEnd : Obligations.DoorStrokesAndLearningEnd := by
  unfold Obligations.DoorStrokesAndLearningEnd
  refine ⟨⟨fun s side hcloses hrun => ?obstruction, fun s side f => does_finalApproachTimeout,
      fun s side f hstroke hlate => ⟨fun hcloses => ?closing, fun hcloses hstate => ?opening⟩,
      fun s side f href hlate hstate hcloses => ?referencing,
      fun s side f hdwell hstate hhold hreopen hlate hon => ?dwell,
      fun s side f hhold hlate hon => ⟨fun hreopen => ?hold, fun hreopen => ?holdDeferred⟩,
      fun s side hok hstate hmode hon => ?nudge, fun s hperiod hlate => ?recheck, obstruct_door,
      fun m side nudge => ⟨startClose_of_relevels, startClose_of_barred, startClose_door⟩⟩,
    fun s side inp hstate hstroke => ⟨fun hbad => ?learnFailed, fun hgood => ?learnt⟩,
    fun m side inp => ⟨(learnDone_door m side).1, (learnDone_door m side).2, learnFigures_iff m side inp⟩⟩
  case obstruction => exact does_of_onWhen (exec_obstructionDetected ..) (by simp [hcloses, hrun]) rfl
  case closing =>
    have hdoes := does_doorTimeLimit (.inl ⟨strokeLate_of_late hstroke hlate, .inl hcloses⟩)
    rwa [if_pos hcloses] at hdoes
  case opening =>
    have hdoes := does_doorTimeLimit (.inl ⟨strokeLate_of_late hstroke hlate, .inr hstate⟩)
    rwa [if_neg (by simp [hcloses]), if_neg (by rcases hstate with h | h <;> simp [h])] at hdoes
  case referencing =>
    have hdoes := does_doorTimeLimit (.inr ⟨refLate_of_late href hlate, hstate⟩)
    rwa [if_neg (by simp [hcloses]), if_pos (by simp [hstate])] at hdoes
  case dwell => exact does_of_onWhen (exec_dwellEnd ..) (dwellOver_of_over hdwell hstate hhold hreopen hlate hon) rfl
  case hold =>
    refine does_of_onWhen (exec_holdTimeout ..) (holdOver_of_over hhold hlate hon) ?_
    exact if_neg (by simp [hreopen])
  case holdDeferred =>
    refine does_of_onWhen (exec_holdTimeout ..) (holdOver_of_over hhold hlate hon) ?_
    exact if_pos hreopen
  case nudge => exact does_of_onWhen (exec_nudgeAutoStart ..) (by simp [hok, hstate, hmode, sideOn_of_on hon]) rfl
  case recheck => exact does_of_onWhen (exec_doorRecheck ..) (by simp [hperiod, sF, Mach.since, hlate]) rfl
  case learnFailed =>
    exact does_of_onWhen (exec_doorLearnComplete ..) (by simp [hstate, hstroke]) (if_neg (by simp [hbad]))
  case learnt =>
    exact does_of_onWhen (exec_doorLearnComplete ..) (by simp [hstate, hstroke]) (if_pos hgood)

end Sys2Proof.Proofs
end

section
/-!
PROOFS. Frames on the shaft bus, time-triggered cells and the time reference (11 R347 to R379).
-/
namespace Sys2Proof.Proofs

open Sys2Proof Sys2Proof.Machine

theorem exec_busFrameReceived (port : Ab) (frame : CanFrame) (s : State) :
    exec (.busFrameReceived port frame) s = execBusFrameReceived port frame s := rfl
theorem exec_busFrameSent (port : Ab) (obj : Nat) (res : TxAttempt) (s : State) :
    exec (.busFrameSent port obj res) s = execBusFrameSent port obj res s := rfl
theorem exec_ttWindowStart (port : Ab) (cell : Nat) (s : State) :
    exec (.ttWindowStart port cell) s = execTtWindowStart port cell s := rfl
theorem exec_ttMissed (port : Ab) (obj : Nat) (s : State) :
    exec (.ttMissed port obj) s = execTtMissed port obj s := rfl
theorem exec_timeReferenceReceived (port : Ab) (frame : CanFrame) (s : State) :
    exec (.timeReferenceReceived port frame) s = execTimeReferenceReceived port frame s := rfl
theorem exec_schedLoad (tag port : Nat) (cells : List Nat) (s : State) :
    exec (.schedLoad tag port cells) s = execSchedLoad tag port cells s := rfl

/-! A frame received (11 R347). -/

section
variable {s : State} {p : Ab} {f : CanFrame} (htakes : (s.now.prt p).takesPart = true)
include htakes

theorem does_busFrameReceived_of_none (h : f.rtr = true ∨ ((s.now.heard p).recDown p).rxObj p f.ext f.ident = none) :
    Does (.busFrameReceived p f) s ((s.now.heard p).recDown p) := by
  have hnone : (if f.rtr then none else ((s.now.heard p).recDown p).rxObj p f.ext f.ident) = none := by
    split
    case isTrue => rfl
    case isFalse hr => exact h.resolve_left hr
  refine does_of_onWhen (exec_busFrameReceived ..) htakes ?_
  dsimp only
  rw [hnone]

variable {o : ObjRec} (hrtr : f.rtr = false) (hobj : ((s.now.heard p).recDown p).rxObj p f.ext f.ident = some o)
include hrtr hobj

theorem does_busFrameReceived_of_host (hhost : ((s.now.heard p).recDown p).hostObj p o.num = true) :
    Does (.busFrameReceived p f) s (((s.now.heard p).recDown p).storeFrame p o f) := by
  refine does_of_onWhen (exec_busFrameReceived ..) htakes ?_
  dsimp only
  rw [hrtr, if_neg Bool.false_ne_true, hobj]
  dsimp only
  rw [hhost, if_pos rfl]

/-- A profile message is judged by its form, its CRC and its SEQ, in this order. -/
theorem does_busFrameReceived_of_profile {g : Msg} (hhost : ((s.now.heard p).recDown p).hostObj p o.num = false)
    (hmsg : ((s.now.heard p).recDown p).rxMsg p f.ext f.ident = some g) : Does (.busFrameReceived p f) s
      (if !g.formOk f.data then (s.now.heard p).recDown p
      else if g.safety && !safetyOk f.ident f.data then ((s.now.heard p).recDown p).busCrcErr p
      else if !((s.now.heard p).recDown p).rxNewer p g o f.data then (s.now.heard p).recDown p
      else ((s.now.heard p).recDown p).storeFrame p o f) := by
  refine does_of_onWhen (exec_busFrameReceived ..) htakes ?_
  dsimp only
  rw [hrtr, if_neg Bool.false_ne_true, hobj]
  dsimp only
  rw [hhost, if_neg Bool.false_ne_true, hmsg]

end

/-! A frame sent (11 R356 to R362). -/

/-- The module after an attempt of the object ended so. -/
def attemptEnded (m : Mach) (p : Ab) (n sof : Nat) (o : ObjRec) : TxResult → Mach
  | .sent => m.frameSent p o sof
  | .lostArb => m.notSent p { o with clash := 0 }
  | .error inc => (m.txError p inc).notSent p { o with clash := 0, noAck := 0 }
  | .clash inc =>
    if o.clash + 1 < 2 then (m.txError p inc).notSent p { o with clash := o.clash + 1, noAck := 0 }
    else (((m.txError p inc).notSent p { o with clash := o.clash + 1, noAck := 0, susp := true }).onPort p fun x =>
      { x with clashes := sat32 x.clashes }).raise (0x0200 + p.idx) 0xA4 2
  | .noAck inc =>
    if 16 ≤ o.noAck + 1 && !(m.prt p).noListener then
      ((((m.txError p inc).notSent p { o with clash := 0, noAck := o.noAck + 1 }).onPort p fun x =>
        { x with noListener := true }).post 5 6 (0x0200 + p.idx) n 0).raise (0x0200 + p.idx) 0xA2 2
    else (m.txError p inc).notSent p { o with clash := 0, noAck := o.noAck + 1 }

section
variable {s : State} {p : Ab} {n sof : Nat} {o : ObjRec} (hobj : s.now.objAt p n = some o)
  (hsends : (s.now.prt p).sends o = true) (hkind : o.kind ≠ 1) (hpend : o.pend.isSome = true) (hsusp : o.susp = false)
  (hatt : s.now.attempts p o sof = true)
include hobj hsends hkind hpend hsusp hatt

theorem does_busFrameSent (r : TxResult) : Does (.busFrameSent p n ⟨sof, r⟩) s (attemptEnded s.now p n sof o r) := by
  have hdue : ((s.now.prt p).sends o && o.kind != 1 && o.pend.isSome && !o.susp && s.now.attempts p o sof) = true := by
    simp [hsends, hkind, hpend, hsusp, hatt]
  rw [Does, exec_busFrameSent, execBusFrameSent, hobj]
  dsimp only [onWhen]
  rw [if_pos hdue]
  cases r <;> rfl

end

section
variable {m : Mach} {p : Ab} {n sof inc : Nat} {o : ObjRec}

theorem attemptEnded_of_firstClash (h : o.clash = 0) : attemptEnded m p n sof o (.clash inc)
    = (m.txError p inc).notSent p { o with clash := 1, noAck := 0 } := by
  rw [attemptEnded, h]
  rfl

theorem attemptEnded_of_secondClash (h : o.clash = 1) : attemptEnded m p n sof o (.clash inc)
    = (((m.txError p inc).notSent p { o with clash := 2, noAck := 0, susp := true }).onPort p fun x =>
      { x with clashes := sat32 x.clashes }).raise (0x0200 + p.idx) 0xA4 2 := by
  rw [attemptEnded, h]
  rfl

theorem attemptEnded_of_noAck (h : o.noAck < 15 ∨ (m.prt p).noListener = true) : attemptEnded m p n sof o (.noAck inc)
    = (m.txError p inc).notSent p { o with clash := 0, noAck := o.noAck + 1 } := by
  refine if_neg ?_
  simp only [Bool.and_eq_true, decide_eq_true_eq, Bool.not_eq_true']
  rintro ⟨hlast, hlistener⟩
  rcases h with h | h
  · omega
  · exact absurd (h.symm.trans hlistener) (by decide)

theorem attemptEnded_of_lastNoAck (h : 15 ≤ o.noAck) (hlistener : (m.prt p).noListener = false) :
    attemptEnded m p n sof o (.noAck inc) = ((((m.txError p inc).notSent p { o with clash := 0, noAck := o.noAck + 1 }).onPort p
      fun x => { x with noListener := true }).post 5 6 (0x0200 + p.idx) n 0).raise (0x0200 + p.idx) 0xA2 2 :=
  if_pos (by simpa [hlistener] using h)

end

/-! What PARK bars (15 R488). -/

section
variable {m : Mach} {p : Ab}

theorem parkBars_of_free {n : Nat} (h : m.power.state ≠ 3 ∨ (m.profAt p n = some .timeRef ∧ m.hostObj p n = false)) :
    m.parkBars p n = false := by
  rw [Mach.parkBars, Mach.isTimeRef]
  rcases h with h | ⟨hprof, hhost⟩
  · simp [h]
  · simp [hprof, hhost]

theorem parkBars_of_park {n : Nat} (hpark : m.power.state = 3) (h : ¬ (m.profAt p n = some .timeRef ∧ m.hostObj p n = false)) :
    m.parkBars p n = true := by
  rw [Mach.parkBars, Mach.isTimeRef, hpark, beq_self_eq_true, Bool.true_and, Bool.not_eq_true', ← Bool.not_eq_true,
    Bool.and_eq_true, beq_iff_eq, Bool.not_eq_true']
  exact h

variable {o : ObjRec} {sof : Nat}

theorem attempts_of_free (h : m.power.state ≠ 3 ∨ (m.profAt p o.num = some .timeRef ∧ m.hostObj p o.num = false)) :
    m.attempts p o sof = (o.kind == 3 || (m.mayStart p o sof && !((m.prt p).noListener && o.tried))) := by
  rw [Mach.attempts, parkBars_of_free h]
  rfl

theorem attempts_of_park (hpark : m.power.state = 3) (h : ¬ (m.profAt p o.num = some .timeRef ∧ m.hostObj p o.num = false))
    (hsof : 25000 * m.power.stateAt ≤ sof) : m.attempts p o sof = false := by
  rw [Mach.attempts, parkBars_of_park hpark h, decide_eq_true hsof]
  rfl

end

/-! Time-triggered cells (11 R371 to R375). -/

section
variable {s : State} {p : Ab} {n : Nat} {o : ObjRec}

theorem does_ttWindowStart {cell : Nat} (hcell : s.now.cellObj p cell = some n) (hobj : s.now.objAt p n = some o)
    (hnow : s.now.cellNow p cell = true) (hreq : (s.now.prt p).requests = true)
    (hfree : s.now.power.state ≠ 3 ∨ (s.now.profAt p n = some .timeRef ∧ s.now.hostObj p n = false)) (hkind : o.kind = 3)
    (hsusp : o.susp = false) :
    Does (.ttWindowStart p cell) s (s.now.setObj p (o.request (s.now.ttData p o) 1 s.now.time.frame)) := by
  rw [Does, exec_ttWindowStart, execTtWindowStart, hcell]
  dsimp only [onWhen]
  rw [hobj]
  dsimp only
  rw [if_pos (by simp [hnow, hreq, parkBars_of_free hfree, hkind, hsusp])]

theorem does_ttMissed (hobj : s.now.objAt p n = some o) (hkind : o.kind = 3) (hpend : o.pend.isSome = true) :
    Does (.ttMissed p n) s ((((s.now.setObj p { o with pend := none }).onPort p fun x => { x with
      ttMissed := sat32 x.ttMissed
      ttLate := if x.ttLate.contains n then x.ttLate else x.ttLate ++ [n] }).busCount p 10 1).raise (0x0200 + p.idx) 0xA5 1) := by
  rw [Does, exec_ttMissed, execTtMissed, hobj]
  dsimp only [onWhen]
  rw [if_pos (by simp [hkind, hpend])]
  rfl

end

/-! The time reference (11 R376 to R379). -/

section
variable {s : State} {p : Ab} {f : CanFrame}

/-- Whether a reference is the first, or comes 0.995 to 1.005 ms after the last (11 R378). -/
def refGood (m : Mach) (p : Ab) (f : CanFrame) : Bool :=
  match (m.prt p).refLast with
  | some t => decide (t + 99500 ≤ f.time) && decide (f.time ≤ t + 100500)
  | none => true

theorem refGood_iff (m : Mach) (p : Ab) (f : CanFrame) :
    refGood m p f = true ↔ ∀ t, (m.prt p).refLast = some t → t + 99500 ≤ f.time ∧ f.time ≤ t + 100500 := by
  rw [refGood]
  cases (m.prt p).refLast with
  | none => simp
  | some t => simp

/-- How many references were missed, with one that is not good (11 R378). -/
def refLate (m : Mach) (p : Ab) (f : CanFrame) : Nat :=
  match (m.prt p).refLast with
  | some t => max 1 ((f.time - t + 50000) / 100000)
  | none => 0

/-- A bad reference is not the first. -/
theorem refLate_of_bad {m : Mach} (h : refGood m p f = false) :
    refLate m p f = max 1 ((f.time - (m.prt p).refLast.getD 0 + 50000) / 100000) := by
  rw [refGood] at h
  rw [refLate]
  cases hlast : (m.prt p).refLast with
  | none => simp [hlast] at h
  | some t => rfl

/-- The port after a reference that counts. -/
def refTaken (m : Mach) (p : Ab) (f : CanFrame) (good : Bool) (late : Nat) : Mach :=
  (((m.heard p).recDown p).seqAccept p f.ident (nth f.data 2 0) (leAt f.data 0 2)).onPort p fun x => { x with
    refLast := some f.time
    cycle := nth f.data 4 0 % 16
    refBad := if good then 0 else x.refBad + late
    refGood := if good then x.refGood + 1 else 0 }

theorem refTaken_late_of_good (m : Mach) {good : Bool} {late late' : Nat} (h : good = true ∨ late = late') :
    refTaken m p f good late = refTaken m p f good late' := by
  rcases h with rfl | rfl <;> rfl

/-- The 16th good reference in a row ends a suspension (11 R379). -/
def refJudged (m : Mach) (p : Ab) : Mach :=
  if (m.prt p).ttSusp && 16 ≤ (m.prt p).refGood then (m.onPort p fun x => { x with ttSusp := false }).endFault (0x0200 + p.idx) 0xA6
  else m

theorem refJudged_of_kept {m : Mach} (h : (m.prt p).ttSusp = false ∨ (m.prt p).refGood < 16) : refJudged m p = m :=
  if_neg (by simpa [← Bool.not_eq_true, imp_iff_not_or] using h)

theorem refJudged_of_ended {m : Mach} (hsusp : (m.prt p).ttSusp = true) (hrun : 16 ≤ (m.prt p).refGood) :
    refJudged m p = (m.onPort p fun x => { x with ttSusp := false }).endFault (0x0200 + p.idx) 0xA6 :=
  if_pos (by simp [hsusp, hrun])

variable (htakes : (s.now.prt p).takesPart = true) (hslave : s.now.master p = false) (hext : f.ext = false)
  (hident : f.ident = s.now.nat pTIME_REF_ID)
include htakes hslave hext hident

/-- A reference is judged by its form, its CRC and its SEQ, in this order; one that counts may end a suspension. -/
theorem does_timeReferenceReceived : Does (.timeReferenceReceived p f) s
    (if !Msg.timeRef.formOk f.data then (s.now.heard p).recDown p
    else if !safetyOk f.ident f.data then ((s.now.heard p).recDown p).busCrcErr p
    else if !((s.now.heard p).recDown p).seqNewer p f.ident (nth f.data 2 0) (leAt f.data 0 2) then (s.now.heard p).recDown p
    else refJudged (refTaken s.now p f (refGood s.now p f) (refLate s.now p f)) p) :=
  does_of_onWhen (exec_timeReferenceReceived ..) (by simp [htakes, hslave, hext, hident]) rfl

end

theorem does_timeSlaveLost {s : State} {p : Ab} (hslave : s.now.master p = false) (hsusp : (s.now.prt p).ttSusp = false)
    (hgone : 4 ≤ (s.now.prt p).refBad ∨ (∃ t, (s.now.prt p).refLast = some t ∧ t + 400500 ≤ 100 * (s.now.ts + 250))
      ∨ ((s.now.prt p).refLast = none ∧ 4000 ≤ s.now.ts)) :
    Does (.timeSlaveLost p) s ((s.now.onPort p fun x => { x with ttSusp := true, refGood := 0 }).raise (0x0200 + p.idx) 0xA6 2) := by
  dsimp only [Does, exec, execTimeSlaveLost, onWhen]
  rw [if_pos]
  · rfl
  · rw [hslave, hsusp]
    rcases hgone with hbad | ⟨t, hlast, hlate⟩ | ⟨hlast, hlate⟩
    · simp [hbad]
    · simp [hlast, hlate]
    · simp [hlast, hlate]

/-- Settles O47: a frame received and one sent, by what they are judged by; the cells and the time reference. -/
theorem busFramesAndTimeTriggered : Obligations.BusFramesAndTimeTriggered := by
  unfold Obligations.BusFramesAndTimeTriggered
  refine ⟨⟨fun s p f htakes => ⟨does_busFrameReceived_of_none htakes, fun o => does_busFrameReceived_of_host htakes,
        fun o g hrtr hobj hhost hmsg => ?profile⟩,
      fun s p n sof inc o hobj hsends hkind hpend hsusp hatt => ?sent,
      fun m p o sof => ⟨fun hfree => ⟨fun hkind => ?cells, fun hkind => ?others⟩, attempts_of_park⟩⟩,
    fun s p cell n o => does_ttWindowStart, fun s p n o => does_ttMissed,
    fun s p f htakes hslave hext hident => ?reference, fun s p => does_timeSlaveLost,
    fun s tag port cells hs hbad => ?badMatrix, fun s tag port cells hs hport hlen => ⟨fun hok => ?matrix, fun hbad => ?badClaim⟩⟩
  case profile =>
    have hdoes := does_busFrameReceived_of_profile htakes hrtr hobj hhost hmsg
    refine ⟨fun hform => ?_, fun hform hsafe hcrc => ?_, fun hform hcrc hnewer => ?_, fun hform hcrc hnewer => ?_⟩
    · rwa [hform] at hdoes
    · rwa [hform, hsafe, hcrc] at hdoes
    · rwa [hform, if_neg (by decide), if_neg (by simpa using hcrc), hnewer] at hdoes
    · rwa [hform, if_neg (by decide), if_neg (by simpa using hcrc), hnewer] at hdoes
  case sent =>
    have hdoes := does_busFrameSent hobj hsends hkind hpend hsusp hatt
    refine ⟨hdoes .sent, hdoes .lostArb, hdoes (.error inc), fun h => ?_, fun h => ?_, fun h => ?_, fun h hlistener => ?_⟩
    · exact attemptEnded_of_firstClash h ▸ hdoes (.clash inc)
    · exact attemptEnded_of_secondClash h ▸ hdoes (.clash inc)
    · exact attemptEnded_of_noAck h ▸ hdoes (.noAck inc)
    · exact attemptEnded_of_lastNoAck h hlistener ▸ hdoes (.noAck inc)
  case cells => rw [attempts_of_free hfree, hkind, beq_self_eq_true, Bool.true_or]
  case others => rw [attempts_of_free hfree, beq_false_of_ne hkind, Bool.false_or]
  case reference =>
    have hdoes := does_timeReferenceReceived htakes hslave hext hident
    refine ⟨fun hform => ?_, fun hform hcrc => ?_, fun hform hcrc hnewer => ?_, fun good hform hcrc hnewer hgood => ?_⟩
    · rwa [hform] at hdoes
    · rwa [hform, hcrc] at hdoes
    · rwa [hform, hcrc, hnewer] at hdoes
    · obtain rfl : good = refGood s.now p f := Bool.eq_iff_iff.mpr (hgood.trans (refGood_iff ..).symm)
      have hlate := refTaken_late_of_good (p := p) (f := f) s.now
        ((Bool.eq_false_or_eq_true (refGood s.now p f)).imp_right refLate_of_bad)
      rw [hform, hcrc, hnewer, hlate] at hdoes
      have hjudged {n m : Mach} (h : n = m) (hn : Does (.timeReferenceReceived p f) s n) : Does (.timeReferenceReceived p f) s m :=
        h ▸ hn
      exact ⟨fun hkept => hjudged (refJudged_of_kept hkept) hdoes,
        fun hsusp hrun => hjudged (refJudged_of_ended hsusp hrun) hdoes⟩
  case badMatrix => exact answers_of_serves hs (exec_schedLoad ..) (if_pos (by simpa using hbad))
  case matrix =>
    exact answers_of_serves hs (exec_schedLoad ..) ((if_neg (by simp [hport, hlen])).trans (if_pos hok))
  case badClaim =>
    exact answers_of_serves hs (exec_schedLoad ..) ((if_neg (by simp [hport, hlen])).trans (if_neg (by simp [hbad])))

end Sys2Proof.Proofs
end

section
/-!
PROOFS. The commands of the shaft bus (11 R340 to R346, R363 to R365, R380).
-/
namespace Sys2Proof.Proofs

open Sys2Proof Sys2Proof.Machine

theorem exec_objBind (tag port obj kind fmt ident fflags : Nat) (s : State) :
    exec (.objBind tag port obj kind fmt ident fflags) s = execObjBind tag port obj kind fmt ident fflags s := rfl
theorem exec_objUnbind (tag port obj : Nat) (s : State) :
    exec (.objUnbind tag port obj) s = execObjUnbind tag port obj s := rfl
theorem exec_objRead (tag port obj : Nat) (s : State) :
    exec (.objRead tag port obj) s = execObjRead tag port obj s := rfl
theorem exec_objSend (tag port obj : Nat) (data : List Nat) (s : State) :
    exec (.objSend tag port obj data) s = execObjSend tag port obj data s := rfl
theorem exec_objCancel (tag port obj : Nat) (sof : Bool) (s : State) :
    exec (.objCancel tag port obj sof) s = execObjCancel tag port obj sof s := rfl
theorem exec_busSleep (tag port : Nat) (f : SleepFlags) (s : State) :
    exec (.busSleep tag port f) s = execBusSleep tag port f s := rfl
theorem exec_busWakeCommand (tag port flags : Nat) (s : State) :
    exec (.busWakeCommand tag port flags) s = execBusWakeCommand tag port flags s := rfl
theorem exec_busConfig (tag port flags : Nat) (entries : List SetEntry) (s : State) :
    exec (.busConfig tag port flags entries) s = execBusConfig tag port flags entries s := rfl

/-- What becomes of a frame to be sent, by the object (11 R364). -/
def objSent (m : Mach) (p : Ab) (d : List Nat) : Option ObjRec → Mach × Nat × List Nat
  | none => refuse m stWRONG_MODE
  | some o =>
    if o.kind != 2 || o.susp then refuse m stWRONG_MODE
    else if !bit o.fflags 0 && 8 < d.length then refuse m stBAD_PARAM
    else ok (m.setObj p (o.request d 1 m.time.frame))

/-- What becomes of a request to be withdrawn, and the result replied (11 R365). -/
def objCancelled (m : Mach) (p : Ab) (onBus : Bool) : Option ObjRec → Mach × Nat
  | none => (m, 2)
  | some o =>
    if o.queued.isSome then (m.setObj p { o with queued := none }, 0)
    else if o.pend.isNone then (m, 2)
    else if o.cancelled then (m, 1)
    else if onBus then (m.setObj p { o with cancelled := true }, 1)
    else (m.setObj p { o with pend := none, copies := 1 }, 0)

/-! The commands of an object, in the order of their checks. -/

section
variable {s : State} (tag : Nat) {port obj : Nat}

section
variable (k fm id ff : Nat) (hs : Serves s 0x51)
include hs

theorem answers_objBind_of_used (h : s.now.profHeld (abOf port) obj = true ∨ s.now.identUsed (abOf port) obj (fm == 1) id = true) :
    Answers (.objBind tag port obj k fm id ff) s 0x51 tag 0x13 [] s.now := by
  refine answers_of_serves hs (exec_objBind ..) ?_
  dsimp only
  rw [if_pos (c := (s.now.profHeld (abOf port) obj || s.now.identUsed (abOf port) obj (fm == 1) id) = true) (by simpa using h), ite_self]
  rfl

theorem answers_objBind_of_absent (h : 2 ≤ port ∨ 512 ≤ obj) :
    Answers (.objBind tag port obj k fm id ff) s 0x51 tag 0x13 [] s.now :=
  answers_of_serves hs (exec_objBind ..) (if_pos (by simp only [Bool.or_eq_true, decide_eq_true_eq]; tauto))

theorem answers_objBind (hport : port < 2) (hobj : obj < 512) (hlow : 1 ≤ k) (hkind : k ≤ 3) (hfm : fm ≤ 1) (hff : ff ≤ 3)
    (hid : identOk fm id = true) (hprof : s.now.profHeld (abOf port) obj = false)
    (hused : s.now.identUsed (abOf port) obj (fm == 1) id = false) :
    let m1 := s.now.onPort (abOf port) fun x => { x with
      objs := putObj x.objs { ObjRec.reset with num := obj, kind := k, ext := fm == 1, ident := id, fflags := ff } }
    Answers (.objBind tag port obj k fm id ff) s 0x51 tag 0x00 []
      (m1.endIf (0x0200 + (abOf port).idx) 0xA4 (!(m1.prt (abOf port)).clashed)) := by
  have hparams : ¬ (decide (2 ≤ port) || decide (512 ≤ obj) || k == 0 || decide (3 < k) || decide (1 < fm) || decide (3 < ff)
      || !identOk fm id) = true := by
    simp only [hid, Bool.or_eq_true, decide_eq_true_eq, beq_iff_eq, Bool.not_true, Bool.false_eq_true, or_false]
    omega
  exact answers_of_serves hs (exec_objBind ..) ((if_neg hparams).trans (if_neg (by simp [hprof, hused])))

end

section
variable (hs : Serves s 0x51)
include hs

theorem answers_objUnbind_of_bad (h : 2 ≤ port ∨ 512 ≤ obj ∨ s.now.profHeld (abOf port) obj = true) :
    Answers (.objUnbind tag port obj) s 0x51 tag 0x13 [] s.now :=
  answers_of_serves hs (exec_objUnbind ..) (if_pos (by simpa [or_assoc] using h))

theorem answers_objRead_of_bad (h : 2 ≤ port ∨ 512 ≤ obj ∨ s.now.profHeld (abOf port) obj = true) :
    Answers (.objRead tag port obj) s 0x51 tag 0x13 [] s.now :=
  answers_of_serves hs (exec_objRead ..) (if_pos (by simpa [or_assoc] using h))

theorem answers_objRead_of_unbound (h : s.now.objAt (abOf port) obj = none) :
    Answers (.objRead tag port obj) s 0x51 tag 0x13 [] s.now := by
  refine answers_of_serves hs (exec_objRead ..) ?_
  dsimp only
  rw [h]
  exact ite_self _

variable (hport : port < 2) (hobj : obj < 512) (hprof : s.now.profHeld (abOf port) obj = false)
include hport hobj hprof

theorem answers_objUnbind : let m1 := s.now.onPort (abOf port) fun x => { x with
      objs := x.objs.filter fun (o : ObjRec) => o.num != obj }
    Answers (.objUnbind tag port obj) s 0x51 tag 0x00 []
      (m1.endIf (0x0200 + (abOf port).idx) 0xA4 (!(m1.prt (abOf port)).clashed)) :=
  answers_of_serves hs (exec_objUnbind ..) (if_neg (by simp [hport, hobj, hprof]))

theorem answers_objRead {o : ObjRec} (h : s.now.objAt (abOf port) obj = some o) :
    Answers (.objRead tag port obj) s 0x51 tag 0x00 (objReply o)
      (if o.kind = 1 then s.now.setObj (abOf port) { o with taken := true, lost := false } else s.now) := by
  refine answers_of_serves hs (exec_objRead ..) ?_
  dsimp only
  rw [if_neg (by simp [hport, hobj, hprof]), h]
  dsimp only
  simp only [beq_iff_eq]
  rfl

end

section
variable {d : List Nat} (hs : Serves s 0x52)
include hs

theorem answers_objSend_of_bad (h : 2 ≤ port ∨ 512 ≤ obj ∨ s.now.profHeld (abOf port) obj = true) :
    Answers (.objSend tag port obj d) s 0x52 tag 0x13 [] s.now :=
  answers_of_serves hs (exec_objSend ..) (if_pos (by simp only [Bool.or_eq_true, decide_eq_true_eq]; tauto))

variable (hport : port < 2) (hobj : obj < 512) (hlen : fdLength d.length = true) (hprof : s.now.profHeld (abOf port) obj = false)
include hport hobj hlen hprof

/-- Past the checks of its operands, the frame is judged by the object (`objSent`). -/
theorem answers_objSend {x : Option ObjRec} {st : Nat} {m : Mach} (hx : s.now.objAt (abOf port) obj = x)
    (h : objSent s.now (abOf port) d x = (m, st, [])) : Answers (.objSend tag port obj d) s 0x52 tag st [] m := by
  refine answers_of_serves hs (exec_objSend ..) ((if_neg (by simp [hport, hobj, hlen, hprof])).trans ?_)
  rw [hx]
  cases x <;> exact h

end

section
variable {b : Bool} (hs : Serves s 0x53)
include hs

theorem answers_objCancel_of_absent (h : 2 ≤ port ∨ 512 ≤ obj) : Answers (.objCancel tag port obj b) s 0x53 tag 0x13 [] s.now :=
  answers_of_serves hs (exec_objCancel ..) (if_pos (by simpa using h))

theorem answers_objCancel {x : Option ObjRec} {r : Nat} {m : Mach} (hport : port < 2) (hobj : obj < 512)
    (hx : s.now.objAt (abOf port) obj = x) (h : objCancelled s.now (abOf port) b x = (m, r)) :
    Answers (.objCancel tag port obj b) s 0x53 tag 0x00 [r] m := by
  refine answers_of_serves hs (exec_objCancel ..) ((if_neg (by simp [hport, hobj])).trans ?_)
  rw [hx, show m = (objCancelled s.now (abOf port) b x).1 by rw [h], show r = (objCancelled s.now (abOf port) b x).2 by rw [h]]
  cases x with
  | none => rfl
  | some o =>
    dsimp only [objCancelled]
    split
    · rfl
    · split
      · rfl
      · split
        · rfl
        · split <;> rfl

end

end

section
variable {m : Mach} {p : Ab} {d : List Nat} {o : ObjRec}

theorem objSent_of_wrongMode (h : o.kind ≠ 2 ∨ o.susp = true) : objSent m p d (some o) = (m, 0x22, []) :=
  if_pos (by simpa using h)

variable (hkind : o.kind = 2) (hsusp : o.susp = false)
include hkind hsusp

theorem objSent_of_fits (h : bit o.fflags 0 = true ∨ d.length ≤ 8) :
    objSent m p d (some o) = (m.setObj p (o.request d 1 m.time.frame), 0x00, []) := by
  have hfits : ¬ (!bit o.fflags 0 && decide (8 < d.length)) = true := by
    simpa [imp_iff_not_or] using h
  rw [objSent, if_neg (by simp [hkind, hsusp]), if_neg hfits]
  rfl

theorem objSent_of_tooLong (hfd : bit o.fflags 0 = false) (hlen : 8 < d.length) : objSent m p d (some o) = (m, 0x13, []) := by
  rw [objSent, if_neg (by simp [hkind, hsusp]), if_pos (by simp [hfd, hlen])]
  rfl

end

section
variable {m : Mach} {p : Ab} {b : Bool} {o : ObjRec}

theorem objCancelled_of_queued (h : o.queued.isSome = true) :
    objCancelled m p b (some o) = (m.setObj p { o with queued := none }, 0) := if_pos h

variable (hq : o.queued = none)
include hq

theorem objCancelled_of_idle (h : o.pend = none) : objCancelled m p b (some o) = (m, 2) := by
  rw [objCancelled, if_neg (by simp [hq]), if_pos (by simp [h])]

variable (hpend : o.pend.isSome = true)
include hpend

theorem objCancelled_of_cancelled (h : o.cancelled = true) : objCancelled m p b (some o) = (m, 1) := by
  rw [objCancelled, if_neg (by simp [hq]), if_neg (by simpa using Option.isSome_iff_ne_none.mp hpend), if_pos h]

variable (hcancelled : o.cancelled = false)
include hcancelled

theorem objCancelled_of_onBus (h : b = true) : objCancelled m p b (some o) = (m.setObj p { o with cancelled := true }, 1) := by
  rw [objCancelled, if_neg (by simp [hq]), if_neg (by simpa using Option.isSome_iff_ne_none.mp hpend),
    if_neg (by simp [hcancelled]), if_pos h]

theorem objCancelled_of_waiting (h : b = false) :
    objCancelled m p b (some o) = (m.setObj p { o with pend := none, copies := 1 }, 0) := by
  rw [objCancelled, if_neg (by simp [hq]), if_neg (by simpa using Option.isSome_iff_ne_none.mp hpend),
    if_neg (by simp [hcancelled]), if_neg (by simp [h])]

end

/-! BUS_SLEEP, its wake, and BUS_CONFIG. -/

section
variable {s : State} (tag : Nat) {port f : Nat} {w : Option Nat}

section
variable (hs : Serves s 0x55)
include hs

theorem answers_busSleep_of_badFlags (h : 2 ≤ port ∨ bit f 0 = false ∨ bit f 1 = true) :
    Answers (.busSleep tag port ⟨f, w⟩) s 0x55 tag 0x13 [] s.now :=
  answers_of_serves hs (exec_busSleep ..) (if_pos (by simpa [or_assoc] using h))

theorem answers_busWakeCommand_of_badFlags (h : 2 ≤ port ∨ bit f 1 = false ∨ bit f 0 = true) :
    Answers (.busWakeCommand tag port f) s 0x55 tag 0x13 [] s.now :=
  answers_of_serves hs (exec_busWakeCommand ..) (if_pos (by simpa [or_assoc] using h))

variable (hport : port < 2)
include hport

theorem answers_busWakeCommand (hsleep : bit f 0 = false) (hwake : bit f 1 = true) :
    Answers (.busWakeCommand tag port f) s 0x55 tag 0x00 [] (s.now.portWake (abOf port)) :=
  answers_of_serves hs (exec_busWakeCommand ..) (if_neg (by simp [hport, hsleep, hwake]))

variable (hsleep : bit f 0 = true) (hwake : bit f 1 = false)
include hsleep hwake

theorem answers_busSleep_of_refused (h : s.now.sleepRefused (abOf port) = true) :
    Answers (.busSleep tag port ⟨f, w⟩) s 0x55 tag 0x22 [] s.now :=
  answers_of_serves hs (exec_busSleep ..) ((if_neg (by simp [hport, hsleep, hwake])).trans (if_pos h))

theorem answers_busSleep (h : s.now.sleepRefused (abOf port) = false) :
    Answers (.busSleep tag port ⟨f, w⟩) s 0x55 tag 0x00 [] (s.now.portSleep (abOf port) w) :=
  answers_of_serves hs (exec_busSleep ..) ((if_neg (by simp [hport, hsleep, hwake])).trans (if_neg (by simp [h])))

end

/-- The ports that may not sleep (11 R380). -/
theorem sleepRefused_of_needed {m : Mach} {p : Ab}
    (h : (p = abOf (m.nat pLOCK_PORT) ∧ (m.nat pLOCK_SOURCE = 1 ∨ m.nat pLOCK_SOURCE = 2))
      ∨ (p = abOf (m.nat pDRV_PORT) ∧ m.still = false)) : m.sleepRefused p = true := by
  rw [Mach.sleepRefused, Bool.or_eq_true]
  refine h.imp (fun ⟨hp, hsource⟩ => ?_) fun ⟨hp, hstill⟩ => ?_
  · rcases hsource with hsource | hsource <;> simp [hp, hsource]
  · simp [hp, hstill, Mach.drvPort]

section
variable {es : List SetEntry} (hs : Serves s 0x50)
include hs

theorem answers_busConfig_of_absent (h : 2 ≤ port) : Answers (.busConfig tag port f es) s 0x50 tag 0x30 [] s.now :=
  answers_of_serves hs (exec_busConfig ..) (if_pos h)

variable (hport : port < 2)
include hport

/-- The entries are judged as UNIT_SET would, with the checks of chapter 11. -/
def busSet (m : Mach) (tag port : Nat) (es : List SetEntry) : Mach × Nat × List Nat :=
  m.setEntries (0x50, tag) (0x0200 + port) es fun m h e => m.busEntry h es e

theorem answers_busConfig (h : (busSet s.now tag port es).2.1 ≠ 0 ∨ bit f 0 = false ∨ (s.now.prt (abOf port)).off = false
      ∨ s.now.port (abOf port) pBUS_OFF_RECOVERY ≠ 1) :
    Answers (.busConfig tag port f es) s 0x50 tag (busSet s.now tag port es).2.1 (busSet s.now tag port es).2.2
      (busSet s.now tag port es).1 := by
  have hkeep : ¬ ((busSet s.now tag port es).2.1 == stOK && bit f 0 && (s.now.prt (abOf port)).off
      && s.now.port (abOf port) pBUS_OFF_RECOVERY == 1) = true := by
    simp only [Bool.and_eq_true, beq_iff_eq, not_and_or, Bool.not_eq_true, or_assoc]
    exact h
  exact answers_of_serves hs (exec_busConfig ..) ((if_neg hport.not_ge).trans (if_neg hkeep))

theorem answers_busConfig_of_recovery (hset : (busSet s.now tag port es).2.1 = 0) (hflag : bit f 0 = true)
    (hoff : (s.now.prt (abOf port)).off = true) (hmanual : s.now.port (abOf port) pBUS_OFF_RECOVERY = 1) :
    Answers (.busConfig tag port f es) s 0x50 tag (busSet s.now tag port es).2.1 (busSet s.now tag port es).2.2
      ((busSet s.now tag port es).1.onPort (abOf port) fun x => { x with recovering := true }) := by
  have hbegin : ((busSet s.now tag port es).2.1 == stOK && bit f 0 && (s.now.prt (abOf port)).off
      && s.now.port (abOf port) pBUS_OFF_RECOVERY == 1) = true := by
    rw [hset, hflag, hoff, hmanual]
    rfl
  exact answers_of_serves hs (exec_busConfig ..) ((if_neg hport.not_ge).trans (if_pos hbegin))

end

end

/-- Settles O49: each command in the order of its checks. -/
theorem busCommandsAnswered : Obligations.BusCommandsAnswered := by
  unfold Obligations.BusCommandsAnswered
  refine ⟨⟨fun s tag port obj k fm id ff d b h => ?absent, fun s tag port obj k fm id ff d hport hobj hprof => ?held,
      fun s tag port obj k fm id ff hs hused => answers_objBind_of_used tag k fm id ff hs (.inr hused),
      fun s tag port obj k fm id ff hs => answers_objBind tag k fm id ff hs,
      fun s tag port obj hs => answers_objUnbind tag hs, fun s tag port obj o hs hport hobj hprof => answers_objRead tag hs hport hobj hprof,
      fun s tag port obj hs => answers_objRead_of_unbound tag hs,
      fun s tag port obj d hs hport hobj hlen hprof => ?send, fun s tag port obj b hs hport hobj => ?cancel⟩,
    fun s tag port w hs hport h => answers_busSleep_of_refused tag hs hport rfl rfl (sleepRefused_of_needed h),
    fun s tag port f w hs => ⟨answers_busSleep_of_badFlags tag hs, answers_busWakeCommand_of_badFlags tag hs⟩,
    fun s tag port f w hs => answers_busSleep tag hs, fun s tag port f hs => answers_busWakeCommand tag hs,
    fun s tag port f es hs => answers_busConfig_of_absent tag hs,
    fun s tag port f es hs hport => ⟨answers_busConfig tag hs hport, answers_busConfig_of_recovery tag hs hport⟩⟩
  case absent =>
    have hbad : 2 ≤ port ∨ 512 ≤ obj ∨ s.now.profHeld (abOf port) obj = true := by tauto
    exact ⟨fun hs => ⟨answers_objBind_of_absent tag k fm id ff hs h, answers_objUnbind_of_bad tag hs hbad,
      answers_objRead_of_bad tag hs hbad⟩, fun hs => answers_objSend_of_bad tag hs hbad,
      fun hs => answers_objCancel_of_absent tag hs h⟩
  case held =>
    have hbad : 2 ≤ port ∨ 512 ≤ obj ∨ s.now.profHeld (abOf port) obj = true := .inr (.inr hprof)
    exact ⟨fun hs => ⟨answers_objBind_of_used tag k fm id ff hs (.inl hprof), answers_objUnbind_of_bad tag hs hbad,
      answers_objRead_of_bad tag hs hbad⟩, fun hs => answers_objSend_of_bad tag hs hbad⟩
  case send =>
    have hanswers {x : Option ObjRec} {st : Nat} {m : Mach} :=
      answers_objSend (x := x) (st := st) (m := m) (d := d) tag hs hport hobj hlen hprof
    exact ⟨fun hx => hanswers hx rfl, fun o hx h => hanswers hx (objSent_of_wrongMode h),
      fun o hx hkind hsusp h => hanswers hx (objSent_of_fits hkind hsusp h),
      fun o hx hkind hsusp hfd hlong => hanswers hx (objSent_of_tooLong hkind hsusp hfd hlong)⟩
  case cancel =>
    have hanswers {x : Option ObjRec} {r : Nat} {m : Mach} := answers_objCancel (x := x) (r := r) (m := m) (b := b) tag hs hport hobj
    exact ⟨fun hx => hanswers hx rfl, fun o hx => ⟨fun hq => hanswers hx (objCancelled_of_queued hq),
      fun hq hpend hc => hanswers hx (objCancelled_of_cancelled hq hpend hc),
      fun hq hpend => hanswers hx (objCancelled_of_idle hq hpend),
      fun hq hpend hc hb => hanswers hx (objCancelled_of_onBus hq hpend hc hb),
      fun hq hpend hc hb => hanswers hx (objCancelled_of_waiting hq hpend hc hb)⟩⟩

end Sys2Proof.Proofs
end

section
/-!
PROOFS. What VIN, the reset input, the state save, rails and temperature do to the module (15 R474 to R483; 14 R442,
R462; 17 R512, R524).
-/
namespace Sys2Proof.Proofs

open Sys2Proof Sys2Proof.Machine

/-! What a flush, and the writing of records, leave of the supplies, of the port and of the lockout. -/

/-- What the beginning of a state save sets before it writes. -/
structure SaveView where
  power : PowerState
  hbsy : Bool
  prep : Option Reply
  fails : Nat
  lockout : Nat

def saveView (m : Mach) : SaveView := ⟨m.power, m.host.hbsy, m.host.prep, m.cab.fails, m.cab.lockout⟩

theorem saveView_ite (c : Prop) [Decidable c] (m n : Mach) : saveView (if c then m else n) = if c then saveView m else saveView n :=
  apply_ite ..

@[simp] theorem saveView_post (m : Mach) (kind detail unit code data : Nat) :
    saveView (m.post kind detail unit code data) = saveView m := by
  rw [Mach.post, saveView_ite]
  exact ite_self _

@[simp] theorem saveView_endFault (m : Mach) (unit code : Nat) : saveView (m.endFault unit code) = saveView m := by
  rw [Mach.endFault, saveView_ite, saveView_post]
  exact ite_self _

@[simp] theorem saveView_endIf (m : Mach) (unit code : Nat) (c : Bool) : saveView (m.endIf unit code c) = saveView m := by
  rw [Mach.endIf, saveView_ite, saveView_endFault, ite_self]

@[simp] theorem saveView_onDrawer (m : Mach) (d : Nat) (f : DrawerState → DrawerState) :
    saveView (m.onDrawer d f) = saveView m := rfl

@[simp] theorem saveView_meter (m : Mach) (x : MeterState) : saveView { m with meter := x } = saveView m := rfl

@[simp] theorem saveView_rcd (m : Mach) (x : RecorderState) : saveView { m with rcd := x } = saveView m := rfl

@[simp] theorem saveView_count (m : Mach) (d arr idx : Nat) : saveView (m.count d arr idx) = saveView m := by
  rw [Mach.count, Mach.countN, Mach.drawer, saveView_ite]
  exact ite_self _

@[simp] theorem saveView_ringPush (m : Mach) (d : Nat) (second : Bool) (payload : List Nat) :
    saveView (m.ringPush d second payload) = saveView m := by
  rw [Mach.ringPush, saveView_ite, saveView_ite]
  exact (congrArg _ (ite_self _)).trans (ite_self _)

@[simp] theorem saveView_recordRaise (m : Mach) (unit code cls c1 c2 : Nat) :
    saveView (m.recordRaise unit code cls c1 c2) = saveView m := by
  simp only [Mach.recordRaise, saveView_ringPush, saveView_ite, saveView_count, saveView_post, ite_self]

@[simp] theorem saveView_react (m : Mach) (cls : Nat) : saveView (m.react cls) = saveView m := by
  rw [Mach.react, saveView_ite, saveView_ite, saveView_ite]
  repeat' split
  all_goals rfl

@[simp] theorem saveView_holdFault (m : Mach) (unit code cls : Nat) : saveView (m.holdFault unit code cls) = saveView m := by
  dsimp only [Mach.holdFault]
  rw [saveView_ite, saveView_react, ite_self, saveView_ite]
  exact ite_self _

@[simp] theorem saveView_dropNoted (m : Mach) (full : Bool) : saveView (m.dropNoted full) = saveView m := by
  rw [Mach.dropNoted, saveView_ite, saveView_holdFault, saveView_recordRaise, ite_self]

@[simp] theorem saveView_ringRecord (m : Mach) (d : Nat) (second : Bool) (payload : List Nat) :
    saveView (m.ringRecord d second payload) = saveView m := by
  rw [Mach.ringRecord, saveView_dropNoted, saveView_ringPush]

/-- What each step keeps of the view, a run of them keeps. -/
theorem saveView_each {α : Type} {f : Mach → α → Mach} (h : ∀ m x, saveView (f m x) = saveView m) (m : Mach) (l : List α) :
    saveView (m.each l f) = saveView m := foldl_keeps saveView h l m

@[simp] theorem saveView_writeRecord (m : Mach) (a : Nat) (p : List Nat) (seq : Nat) :
    saveView (m.writeRecord a p seq) = saveView m := by
  simp only [saveView, Mach.writeRecord, Mach.poke]

@[simp] theorem saveView_verified (m : Mach) : saveView (m.verified true) = saveView m := by
  rw [Mach.verified, if_pos rfl, saveView_endIf]
  rfl

@[simp] theorem saveView_rewritten (m : Mach) (a : Nat) : saveView (m.rewritten a) = saveView m := by
  dsimp only [Mach.rewritten]
  rw [saveView_ite, saveView_endIf]
  exact ite_self _

@[simp] theorem saveView_putRec (m : Mach) (d i : Nat) (payload : List Nat) : saveView (m.putRec [] d i payload) = saveView m := by
  dsimp only [Mach.putRec]
  rw [if_neg (by simp), saveView_verified, saveView_rewritten, saveView_writeRecord]
  rfl

@[simp] theorem saveView_putVoid (m : Mach) (d i : Nat) : saveView (m.putVoid [] d i) = saveView m := by
  dsimp only [Mach.putVoid]
  rw [if_neg (by simp), saveView_verified, saveView_rewritten]
  rfl

@[simp] theorem saveView_putEntry (m : Mach) (e : RingEntry) : saveView (m.putEntry [] e) = saveView m := by
  rw [Mach.putEntry]
  split
  · rfl
  · rw [saveView_onDrawer, saveView_putRec]

@[simp] theorem saveView_flushDrawer (m : Mach) (d : Nat) : saveView (m.flushDrawer [] d) = saveView m := by
  dsimp only [Mach.flushDrawer]
  rw [saveView_ite, saveView_onDrawer, saveView_each fun n e => saveView_putEntry n e,
    saveView_each fun n i => saveView_putVoid n d i, saveView_each fun n i => saveView_putRec n d i _]
  exact ite_self _

@[simp] theorem saveView_clearWritten (m : Mach) (d : Nat) : saveView (m.clearWritten d) = saveView m := by
  dsimp only [Mach.clearWritten]
  rw [saveView_ite, Mach.completed, saveView_post, saveView_post, saveView_onDrawer, ite_self]

@[simp] theorem saveView_flush (m : Mach) : saveView (m.flush []) = saveView m := by
  dsimp only [Mach.flush]
  have hdrawers (ds : List Nat) : saveView (m.each ds fun x d => x.flushDrawer [] d) = saveView m :=
    saveView_each (fun n d => saveView_flushDrawer n d) m ds
  have hmeta (c : Prop) [Decidable c] (ds : List Nat) (n : Mach) (gen : Nat) : saveView (if c then n else
      (n.each (ds ++ [15]) fun x d => x.putRec [] 15 d ([4, 0] ++ le 2 d ++ (x.drawerAt d).meta (x.drawerAt d).gen)).onDrawer 15
        fun y => { y with gen := gen }) = saveView n := by
    rw [saveView_ite, saveView_onDrawer, saveView_each fun n d => saveView_putRec n 15 d _, ite_self]
  rw [saveView_ite, saveView_endFault, saveView_endFault, ite_self, saveView_each saveView_clearWritten]
  exact (hmeta ..).trans (hdrawers _)

@[simp] theorem saveView_fileEvent (m : Mach) (e : SupplyEvt) (truncated : Bool) : saveView (m.fileEvent e truncated) = saveView m := by
  dsimp only [Mach.fileEvent]
  rw [saveView_ringRecord, saveView_post]
  rfl

@[simp] theorem saveView_saveMeter (m : Mach) (kind : Nat) : saveView (m.saveMeter kind) = saveView m := by
  dsimp only [Mach.saveMeter]
  rw [saveView_meter, saveView_each fun n i => saveView_writeRecord n _ _ _]

@[simp] theorem saveView_meterPowerFail (m : Mach) : saveView m.meterPowerFail = saveView m := by
  dsimp only [Mach.meterPowerFail]
  rw [saveView_saveMeter, Mach.truncateEvents, saveView_meter, saveView_each fun n e => saveView_fileEvent n e true,
    saveView_writeRecord]

@[simp] theorem saveView_writePower (m : Mach) (done : Bool) (us : Nat) : saveView (m.writePower done us) = saveView m :=
  saveView_writeRecord ..

@[simp] theorem saveView_writeSnapshot (m : Mach) (p : ProcId) : saveView (m.writeSnapshot p) = saveView m := by
  simp only [saveView, Mach.writeSnapshot, Mach.writeRecord, Mach.poke]

@[simp] theorem saveView_writeSnapshots (m : Mach) : saveView m.writeSnapshots = saveView m :=
  saveView_each saveView_writeSnapshot m _

@[simp] theorem saveView_saveCommit (m : Mach) : saveView m.saveCommit = saveView m := by
  rw [Mach.saveCommit]
  split
  · rw [saveView_ite]
    exact ite_self _
  · rfl

/-! The beginning of a state save (15 R477). -/

/-- The save has begun, with what the recorder and the meter write of it; the snapshots and the lockout are still to come. -/
def saveFlushed (m : Mach) (kind : Nat) : Mach :=
  let w := (({ m with
    power.save := some m.time.frame
    power.saveDone := false
    power.saveKind := kind
    power.warnAt := m.ts
    power.saveMin := m.power.vin
    power.waking := none
    host.hbsy := true
    host.prep := none
    host.taken := none } : Mach).writePower false 0).meterPowerFail
  if w.recording then w.flush [] else w

section
variable (m : Mach) (kind : Nat)

theorem saveView_saveFlushed : saveView (saveFlushed m kind) = ⟨{ m.power with
    save := some m.time.frame
    saveDone := false
    saveKind := kind
    warnAt := m.ts
    saveMin := m.power.vin
    waking := none }, true, none, m.cab.fails, m.cab.lockout⟩ := by
  dsimp only [saveFlushed]
  rw [saveView_ite, saveView_flush, ite_self, saveView_meterPowerFail, saveView_writePower]
  rfl

theorem saveCommit_rcd : m.saveCommit.rcd = m.rcd := by
  rw [Mach.saveCommit]
  split
  · rw [ite_mach_rcd]
    exact ite_self _
  · rfl

theorem writeSnapshot_rcd (p : ProcId) : (m.writeSnapshot p).rcd = m.rcd := by
  simp only [Mach.writeSnapshot, Mach.writeRecord, Mach.poke]

theorem writeSnapshots_rcd : m.writeSnapshots.rcd = m.rcd := foldl_keeps Mach.rcd writeSnapshot_rcd _ _

/-- The module of the save, before the lockout is noted. -/
def saveWritten (m : Mach) (kind : Nat) : Mach :=
  (({ saveFlushed m kind with rcd.frozen := true } : Mach).writeSnapshots).saveCommit

theorem saveView_saveWritten : saveView (saveWritten m kind) = saveView (saveFlushed m kind) :=
  (saveView_saveCommit _).trans ((saveView_writeSnapshots _).trans (saveView_rcd ..))

theorem saveWritten_frozen : (saveWritten m kind).rcd.frozen = true :=
  congrArg RecorderState.frozen ((saveCommit_rcd _).trans (writeSnapshots_rcd _))

theorem beginSave_eq : m.beginSave kind =
    (saveWritten m kind).saveLock (saveWritten m kind).cab.fails (saveWritten m kind).lockoutLeft := rfl

@[simp] theorem saveLock_locked (fails left : Nat) (x : Ab) : (m.saveLock fails left).cab.locked.get x = (fails, left) := by
  cases x <;> rfl

theorem beginSave_facts : (m.beginSave kind).power.save = some m.time.frame ∧ (m.beginSave kind).power.saveKind = kind
    ∧ (m.beginSave kind).power.saveDone = false ∧ (m.beginSave kind).rcd.frozen = true ∧ (m.beginSave kind).host.hbsy = true
    ∧ (m.beginSave kind).host.prep = none
    ∧ ∀ x : Ab, (m.beginSave kind).cab.locked.get x = (m.cab.fails, (m.cab.lockout + 3999) / 4000) := by
  have hview := (saveView_saveWritten m kind).trans (saveView_saveFlushed m kind)
  rw [beginSave_eq]
  refine ⟨congrArg (fun v => v.power.save) hview, congrArg (fun v => v.power.saveKind) hview,
    congrArg (fun v => v.power.saveDone) hview, saveWritten_frozen m kind, congrArg SaveView.hbsy hview,
    congrArg SaveView.prep hview, fun x => ?_⟩
  rw [saveLock_locked, Mach.lockoutLeft]
  exact congrArg (fun v : SaveView => (v.fails, (v.lockout + 3999) / 4000)) hview

end

/-! A restart (17 R524). -/

section
variable (m : Mach)

/-- An entry of the log leaves the security as it was, and of the cabinet the copies, the credentials and the lockout. -/
theorem logEvent_kept (kind slot unit : Nat) : (m.logEvent kind slot unit).sec = m.sec
    ∧ (m.logEvent kind slot unit).cab.copies = m.cab.copies ∧ (m.logEvent kind slot unit).cab.creds = m.cab.creds
    ∧ (m.logEvent kind slot unit).cab.locked = m.cab.locked := by
  simp only [Mach.logEvent, Mach.logAppend, Mach.poke, and_self]

theorem logEvent_head (kind slot unit : Nat) : (m.logEvent kind slot unit).cab.head = m.cab.head + 1 := by
  simp only [Mach.logEvent, Mach.logAppend, Mach.poke]

theorem benchesLost_kept : m.benchesLost.sec = m.sec ∧ m.benchesLost.cab.copies = m.cab.copies ∧ m.benchesLost.cab.creds = m.cab.creds
    ∧ m.benchesLost.cab.locked = m.cab.locked :=
  ⟨foldl_keeps Mach.sec (fun n _ => (logEvent_kept n ..).1) _ _,
    foldl_keeps (fun n : Mach => n.cab.copies) (fun n _ => (logEvent_kept n ..).2.1) _ _,
    foldl_keeps (fun n : Mach => n.cab.creds) (fun n _ => (logEvent_kept n ..).2.2.1) _ _,
    foldl_keeps (fun n : Mach => n.cab.locked) (fun n _ => (logEvent_kept n ..).2.2.2) _ _⟩

/-- Where each step appends one entry to the log, a run of them appends as many. -/
theorem head_each {α : Type} {f : Mach → α → Mach} (h : ∀ m x, (f m x).cab.head = m.cab.head + 1) (l : List α) (m : Mach) :
    (m.each l f).cab.head = m.cab.head + l.length := by
  induction l generalizing m with
  | nil => rfl
  | cons x l ih =>
    have hrest := ih (f m x)
    rw [h] at hrest
    rw [List.length_cons, Nat.add_comm l.length, ← Nat.add_assoc]
    exact hrest

theorem benchesLost_head :
    m.benchesLost.cab.head = m.cab.head + (m.link.benches.filter fun (x : BenchRec) => x.due || x.on).length :=
  head_each (fun n _ => logEvent_head n _ _ _) _ m

end

/-! The end of a state save (15 R478). -/

/-- The snapshots, the lockout and the duration of the save are written, and the door gates are off. -/
def saveEndWritten (m : Mach) (us : Nat) : Mach :=
  (m.writeSnapshots.saveLock m.cab.fails m.lockoutLeft).outputsReset.writePower true us

/-- The save is over. -/
def saveEnded (m : Mach) (us : Nat) : Mach :=
  { (saveEndWritten m us).endFault 0 0x03 with
    power.saveDone := true
    power.saveDur := us
    power.saveVin := m.power.saveMin }

theorem exec_stateSaveComplete (us : Nat) (s : State) : exec (.stateSaveComplete us) s =
    onWhen s (s.now.power.save.isSome && !s.now.power.saveDone) fun m =>
      if (saveEnded m us).power.saveKind == 1 then { saveEnded m us with power.on := false }
      else if (saveEnded m us).power.saveKind == 0 && decide ((saveEnded m us).power.vin < 3200) then (saveEnded m us).turnOff
      else saveEnded m us := rfl

theorem post_faults (m : Mach) (kind detail unit code data : Nat) : (m.post kind detail unit code data).faults = m.faults := by
  rw [Mach.post]
  split <;> rfl

theorem inForce_endFault (m : Mach) (unit code : Nat) : (m.endFault unit code).inForce unit code = false := by
  rw [Mach.endFault]
  split
  · rw [Mach.inForce, post_faults, List.any_eq_false]
    intro f hf
    obtain ⟨-, hother⟩ := List.mem_filter.mp hf
    simpa [imp_iff_not_or] using hother
  case isFalse h => simpa using h

section
variable (m : Mach) (us : Nat)

theorem writeSnapshot_kept (p : ProcId) : (m.writeSnapshot p).doors = m.doors ∧ (m.writeSnapshot p).time = m.time := by
  simp only [Mach.writeSnapshot, Mach.writeRecord, Mach.poke, and_self]

theorem writeSnapshots_doors : m.writeSnapshots.doors = m.doors := foldl_keeps Mach.doors (fun n p => (writeSnapshot_kept n p).1) _ _

theorem writeSnapshots_time : m.writeSnapshots.time = m.time := foldl_keeps Mach.time (fun n p => (writeSnapshot_kept n p).2) _ _

theorem saveView_outputsReset : saveView m.outputsReset = saveView m := rfl

theorem saveView_saveLock (fails left : Nat) : saveView (m.saveLock fails left) = saveView m := rfl

theorem power_of_saveView {m n : Mach} (h : saveView m = saveView n) : m.power = n.power := congrArg SaveView.power h

theorem saveEndWritten_power : (saveEndWritten m us).power = m.power := by
  refine power_of_saveView ?_
  rw [saveEndWritten, saveView_writePower, saveView_outputsReset, saveView_saveLock, saveView_writeSnapshots]

theorem writePower_cab (done : Bool) : (m.writePower done us).cab = m.cab := by
  simp only [Mach.writePower, Mach.writeRecord, Mach.poke]

theorem outputsReset_cab : m.outputsReset.cab = m.cab := rfl

theorem saveEndWritten_locked (x : Ab) : (saveEndWritten m us).cab.locked.get x = (m.cab.fails, (m.cab.lockout + 3999) / 4000) := by
  rw [saveEndWritten, writePower_cab, outputsReset_cab, saveLock_locked, Mach.lockoutLeft]

theorem saveEndWritten_doors : (saveEndWritten m us).doors = m.doors.map fun _ d => d.gatesOff m.time.frame := by
  simp only [saveEndWritten, Mach.writePower, Mach.writeRecord, Mach.poke, Mach.outputsReset, Mach.saveLock, writeSnapshots_doors,
    writeSnapshots_time]

theorem saveEnded_power : (saveEnded m us).power = { m.power with saveDone := true, saveDur := us, saveVin := m.power.saveMin } := by
  have hpower : ((saveEndWritten m us).endFault 0 0x03).power = m.power :=
    (endFault_changesOnly _ _ _ .power (by decide)).symm.trans (saveEndWritten_power m us)
  rw [saveEnded, ← hpower]

theorem saveEnded_locked (x : Ab) : (saveEnded m us).cab.locked.get x = (m.cab.fails, (m.cab.lockout + 3999) / 4000) := by
  have hcab : (saveEndWritten m us).cab = ((saveEndWritten m us).endFault 0 0x03).cab := endFault_changesOnly _ _ _ .cab (by decide)
  rw [← saveEndWritten_locked m us x, hcab]
  rfl

theorem saveEnded_doors : (saveEnded m us).doors = m.doors.map fun _ d => d.gatesOff m.time.frame :=
  (endFault_doors ..).trans (saveEndWritten_doors m us)

theorem saveEnded_inForce : (saveEnded m us).inForce 0 0x03 = false := inForce_endFault (saveEndWritten m us) 0 0x03

end

/-! The events of the supplies, in the order of the statement. -/

theorem exec_vinGood (vin ms : Nat) (s : State) : exec (.vinGood vin ms) s = execVinGood vin ms s := rfl
theorem exec_powerFailWarning (vin : Nat) (s : State) :
    exec (.powerFailWarning vin) s = execPowerFailWarning vin s := rfl
theorem exec_convertersOff (vin : Nat) (s : State) : exec (.convertersOff vin) s = execConvertersOff vin s := rfl
theorem exec_vinLow (vin ms : Nat) (s : State) : exec (.vinLow vin ms) s = execVinLow vin ms s := rfl
theorem exec_vinHigh (vin : Nat) (s : State) : exec (.vinHigh vin) s = execVinHigh vin s := rfl
theorem exec_vinOvervolt (vin ms : Nat) (s : State) : exec (.vinOvervolt vin ms) s = execVinOvervolt vin ms s := rfl
theorem exec_vinFaultEnd (vin ms : Nat) (s : State) : exec (.vinFaultEnd vin ms) s = execVinFaultEnd vin ms s := rfl
theorem exec_resetModule (tag : Nat) (s : State) : exec (.resetModule tag) s = execResetModule tag s := rfl
theorem exec_railFault (bad : Nat) (s : State) : exec (.railFault bad) s = execRailFault bad s := rfl
theorem exec_resetN (us : Nat) (s : State) : exec (.resetN us) s = execResetN us s := rfl
theorem exec_restartAfterSave (vin ms : Nat) (s : State) : exec (.restartAfterSave vin ms) s =
    onWhen s (s.now.power.saveDone && (if s.now.power.saveKind == 2 then s.now.host.resetGo || decide (100 ≤ ms)
      else decide (3400 ≤ vin) && decide (vin ≤ 7500) && decide ((if s.now.power.saveKind == 1 then 1000 else 10) ≤ ms))) fun m =>
      m.restart.begin := rfl
theorem exec_resetNRelease (s : State) : exec .resetNRelease s = onWhen s s.now.power.resetHeld fun m =>
    if m.power.on then ({ m with power.resetHeld := false } : Mach).begin else { m with power.resetHeld := false } := rfl
theorem exec_logicTempThreshold (temp : Int) (s : State) : exec (.logicTempThreshold temp) s = onWhen s s.now.powered fun m =>
    if (if Config.partX then 1200 else 1050 : Int) ≤ temp then m.raise 0 0x07 3
    else m.endIf 0 0x07 (decide (temp < (if Config.partX then 1200 else 1050 : Int) - 100)) := rfl
theorem exec_sensorSupplyOff (out ms : Nat) (s : State) : exec (.sensorSupplyOff out ms) s =
    onWhen s (s.now.powered && decide (out < 3) && decide (10 ≤ ms) && s.now.supplied out) fun m =>
      if out == 0 then ({ m with power.sup := updAt m.power.sup out fun _ => (false, m.time.frame) } : Mach).encoderLost
      else { m with power.sup := updAt m.power.sup out fun _ => (false, m.time.frame) } := rfl
theorem exec_sensorSupplyOn (out : Nat) (s : State) : exec (.sensorSupplyOn out) s =
    onWhen s (s.now.powered && !(nth s.now.power.sup out (true, 0)).1
        && decide (sF 1 ≤ s.now.since (nth s.now.power.sup out (true, 0)).2)) fun m =>
      { m with power.sup := updAt m.power.sup out fun _ => (true, m.time.frame) } := rfl

/-- Settles O58: each event where its condition holds, the beginning (`beginSave_facts`) and the end (`saveEnded`) of a
state save, and what a restart keeps (`benchesLost_kept`). -/
theorem supplyResetAndSaveEvents : Obligations.SupplyResetAndSaveEvents := by
  unfold Obligations.SupplyResetAndSaveEvents
  refine ⟨⟨fun s v ms hv hms hwait => ⟨fun hheld => ?start, fun hheld => ?held⟩, fun s v hv hpow hdone hsave => ?warning,
      fun s v hon hv => ?off, fun s v ms hpow hlow hhigh hms => ?low, fun s v hpow hv => ?high,
      fun s v ms hpow hv hforce hsave => ?overSave, fun s v ms hpow hv hforce hsave hkind => ?overKind,
      fun s v ms hpow hms => does_of_onWhen (exec_vinFaultEnd ..) (by simp [hpow, hms]) rfl,
      fun s v ms hdone hsupply => ?restart, fun m => ?kept⟩,
    ⟨fun s us hus => does_of_onWhen (exec_resetN ..) (decide_eq_true hus) rfl,
      fun s hheld => ⟨fun hon => ?release, fun hon => ?releaseOff⟩,
      fun s tag hs => ⟨fun hbusy => ?resetRefused, fun hstill hrun => ?reset⟩⟩,
    ⟨beginSave_facts, fun s us hsave hdone => ⟨fun hkind => ?ended, fun hkind => ?endedOff, fun hkind hvin => ?turnedOff⟩⟩,
    fun s n hpow hn => does_of_onWhen (exec_railFault ..) (by simp [hpow, hn]) rfl,
    fun s t hpow => ⟨fun hhot => ?hot, fun hcool => ?cool, fun hlow hhigh => ?between⟩,
    fun s o ms hpow ho hms hsup => ⟨fun hzero => ?encoderOff, fun hother => ?supplyOff⟩,
    fun s o hpow hoff hlate => ?supplyOn⟩
  case start => exact does_of_onWhen (exec_vinGood ..) (by simp [hv, hms, hwait]) (if_neg (by simp [hheld]))
  case held => exact does_of_onWhen (exec_vinGood ..) (by simp [hv, hms, hwait]) (if_pos hheld)
  case warning =>
    refine does_of_onWhen (exec_powerFailWarning ..) ?_ rfl
    simp only [hv, hpow, hdone, decide_true, Bool.not_false, Bool.true_and, Bool.or_eq_true, Option.isNone_iff_eq_none, beq_iff_eq]
    exact hsave
  case off =>
    refine does_of_onWhen (exec_convertersOff ..) ?_ rfl
    simp only [Bool.and_eq_true, Bool.or_eq_true, decide_eq_true_eq, Option.isNone_iff_eq_none]
    exact ⟨hon, hv⟩
  case low => exact does_of_onWhen (exec_vinLow ..) (by simp [hpow, hlow, hhigh, hms]) rfl
  case high => exact does_of_onWhen (exec_vinHigh ..) (by simp [hpow, hv]) rfl
  case overSave =>
    refine does_of_onWhen (exec_vinOvervolt ..) ?_ ?_
    · simpa only [hpow, hforce, Bool.not_false, Bool.and_true, Bool.true_and, Bool.or_eq_true, Bool.and_eq_true, decide_eq_true_eq] using hv
    · refine if_pos ?_
      simp only [Bool.or_eq_true, Bool.and_eq_true, Bool.not_eq_true', beq_iff_eq, Option.isNone_iff_eq_none]
      exact hsave
  case overKind =>
    refine does_of_onWhen (exec_vinOvervolt ..) ?_ ?_
    · simpa only [hpow, hforce, Bool.not_false, Bool.and_true, Bool.true_and, Bool.or_eq_true, Bool.and_eq_true, decide_eq_true_eq] using hv
    · refine if_neg ?_
      rw [Option.isSome_iff_ne_none] at hsave
      simp only [Bool.or_eq_true, Bool.and_eq_true, Bool.not_eq_true', beq_iff_eq, Option.isNone_iff_eq_none, hsave, false_or]
      rintro ⟨hk, hd⟩
      exact hkind.elim (fun h => h hk) fun h => absurd (hd.symm.trans h) (by decide)
  case restart =>
    refine does_of_onWhen (exec_restartAfterSave ..) ?_ rfl
    rw [hdone, Bool.true_and]
    rcases hsupply with ⟨hkind, hlow, hhigh, hms⟩ | ⟨hkind, hready⟩
    · rw [if_neg (by simpa using hkind)]
      simp only [beq_iff_eq, hlow, hhigh, hms, decide_true, Bool.and_self]
    · rw [if_pos (by simpa using hkind)]
      simpa using hready
  case kept =>
    obtain ⟨hsec, hcopies, hcreds, hlocked⟩ := benchesLost_kept m
    have hrollback : m.benchesLost.sec.rollback = m.sec.rollback := by rw [hsec]
    have hboots : m.benchesLost.sec.boots = m.sec.boots := by rw [hsec]
    exact ⟨rfl, hrollback, hboots, hcopies, hcreds, hlocked, benchesLost_head m, rfl, rfl,
      rfl, rfl⟩
  case release => exact does_of_onWhen (exec_resetNRelease ..) hheld (if_pos hon)
  case releaseOff => exact does_of_onWhen (exec_resetNRelease ..) hheld (if_neg (by simp [hon]))
  case resetRefused => exact answers_of_serves hs (exec_resetModule ..) (if_pos (by simpa using hbusy))
  case reset => exact answers_of_serves hs (exec_resetModule ..) (if_neg (by simp [hstill, hrun]))
  case ended =>
    have hpower := saveEnded_power s.now us
    have hon : ¬ ((saveEnded s.now us).power.saveKind == 1) = true := by
      rw [hpower, beq_iff_eq]
      dsimp only
      omega
    have hsupplied : ¬ ((saveEnded s.now us).power.saveKind == 0 && decide ((saveEnded s.now us).power.vin < 3200)) = true := by
      rw [hpower, Bool.and_eq_true, beq_iff_eq, decide_eq_true_iff]
      dsimp only
      omega
    exact ⟨_, does_of_onWhen (exec_stateSaveComplete ..) (by simp [hsave, hdone]) ((if_neg hon).trans (if_neg hsupplied)),
      congrArg PowerState.saveDone hpower, congrArg PowerState.saveDur hpower, saveEnded_locked s.now us, saveEnded_inForce ..,
      saveEnded_doors ..⟩
  case endedOff =>
    have hpower := saveEnded_power s.now us
    have hoff : ((saveEnded s.now us).power.saveKind == 1) = true := by
      rw [hpower]
      simpa using hkind
    exact ⟨_, does_of_onWhen (exec_stateSaveComplete ..) (by simp [hsave, hdone]) (if_pos hoff), rfl,
      congrArg PowerState.saveDone hpower⟩
  case turnedOff =>
    have hpower := saveEnded_power s.now us
    have hon : ¬ ((saveEnded s.now us).power.saveKind == 1) = true := by
      rw [hpower]
      simp [hkind]
    have hoff : ((saveEnded s.now us).power.saveKind == 0 && decide ((saveEnded s.now us).power.vin < 3200)) = true := by
      rw [hpower]
      simp [hkind, hvin]
    exact ⟨_, does_of_onWhen (exec_stateSaveComplete ..) (by simp [hsave, hdone]) ((if_neg hon).trans (if_pos hoff)), rfl, rfl⟩
  case hot => exact does_of_onWhen (exec_logicTempThreshold ..) hpow (if_pos hhot)
  case cool =>
    exact does_of_onWhen (exec_logicTempThreshold ..) hpow ((if_neg (by omega)).trans (if_pos (decide_eq_true hcool)))
  case between =>
    exact does_of_onWhen (exec_logicTempThreshold ..) hpow ((if_neg (by omega)).trans (if_neg (by simpa using hlow)))
  case encoderOff =>
    exact does_of_onWhen (exec_sensorSupplyOff ..) (by simp [hpow, ho, hms, Mach.supplied, hsup]) (if_pos (by simpa using hzero))
  case supplyOff =>
    exact does_of_onWhen (exec_sensorSupplyOff ..) (by simp [hpow, ho, hms, Mach.supplied, hsup]) (if_neg (by simpa using hother))
  case supplyOn =>
    exact does_of_onWhen (exec_sensorSupplyOn ..) (by simp [hpow, hoff, sF, Mach.since, hlate]) rfl

end Sys2Proof.Proofs
end

section
/-!
PROOFS. Attestation, firmware transfer, and the verification of images (16 R491 to R509).
-/
namespace Sys2Proof.Proofs

open Sys2Proof Sys2Proof.Machine

theorem exec_attest (tag : Nat) (nonce : List Nat) (s : State) :
    exec (.attest tag nonce) s = execAttest tag nonce s := rfl
theorem exec_attestComplete (s : State) : exec .attestComplete s = execAttestComplete s := rfl
theorem exec_certGet (tag index : Nat) (s : State) : exec (.certGet tag index) s = execCertGet tag index s := rfl
theorem exec_fwBegin (tag kind len : Nat) (s : State) :
    exec (.fwBegin tag kind len) s = execFwBegin tag kind len s := rfl
theorem exec_fwChunk (tag offset : Nat) (data : List Nat) (s : State) :
    exec (.fwChunk tag offset data) s = execFwChunk tag offset data s := rfl
theorem exec_fwCommit (tag : Nat) (s : State) : exec (.fwCommit tag) s = execFwCommit tag s := rfl
theorem exec_fwChunkWritten (s : State) : exec .fwChunkWritten s = execFwChunkWritten s := rfl
theorem exec_fwTransferTimeout (s : State) : exec .fwTransferTimeout s = execFwTransferTimeout s := rfl
theorem exec_fwVerified (s : State) : exec .fwVerified s = execFwVerified s := rfl
theorem exec_bootVerified (target : Nat) (cores : Three CoreBoot) (s : State) :
    exec (.bootVerified target cores) s = execBootVerified target cores s := rfl

/-! Attestation (16 R503, R504). -/

section
variable {s : State} (tag : Nat) {nonce : List Nat} (hs : Serves s 0x90)
include hs

/-- A report of the state read in this frame is under way. -/
def attestBegun (s : State) (tag : Nat) (nonce : List Nat) : Mach :=
  { s.now with
    sec.report := none
    sec.attest := some ⟨nonce, s.now.attestBody s.shown nonce, tag, s.now.time.frame⟩ }

theorem answers_attest_of_held {b : List Nat} (h : s.now.sec.report = some (nonce, b)) :
    Answers (.attest tag nonce) s 0x90 tag 0x00 b s.now := by
  refine answers_of_serves hs (exec_attest ..) ?_
  dsimp only
  rw [h]
  exact if_pos (beq_self_eq_true nonce)

theorem answers_attest_of_other {n b : List Nat} (h : s.now.sec.report = some (n, b)) (hn : n ≠ nonce) :
    Answers (.attest tag nonce) s 0x90 tag 0x01 [] (attestBegun s tag nonce) := by
  refine answers_of_serves hs (exec_attest ..) ?_
  dsimp only
  rw [h]
  exact if_neg (by simpa using hn)

variable (h : s.now.sec.report = none)
include h

theorem answers_attest_of_busy (hrun : s.now.sec.attest.isSome = true) : Answers (.attest tag nonce) s 0x90 tag 0x02 [] s.now := by
  refine answers_of_serves hs (exec_attest ..) ?_
  dsimp only
  rw [h]
  exact if_pos hrun

theorem answers_attest (hrun : s.now.sec.attest = none) :
    Answers (.attest tag nonce) s 0x90 tag 0x01 [] (attestBegun s tag nonce) := by
  refine answers_of_serves hs (exec_attest ..) ?_
  dsimp only
  rw [h]
  exact if_neg (by simp [hrun])

end

theorem does_attestComplete {s : State} {r : AttestRun} (h : s.now.sec.attest = some r) :
    Does .attestComplete s (({ s.now with
      sec.attest := none
      sec.report := some (r.nonce, r.body ++ signatureOf r.body)
      sec.attests := sat32 s.now.sec.attests } : Mach).completed 0x90 r.tag 0x00 0 0) := by
  rw [Does, exec_attestComplete, execAttestComplete, h]
  rfl

/-! A firmware transfer (16 R496 to R499). -/

/-- What FW_BEGIN does with a length that fits its kind (16 R496). -/
def fwBegun (m : Mach) (kind len target : Nat) : Mach × Nat × List Nat :=
  if kind == 1 && (m.ap (abOf (target - 1))).role == 5 then refuse m stWRONG_MODE
  else ok { m.fwDrop.setSlot target (1 - m.selected target) ⟨false, [], false⟩ with
    sec.fw := some { FwRun.reset with kind := kind, target := target, len := len, last := m.time.frame }
    sec.fwState := 1
    sec.fwKind := kind
    sec.fwCount := 0 }

section
variable {s : State} (tag : Nat) {k n : Nat} (hs : Serves s 0x92)
include hs

theorem answers_fwBegin_without_session (h : s.now.session = false) : Answers (.fwBegin tag k n) s 0x92 tag 0x20 [] s.now :=
  answers_of_serves hs (exec_fwBegin ..) (if_pos (by simp [h]))

variable (hsession : s.now.session = true)
include hsession

theorem answers_fwBegin_of_installing (h : s.now.installing = true) : Answers (.fwBegin tag k n) s 0x92 tag 0x02 [] s.now :=
  answers_of_serves hs (exec_fwBegin ..) ((if_neg (by simp [hsession])).trans (if_pos h))

variable (hidle : s.now.installing = false)
include hidle

theorem answers_fwBegin_of_badLength (h : 2 < k ∨ n < 1281 ∨ 1280 + bodyMax k < n) :
    Answers (.fwBegin tag k n) s 0x92 tag 0x13 [] s.now :=
  answers_of_serves hs (exec_fwBegin ..) ((if_neg (by simp [hsession])).trans ((if_neg (by simp [hidle])).trans
    (if_pos (by simpa [or_assoc] using h))))

variable (hkind : k ≤ 2) (hlow : 1281 ≤ n) (hhigh : n ≤ 1280 + bodyMax k)
include hkind hlow hhigh

/-- Past the checks of its operands, a transfer is begun where no target in FAULT forbids it (`fwBegun`). -/
theorem answers_fwBegin {st : Nat} {m : Mach} (h : fwBegun s.now k n (s.now.fwTarget k) = (m, st, [])) :
    Answers (.fwBegin tag k n) s 0x92 tag st [] m := by
  have hlen : ¬ (decide (2 < k) || decide (n < 1281) || decide (1280 + bodyMax k < n)) = true := by
    simp only [Bool.or_eq_true, decide_eq_true_eq]
    omega
  exact answers_of_serves hs (exec_fwBegin ..) ((if_neg (by simp [hsession])).trans ((if_neg (by simp [hidle])).trans
    ((if_neg hlen).trans h)))

end

theorem abOf_succ_idx_pred (x : Ab) : abOf (1 + x.idx - 1) = x := by
  cases x <;> rfl

theorem fwTarget_eq (m : Mach) (k : Nat) : m.fwTarget k = if k = 0 then 0 else if k = 2 then 3 else 1 + m.apOf.other.idx := by
  simp only [Mach.fwTarget, beq_iff_eq]

/-- What FW_CHUNK does with a transfer that is there (16 R497). -/
def chunkJudged (m : Mach) (w : FwRun) (o : Nat) (d : List Nat) : Mach × Nat × List Nat :=
  if w.phase != 1 then refuse m stWRONG_MODE
  else if w.writing then refuse m stBUSY
  else if o == w.data.length && w.data.length + d.length ≤ w.len then
    ok { m with
      sec.fw := some { w with data := w.data ++ d, writing := true, last := m.time.frame }
      sec.fwCount := w.data.length + d.length }
  else if o < w.data.length && (w.data.drop o).take d.length == d then ok m
  else refuse m stBAD_PARAM

section
variable {s : State} (tag o : Nat) {d : List Nat} (hs : Serves s 0x93)
include hs

theorem answers_fwChunk_of_closed (h : s.now.sec.fw = none) : Answers (.fwChunk tag o d) s 0x93 tag 0x22 [] s.now := by
  refine answers_of_serves hs (exec_fwChunk ..) ?_
  dsimp only
  rw [h]
  rfl

variable {w : FwRun} (hw : s.now.sec.fw = some w)
include hw

theorem answers_fwChunk {st : Nat} {m : Mach} (h : chunkJudged s.now w o d = (m, st, [])) :
    Answers (.fwChunk tag o d) s 0x93 tag st [] m := by
  refine answers_of_serves hs (exec_fwChunk ..) ?_
  dsimp only
  rw [hw]
  exact h

end

/-- What FW_COMMIT does with a transfer that is there (16 R498). -/
def commitJudged (m : Mach) (w : FwRun) (tag : Nat) : Mach × Nat × List Nat :=
  if w.phase != 1 || w.data.length != w.len then refuse m stBAD_PARAM
  else if w.kind != 1 && !m.fwQuiet then refuse m stWRONG_MODE
  else if w.kind == 1 && (hdrCompat w.data != m.holderCompat || !m.reloadable w.target) && !m.fwQuiet then refuse m stWRONG_MODE
  else pending { m with sec.fw := some { w with phase := 2, tag := tag }, sec.fwState := 2 }

section
variable {s : State} (tag : Nat) (hs : Serves s 0x94)
include hs

theorem answers_fwCommit_without_session (h : s.now.session = false) : Answers (.fwCommit tag) s 0x94 tag 0x20 [] s.now :=
  answers_of_serves hs (exec_fwCommit ..) (if_pos (by simp [h]))

variable (hsession : s.now.session = true)
include hsession

theorem answers_fwCommit_of_closed (h : s.now.sec.fw = none) : Answers (.fwCommit tag) s 0x94 tag 0x13 [] s.now :=
  answers_of_serves hs (exec_fwCommit ..) ((if_neg (by simp [hsession])).trans (by rw [h]; rfl))

variable {w : FwRun} (hw : s.now.sec.fw = some w)
include hw

theorem answers_fwCommit {st : Nat} {m : Mach} (h : commitJudged s.now w tag = (m, st, [])) :
    Answers (.fwCommit tag) s 0x94 tag st [] m :=
  answers_of_serves hs (exec_fwCommit ..) ((if_neg (by simp [hsession])).trans (by rw [hw]; exact h))

end

theorem fwQuiet_eq_false_iff (m : Mach) : m.fwQuiet = false ↔ m.sched.inService = true ∨ m.still = false ∨ m.inRun = true := by
  rw [Mach.fwQuiet, Bool.and_eq_false_iff, Bool.and_eq_false_iff, Bool.not_eq_false', Bool.not_eq_false', or_assoc]

theorem fwQuiet_iff (m : Mach) : m.fwQuiet = true ↔ m.sched.inService = false ∧ m.still = true ∧ m.inRun = false := by
  simp [Mach.fwQuiet, and_assoc]

section
variable {s : State} {w : FwRun} (hw : s.now.sec.fw = some w)
include hw

theorem does_fwChunkWritten (h : w.writing = true) :
    Does .fwChunkWritten s { s.now with sec.fw := some { w with writing := false } } := by
  rw [Does, exec_fwChunkWritten, execFwChunkWritten, hw]
  dsimp only [onWhen]
  rw [if_pos h]

theorem does_fwTransferTimeout (hphase : w.phase = 1) (hlate : 7200000 ≤ s.now.time.frame - w.last) :
    Does .fwTransferTimeout s { s.now with sec.fw := none, sec.fwState := 0 } := by
  rw [Does, exec_fwTransferTimeout, execFwTransferTimeout, hw]
  dsimp only [onWhen]
  rw [if_pos (by simp [hphase, sF, Mach.since, hlate])]
  rfl

theorem does_fwVerified (hphase : w.phase = 2) (hwritten : w.writing = false) : Does .fwVerified s (s.now.fwVerified w) := by
  rw [Does, exec_fwVerified, execFwVerified, hw]
  dsimp only [onWhen]
  rw [if_pos (by simp [hphase, hwritten])]

end

/-- What FW_VERIFIED does, the kinds of image in the order of the statement. -/
theorem fwVerified_eq (m : Mach) (w : FwRun) : m.fwVerified w =
    if m.imageStatus w.target w.data ≠ 0 then
      (({ m with sec.fw := none, sec.fwState := 4 } : Mach).raise 0 0xE9 1).completed 0x94 w.tag (m.imageStatus w.target w.data) 0 0
    else if w.kind ≠ 1 then
      ((({ m.selectImage w with sec.fw := none, sec.fwState := 3 } : Mach).endFault 0 0xE9).completed 0x94 w.tag 0x00 0 0).beginSave 2
    else if m.pair.holder = some (abOf (w.target - 1)) then
      ({ m with sec.fw := none, sec.fwState := 0 } : Mach).completed 0x94 w.tag 0x02 0 0
    else if m.reloadable w.target = false ∧ m.fwQuiet = false then
      ({ m with sec.fw := none, sec.fwState := 0 } : Mach).completed 0x94 w.tag 0x22 0 0
    else { (m.selectImage w).apReload (abOf (w.target - 1)) with sec.fw := some { w with phase := 3 }, sec.fwState := 3 } := by
  dsimp only [Mach.fwVerified]
  simp only [bne_iff_ne, ne_eq, beq_iff_eq, Bool.and_eq_true, Bool.not_eq_true', ite_not]
  rfl

/-! The verification of images at start-up (16 R491 to R495). -/

theorem does_bootVerified_kernel {s : State} (cores : Three CoreBoot) (h : s.now.booting 0 = true) :
    Does (.bootVerified 0 cores) s (s.now.bootKernel cores).startBlocks := does_of_onWhen (exec_bootVerified ..) h rfl

theorem does_bootVerified_field {s : State} (cores : Three CoreBoot) (h : s.now.booting 3 = true) :
    Does (.bootVerified 3 cores) s s.now.bootField.startBlocks := does_of_onWhen (exec_bootVerified ..) h rfl

theorem does_bootVerified_ap {s : State} (cores : Three CoreBoot) {t : Nat} (ht : t = 1 ∨ t = 2) (h : s.now.booting t = true) :
    Does (.bootVerified t cores) s (s.now.bootAp (abOf (t - 1))) := by
  rcases ht with rfl | rfl <;> exact does_of_onWhen (exec_bootVerified ..) h rfl

/-- Settles O59: each command in the order of its checks, the verdict on an image (`fwVerified_eq`), and what boots. -/
theorem attestationFirmwareAndBoot : Obligations.AttestationFirmwareAndBoot := by
  unfold Obligations.AttestationFirmwareAndBoot
  refine ⟨⟨fun s tag nonce hs => ⟨fun b => answers_attest_of_held tag hs, fun n b => answers_attest_of_other tag hs,
        answers_attest_of_busy tag hs, answers_attest tag hs⟩,
      fun s r => does_attestComplete, fun s tag i hs => ⟨fun hi => ?noCert, fun hi => ?cert⟩⟩,
    ⟨fun s tag k n hs => ⟨answers_fwBegin_without_session tag hs, answers_fwBegin_of_installing tag hs,
        answers_fwBegin_of_badLength tag hs, fun hsession hidle hkind hlow hhigh hrole => ?targetInFault,
        fun hsession hidle hkind hlow hhigh hrole => ?begun⟩,
      fun s tag o d hs => ⟨answers_fwChunk_of_closed tag o hs, fun w hw => ⟨fun hphase => ?noTransfer, fun hphase hwriting => ?writing,
        fun hphase hfree => ⟨fun hnext hfits => ?next, fun hold hsame => ?repeated, fun hnext hold => ?other⟩⟩⟩,
      fun s tag hs => ⟨answers_fwCommit_without_session tag hs, answers_fwCommit_of_closed tag hs,
        fun w hsession hw => ⟨fun hpart => ?part, fun hphase hwhole => ⟨fun hkind hbusy => ?notQuiet, fun hmay => ?verify⟩⟩⟩,
      fun s w => does_fwChunkWritten, fun s w => does_fwTransferTimeout⟩,
    fun s w hw hphase hwritten => ?verified, fun s cores hboot => ?kernel,
    fun s cores hboot => ⟨fun slot hslot => ?field, fun hslot => ?noField⟩,
    fun s cores t slot ht hboot hslot => ?ap, fun s cores t ht hboot hslot => ?noAp⟩
  case noCert => exact answers_of_serves hs (exec_certGet ..) (if_pos hi)
  case cert =>
    exact ⟨_, by simp, answers_of_serves hs (exec_certGet ..) (if_neg hi.not_gt)⟩
  case targetInFault =>
    subst hkind
    refine answers_fwBegin tag hs hsession hidle (by decide) hlow hhigh (if_pos ?_)
    rw [fwTarget_eq, if_neg (by decide), if_neg (by decide), abOf_succ_idx_pred, hrole]
    rfl
  case begun =>
    refine answers_fwBegin tag hs hsession hidle hkind hlow hhigh ((if_neg ?_).trans ?_)
    · rw [Bool.and_eq_true, beq_iff_eq, beq_iff_eq]
      rintro ⟨rfl, hfault⟩
      rw [fwTarget_eq, if_neg (by decide), if_neg (by decide), abOf_succ_idx_pred] at hfault
      exact hrole rfl hfault
    · rw [fwTarget_eq]
      rfl
  case noTransfer => exact answers_fwChunk tag o hs hw (if_pos (by simpa using hphase))
  case writing => exact answers_fwChunk tag o hs hw ((if_neg (by simp [hphase])).trans (if_pos hwriting))
  case next =>
    exact answers_fwChunk tag o hs hw ((if_neg (by simp [hphase])).trans ((if_neg (by simp [hfree])).trans
      (if_pos (by simp [hnext, hfits]))))
  case repeated =>
    exact answers_fwChunk tag o hs hw ((if_neg (by simp [hphase])).trans ((if_neg (by simp [hfree])).trans
      ((if_neg (by simp [hold.ne])).trans (if_pos (by simp [hold, hsame])))))
  case other =>
    exact answers_fwChunk tag o hs hw ((if_neg (by simp [hphase])).trans ((if_neg (by simp [hfree])).trans
      ((if_neg (by simpa using hnext)).trans (if_neg (by simpa using hold)))))
  case part => exact answers_fwCommit tag hs hsession hw (if_pos (by simpa using hpart))
  case notQuiet =>
    have hquiet := (fwQuiet_eq_false_iff s.now).mpr hbusy
    refine answers_fwCommit tag hs hsession hw ((if_neg (by simp [hphase, hwhole])).trans ?_)
    by_cases happ : w.kind = 1
    · have hjudged := hkind.resolve_left (not_not_intro happ)
      exact (if_neg (by simp [happ])).trans (if_pos (by simpa [happ, hquiet] using hjudged))
    · exact if_pos (by simp [happ, hquiet])
  case verify =>
    refine answers_fwCommit tag hs hsession hw ((if_neg (by simp [hphase, hwhole])).trans ((if_neg ?_).trans (if_neg ?_)))
    · rcases hmay with ⟨happ, -, -⟩ | hrest
      · simp [happ]
      · simp [(fwQuiet_iff s.now).mpr hrest]
    · rcases hmay with ⟨-, hcompat, hreload⟩ | hrest
      · simp [hcompat, hreload]
      · simp [(fwQuiet_iff s.now).mpr hrest]
  case verified =>
    have hdoes := does_fwVerified hw hphase hwritten
    rw [fwVerified_eq] at hdoes
    exact hdoes
  case kernel =>
    have hdoes := does_bootVerified_kernel cores hboot
    dsimp only [Mach.bootKernel] at hdoes
    dsimp only
    cases hmajor : majority (cores.map fun c e => s.now.postedDigest c e) with
    | some x =>
      rw [hmajor] at hdoes
      exact hdoes
    | none =>
      rw [hmajor] at hdoes
      simp only [beq_iff_eq] at hdoes
      exact hdoes
  case field =>
    have hdoes := does_bootVerified_field cores hboot
    rwa [Mach.bootField, hslot] at hdoes
  case noField =>
    have hdoes := does_bootVerified_field cores hboot
    rwa [Mach.bootField, hslot] at hdoes
  case ap =>
    have hdoes := does_bootVerified_ap cores ht hboot
    dsimp only [Mach.bootAp] at hdoes
    rwa [hslot] at hdoes
  case noAp =>
    have hdoes := does_bootVerified_ap cores ht hboot
    dsimp only [Mach.bootAp] at hdoes
    rwa [hslot] at hdoes

end Sys2Proof.Proofs
end

section
/-!
PROOFS. The staged set of the cabinet stays ascending by unit and parameter, with one value for each (08 R260).
-/
namespace Sys2Proof.Proofs

open Sys2Proof Sys2Proof.Machine

/-- The order of a staged set: by unit, then by parameter (08 R260). -/
def stagedBelow (a b : Staged) : Prop := a.handle < b.handle ∨ (a.handle = b.handle ∧ a.id < b.id)

/-- Two entries are of the same unit and parameter. -/
def sameKey (a b : Staged) : Prop := a.handle = b.handle ∧ a.id = b.id

theorem stagedBelow_trans {a b c : Staged} (hab : stagedBelow a b) (hbc : stagedBelow b c) : stagedBelow a c := by
  simp only [stagedBelow] at hab hbc ⊢
  omega

theorem not_sameKey_of_below {a b : Staged} (h : stagedBelow a b) : ¬ sameKey a b ∧ ¬ sameKey b a := by
  simp only [stagedBelow, sameKey] at h ⊢
  omega

/-- An entry stands below, at or above the place of another. -/
theorem stagePut_cons (x e : Staged) (r : List Staged) :
    (sameKey x e ∧ stagePut (x :: r) e = e :: r) ∨ (stagedBelow e x ∧ stagePut (x :: r) e = e :: x :: r)
      ∨ (stagedBelow x e ∧ stagePut (x :: r) e = x :: stagePut r e) := by
  simp only [stagePut, Bool.and_eq_true, Bool.or_eq_true, beq_iff_eq, decide_eq_true_eq]
  split
  · exact .inl ⟨by assumption, rfl⟩
  · split
    · exact .inr (.inl ⟨by assumption, rfl⟩)
    · refine .inr (.inr ⟨?_, rfl⟩)
      simp only [stagedBelow]
      omega

/-- What stands in a set once an entry has been staged in it: the entry, and what was of another unit or parameter. -/
theorem mem_stagePut {l : List Staged} (e : Staged) (h : l.Pairwise stagedBelow) (x : Staged) :
    x ∈ stagePut l e ↔ x = e ∨ (x ∈ l ∧ ¬ sameKey x e) := by
  induction l with
  | nil => simp [stagePut]
  | cons y r ih =>
    obtain ⟨hy, hr⟩ := List.pairwise_cons.mp h
    rcases stagePut_cons y e r with ⟨hkey, heq⟩ | ⟨hlt, heq⟩ | ⟨hlt, heq⟩
    · have hrest : ∀ z ∈ r, ¬ sameKey z e := fun z hz hze =>
        (not_sameKey_of_below (hy z hz)).1 ⟨hkey.1.trans hze.1.symm, hkey.2.trans hze.2.symm⟩
      grind
    · have hrest : ∀ z ∈ r, ¬ sameKey z e := fun z hz => (not_sameKey_of_below (stagedBelow_trans hlt (hy z hz))).2
      have hhead := (not_sameKey_of_below hlt).2
      grind
    · have hhead := (not_sameKey_of_below hlt).1
      have htail := ih hr
      grind

theorem pairwise_stagePut {l : List Staged} (e : Staged) (h : l.Pairwise stagedBelow) : (stagePut l e).Pairwise stagedBelow := by
  induction l with
  | nil => exact List.pairwise_singleton ..
  | cons y r ih =>
    obtain ⟨hy, hr⟩ := List.pairwise_cons.mp h
    rcases stagePut_cons y e r with ⟨⟨hhandle, hid⟩, heq⟩ | ⟨hlt, heq⟩ | ⟨hlt, heq⟩
    · rw [heq]
      refine List.pairwise_cons.mpr ⟨fun z hz => ?_, hr⟩
      simpa only [stagedBelow, hhandle, hid] using hy z hz
    · rw [heq]
      exact List.pairwise_cons.mpr ⟨List.forall_mem_cons.mpr ⟨hlt, fun z hz => stagedBelow_trans hlt (hy z hz)⟩, h⟩
    · rw [heq]
      refine List.pairwise_cons.mpr ⟨fun z hz => ?_, ih hr⟩
      rcases (mem_stagePut e hr z).mp hz with rfl | ⟨hz, -⟩
      · exact hlt
      · exact hy z hz

/-- Settles O35: the set stays ascending (`pairwise_stagePut`), and what it holds is the entry with what was of another
unit or parameter (`mem_stagePut`). -/
theorem stagedSetHoldsOneValueEach : Obligations.StagedSetHoldsOneValueEach := by
  unfold Obligations.StagedSetHoldsOneValueEach
  intro l e below h
  have hmem := mem_stagePut e h
  have hkey (x : Staged) : (x.handle ≠ e.handle ∨ x.id ≠ e.id) ↔ ¬ sameKey x e := not_and_or.symm
  simp only [hkey]
  exact ⟨pairwise_stagePut e h, (hmem e).mpr (.inl rfl), fun x hx hne => (hmem x).mpr (.inr ⟨hx, hne⟩), fun x => (hmem x).mp⟩

end Sys2Proof.Proofs
end

section
/-!
PROOFS. GROUP_REARM and the re-arm that the field side applies (10 R313, R324).
-/
namespace Sys2Proof.Proofs

open Sys2Proof Sys2Proof.Machine

/-- The module with the re-arm of a target to be sent to the field side. -/
def rearmSent (m : Mach) (g : Nat) : Mach := { m with link.rearm := m.link.rearm ++ [(g, m.time.frame)] }

theorem exec_groupRearm (tag g : Nat) (s : State) : exec (.groupRearm tag g) s = serve s 0x43 tag fun m => m.groupRearm g := rfl

theorem answers_groupRearm {s : State} {tag g st : Nat} {m : Mach} (hs : Serves s 0x43) (h : s.now.groupRearm g = (m, st, [])) :
    Answers (.groupRearm tag g) s 0x43 tag st [] m := answers_of_serves hs (exec_groupRearm ..) h

theorem domInOff_iff (st : Nat) : domInOff st = true ↔ st = 2 ∨ st = 3 ∨ st = 5 := by
  simp only [domInOff, Bool.or_eq_true, beq_iff_eq, or_assoc]

theorem domOutOff_iff (st : Nat) : domOutOff st = true ↔ st = 2 ∨ st = 3 ∨ st = 5 ∨ st = 6 := by
  simp only [domOutOff, Bool.or_eq_true, domInOff_iff, beq_iff_eq, or_assoc]

/-- The re-arm of a domain is judged by the state of the domain (10 R313). -/
theorem groupRearm_of_domain (m : Mach) {g : Nat} (hg : g = 0x10 ∨ g = 0x11) : m.groupRearm g =
    let st := (m.field.domains.get (if g = 0x10 then .a else .b)).state
    if st = 6 then (rearmSent m g, 0x00, []) else if st = 2 ∨ st = 3 ∨ st = 5 then (m, 0x22, []) else (m, 0x00, []) := by
  simp only [Mach.groupRearm, ← domInOff_iff]
  rcases hg with rfl | rfl <;> simp [rearmSent, refuse, ok, stOK, stWRONG_MODE]

/-- The re-arm of a group is judged by its mark and by the state of its domain (10 R324). -/
theorem groupRearm_of_group (m : Mach) {g : Nat} (hg : g < 8) : m.groupRearm g =
    if bit m.field.groupsOff g = false then (m, 0x00, [])
    else if domOutOff (m.domState (8 * g)) = true then (m, 0x22, []) else (rearmSent m g, 0x00, []) := by
  have hdomain : ¬ (g == 0x10 || g == 0x11) = true := by simp; omega
  simp only [Mach.groupRearm, if_neg hdomain, if_neg hg.not_ge, Bool.not_eq_true']
  rfl

theorem groupRearm_of_unknown (m : Mach) {g : Nat} (ha : g ≠ 0x10) (hb : g ≠ 0x11) (hg : 8 ≤ g) :
    m.groupRearm g = (m, 0x13, []) := by
  rw [Mach.groupRearm, if_neg (by simp [ha, hb]), if_pos hg]
  rfl

/-- The re-arm of a domain that waits for it, as the field side applies it (10 R313). -/
theorem rearm_of_domain {m : Mach} {d : Sys2Proof.Ab} (h : (m.field.domains.get d).state = 6) : m.rearm (0x10 + d.idx) =
    { m with field.domains := m.field.domains.set d { m.field.domains.get d with state := 0, codes := [] } } := by
  cases d <;> exact if_pos (beq_iff_eq.mpr h)

theorem rearm_of_group {m : Mach} {g : Nat} (hg : g < 8) (hoff : bit m.field.groupsOff g = true)
    (hdom : domOutOff (m.domState (8 * g)) = false) : (m.rearm g).field.groupsOff = setBit m.field.groupsOff g false := by
  have hdomain : ¬ (g == 0x10 || g == 0x11) = true := by simp; omega
  rw [Mach.rearm, if_neg hdomain, if_pos (by simp [hoff, hdom])]

/-- Settles O46: the answer follows the state of the domain (`groupRearm_of_domain`) or the mark of the group and the
state of its domain (`groupRearm_of_group`). -/
theorem groupRearmAnswered : Obligations.GroupRearmAnswered := by
  unfold Obligations.GroupRearmAnswered
  refine ⟨fun s tag g hs => ⟨fun hg => ?domain, fun ha hb hg => answers_groupRearm hs (groupRearm_of_unknown s.now ha hb hg),
      fun hg hon => ?on, fun hg hoff hdom => ?refused, fun hg hoff hdom => ?taken⟩,
    domOutOff_iff, fun m d => rearm_of_domain, fun m g => rearm_of_group⟩
  case domain =>
    have hrearm := groupRearm_of_domain s.now hg
    refine ⟨fun h6 => ?_, fun hin => ?_, fun h6 h2 h3 h5 => ?_⟩
    · exact answers_groupRearm hs (hrearm.trans (if_pos h6))
    · exact answers_groupRearm hs (hrearm.trans ((if_neg (by omega)).trans (if_pos hin)))
    · exact answers_groupRearm hs (hrearm.trans ((if_neg h6).trans (if_neg (by omega))))
  case on => exact answers_groupRearm hs ((groupRearm_of_group s.now hg).trans (if_pos hon))
  case refused =>
    exact answers_groupRearm hs ((groupRearm_of_group s.now hg).trans ((if_neg (by simp [hoff])).trans (if_pos hdom)))
  case taken =>
    exact answers_groupRearm hs ((groupRearm_of_group s.now hg).trans ((if_neg (by simp [hoff])).trans (if_neg (by simp [hdom]))))

end Sys2Proof.Proofs
end

section
/-!
PROOFS. CH_CONFIG, CH_READ and CH_WRITE (10 R334, R335; 14 R458, R460, R461).
-/
namespace Sys2Proof.Proofs

open Sys2Proof Sys2Proof.Machine

theorem exec_chConfig (tag ch : Nat) (es : List SetEntry) (s : State) :
    exec (.chConfig tag ch es) s = serve s 0x40 tag fun m => m.chConfig tag ch es := rfl
theorem exec_chRead (tag first count : Nat) (s : State) : exec (.chRead tag first count) s = execChRead tag first count s := rfl
theorem exec_chWrite (tag mask vals : Nat) (s : State) :
    exec (.chWrite tag mask vals) s = serve s 0x42 tag fun m => m.chWrite mask vals := rfl

/-- No chapter adds a rule of its own to the entries of CH_CONFIG. -/
def noExtra : Mach → Nat → SetEntry → Nat := fun _ _ _ => 0

theorem exists_of_channel (m : Mach) {ch : Nat} (hch : ch < 64) : m.exists (0x0100 + ch) = true := by
  have hmem : 0x0100 + ch ∈ fixedHandles := by simp [fixedHandles]; omega
  rw [Mach.exists, if_pos (by omega)]
  exact List.contains_iff_mem.mpr hmem

theorem chConfig_of_absent (m : Mach) (tag : Nat) {ch : Nat} (es : List SetEntry) (hch : 64 ≤ ch) :
    m.chConfig tag ch es = (m, 0x30, []) := if_pos hch

theorem chConfig_eq (m : Mach) (tag : Nat) {ch : Nat} (es : List SetEntry) (hch : ch < 64) : m.chConfig tag ch es =
    let r := m.setEntries (0x40, tag) (0x0100 + ch) es noExtra
    if r.2.1 = 0 then (r.1.queueCfg [ch], r.2) else r := by
  simp only [Mach.chConfig, if_neg hch.not_ge, beq_iff_eq]
  rfl

/-- The first refusal of entries, of which those before pass. -/
theorem firstRefusal_append_cons {a b : List Nat} {x : Nat} (ha : ∀ y ∈ a, y = 0) (hx : x ≠ 0) : firstRefusal (a ++ x :: b) = x := by
  induction a with
  | nil => simp [firstRefusal, hx]
  | cons y a ih =>
    obtain ⟨hy, ha⟩ := List.forall_mem_cons.mp ha
    simpa [firstRefusal, hy] using ih ha

/-- The reply of entries lists each with its status. -/
theorem setReply_map (es : List SetEntry) (f : SetEntry → Nat) :
    setReply es (es.map f) = es.flatMap fun e => le 2 e.id ++ [f e] := by
  induction es with
  | nil => rfl
  | cons e es ih => simpa [setReply] using ih

/-- Entries with one refused change nothing, and the first refusal is the status (14 R458). -/
theorem setEntries_of_firstRefused {m : Mach} (cmd : Nat × Nat) {h : Nat} {a b : List SetEntry} {e : SetEntry}
    (hcount : countOk (a ++ e :: b) = true) (hex : m.exists h = true) (ha : ∀ x ∈ a, m.setStatus h x = 0) (he : m.setStatus h e ≠ 0) :
    m.setEntries cmd h (a ++ e :: b) noExtra
      = (m, m.setStatus h e, (a ++ e :: b).flatMap fun x => le 2 x.id ++ [m.setStatus h x]) := by
  have hst (x : SetEntry) : (if m.setStatus h x == 0 then noExtra m h x else m.setStatus h x) = m.setStatus h x := by
    split
    case isTrue hzero => exact (beq_iff_eq.mp hzero).symm
    case isFalse => rfl
  have hfirst : firstRefusal ((a ++ e :: b).map (m.setStatus h)) = m.setStatus h e := by
    rw [List.map_append, List.map_cons]
    exact firstRefusal_append_cons (List.forall_mem_map.mpr ha) he
  dsimp only [Mach.setEntries]
  simp only [hst, hfirst, setReply_map]
  rw [if_neg (by simp [hcount]), if_neg (by simp [hex]), if_neg (by simpa using he)]

section
variable {s : State} {tag ch : Nat} {es : List SetEntry} (hs : Serves s 0x40)
include hs

theorem answers_chConfig {st : Nat} {p : List Nat} {m : Mach} (h : s.now.chConfig tag ch es = (m, st, p)) :
    Answers (.chConfig tag ch es) s 0x40 tag st p m := answers_of_serves hs (exec_chConfig ..) h

variable (hch : ch < 64)
include hch

theorem answers_chConfig_of_badCount (hbad : es = [] ∨ 64 < es.length) : Answers (.chConfig tag ch es) s 0x40 tag 0x11 [] s.now := by
  refine answers_chConfig hs ?_
  rw [chConfig_eq s.now tag es hch, setEntries_of_badCount _ noExtra hbad]
  rfl

theorem answers_chConfig_of_accepted (hcount : countOk es = true) (hst : ∀ e ∈ es, s.now.setStatus (0x0100 + ch) e = 0) :
    Answers (.chConfig tag ch es) s 0x40 tag 0x00 (es.flatMap fun e => le 2 e.id ++ [0])
      ((s.now.defer (0x40, tag) (0x0100 + ch) es).queueCfg [ch]) := by
  refine answers_chConfig hs ?_
  rw [chConfig_eq s.now tag es hch,
    setEntries_of_accepted _ noExtra hcount (exists_of_channel s.now hch) hst fun _ _ => rfl]
  rfl

omit hs in
theorem chConfig_of_refused {a b : List SetEntry} {e : SetEntry} (hcount : countOk (a ++ e :: b) = true)
    (ha : ∀ x ∈ a, s.now.setStatus (0x0100 + ch) x = 0) (he : s.now.setStatus (0x0100 + ch) e ≠ 0) :
    s.now.chConfig tag ch (a ++ e :: b) = (s.now, s.now.setStatus (0x0100 + ch) e,
      (a ++ e :: b).flatMap fun x => le 2 x.id ++ [s.now.setStatus (0x0100 + ch) x]) := by
  rw [chConfig_eq s.now tag _ hch, setEntries_of_firstRefused _ hcount (exists_of_channel s.now hch) ha he]
  exact if_neg he

end

section
variable {s : State} {tag : Nat} {f n : Nat} (hs : Serves s 0x41)
include hs

theorem answers_chRead_of_badRange (h : n = 0 ∨ 64 ≤ f ∨ 64 < f + n) : Answers (.chRead tag f n) s 0x41 tag 0x13 [] s.now :=
  answers_of_serves hs (exec_chRead ..) (if_pos (by simpa [or_assoc] using h))

theorem answers_chRead (hn : 1 ≤ n) (hlast : f + n ≤ 64) :
    Answers (.chRead tag f n) s 0x41 tag 0x00 (le 8 s.shown.link.upIn ++ le 8 s.shown.link.upRb
      ++ ((List.range n).flatMap fun k => le 2 (s.shown.statusOf (f + k)) ++ le 2 (aGet s.shown.field.current (f + k) 0))) s.now :=
  answers_of_serves hs (exec_chRead ..) (if_neg (by simp; omega))

end

/-- CH_WRITE may drive a channel: an output of the host, which no block names and which is not the reset channel
(14 R461). -/
def hostDriven (m : Mach) (c : Nat) : Prop :=
  (m.chan c pCH_MODE = 5 ∨ m.chan c pCH_MODE = 7) ∧ m.chNamed c = false ∧ m.nat pRESET_CH ≠ c

theorem not_hostDriven_iff (m : Mach) (c : Nat) : ¬ hostDriven m c ↔
    (m.chan c pCH_MODE ≠ 5 ∧ m.chan c pCH_MODE ≠ 7) ∨ m.chNamed c = true ∨ m.nat pRESET_CH = c := by
  rw [hostDriven, not_and_or, not_and_or, not_or, Bool.not_eq_false, not_not]

/-- CH_WRITE takes its bits where it may drive all of its channels (14 R461). -/
theorem chWrite_eq (m : Mach) (mask vals : Nat) [Decidable (∃ c ∈ bitsOf mask, ¬ hostDriven m c)] : m.chWrite mask vals =
    if ∃ c ∈ bitsOf mask, ¬ hostDriven m c then (m, 0x13, [])
    else ({ m with link.cmdNext := some (((m.link.cmdNext.getD (0, 0)).1 ||| mask),
        ((m.link.cmdNext.getD (0, 0)).2 &&& (2 ^ 64 - 1 - mask)) ||| (vals &&& mask)) }, 0x00, []) := by
  have hone (c : Nat) : (!(m.chan c pCH_MODE == 5 || m.chan c pCH_MODE == 7) || m.chNamed c || m.nat pRESET_CH == c) = true
      ↔ ¬ hostDriven m c := by
    rw [not_hostDriven_iff]
    simp [or_assoc]
  simp only [Mach.chWrite, List.any_eq_true, hone]
  rfl

section
variable {s : State} {tag mask vals : Nat} (hs : Serves s 0x42)
include hs

theorem answers_chWrite_of_denied (h : ∃ c ∈ bitsOf mask, ¬ hostDriven s.now c) :
    Answers (.chWrite tag mask vals) s 0x42 tag 0x13 [] s.now := by
  classical
  exact answers_of_serves hs (exec_chWrite ..) ((chWrite_eq ..).trans (if_pos h))

theorem answers_chWrite (h : ∀ c ∈ bitsOf mask, hostDriven s.now c) :
    Answers (.chWrite tag mask vals) s 0x42 tag 0x00 [] { s.now with link.cmdNext := some (((s.now.link.cmdNext.getD (0, 0)).1 ||| mask),
        ((s.now.link.cmdNext.getD (0, 0)).2 &&& (2 ^ 64 - 1 - mask)) ||| (vals &&& mask)) } := by
  classical
  exact answers_of_serves hs (exec_chWrite ..) ((chWrite_eq ..).trans (if_neg (by simpa using h)))

end

/-- Settles O45: the entries of CH_CONFIG are judged as those of UNIT_SET (`setEntries_of_accepted`,
`setEntries_of_firstRefused`), and CH_WRITE takes bits of outputs of the host alone (`chWrite_eq`). -/
theorem channelCommandsAnswered : Obligations.ChannelCommandsAnswered := by
  unfold Obligations.ChannelCommandsAnswered
  refine ⟨fun s tag ch es hs hch => answers_chConfig hs (chConfig_of_absent s.now tag es hch),
    fun s tag ch es hs hch => ⟨answers_chConfig_of_badCount hs hch, fun hne hlen => ?accepted, fun hne hlen a e b hes ha he => ?refused⟩,
    fun s tag f n => answers_chRead_of_badRange, fun s tag f n => answers_chRead,
    fun s tag mask vals hs h => ?denied, fun s tag mask vals hs h => answers_chWrite hs h⟩
  case accepted => exact answers_chConfig_of_accepted hs hch ((countOk_iff es).mpr ⟨hne, hlen⟩)
  case refused =>
    subst hes
    exact answers_chConfig hs (chConfig_of_refused hch ((countOk_iff _).mpr ⟨hne, hlen⟩) ha he)
  case denied =>
    simp only [← not_hostDriven_iff] at h
    exact answers_chWrite_of_denied hs h

end Sys2Proof.Proofs
end

section
/-!
PROOFS. BENCH_SET, its orders and what ends them (10 R331, R332; 07 R240; 08 R265).
-/
namespace Sys2Proof.Proofs

open Sys2Proof Sys2Proof.Machine

theorem exec_benchSet (tag ch on val : Nat) (s : State) :
    exec (.benchSet tag ch on val) s = serve s 0x44 tag fun m => m.benchSet ch on val := rfl
theorem exec_benchEnd (s : State) : exec .benchEnd s = execBenchEnd s := rfl

/-! The answer of BENCH_SET. -/

theorem answers_benchSet {s : State} {tag ch on val st : Nat} {m : Mach} (hs : Serves s 0x44) (h : s.now.benchSet ch on val = (m, st, [])) :
    Answers (.benchSet tag ch on val) s 0x44 tag st [] m := answers_of_serves hs (exec_benchSet ..) h

section
variable {m : Mach} {ch on val : Nat}

theorem benchSet_of_badParam (h : 64 ≤ ch ∨ 2 ≤ on ∨ 2 ≤ val) : m.benchSet ch on val = (m, 0x13, []) := by
  rw [Mach.benchSet, if_pos (by simpa [or_assoc] using h)]
  rfl

variable (hch : ch < 64) (hon : on < 2) (hval : val < 2)
include hch hon hval

theorem benchSet_without_session (hsession : m.cab.session = none) : m.benchSet ch on val = (m, 0x20, []) := by
  rw [Mach.benchSet, if_neg (by simp; omega), hsession]
  rfl

/-- In a session the order is judged by the inspection mode, the mode of the channel and R240 (10 R331). -/
theorem benchSet_of_session {slot : Nat} (hsession : m.cab.session = some slot) : m.benchSet ch on val =
    if m.inspection = false then (m, 0x22, [])
    else if m.chan ch pCH_MODE = 6 ∨ m.chan ch pCH_MODE = 7 ∨ m.chan ch pCH_MODE = 0 ∨ m.benchDenied ch = true then (m, 0x20, [])
    else (m.benchOrder ⟨ch, if m.chNamed ch then m.normalLevel ch else decide (val = 1), slot, m.time.frame, decide (on = 1), true⟩,
      0x00, []) := by
  rw [Mach.benchSet, if_neg (by simp; omega), hsession]
  simp only [Bool.not_eq_true', Bool.or_eq_true, beq_eq_decide, decide_eq_true_eq, ite_or]
  rfl

end

/-! Orders of a bench, each with its entry of the change log. -/

/-- An entry of the change log is written to the MRAM and changes nothing else but the cabinet. -/
theorem logEvent_changesOnly (m : Mach) (kind slot unit : Nat) : changesOnly [.cab, .mram, .mramBad] m (m.logEvent kind slot unit) := by
  intro p hp
  cases p with
  | cab | mram | mramBad => simp at hp
  | _ => simp only [Part.same, Mach.logEvent, Mach.logAppend, Mach.poke]

theorem logEvent_link (m : Mach) (kind slot unit : Nat) : (m.logEvent kind slot unit).link = m.link :=
  (logEvent_changesOnly m kind slot unit .link (by decide)).symm

theorem logEvent_field (m : Mach) (kind slot unit : Nat) : (m.logEvent kind slot unit).field = m.field :=
  (logEvent_changesOnly m kind slot unit .field (by decide)).symm

/-- The orders of a channel that have not taken effect (10 R331). -/
def dueOrders (m : Mach) (c : Nat) : List BenchRec := m.link.benches.filter fun (x : BenchRec) => x.ch == c && x.due

/-- The module with the orders of a channel that have not taken effect in its change log (08 R265). -/
def ordersLogged (m : Mach) (l : List BenchRec) : Mach := m.each l fun m o => m.logEvent 4 o.slot o.ch

theorem ordersLogged_link (m : Mach) (l : List BenchRec) : (ordersLogged m l).link = m.link := by
  rw [ordersLogged, Mach.each, foldl_keeps Mach.link fun n o => logEvent_link ..]

theorem ordersLogged_field (m : Mach) (l : List BenchRec) : (ordersLogged m l).field = m.field := by
  rw [ordersLogged, Mach.each, foldl_keeps Mach.field fun n o => logEvent_field ..]

theorem ordersLogged_head (m : Mach) (l : List BenchRec) : (ordersLogged m l).cab.head = m.cab.head + l.length := by
  rw [ordersLogged, head_each fun n o => logEvent_head ..]

theorem benchOrder_eq (m : Mach) (o : BenchRec) : m.benchOrder o = { ordersLogged m (dueOrders m o.ch) with
    link.benches := (m.link.benches.filter fun (x : BenchRec) => x.ch != o.ch) ++ [o] } := by
  rw [← ordersLogged_link m (dueOrders m o.ch)]
  rfl

/-- An order that replaces none changes the orders alone. -/
theorem benchOrder_changesOnly_link {m : Mach} {o : BenchRec} (h : dueOrders m o.ch = []) : changesOnly [.link] m (m.benchOrder o) := by
  rw [benchOrder_eq, h]
  intro p hp
  cases p with
  | link => simp at hp
  | _ => rfl

/-- The module with the bench of a channel as a received order has it (10 R331). -/
def benchTaken (m : Mach) (c : Nat) (on v : Bool) : Mach := { m with
  field.bench := setBit m.field.bench c on
  field.benchVal := if on then setBit m.field.benchVal c v else m.field.benchVal }

theorem benchApply_field (m : Mach) (c : Nat) (on v : Bool) : (m.benchApply (c, on, v)).field = (benchTaken m c on v).field :=
  ordersLogged_field (benchTaken m c on v) (dueOrders m c)

theorem benchApply_head (m : Mach) (c : Nat) (on v : Bool) : (m.benchApply (c, on, v)).cab.head = m.cab.head + (dueOrders m c).length :=
  ordersLogged_head (benchTaken m c on v) (dueOrders m c)

/-- Settles O44: an order of a bench is logged where it is replaced (`benchOrder_eq`) or takes effect, and BENCH_SET gives
one in a session and inspection mode (`benchSet_of_session`). -/
theorem benchCommandsAnswered : Obligations.BenchCommandsAnswered := by
  unfold Obligations.BenchCommandsAnswered
  refine ⟨fun s tag ch b v hs h => answers_benchSet hs (benchSet_of_badParam h), fun s tag ch b v hs hch hb hv =>
    ⟨fun hsession => answers_benchSet hs (benchSet_without_session hch hb hv hsession), fun slot hsession => ?session⟩,
    fun m o => ?order, fun m c on v => ?apply, fun s hheld hover => ?ends⟩
  case session =>
    have hset := benchSet_of_session hch hb hv hsession
    refine ⟨fun hinsp => answers_benchSet hs (hset.trans (if_pos hinsp)), fun hinsp => ⟨fun hdenied => ?_, fun h6 h7 h0 hgood => ?_⟩⟩
    · exact answers_benchSet hs (hset.trans ((if_neg (by simp [hinsp])).trans (if_pos hdenied)))
    · exact answers_benchSet hs (hset.trans ((if_neg (by simp [hinsp])).trans (if_neg (by simp [h6, h7, h0, hgood]))))
  case order =>
    rw [benchOrder_eq]
    exact ⟨rfl, fun hnone => benchOrder_eq m o ▸ benchOrder_changesOnly_link hnone, ordersLogged_head m _, ordersLogged_field m _⟩
  case apply =>
    have hfield := benchApply_field m c on v
    exact ⟨congrArg FieldState.bench hfield, congrArg FieldState.benchVal hfield, benchApply_head m c on v⟩
  case ends =>
    refine does_of_onWhen (exec_benchEnd s) ?_ rfl
    simpa [hheld, or_assoc] using hover

end Sys2Proof.Proofs
end

section
/-!
PROOFS. A commit of the cabinet: when CAB_COMMIT is accepted, the verdicts of the cores, the commit point, and how it ends
(08 R262 to R264, R267, R270).
-/
namespace Sys2Proof.Proofs

open Sys2Proof Sys2Proof.Machine

theorem exec_cabCommit (tag : Nat) (s : State) : exec (.cabCommit tag) s = execCabCommit tag s := rfl
theorem exec_commitVerdicts (d : Three Bool) (s : State) : exec (.commitVerdicts d) s = execCommitVerdicts d s := rfl
theorem exec_commitPoint (s : State) : exec .commitPoint s = execCommitPoint s := rfl
theorem exec_commitComplete (s : State) : exec .commitComplete s = execCommitComplete s := rfl

/-! CAB_COMMIT. -/

/-- The module with a commit of its staged set begun (08 R262). -/
def commitBegun (m : Mach) (tag slot : Nat) : Mach := { m with
  cab.commit := some { CommitRun.reset with atF := m.time.frame, tag := tag, slot := slot, entries := m.cab.staged } }

/-- How a commit is judged in a session: by a commit that runs, by the staged set, by the conditions of R12 and by a proof
test (08 R262). -/
def cabCommitJudged (m : Mach) (tag slot : Nat) : Mach × Nat × List Nat :=
  if m.cab.commit.isSome = true then (m, 0x02, []) else if m.cab.staged = [] then (m, 0x20, [])
  else if m.still = false ∨ m.inRun = true then (m, 0x22, [])
  else if m.triad.proof.isSome = true then (m, 0x02, []) else (commitBegun m tag slot, 0x01, [])

section
variable {s : State} (tag : Nat) (hs : Serves s 0x83)
include hs

theorem answers_cabCommit_without_session (h : s.now.cab.session = none) : Answers (.cabCommit tag) s 0x83 tag 0x20 [] s.now := by
  refine answers_of_serves hs (by rw [exec_cabCommit, execCabCommit]) ?_
  rw [h]
  rfl

variable {slot : Nat} (hsession : s.now.cab.session = some slot)
include hsession

theorem answers_cabCommit_of_session {m : Mach} {st : Nat} (h : cabCommitJudged s.now tag slot = (m, st, [])) :
    Answers (.cabCommit tag) s 0x83 tag st [] m := by
  refine answers_of_serves hs (by rw [exec_cabCommit, execCabCommit]) ?_
  rw [hsession]
  simp only [beq_iff_eq, Bool.or_eq_true, Bool.not_eq_true']
  exact h

end

/-- Settles O37: the refusals of CAB_COMMIT in the order in which they are judged (`answers_cabCommit_of_session`). -/
theorem commitAcceptedOnlyWhenAllowed : Obligations.CommitAcceptedOnlyWhenAllowed := by
  unfold Obligations.CommitAcceptedOnlyWhenAllowed
  refine ⟨fun s tag hs hrun hsession => ?running, fun s tag hs hidle => ⟨fun hdenied => ?denied, fun slot hsession hstaged => ?session⟩⟩
  case running =>
    obtain ⟨slot, hslot⟩ := Option.isSome_iff_exists.mp hsession
    exact answers_cabCommit_of_session tag hs hslot (if_pos hrun)
  case denied =>
    cases hsession : s.now.cab.session with
    | none => exact answers_cabCommit_without_session tag hs hsession
    | some slot =>
      have hstaged : s.now.cab.staged = [] := hdenied.resolve_left (by simp [hsession])
      exact answers_cabCommit_of_session tag hs hsession (by simp [cabCommitJudged, hidle, hstaged])
  case session =>
    refine ⟨fun hmode => ?_, fun hstill hrun => ⟨fun hproof => ?_, fun hproof => ?_⟩⟩
    · exact answers_cabCommit_of_session tag hs hsession (by simp [cabCommitJudged, hidle, hstaged, hmode])
    · exact answers_cabCommit_of_session tag hs hsession (by simp [cabCommitJudged, hidle, hstaged, hstill, hrun, hproof])
    · exact answers_cabCommit_of_session tag hs hsession (by simp [cabCommitJudged, hidle, hstaged, hstill, hrun, hproof, commitBegun])

/-! The verdicts of the cores (08 R263, R264). -/

section
variable {s : State} {r : CommitRun} {d : Three Bool} (hcommit : s.now.cab.commit = some r)
include hcommit

theorem does_commitVerdicts {m : Mach} (hphase : r.phase = 0)
    (h : (if s.now.commitAborts = true then s.now.abortCommit else s.now.commitVerdicts r d) = m) : Does (.commitVerdicts d) s m := by
  rw [Does, exec_commitVerdicts, execCommitVerdicts, hcommit, ← h]
  exact congrArg _ (if_pos (beq_iff_eq.mpr hphase))

theorem does_commitPoint {m : Mach} (hphase : r.phase = 1)
    (h : (if s.now.commitAborts = true then s.now.abortCommit else ({ s.now with
        cab.copies := s.now.cab.copies.upd r.first fun (c : CabCopy) => { c with mark := true }
        cab.commit := some { r with phase := 2, atF := s.now.time.frame } } : Mach).sendChanged s.now) = m) : Does .commitPoint s m := by
  rw [Does, exec_commitPoint, execCommitPoint, hcommit, ← h]
  exact congrArg _ (if_pos (beq_iff_eq.mpr hphase))

theorem does_commitComplete (hphase : r.phase = 3) : Does .commitComplete s (s.now.commitComplete r).startResume := by
  rw [Does, exec_commitComplete, execCommitComplete, hcommit]
  exact congrArg _ (if_pos (beq_iff_eq.mpr hphase))

end

section
variable (m : Mach) (r : CommitRun) (d : Three Bool)

/-- Verdicts that are not delivered, or late (08 R263). -/
theorem commitVerdicts_of_missing (h : m.coresIn.all d.get = false ∨ 200 < m.since r.atF) :
    m.commitVerdicts r d = (m.raise 0 0xDB 3).endCommit r 0x20 0 := if_pos (by simpa using h)

/-- The entries of a commit whose values differ from those in force (08 R264). -/
def changedEntries (m : Mach) (r : CommitRun) : List Staged := r.entries.filter fun (e : Staged) => e.val != m.valAt e.handle e.id

/-- A commit whose first copy is being written (08 R264). -/
def commitWriting (m : Mach) (r : CommitRun) : CommitRun := { r with
  phase := 1
  gen := m.nextGen
  first := m.firstCopy m.nextGen
  vals := m.cabResult r.entries
  logFrom := m.cab.head + 1
  logN := (changedEntries m r).length }

/-- The first copy is written without its mark, and each changed value has its entry in the log (08 R264). -/
def firstCopyWritten (m : Mach) (r : CommitRun) : Mach :=
  (({ m.endFault 0 0xDB with cab.commit := some (commitWriting m r) } : Mach).writeCopy (m.firstCopy m.nextGen) false m.nextGen
    (m.cabResult r.entries)).logChanges (commitWriting m r) (changedEntries m r)

/-- Verdicts in time are on the configuration that results: it is rejected, changes nothing, or is written (08 R263,
R264). -/
theorem commitVerdicts_of_delivered (hall : m.coresIn.all d.get = true) (htime : m.since r.atF ≤ 200) :
    let bad := (m.withCab (m.cabResult r.entries)).failing
    m.commitVerdicts r d =
      if bad ≠ [] then ({ m.endFault 0 0xDB with
        cab.rejUnit := (rejected r.entries bad).1
        cab.rejId := (rejected r.entries bad).2 } : Mach).endCommit r 0x13 ((rejected r.entries bad).1 + 65536 * (rejected r.entries bad).2)
      else if m.cabResult r.entries = cabCells m.params then ({ m.endFault 0 0xDB with cab.staged := [] } : Mach).endCommit r 0x00 m.cab.gen
      else firstCopyWritten m r := by
  have hin : ¬ (!(m.coresIn.all d.get) || decide (200 < m.since r.atF)) = true := by
    simp [hall, htime]
  simp only [Mach.commitVerdicts, if_neg hin, bne_iff_ne, ne_eq, List.length_eq_zero_iff, beq_iff_eq]
  rfl

end

/-! What the entries of the log leave of the commit. -/

theorem logAppend_copies (m : Mach) (f : LogFields) (old new : Option (List Nat)) : (m.logAppend f old new).cab.copies = m.cab.copies := by
  simp only [Mach.logAppend, Mach.poke]

theorem logAppend_commit (m : Mach) (f : LogFields) (old new : Option (List Nat)) : (m.logAppend f old new).cab.commit = m.cab.commit := by
  simp only [Mach.logAppend, Mach.poke]

theorem logChanges_copies (m : Mach) (r : CommitRun) (ch : List Staged) : (m.logChanges r ch).cab.copies = m.cab.copies := by
  refine foldl_keeps (fun n : Mach => n.cab.copies) (fun n x => ?_) ..
  rw [Mach.logChange]
  split
  · exact logAppend_copies ..
  · rfl

theorem logChanges_commit (m : Mach) (r : CommitRun) (ch : List Staged) : (m.logChanges r ch).cab.commit = m.cab.commit := by
  refine foldl_keeps (fun n : Mach => n.cab.commit) (fun n x => ?_) ..
  rw [Mach.logChange]
  split
  · exact logAppend_commit ..
  · rfl

theorem two_get_set {α : Type} (t : Two α) (i : Ab) (x : α) : (t.set i x).get i = x := by
  cases i <;> rfl

theorem two_get_set_other {α : Type} (t : Two α) (i : Ab) (x : α) : (t.set i x).get i.other = t.get i.other := by
  cases i <;> rfl

theorem endFault_cab (m : Mach) (unit code : Nat) : (m.endFault unit code).cab = m.cab :=
  (endFault_changesOnly m unit code .cab (by decide)).symm

theorem firstCopyWritten_copies (m : Mach) (r : CommitRun) : (firstCopyWritten m r).cab.copies
    = m.cab.copies.set (m.firstCopy m.nextGen) ⟨false, m.nextGen, m.cabResult r.entries⟩ := by
  rw [firstCopyWritten, logChanges_copies, ← endFault_cab m 0 0xDB]
  rfl

theorem firstCopyWritten_commit (m : Mach) (r : CommitRun) : (firstCopyWritten m r).cab.commit = some (commitWriting m r) := by
  rw [firstCopyWritten, logChanges_commit]
  rfl

/-- An abort marks the entries of the log and ends the commit (08 R264). -/
theorem abortCommit_of_aborts {m : Mach} {r : CommitRun} (hcommit : m.cab.commit = some r) (h : m.commitAborts = true) :
    m.abortCommit = ({ m.commitLog r 1 with cab.commit := none } : Mach).completed 0x83 r.tag 0x22 0 0 := by
  rw [Mach.abortCommit, hcommit]
  exact if_pos h

/-- Settles O38: an abort before anything else, then the verdicts (`commitVerdicts_of_missing`,
`commitVerdicts_of_delivered`), the first copy with its mark and the completion. -/
theorem commitRunsToItsPoint : Obligations.CommitRunsToItsPoint := by
  unfold Obligations.CommitRunsToItsPoint
  refine ⟨fun s r d hcommit hphase => ⟨fun hab => does_commitVerdicts hcommit hphase (if_pos hab), fun hab => ⟨fun hmiss => ?missing,
      fun hall htime => ?delivered⟩⟩,
    fun s r hcommit hphase => ⟨fun hab => does_commitPoint hcommit hphase (if_pos hab),
      fun hab => does_commitPoint hcommit hphase (if_neg (by simp [hab]))⟩,
    fun s r => does_commitComplete, fun m r => abortCommit_of_aborts⟩
  case missing =>
    exact does_commitVerdicts hcommit hphase ((if_neg (by simp [hab])).trans (commitVerdicts_of_missing s.now r d hmiss))
  case delivered =>
    have hverdicts := fun m h => does_commitVerdicts (d := d) (m := m) hcommit hphase
      ((if_neg (by simp [hab])).trans ((commitVerdicts_of_delivered s.now r d hall htime).trans h))
    refine ⟨fun hbad => hverdicts _ (if_pos hbad), fun hgood hsame => hverdicts _ ((if_neg (by simpa using hgood)).trans (if_pos hsame)),
      fun hgood hdiff => ?_⟩
    have hwritten := hverdicts _ ((if_neg (by simpa using hgood)).trans (if_neg hdiff))
    refine ⟨hwritten, _, hwritten, ?_, ?_, commitWriting s.now r, firstCopyWritten_commit s.now r, rfl, rfl, rfl⟩
    · exact (congrArg (Two.get · _) (firstCopyWritten_copies s.now r)).trans (two_get_set ..)
    · exact (congrArg (Two.get · _) (firstCopyWritten_copies s.now r)).trans (two_get_set_other ..)

end Sys2Proof.Proofs
end

section
/-!
PROOFS. CAB_PASSWORD and the record that PASSWORD_WRITTEN writes (08 R253 to R255, R268).
-/
namespace Sys2Proof.Proofs

open Sys2Proof Sys2Proof.Machine

theorem exec_cabPassword (tag slot : Nat) (p : List Nat) (s : State) : exec (.cabPassword tag slot p) s = execCabPassword tag slot p s := rfl
theorem exec_passwordWritten (agree : Three Bool) (s : State) : exec (.passwordWritten agree) s = execPasswordWritten agree s := rfl

/-! An element of a list that has been changed at a position. -/

theorem nth_updAt_same {α : Type} (l : List α) {i : Nat} (f : α → α) (d : α) (h : i < l.length) : nth (updAt l i f) i d = f (nth l i d) := by
  induction l generalizing i with
  | nil => simp at h
  | cons x r ih =>
    cases i with
    | zero => rfl
    | succ i => exact ih (by simpa using h)

theorem nth_updAt_other {α : Type} (l : List α) {i k : Nat} (f : α → α) (d : α) (h : k ≠ i) : nth (updAt l i f) k d = nth l k d := by
  induction l generalizing i k with
  | nil => cases k <;> cases i <;> rfl
  | cons x r ih =>
    cases i with
    | zero =>
      obtain ⟨k, rfl⟩ := Nat.exists_eq_succ_of_ne_zero h
      rfl
    | succ i =>
      cases k with
      | zero => rfl
      | succ k => exact ih (by simpa using h)

/-! CAB_PASSWORD. -/

section
variable {s : State} (tag : Nat) {slot : Nat} {p : List Nat} (hs : Serves s 0x86)
include hs

theorem answers_cabPassword_of_busy (h : s.now.cab.pwd.isSome = true) : Answers (.cabPassword tag slot p) s 0x86 tag 0x02 [] s.now :=
  answers_of_serves hs (exec_cabPassword ..) (if_pos h)

variable (hidle : s.now.cab.pwd = none)
include hidle

theorem answers_cabPassword_of_refused (h : s.now.passwordStatus slot p ≠ 0x01) :
    Answers (.cabPassword tag slot p) s 0x86 tag (s.now.passwordStatus slot p) [] s.now :=
  answers_of_serves hs (exec_cabPassword ..) ((if_neg (by simp [hidle])).trans (if_neg (by simpa [stPENDING] using h)))

theorem answers_cabPassword (h : s.now.passwordStatus slot p = 0x01) :
    Answers (.cabPassword tag slot p) s 0x86 tag 0x01 [] { s.now with
      cab.pwd := some ⟨slot, p, tag, s.now.time.frame, s.now.cab.session.getD 0⟩ } :=
  answers_of_serves hs (exec_cabPassword ..) ((if_neg (by simp [hidle])).trans (if_pos (by simp [h, stPENDING])))

end

/-! PASSWORD_WRITTEN. -/

/-- The record that a password run writes: a salt that is drawn and the hash, or an empty one (08 R253, R255). -/
def newCred (m : Mach) (r : PwdRun) : Cred :=
  if r.pwd = [] then Cred.reset else ⟨m.drawSalt.2, passwordHash m.drawSalt.2 r.slot r.pwd⟩

/-- The module with the record of a password run in both state blocks (08 R255). -/
def credWritten (m : Mach) (r : PwdRun) : Mach :=
  ({ m with cab.pwd := none } : Mach).drawSalt.1.writeBlocks (updAt m.creds r.slot fun _ => newCred m r) m.lockSaved

section
variable {s : State} {r : PwdRun} {agree : Three Bool} (hrun : s.now.cab.pwd = some r)
include hrun

theorem does_passwordWritten (hagree : s.now.coresIn.all agree.get = true) :
    Does (.passwordWritten agree) s (((credWritten s.now r).logEvent (if r.pwd = [] then 2 else 1) r.bySlot r.slot).completed
      0x86 r.tag 0x00 0 0) := by
  rw [Does, exec_passwordWritten, execPasswordWritten, hrun]
  dsimp only [on]
  rw [if_pos hagree]
  simp only [beq_iff_eq]
  rfl

theorem does_passwordWritten_of_disagreement (hagree : s.now.coresIn.all agree.get = false) :
    Does (.passwordWritten agree) s (({ s.now with cab.pwd := none } : Mach).completed 0x86 r.tag 0x20 0 0) := by
  rw [Does, exec_passwordWritten, execPasswordWritten, hrun]
  dsimp only [on]
  rw [if_neg (by simp [hagree])]
  rfl

end

theorem post_cab (m : Mach) (kind detail unit code data : Nat) : (m.post kind detail unit code data).cab = m.cab := by
  rw [Mach.post]
  split <;> rfl

/-- What the completion and the entry of the log leave of the records. -/
theorem credWritten_kept (m : Mach) (r : PwdRun) (kind slot unit op tag st u data : Nat) :
    let t := ((credWritten m r).logEvent kind slot unit).completed op tag st u data
    t.cab.pwd = none ∧ t.cab.creds = ⟨updAt m.creds r.slot fun _ => newCred m r, updAt m.creds r.slot fun _ => newCred m r⟩
      ∧ t.cab.locked = ⟨m.lockSaved, m.lockSaved⟩ := by
  intro t
  have hcab : t.cab = ((credWritten m r).logEvent kind slot unit).cab := post_cab ..
  obtain ⟨-, -, hcreds, hlocked⟩ := logEvent_kept (credWritten m r) kind slot unit
  rw [hcab, hcreds, hlocked]
  refine ⟨?_, rfl, rfl⟩
  simp only [Mach.logEvent, Mach.logAppend, Mach.poke]
  rfl

/-- Settles O36: the record that is written is the one of the run (`newCred`), in both state blocks (`credWritten_kept`). -/
theorem passwordChangeCompletes : Obligations.PasswordChangeCompletes := by
  unfold Obligations.PasswordChangeCompletes
  refine ⟨fun s tag slot p hs => ⟨answers_cabPassword_of_busy tag hs, answers_cabPassword_of_refused tag hs, answers_cabPassword tag hs⟩,
    fun s r agree => does_passwordWritten, fun s r agree hrun hagree hslot hlen => ?records, fun s r agree => does_passwordWritten_of_disagreement⟩
  case records =>
    obtain ⟨hpwd, hcreds, hlocked⟩ := credWritten_kept s.now r (if r.pwd = [] then 2 else 1) r.bySlot r.slot 0x86 r.tag 0x00 0 0
    refine ⟨_, does_passwordWritten hrun hagree, hpwd, fun x => ?_⟩
    have hboth {α : Type} (y : α) : (⟨y, y⟩ : Two α).get x = y := by cases x <;> rfl
    have hsame := nth_updAt_same s.now.creds (fun _ => newCred s.now r) Cred.reset (hlen ▸ hslot)
    dsimp only
    rw [hcreds, hlocked, hboth, hboth, hsame]
    exact ⟨fun h => if_pos h, fun h => if_neg h, fun k _ hk => nth_updAt_other _ _ _ hk, rfl⟩

end Sys2Proof.Proofs
end

section
/-!
PROOFS. Login, sessions and the lockout, the staging of a configuration and the reading of the change log (08 R256 to R261,
R265, R266).
-/
namespace Sys2Proof.Proofs

open Sys2Proof Sys2Proof.Machine

theorem exec_cabLogin (tag slot : Nat) (p : List Nat) (s : State) : exec (.cabLogin tag slot p) s = execCabLogin tag slot p s := rfl
theorem exec_loginVerified (agree : Three Bool) (s : State) : exec (.loginVerified agree) s = execLoginVerified agree s := rfl
theorem exec_cabLogout (tag : Nat) (s : State) : exec (.cabLogout tag) s = execCabLogout tag s := rfl
theorem exec_sessionExpired (s : State) : exec .sessionExpired s = execSessionExpired s := rfl
theorem exec_cabLockoutEnd (s : State) : exec .cabLockoutEnd s = execCabLockoutEnd s := rfl
theorem exec_lockoutStateWrite (s : State) : exec .lockoutStateWrite s = execLockoutStateWrite s := rfl
theorem exec_cabStage (tag : Nat) (es : List StageEntry) (s : State) : exec (.cabStage tag es) s = execCabStage tag es s := rfl
theorem exec_cabDiscard (tag : Nat) (s : State) : exec (.cabDiscard tag) s = execCabDiscard tag s := rfl
theorem exec_cabLogRead (tag first n : Nat) (s : State) : exec (.cabLogRead tag first n) s = execCabLogRead tag first n s := rfl

/-! CAB_LOGIN and LOGIN_VERIFIED. -/

section
variable {s : State} (tag slot : Nat) (p : List Nat) (hs : Serves s 0x80)
include hs

theorem answers_cabLogin_of_lockout (h : 0 < s.now.cab.lockout) : Answers (.cabLogin tag slot p) s 0x80 tag 0x21 [] s.now :=
  answers_of_serves hs (exec_cabLogin ..) (if_pos h)

variable (hfree : s.now.cab.lockout = 0)
include hfree

theorem answers_cabLogin_of_busy (h : s.now.session = true ∨ s.now.cab.login.isSome = true) :
    Answers (.cabLogin tag slot p) s 0x80 tag 0x02 [] s.now :=
  answers_of_serves hs (exec_cabLogin ..) ((if_neg (by omega)).trans (if_pos (by simpa using h)))

theorem answers_cabLogin (hsession : s.now.session = false) (hlogin : s.now.cab.login = none) :
    Answers (.cabLogin tag slot p) s 0x80 tag 0x01 [] { s.now with cab.login := some ⟨slot, p, tag, s.now.time.frame⟩ } :=
  answers_of_serves hs (exec_cabLogin ..) ((if_neg (by omega)).trans (if_neg (by simp [hsession, hlogin])))

end

/-- What a login needs: a slot that was set at the end of the frame before, the form of a password, and the hash of the
slot, on which every core that votes agrees (08 R256). -/
def loginGood (s : State) (r : LoginRun) (agree : Three Bool) : Prop :=
  r.slot < 4 ∧ s.shown.slotSet r.slot = true ∧ passwordOk r.pwd = true ∧ s.now.coresIn.all agree.get = true
    ∧ passwordHash (s.shown.cred r.slot).salt r.slot r.pwd = (s.shown.cred r.slot).hash

/-- A session has opened (08 R256, R258, R259). -/
def loggedIn (m : Mach) (r : LoginRun) : Mach :=
  ({ m with
    cab.login := none
    cab.session := some r.slot
    cab.staged := m.firstStaged
    cab.sessAt := m.time.frame
    cab.fails := 0
    cab.locked := ⟨(0, (m.cab.lockout + 3999) / 4000), (0, (m.cab.lockout + 3999) / 4000)⟩ } : Mach).completed 0x80 r.tag 0x00 0 r.slot

theorem exec_loginVerified_of_pending {s : State} {r : LoginRun} (agree : Three Bool) (h : s.now.cab.login = some r)
    [Decidable (loginGood s r agree)] : exec (.loginVerified agree) s =
    .next { s with now := if loginGood s r agree then loggedIn s.now r else s.now.loginFailed r.tag r.slot } := by
  have hgood : (decide (r.slot < 4) && s.shown.slotSet r.slot && passwordOk r.pwd && s.now.coresIn.all agree.get
      && passwordHash (s.shown.cred r.slot).salt r.slot r.pwd == (s.shown.cred r.slot).hash) = true ↔ loginGood s r agree := by
    simp only [Bool.and_eq_true, decide_eq_true_eq, beq_iff_eq, and_assoc, loginGood]
  rw [exec_loginVerified, execLoginVerified, h]
  simp only [on, hgood]
  rfl

/-- A failed login, from the fifth on with a lockout, its fault and its event (08 R258, R259). -/
theorem loginFailed_eq (m : Mach) (tag slot : Nat) :
    let n := min 255 (m.cab.fails + 1)
    let d := if n < 5 then 0 else if n ≤ 12 then 10 * 2 ^ (n - 5) else 1440
    let m1 : Mach := { m with cab.login := none, cab.fails := n, cab.lockout := 240000 * d, cab.locked := ⟨(n, 60 * d), (n, 60 * d)⟩ }
    m.loginFailed tag slot = if 0 < d then ((m1.raise 0 0xE8 1).post 7 2 0 0 (60 * d)).completed 0x80 tag 0x20 0 slot
      else m1.completed 0x80 tag 0x20 0 slot := by
  intro n d m1
  have hn : satAdd 8 m.cab.fails 1 = n := Nat.min_comm ..
  have hframes : 60 * sF (lockoutMin n) = 240000 * d := by
    rw [sF, ← Nat.mul_assoc]
    rfl
  have hm1 : ({ m with cab.login := none, cab.fails := n, cab.lockout := 60 * sF (lockoutMin n) } : Mach).saveLock n (60 * lockoutMin n)
      = m1 := by
    rw [hframes]
    rfl
  simp only [Mach.loginFailed, hn, hm1]
  exact apply_ite (fun x : Mach => x.completed 0x80 tag 0x20 0 slot) (0 < d) _ _

/-! Sessions and the lockout (08 R257 to R259). -/

theorem does_sessionExpired {s : State} (hsession : s.now.session = true) (hlate : 3600000 ≤ s.now.since s.now.cab.sessAt) :
    Does .sessionExpired s (s.now.endSession 0) := by
  refine does_of_onWhen (exec_sessionExpired s) ?_ rfl
  rw [hsession, Bool.true_and]
  exact decide_eq_true hlate

theorem does_cabLockoutEnd {s : State} (hover : s.now.cab.lockout = 0) (hforce : s.now.inForce 0 0xE8 = true) :
    Does .cabLockoutEnd s ((s.now.saveLock s.now.cab.fails 0).endFault 0 0xE8) :=
  does_of_onWhen (exec_cabLockoutEnd s) (by simp [hover, hforce]) rfl

theorem does_lockoutStateWrite {s : State} (hlock : 0 < s.now.cab.lockout) (hless : s.now.lockoutLeft < s.now.lockSaved.2) :
    Does .lockoutStateWrite s (s.now.saveLock s.now.cab.fails s.now.lockoutLeft) :=
  does_of_onWhen (exec_lockoutStateWrite s) (by simp [hlock, hless]) rfl

/-! Staging (08 R260, R261). -/

/-- The staged set with the entries of a command staged in turn (08 R260). -/
def stagedWith (m : Mach) (es : List StageEntry) : List Staged := (es.map stagedOf).foldl stagePut m.cab.staged

section
variable {s : State} (tag : Nat) {es : List StageEntry} (hs : Serves s 0x82)
include hs

theorem answers_cabStage_without_session (h : s.now.session = false) : Answers (.cabStage tag es) s 0x82 tag 0x20 [] s.now :=
  answers_of_serves hs (exec_cabStage ..) (if_pos (by simp [h]))

variable (hsession : s.now.session = true)
include hsession

theorem answers_cabStage_of_busy (h : s.now.cab.commit.isSome = true) : Answers (.cabStage tag es) s 0x82 tag 0x02 [] s.now :=
  answers_of_serves hs (exec_cabStage ..) ((if_neg (by simp [hsession])).trans (if_pos h))

/-- In a session without a commit the entries are judged together, by 0x13, the size of the set and 0x30 in turn
(08 R260). -/
theorem answers_cabStage_of_judged (hidle : s.now.cab.commit = none) {st : Nat} {p : List Nat} {m : Mach}
    (h : (if (∃ e ∈ es, s.now.stageStatus e = 0x13) ∨ 2048 < (stagedWith s.now es).length then refuse s.now 0x13
      else if ∃ e ∈ es, s.now.stageStatus e = 0x30 then refuse s.now 0x30
      else ({ s.now with cab.staged := stagedWith s.now es }, 0x00, le 2 (stagedWith s.now es).length)) = (m, st, p)) :
    Answers (.cabStage tag es) s 0x82 tag st p m := by
  have hmem (x : Nat) : (es.map s.now.stageStatus).contains x = true ↔ ∃ e ∈ es, s.now.stageStatus e = x := by
    simp only [List.contains_iff_mem, List.mem_map]
  refine answers_of_serves hs (exec_cabStage ..) ?_
  rw [if_neg (by simp [hsession]), if_neg (by simp [hidle])]
  simp only [Bool.or_eq_true, hmem, decide_eq_true_eq]
  exact h

end

section
variable {s : State} (tag : Nat) (hs : Serves s 0x84)
include hs

theorem answers_cabDiscard_without_session (h : s.now.session = false) : Answers (.cabDiscard tag) s 0x84 tag 0x20 [] s.now :=
  answers_of_serves hs (exec_cabDiscard ..) (if_pos (by simp [h]))

variable (hsession : s.now.session = true)
include hsession

theorem answers_cabDiscard_of_busy (h : s.now.cab.commit.isSome = true) : Answers (.cabDiscard tag) s 0x84 tag 0x02 [] s.now :=
  answers_of_serves hs (exec_cabDiscard ..) ((if_neg (by simp [hsession])).trans (if_pos h))

theorem answers_cabDiscard (hidle : s.now.cab.commit = none) :
    Answers (.cabDiscard tag) s 0x84 tag 0x00 [] { s.now with cab.staged := [] } :=
  answers_of_serves hs (exec_cabDiscard ..) ((if_neg (by simp [hsession])).trans (if_neg (by simp [hidle])))

end

/-! The reading of the change log (08 R265, R266). -/

/-- The first entry that CAB_LOG_READ gives: the one named, or the oldest still held. -/
def logFirst (m : Mach) (first : Nat) : Nat := max first m.logOldest

/-- How many entries follow: the number asked for, or as many as there are. -/
def logTaken (m : Mach) (first n : Nat) : Nat := min n (m.cab.head + 1 - logFirst m first)

section
variable {s : State} (tag first : Nat) {n : Nat} (hs : Serves s 0x85)
include hs

theorem answers_cabLogRead_of_badCount (h : n < 1 ∨ 15 < n) : Answers (.cabLogRead tag first n) s 0x85 tag 0x13 [] s.now :=
  answers_of_serves hs (exec_cabLogRead ..) (if_pos (by simpa using h))

variable (hlow : 1 ≤ n) (hhigh : n ≤ 15)
include hlow hhigh

/-- A number of entries in range is read where all of them pass their checks. -/
theorem answers_cabLogRead_of_count {st : Nat} {p : List Nat} {m : Mach}
    (h : (if !((List.range (logTaken s.now first n)).all fun i => s.now.logGood (logFirst s.now first + i)) then refuse s.now stRETRY
      else (s.now, stOK, le 4 s.now.cab.head ++ le 4 s.now.cab.overwrites
        ++ [b2n (decide (first < s.now.logOldest) && decide (1 ≤ first)), logTaken s.now first n]
        ++ (List.range (logTaken s.now first n)).flatMap fun i => s.now.peek (logAddr (logFirst s.now first + i)) 256)) = (m, st, p)) :
    Answers (.cabLogRead tag first n) s 0x85 tag st p m :=
  answers_of_serves hs (exec_cabLogRead ..) ((if_neg (by simp; omega)).trans h)

end

/-- Settles O34: a login is good or fails (`exec_loginVerified_of_pending`, `loginFailed_eq`), entries are staged together
or refused (`answers_cabStage_of_judged`), and the log is read where every entry passes its checks. -/
theorem loginStagingAndLockout : Obligations.LoginStagingAndLockout := by
  unfold Obligations.LoginStagingAndLockout
  refine ⟨⟨fun s tag slot p hs => ⟨answers_cabLogin_of_lockout tag slot p hs, answers_cabLogin_of_busy tag slot p hs, answers_cabLogin tag slot p hs⟩,
      fun s r agree hlogin => ⟨fun hgood => ?loggedIn, fun hbad => ⟨fun hd => ?failed, fun hd => ?lockedOut⟩⟩,
      fun s tag hs => answers_of_serves hs (exec_cabLogout ..) rfl, fun s => does_sessionExpired, fun m cause hsession => if_pos hsession⟩,
    ⟨fun s => does_cabLockoutEnd, fun s => does_lockoutStateWrite⟩,
    ⟨fun s tag es hs => ⟨answers_cabStage_without_session tag hs, answers_cabStage_of_busy tag hs, fun hsession hidle => ?staged⟩,
      fun s tag hs => ⟨answers_cabDiscard_without_session tag hs, answers_cabDiscard_of_busy tag hs, answers_cabDiscard tag hs⟩,
      fun s tag first n hs => ⟨answers_cabLogRead_of_badCount tag first hs, fun hlow hhigh => ⟨fun hgood => ?read, fun hbad => ?unread⟩⟩⟩⟩
  case loggedIn =>
    classical
    rw [Does, exec_loginVerified_of_pending agree hlogin, if_pos (show loginGood s r agree from hgood)]
    rfl
  case failed =>
    classical
    rw [Does, exec_loginVerified_of_pending agree hlogin, if_neg (show ¬ loginGood s r agree from hbad), loginFailed_eq]
    dsimp only
    rw [if_neg (by omega)]
  case lockedOut =>
    classical
    rw [Does, exec_loginVerified_of_pending agree hlogin, if_neg (show ¬ loginGood s r agree from hbad), loginFailed_eq]
    dsimp only
    rw [if_pos hd]
  case staged =>
    refine ⟨fun h => answers_cabStage_of_judged tag hs hsession hidle (if_pos h), fun hpass hlen hunit => ?_, fun hall hlen => ?_⟩
    · refine answers_cabStage_of_judged tag hs hsession hidle ((if_neg ?_).trans (if_pos hunit))
      rintro (⟨e, he, hst⟩ | hlong)
      · exact hpass e he hst
      · exact hlong.not_ge hlen
    · refine answers_cabStage_of_judged tag hs hsession hidle ((if_neg ?_).trans (if_neg ?_))
      · rintro (⟨e, he, hst⟩ | hlong)
        · exact absurd (hst.symm.trans (hall e he)) (by decide)
        · exact hlong.not_ge hlen
      · rintro ⟨e, he, hst⟩
        exact absurd (hst.symm.trans (hall e he)) (by decide)
  case read => exact answers_cabLogRead_of_count tag first hs hlow hhigh (if_neg (by simpa [logTaken, logFirst] using hgood))
  case unread =>
    exact answers_cabLogRead_of_count tag first hs hlow hhigh (if_pos (by simpa [logTaken, logFirst] using hbad))

end Sys2Proof.Proofs
end

section
/-!
PROOFS. The plain commands of the host port (14 R460, R462, R463, R468; 02 R55, R57).
-/
namespace Sys2Proof.Proofs

open Sys2Proof Sys2Proof.Machine

theorem exec_nop (tag : Nat) (s : State) : exec (.nop tag) s = execNop tag s := rfl
theorem exec_ident (tag : Nat) (s : State) : exec (.ident tag) s = execIdent tag s := rfl
theorem exec_status (tag : Nat) (s : State) : exec (.status tag) s = execStatus tag s := rfl
theorem exec_resetPort (tag : Nat) (s : State) : exec (.resetPort tag) s = execResetPort tag s := rfl
theorem exec_evtRead (tag ack f n : Nat) (s : State) : exec (.evtRead tag ack f n) s = execEvtRead tag ack f n s := rfl
theorem exec_timeSet (tag wall ref : Nat) (s : State) : exec (.timeSet tag wall ref) s = execTimeSet tag wall ref s := rfl
theorem exec_budgetSet (tag pol mix : Nat) (s : State) : exec (.budgetSet tag pol mix) s = execBudgetSet tag pol mix s := rfl

/-- The last n bytes of a byte string that ends in an n-byte field are that field. -/
theorem drop_append_le (a : List Nat) (n x : Nat) : (a ++ le n x).drop ((a ++ le n x).length - n) = le n x := by
  refine List.drop_left' ?_
  rw [List.length_append, le_length, Nat.add_sub_cancel]

theorem answers_ident {s : State} (tag : Nat) (hs : Serves s 0x01) :
    ∃ p, Answers (.ident tag) s 0x01 tag 0x00 p s.now ∧ p.drop (p.length - 4) = le 4 s.shown.sec.boots :=
  ⟨_, answers_of_serves hs (exec_ident ..) rfl, drop_append_le ..⟩

section
variable {s : State} (tag ack f : Nat) {n : Nat} (hs : Serves s 0x04)
include hs

theorem answers_evtRead_of_badCount (h : n < 1 ∨ 64 < n) : Answers (.evtRead tag ack f n) s 0x04 tag 0x13 [] s.now :=
  answers_of_serves hs (exec_evtRead ..) (if_pos (by simpa using h))

theorem answers_evtRead (hlow : 1 ≤ n) (hhigh : n ≤ 64) :
    let q := if bit f 0 then s.now.host.queue.filter fun (e : EvtRec) => newer 16 e.seq ack else s.now.host.queue
    Answers (.evtRead tag ack f n) s 0x04 tag 0x00 (le 2 q.length ++ [(q.take n).length] ++ (q.take n).flatMap evtBytes)
      { s.now with host.queue := q } :=
  answers_of_serves hs (exec_evtRead ..) (if_neg (by simp; omega))

end

section
variable {s : State} (tag : Nat) {pol mix : Nat} (hs : Serves s 0x06)
include hs

theorem answers_budgetSet_of_badParam (h : 2 < pol ∨ 100 < mix) : Answers (.budgetSet tag pol mix) s 0x06 tag 0x13 [] s.now :=
  answers_of_serves hs (exec_budgetSet ..) (if_pos (by simpa using h))

theorem answers_budgetSet (hpol : pol ≤ 2) (hmix : mix ≤ 100) :
    Answers (.budgetSet tag pol mix) s 0x06 tag 0x00 [] { s.now with deferred := s.now.deferred
      ++ [⟨0, pBUDGET_POLICY, [(pol : Int)], false, (0x06, tag)⟩, ⟨0, pBUDGET_MIX_SPOOL, [(mix : Int)], false, (0x06, tag)⟩] } :=
  answers_of_serves hs (exec_budgetSet ..) (if_neg (by simp [hpol, hmix]))

end

/-- Settles O16: each command has the one answer of its row, but EVT_READ and BUDGET_SET, which also refuse operands out
of range. -/
theorem plainHostCommandsAnswered : Obligations.PlainHostCommandsAnswered := by
  unfold Obligations.PlainHostCommandsAnswered
  exact ⟨fun s tag hs => answers_of_serves hs (exec_nop ..) rfl, fun s tag hs => answers_ident tag hs,
    fun s tag hs => answers_of_serves hs (exec_status ..) rfl, fun s tag hs => answers_of_serves hs (exec_resetPort ..) rfl,
    fun s tag ack f n hs => ⟨answers_evtRead_of_badCount tag ack f hs, answers_evtRead tag ack f hs⟩,
    fun s tag wall ref hs => answers_of_serves hs (exec_timeSet ..) rfl,
    fun s tag pol mix hs => ⟨answers_budgetSet_of_badParam tag hs, answers_budgetSet tag hs⟩⟩

end Sys2Proof.Proofs
end

section
/-!
PROOFS. The end of a gate of the clock monitors, and a core that misses its tick (02 R50 to R53).
-/
namespace Sys2Proof.Proofs

open Sys2Proof Sys2Proof.Machine

theorem exec_clockGateEnd (g : GateEnd) (s : State) : exec (.clockGateEnd g) s = on s fun m => m.clockGate g.counts g.unlocked := rfl
theorem exec_frameTickLost (k : CoreId) (s : State) : exec (.frameTickLost k) s = execFrameTickLost k s := rfl

section
variable (m : Mach) (counts unlocked : List Nat)

/-- The monitors and the SYS PLL are judged at the end of a gate, before the SAFE domains (02 R50, R51). -/
def monitorsJudged : Mach :=
  let r := m.clockRuns counts unlocked
  let m1 : Mach := { r.each r.clockFaults fun m x => m.judgeClock counts unlocked x with time.gateSpans := false }
  if 0 ∈ unlocked then m1.raise 0 0x08 5 else m1

/-- The pattern of the three SAFE domains, of which one without lock counts nothing (02 R51, R52). -/
def gatePattern : SafePattern :=
  let n (k : Nat) : Nat := if k ∈ unlocked then 0 else nth counts k 0
  safePattern (n 3) (n 4) (n 5)

/-- A SAFE domain alone that is wrong: its core is proposed for exclusion, unless it is excluded (02 R52). -/
def coreDeviates (m2 : Mach) (k : CoreId) : Mach :=
  if m2.triad.excluded.get k = true then m2
  else { m2.raise 0x0500 0x0A (if m2.nat pTRIAD_DEGRADED_POLICY = 1 then 2 else 3) with
    triad.propose := m2.triad.propose.set k true
    triad.causes := (m2.triad.causes.filter fun (x : Nat × Nat) => x.1 != k.idx) ++ [(k.idx, 0x0A)] }

/-- After the monitors the SAFE domains are judged by their pattern (02 R52). -/
theorem clockGate_eq : m.clockGate counts unlocked = match gatePattern counts unlocked with
    | .fine => monitorsJudged m counts unlocked
    | .sys => (monitorsJudged m counts unlocked).raise 0 0x08 5
    | .other => (monitorsJudged m counts unlocked).raiseWorse 0x0500 0x0A 5
    | .one k => coreDeviates (monitorsJudged m counts unlocked) k := by
  have hjudged : (if unlocked.contains 0 then (m.clocksJudged counts unlocked).raise 0 0x08 5 else m.clocksJudged counts unlocked)
      = monitorsJudged m counts unlocked := by
    simp only [List.contains_iff_mem]
    rfl
  have hpattern : safePattern (safeCount counts unlocked 3) (safeCount counts unlocked 4) (safeCount counts unlocked 5)
      = gatePattern counts unlocked := by
    simp only [safeCount, List.contains_iff_mem]
    rfl
  dsimp only [Mach.clockGate]
  rw [hjudged, hpattern]
  cases gatePattern counts unlocked with
  | one k =>
    dsimp only
    rw [triadClass_eq]
    rfl
  | _ => rfl

end

/-- Settles O40: the pattern of the SAFE domains decides (`clockGate_eq`). -/
theorem clockEventsComplete : Obligations.ClockEventsComplete := by
  unfold Obligations.ClockEventsComplete
  refine ⟨fun s counts unlocked => ?gate, fun s k => rfl⟩
  case gate =>
    have hgate (m : Mach) (h : s.now.clockGate counts unlocked = m) : Does (.clockGateEnd ⟨counts, unlocked⟩) s m := by
      rw [Does, exec_clockGateEnd, on, h]
    have heq := clockGate_eq s.now counts unlocked
    refine ⟨fun hp => hgate _ ?_, fun hp => hgate _ ?_, fun hp => hgate _ ?_, fun k hp => ⟨fun hout => hgate _ ?_, fun hin => hgate _ ?_⟩⟩
    all_goals rw [heq, show gatePattern counts unlocked = _ from hp]
    · rfl
    · rfl
    · rfl
    · exact if_pos hout
    · exact if_neg (ne_true_of_eq_false hin)

end Sys2Proof.Proofs
end

section
/-!
PROOFS. The inputs as they are read and debounced, and wire breaks (10 R318 to R320).
-/
namespace Sys2Proof.Proofs

open Sys2Proof Sys2Proof.Machine

theorem exec_inputDebounced (ch : Nat) (x : InSample) (n : Nat) (s : State) :
    exec (.inputDebounced ch x n) s = execInputDebounced ch x n s := rfl
theorem exec_wireBreak (ch n : Nat) (s : State) : exec (.wireBreak ch n) s = execWireBreak ch n s := rfl

/-- A reading above or below two thresholds (10 R318). -/
def betweenBands (on off x : Nat) : Option Bool := if on ≤ x then some true else if x ≤ off then some false else none

section
variable (m : Mach) (ch x : Nat)

theorem readBand_of_high (h : m.fMode ch = 1) : m.readBand ch x = betweenBands 15000 5000 x := by
  rw [Mach.readBand, h]
  rfl

theorem readBand_of_monitored (h : m.fMode ch = 3) :
    m.readBand ch x = if x < 350 then some (m.fInSafe ch) else betweenBands 2000 1600 x := by
  rw [Mach.readBand, h]
  rfl

theorem readBand_of_other (h1 : m.fMode ch ≠ 1) (h3 : m.fMode ch ≠ 3) : m.readBand ch x = betweenBands 11000 5000 x := by
  rw [Mach.readBand]
  split
  · contradiction
  · contradiction
  · rfl

theorem wireEnds_of_good {n : Nat} (hwire : bit m.field.wire ch = true) (hn : 1600 ≤ m.wireCount ch n) :
    m.wireEnds ch n = ({ m with field.wire := setBit m.field.wire ch false } : Mach).reportEnd (0x0100 + ch) 0x80 :=
  if_pos (by simp [hwire, hn])

theorem wireEnds_of_bad {n : Nat} (h : bit m.field.wire ch = false ∨ m.wireCount ch n < 1600) : m.wireEnds ch n = m := by
  refine if_neg ?_
  rcases h with h | h <;> simp [h]

/-- The channel's IN bit follows the level, which is recorded and counted (10 R319). -/
def inFollows (m : Mach) (ch : Nat) (level : Bool) : Mach :=
  let m1 : Mach := { m with field.undef := setBit m.field.undef ch false }
  { m1.count 9 1 ch with
    field.inBits := setBit m1.field.inBits ch level
    field.trans := aSet m1.field.trans ch (sat32 (aGet m1.field.trans ch 0)) }

theorem debounced_of_stable {level : Bool} {n : Nat} (h : bit m.field.inBits ch = level ∨ n < max 1 (m.fDebounce ch)) :
    m.debounced ch (some level) n = { m with field.undef := setBit m.field.undef ch false } := by
  refine if_neg ?_
  rw [Bool.and_eq_true, bne_iff_ne, decide_eq_true_iff, not_and_or, not_not, Nat.not_le]
  exact h

theorem debounced_of_change {level : Bool} {n : Nat} (hlevel : bit m.field.inBits ch ≠ level) (hn : max 1 (m.fDebounce ch) ≤ n) :
    m.debounced ch (some level) n = inFollows m ch level := by
  refine if_pos ?_
  rw [Bool.and_eq_true, bne_iff_ne, decide_eq_true_iff]
  exact ⟨hlevel, hn⟩

end

section
variable {s : State} {ch reading n unbroken : Nat} (heval : s.now.evaluates ch = true) (hn : n ≠ 0)
include heval hn

theorem does_inputDebounced {level : Option Bool} {m : Mach} (hlevel : s.now.readBand ch reading = level)
    (h : (s.now.wireEnds ch unbroken).debounced ch level n = m) : Does (.inputDebounced ch ⟨reading, unbroken⟩ n) s m := by
  refine does_of_onWhen (by rw [exec_inputDebounced, execInputDebounced]) (by simp [heval, hn]) ?_
  dsimp only
  rw [hlevel, h]

theorem does_wireBreak {m : Mach} (hmode : s.now.fMode ch = 3) (h : s.now.wireBreak ch n = m) : Does (.wireBreak ch n) s m :=
  does_of_onWhen (by rw [exec_wireBreak, execWireBreak]) (by simp [heval, hmode, hn]) h

end

end Sys2Proof.Proofs
end

section
/-!
PROOFS. The outputs: limits and retries, group overloads, shorts to the supply, and the end of stopping (10 R323 to R325,
R333).
-/
namespace Sys2Proof.Proofs

open Sys2Proof Sys2Proof.Machine

theorem exec_outputLimit (ch : Nat) (cause : LimitCause) (s : State) : exec (.outputLimit ch cause) s = execOutputLimit ch cause s := rfl
theorem exec_outputRetry (ch : Nat) (s : State) : exec (.outputRetry ch) s = execOutputRetry ch s := rfl
theorem exec_groupOverload (g ma us : Nat) (s : State) : exec (.groupOverload g ma us) s = execGroupOverload g ma us s := rfl
theorem exec_shortToSupply (ch n : Nat) (s : State) : exec (.shortToSupply ch n) s = execShortToSupply ch n s := rfl
theorem exec_channelStoppingEnd (ch : Nat) (s : State) : exec (.channelStoppingEnd ch) s = execChannelStoppingEnd ch s := rfl

section
variable {s : State} {ch : Nat}

section
variable (hch : ch < 64) (hmode : outputMode (s.now.fMode ch) = true) (hon : bit s.now.field.driver ch = true)
include hch hmode hon

theorem does_outputLimit_of_current {us : Nat} (hus : 5000 ≤ us) : Does (.outputLimit ch (.current us)) s
    (({ s.now.limitOff ch with field.limit := setBit (s.now.limitOff ch).field.limit ch true } : Mach).report (0x0100 + ch) 0x81
      (s.now.outClass ch 4)) :=
  does_of_onWhen (exec_outputLimit ..) (by simp [hch, hmode, hon, hus]) rfl

theorem does_outputLimit_of_temp {t : Int} (ht : 1650 ≤ t) : Does (.outputLimit ch (.temp t)) s
    (({ s.now.limitOff ch with
      field.overtemp := setBit (s.now.limitOff ch).field.overtemp ch true
      field.temp := aSet (s.now.limitOff ch).field.temp ch t } : Mach).report (0x0100 + ch) 0x82 (s.now.outClass ch 4)) :=
  does_of_onWhen (exec_outputLimit ..) (by simp [hch, hmode, hon, ht]) rfl

end

theorem does_outputRetry (hretry : bit s.now.field.retry ch = true) (hdelay : aGet s.now.field.retryAt ch 0 ≤ s.now.time.frame)
    (hcool : aGet s.now.field.temp ch 0 < 1450) : Does (.outputRetry ch) s (({ s.now with
      field.retry := setBit s.now.field.retry ch false
      field.retryAt := aDel s.now.field.retryAt ch } : Mach).driveAll [ch]) :=
  does_of_onWhen (exec_outputRetry ..) (by simp [hretry, hdelay, hcool]) rfl

theorem does_groupOverload {g ma us : Nat} (hg : g < 8) (hon : bit s.now.field.groupsOff g = false)
    (hover : (4000 < ma ∧ 1000000 ≤ us) ∨ (6000 < ma ∧ 10000 ≤ us)) : Does (.groupOverload g ma us) s
      ((({ s.now with field.groupsOff := setBit s.now.field.groupsOff g true } : Mach).allOff (groupChannels g)).each
        (groupChannels g) fun m c => m.report (chHandle c) 0x8B (if g ≤ 1 then 5 else 3)) :=
  does_of_onWhen (exec_groupOverload ..) (by simpa [hg, hon] using hover) rfl

/-- An output with its driver off, by its readback for so many link ticks (10 R325). -/
theorem does_shortToSupply {n : Nat} {m : Mach} (hch : ch < 64) (hmode : outputMode (s.now.fMode ch) = true)
    (hoff : bit s.now.field.driver ch = false)
    (h : (if n = 0 then { s.now with field.rb := setBit s.now.field.rb ch false }
      else if 320 ≤ n ∧ bit s.now.field.short ch = false ∧ bit s.now.field.cross ch = false then
        ({ s.now with
          field.rb := setBit s.now.field.rb ch true
          field.short := setBit s.now.field.short ch true } : Mach).report (0x0100 + ch) 0x83 (s.now.outClass ch 5)
      else { s.now with field.rb := setBit s.now.field.rb ch true }) = m) : Does (.shortToSupply ch n) s m := by
  refine does_of_onWhen (exec_shortToSupply ..) (by simp [hch, hmode, hoff]) ?_
  simp only [beq_iff_eq, Bool.and_eq_true, Bool.not_eq_true', decide_eq_true_eq, and_assoc]
  exact h

theorem does_channelStoppingEnd (hch : ch < 64) (hown : (s.now.cellAt (0x0100 + ch)).own = .stopping)
    (hover : bit s.now.field.rb ch = false ∨ 40 ≤ s.now.time.frame - (s.now.cellAt (0x0100 + ch)).since) :
    Does (.channelStoppingEnd ch) s (s.now.cell (0x0100 + ch) fun x => { x with own := .off, since := s.now.time.frame }) := by
  have hpassed : s.now.passedMs (s.now.cellAt (chHandle ch)).since 10 = true ↔
      40 ≤ s.now.time.frame - (s.now.cellAt (0x0100 + ch)).since := decide_eq_true_iff
  refine does_of_onWhen (by rw [exec_channelStoppingEnd, execChannelStoppingEnd]) ?_ rfl
  rw [show (s.now.cellAt (chHandle ch)).own = .stopping from hown]
  simpa [hch, hpassed] using hover

end

end Sys2Proof.Proofs
end

section
/-!
PROOFS. The end of a test pulse and its judgement (10 R328 to R330), and what the events of the inputs and outputs do.
-/
namespace Sys2Proof.Proofs

open Sys2Proof Sys2Proof.Machine

theorem exec_testPulseEnd (inp : PulseIn) (s : State) : exec (.testPulseEnd inp) s = execTestPulseEnd inp s := rfl

section
variable {s : State} {p : PulseRun} (inp : PulseIn) (hpulse : s.now.field.pulse = some p)
include hpulse

theorem does_testPulseEnd_of_discarded (h : p.discarded = true) : Does (.testPulseEnd inp) s { s.now with
    field.pulse := none
    field.xcPartner := none
    field.reserve := setBit s.now.field.reserve p.ch true
    field.tpResult := some (p.ch, 3) } := by
  rw [Does, exec_testPulseEnd, execTestPulseEnd, hpulse]
  exact congrArg (fun x : Mach => Host.Outcome.next { s with now := x }) (if_pos h)

theorem does_testPulseEnd_of_judged (h : p.discarded = false) :
    let r := ({ s.now with field.pulse := none, field.xcPartner := none } : Mach).judgePulse p.ch p.drv inp
    Does (.testPulseEnd inp) s { r.1.checkInputs p.ch p.ins inp with field.tpResult := some (p.ch, r.2) } := by
  rw [Does, exec_testPulseEnd, execTestPulseEnd, hpulse]
  exact congrArg (fun x : Mach => Host.Outcome.next { s with now := x }) (if_neg (ne_true_of_eq_false h))

end

section
variable (m : Mach) (ch drv : Nat) (inp : PulseIn)

theorem judgePulse_of_high (hnone : m.crossed ch drv inp.followers = []) (hrb : inp.rb = true) : m.judgePulse ch drv inp =
    (({ m with field.pulseFail := setBit m.field.pulseFail ch true } : Mach).report (0x0100 + ch) 0x85 (m.outClass ch 5), 2) := by
  simp only [Mach.judgePulse, hnone, hrb]
  rfl

theorem judgePulse_of_low (hnone : m.crossed ch drv inp.followers = []) (hrb : inp.rb = false) : m.judgePulse ch drv inp =
    (if m.inForce (0x0100 + ch) 0x84 then (m.pulsePassed ch).uncross ch 0x84 else m.pulsePassed ch, 1) := by
  simp only [Mach.judgePulse, hnone, hrb]
  rfl

theorem judgePulse_of_crossed (hsome : m.crossed ch drv inp.followers ≠ []) : (m.judgePulse ch drv inp).1 =
    (if inp.rb then m else m.pulsePassed ch).pulseCrossed ch (m.crossed ch drv inp.followers) := if_pos (bne_iff_ne.mpr hsome)

theorem mem_crossed_iff (d : Nat) (fs : List Nat) : d ∈ m.crossed ch drv fs ↔
    (d ∈ fs ∧ d ≠ ch ∧ d < 64 ∧ outputMode (m.fMode d) = true ∧ bit m.field.driver d = bit drv d) := by
  simp only [Mach.crossed, List.mem_filter, Bool.and_eq_true, bne_iff_ne, decide_eq_true_eq, beq_iff_eq, and_assoc]

end

/-- Settles O43: the inputs (`does_inputDebounced`, `does_wireBreak`), the outputs (`does_shortToSupply` and the rules of
each limit), and the judgement of a test pulse (`judgePulse_of_high`, `judgePulse_of_low`, `judgePulse_of_crossed`). -/
theorem inputAndOutputEvents : Obligations.InputAndOutputEvents := by
  unfold Obligations.InputAndOutputEvents
  refine ⟨⟨fun s ch reading n u heval hn hband => does_inputDebounced heval hn hband rfl,
      fun s ch reading n u level heval hn hband => ⟨fun hstable => does_inputDebounced heval hn hband (debounced_of_stable _ _ hstable),
        fun hlevel hlong => does_inputDebounced heval hn hband (debounced_of_change _ _ hlevel hlong)⟩,
      fun m ch x => ⟨readBand_of_high m ch x, readBand_of_monitored m ch x, readBand_of_other m ch x⟩,
      fun s ch n heval hmode hn => ?wire, fun m ch n => rfl, fun m ch n => ⟨wireEnds_of_good m ch, wireEnds_of_bad m ch⟩⟩,
    ⟨fun s ch us hch hmode hon hus => does_outputLimit_of_current hch hmode hon hus, fun s ch t hch hmode hon ht => does_outputLimit_of_temp hch hmode hon ht, fun s ch => does_outputRetry,
      fun s g ma us => does_groupOverload, fun s ch n hch hmode hoff => ?short, fun s ch => does_channelStoppingEnd⟩,
    ⟨fun s p inp => does_testPulseEnd_of_discarded inp, fun s p inp => does_testPulseEnd_of_judged inp,
      fun m ch drv inp => judgePulse_of_high m ch drv inp, fun m ch drv inp hnone hrb => ?low,
      fun m ch drv inp => judgePulse_of_crossed m ch drv inp, fun m ch drv d fs => mem_crossed_iff m ch drv d fs, fun m ch => rfl⟩⟩
  case wire =>
    refine ⟨fun hcount hwhole => does_wireBreak heval hn hmode ?_, fun h => does_wireBreak heval hn hmode ?_⟩
    · exact if_pos (by simp [hcount, hwhole])
    · refine if_neg ?_
      rcases h with h | h <;> simp [h]
  case short =>
    refine ⟨fun h0 => does_shortToSupply hch hmode hoff (if_pos h0), fun h0 h => ?_, fun hlong hshort hcross => ?_⟩
    · refine does_shortToSupply hch hmode hoff ((if_neg h0).trans (if_neg ?_))
      rintro ⟨hlong, hshort, hcross⟩
      rcases h with h | h | h
      · exact h.not_ge hlong
      · exact absurd (h.symm.trans hshort) (by decide)
      · exact absurd (h.symm.trans hcross) (by decide)
    · exact does_shortToSupply hch hmode hoff ((if_neg (by omega)).trans (if_pos ⟨hlong, hshort, hcross⟩))
  case low =>
    rw [judgePulse_of_low m ch drv inp hnone hrb]
    exact ⟨rfl, fun hforce _ => if_neg (ne_true_of_eq_false hforce)⟩

end Sys2Proof.Proofs
end

section
/-!
PROOFS. The frames of the link: down-frames and up-frames as they arrive, and what is reported of their losses (10 R300 to
R311; 01 R18 to R20).
-/
namespace Sys2Proof.Proofs

open Sys2Proof Sys2Proof.Machine

theorem exec_downFrame (lt : Nat) (err : Kept Nat) (s : State) : exec (.downFrame lt err) s = execDownFrame lt err s := rfl
theorem exec_upFrame (lt : Nat) (err : Kept Nat) (s : State) : exec (.upFrame lt err) s = execUpFrame lt err s := rfl
theorem exec_linkErrorRate (up : Bool) (s : State) : exec (.linkErrorRate up) s = execLinkErrorRate up s := rfl
theorem exec_fieldConfigMismatch (s : State) : exec .fieldConfigMismatch s = execFieldConfigMismatch s := rfl
theorem exec_linkTimeout (s : State) : exec .linkTimeout s = execLinkTimeout s := rfl

theorem eccSeen_double (m : Mach) (sub : Nat) : m.eccSeen sub .double = m := rfl

/-! Down-frames. -/

section
variable (m : Mach) (lt err : Nat)

/-- The module at a down-frame: at link tick 31 the cores have latched their header words (10 R304). -/
def headsLatched : Mach := if lt = 31 then m.latchHeads else m

/-- The down-frame has been sent (10 R303). -/
def downSent : Mach := { (headsLatched m lt).ctlSent lt with link.lt := lt }

/-- The field side at a link tick, before the frame arrives: a named pulse starts, and a tick of the channels marked
shorted passes (10 R325, R328). -/
def downTick : Mach := (if lt = 4 then (downSent m lt).pulseStart else downSent m lt).each (bitsOf m.field.short) Mach.shortTick

theorem headsLatched_field : (headsLatched m lt).field = m.field := by
  rw [headsLatched]
  split
  · rw [Mach.latchHeads]
  · rfl

/-- A down-frame is sent, and at a field side that has booted it is withheld or arrives (10 R303, R309). -/
theorem downFrame_eq (ecc : Ecc) : m.downFrame lt err ecc =
    if m.field.booted = false then downSent m lt
    else (if ecc = .double then (downTick m lt).withheldDown
      else (downTick m lt).downArrives lt ((headsLatched m lt).downBits lt err)).voteOver lt := by
  have hheads : (if lt == 31 then m.latchHeads else m) = headsLatched m lt := by
    simp only [beq_iff_eq, headsLatched]
  dsimp only [Mach.downFrame]
  rw [hheads, headsLatched_field]
  simp only [Bool.not_eq_true', beq_iff_eq]
  rfl

variable (s : State) (ecc : Ecc)

theorem does_downFrame {m : Mach} (hlt : lt < 40) (hsave : s.now.power.saveDone = false)
    (h : (s.now.downFrame lt err ecc).eccSeen 10 ecc = m) : Does (.downFrame lt ⟨err, ecc⟩) s m :=
  does_of_onWhen (by rw [exec_downFrame, execDownFrame]) (by simp [hlt, hsave]) h

section
variable {s ecc} (hlt : lt < 40) (hsave : s.now.power.saveDone = false)
include hlt hsave

theorem does_downFrame_of_unbooted (hoff : s.now.field.booted = false) : Does (.downFrame lt ⟨err, ecc⟩) s ((downSent s.now lt).eccSeen 10 ecc) := by
  refine does_downFrame lt err s ecc hlt hsave ?_
  rw [downFrame_eq, if_pos hoff]

variable (hbooted : s.now.field.booted = true)
include hbooted

theorem does_downFrame_of_withheld (hecc : ecc = .double) : Does (.downFrame lt ⟨err, ecc⟩) s ((downTick s.now lt).withheldDown.voteOver lt) := by
  refine does_downFrame lt err s ecc hlt hsave ?_
  rw [downFrame_eq, if_neg (by simp [hbooted]), if_pos hecc, hecc, eccSeen_double]

variable (hecc : ecc ≠ .double)
include hecc

/-- A frame that is released is taken where its bits as received pass the checks, else it is lost (10 R309). -/
theorem does_downFrame_of_released {m : Mach} (h : (downTick s.now lt).downArrives lt ((headsLatched s.now lt).downBits lt err) = m) :
    Does (.downFrame lt ⟨err, ecc⟩) s ((m.voteOver lt).eccSeen 10 ecc) := by
  refine does_downFrame lt err s ecc hlt hsave ?_
  rw [downFrame_eq, if_neg (by simp [hbooted]), if_neg hecc, h]

end

theorem does_upFrame {m : Mach} (hlt : lt < 40) (hsave : s.now.power.saveDone = false)
    (h : (s.now.upFrame lt err ecc).eccSeen 10 ecc = m) : Does (.upFrame lt ⟨err, ecc⟩) s m :=
  does_of_onWhen (by rw [exec_upFrame, execUpFrame]) (by simp [hlt, hsave]) h

end

/-- After a state save no frames are sent (15 R475). -/
theorem exec_frames_of_saveDone {s : State} (lt : Nat) (w : Kept Nat) (h : s.now.power.saveDone = true) :
    exec (.downFrame lt w) s = .next s ∧ exec (.upFrame lt w) s = .next s :=
  ⟨exec_of_onWhen_false (by rw [exec_downFrame, execDownFrame]) (by simp [h]),
    exec_of_onWhen_false (by rw [exec_upFrame, execUpFrame]) (by simp [h])⟩

/-! Up-frames. -/

section
variable (m : Mach) (lt d : Nat)

/-- The diagnostic field of a frame is kept apart from its inputs and readbacks (10 R308). -/
theorem takeDiag_kept : (m.takeDiag lt d).link.upIn = m.link.upIn ∧ (m.takeDiag lt d).link.upRb = m.link.upRb
    ∧ (m.takeDiag lt d).link.upAt = m.link.upAt ∧ (m.takeDiag lt d).link.upGood = m.link.upGood
    ∧ changesOnly [.link] m (m.takeDiag lt d) := by
  rw [Mach.takeDiag]
  repeat' split
  all_goals
    refine ⟨rfl, rfl, rfl, rfl, fun p hp => ?_⟩
    cases p with
    | link => simp at hp
    | _ => rfl

theorem takeUp_facts (x : Nat) : (m.takeUp lt x).link.upIn = field x 223 160 ∧ (m.takeUp lt x).link.upRb = field x 159 96
    ∧ (m.takeUp lt x).link.upAt = some (40 * m.time.frame + lt) ∧ (m.takeUp lt x).link.upGood = m.link.upGood + 1
    ∧ changesOnly [.link] m (m.takeUp lt x) := by
  obtain ⟨hin, hrb, hat, hgood, honly⟩ := takeDiag_kept { m with
    link.trans := if m.link.upAt.isSome then m.link.trans ++ transitions m.link.upIn (field x 223 160) (ltIndex m.time.frame lt) else m.link.trans
    link.upIn := field x 223 160
    link.upRb := field x 159 96
    link.upAt := some (ltIndex m.time.frame lt)
    link.upGood := m.link.upGood + 1 } lt (field x 95 32)
  refine ⟨hin, hrb, hat, hgood, fun p hp => ?_⟩
  have hsame := honly p hp
  cases p with
  | link => simp at hp
  | _ => exact hsame

end

/-! Losses, and the time-out of the link. -/

theorem does_linkErrorRate {s : State} (up : Bool)
    (h : s.now.lossesHigh (if up then s.now.link.upLost else s.now.link.dnLost) = true) : Does (.linkErrorRate up) s (s.now.raise 0 0x92 1) :=
  does_of_onWhen (exec_linkErrorRate ..) h rfl

theorem does_linkTimeout {s : State} (hbooted : s.now.field.booted = true) (hfirst : s.now.field.timeout = false)
    (hlate : linkTicks s.now.field.tmo ≤ s.now.ltNow - s.now.field.lastValid) : Does .linkTimeout s (({ s.now.safeStates with
      field.timeout := true
      field.recover := 0
      field.sawSync := false
      link.timeouts := sat32 s.now.link.timeouts } : Mach).report 0 0x90 5) :=
  does_of_onWhen (exec_linkTimeout s) (by simp [hbooted, hfirst, hlate]) rfl

end Sys2Proof.Proofs
end

section
/-!
PROOFS. The supplies of the field domains (10 R312 to R314), and what the frames of the link and the supplies bring.
-/
namespace Sys2Proof.Proofs

open Sys2Proof Sys2Proof.Machine

theorem exec_supplyThreshold (d : Sys2Proof.Ab) (s1 s2 : Nat) (s : State) :
    exec (.supplyThreshold d s1 s2) s = onWhen s s.now.field.booted fun m => m.supplyThreshold d s1 s2 := rfl
theorem exec_domainWaitRearm (d : Sys2Proof.Ab) (s : State) : exec (.domainWaitRearm d) s = execDomainWaitRearm d s := rfl

/-- A domain with its next state by two samples, its codes and its VF, and the fallback supply by both VF (10 R312,
R314). -/
def domainSampled (m : Mach) (d : Sys2Proof.Ab) (s1 s2 : Nat) : Mach :=
  let r := m.field.domains.get d
  let st := domainNext r s1 s2
  let m1 := ({ m with field.domains := m.field.domains.set d { r with
    state := st, sampled := true, codes := domainCodes r st s1 s2,
    heldTo := if domHolds r.state then m.ltNow else r.heldTo } } : Mach).vfSample d s2
  { m1 with field.fallback := decide (m1.field.domains.a.vf < 900) && decide (m1.field.domains.b.vf < 900) }

/-- On the fallback supply every output is off, else those of a domain in a state without outputs (10 R312, R314). -/
theorem does_supplyThreshold {s : State} {d : Sys2Proof.Ab} {s1 s2 : Nat} {m : Mach} (hbooted : s.now.field.booted = true)
    (h : (if (domainSampled s.now d s1 s2).field.fallback then (domainSampled s.now d s1 s2).allOff (List.range 64)
      else if domOutOff (domainNext (s.now.field.domains.get d) s1 s2) then (domainSampled s.now d s1 s2).allOff (domainChannels d)
      else domainSampled s.now d s1 s2) = m) : Does (.supplyThreshold d s1 s2) s m :=
  does_of_onWhen (exec_supplyThreshold ..) hbooted h

theorem does_domainWaitRearm {s : State} {d : Sys2Proof.Ab} {f : Nat} (hoff : domInOff (s.now.field.domains.get d).state = true)
    (hok : (s.now.field.domains.get d).okSince = some f) (hlong : 400 ≤ s.now.since f) : Does (.domainWaitRearm d) s
      { s.now with field.domains := s.now.field.domains.set d { s.now.field.domains.get d with state := 6, heldTo := s.now.ltNow } } := by
  refine does_of_onWhen (by rw [exec_domainWaitRearm, execDomainWaitRearm]) ?_ rfl
  rw [hoff, hok]
  exact decide_eq_true hlong

/-- Settles O42: a down-frame is withheld, taken or lost (`downFrame_eq`), a frame taken sets what it carries
(`takeUp_facts`), and two samples of a supply decide its domain (`does_supplyThreshold`). -/
theorem linkAndSupplyEvents : Obligations.LinkAndSupplyEvents := by
  unfold Obligations.LinkAndSupplyEvents
  refine ⟨⟨fun s lt err ecc hlt hsave => ⟨does_downFrame_of_unbooted lt err hlt hsave, fun hbooted => ?down⟩, fun s lt err ecc hlt hsave => ⟨fun hecc hgood => ?up, fun hbad => ?lost⟩,
      fun s lt w => exec_frames_of_saveDone lt w, fun m lt x => takeUp_facts m lt x,
      fun s => ⟨fun h => does_linkErrorRate true (decide_eq_true h), fun h => does_linkErrorRate false (decide_eq_true h)⟩,
      fun s h => does_of_onWhen (exec_fieldConfigMismatch s) (decide_eq_true h) rfl, fun s => does_linkTimeout⟩,
    ⟨fun s d s1 s2 hbooted => ⟨fun hfb => does_supplyThreshold hbooted (if_pos hfb),
        fun hfb hoff => does_supplyThreshold hbooted ((if_neg (ne_true_of_eq_false hfb)).trans (if_pos hoff)),
        fun hfb hon => does_supplyThreshold hbooted ((if_neg (ne_true_of_eq_false hfb)).trans (if_neg (ne_true_of_eq_false hon)))⟩,
      fun s d f => does_domainWaitRearm⟩⟩
  case down =>
    exact ⟨does_downFrame_of_withheld lt err hlt hsave hbooted,
      fun hecc hgood => does_downFrame_of_released lt err hlt hsave hbooted hecc (if_pos hgood),
      fun hecc hbad => does_downFrame_of_released lt err hlt hsave hbooted hecc (if_neg (ne_true_of_eq_false hbad))⟩
  case up =>
    refine does_upFrame lt err s ecc hlt hsave ?_
    rw [Mach.upFrame, if_pos (by simp [hgood, hecc])]
  case lost =>
    refine does_upFrame lt err s ecc hlt hsave ?_
    rw [Mach.upFrame, if_neg]
    rcases hbad with hbad | hbad <;> simp [hbad]

end Sys2Proof.Proofs
end

section
/-!
PROOFS. The frame count, the boot count, the rollback counter and the credentials: which commands may change them at all
(02 R36; 08 R255, R268; 16 R500, R501; 17 R512, R524).
-/
namespace Sys2Proof.Proofs

open Sys2Proof Sys2Proof.Machine Sys2Proof.Laws

/-- The counters of the module and the records of its credentials. -/
structure Counters where
  frame : Nat
  rollback : Nat
  boots : Nat
  creds : Two (List Cred)

def counters (m : Mach) : Counters := ⟨m.time.frame, m.sec.rollback, m.sec.boots, m.cab.creds⟩

/-- The commands that may change one of them: a frame, what begins, ends or restarts the module, the steps of start-up and
the boot ROMs, and what writes or reads the state blocks. -/
def changesCounters : Instr → Bool
  | .frameTick _ => true
  | .resetN _ => true
  | .restartAfterSave _ _ => true
  | .convertersOff _ => true
  | .stateSaveComplete _ => true
  | .vinGood _ _ => true
  | .resetNRelease => true
  | .startupStepComplete => true
  | .bootVerified _ _ => true
  | .passwordWritten _ => true
  | .commitComplete => true
  | _ => false

/-- The outcome, where it is a next state, has this view of the module as it was. -/
def ViewKept {α : Type} (g : Mach → α) (s : State) (r : Res) : Prop := ∀ t, r = .next t → g t.now = g s.now

section
variable {α : Type} {g : Mach → α}

theorem viewKept_next (s : State) : ViewKept g s (.next s) := by
  rintro t ⟨⟩
  rfl

variable {s : State} {f : Mach → Mach} (h : g (f s.now) = g s.now)
include h

theorem viewKept_on : ViewKept g s (on s f) := by
  rintro t ⟨⟩
  exact h

theorem viewKept_onWhen {b : Bool} : ViewKept g s (onWhen s b f) := by
  cases b with
  | false => exact viewKept_next s
  | true => exact viewKept_on h

end

theorem countersKept_serve {s : State} {op tag : Nat} {f : Mach → Mach × Nat × List Nat} (h : counters (f s.now).1 = counters s.now) :
    ViewKept counters s (serve s op tag f) := by
  unfold serve
  split
  · exact viewKept_next s
  · split
    · rintro t ⟨⟩
      rfl
    · rintro t ⟨⟩
      exact h

theorem copyAttempt_counters {m : Mach} {t : Nat} {bad before fails : List Nat} {r : Mach × List Nat}
    (h : m.copyAttempt t bad before = (some r, fails)) : counters r.1 = counters m := by
  dsimp only [Mach.copyAttempt] at h
  split at h
  · cases h
  · split at h
    · cases h
      simp only [counters, keeps_corruptFound]
    · cases h

theorem countersKept_windowRead (tag : Nat) (bad : List Nat) (s : State) : ViewKept counters s (exec (.windowRead tag bad) s) := by
  rw [exec_windowRead, execWindowRead]
  split
  · exact viewKept_next s
  · split
    · rintro t ⟨⟩
      rfl
    · refine viewKept_on ?_
      split
      next hcopy => exact copyAttempt_counters hcopy
      next => rfl

theorem countersKept_windowCopyRetry (bad : List Nat) (s : State) : ViewKept counters s (exec (.windowCopyRetry bad) s) := by
  rw [exec, execWindowCopyRetry]
  split
  · exact viewKept_next s
  · refine viewKept_on ?_
    split
    next hcopy => exact copyAttempt_counters hcopy
    next =>
      split
      · rfl
      · rfl

theorem countersKept_halfCycleValue (inp : HalfIn) (s : State) : ViewKept counters s (exec (.halfCycleValue inp) s) := by
  rw [exec, execHalfCycleValue]
  split
  · exact viewKept_on (by simp only [counters, keeps_halfCycle])
  · split
    · exact viewKept_on (by simp only [counters, keeps_halfValued])
    · exact viewKept_next s

theorem countersKept_ttWindowStart (port : Ab) (cell : Nat) (s : State) : ViewKept counters s (exec (.ttWindowStart port cell) s) := by
  rw [exec, execTtWindowStart]
  split
  · exact viewKept_next s
  · split
    · exact viewKept_next s
    · exact viewKept_onWhen (by simp only [counters, keeps_setObj])

theorem countersKept_scrub (addr flips : Nat) (s : State) : ViewKept counters s (exec (.scrub addr flips) s) := by
  rw [exec, execScrub]
  split
  · rintro t ⟨⟩
  · refine viewKept_on ?_
    simp only [counters, keeps_endIf, keeps_raise, ite_time_frame, ite_sec_rollback, ite_sec_boots, ite_cab_creds,
      ite_self]

/-- A host command has no part in them. -/
theorem countersKept_hostCommand {c : Instr} {op tag : Nat} (s : State) (hc : hostCommand c = some (op, tag)) :
    ViewKept counters s (exec c s) := by
  cases c with
  | learnRun | home | callAdd | callCancel | runTo | stopAtLanding | stopImmediate | stopEmergencyRamp | doorOpen |
    doorClose | doorHold | doorNudge | doorLearn | proofTest | switchOver | switchBack | chConfig | chRead |
    chWrite | groupRearm | busConfig | objBind | objUnbind | schedLoad | busSleep | busWakeCommand | calMeasure |
    calApply | meterConfig | meterRead | energyRead | cursorSet | drawerInfo | cabLogin | cabLogout | cabStage |
    cabDiscard | cabPassword | cabLogRead | certGet | fwBegin | pairStatus | nop |
    ident | status | resetPort | evtRead | timeSet | budgetSet | unitList | unitGet | unitSet | unitEnable |
    unitDisable | sleepPolicy | powerRead | benchSet | groupDefine =>
    dsimp only [exec, execLearnRun, execHome, execCallAdd, execCallCancel, execRunTo, execStopAtLanding,
      execStopImmediate, execStopEmergencyRamp, execDoorOpen, execDoorClose, execDoorHold, execDoorNudge, execDoorLearn,
      execProofTest, execSwitchOver, execSwitchBack, execChConfig, execChRead, execChWrite, execGroupRearm,
      execBusConfig, execObjBind, execObjUnbind, execSchedLoad, execBusSleep, execBusWakeCommand, execCalMeasure,
      execCalApply, execMeterConfig, execMeterRead, execEnergyRead, execCursorSet, execDrawerInfo, execCabLogin,
      execCabLogout, execCabStage, execCabDiscard, execCabPassword, execCabLogRead, execCertGet, execFwBegin,
      execPairStatus, execNop, execIdent, execStatus, execResetPort, execEvtRead, execTimeSet, execBudgetSet,
      execUnitList, execUnitGet, execUnitSet, execUnitEnable, execUnitDisable, execSleepPolicy, execPowerRead,
      execBenchSet, execGroupDefine]
    refine countersKept_serve ?_
    simp only [counters, keeps_benchSet, keeps_groupDefine, keeps_bumpEpoch, keeps_calApply, keeps_calMeasure, keeps_chConfig, keeps_chWrite,
      keeps_closeHour, keeps_doorCmd, keeps_enableCmd, keeps_endFault, keeps_endIf, keeps_endLearn, keeps_energyRead,
      keeps_fwDrop, keeps_groupRearm, keeps_meterWrite, keeps_ok, keeps_onPort, keeps_pending, keeps_portSleep,
      keeps_portWake, keeps_proofStart, keeps_putI, keeps_queueCall, keeps_refuse, keeps_setEntries, keeps_setSlot,
      keeps_stopReq, keeps_switchTo, keeps_unitSet, when_time_frame, when_sec_rollback, when_sec_boots, when_cab_creds,
      ite_time_frame, ite_sec_rollback, ite_sec_boots, ite_cab_creds, ite_fst, ite_self]
  | objRead | objSend | objCancel | cabCommit | attest | fwChunk | fwCommit | drawerClear | resetModule =>
    dsimp only [exec, execObjRead, execObjSend, execObjCancel, execCabCommit, execAttest, execFwChunk,
      execFwCommit, execDrawerClear, execResetModule]
    refine countersKept_serve ?_
    repeat' split
    all_goals simp only [counters, keeps_beginSave, keeps_logEvent, keeps_ok, keeps_onDrawer, keeps_pending, keeps_refuse,
      keeps_setObj]
  | windowRead tag bad => exact countersKept_windowRead tag bad s
  | _ => cases hc

/-- Every other command leaves the counters and the credentials as they are. -/
theorem countersKept_exec (c : Instr) (s : State) (hw : changesCounters c = false) : ViewKept counters s (exec c s) := by
  cases c with
  | doorCurrentLoopUpdate | clockGateEnd | frameTickLost | meterSample | elevenRecessiveBits |
    transceiverOvertemp =>
    dsimp only [exec, execDoorCurrentLoopUpdate, execClockGateEnd, execFrameTickLost, execMeterSample,
      execElevenRecessiveBits, execTransceiverOvertemp]
    refine viewKept_on ?_
    simp only [counters, keeps_clockGate, keeps_loopUpdate, keeps_meterSample, keeps_onPort, keeps_raise,
      keeps_transceiverFault]
  -- Position, engine, scheduler and doors.
  | apEstDiscord | tapeReaderLost | tapeReaderReinstated | tapePairDiscord | encFault | accFault | tractionSlip |
    homeComplete | positionRecovery | recoveryTimeout | engineStopEnd | drvStartTimeout | planEnd | relevelStart |
    relevelTimeout | driveFeedback | drvFbTimeout | trackVel | groupAssign | groupWithdraw | groupHb | groupLost |
    parkDelayExpired | schedStall | panelCallAdd | panelCallCancel | panelDoorOpen | panelDoorClose | hallBtn |
    indRefresh | keBoundExceeded | obstructionDetected | finalApproachTimeout | doorTimeLimit | doorLearnComplete |
    dwellEnd | holdTimeout | nudgeAutoStart | doorBallastTimeout | doorStoppingComplete | currentOffsetCheck |
    doorRecheck =>
    dsimp only [exec, execApEstDiscord, execTapeReaderLost, execTapeReaderReinstated, execTapePairDiscord,
      execEncFault, execAccFault, execTractionSlip, execHomeComplete, execPositionRecovery, execRecoveryTimeout,
      execEngineStopEnd, execDrvStartTimeout, execPlanEnd, execRelevelStart, execRelevelTimeout, execDriveFeedback,
      execDrvFbTimeout, execTrackVel, execGroupAssign, execGroupWithdraw, execGroupHb, execGroupLost,
      execParkDelayExpired, execSchedStall, execPanelCallAdd, execPanelCallCancel, execPanelDoorOpen,
      execPanelDoorClose, execHallBtn, execIndRefresh, execKeBoundExceeded, execObstructionDetected,
      execFinalApproachTimeout, execDoorTimeLimit, execDoorLearnComplete, execDwellEnd, execHoldTimeout,
      execNudgeAutoStart, execDoorBallastTimeout, execDoorStoppingComplete, execCurrentOffsetCheck, execDoorRecheck]
    refine viewKept_onWhen ?_
    simp only [counters, keeps_allReadersLost, keeps_cancelPlan, keeps_commitRest, keeps_completed, keeps_confirm,
      keeps_doorEvent, keeps_doorOff, keeps_encoderLost, keeps_endFault, keeps_groupCmd, keeps_groupRes,
      keeps_hallPress, keeps_indications, keeps_learnDone, keeps_learnFail, keeps_msgAccept, keeps_obstruct,
      keeps_panelCall, keeps_panelDoor, keeps_raise, keeps_recoverAt, keeps_reverse, keeps_side, keeps_startClose,
      keeps_storeModel, each_time_frame, each_sec_rollback, each_sec_boots, each_cab_creds, ite_time_frame,
      ite_sec_rollback, ite_sec_boots, ite_cab_creds, implies_true, ite_self]
  -- Safety, triad, pair, link and channels.
  | discrepancyTimeout | resetEdge | resetStuck | lock | lockMsgTimeout | lockSourceDisagree | landingDoorAway |
    inspStopTimeout | contactorPullTimeout | contactorDropTimeout | brakeOpenTimeout | brakeCloseTimeout |
    tslSwitch | proofAutoStart | proofOverdue | readmissionStart | duplexExpired | takeover | pairNoHolder |
    apResetRelease | dualTxEnd | upFrame | linkTimeout | linkErrorRate | fieldConfigMismatch | supplyThreshold |
    domainWaitRearm | inputDebounced | wireBreak | outputRetry | groupOverload | shortToSupply | channelStoppingEnd |
    benchEnd =>
    dsimp only [exec, execDiscrepancyTimeout, execResetEdge, execResetStuck, execLock, execLockMsgTimeout,
      execLockSourceDisagree, execLandingDoorAway, execInspStopTimeout, execContactorPullTimeout,
      execContactorDropTimeout, execBrakeOpenTimeout, execBrakeCloseTimeout, execTslSwitch, execProofAutoStart,
      execProofOverdue, execReadmissionStart, execDuplexExpired, execTakeover, execPairNoHolder, execApResetRelease,
      execDualTxEnd, execUpFrame, execLinkTimeout, execLinkErrorRate, execFieldConfigMismatch, execSupplyThreshold,
      execDomainWaitRearm, execInputDebounced, execWireBreak, execOutputRetry, execGroupOverload, execShortToSupply,
      execChannelStoppingEnd, execBenchEnd]
    refine viewKept_onWhen ?_
    simp only [counters, keeps_afterReload, keeps_allOff, keeps_cell, keeps_core, keeps_debounced, keeps_driveAll,
      keeps_eccSeen, keeps_endBenches, keeps_endFault, keeps_judged, keeps_lockReceived, keeps_onAp, keeps_post,
      keeps_proofStart, keeps_raise, keeps_report, keeps_resetOthers, keeps_safeStates, keeps_setCore, keeps_setLock,
      keeps_supplyThreshold, keeps_syncSafety, keeps_upFrame, keeps_wireBreak, keeps_wireEnds, each_time_frame,
      each_sec_rollback, each_sec_boots, each_cab_creds, ite_time_frame, ite_sec_rollback, ite_sec_boots, ite_cab_creds,
      implies_true, ite_self]
  -- Bus, meter, recorder, cabinet and security.
  | timeReferenceReceived | timeSlaveLost | busOffRecovered | transmitDominantTimeout | bitTimingApply | busWake |
    portStoppingEnd | freqWindowEnd | hourRecord | offsetTracking | cabLockoutEnd | lockoutStateWrite |
    sessionExpired =>
    dsimp only [exec, execTimeReferenceReceived, execTimeSlaveLost, execBusOffRecovered,
      execTransmitDominantTimeout, execBitTimingApply, execBusWake, execPortStoppingEnd, execFreqWindowEnd,
      execHourRecord, execOffsetTracking, execCabLockoutEnd, execLockoutStateWrite, execSessionExpired]
    refine viewKept_onWhen ?_
    simp only [counters, keeps_busCrcErr, keeps_cell, keeps_closeHour,
      keeps_endFault, keeps_endIf, keeps_endSession, keeps_freqWindowEnd, keeps_heard, keeps_onPort, keeps_portWake,
      keeps_post, keeps_raise, keeps_recDown, keeps_saveLock, keeps_seqAccept, keeps_setCounters,
      keeps_transceiverFault, ite_time_frame, ite_sec_rollback, ite_sec_boots, ite_cab_creds, ite_self]
  -- Units, host port, power and start-up.
  | unitStoppingComplete | hostStall | keepaliveLost | vinLow | vinHigh | scheduledWake | wake |
    startupDeadline | tetherGrantFallback | busReceiveError | sensorSupplyOff | sensorSupplyOn |
    railFault | logicTempThreshold | vinFaultEnd =>
    dsimp only [exec, execUnitStoppingComplete, execHostStall, execKeepaliveLost, execVinLow,
      execVinHigh, execScheduledWake, execWake, execStartupDeadline, execTetherGrantFallback,
      execBusReceiveError, execSensorSupplyOff, execSensorSupplyOn, execRailFault, execLogicTempThreshold,
      execVinFaultEnd]
    refine viewKept_onWhen ?_
    simp only [counters, keeps_blockStart, keeps_encoderLost, keeps_endIf, keeps_endSession,
      keeps_grantTether, keeps_post, keeps_raise, keeps_setCounters, keeps_startBlocks, keeps_unitOff, keeps_wakeUp,
      ite_time_frame, ite_sec_rollback, ite_sec_boots, ite_cab_creds, ite_self]
  | coreDiscord | levelSettleEnd | bridgeTrip | learnRunComplete | outputLimit | busFrameReceived =>
    dsimp only [exec, execCoreDiscord, execLevelSettleEnd, execBridgeTrip, execLearnRunComplete,
      execOutputLimit, execBusFrameReceived]
    refine viewKept_onWhen ?_
    repeat' split
    all_goals simp only [counters, keeps_busCrcErr, keeps_completed, keeps_endRun, keeps_heard, keeps_levelCorr, keeps_limitOff,
      keeps_raise, keeps_recDown, keeps_report, keeps_side, keeps_storeFrame, keeps_takeMean]
  | ttMissed | calMeasureEnd | fwChunkWritten | fwTransferTimeout | replyReady | proofTestEnd | proofRejoin |
    proofFailed | standbyInSync | snapshotComplete | busFrameSent =>
    dsimp only [exec, execTtMissed, execCalMeasureEnd, execFwChunkWritten, execFwTransferTimeout,
      execReplyReady, execProofTestEnd, execProofRejoin, execProofFailed, execStandbyInSync, execSnapshotComplete,
      execBusFrameSent]
    split
    all_goals first | exact viewKept_next s | refine viewKept_onWhen ?_
    all_goals repeat' split
    all_goals simp only [counters, keeps_busCount, keeps_completed, keeps_eccSeen, keeps_endCause, keeps_endFault, keeps_endIf,
      keeps_frameSent, keeps_fwEnd, keeps_notSent, keeps_onAp, keeps_onPort, keeps_post, keeps_proofDone,
      keeps_proofFails, keeps_proofOver, keeps_raise, keeps_rejoins, keeps_setObj, keeps_txError, keeps_unsync]
  | loginVerified | attestComplete | testPulseEnd | hostTransaction =>
    dsimp only [exec, execLoginVerified, execAttestComplete, execTestPulseEnd, execHostTransaction]
    split
    all_goals first | exact viewKept_next s | refine viewKept_on ?_
    all_goals repeat' split
    all_goals simp only [counters, keeps_eccSeen, keeps_heldAfter, keeps_refusePacket, keeps_transaction, keeps_checkInputs,
      keeps_completed, keeps_judgePulse, keeps_loginFailed, keeps_saveLock]
  | windowCopyRetry bad => exact countersKept_windowCopyRetry bad s
  | halfCycleValue inp => exact countersKept_halfCycleValue inp s
  | ttWindowStart port cell => exact countersKept_ttWindowStart port cell s
  | scrub addr flips => exact countersKept_scrub addr flips s
  -- What writes records.
  | downFrame | aggregationWindowEnd | energySave | recordFlush | powerFailWarning | vinOvervolt =>
    dsimp only [exec, execDownFrame, execAggregationWindowEnd, execEnergySave, execRecordFlush,
      execPowerFailWarning, execVinOvervolt]
    refine viewKept_onWhen ?_
    simp only [counters, keeps_beginSave, keeps_downFrame, keeps_eccSeen, keeps_endFault, keeps_flush, keeps_overvolt,
      keeps_raise, keeps_saveMeter, keeps_windowEnd]
  | commitVerdicts | commitPoint | fwVerified =>
    dsimp only [exec, execCommitVerdicts, execCommitPoint, execFwVerified]
    split
    · refine viewKept_onWhen ?_
      simp only [counters, keeps_abortCommit, keeps_commitVerdicts, keeps_sendChanged, keeps_fwVerified, ite_time_frame,
        ite_sec_rollback, ite_sec_boots, ite_cab_creds, ite_self]
    · exact viewKept_next s
  | frameTick | resetN | restartAfterSave | convertersOff | stateSaveComplete | vinGood | resetNRelease |
    startupStepComplete | bootVerified | passwordWritten | commitComplete => cases hw
  | _ => exact countersKept_hostCommand s rfl

/-! What begins, ends or restarts the module (15 R478; 17 R512, R524). -/

/-- What a restart keeps (17 R524). -/
def lasting (m : Mach) : Nat × Nat × Two (List Cred) := (m.sec.rollback, m.sec.boots, m.cab.creds)

theorem lastingKept_resetN (us : Nat) (s : State) : ViewKept lasting s (exec (.resetN us) s) := by
  rw [exec, execResetN]
  exact viewKept_onWhen (by simp only [lasting, keeps_restart])

theorem lastingKept_convertersOff (vin : Nat) (s : State) : ViewKept lasting s (exec (.convertersOff vin) s) := by
  rw [exec, execConvertersOff]
  exact viewKept_onWhen (by simp only [lasting, keeps_turnOff])

theorem lastingKept_stateSaveComplete (us : Nat) (s : State) : ViewKept lasting s (exec (.stateSaveComplete us) s) := by
  rw [exec, execStateSaveComplete]
  refine viewKept_onWhen ?_
  simp only [lasting, keeps_endFault, keeps_outputsReset, keeps_saveLock, keeps_turnOff, keeps_writePower,
    keeps_writeSnapshots, ite_sec_rollback, ite_sec_boots, ite_cab_creds, ite_self]

/-! A start of the module counts itself (17 R512). -/

/-- The boot count of `n` is that of `m`, or one more, modulo 2^32. -/
def BootsKeptOrNext (m n : Mach) : Prop := n.sec.boots = m.sec.boots ∨ n.sec.boots = (m.sec.boots + 1) % 2 ^ 32

theorem begin_boots (m : Mach) : m.begin.sec.boots = (m.sec.boots + 1) % 2 ^ 32 := by
  dsimp only [Mach.begin]
  simp only [keeps_raise, ite_sec_boots, ite_self]

theorem bootsKeptOrNext_begin {m n : Mach} (h : n.sec.boots = m.sec.boots) : BootsKeptOrNext m n.begin :=
  .inr (by rw [begin_boots, h])

/-- Where one command may take a next state, as a relation of the module before and after. -/
def Relates (R : Mach → Mach → Prop) (s : State) (r : Res) : Prop := ∀ t, r = .next t → R s.now t.now

theorem relates_onWhen {R : Mach → Mach → Prop} {s : State} {b : Bool} {f : Mach → Mach} (hrefl : R s.now s.now)
    (h : R s.now (f s.now)) : Relates R s (onWhen s b f) := by
  cases b with
  | false =>
    rintro t ⟨⟩
    exact hrefl
  | true =>
    rintro t ⟨⟩
    exact h

/-- What the start of the module leaves as it is. -/
def begun (m : Mach) : Nat × Nat × Two (List Cred) := (m.time.frame, m.sec.rollback, m.cab.creds)

theorem begunKept_vinGood (vin ms : Nat) (s : State) : ViewKept begun s (exec (.vinGood vin ms) s) := by
  rw [exec, execVinGood]
  refine viewKept_onWhen ?_
  split
  · rfl
  · simp only [begun, keeps_begin]

theorem begunKept_resetNRelease (s : State) : ViewKept begun s (exec .resetNRelease s) := by
  rw [exec, execResetNRelease]
  refine viewKept_onWhen ?_
  dsimp only
  split
  · simp only [begun, keeps_begin]
  · rfl

theorem boots_vinGood (vin ms : Nat) (s : State) : Relates BootsKeptOrNext s (exec (.vinGood vin ms) s) := by
  rw [exec, execVinGood]
  refine relates_onWhen (.inl rfl) ?_
  split
  · exact .inl rfl
  · exact bootsKeptOrNext_begin rfl

theorem boots_resetNRelease (s : State) : Relates BootsKeptOrNext s (exec .resetNRelease s) := by
  rw [exec, execResetNRelease]
  refine relates_onWhen (.inl rfl) ?_
  dsimp only
  split
  · exact bootsKeptOrNext_begin rfl
  · exact .inl rfl

/-- The rollback counter and the credentials. -/
def sealedView (m : Mach) : Nat × Two (List Cred) := (m.sec.rollback, m.cab.creds)

theorem sealedKept_restartAfterSave (vin ms : Nat) (s : State) :
    ViewKept sealedView s (exec (.restartAfterSave vin ms) s) := by
  dsimp only [exec, execRestartAfterSave]
  exact viewKept_onWhen (by simp only [sealedView, keeps_begin, keeps_restart])

theorem boots_restartAfterSave (vin ms : Nat) (s : State) :
    Relates BootsKeptOrNext s (exec (.restartAfterSave vin ms) s) := by
  dsimp only [exec, execRestartAfterSave]
  refine relates_onWhen (.inl rfl) (bootsKeptOrNext_begin ?_)
  simp only [keeps_restart]

/-! The rollback counter only rises (16 R500, R501). -/

def RollbackNotLower (m n : Mach) : Prop := m.sec.rollback ≤ n.sec.rollback

theorem rollback_le_rollbackAdvance (m : Mach) : RollbackNotLower m m.rollbackAdvance := by
  dsimp only [RollbackNotLower, Mach.rollbackAdvance]
  split
  · exact Nat.le_refl _
  · split
    · exact Nat.le_refl _
    next hlow =>
      simp only [keeps_raise, ite_sec_rollback, ite_self]
      omega

theorem rollback_le_of_rollbackAdvance {m n : Mach} (h : n.sec.rollback = m.sec.rollback) :
    RollbackNotLower m n.rollbackAdvance := by
  have hadv := rollback_le_rollbackAdvance n
  rwa [RollbackNotLower, h] at hadv

theorem rollback_le_apInstalled {m n : Mach} (t : Nat) (h : n.sec.rollback = m.sec.rollback) :
    RollbackNotLower m (n.apInstalled t) := by
  unfold Mach.apInstalled
  split
  · split
    · rw [RollbackNotLower]
      simp only [keeps_completed]
      exact rollback_le_of_rollbackAdvance (by simp only [keeps_endFault, keeps_fwEnd, h])
    · exact Nat.le_of_eq h.symm
  · exact Nat.le_of_eq h.symm

theorem rollback_le_bootAp (m : Mach) (side : Ab) : RollbackNotLower m (m.bootAp side) := by
  dsimp only [Mach.bootAp]
  split
  · exact rollback_le_apInstalled _ (by simp only [keeps_onAp, keeps_runSlot])
  · exact Nat.le_of_eq (by simp only [keeps_bootFault, keeps_onAp])

theorem rollback_startupStepComplete (s : State) : Relates RollbackNotLower s (exec .startupStepComplete s) := by
  rw [exec, execStartupStepComplete]
  refine relates_onWhen (Nat.le_refl _) ?_
  split
  · exact rollback_le_of_rollbackAdvance (by simp only [keeps_post])
  · exact Nat.le_of_eq (by simp only [keeps_enterStep])

theorem rollback_bootVerified (target : Nat) (cores : Three CoreBoot) (s : State) :
    Relates RollbackNotLower s (exec (.bootVerified target cores) s) := by
  rw [exec, execBootVerified]
  refine relates_onWhen (Nat.le_refl _) ?_
  split
  · exact Nat.le_of_eq (by simp only [keeps_startBlocks, keeps_bootKernel])
  · split
    · exact Nat.le_of_eq (by simp only [keeps_startBlocks, keeps_bootField])
    · exact rollback_le_bootAp _ _

/-- The frame count, the boot count and the credentials. -/
def bootedView (m : Mach) : Nat × Nat × Two (List Cred) := (m.time.frame, m.sec.boots, m.cab.creds)

theorem bootedKept_bootVerified (target : Nat) (cores : Three CoreBoot) (s : State) :
    ViewKept bootedView s (exec (.bootVerified target cores) s) := by
  rw [exec, execBootVerified]
  refine viewKept_onWhen ?_
  simp only [bootedView, keeps_bootAp, keeps_bootField, keeps_bootKernel, keeps_startBlocks, ite_time_frame, ite_sec_boots,
    ite_cab_creds, ite_self]

/-- The frame count and the boot count. -/
def countedView (m : Mach) : Nat × Nat := (m.time.frame, m.sec.boots)

theorem countedKept_startupStepComplete (s : State) : ViewKept countedView s (exec .startupStepComplete s) := by
  rw [exec, execStartupStepComplete]
  refine viewKept_onWhen ?_
  simp only [countedView, keeps_becomeReady, keeps_enterStep, ite_time_frame, ite_sec_boots, ite_self]

/-! What reads or writes the state blocks (08 R255, R268). -/

/-- All but the credentials. -/
def numbers (m : Mach) : Nat × Nat × Nat := (m.time.frame, m.sec.rollback, m.sec.boots)

theorem numbersKept_passwordWritten (agree : Three Bool) (s : State) :
    ViewKept numbers s (exec (.passwordWritten agree) s) := by
  rw [exec, execPasswordWritten]
  split
  · exact viewKept_next s
  · refine viewKept_on ?_
    simp only [numbers, keeps_completed, keeps_drawSalt, keeps_logEvent, keeps_writeBlocks, ite_time_frame,
      ite_sec_rollback, ite_sec_boots, ite_self]

theorem numbersKept_commitComplete (s : State) : ViewKept numbers s (exec .commitComplete s) := by
  rw [exec, execCommitComplete]
  split
  · exact viewKept_onWhen (by simp only [numbers, keeps_startResume, keeps_commitComplete])
  · exact viewKept_next s

/-! A frame (02 R36). -/

/-- The frame count of `n` is that of `m`, or one more. -/
def FrameKeptOrNext (m n : Mach) : Prop := n.time.frame = m.time.frame ∨ n.time.frame = m.time.frame + 1

theorem frameKeptOrNext_nextFrame (m : Mach) : FrameKeptOrNext m m.nextFrame := by
  cases hrun : m.time.running with
  | true => exact .inr (nextFrame_frame m hrun)
  | false =>
    refine .inl ?_
    dsimp only [Mach.nextFrame]
    rw [hrun, if_neg (by decide)]
    simp only [keeps_firstTick]

/-- The count moves at the start of the tick, and in no later phase of the frame. -/
theorem frame_frame (m before : Mach) (inp : FrameIn) :
    (m.frame before inp).time.frame = (m.takeEcc inp).nextFrame.time.frame := by
  dsimp only [Mach.frame, Mach.tickPhase]
  simp only [keeps_computePhase, keeps_freezePhase, keeps_positionPhase, keeps_recordPhase, keeps_assemble, keeps_bitsTick,
    keeps_busTick, keeps_cabTick, keeps_enableTick, keeps_engineCycle, keeps_engineTick, keeps_fieldTick, keeps_groupTick,
    keeps_sleepTick, keeps_takeRequests, keeps_unitTick, keeps_writesTick, ite_time_frame, ite_self]

theorem frameKeptOrNext_frame (m before : Mach) (inp : FrameIn) : FrameKeptOrNext m (m.frame before inp) := by
  have h := frameKeptOrNext_nextFrame (m.takeEcc inp)
  obtain ⟨-, hecc, -⟩ := keeps_takeEcc m inp
  rwa [FrameKeptOrNext, hecc, ← frame_frame m before inp] at h

/-- The rollback counter and the boot count. -/
def secView (m : Mach) : Nat × Nat := (m.sec.rollback, m.sec.boots)

/-- FRAME_TICK runs a frame of the module, a tick of the field side alone, or nothing. -/
theorem frameTick_cases {s t : State} {inp : FrameIn} (ht : exec (.frameTick inp) s = .next t) :
    t.now = s.now.deliver.frame s.shown inp ∨ t.now = s.now.fieldAlone ∨ t.now = s.now := by
  cases hticks : s.now.ticks with
  | true =>
    rw [exec_frameTick_of_ticks s inp hticks] at ht
    injection ht with ht
    exact .inl (by rw [← ht])
  | false =>
    cases hsave : s.now.power.saveDone with
    | true =>
      rw [exec_frameTick_of_saveDone s inp hticks hsave] at ht
      injection ht with ht
      exact .inr (.inl (by rw [← ht]))
    | false =>
      rw [exec_frameTick_of_idle s inp hticks hsave] at ht
      injection ht with ht
      exact .inr (.inr (by rw [← ht]))

theorem frameKeptOrNext_frameTick (inp : FrameIn) (s : State) : Relates FrameKeptOrNext s (exec (.frameTick inp) s) := by
  intro t ht
  obtain hrun | halone | hidle := frameTick_cases ht
  · rw [hrun]
    have h := frameKeptOrNext_frame s.now.deliver s.shown inp
    obtain ⟨-, hdeliver, -⟩ := keeps_deliver s.now
    rwa [FrameKeptOrNext, hdeliver] at h
  · rw [halone]
    exact .inr (fieldAlone_frame s.now)
  · rw [hidle]
    exact .inl rfl

theorem secKept_frameTick (inp : FrameIn) (s : State) : ViewKept secView s (exec (.frameTick inp) s) := by
  intro t ht
  obtain hrun | halone | hidle := frameTick_cases ht
  · simp only [hrun, secView, keeps_frame, keeps_deliver]
  · simp only [halone, secView, keeps_fieldAlone]
  · rw [hidle]

/-! The four parts of the obligation. -/

theorem frameCount_exec (k : Instr) (s t : State) (ht : exec k s = .next t) :
    t.now.time.frame = s.now.time.frame
    ∨ (∃ inp, k = .frameTick inp ∧ t.now.time.frame = s.now.time.frame + 1)
    ∨ (∃ us, k = .resetN us) ∨ (∃ v ms, k = .restartAfterSave v ms)
    ∨ (∃ v, k = .convertersOff v) ∨ (∃ us, k = .stateSaveComplete us) := by
  cases k with
  | frameTick inp => exact (frameKeptOrNext_frameTick inp s t ht).imp_right fun h => .inl ⟨inp, rfl, h⟩
  | resetN us => exact .inr (.inr (.inl ⟨us, rfl⟩))
  | restartAfterSave v ms => exact .inr (.inr (.inr (.inl ⟨v, ms, rfl⟩)))
  | convertersOff v => exact .inr (.inr (.inr (.inr (.inl ⟨v, rfl⟩))))
  | stateSaveComplete us => exact .inr (.inr (.inr (.inr (.inr ⟨us, rfl⟩))))
  | vinGood v ms => exact .inl (congrArg Prod.fst (begunKept_vinGood v ms s t ht))
  | resetNRelease => exact .inl (congrArg Prod.fst (begunKept_resetNRelease s t ht))
  | startupStepComplete => exact .inl (congrArg Prod.fst (countedKept_startupStepComplete s t ht))
  | bootVerified target cores => exact .inl (congrArg Prod.fst (bootedKept_bootVerified target cores s t ht))
  | passwordWritten agree => exact .inl (congrArg Prod.fst (numbersKept_passwordWritten agree s t ht))
  | commitComplete => exact .inl (congrArg Prod.fst (numbersKept_commitComplete s t ht))
  | _ => exact .inl (congrArg Counters.frame (countersKept_exec _ s rfl t ht))

theorem bootCount_exec (k : Instr) (s t : State) (ht : exec k s = .next t) :
    t.now.sec.boots = s.now.sec.boots
    ∨ ((∃ v ms, k = .vinGood v ms) ∨ k = .resetNRelease ∨ (∃ v ms, k = .restartAfterSave v ms))
      ∧ t.now.sec.boots = (s.now.sec.boots + 1) % 2 ^ 32 := by
  cases k with
  | vinGood v ms => exact (boots_vinGood v ms s t ht).imp_right fun h => ⟨.inl ⟨v, ms, rfl⟩, h⟩
  | resetNRelease => exact (boots_resetNRelease s t ht).imp_right fun h => ⟨.inr (.inl rfl), h⟩
  | restartAfterSave v ms =>
    exact (boots_restartAfterSave v ms s t ht).imp_right fun h => ⟨.inr (.inr ⟨v, ms, rfl⟩), h⟩
  | frameTick inp => exact .inl (congrArg Prod.snd (secKept_frameTick inp s t ht))
  | resetN us => exact .inl (congrArg (·.2.1) (lastingKept_resetN us s t ht))
  | convertersOff v => exact .inl (congrArg (·.2.1) (lastingKept_convertersOff v s t ht))
  | stateSaveComplete us => exact .inl (congrArg (·.2.1) (lastingKept_stateSaveComplete us s t ht))
  | startupStepComplete => exact .inl (congrArg Prod.snd (countedKept_startupStepComplete s t ht))
  | bootVerified target cores => exact .inl (congrArg (·.2.1) (bootedKept_bootVerified target cores s t ht))
  | passwordWritten agree => exact .inl (congrArg (·.2.2) (numbersKept_passwordWritten agree s t ht))
  | commitComplete => exact .inl (congrArg (·.2.2) (numbersKept_commitComplete s t ht))
  | _ => exact .inl (congrArg Counters.boots (countersKept_exec _ s rfl t ht))

theorem rollbackCounter_exec (k : Instr) (s t : State) (ht : exec k s = .next t) :
    t.now.sec.rollback = s.now.sec.rollback
    ∨ (k = .startupStepComplete ∨ ∃ tg cores, k = .bootVerified tg cores)
      ∧ s.now.sec.rollback ≤ t.now.sec.rollback := by
  cases k with
  | startupStepComplete => exact .inr ⟨.inl rfl, rollback_startupStepComplete s t ht⟩
  | bootVerified target cores => exact .inr ⟨.inr ⟨target, cores, rfl⟩, rollback_bootVerified target cores s t ht⟩
  | frameTick inp => exact .inl (congrArg Prod.fst (secKept_frameTick inp s t ht))
  | resetN us => exact .inl (congrArg Prod.fst (lastingKept_resetN us s t ht))
  | convertersOff v => exact .inl (congrArg Prod.fst (lastingKept_convertersOff v s t ht))
  | stateSaveComplete us => exact .inl (congrArg Prod.fst (lastingKept_stateSaveComplete us s t ht))
  | restartAfterSave v ms => exact .inl (congrArg Prod.fst (sealedKept_restartAfterSave v ms s t ht))
  | vinGood v ms => exact .inl (congrArg (·.2.1) (begunKept_vinGood v ms s t ht))
  | resetNRelease => exact .inl (congrArg (·.2.1) (begunKept_resetNRelease s t ht))
  | passwordWritten agree => exact .inl (congrArg (·.2.1) (numbersKept_passwordWritten agree s t ht))
  | commitComplete => exact .inl (congrArg (·.2.1) (numbersKept_commitComplete s t ht))
  | _ => exact .inl (congrArg Counters.rollback (countersKept_exec _ s rfl t ht))

theorem credentials_exec (k : Instr) (s t : State) (ht : exec k s = .next t) :
    t.now.cab.creds = s.now.cab.creds ∨ (∃ a, k = .passwordWritten a)
    ∨ k = .startupStepComplete ∨ k = .commitComplete ∨ (∃ inp, k = .frameTick inp) := by
  cases k with
  | passwordWritten agree => exact .inr (.inl ⟨agree, rfl⟩)
  | startupStepComplete => exact .inr (.inr (.inl rfl))
  | commitComplete => exact .inr (.inr (.inr (.inl rfl)))
  | frameTick inp => exact .inr (.inr (.inr (.inr ⟨inp, rfl⟩)))
  | resetN us => exact .inl (congrArg (·.2.2) (lastingKept_resetN us s t ht))
  | convertersOff v => exact .inl (congrArg (·.2.2) (lastingKept_convertersOff v s t ht))
  | stateSaveComplete us => exact .inl (congrArg (·.2.2) (lastingKept_stateSaveComplete us s t ht))
  | restartAfterSave v ms => exact .inl (congrArg Prod.snd (sealedKept_restartAfterSave v ms s t ht))
  | vinGood v ms => exact .inl (congrArg (·.2.2) (begunKept_vinGood v ms s t ht))
  | resetNRelease => exact .inl (congrArg (·.2.2) (begunKept_resetNRelease s t ht))
  | bootVerified target cores => exact .inl (congrArg (·.2.2) (bootedKept_bootVerified target cores s t ht))
  | _ => exact .inl (congrArg Counters.creds (countersKept_exec _ s rfl t ht))

/-- Settles O8: outside eleven commands the four are left as they are (`countersKept_exec`), and each of the eleven is
read on its own. -/
theorem countersChangeOnlyByTheirEvents : Obligations.CountersChangeOnlyByTheirEvents :=
  ⟨frameCount_exec, bootCount_exec, rollbackCounter_exec, credentials_exec⟩

end Sys2Proof.Proofs
end
